-- ==== Sys2Proof/Word.lean ====
section
/-! DEFINITION. The word types of the Z96 and the sorted map that holds its sparse tables.
Registers are 32-bit words (R7); device time is a 64-bit count of 125 ps units (ST64, R22), kept as an exact
integer inside the model and narrowed only where a register shows it. -/

namespace Sys2Proof

abbrev Byte := BitVec 8
abbrev W16 := BitVec 16
abbrev W32 := BitVec 32
abbrev W64 := BitVec 64

/-- A stamp: device time in ST64 units of 125 ps (R22). -/
abbrev Stamp := Int

/-- A sparse table: key and value pairs with strictly rising keys. -/
abbrev Map (α : Type) := List (Nat × α)

/-- Bits `[hi:lo]` of a natural number. -/
def bits (v hi lo : Nat) : Nat := (v >>> lo) % 2 ^ (hi - lo + 1)

/-- Bit `i` of a natural number. -/
def bit (v i : Nat) : Bool := v.testBit i

/-- One bit placed at position `i`. -/
def atBit (i : Nat) (b : Bool) : Nat := if b then 2 ^ i else 0

/-- A 32-bit word from a natural number, keeping the low 32 bits. -/
def w32 (v : Nat) : W32 := BitVec.ofNat 32 v

/-- The 64-bit two's complement view of a stamp. -/
def stampNat (t : Stamp) : Nat := (t % 18446744073709551616).toNat

/-- The low and the high word of a stamp's 64-bit view. -/
def stampLo (t : Stamp) : Nat := stampNat t % 4294967296
def stampHi (t : Stamp) : Nat := stampNat t / 4294967296

end Sys2Proof
end

