-- ==== Sys2Proof/Syntax.lean ====
section
/-! DEFINITION. The commands of the Z96: one constructor for each row of spec/opcode_table.json, with the operands the
row's rule gives it, and the records that operands carry. -/

namespace Sys2Proof

/-- A bus frame in internal form (R194): the 16-byte header's fields and the data bytes. `flx` holds the FlexRay
str, syn, pre and nfi indicators (R220) in bits 3, 2, 1 and 0. -/
structure BusFrame where
  bus : Nat := 0
  xlf : Bool := false
  fdf : Bool := false
  brs : Bool := false
  esi : Bool := false
  rtr : Bool := false
  sealedOk : Bool := false
  ident : Nat := 0
  sdt : Nat := 0
  vcid : Nat := 0
  sec : Bool := false
  cycle : Nat := 0
  af : Nat := 0
  flx : Nat := 0
  data : List Byte := []
deriving DecidableEq, Repr, Inhabited

/-- What a MAC saw of one received frame (R280, R302): the raw ingress stamp as the stamp unit took it, the phase of
the last FCS bit, the bytes from destination address to FCS, whether a code error fell inside the frame, the SMD
fragment trace of a preemptable frame (R287), whether the last mCRC was wrong, whether the crypto engine's own check failed
on the frame (R523), and whether it was a verify frame of the MAC merge sublayer (SMD-V, R285). -/
structure EthRx where
  rawIngress : Int := 0
  ingSegBack : Nat := 0
  phase : Nat := 0
  bytes : List Byte := []
  pcsError : Bool := false
  preemptable : Bool := false
  fragments : List Nat := []
  mcrcError : Bool := false
  checkBad : Bool := false
  verify : Bool := false
deriving DecidableEq, Repr

/-- A bus error as the controller's protocol engine sees it (R353, R366): the last error code, whether the controller
was transmitting, whether ISO 11898-1 counts it 8 for a receiver, whether it leaves the counters alone (an
acknowledgement error of an error-passive transmitter), and whether it destroys a frame not yet counted. -/
structure CanError where
  code : Nat := 0
  asTx : Bool := false
  heavy : Bool := false
  noCount : Bool := false
  destroyed : Bool := true
deriving DecidableEq, Repr

/-- What is wrong with a frame at its handover (R121, R123, R523): a bit that the stage-two read of a cell gets wrong, as
(cell index, bit), and whether the check of its sealing fails. -/
structure HandFault where
  flip : Option (Nat × Nat) := none
  bad : Bool := false
  deriving DecidableEq, Repr

/-- What an MKPDU holds beyond its sender's SCI and key-server priority (R525): its key-server flag, the sender's member identifier and message
number, its live and potential peers by member identifier and message number, the AN, key number and wrapped SAK that it
distributes, and its ICV. [Log 117: PRESUMED] -/
structure Mkpdu where
  server : Bool := false
  mi : Nat
  mn : Nat
  live : List (Nat × Nat) := []
  potential : List (Nat × Nat) := []
  dist : Option (Nat × Nat × List (BitVec 8)) := none
  icv : List (BitVec 8) := []
  deriving DecidableEq, Repr

/-- A frame start of a MAC (R243): its number, and whether the check of its MACsec work fails (R523). -/
structure MacStart where
  port : Nat
  bad : Bool := false
  deriving DecidableEq, Repr

/-- What a reference message tells: the priority of its sender and the cycle count (R352). -/
structure TtRef where
  prio : Nat := 0
  cycle : Nat := 0
  deriving DecidableEq, Repr

/-- A header on a LIN bus: its identifier and the controller's counter at the end of the protected identifier (R382). -/
structure LinWait where
  ident : Nat
  pidEnd : Nat := 0
  deriving DecidableEq, Repr

/-- An action point (R385, R386): the counter of FR0 there. -/
structure FlxPoint where
  cnt : Nat
  deriving DecidableEq, Repr

/-- The stamp unit that reports a distribution error, and whether a tick was doubled rather than missed (R25). -/
structure DistMiss where
  island : Nat
  doubled : Bool := false
  deriving DecidableEq, Repr

/-- A received gPTP message as the firmware reads it (R410, IEEE 802.1AS): its type (0 Sync, 1 Follow_Up, 2 Pdelay_Req,
3 Pdelay_Resp, 4 Pdelay_Resp_Follow_Up, 5 Announce), sequence number, two-step flag, correction in 2⁻¹⁶ ns, the time
stamp it carries in ns, its ingress stamp with the segments that have passed since, the sender's port identity, the
root system identity, steps removed and UTC offset it announces, and the rate offset it carries. -/
structure GptpMsg where
  typ : Nat := 0
  seq : Nat := 0
  twoStep : Bool := true
  corr : Int := 0
  time : Int := 0
  rx : Int := 0
  segBack : Nat := 0
  source : Nat := 0
  root : Nat := 0
  steps : Nat := 0
  utc : Int := 0
  rate : Int := 0
deriving DecidableEq, Repr

/-- A side-channel message (R450): class, type within the class, destination, source and hops of its header, and what
it carries, as the numbers in the order in which the spec lists them. [Log 101: DESIGN CHOICE] -/
structure SideMsg where
  cls : Nat := 1
  typ : Nat := 0
  dst : Nat := 0
  src : Nat := 0
  hops : Nat := 0
  body : List Int := []
deriving DecidableEq, Repr

/-- The commands. A mailbox command carries the index of the mailbox that holds its request (R545). -/
inductive Instr
  /-- SPI_TRANSACTION. R704: A CS_N-framed SPI transaction that reads or writes BAR0 words by opcode, address and data phases. -/
  | spiTransaction (mosi : List Byte)
  /-- REGISTER_WRITE. R9: A host, SPI or remote write to a BAR0 register that has no row of its own, acting by the field access codes. -/
  | registerWrite (off size : Nat) (value : W32)
  /-- RC_READ. R11: A read of an RC field returns its value and clears it, keeping any event of the same cycle. -/
  | rcRead (off size : Nat)
  /-- LATCHING_LO_READ. R83: A read of a low half such as FAB_STR_FRONT_LO or TB_DT_LO latches the matching high half. -/
  | latchingLoRead (off : Nat)
  /-- MBX_DB_RING. R549: A write of 1 to RING moves an IDLE or DONE mailbox to BUSY, or sets DB_BUSY if the mailbox is already BUSY. -/
  | mbxDbRing (m : Nat) (value : W32)
  /-- MAILBOX_TAKE_UP. R555: The firmware takes up a BUSY mailbox in service-first doorbell order and runs the checks of R559. -/
  | mailboxTakeUp
  /-- APPLY_AT_CHANGE. R59: A mailbox-driven or firmware-originated change is released in Strata order when the frontier reaches its apply-at stamp. -/
  | applyAtChange
  /-- SYS_INFO. R584: Returns identification, versions, island status, the fence map and the heartbeat. -/
  | sysInfo (m : Nat)
  /-- SYS_RUN. R585: Ends CONFIG and starts the run at the next epoch boundary START, replying once the frontier reaches START. -/
  | sysRun (m : Nat)
  /-- SYS_RESET_FIRMWARE. R586: SYS_RESET KIND 0 replies OK and starts a firmware reset 1 ms later. -/
  | sysResetFirmware (m : Nat)
  /-- SYS_RESET_FACTORY. R587: SYS_RESET KIND 1 erases the configuration copies, the last-gasp area and optionally the journal, then resets. -/
  | sysResetFactory (m : Nat)
  /-- CFG_PARAM_READ. R588: Returns the last accepted values of up to 32 parameters. -/
  | cfgParamRead (m : Nat)
  /-- CFG_PARAM_WRITE. R589: Checks every parameter of the write, then applies all of them at once or at one apply-at stamp, or none. -/
  | cfgParamWrite (m : Nat)
  /-- CFG_IMAGE_INFO. R591: Reports the versions, check words, rejection causes and selection of the configuration copies. -/
  | cfgImageInfo (m : Nat)
  /-- CAT_SEARCH. R592: Looks up one key in one partition at the apply-at stamp and returns the entry or NOT_FOUND. -/
  | catSearch (m : Nat)
  /-- CAT_NEXT. R593: Returns up to 15 valid entries above a cursor, scanning at most 65,536 slots. -/
  | catNext (m : Nat)
  /-- CAT_INSERT. R594: Inserts or updates an entry under R179, replacing a dynamic candidate when REPLACE allows. -/
  | catInsert (m : Nat)
  /-- CAT_DELETE. R596: Removes the entry with a given key from a partition and clears its vitrine copy. -/
  | catDelete (m : Nat)
  /-- CAT_FLUSH_PORT. R597: Logically removes the T0 entries of one port at the apply-at stamp, then removes them physically. -/
  | catFlushPort (m : Nat)
  /-- CAT_FLUSH_PART. R597: Logically removes the dynamic, or all, entries of one partition at the apply-at stamp, then removes them physically. -/
  | catFlushPart (m : Nat)
  /-- FLUSH_REMOVAL_DONE. R182: Hardware completes the physical removal of a flush, and the firmware replies with the match count. -/
  | flushRemovalDone (n : Nat)
  /-- SIG_PDU_SET. R598: Replaces a PDU descriptor and restarts the PDU with INIT at the apply-at stamp. -/
  | sigPduSet (m : Nat)
  /-- SIG_PDU_GET. R600: Returns a PDU descriptor and its content as ordered before the apply-at stamp. -/
  | sigPduGet (m : Nat)
  /-- SIG_ALT_SET. R601: Changes the masked REROUTED flags at the apply-at stamp. -/
  | sigAltSet (m : Nat)
  /-- EGR_GATE_LOAD. R602: Writes entries into a port's inactive gate-list bank at once. -/
  | egrGateLoad (m : Nat)
  /-- EGR_GATE_COMMIT. R603: Makes the inactive gate bank active, or opens every gate, from the apply-at stamp. -/
  | egrGateCommit (m : Nat)
  /-- EGR_LEAF_MAP. R604: Sets a mode-1 port's leaf map for admissions from the apply-at stamp. -/
  | egrLeafMap (m : Nat)
  /-- EGR_NODE_WEIGHT. R604: Sets domain and service weights of a mode-1 port from the apply-at stamp. -/
  | egrNodeWeight (m : Nat)
  /-- POL_FILTER_SET. R605: Sets a range of stream filters, including setting or clearing BLOCKED, at the apply-at stamp. -/
  | polFilterSet (m : Nat)
  /-- POL_METER_SET. R605: Sets RATE and BURST of a range of meters at the apply-at stamp under R236. -/
  | polMeterSet (m : Nat)
  /-- POL_GET. R606: Returns a filter's or meter's settings and the meter level brought forward to the apply-at stamp. -/
  | polGet (m : Nat)
  /-- ETH_PORT_CTL_ADMIN. R607: ETH_PORT_CTL holds or releases a port's link through ADMIN_DOWN. -/
  | ethPortCtlAdmin (m : Nat)
  /-- ETH_PORT_CTL_AN_RESTART. R607: ETH_PORT_CTL restarts in-band auto-negotiation on a port. -/
  | ethPortCtlAnRestart (m : Nat)
  /-- CAN_RECOVER. R608: Begins bus-off recovery of a gateway-owned controller. -/
  | canRecover (m : Nat)
  /-- CAN_OWN_TAKE. R609: Host software takes a controller at the apply-at stamp and binds a direct-window slot. -/
  | canOwnTake (m : Nat)
  /-- CAN_OWN_GIVE. R609: Host software gives a controller back to the gateway at the apply-at stamp and frees its slot. -/
  | canOwnGive (m : Nat)
  /-- LIN_TABLE_START. R610: Starts a schedule table from the first slot start at or after the apply-at stamp. -/
  | linTableStart (m : Nat)
  /-- LIN_TABLE_STOP. R610: LIN_TABLE with 0xF stops the commander's headers from the first slot start at or after the stamp. -/
  | linTableStop (m : Nat)
  /-- FLX_RUN. R611: FLX_CMD RUN moves FR0 from ready to startup. -/
  | flxRun (m : Nat)
  /-- FLX_ALLOW_COLDSTART. R611: FLX_CMD ALLOW_COLDSTART lets a coldstart node lead startup. -/
  | flxAllowColdstart (m : Nat)
  /-- FLX_WAKEUP. R611: FLX_CMD WAKEUP sends the wakeup pattern on a channel from ready. -/
  | flxWakeup (m : Nat)
  /-- FLX_HALT. R611: FLX_CMD HALT enters halt at the end of the current cycle. -/
  | flxHalt (m : Nat)
  /-- FLX_FREEZE. R611: FLX_CMD FREEZE enters halt at once. -/
  | flxFreeze (m : Nat)
  /-- TIME_STATUS. R615: Returns timebase status and one gPTP instance's state. -/
  | timeStatus (m : Nat)
  /-- TIME_STEP. R616: Requests a local step of device time by a signed delta and replies after the step tick. -/
  | timeStep (m : Nat)
  /-- TIME_STEP_CHAIN. R617: On the time root, announces a chain-wide step with its instant T_s and steps locally. -/
  | timeStepChain (m : Nat)
  /-- CHN_TOPO. R618: Returns the reach entries above a cursor. -/
  | chnTopo (m : Nat)
  /-- CHN_RING_FAILOVER. R619: On the ring owner with CHN_RING_AUTO 0, commands a failover at a flooded apply-at stamp. -/
  | chnRingFailover (m : Nat)
  /-- CHN_RING_RESTORE. R619: On the ring owner with CHN_RING_AUTO 0, commands a restore at a flooded apply-at stamp. -/
  | chnRingRestore (m : Nat)
  /-- RMT_EXEC. R620: Runs one remote access operation in a firmware bridge slot and replies when it ends. -/
  | rmtExec (m : Nat)
  /-- KEY_PROVISION. R621: Under presence, journals a privileged key value and writes it into its slot at the apply-at stamp. -/
  | keyProvision (m : Nat)
  /-- KEY_DERIVE. R623: Writes a derived slot's parent, label and attributes at the apply-at stamp and journals them. -/
  | keyDerive (m : Nat)
  /-- KEY_REVOKE. R624: Sets a slot and its descendants REVOKED at the apply-at stamp. -/
  | keyRevoke (m : Nat)
  /-- KEY_ROOT_NEW. R625: Under presence with a revoked root, replies and starts a firmware reset so the boot ROM makes a new root. -/
  | keyRootNew (m : Nat)
  /-- KEY_INFO. R626: Returns a slot's state, attributes, parent and label. -/
  | keyInfo (m : Nat)
  /-- KEY_ATTEST. R627: Writes a signed attestation report or the public key into the host shared region. -/
  | keyAttest (m : Nat)
  /-- PWR_SET_OFF. R628: PWR_SET OP 0 commands the addressed channels OFF over the die link. -/
  | pwrSetOff (m : Nat)
  /-- PWR_SET_ON. R628: PWR_SET OP 1 commands the addressed channels ON over the die link. -/
  | pwrSetOn (m : Nat)
  /-- PWR_SET_PWM. R628: PWR_SET OP 2 commands the addressed channels to PWM at a duty and frequency. -/
  | pwrSetPwm (m : Nat)
  /-- PWR_RESTART. R628: Releases latched channels whose restart condition holds to their commanded states. -/
  | pwrRestart (m : Nat)
  /-- PWR_PROFILE. R629: Sets the load profile, limits, restart policy and safe state of an off channel. -/
  | pwrProfile (m : Nat)
  /-- PWR_STATUS. R630: Returns the last load-channel telemetry. -/
  | pwrStatus (m : Nat)
  /-- NM_SLEEP. R631: Replies OK and enters SLEEP_PREP whatever the keep-alive state. -/
  | nmSleep (m : Nat)
  /-- NM_STAY. R632: Sets the module's own need for the bus through AWAKE. -/
  | nmStay (m : Nat)
  /-- NM_INSOMNIA. R633: Returns the insomnia log and optionally clears it. -/
  | nmInsomnia (m : Nat)
  /-- NM_WAKE_CAUSE. R633: Returns the source, index, identifier and time of the last wake. -/
  | nmWakeCause (m : Nat)
  /-- ARC_TRIGGER. R733: Sets a rewind mark on an archive ring at the apply-at stamp. -/
  | arcTrigger (m : Nat)
  /-- ARC_ACK. R735: Removes the rewind mark at the apply-at stamp, and a held ring resumes writing. -/
  | arcAck (m : Nat)
  /-- ARC_PLAY. R736: Starts a playback session that re-injects a ring's records at F20 with pass offset P. -/
  | arcPlay (m : Nat)
  /-- ARC_PLAY_STOP. R635: ARC_PLAY with STOP ends the running playback session at the apply-at stamp. -/
  | arcPlayStop (m : Nat)
  /-- ARC_STATUS. R634: Returns an archive ring's mode, mark, write offset and drop count. -/
  | arcStatus (m : Nat)
  /-- UPD_BEGIN. R637: Opens an update session for a local or remote target after version and room checks. -/
  | updBegin (m : Nat)
  /-- UPD_BLOCK. R638: Carries one chunk of a delta block; a complete block is checked and stored at the target. -/
  | updBlock (m : Nat)
  /-- UPD_VERIFY. R639: Reconstructs the image from the delta and verifies its signature. -/
  | updVerify (m : Nat)
  /-- UPD_ACTIVATE. R640: Activates a verified firmware image by writing the spare slot and entering HANDOVER. -/
  | updActivate (m : Nat)
  /-- UPD_ACTIVATE_CONFIG. R641: Writes a verified configuration into copy B and then copy A for the next BOOT. -/
  | updActivateConfig (m : Nat)
  /-- UPD_ABORT. R639: Closes the update session and discards its staging. -/
  | updAbort (m : Nat)
  /-- UPD_STATUS. R636: Returns the phase, kind, block counts and target of the session. -/
  | updStatus (m : Nat)
  /-- DIAG_SELFTEST. R642: Runs the targeted self-test of one island and reports pass or fail and duration. -/
  | diagSelftest (m : Nat) (pass : Bool) (us : Nat)
  /-- DIAG_ERRLOG. R752: Returns error-log records after a cursor. -/
  | diagErrlog (m : Nat)
  /-- DIAG_DEBUG_UNLOCK. R643: Under presence, unlocks debug access to the main copies of the Curator pairs. -/
  | diagDebugUnlock (m : Nat)
  /-- DIAG_DEBUG_LOCK. R643: Locks debug access again. -/
  | diagDebugLock (m : Nat)
  /-- DEBUG_AUTOLOCK. R643: Debug access locks when DIAG_DEBUG_AUTOLOCK_S seconds have passed since the unlock. -/
  | debugAutolock
  /-- DIAG_LASTGASP. R644: Returns bytes of the newest valid last-gasp record from an offset. -/
  | diagLastgasp (m : Nat)
  /-- ETH_FRAME_RECEIVE. R280: A MAC of E0-E11, K0 or K1 receives a whole frame, stamps it and applies its receive checks before delivery. -/
  | ethFrameReceive (p : Nat) (rx : EthRx)
  /-- TIS_FRAME_RECEIVE. R277: An S port receives a frame, applies its checks, drops tagged frames and inserts the configured tag. -/
  | tisFrameReceive (p : Nat) (rx : EthRx)
  /-- PENDING_CELLS_AVAILABLE. R97: An internal engine waiting for pending cells resumes once its allotment has room. -/
  | pendingCellsAvailable (f : Nat)
  /-- STRATA_ARRIVAL. R45: A frame, including a re-injected one, reaches Strata and takes its order key and sequence. -/
  | strataArrival (f sub : Nat)
  /-- FRAME_RELEASE. R48: Strata releases the pending frame with the smallest order key once the frontier reaches it and takes all its ordered decisions. -/
  | frameRelease (ecc : List Nat)
  /-- SEGMENT_CLOSE. R75: H after a step tick Strata closes the old segment and begins releasing the new one. -/
  | segmentClose
  /-- AGEING_VISIT. R173: The ageing sweeper visits a dynamic T0 entry at its stamp and clears HIT, sets STRIKE or removes it. -/
  | ageingVisit
  /-- VITRINE_VISIT. R185: The comparer visits a slot at its stamp and compares it with its vitrine copy. -/
  | vitrineVisit
  /-- COMPOSER_CYCLIC_EXPIRY. R205: A PDU's cyclic expiry at E + PHASE + k PERIOD causes a transmission. -/
  | composerCyclicExpiry
  /-- PDU_TRANSMISSION_EVENT. R208: A scheduled transmission event snapshots the PDU and queues it at F13 egress. -/
  | pduTransmissionEvent
  /-- SIGNAL_TIMEOUT. R213: A route's deadline expires and the router sets TIMED_OUT and writes the substitute or holds. -/
  | signalTimeout
  /-- ACCOUNTED_SELECTION. R241: An idle accounted transmitter selects a candidate copy at a stamp and fixes its start, departure and planned launch. -/
  | accountedSelection (f : Nat)
  /-- AGEING_SCRUB_VISIT. R111: The scrubber frees the physical cells of a queued copy whose age limit the frontier has passed. -/
  | ageingScrubVisit (f tag : Nat)
  /-- STAGED_HANDOVER. R121: An output hands a frame whose cells are all staged to its MAC, PHYs, controllers or engine in selection order. -/
  | stagedHandover (f : Nat) (fault : HandFault)
  /-- COMMITTED_BUFFER_COMMIT. R369: A LIN or FlexRay frame commits to its committed buffer at C = E + 8 Lambda_G. -/
  | committedBufferCommit (bus : Nat)
  /-- AGGREGATOR_RESUME. R279: The aggregator takes the next copy from F12 once transmit buffer room is free. -/
  | aggregatorResume (p : Nat)
  /-- HDMA_RX_WAIT_EXPIRY. R722: After WAIT_US without a buffer, the frame is truncated or dropped. -/
  | hdmaRxWaitExpiry (r : Nat)
  /-- MAC_FRAME_START. R243: The MAC starts the next selected frame at the latest of P, the previous end plus IFG and full staging. -/
  | macFrameStart (x : MacStart)
  /-- PAUSE_FRAME_SEND. R291: The MAC sends a pause frame for an XOFF or XON decision before its next data frame. -/
  | pauseFrameSend (p : Nat)
  /-- PAUSE_REFRESH. R291: Every REFRESH quanta in XOFF the MAC repeats the pause frame. -/
  | pauseRefresh (p : Nat)
  /-- PAUSE_STOP_EXPIRY. R292: The received pause time runs out and the MAC may start data frames again. -/
  | pauseStopExpiry (p : Nat)
  /-- PAUSE_WATCHDOG. R293: An uninterrupted received pause reaching WD_US ends the stop and starts HOLD_US. -/
  | pauseWatchdog (p : Nat)
  /-- PAUSE_HOLD_END. R293: HOLD_US ends and received pause frames act again. -/
  | pauseHoldEnd (p : Nat)
  /-- LINK_UP. R272: The PCS synchronises and the partner reports link, and the MAC reports link up or holds it down on rate mismatch. -/
  | linkUp (p : Nat) (rate : Nat)
  /-- LINK_DOWN_TIMEOUT. R272: After 2 ms without synchronisation the MAC reports link down. -/
  | linkDownTimeout (p : Nat)
  /-- VERIFY_FRAME_TIMER. R285: Every VERIFY_MS the MAC sends a verify frame, and after three unanswered it declares failure. -/
  | verifyFrameTimer (p : Nat) (answered : Bool)
  /-- PLCA_BEACON_LOSS. R275: A follower without a BEACON for 4 ms falls back to CSMA/CD. -/
  | plcaBeaconLoss (p : Nat)
  /-- TIS_COLLISION. R276: A transmit collision on an S port retries or, after MAX_ATT attempts, drops the frame. -/
  | tisCollision (p : Nat)
  /-- HDMA_TX_TAIL_WRITE. R714: Host software advances a transmit ring's tail over new descriptors. -/
  | hdmaTxTailWrite (r : Nat) (value : W32)
  /-- HDMA_TX_FETCH. R716: The HOST island fetches a complete frame round-robin once the host hold has room, stamps it and completes it. -/
  | hdmaTxFetch (r : Nat) (descs bufs : List (List Byte))
  /-- HOST_INJECTION. R61: A held frame is injected exactly at its requested injection stamp. -/
  | hostInjection (r : Nat)
  /-- HDMA_RX_TAIL_WRITE. R722: Host software posts receive buffers by advancing the tail. -/
  | hdmaRxTailWrite (r : Nat) (value : W32) (bufs : List (Nat × Nat))
  /-- HDMA_RING_EN_WRITE. R724: A write of EN starts a ring or, with 0 during delivery, cuts the frame. -/
  | hdmaRingEnWrite (tx : Bool) (r : Nat) (value : W32)
  /-- PCIE_DMA_ERROR. R724: A PCIe error on a descriptor or buffer access stops the ring; `frame` is the number of descriptors of the transmit frame when its EOP descriptor can still be written. -/
  | pcieDmaError (tx : Bool) (r addr : Nat) (frame : Option Nat)
  /-- INT_VACK_WRITE. R712: A write to INT_VACK re-arms a vector and resends its message if still pending. -/
  | intVackWrite (value : W32)
  /-- TSQ_ENT0_READ. R309: A read of TSQ_ENT0 latches the oldest timestamp entry into the four words. -/
  | tsqEnt0Read (q : Nat)
  /-- TSQ_ENT3_READ. R309: A read of TSQ_ENT3 after ENT0 removes the latched entry. -/
  | tsqEnt3Read (q : Nat)
  /-- CAN_MB_HDR_READ. R337: An owner read of a buffer header gives it the controller's lock. -/
  | canMbHdrRead (c n : Nat) (host : Bool)
  /-- CAN_MB_LAST_WORD_READ. R338: A read of the locked buffer's last word releases the lock and writes the shadow or completion latch. -/
  | canMbLastWordRead (c n : Nat) (host : Bool)
  /-- CAN_MB_HDR_WRITE. R338: An owner write of a buffer header releases the lock and sets an owner-written code. -/
  | canMbHdrWrite (c n : Nat) (host : Bool) (value : W32)
  /-- CAN_TX_PENDING_WRITE. R335: The owner writes TX_PENDING, making the buffer a request for arbitration with its request time. -/
  | canTxPendingWrite (c n : Nat) (host : Bool) (value : W32)
  /-- CAN_TX_ABORT_REQ. R334: The owner withdraws a buffer request, taking effect at once or at the end of a frame on the bus. -/
  | canTxAbortReq (c n : Nat) (host : Bool)
  /-- CAN_TX_TT_WRITE. R350: The owner writes TX_TT, making the buffer send in its matrix cells. -/
  | canTxTtWrite (c n : Nat) (host : Bool) (value : W32)
  /-- CAN_HCTL_REC_WRITE. R355: A host write of REC begins bus-off recovery of a host-owned controller. -/
  | canHctlRecWrite (c : Nat)
  /-- CAN_FRAME_RECEIVE. R328: A controller receives a frame without error, stamps it and delivers it to F13 and its buffers. -/
  | canFrameReceive (c sof eof : Nat) (frame : BusFrame)
  /-- SEAL_VERIFY. R330: The CRY island verifies a sealed frame, which passes with SEALED_OK or is discarded. -/
  | sealVerify (c : Nat) (bad : Bool)
  /-- CAN_TX_START. R345: The controller offers its highest-priority pending frame to arbitration after age checks. -/
  | canTxStart (c : Nat) (idle : Bool)
  /-- CAN_TX_DONE. R340: A transmission ends, and the buffer or GTQ head is completed or offered again. -/
  | canTxDone (c outcome : Nat)
  /-- CAN_ERROR_DETECTED. R353: The controller detects a bus error and updates TEC, REC and its fault state. -/
  | canErrorDetected (c : Nat) (err : CanError)
  /-- CAN_RECOVERY_COMPLETE. R355: After 128 occurrences of 11 recessive bits, recovery ends and the controller is error-active. -/
  | canRecoveryComplete (c : Nat)
  /-- CAN_COLLISION. R357: A dominant bit sampled in the data field of a sent frame is a collision. -/
  | canCollision (c : Nat)
  /-- CAN_TT_COLUMN. R350: At a column time mark the named buffer is sent in its window or counted as a miss. -/
  | canTtColumn (c k : Nat) (idle : Bool)
  /-- CAN_TT_REFERENCE. R352: A reference message is sent or received, restarting cycle time. -/
  | canTtReference (c : Nat) (sent : Bool) (sof : Nat) (ref : TtRef)
  /-- CAN_TT_REF_TIMEOUT. R352: No reference message for 2 CYCLE_NTU sets TT_ERR or makes a master send it. -/
  | canTtRefTimeout (c : Nat)
  /-- BTM_SYNC_TIMER. R423: Every PERIOD the firmware writes a SYNC bus time message into MB_62. -/
  | btmSyncTimer (c : Nat)
  /-- BTM_FOLLOW_WRITE. R424: When SYNC reads TX_DONE the firmware writes FOLLOW, and EPOCH where due, into MB_63. -/
  | btmFollowWrite (c : Nat)
  /-- LIN_SLOT_START. R377: A schedule slot of a commander begins as an ordered internal event. -/
  | linSlotStart
  /-- LIN_HEADER_START. R378: The commander starts the break of a slot's header at S + 8 Lambda_G. -/
  | linHeaderStart (l : Nat)
  /-- LIN_FRAME_RECEIVE. R375: A LIN controller receives a frame and delivers subscribed identifiers to F13. -/
  | linFrameReceive (l sof eof pid : Nat) (data : List Byte) (check err : Nat)
  /-- LIN_RESPONSE. R381: A responder answers a header for a published identifier with committed content. -/
  | linResponse (l pidEnd pid : Nat)
  /-- LIN_NO_RESPONSE. R382: A subscribed response not complete within its time is a no-response error. -/
  | linNoResponse (l : Nat) (h : LinWait)
  /-- FLX_ACTION_POINT. R385: FR0 sends a slot it owns at its action point with the committed content. -/
  | flxActionPoint (channel slot : Nat) (point : FlxPoint)
  /-- FLX_FRAME_RECEIVE. R387: FR0 receives a frame on a channel and delivers it per sub-source. -/
  | flxFrameReceive (channel sof eof : Nat) (frame : BusFrame) (syntaxError : Bool)
  /-- TB_EPOCH. R324: At every 65,536th tick each controller records its counter and ST64 pair. -/
  | tbEpoch
  /-- DISTRIBUTION_ERROR. R25: A stamp unit detecting a missed or doubled tick reports it and reloads its replica. -/
  | distributionError (miss : DistMiss)
  /-- INCR_APPLY. R396: A new INCR takes effect at the next 16-tick boundary at least 16 ticks after the write. -/
  | incrApply
  /-- STEP_APPLY. R398: A pending step loads the new DT80 at its tick and opens a new segment. -/
  | stepApply
  /-- SERVO_SAMPLE. R400: At each servo sample the firmware steps or slews INCR toward the source. -/
  | servoSample
  /-- HOLDOVER_QUALITY_UPDATE. R403: Every 10 ms in HOLDOVER the firmware updates TB_QUAL and QCLASS. -/
  | holdoverQualityUpdate
  /-- SOURCE_LOSS. R401: A time source meets its loss condition and the servo changes source or enters HOLDOVER. -/
  | sourceLoss (src port : Nat)
  /-- GPTP_MESSAGE. R410: The firmware processes a received gPTP message of an instance it runs. -/
  | gptpMessage (inst port : Nat) (m : GptpMsg)
  /-- GPTP_SYNC_TRANSMIT. R407: At each sync interval the firmware sends two-step Sync as master. -/
  | gptpSyncTransmit (inst : Nat)
  /-- TEV_OUT_ARM. R429: A write of 1 to ARM asks for the staged set to be copied. -/
  | tevOutArm (n : Nat) (value : W32)
  /-- TEV_OUT_SET_COPY. R429: At the next 16-tick boundary the staged set becomes active. -/
  | tevOutSetCopy (n : Nat)
  /-- TEV_OUT_MODE_OFF. R430: A write of MODE 0 stops the output after any pulse in progress. -/
  | tevOutModeOff (n : Nat) (value : W32)
  /-- TEV_OUT_EVENT. R426: An output event falls at t_k and drives its edge to the ball. -/
  | tevOutEvent (n : Nat)
  /-- TEV_IN_EDGE. R433: An enabled edge on TEV_IN is stamped and queued. -/
  | tevInEdge (n : Nat) (rise : Bool) (phase : Nat)
  /-- TEV_IN_ENT0_READ. R434: A read of TEV_IN_ENT0 latches the oldest input entry. -/
  | tevInEnt0Read (n : Nat)
  /-- TEV_IN_ENT3_READ. R434: A read of TEV_IN_ENT3 removes the latched input entry. -/
  | tevInEnt3Read (n : Nat)
  /-- PPS_OUT_PULSE. R435: PPS_OUT becomes active at each whole second of DT less OFS_NS. -/
  | ppsOutPulse
  /-- PPS_IN_EDGE. R436: A selected PPS_IN edge is stamped and counted. -/
  | ppsInEdge (rise : Bool) (phase : Nat)
  /-- REF10_EDGE. R437: A REF10_IN rising edge is stamped for frequency steering. -/
  | ref10Edge (phase : Nat)
  /-- SIDE_MESSAGE_RECEIVE. R455: A whole side-channel message is received, CRC-checked, terminated, passed on or discarded. -/
  | sideMessageReceive (k : Nat) (m : SideMsg) (chunks : List (List Byte)) (ago : Nat)
  /-- CHAIN_TIME_WORD_SEND. R454: The first side block at or after a TB epoch starts a time word. -/
  | chainTimeWordSend (k : Nat)
  /-- CHAIN_TIME_WORD_RECEIVE. R414: The downstream port marks a time word, forms the offset and answers with an echo. -/
  | chainTimeWordReceive
  /-- TIME_WORD_ECHO. R415: An echo returns and the link delay is measured. -/
  | timeWordEcho
  /-- CHAIN_CALIBRATION. R415: Every CHN_CAL_PERIOD_MS a chain port measures its latencies by loopback. -/
  | chainCalibration (k rxLat txLat : Nat)
  /-- CHAIN_STEP_ANNOUNCE. R417: A chain-wide step announcement is received and scheduled or queued. -/
  | chainStepAnnounce
  /-- BLOCK_ALIGNMENT. R448: A chain receiver reaches side-block alignment after 16 side blocks in place. -/
  | blockAlignment (k : Nat)
  /-- ALIGNMENT_LOST. R448: Four missing side blocks lose alignment. -/
  | alignmentLost (k : Nat)
  /-- CHAIN_PORT_FAIL. R448: A chain port lacking lock or alignment for CHN_FAIL_US is failed. -/
  | chainPortFail (k : Nat)
  /-- HELLO_TIMER. R459: Every CHN_HELLO_MS each port sends a hello. -/
  | helloTimer
  /-- HELLO_RECEIVE. R459: A hello sets the port UP or CTRL_ONLY by version. -/
  | helloReceive
  /-- HELLO_TIMEOUT. R459: A port without a hello for 3 CHN_HELLO_MS goes down. -/
  | helloTimeout (k : Nat)
  /-- TOPOLOGY_ANNOUNCE_TIMER. R460: Every CHN_HELLO_MS the module floods a topology announcement. -/
  | topologyAnnounceTimer
  /-- TOPOLOGY_ANNOUNCE_RECEIVE. R460: An announcement updates the reach table and is passed on, detecting duplicates and loops. -/
  | topologyAnnounceReceive
  /-- REACH_ENTRY_TIMEOUT. R460: A reach entry without an announcement for 3 CHN_HELLO_MS is removed. -/
  | reachEntryTimeout (addr : Nat)
  /-- RING_FAULT. R465: A ring fault detected or received leads the owner to flood a failover apply-at stamp. -/
  | ringFault
  /-- RING_WTR_EXPIRY. R466: After CHN_RING_WTR_MS UP the owner floods RING_RESTORE. -/
  | ringWtrExpiry
  /-- RMT_CMD_READ. R472: A write of OP READ to RMT_CMD sends a split read request. -/
  | rmtCmdRead (n : Nat)
  /-- RMT_CMD_WRITE. R478: A write of OP WRITE sends a non-posted write. -/
  | rmtCmdWrite (n : Nat)
  /-- RMT_CMD_READ_LINE. R475: A write of OP READ_LINE reads an aligned 32-byte line. -/
  | rmtCmdReadLine (n : Nat)
  /-- RMT_CMD_SEQ. R482: A write of OP SEQ sends a locked sequence of up to eight operations. -/
  | rmtCmdSeq (n : Nat)
  /-- RMT_CMD_BCAST. R479: A write of OP BCAST sends a posted broadcast write. -/
  | rmtCmdBcast (n : Nat)
  /-- RMT_DEFERRED_SEND. R477: A read held behind an unclaimed read-sensitive read is sent once that data is claimed or discarded. -/
  | rmtDeferredSend (n : Nat)
  /-- RMT_REQUEST_EXECUTE. R469: The far bridge executes a remote request on its register bus and responds. -/
  | rmtRequestExecute (ns : List Nat)
  /-- RMT_RESPONSE_ARRIVAL. R472: A response arrives and the slot reads DONE or ERROR. -/
  | rmtResponseArrival
  /-- RMT_RDATA0_READ. R473: A read of RMT_RDATA0 claims the slot's data. -/
  | rmtRdata0Read (n : Nat)
  /-- RMT_HOLD_EXPIRY. R474: Unclaimed data is discarded after RMT_HOLD_MS, logging a lost read where read-sensitive. -/
  | rmtHoldExpiry (n : Nat)
  /-- RMT_TIMEOUT. R480: No response within RMT_TMO_US sets the slot to ERROR TIMEOUT. -/
  | rmtTimeout (n : Nat)
  /-- BCAST_RECEIVE. R479: A module executes a broadcast write and passes it on. -/
  | bcastReceive
  /-- FAR_ERROR_REPORT. R483: An error report enters the far error log. -/
  | farErrorReport
  /-- RMT_FERR_ENT0_READ. R483: A read of RMT_FERR_ENT0 latches the oldest far error entry. -/
  | rmtFerrEnt0Read
  /-- RMT_FERR_ENT2_READ. R483: A read of RMT_FERR_ENT2 removes the latched far error entry. -/
  | rmtFerrEnt2Read
  /-- UPD_MESSAGE_RECEIVE. R785: An UPD message is checked, executed at the target or relayed. -/
  | updMessageReceive
  /-- UPD_REMOTE_TIMEOUT. R786: No reply from the target in time returns TIMEOUT to the initiator. -/
  | updRemoteTimeout (m : Nat)
  /-- CRY_Q_TAIL_WRITE. R514: Host software advances a crypto request queue's tail. -/
  | cryQTailWrite (q : Nat) (value : W32)
  /-- CRY_Q_EN_CLEAR. R515: EN 0 flushes fetched requests and stops HEAD. -/
  | cryQEnClear (q : Nat)
  /-- CRY_REQUEST_FETCH. R514: The module fetches a request while EN is 1 and completion room exists. -/
  | cryRequestFetch (q : Nat) (desc src aux : List Byte)
  /-- CRY_REQUEST_COMPLETE. R518: An engine finishes a request, checks it and writes its completion in order. -/
  | cryRequestComplete (q k : Nat) (bad : Option Nat) (dmaErr : Bool)
  /-- KEY_PRIV_GO. R543: A Curator write of GO writes the privileged data words into a slot and zeroes them. -/
  | keyPrivGo (ctl : W32) (data : List Byte)
  /-- TRNG_HEALTH_FAIL. R495: The TRNG fails a health test. -/
  | trngHealthFail
  /-- TAMPER_LOOP_OPEN. R535: An open seal loop zeroes the key store, loses presence and burns the root fuse. -/
  | tamperLoopOpen (vaonOk : Bool)
  /-- FV_RX_JOURNAL_TIMER. R532: Every KEY_JRNL_RX_S the firmware journals changed FV_last values. -/
  | fvRxJournalTimer
  /-- PLAYBACK_RECORD_FETCH. R737: The playback engine fetches a record before O_p + P and re-injects it at F20. -/
  | playbackRecordFetch
  /-- CAPTURE_LOST_ITEM. R725: Once room exists, a LOST item is written before the next item. -/
  | captureLostItem (n : Nat)
  /-- ARC_CAP_D0_READ. R727: A read of ARC_CAP_D0 removes up to 32 bytes and latches them. -/
  | arcCapD0Read (n : Nat)
  /-- LOCKSTEP_MISMATCH. R747: A comparator mismatch stops both copies of a pair. -/
  | lockstepMismatch (k lane : Nat)
  /-- INPUT_SKEW. R751: A mismatch confined to an input-capture register resamples. -/
  | inputSkew (k : Nat) (persists : Option Nat)
  /-- DETECTED_ERROR_HANDLING. R753: The handling pair logs a detected error, takes the unit out of service and starts its test. -/
  | detectedErrorHandling (kind detail island unit : Nat) (code : Bool)
  /-- TARGETED_TEST_COMPLETE. R755: A targeted test ends and classifies the error as transient or lasting. -/
  | targetedTestComplete (n : Nat) (pass : Bool)
  /-- PAIR_RESTART. R758: A pair reloads, reruns its injection test and starts its firmware. -/
  | pairRestart (k lanes : Nat)
  /-- PWR_FAIL_N_FALL. R769: Pair 1 writes a last-gasp record into the erased slot. -/
  | pwrFailNFall
  /-- PWR_FAIL_N_RISE. R769: Power stays, LG_WRITTEN is set and the older slot is erased. -/
  | pwrFailNRise
  /-- DIE_LINK_MESSAGE. R31: The power die applies a checked setting message or discards a failed one. -/
  | dieLinkMessage (ok : Bool) (us : Nat) (tj : List Int)
  /-- HEARTBEAT_SEND. R669: Pair 1 sends a heartbeat every PWR_HB_MS. -/
  | heartbeatSend (us : Nat)
  /-- HEARTBEAT_LOSS. R669: 3 PWR_HB_MS without a heartbeat starts hold. -/
  | heartbeatLoss (us : Nat)
  /-- HOLD_TIMEOUT. R670: After PWR_HOLD_T_MS in hold every channel takes its safe state. -/
  | holdTimeout (us : Nat)
  /-- HEARTBEAT_RETURN. R671: A returning heartbeat ends hold and the firmware adopts the reported states. -/
  | heartbeatReturn (us : Nat)
  /-- STATUS_MESSAGE. R667: Every 500 µs the power die sends telemetry, written into the PWR_ registers. -/
  | statusMessage (us : Nat) (cur : List Nat) (tj : List Int) (vbat : Nat) (temp : Int)
  /-- VBAT_UNDERVOLTAGE. R648: VBAT below 5.5 V for 1 ms turns every channel off. -/
  | vbatUndervoltage (us : Nat)
  /-- VBAT_OVERVOLTAGE. R648: VBAT above 33 V for 100 µs turns every channel off. -/
  | vbatOvervoltage (us : Nat)
  /-- VBAT_RETURN. R648: VBAT back in range for 1 ms returns channels to their commanded states. -/
  | vbatReturn (us : Nat)
  /-- POWER_DIE_RESET. R654: VBAT below 4.5 V or PORST_N resets the power die and its settings. -/
  | powerDieReset (us : Nat)
  /-- CURRENT_LIMIT_REACHED. R655: A channel reaching its limit regulates linearly and may start a limit event. -/
  | currentLimitReached (n us cur : Nat)
  /-- SHORT_DETECT. R656: 10 µs in limit below 2.0 V latches the channel off with SHORT. -/
  | shortDetect (n us : Nat)
  /-- THERMAL_SHUTDOWN. R657: A junction at 175 °C latches the channel off with THERMAL. -/
  | thermalShutdown (n us : Nat)
  /-- FUSE_STEP. R659: Every 100 µs the fuse state updates and latches I2T at 1. -/
  | fuseStep (us : Nat) (sq : List Nat)
  /-- BLANKING_END. R652: Inrush blanking ends and the limit becomes I_LIM. -/
  | blankingEnd (n us : Nat) (low : Bool)
  /-- LIMIT_EVENT_END. R655: A limit event ends after 100 µs below the limit. -/
  | limitEventEnd (n us : Nat)
  /-- RESTART_TIMER. R662: A latched channel whose condition holds restarts by its policy. -/
  | restartTimer (n us : Nat) (tj : Int)
  /-- RETRIES_RELOAD. R662: 60 s on without latch-off reloads RETRIES_LEFT. -/
  | retriesReload (n us : Nat)
  /-- OPEN_LOAD_TIMER. R666: Current below OL_MA for OL_MS reports open load. -/
  | openLoadTimer (n us : Nat) (low : Bool)
  /-- COMP_UPDATE. R664: Every 1 ms the compensation factor F is recomputed unless frozen. -/
  | compUpdate (us vbat : Nat)
  /-- FREEZE_END. R665: 2 ms after the last limit event, F resumes updates. -/
  | freezeEnd (us : Nat)
  /-- PWM_PERIOD_START. R650: A PWM period starts and any new duty or frequency takes effect. -/
  | pwmPeriodStart (n us : Nat)
  /-- KEEPALIVE_RECEIVE. R681: A keep-alive is recognised and updates its bus's deadline. -/
  | keepaliveReceive
  /-- KEEPALIVE_TIMER. R683: Every NM_KA_PERIOD_MS with own need the firmware sends keep-alives. -/
  | keepaliveTimer
  /-- NM_DEADLINE_EXPIRY. R684: A bus's deadline passes and the bus becomes quiet. -/
  | nmDeadlineExpiry (b : Nat)
  /-- INSOMNIA_CHECK. R696: A periodic check logs nodes that prevent sleep. -/
  | insomniaCheck
  /-- COMMIT_TICK. R689: At the commit tick the run ends, the power die enters keeper mode and the gateway die powers down. -/
  | commitTick
  /-- WAKE_SAMPLE. R688: A wake sampled before commit aborts sleep, after commit latches. -/
  | wakeSample (pins phys : Nat)
  /-- WAKE_DECODER_MATCH. R691: An AON decoder matches a CAN frame and wakes. -/
  | wakeDecoderMatch (d : Nat) (frame : BusFrame) (crcOk : Bool)
  /-- WAKE_PIN. R692: An enabled WAKE pin active on two samples wakes. -/
  | wakePin (n : Nat)
  /-- T1S_ACTIVITY_WAKE. R693: Segment activity of 100 µs on an enabled S port wakes. -/
  | t1sActivityWake (n us : Nat)
  /-- PHY_INTERRUPT_WAKE. R693: A PHY interrupt low on two samples wakes. -/
  | phyInterruptWake (n : Nat)
  /-- AON_WAKE_START. R694: The AON island records the wake and starts the gateway die. -/
  | aonWakeStart
  /-- PORST_N. R806: Reset of every island and the power die unless PDIE_KEEP, sampling straps. -/
  | porstN (ns straps : Nat)
  /-- SRST_N. R806: Reset of every island except AON. -/
  | srstN (ns : Nat)
  /-- PCIE_PERST_N. R806: Reset of the PCIe endpoint core only. -/
  | pciePerstN (ns : Nat)
  /-- FIRMWARE_RESET. R806: Reset of every island except AON and the PCIe endpoint core. -/
  | firmwareReset
  /-- LCK_ISL_RST. R810: A write of 1 to bit i resets island i for 10 µs. -/
  | lckIslRst (value : W32)
  /-- ISLAND_START. R811: A reset island starts, the firmware reapplies its configuration and starts a new run. -/
  | islandStart (n : Nat)
  /-- RAILS_GOOD_RELEASE. R802: 1 ms after the switched rails and reference are good, the gateway die leaves reset. -/
  | railsGoodRelease
  /-- RAILS_TIMEOUT. R802: Without good rails within 100 ms PWR_EN falls and is retried 1 s later. -/
  | railsTimeout
  /-- BOOT_ROM_START. R813: The boot ROM runs start-up tests, selects the root and boot slot and starts the firmware. -/
  | bootRomStart (fails : List (Nat × Nat × Nat)) (trngGood : Bool)
  /-- FIRMWARE_BOOT. R814: The firmware replays the journal, selects the configuration, loads tables and leaves BOOT. -/
  | firmwareBoot (passes : List Bool)
  /-- PRESENCE_ACQUIRED. R564: SVC_PRESENT_N low for 10 ms with the loop intact holds presence. -/
  | presenceAcquired
  /-- PRESENCE_LOST. R564: SVC_PRESENT_N high or the loop open loses presence. -/
  | presenceLost
  /-- HANDOVER_EPOCH. R788: At E the old firmware journals, writes handover state and restarts the pairs into the new image. -/
  | handoverEpoch
  /-- PAIR_NEW_IMAGE_RUN. R789: A pair starts running the new image after its restart. -/
  | pairNewImageRun (k : Nat) (good : Bool)
  /-- HEALTHY_REPORT. R792: The new firmware reports healthy, commits the boot selector and ends HANDOVER. -/
  | healthyReport
  /-- HEALTH_TIMEOUT. R793: Without healthy within UPD_HEALTH_MS, both pairs roll back to the old image. -/
  | healthTimeout
  /-- UPD_ROM_CTL_GO. R795: In recovery, GO checks the staged image and writes it into slot A. -/
  | updRomCtlGo (value : W32)
  /-- PLCA_BEACON_RECEIVE. R275: A follower that fell back to CSMA/CD sees a BEACON and returns to PLCA. -/
  | plcaBeaconReceive (p : Nat)
  /-- DIE_LINK_ACK. R628: The power die's acknowledgement of a channel command reaches the firmware, which then replies to PWR_SET or PWR_RESTART. -/
  | dieLinkAck
  /-- DIE_LINK_ACK_TIMEOUT. R628: No acknowledgement arrives within 5 ms and the firmware replies TIMEOUT. -/
  | dieLinkAckTimeout (m : Nat)
  /-- MKA_PDU_RECEIVE. R525: The firmware processes a received MKA PDU and may install SAs or distribute a SAK. -/
  | mkaPduReceive (p sci prio : Nat) (pdu : Mkpdu)
  /-- MKA_TIMER. R525: The MKA periodic timer makes the firmware send MKPDUs and, as key server, generate and distribute SAKs. -/
  | mkaTimer (p : Nat)
  /-- GPTP_ANNOUNCE_TIMER. R407: At each announce interval the firmware sends Announce on its master ports. -/
  | gptpAnnounceTimer (inst : Nat)
  /-- GPTP_PDELAY_TIMER. R407: At each peer-delay interval the firmware sends Pdelay_Req on its ports. -/
  | gptpPdelayTimer (inst : Nat)
  /-- TEV_OUT_PULSE_END. R427: At t_k plus WIDTH, or after WIDTH_US for PPS_OUT, the output returns to its inactive level. -/
  | tevOutPulseEnd (n : Nat)
  /-- SWITCHED_RAIL_LOSS. R805: The switched rails fall while VAON stays and the module is not in SLEEP, so the gateway die stops and the power die goes to hold. -/
  | switchedRailLoss
  /-- GATE_BANK_SWITCH. R603: At the first cycle start of the committed bank at or after T/8 ns, the new gate bank becomes active and the commit stops being pending. -/
  | gateBankSwitch (f : Nat)
  /-- AON_CRYSTAL_TAKEOVER. R800: The AON island switches from its RC oscillator to the 32.768 kHz crystal once the crystal oscillates. -/
  | aonCrystalTakeover
  /-- DEBUGGER_ACCESS. R749: A JTAG debugger halts, steps, resumes or writes the main copy of a pair while debug is unlocked. -/
  | debuggerAccess (k op : Nat)
  /-- TEST_MODE_CHANGE. R826: A high level on TEST_MODE holds every island except AON in reset. -/
  | testModeChange (level : Bool)
  /-- FLX_CYCLE_END. R611: At the end of each FlexRay cycle FR0 applies clock correction and its POC transitions, including a pending HALT and sync loss. -/
  | flxCycleEnd (integrated synced limit : Bool)
  /-- FLX_WAKEUP_RECEIVE. R383: FR0 detects a wakeup pattern on a channel and sets WAKEUP in FLX_FLAG. -/
  | flxWakeupReceive (channel : Nat)
  /-- BAR2_WRITE. R30: A host write through BAR2 reaches DRAM when presence is held and is discarded otherwise. -/
  | bar2Write (addr : Nat) (bytes : List Byte)
  /-- JOURNAL_RECORD_COMMIT. R531: A key-store journal record finishes its flash write, releasing held sealing and allowing key changes to take effect. -/
  | journalRecordCommit
deriving DecidableEq, Repr

end Sys2Proof
end

