-- ==== Sys2Proof/Machine/Maps.lean ====
section
/-! DEFINITION. Operations over sorted sparse tables and over lists of bytes, and the check sums the spec gives:
CRC-32 of the Ethernet FCS (R143) and CRC-16 of a Caldera cell (R93). -/

namespace Sys2Proof.Machine

/-- The value listed for a key. -/
def mget? {α : Type} (m : Map α) (k : Nat) : Option α :=
  match m with
  | [] => none
  | (j, v) :: r => if j = k then some v else mget? r k

/-- The value of a key, or what an unlisted key holds. -/
def mgetD {α : Type} (m : Map α) (k : Nat) (d : α) : α := (mget? m k).getD d

/-- The table with one key set, keys staying strictly rising. -/
def mset {α : Type} (m : Map α) (k : Nat) (v : α) : Map α :=
  match m with
  | [] => [(k, v)]
  | (j, w) :: r => if k < j then (k, v) :: (j, w) :: r else if j = k then (k, v) :: r else (j, w) :: mset r k v

/-- The table without one key. -/
def merase {α : Type} (m : Map α) (k : Nat) : Map α := m.filter (fun e => e.1 != k)

/-- The table with one key set, a key that holds the default being unlisted. -/
def mput {α : Type} [DecidableEq α] (m : Map α) (k : Nat) (v d : α) : Map α :=
  if v = d then merase m k else mset m k v

/-- A change of one key's value, a missing key starting at the default. -/
def mmod {α : Type} (m : Map α) (k : Nat) (d : α) (f : α → α) : Map α := mset m k (f (mgetD m k d))

/-- The keys of a table are strictly rising. -/
def mwf {α : Type} (m : Map α) : Bool :=
  match m with
  | [] => true
  | [_] => true
  | (j, _) :: (k, v) :: r => j < k && mwf ((k, v) :: r)

/-! ### Bytes -/

/-- `n` bytes of a number, lowest first (R8). -/
def leBytes (n v : Nat) : List Byte := (List.range n).map (fun i => BitVec.ofNat 8 (v / 2 ^ (8 * i)))

/-- `n` bytes of a number, highest first. -/
def beBytes (n v : Nat) : List Byte := (leBytes n v).reverse

/-- The number whose bytes stand lowest first. -/
def fromLe (bs : List Byte) : Nat := bs.foldr (fun b a => b.toNat + 256 * a) 0

/-- The number whose bytes stand highest first. -/
def fromBe (bs : List Byte) : Nat := bs.foldl (fun a b => 256 * a + b.toNat) 0

/-- `n` bytes from offset `off`. -/
def slice (bs : List Byte) (off n : Nat) : List Byte := (bs.drop off).take n

def byteAt (bs : List Byte) (i : Nat) : Nat := (bs.getD i 0).toNat

/-- Bytes replaced from offset `off`, the list keeping its length. -/
def overlay (bs : List Byte) (off : Nat) (new : List Byte) : List Byte :=
  (bs.take off ++ new ++ bs.drop (off + new.length)).take bs.length

/-- A list brought to length `n` by cutting or by zero bytes at its end. -/
def padTo (n : Nat) (bs : List Byte) : List Byte := bs.take n ++ List.replicate (n - bs.length) 0

/-- The little-endian 32-bit words of a byte list. -/
def wordsOf : List Byte → List W32
  | [] => []
  | a :: b :: c :: d :: r => w32 (fromLe [a, b, c, d]) :: wordsOf r
  | r => [w32 (fromLe r)]

/-- The bytes of little-endian words. -/
def bytesOfWords (ws : List W32) : List Byte := ws.flatMap (fun w => leBytes 4 w.toNat)

/-! ### Check sums -/

/-- One bit step of the reflected CRC-32. -/
def crc32Bit (c : Nat) : Nat := if c % 2 = 1 then (c / 2) ^^^ 0xEDB88320 else c / 2

def crc32Byte (c : Nat) (b : Byte) : Nat :=
  let c := c ^^^ b.toNat
  crc32Bit (crc32Bit (crc32Bit (crc32Bit (crc32Bit (crc32Bit (crc32Bit (crc32Bit c)))))))

/-- The CRC-32 of the Ethernet FCS: polynomial 0x04C1_1DB7 reflected, initial value and final XOR all ones (R143). -/
def crc32 (bs : List Byte) : Nat := (bs.foldl crc32Byte 0xFFFFFFFF) ^^^ 0xFFFFFFFF

/-- The FCS bytes in wire order. -/
def fcsOf (bs : List Byte) : List Byte := leBytes 4 (crc32 bs)

def crc16Bit (c : Nat) : Nat := if c ≥ 0x8000 then ((2 * c) % 0x10000) ^^^ 0x1021 else 2 * c

def crc16Byte (c : Nat) (b : Byte) : Nat :=
  let c := c ^^^ (b.toNat * 256)
  crc16Bit (crc16Bit (crc16Bit (crc16Bit (crc16Bit (crc16Bit (crc16Bit (crc16Bit c)))))))

/-- The CRC-16 that protects a Caldera cell: its 64 data bytes and its index in the frame (R93). -/
def cellCrc (data : List Byte) (index : Nat) : Nat := (data ++ leBytes 2 index).foldl crc16Byte 0xFFFF

/-! ### Lists -/

/-- The first element satisfying a test, and the list without it. -/
def takeFirst {α : Type} (p : α → Bool) : List α → Option (α × List α)
  | [] => none
  | x :: r => if p x then some (x, r) else (takeFirst p r).map (fun y => (y.1, x :: y.2))

/-- The least element of a list under a strict order, the earliest of equals. -/
def leastBy {α : Type} (lt : α → α → Bool) : List α → Option α
  | [] => none
  | x :: r => match leastBy lt r with
    | none => some x
    | some y => if lt y x then some y else some x

/-- Insertion behind every element that does not come after `x`. -/
def insertBy {α : Type} (lt : α → α → Bool) (x : α) : List α → List α
  | [] => [x]
  | y :: r => if lt x y then x :: y :: r else y :: insertBy lt x r

/-- The set bits of a mask below `n`, ascending. -/
def bitList (n v : Nat) : List Nat := (List.range n).filter (fun i => v.testBit i)

def ceilDiv (a b : Nat) : Nat := (a + b - 1) / b

/-- A 32-bit two's-complement reading. -/
def asI32 (v : Nat) : Int := (BitVec.ofNat 32 v).toInt

def asI64 (v : Nat) : Int := (BitVec.ofNat 64 v).toInt

end Sys2Proof.Machine
end

