-- ==== Sys2Proof/Machine/Cipher.lean ====
section
/-! DEFINITION. The functions of the AES cores (R493): AES-128 and AES-256 of FIPS 197, GCM (SP 800-38D), CMAC (SP 800-38B), CTR
(SP 800-38A) and the key wrap of RFC 3394. Blocks are lists of 16 bytes as numbers. -/

namespace Sys2Proof.Machine

/-- The substitution box of FIPS 197 and its inverse, entry `i` in bits [8i+7:8i]. -/
def aesBox : Nat :=
  0x16BB54B00F2D99416842E6BF0D89A18CDF2855CEE9871E9B948ED9691198F8E19E1DC186B95735610EF6034866B53E708A8BBD4B1F74DDE8C6B4A61C2E2578BA08AE7A65EAF4566CA94ED58D6D37C8E779E4959162ACD3C25C2406490A3A32E0DB0B5EDE14B8EE4688902A22DC4F816073195D643D7EA7C41744975FEC130CCDD2F3FF1021DAB6BCF5389D928F40A351A89F3C507F02F94585334D43FBAAEFD0CF584C4A39BECB6A5BB1FC20ED00D153842FE329B3D63B52A05A6E1B1A2C830975B227EBE28012079A059618C323C7041531D871F1E5A534CCF73F362693FDB7C072A49CAFA2D4ADF04759FA7DC982CA76ABD7FE2B670130C56F6BF27B777C63
def aesBoxInv : Nat :=
  0x7D0C2155631469E126D677BA7E042B17619953833CBBEBC8B0F52AAE4D3BE0A0EF9CC9939F7AE52D0D4AB519A97F51605FEC8027591012B131C7078833A8DD1FF45ACD78FEC0DB9A2079D2C64B3E56FC1BBE18AA0E62B76F89C5291D711AF1476EDF751CE837F9E28535ADE72274AC9673E6B4F0CECFF297EADC674F4111913A6B8A130103BDAFC1020F3FCA8F1E2CD00645B3B80558E4F70AD3BC8C00ABD890849D8DA75746155EDAB9EDFD5048706C92B6655DCC5CA4D41698688664F6F87225D18B6D49A25B76B224D92866A12E084EC3FA420B954CEE3D23C2A632947B54CBE9DEC444438E3487FF2F9B8239E37CFBD7F3819EA340BF38A53630D56A0952

def subByte (v : Nat) : Nat := aesBox >>> (8 * v) % 256
def subByteInv (v : Nat) : Nat := aesBoxInv >>> (8 * v) % 256

/-- Multiplication by x, and by a number below 16, in GF(2^8). -/
def xtime (v : Nat) : Nat := if v < 128 then 2 * v else 2 * v % 256 ^^^ 0x1B
def gfMul (c v : Nat) : Nat :=
  (if bit c 0 then v else 0) ^^^ (if bit c 1 then xtime v else 0) ^^^ (if bit c 2 then xtime (xtime v) else 0) ^^^
    (if bit c 3 then xtime (xtime (xtime v)) else 0)

def xorList (a b : List Nat) : List Nat := (a.zip b).map (fun q => q.1 ^^^ q.2)

/-- The key schedule, newest word first: `n` more words of a key of `nk` words, the next one being number `i`. -/
def keyWords (nk : Nat) : Nat → Nat → Nat → List (List Nat) → List (List Nat)
  | 0, _, _, ws => ws
  | n + 1, i, rcon, ws =>
    let t := ws.headD []
    let old := ws.getD (nk - 1) []
    if i % nk = 0 then
      let r := (t.drop 1 ++ t.take 1).map subByte
      keyWords nk n (i + 1) (xtime rcon) (xorList old (xorList r [rcon, 0, 0, 0]) :: ws)
    else if nk = 8 && i % 8 = 4 then keyWords nk n (i + 1) rcon (xorList old (t.map subByte) :: ws)
    else keyWords nk n (i + 1) rcon (xorList old t :: ws)

/-- A list cut into pieces of `k`, `n` of them. -/
def pieces {α : Type} (k : Nat) : Nat → List α → List (List α)
  | 0, _ => []
  | n + 1, l => l.take k :: pieces k n (l.drop k)

/-- The round keys of a key of 16 or 32 bytes, first round first. -/
def roundKeys (key : List Byte) : List (List Nat) :=
  let nk := if key.length = 16 then 4 else 8
  let first := (pieces 4 nk (key.map BitVec.toNat)).reverse
  let words := (keyWords nk (4 * (nk + 7) - nk) nk 1 first).reverse
  (pieces 4 (nk + 7) words).map (fun k => k.flatMap id)

/-- Rows shifted by `d` times their number to the left. -/
def shiftRows (d : Nat) (b : List Nat) : List Nat := (List.range 16).map (fun i => b.getD ((i + 4 * d * (i % 4)) % 16) 0)

/-- Columns multiplied by the circulant matrix of a row. -/
def mixColumns (m : List Nat) (b : List Nat) : List Nat :=
  (List.range 16).map (fun i =>
    (List.range 4).foldl (fun a j => a ^^^ gfMul (m.getD ((j + 4 - i % 4) % 4) 0) (b.getD (i / 4 * 4 + j) 0)) 0)

/-- One block encrypted with its round keys. [Log 12: PRESUMED] -/
def aesEnc (ks : List (List Nat)) (b : List Nat) : List Nat :=
  match ks with
  | [] => b
  | k0 :: rest =>
    let mid := rest.dropLast.foldl (fun s k => xorList (mixColumns [2, 3, 1, 1] (shiftRows 1 (s.map subByte))) k) (xorList b k0)
    xorList (shiftRows 1 (mid.map subByte)) (rest.getLastD [])

/-- One block decrypted with its round keys. [Log 12: PRESUMED] -/
def aesDec (ks : List (List Nat)) (b : List Nat) : List Nat :=
  match ks.reverse with
  | [] => b
  | k0 :: rest =>
    let mid := rest.dropLast.foldl
      (fun s k => mixColumns [14, 11, 13, 9] (xorList ((shiftRows 3 s).map subByteInv) k)) (xorList b k0)
    xorList ((shiftRows 3 mid).map subByteInv) (rest.getLastD [])

/-- A number of 128 bits as a block, most significant byte first, and back. -/
def blockOf (v : Nat) : List Nat := (beBytes 16 v).map BitVec.toNat
def ofBlock (b : List Nat) : Nat := b.foldl (fun a x => 256 * a + x) 0

/-- AES of a number of 128 bits. -/
def aesNum (ks : List (List Nat)) (v : Nat) : Nat := ofBlock (aesEnc ks (blockOf v))

/-- Counter mode: `next` gives the counter block after another; the data are taken block by block, `n` blocks. -/
def ctrBlocks (ks : List (List Nat)) (next : Nat → Nat) : Nat → Nat → List Byte → List Byte
  | 0, _, _ => []
  | n + 1, c, bs =>
    let s := beBytes 16 (aesNum ks c)
    ((bs.take 16).zip s).map (fun q => q.1 ^^^ q.2) ++ ctrBlocks ks next n (next c) (bs.drop 16)

/-- CTR from an initial counter block, which counts as a number of 128 bits. [Log 12: PRESUMED] -/
def aesCtr (key iv msg : List Byte) : List Byte :=
  ctrBlocks (roundKeys key) (fun c => (c + 1) % 2 ^ 128) (ceilDiv msg.length 16) (fromBe (padTo 16 iv)) msg

/-- The counter block of GCM and the one after it. -/
def gcmStart (iv : List Byte) : Nat := fromBe (padTo 12 iv) * 2 ^ 32 + 1
def gcmNext (c : Nat) : Nat := c / 2 ^ 32 * 2 ^ 32 + (c + 1) % 2 ^ 32

/-- The counter-mode transformation of GCM, the same for encryption and decryption. [Log 12: PRESUMED] -/
def gcmCrypt (key iv msg : List Byte) : List Byte :=
  ctrBlocks (roundKeys key) gcmNext (ceilDiv msg.length 16) (gcmNext (gcmStart iv)) msg

/-- Multiplication in GF(2^128) as GHASH does it: `n` further bits of `x`, the product so far and the shifted factor. -/
def ghashMul (x : Nat) : Nat → Nat → Nat → Nat
  | 0, z, _ => z
  | n + 1, z, v =>
    ghashMul x n (if bit x n then z ^^^ v else z) (if v % 2 = 1 then v / 2 ^^^ 0xE1 * 2 ^ 120 else v / 2)

/-- GHASH of whole blocks under `h`, `n` of them. -/
def ghash (h : Nat) : Nat → Nat → List Byte → Nat
  | 0, y, _ => y
  | n + 1, y, bs => ghash h n (ghashMul (y ^^^ fromBe (padTo 16 (bs.take 16))) 128 0 h) (bs.drop 16)

/-- Padded with zeros to a multiple of 16 bytes. -/
def pad16 (bs : List Byte) : List Byte := padTo (ceilDiv bs.length 16 * 16) bs

/-- The 16-byte GCM tag over additional data and ciphertext. [Log 12: PRESUMED] -/
def gcmTag (key iv aad cipher : List Byte) : List Byte :=
  let ks := roundKeys key
  let bs := pad16 aad ++ pad16 cipher ++ beBytes 8 (8 * aad.length) ++ beBytes 8 (8 * cipher.length)
  beBytes 16 (ghash (aesNum ks 0) (bs.length / 16) 0 bs ^^^ aesNum ks (gcmStart iv))

/-- Doubling in the field of CMAC. -/
def cmacDouble (v : Nat) : Nat := if v < 2 ^ 127 then 2 * v else 2 * v % 2 ^ 128 ^^^ 0x87

/-- AES-CMAC, 16 bytes. [Log 12: PRESUMED] -/
def aesCmac (key msg : List Byte) : List Byte :=
  let ks := roundKeys key
  let k1 := cmacDouble (aesNum ks 0)
  let n := max 1 (ceilDiv msg.length 16)
  let full := msg.length = 16 * n
  let last := msg.drop (16 * (n - 1))
  let tail := if full then fromBe last ^^^ k1 else fromBe (padTo 16 (last ++ [0x80])) ^^^ cmacDouble k1
  let y := (pieces 16 (n - 1) msg).foldl (fun y b => aesNum ks (y ^^^ fromBe b)) 0
  beBytes 16 (aesNum ks (y ^^^ tail))

/-- One step of RFC 3394: the register A, the semiblocks, and the step's number. -/
def wrapStep (ks : List (List Nat)) (n : Nat) (x : Nat × List Nat) (t : Nat) : Nat × List Nat :=
  let i := t % n
  let b := aesNum ks (x.1 * 2 ^ 64 + x.2.getD i 0)
  (b / 2 ^ 64 ^^^ (t + 1), x.2.set i (b % 2 ^ 64))

def unwrapStep (ks : List (List Nat)) (n : Nat) (x : Nat × List Nat) (t : Nat) : Nat × List Nat :=
  let i := t % n
  let b := ofBlock (aesDec ks (blockOf ((x.1 ^^^ (t + 1)) * 2 ^ 64 + x.2.getD i 0)))
  (b / 2 ^ 64, x.2.set i (b % 2 ^ 64))

/-- The key wrap of RFC 3394, of whole semiblocks. [Log 12: PRESUMED] -/
def keyWrap (key msg : List Byte) : List Byte :=
  let n := msg.length / 8
  let r := (List.range (6 * n)).foldl (wrapStep (roundKeys key) n) (0xA6A6A6A6A6A6A6A6, (pieces 8 n msg).map fromBe)
  (r.1 :: r.2).flatMap (beBytes 8)

/-- The unwrap: nothing when the integrity check fails. [Log 12: PRESUMED] -/
def keyUnwrap (key msg : List Byte) : Option (List Byte) :=
  let n := msg.length / 8 - 1
  let r := (List.range (6 * n)).reverse.foldl (unwrapStep (roundKeys key) n)
    (fromBe (msg.take 8), (pieces 8 n (msg.drop 8)).map fromBe)
  if r.1 = 0xA6A6A6A6A6A6A6A6 then some (r.2.flatMap (beBytes 8)) else none

end Sys2Proof.Machine
end

