-- ==== Sys2Proof/Config.lean ====
section
/-! DEFINITION. What a particular part fixes and what the spec leaves open. Every constant here is opaque: no proof
can see its value, so a claim holds whatever it is. Free values are applied to the counter `Gw.free` or to the operands
they depend on; each is named in the assumption log. -/

namespace Sys2Proof

/-- The module's identification data (R861): the base address of its block, bytes in wire order by R857; the model reads it
with the bits that R861 fixes at 0. [Log 11: DESIGN CHOICE] -/
opaque Config.macBase : Nat
/-- The identification serial number and build data that SYS_INFO reports (R584). [Log 11: DESIGN CHOICE] -/
opaque Config.identWord : Nat → Nat
/-- FW_BUILD of the shipped firmware (R1). [Log 11: DESIGN CHOICE] -/
opaque Config.fwBuild : Nat

/-- The name of the CAK configured for a port, the CKN of IEEE 802.1X-2020, 1 to 32 bytes. [Log 117: PRESUMED] -/
opaque Config.mkaCkn : (port : Nat) → List (BitVec 8)
/-- The module's own MKA key-server priority. [Log 117: PRESUMED] -/
opaque Config.mkaPriority : Nat
/-- The physically unclonable root value of the part. [Log 13: DESIGN CHOICE] -/
opaque Config.rootValue : Nat → List (BitVec 8)
/-- A random number the TRNG gives at its n-th draw. [Log 13: DESIGN CHOICE] -/
opaque Config.random : (n bytes : Nat) → List (BitVec 8)

/-- The servo's output, an INCR in 8.40, for an offset in 2⁻¹⁶ ns, the INCR in force and the bandwidth in mHz (R400).
[Log 93: DESIGN CHOICE] -/
opaque Config.servoOutput : (offset : Int) → (incr bandwidth draw : Nat) → Nat

/-- The SHA3-256 of the vendor's public key, held in the boot ROM (R779). -/
opaque Config.vendorKeyHash : List (BitVec 8)
/-- The bytes of the firmware image that the module is delivered with. [Log 11: DESIGN CHOICE] -/
opaque Config.shippedImage : List (BitVec 8)
/-- The ASCII tail of the firmware's log in a last-gasp record (R770), by the number of lines logged.
[Log 141: DEDUCED] -/
opaque Config.logTail : (lines : Nat) → List (BitVec 8)
/-- DETAIL of an uncorrectable SRAM word (R752): the RAM's number and the word address, by unit and place.
[Log 136: DEDUCED] -/
opaque Config.sramDetail : (unit place : Nat) → Nat
/-- What the label of the attestation key holds beyond VER, USE and LEN (R505, R534). [Log 118: DESIGN CHOICE] -/
opaque Config.attestLabel : List (BitVec 8)

/-! Free values. -/
/-- Content the spec calls undefined: egress content after R108, R165, R273, R276 and the like.
[Log 5: DESIGN CHOICE] -/
opaque Config.undefinedBytes : (n len : Nat) → List (BitVec 8)
/-- What inline crypto processing makes of the bytes of a frame sent to F18 (R37, R64). [Log 71: DEDUCED] -/
opaque Config.inlineCrypto : List (BitVec 8) → List (BitVec 8)
/-- The payload bytes of a side-channel message whose layout the spec does not give: by class, type and what it carries
(R450). [Log 101: DESIGN CHOICE] -/
opaque Config.sidePayload : (cls typ : Nat) → (body : List Int) → List (BitVec 8)
/-- A bus frame on a bus whose egress content the spec calls undefined (R360, R531). [Log 5: DESIGN CHOICE] -/
opaque Config.undefinedFrame : Nat → BusFrame

/-- A stamp the spec calls undefined (R164, R261). [Log 5: DESIGN CHOICE] -/
opaque Config.undefinedStamp : Nat → Int
/-- A word whose value the spec leaves open. [Log 5: DESIGN CHOICE] -/
opaque Config.freeWord : Nat → BitVec 32
/-- How long a register access takes that a broadcast write makes, in ns (R484). [Log 108: DEDUCED] -/
opaque Config.accessTime : Nat → Nat
/-- The fuse curve's cooling constant per 100 µs step (R659), by the wire's time constant in seconds.
[Log 121: DESIGN CHOICE] -/
opaque Config.fuseAlpha : Nat → Rat

/-- The flags field of a remote access request of an operation (R470). [Log 107: DEDUCED] -/
opaque Config.requestFlags : Nat → Nat

end Sys2Proof
end

