-- ==== Sys2Proof/Machine/ParamTable.lean ====
section
/-! DEFINITION. The parameter table (R90, R131, R193, R230, R269, R317, R368, R393, R444, R492, R544, R645): identifier,
type, range, default and acceptance class of every parameter (R570), and the range checks whose bounds lie in fields
of the value (R571). Values are kept as unsigned numbers of their width; an i32 is kept in two's complement. -/

namespace Sys2Proof.Machine

/-- The acceptance classes of R570. -/
inductive ParamClass | config | applyAt | onArrival | imageOnly
deriving DecidableEq, Repr

/-- A group of `n` parameters with consecutive identifiers. -/
structure ParamRow where
  name : String
  base : Nat
  n : Nat := 1
  bytes : Nat := 4
  signed : Bool := false
  lo : Int := 0
  hi : Int := 0xFFFFFFFF
  dflt : Nat := 0
  cls : ParamClass
deriving DecidableEq, Repr

def params01 : List ParamRow := [
  { name := "SYS_AUTORUN", base := 0x0100, bytes := 1, hi := 1, dflt := 1, cls := .config },
  { name := "SYS_DRAM_STORE_MIB", base := 0x0101, bytes := 2, hi := 2048, cls := .imageOnly },
  { name := "SYS_DRAM_ARCHIVE_MIB", base := 0x0102, bytes := 2, hi := 4096, dflt := 4096, cls := .imageOnly },
  { name := "SYS_DRAM_VITRINE_MIB", base := 0x0103, bytes := 2, hi := 256, cls := .imageOnly },
  { name := "SYS_DRAM_HOSTSH_MIB", base := 0x0104, bytes := 2, hi := 256, dflt := 256, cls := .imageOnly },
  { name := "STR_H_NS", base := 0x0120, bytes := 2, lo := 500, hi := 8000, dflt := 2000, cls := .config },
  { name := "STR_HX_NS", base := 0x0121, bytes := 2, lo := 500, hi := 8000, dflt := 500, cls := .config },
  { name := "STR_XSRC_F13", base := 0x0122, bytes := 8, hi := 0x3FFFFFFFFFFF, cls := .config },
  { name := "STR_PASS_F18_NS", base := 0x0123, bytes := 2, lo := 500, hi := 16000, dflt := 3000, cls := .config },
  { name := "STR_PASS_F21_NS", base := 0x0124, bytes := 2, lo := 500, hi := 16000, dflt := 1000, cls := .config },
  { name := "STR_PCFG", base := 0x0130, n := 22, cls := .config },
  { name := "CAL_HOST_HOLD", base := 0x0150, hi := 16384, dflt := 8192, cls := .config },
  { name := "CAL_SLACK", base := 0x0151, hi := 65536, dflt := 24576, cls := .config },
  { name := "CAL_PCFG", base := 0x0152, n := 22, dflt := 0x0003FFFF, cls := .config },
  { name := "CAL_PAUSE", base := 0x0168, n := 12, dflt := 0x08000400, cls := .config },
  { name := "CAL_QG", base := 0x0180, n := 64, dflt := 0x00040040, cls := .config },
  { name := "CAL_AGE", base := 0x01C0, n := 64, hi := 4000000, dflt := 100000, cls := .config } ]

def params03 : List ParamRow := [
  { name := "CAT_PART", base := 0x0300, n := 12, bytes := 8, hi := 0xFFFFFFFFFFFFFFFF, cls := .config },
  { name := "CAT_SEED", base := 0x0310, n := 12, cls := .config },
  { name := "CAT_LFSR_SEED", base := 0x0320, n := 4, dflt := 1, cls := .config },
  { name := "CAT_PORT", base := 0x0330, n := 22, cls := .applyAt },
  { name := "CAT_FLOOD", base := 0x0350, n := 22, hi := 0x003FFFFF, cls := .config },
  { name := "CAT_AGE_PERIOD_S", base := 0x0370, bytes := 2, lo := 1, hi := 4096, dflt := 300, cls := .applyAt },
  { name := "CAT_AGE_EN", base := 0x0371, bytes := 1, hi := 1, dflt := 1, cls := .applyAt },
  { name := "CAT_VIT_PERIOD_MS", base := 0x0372, lo := 10, hi := 3600000, dflt := 10000, cls := .applyAt },
  { name := "CAT_VIT_REPAIR", base := 0x0373, bytes := 1, hi := 1, cls := .applyAt },
  { name := "CAT_VIT_OFF", base := 0x0374, n := 12, dflt := 0xFFFFFFFF, cls := .config },
  { name := "CAT_T5_MASK", base := 0x0380, n := 4, bytes := 32, hi := 0xFFFFFFFFFFFFFFFFFFFFFFFFFFFFFFFFFFFFFFFFFFFFFFFFFFFFFFFFFFFFFFFF, dflt := 0xFFFFFFFFFFFFFFFFFFFFFFFFFFFFFFFFFFFFFFFFFFFFFFFFFFFFFFFFFFFFFFFF, cls := .config } ]

def params04 : List ParamRow := [
  { name := "SIG_ALT_AUTO", base := 0x0400, bytes := 1, hi := 1, cls := .applyAt },
  { name := "SIG_ALT_RETURN", base := 0x0401, bytes := 1, hi := 1, dflt := 1, cls := .applyAt },
  { name := "SIG_TUN_SMAC", base := 0x0402, bytes := 8, hi := 0xFFFFFFFFFFFF, cls := .config },
  { name := "SIG_TUN_MTV", base := 0x0403, bytes := 1, hi := 1, dflt := 1, cls := .config } ]

def params05 : List ParamRow := [
  { name := "EGR_PORT", base := 0x0500, n := 22, dflt := 0x09650000, cls := .config },
  { name := "EGR_RATE", base := 0x0518, n := 22, lo := 1, hi := 51200, cls := .config },
  { name := "EGR_WFQ", base := 0x0530, n := 22, bytes := 8, hi := 0xFFFFFFFFFFFFFFFF, cls := .applyAt },
  { name := "EGR_PCPMAP", base := 0x0548, n := 22, dflt := 0x76543210, cls := .applyAt },
  { name := "EGR_CBS", base := 0x0580, n := 112, bytes := 8, hi := 0xFFFFFFFFFFFFFFFF, cls := .applyAt } ]

def params06 : List ParamRow := [
  { name := "ETH_MODE", base := 0x0600, n := 12, dflt := 0x18000000, cls := .config },
  { name := "ETH_MAC", base := 0x0610, n := 14, dflt := 0x0BE40000, cls := .config },
  { name := "ETH_PAUSE", base := 0x0620, n := 12, dflt := 0xFFFF8000, cls := .onArrival },
  { name := "ETH_PWD", base := 0x0630, n := 12, dflt := 0x006403E8, cls := .onArrival },
  { name := "ETH_LAT", base := 0x0640, n := 12, cls := .onArrival },
  { name := "ETH_VERIFY", base := 0x0650, n := 14, bytes := 1, lo := 1, hi := 128, dflt := 10, cls := .onArrival },
  { name := "ETH_TAG", base := 0x0660, n := 14, bytes := 2, hi := 0xFFFF, dflt := 1, cls := .config },
  { name := "ETH_SADDR", base := 0x0670, n := 14, bytes := 8, hi := 0xFFFFFFFFFFFF, cls := .config },
  { name := "ETH_SEC", base := 0x0680, n := 14, bytes := 8, hi := 0xFFFFFFFFFFFFFFFF, dflt := 0x2980000000000000, cls := .config },
  { name := "ETH_SEC_PNTH", base := 0x0690, n := 14, bytes := 8, lo := 1, hi := 0xFFFFFFFFFFFFFFFF, dflt := 0xC0000000, cls := .onArrival },
  { name := "TIS_CFG", base := 0x06A0, n := 8, bytes := 8, hi := 0xFFFFFFFFFFFFFFFF, dflt := 0x4040200080100000, cls := .config } ]

def params07 : List ParamRow := [
  { name := "CAN_CFG", base := 0x0700, n := 32, bytes := 8, hi := 0xFFFFFFFFFFFFFFFF, dflt := 0x7200006400000000, cls := .config },
  { name := "CAN_BT", base := 0x0720, n := 32, bytes := 8, hi := 0xFFFFFFFFFFFFFFFF, dflt := 0x013E0F0F001E0707, cls := .config },
  { name := "CAN_XBT", base := 0x0740, n := 32, bytes := 8, hi := 0xFFFFFFFFFFFFFFFF, dflt := 0x0004010180200600, cls := .config },
  { name := "CAN_TT", base := 0x0760, n := 32, bytes := 8, hi := 0xFFFFFFFFFFFFFFFF, cls := .config },
  { name := "LIN_CFG", base := 0x0780, n := 12, bytes := 8, hi := 0xFFFFFFFFFFFFFFFF, dflt := 0xB04B000000000000, cls := .config },
  { name := "FLX_CFG", base := 0x07A0, bytes := 8, hi := 0xFFFFFFFFFFFFFFFF, dflt := 0xF800000000000000, cls := .config },
  { name := "GTX_LAT_NS", base := 0x07E0, bytes := 2, lo := 500, hi := 20000, dflt := 1000, cls := .config } ]

def params08 : List ParamRow := [
  { name := "TB_SRC_PRI", base := 0x0800, bytes := 1, hi := 4, cls := .onArrival },
  { name := "TB_SRC_SEC", base := 0x0801, bytes := 1, hi := 4, cls := .onArrival },
  { name := "TB_STEP_MODE", base := 0x0802, bytes := 1, hi := 2, dflt := 1, cls := .onArrival },
  { name := "TB_STEP_THRESH_NS", base := 0x0803, lo := 100, hi := 1000000000, dflt := 10000, cls := .onArrival },
  { name := "TB_SLEW_MAX_PPB", base := 0x0804, lo := 1, hi := 500000, dflt := 200000, cls := .onArrival },
  { name := "TB_LOCK_NS", base := 0x0805, lo := 1, hi := 1000000, dflt := 100, cls := .onArrival },
  { name := "TB_LOCK_CNT", base := 0x0806, bytes := 1, lo := 1, hi := 255, dflt := 8, cls := .onArrival },
  { name := "TB_SERVO_BW_MHZ", base := 0x0807, bytes := 2, lo := 10, hi := 10000, dflt := 1000, cls := .onArrival },
  { name := "TB_HOLD_AGING", base := 0x0808, dflt := 1000, cls := .onArrival },
  { name := "TB_WORK_DOM", base := 0x0809, bytes := 1, hi := 3, cls := .onArrival },
  { name := "TB_TIME_ROOT", base := 0x080A, bytes := 1, hi := 1, cls := .config },
  { name := "TB_CHAIN_STEP_LEAD_US", base := 0x080B, lo := 500, hi := 100000, dflt := 2000, cls := .onArrival },
  { name := "GPTP_DOM", base := 0x0810, n := 4, bytes := 8, hi := 0xFFFFFFFFFFFFFFFF, cls := .onArrival },
  { name := "GPTP_ROLE", base := 0x0814, n := 4, bytes := 8, hi := 0xFFFFFFFFFFFFFFFF, cls := .onArrival },
  { name := "GPTP_PDELAY_THRESH_NS", base := 0x0818, lo := 1, hi := 1000000, dflt := 800, cls := .onArrival },
  { name := "GPTP_TIS_DELAY", base := 0x0820, n := 8, bytes := 2, hi := 1000, cls := .onArrival },
  { name := "CHN_ASYM", base := 0x0830, n := 2, signed := true, lo := -100000, hi := 100000, cls := .onArrival },
  { name := "CHN_CAL_PERIOD_MS", base := 0x0832, lo := 100, hi := 60000, dflt := 1000, cls := .onArrival },
  { name := "CHN_SERVO_BW_MHZ", base := 0x0833, bytes := 2, lo := 10, hi := 10000, dflt := 5000, cls := .onArrival },
  { name := "BTM_CFG", base := 0x0840, n := 32, bytes := 8, hi := 0xFFFFFFFFFFFFFFFF, dflt := 0x0064000000000000, cls := .onArrival },
  { name := "BTM_EPOCH_EVERY", base := 0x0860, bytes := 1, lo := 1, hi := 255, dflt := 16, cls := .onArrival },
  { name := "TEV_OWN", base := 0x0870, bytes := 2, hi := 0xFFFF, cls := .config },
  { name := "TEV_ADJ", base := 0x0871, n := 16, signed := true, lo := -100000000, hi := 100000000, cls := .onArrival },
  { name := "TB_PPS", base := 0x0881, bytes := 8, hi := 0xFFFFFFFFFFFFFFFF, dflt := 0x000186A000000000, cls := .onArrival } ]

def params09 : List ParamRow := [
  { name := "CHN_ADDR", base := 0x0900, bytes := 2, hi := 4094, cls := .config },
  { name := "CHN_RING_OWNER", base := 0x0901, bytes := 1, hi := 1, cls := .config },
  { name := "CHN_RING_AUTO", base := 0x0902, bytes := 1, hi := 1, dflt := 1, cls := .onArrival },
  { name := "CHN_RING_WTR_MS", base := 0x0903, lo := 100, hi := 600000, dflt := 5000, cls := .onArrival },
  { name := "CHN_HELLO_MS", base := 0x0904, bytes := 2, lo := 1, hi := 1000, dflt := 10, cls := .onArrival },
  { name := "CHN_FAIL_US", base := 0x0905, bytes := 2, lo := 10, hi := 10000, dflt := 100, cls := .onArrival },
  { name := "RMT_HOLD_MS", base := 0x0910, bytes := 2, lo := 1, hi := 1000, dflt := 10, cls := .onArrival },
  { name := "RMT_TMO_US", base := 0x0911, lo := 10, hi := 100000, dflt := 1000, cls := .onArrival },
  { name := "RMT_SERVE", base := 0x0912, bytes := 1, hi := 1, dflt := 1, cls := .onArrival } ]

def params0A : List ParamRow := [
  { name := "CRY_DUMMY_MAX", base := 0x0A00, bytes := 1, hi := 7, dflt := 7, cls := .config },
  { name := "CRY_SHUFFLE", base := 0x0A01, bytes := 1, hi := 1, dflt := 1, cls := .config },
  { name := "KEY_FV_RESERVE", base := 0x0A02, lo := 1024, hi := 16777216, dflt := 65536, cls := .config },
  { name := "KEY_JRNL_RX_S", base := 0x0A03, bytes := 2, lo := 1, hi := 3600, dflt := 10, cls := .config },
  { name := "KEY_MKA_SLOTS", base := 0x0A04, bytes := 8, hi := 0xFFFFFFFFFFFFFFFF, cls := .config },
  { name := "MKA_CAK", base := 0x0A10, n := 14, bytes := 2, hi := 0xFFFF, dflt := 0xFFFF, cls := .config } ]

def params0B : List ParamRow := [
  { name := "PWR_HOLD_T_MS", base := 0x0B00, bytes := 2, hi := 2000, dflt := 500, cls := .onArrival },
  { name := "PWR_HB_MS", base := 0x0B01, bytes := 1, lo := 1, hi := 100, dflt := 10, cls := .config },
  { name := "PWR_VNOM_MV", base := 0x0B02, bytes := 2, lo := 6000, hi := 32000, dflt := 13500, cls := .onArrival },
  { name := "PWR_COMP_EN", base := 0x0B03, bytes := 2, hi := 0xFFFF, cls := .onArrival } ]

def params0C : List ParamRow := [
  { name := "NM_TIMEOUT_MS", base := 0x0C00, lo := 100, hi := 600000, dflt := 2000, cls := .onArrival },
  { name := "NM_KA_PERIOD_MS", base := 0x0C01, bytes := 2, lo := 10, hi := 10000, dflt := 200, cls := .onArrival },
  { name := "NM_COMMIT_MS", base := 0x0C02, bytes := 2, lo := 1, hi := 10000, dflt := 50, cls := .onArrival },
  { name := "NM_SELF_NEED", base := 0x0C03, bytes := 1, hi := 1, cls := .onArrival },
  { name := "NM_CAN_MASK", base := 0x0C04, cls := .onArrival },
  { name := "NM_ETH_MASK", base := 0x0C05, hi := 0x0000FFFF, cls := .onArrival },
  { name := "NM_KA_IDENT", base := 0x0C06, dflt := 0x00000500, cls := .onArrival },
  { name := "NM_WDEC", base := 0x0C08, n := 8, bytes := 32, hi := 0xFFFFFFFFFFFFFFFFFFFFFFFFFFFFFFFFFFFFFFFFFFFFFFFFFFFFFFFFFFFFFFFF, cls := .onArrival },
  { name := "NM_WAKE_PINS", base := 0x0C10, bytes := 2, hi := 0xFFFF, cls := .onArrival },
  { name := "NM_WAKE_OTHER", base := 0x0C11, hi := 0x000FFFFF, cls := .onArrival } ]

def params0D : List ParamRow := [
  { name := "ARC_RING", base := 0x0D00, n := 4, bytes := 8, hi := 0xFFFFFFFFFFFFFFFF, cls := .config },
  { name := "ARC_SRC", base := 0x0D08, n := 4, bytes := 8, hi := 0x3FFFFFFFFFFF, cls := .applyAt },
  { name := "ARC_PORT", base := 0x0D0C, n := 4, hi := 0x003FFFFF, cls := .applyAt } ]

def params0E : List ParamRow := [
  { name := "UPD_HEALTH_MS", base := 0x0E00, lo := 1000, hi := 600000, dflt := 10000, cls := .onArrival } ]

def params0F : List ParamRow := [
  { name := "DIAG_DEBUG_AUTOLOCK_S", base := 0x0F00, bytes := 2, hi := 65535, dflt := 3600, cls := .onArrival } ]

/-- The rows of one area (R573). -/
def paramRows (area : Nat) : List ParamRow :=
  if area = 0x01 then params01
  else if area = 0x03 then params03
  else if area = 0x04 then params04
  else if area = 0x05 then params05
  else if area = 0x06 then params06
  else if area = 0x07 then params07
  else if area = 0x08 then params08
  else if area = 0x09 then params09
  else if area = 0x0A then params0A
  else if area = 0x0B then params0B
  else if area = 0x0C then params0C
  else if area = 0x0D then params0D
  else if area = 0x0E then params0E
  else if area = 0x0F then params0F
  else []

/-- The row of a parameter identifier. -/
def findParam (id : Nat) : Option ParamRow :=
  (paramRows (id / 256)).find? (fun r => r.base ≤ id && id < r.base + r.n)

/-- Base and size of the default partitions (R193). -/
def defaultPart (n : Nat) : Nat :=
  let b := [0, 16384, 32768, 49152, 65536, 81920, 114688, 122880, 126976, 0, 0, 0]
  let s := [16, 16, 16, 16, 16, 32, 8, 4, 4, 0, 0, 0]
  b.getD n 0 * 2 ^ 32 + 2 ^ 29 + s.getD n 0

/-- The base address of the module's block: universally administered and unicast, so that bits [1:0] of its first byte are
0, and the low four bits of its last byte 0 (R857, R861). [Log 11: DESIGN CHOICE] -/
def macBase : Nat := Config.macBase &&& 0xF0FFFFFFFFFC

/-- The station address of port `p`: the base with `p` added to its last byte (R861). -/
def stationAddr (p : Nat) : Nat := macBase + p * 2 ^ 40

/-- The bits of a parameter that its layout names; the firmware ignores the others and returns them as 0. A set of ports or
sub-sources has no such bits: one that names what does not exist is out of range (R27, R90). (R9, R88, R132,
R133, R193, R269, R317, R368, R393, R444, R581, R645). [Log 25: DEDUCED] -/
def paramMask (id : Nat) : Nat :=
  let within := fun (a b : Nat) => a ≤ id && id ≤ b
  if within 0x0130 0x0145 then 0x00FF0F01
  else if within 0x0152 0x0167 then 0x001FFFFF
  else if within 0x0180 0x01BF then 0x00071FFF
  else if within 0x0300 0x030B then 0x01FFFFFF6000FFFF
  else if within 0x0330 0x0345 then 0xF3FFFFFF
  else if id = 0x0402 then 0xFFFFFFFFFFFF
  else if within 0x0500 0x0515 then 0xFFFFC000
  else if within 0x0548 0x055D then 0x77777777
  else if within 0x0580 0x05EF then 0x7FFFFFFFFFFFFFFF
  else if within 0x0600 0x060B then 0xFE000000
  else if within 0x0610 0x061D then 0xFFFFF0FF
  else if within 0x0630 0x063B then 0x03FFFFFF
  else if within 0x0660 0x066D then 0xEFFF
  else if within 0x0670 0x067D then 0xFFFFFFFFFFFF
  else if within 0x0680 0x068D then 0xFF8000003FFFFFFF
  else if within 0x06A0 0x06A7 then 0xFFF8FFFFFF1F7FFF
  else if within 0x0700 0x071F then 0xFF00FFFF0000FFFF
  else if within 0x0720 0x073F then 0xFFFF7F7F1F1F0F0F
  else if within 0x0740 0x075F then 0x1F1F0F0F807F7F00
  else if within 0x0760 0x077F then 0x87FFFFFFFFFFFFFF
  else if within 0x0780 0x078B then 0xF0FFFF000000FFFF
  else if id = 0x07A0 then 0xFF8000000000FFFF
  else if within 0x0810 0x0813 then 0xF07FFFFFFFFFFF00
  else if within 0x0814 0x0817 then 0xFFFFFFFFFF
  else if id = 0x0881 then 0xF00FFFFFFFFFFFFF
  else if id = 0x0C11 then 0x000FFFFF
  else if within 0x0D00 0x0D03 then 0xC000FFFFFFFFFFFF
  else 2 ^ 256 - 1

/-- The line rate in Mb/s of an ETH_MODE code (R270). -/
def modeRate (mode : Nat) : Nat :=
  [0, 1000, 100, 10, 1000, 2500, 5000, 10000, 10000, 5000, 2500, 1000, 100].getD mode 0

/-- The default of a parameter; `get` reads the parameters a default depends on (R193, R269, R317, R645).
[Log 174: DEDUCED] -/
def paramDefault (get : Nat → Nat) (id : Nat) : Nat :=
  if 0x0300 ≤ id && id ≤ 0x030B then defaultPart (id - 0x0300)
  else if 0x0330 ≤ id && id ≤ 0x0345 then (if id ≤ 0x033B then 0xF0010000 else 0x70010000)
  else if 0x0350 ≤ id && id ≤ 0x0365 then (if id ≤ 0x035B then 0xFFF else 0)
  else if 0x0518 ≤ id && id ≤ 0x052D then
    let f := id - 0x0518
    if f ≤ 11 then (let r := modeRate (bits (get (0x0600 + f)) 31 28); if r = 0 then 1000 else r)
    else if f = 12 then 80 else if f = 14 || f = 15 then 24218 else 51200
  else if 0x0670 ≤ id && id ≤ 0x067D then stationAddr (id - 0x0670)
  else if 0x0D00 ≤ id && id ≤ 0x0D03 then (if id = 0x0D00 then 0x8000000000000400 else 0)
  else if 0x0D08 ≤ id && id ≤ 0x0D0B then (if id = 0x0D08 then 0x00003FFFFFFFFFFF else 0)
  else match findParam id with
    | some r => r.dflt
    | none => 0

/-- The name of a parameter identifier. -/
def paramName (id : Nat) : String :=
  match findParam id with
  | some r => r.name
  | none => ""

/-- SYS_AUTORUN (R612). -/
def Par.sysAutorun : Nat := 0x0100
/-- SYS_DRAM_STORE_MIB (R29). -/
def Par.sysDramStoreMib : Nat := 0x0101
/-- SYS_DRAM_ARCHIVE_MIB (R29). -/
def Par.sysDramArchiveMib : Nat := 0x0102
/-- SYS_DRAM_VITRINE_MIB (R29). -/
def Par.sysDramVitrineMib : Nat := 0x0103
/-- SYS_DRAM_HOSTSH_MIB (R29). -/
def Par.sysDramHostshMib : Nat := 0x0104
/-- STR_H_NS (R90). -/
def Par.strHNs : Nat := 0x0120
/-- STR_HX_NS (R90). -/
def Par.strHxNs : Nat := 0x0121
/-- STR_XSRC_F13 (R90). -/
def Par.strXsrcF13 : Nat := 0x0122
/-- STR_PASS_F18_NS (R90). -/
def Par.strPassF18Ns : Nat := 0x0123
/-- STR_PASS_F21_NS (R90). -/
def Par.strPassF21Ns : Nat := 0x0124
/-- STR_PCFG (R90). -/
def Par.strPcfg (i : Nat) : Nat := 0x0130 + i
/-- CAL_HOST_HOLD (R131). -/
def Par.calHostHold : Nat := 0x0150
/-- CAL_SLACK (R131). -/
def Par.calSlack : Nat := 0x0151
/-- CAL_PCFG (R131). -/
def Par.calPcfg (i : Nat) : Nat := 0x0152 + i
/-- CAL_PAUSE (R131). -/
def Par.calPause (i : Nat) : Nat := 0x0168 + i
/-- CAL_QG (R131). -/
def Par.calQg (i : Nat) : Nat := 0x0180 + i
/-- CAL_AGE (R131). -/
def Par.calAge (i : Nat) : Nat := 0x01C0 + i
/-- CAT_PART (R193). -/
def Par.catPart (i : Nat) : Nat := 0x0300 + i
/-- CAT_SEED (R193). -/
def Par.catSeed (i : Nat) : Nat := 0x0310 + i
/-- CAT_LFSR_SEED (R193). -/
def Par.catLfsrSeed (i : Nat) : Nat := 0x0320 + i
/-- CAT_PORT (R193). -/
def Par.catPort (i : Nat) : Nat := 0x0330 + i
/-- CAT_FLOOD (R193). -/
def Par.catFlood (i : Nat) : Nat := 0x0350 + i
/-- CAT_AGE_PERIOD_S (R193). -/
def Par.catAgePeriodS : Nat := 0x0370
/-- CAT_AGE_EN (R193). -/
def Par.catAgeEn : Nat := 0x0371
/-- CAT_VIT_PERIOD_MS (R193). -/
def Par.catVitPeriodMs : Nat := 0x0372
/-- CAT_VIT_REPAIR (R193). -/
def Par.catVitRepair : Nat := 0x0373
/-- CAT_VIT_OFF (R193). -/
def Par.catVitOff (i : Nat) : Nat := 0x0374 + i
/-- CAT_T5_MASK (R193). -/
def Par.catT5Mask (i : Nat) : Nat := 0x0380 + i
/-- SIG_ALT_AUTO (R230). -/
def Par.sigAltAuto : Nat := 0x0400
/-- SIG_ALT_RETURN (R230). -/
def Par.sigAltReturn : Nat := 0x0401
/-- SIG_TUN_SMAC (R230). -/
def Par.sigTunSmac : Nat := 0x0402
/-- SIG_TUN_MTV (R230). -/
def Par.sigTunMtv : Nat := 0x0403
/-- EGR_PORT (R269). -/
def Par.egrPort (i : Nat) : Nat := 0x0500 + i
/-- EGR_RATE (R269). -/
def Par.egrRate (i : Nat) : Nat := 0x0518 + i
/-- EGR_WFQ (R269). -/
def Par.egrWfq (i : Nat) : Nat := 0x0530 + i
/-- EGR_PCPMAP (R269). -/
def Par.egrPcpmap (i : Nat) : Nat := 0x0548 + i
/-- EGR_CBS (R269). -/
def Par.egrCbs (i : Nat) : Nat := 0x0580 + i
/-- ETH_MODE (R317). -/
def Par.ethMode (i : Nat) : Nat := 0x0600 + i
/-- ETH_MAC (R317). -/
def Par.ethMac (i : Nat) : Nat := 0x0610 + i
/-- ETH_PAUSE (R317). -/
def Par.ethPause (i : Nat) : Nat := 0x0620 + i
/-- ETH_PWD (R317). -/
def Par.ethPwd (i : Nat) : Nat := 0x0630 + i
/-- ETH_LAT (R317). -/
def Par.ethLat (i : Nat) : Nat := 0x0640 + i
/-- ETH_VERIFY (R317). -/
def Par.ethVerify (i : Nat) : Nat := 0x0650 + i
/-- ETH_TAG (R317). -/
def Par.ethTag (i : Nat) : Nat := 0x0660 + i
/-- ETH_SADDR (R317). -/
def Par.ethSaddr (i : Nat) : Nat := 0x0670 + i
/-- ETH_SEC (R317). -/
def Par.ethSec (i : Nat) : Nat := 0x0680 + i
/-- ETH_SEC_PNTH (R317). -/
def Par.ethSecPnth (i : Nat) : Nat := 0x0690 + i
/-- TIS_CFG (R317). -/
def Par.tisCfg (i : Nat) : Nat := 0x06A0 + i
/-- CAN_CFG (R368). -/
def Par.canCfg (i : Nat) : Nat := 0x0700 + i
/-- CAN_BT (R368). -/
def Par.canBt (i : Nat) : Nat := 0x0720 + i
/-- CAN_XBT (R368). -/
def Par.canXbt (i : Nat) : Nat := 0x0740 + i
/-- CAN_TT (R368). -/
def Par.canTt (i : Nat) : Nat := 0x0760 + i
/-- LIN_CFG (R393). -/
def Par.linCfg (i : Nat) : Nat := 0x0780 + i
/-- FLX_CFG (R393). -/
def Par.flxCfg : Nat := 0x07A0
/-- GTX_LAT_NS (R393). -/
def Par.gtxLatNs : Nat := 0x07E0
/-- TB_SRC_PRI (R444). -/
def Par.tbSrcPri : Nat := 0x0800
/-- TB_SRC_SEC (R444). -/
def Par.tbSrcSec : Nat := 0x0801
/-- TB_STEP_MODE (R444). -/
def Par.tbStepMode : Nat := 0x0802
/-- TB_STEP_THRESH_NS (R444). -/
def Par.tbStepThreshNs : Nat := 0x0803
/-- TB_SLEW_MAX_PPB (R444). -/
def Par.tbSlewMaxPpb : Nat := 0x0804
/-- TB_LOCK_NS (R444). -/
def Par.tbLockNs : Nat := 0x0805
/-- TB_LOCK_CNT (R444). -/
def Par.tbLockCnt : Nat := 0x0806
/-- TB_SERVO_BW_MHZ (R444). -/
def Par.tbServoBwMhz : Nat := 0x0807
/-- TB_HOLD_AGING (R444). -/
def Par.tbHoldAging : Nat := 0x0808
/-- TB_WORK_DOM (R444). -/
def Par.tbWorkDom : Nat := 0x0809
/-- TB_TIME_ROOT (R444). -/
def Par.tbTimeRoot : Nat := 0x080A
/-- TB_CHAIN_STEP_LEAD_US (R444). -/
def Par.tbChainStepLeadUs : Nat := 0x080B
/-- GPTP_DOM (R444). -/
def Par.gptpDom (i : Nat) : Nat := 0x0810 + i
/-- GPTP_ROLE (R444). -/
def Par.gptpRole (i : Nat) : Nat := 0x0814 + i
/-- GPTP_PDELAY_THRESH_NS (R444). -/
def Par.gptpPdelayThreshNs : Nat := 0x0818
/-- GPTP_TIS_DELAY (R444). -/
def Par.gptpTisDelay (i : Nat) : Nat := 0x0820 + i
/-- CHN_ASYM (R444). -/
def Par.chnAsym (i : Nat) : Nat := 0x0830 + i
/-- CHN_CAL_PERIOD_MS (R444). -/
def Par.chnCalPeriodMs : Nat := 0x0832
/-- CHN_SERVO_BW_MHZ (R444). -/
def Par.chnServoBwMhz : Nat := 0x0833
/-- BTM_CFG (R444). -/
def Par.btmCfg (i : Nat) : Nat := 0x0840 + i
/-- BTM_EPOCH_EVERY (R444). -/
def Par.btmEpochEvery : Nat := 0x0860
/-- TEV_OWN (R444). -/
def Par.tevOwn : Nat := 0x0870
/-- TEV_ADJ (R444). -/
def Par.tevAdj (i : Nat) : Nat := 0x0871 + i
/-- TB_PPS (R444). -/
def Par.tbPps : Nat := 0x0881
/-- CHN_ADDR (R492). -/
def Par.chnAddr : Nat := 0x0900
/-- CHN_RING_OWNER (R492). -/
def Par.chnRingOwner : Nat := 0x0901
/-- CHN_RING_AUTO (R492). -/
def Par.chnRingAuto : Nat := 0x0902
/-- CHN_RING_WTR_MS (R492). -/
def Par.chnRingWtrMs : Nat := 0x0903
/-- CHN_HELLO_MS (R492). -/
def Par.chnHelloMs : Nat := 0x0904
/-- CHN_FAIL_US (R492). -/
def Par.chnFailUs : Nat := 0x0905
/-- RMT_HOLD_MS (R492). -/
def Par.rmtHoldMs : Nat := 0x0910
/-- RMT_TMO_US (R492). -/
def Par.rmtTmoUs : Nat := 0x0911
/-- RMT_SERVE (R492). -/
def Par.rmtServe : Nat := 0x0912
/-- CRY_DUMMY_MAX (R544). -/
def Par.cryDummyMax : Nat := 0x0A00
/-- CRY_SHUFFLE (R544). -/
def Par.cryShuffle : Nat := 0x0A01
/-- KEY_FV_RESERVE (R544). -/
def Par.keyFvReserve : Nat := 0x0A02
/-- KEY_JRNL_RX_S (R544). -/
def Par.keyJrnlRxS : Nat := 0x0A03
/-- KEY_MKA_SLOTS (R645). -/
def Par.keyMkaSlots : Nat := 0x0A04
/-- MKA_CAK (R645). -/
def Par.mkaCak (i : Nat) : Nat := 0x0A10 + i
/-- PWR_HOLD_T_MS (R645). -/
def Par.pwrHoldTMs : Nat := 0x0B00
/-- PWR_HB_MS (R645). -/
def Par.pwrHbMs : Nat := 0x0B01
/-- PWR_VNOM_MV (R645). -/
def Par.pwrVnomMv : Nat := 0x0B02
/-- PWR_COMP_EN (R645). -/
def Par.pwrCompEn : Nat := 0x0B03
/-- NM_TIMEOUT_MS (R645). -/
def Par.nmTimeoutMs : Nat := 0x0C00
/-- NM_KA_PERIOD_MS (R645). -/
def Par.nmKaPeriodMs : Nat := 0x0C01
/-- NM_COMMIT_MS (R645). -/
def Par.nmCommitMs : Nat := 0x0C02
/-- NM_SELF_NEED (R645). -/
def Par.nmSelfNeed : Nat := 0x0C03
/-- NM_CAN_MASK (R645). -/
def Par.nmCanMask : Nat := 0x0C04
/-- NM_ETH_MASK (R645). -/
def Par.nmEthMask : Nat := 0x0C05
/-- NM_KA_IDENT (R645). -/
def Par.nmKaIdent : Nat := 0x0C06
/-- NM_WDEC (R645). -/
def Par.nmWdec (i : Nat) : Nat := 0x0C08 + i
/-- NM_WAKE_PINS (R645). -/
def Par.nmWakePins : Nat := 0x0C10
/-- NM_WAKE_OTHER (R645). -/
def Par.nmWakeOther : Nat := 0x0C11
/-- ARC_RING (R645). -/
def Par.arcRing (i : Nat) : Nat := 0x0D00 + i
/-- ARC_SRC (R645). -/
def Par.arcSrc (i : Nat) : Nat := 0x0D08 + i
/-- ARC_PORT (R645). -/
def Par.arcPort (i : Nat) : Nat := 0x0D0C + i
/-- UPD_HEALTH_MS (R645). -/
def Par.updHealthMs : Nat := 0x0E00
/-- DIAG_DEBUG_AUTOLOCK_S (R645). -/
def Par.diagDebugAutolockS : Nat := 0x0F00

end Sys2Proof.Machine
end

