-- ==== Sys2Proof/Machine/RegTable.lean ====
section
/-! DEFINITION. The BAR0 register map: every register the spec lists, with its offset, count, stride, reset value and the
bits of each access code of R9. Bits in no mask are read-only or reserved. A definition `Reg.<name> i` gives the offset
of register number i of a group. Reset values are the spec's own field maps. -/

namespace Sys2Proof.Machine

/-- One row of the register map: `n` registers from `base`, `stride` bytes apart, with their reset value and the bits
that are RW, W1C, W1S, RC and WO (R9). -/
structure RegRow where
  name : String
  base : Nat
  n : Nat := 1
  stride : Nat := 4
  reset : Nat := 0
  rw : Nat := 0
  w1c : Nat := 0
  w1s : Nat := 0
  rc : Nat := 0
  wo : Nat := 0
deriving DecidableEq, Repr

def regs000 : List RegRow := [
  { name := "SYS_ID", base := 0x00000000, reset := 0x5A96B001 },
  { name := "SYS_ISL_STAT", base := 0x00000040, reset := 0x40000000 },
  { name := "SYS_BADACC_ADDR", base := 0x00000048 },
  { name := "SYS_BADACC_INFO", base := 0x0000004C },
  { name := "SYS_FLAG", base := 0x00000050, w1c := 0x80000000 },
  { name := "SYS_MAC_LO", base := 0x00000058 },
  { name := "SYS_MAC_HI", base := 0x0000005C },
  { name := "SYS_DRAM_MAP", base := 0x00000080, n := 6 },
  { name := "MSIX_ADDR_LO", base := 0x00002000, n := 64, stride := 0x10, rw := 0xFFFFFFFC },
  { name := "MSIX_ADDR_HI", base := 0x00002004, n := 64, stride := 0x10, rw := 0xFFFFFFFF },
  { name := "MSIX_DATA", base := 0x00002008, n := 64, stride := 0x10, rw := 0xFFFFFFFF },
  { name := "MSIX_CTL", base := 0x0000200C, n := 64, stride := 0x10, reset := 0x1, rw := 0x1 },
  { name := "MSIX_PBA", base := 0x00003000, n := 2 } ]

def regs001 : List RegRow := [
  { name := "INT_RAW", base := 0x00010000, n := 8 },
  { name := "INT_EN", base := 0x00010020, n := 8, rw := 0xFFFFFFFF },
  { name := "INT_PEND", base := 0x00010040, n := 2 },
  { name := "INT_VACK", base := 0x00010048, wo := 0x8000003F },
  { name := "INT_VEC", base := 0x00010100, n := 256, rw := 0x8000003F } ]

def regs002 : List RegRow := [
  { name := "MBX_WORD", base := 0x00020000, n := 16384, rw := 0xFFFFFFFF } ]

def regs003 : List RegRow := [
  { name := "MBX_DB", base := 0x00030000, n := 64, wo := 0x1 },
  { name := "MBX_STATE", base := 0x00030100, n := 4 },
  { name := "MBX_DONE", base := 0x00030110, n := 2, w1c := 0xFFFFFFFF },
  { name := "MBX_IEN", base := 0x00030118, n := 2, rw := 0xFFFFFFFF },
  { name := "MBX_FLAG", base := 0x00030120, w1c := 0xF0000000 },
  { name := "MBX_FW_STAT", base := 0x00030124 },
  { name := "MBX_FW_HB", base := 0x00030128 } ]

def regs004 : List RegRow := [
  { name := "HDMA_RX_BASE_LO", base := 0x00040000, n := 32, stride := 0x40, rw := 0xFFFFFFFF },
  { name := "HDMA_RX_BASE_HI", base := 0x00040004, n := 32, stride := 0x40, rw := 0xFFFFFFFF },
  { name := "HDMA_RX_CTL", base := 0x00040008, n := 32, stride := 0x40, reset := 0xC000000, rw := 0xBC0003FF },
  { name := "HDMA_RX_TAIL", base := 0x0004000C, n := 32, stride := 0x40, rw := 0xFFF },
  { name := "HDMA_RX_HEAD", base := 0x00040010, n := 32, stride := 0x40 },
  { name := "HDMA_RX_SEEN", base := 0x00040014, n := 32, stride := 0x40, rw := 0xFFF },
  { name := "HDMA_RX_FRM", base := 0x00040020, n := 32, stride := 0x40, rc := 0xFFFFFFFF },
  { name := "HDMA_RX_TRUNC", base := 0x00040024, n := 32, stride := 0x40, rc := 0xFFFFFFFF },
  { name := "HDMA_RX_NOBUF", base := 0x00040028, n := 32, stride := 0x40, rc := 0xFFFFFFFF },
  { name := "HDMA_TX_BASE_LO", base := 0x00041000, n := 32, stride := 0x40, rw := 0xFFFFFFFF },
  { name := "HDMA_TX_BASE_HI", base := 0x00041004, n := 32, stride := 0x40, rw := 0xFFFFFFFF },
  { name := "HDMA_TX_CTL", base := 0x00041008, n := 32, stride := 0x40, reset := 0xC000000, rw := 0xBC000001 },
  { name := "HDMA_TX_TAIL", base := 0x0004100C, n := 32, stride := 0x40, rw := 0xFFF },
  { name := "HDMA_TX_HEAD", base := 0x00041010, n := 32, stride := 0x40 },
  { name := "HDMA_TX_SEEN", base := 0x00041014, n := 32, stride := 0x40, rw := 0xFFF },
  { name := "HDMA_TX_FRM", base := 0x00041020, n := 32, stride := 0x40, rc := 0xFFFFFFFF },
  { name := "HDMA_TX_LATE", base := 0x00041024, n := 32, stride := 0x40, rc := 0xFFFFFFFF },
  { name := "HDMA_TX_DROP", base := 0x00041028, n := 32, stride := 0x40, rc := 0xFFFFFFFF },
  { name := "HDMA_TX_ERR", base := 0x0004102C, n := 32, stride := 0x40, rc := 0xFFFFFFFF },
  { name := "HDMA_FLAG", base := 0x00042000, w1c := 0xF8000000 },
  { name := "HDMA_ERR_ADDR_LO", base := 0x00042004 },
  { name := "HDMA_ERR_ADDR_HI", base := 0x00042008 },
  { name := "HDMA_ERR_INFO", base := 0x0004200C },
  { name := "HDMA_TSO_REJ_CNT", base := 0x00042010, rc := 0xFFFFFFFF },
  { name := "HDMA_RXMAP", base := 0x00042040, n := 16, rw := 0x1F } ]

def regs006 : List RegRow := [
  { name := "TB_STAT", base := 0x00060000, reset := 0x400000 },
  { name := "TB_DT_LO", base := 0x00060004 },
  { name := "TB_DT_HI", base := 0x00060008 },
  { name := "TB_DT_FRAC", base := 0x0006000C },
  { name := "TB_INCR_LO", base := 0x00060010 },
  { name := "TB_INCR_HI", base := 0x00060014, reset := 0x200 },
  { name := "TB_QUAL", base := 0x00060018, reset := 0xFFFFFFFF },
  { name := "TB_OFFS", base := 0x0006001C },
  { name := "TB_FLAG", base := 0x00060020, w1c := 0xFF000000 },
  { name := "TB_STEP_LAST_LO", base := 0x00060024 },
  { name := "TB_STEP_LAST_HI", base := 0x00060028 },
  { name := "TB_EPOCH", base := 0x0006002C },
  { name := "TB_DIST_ERR_CNT", base := 0x00060030, rc := 0xFFFFFFFF },
  { name := "TB_STEP_CNT", base := 0x00060034, rc := 0xFFFFFFFF },
  { name := "TB_CLAMP_CNT", base := 0x00060038, rc := 0xFFFFFFFF },
  { name := "TB_SRC_LOSS_CNT", base := 0x0006003C, rc := 0xFFFFFFFF },
  { name := "TB_PPS_IN_LO", base := 0x00060040 },
  { name := "TB_PPS_IN_HI", base := 0x00060044 },
  { name := "TB_PPS_IN_CNT", base := 0x00060048, rc := 0xFFFFFFFF },
  { name := "TB_STEP_LAST_FRAC", base := 0x0006004C },
  { name := "TEV_OUT_CFG", base := 0x00061000, n := 16, stride := 0x40, rw := 0x38000000, w1s := 0x80000000 },
  { name := "TEV_OUT_START_LO", base := 0x00061004, n := 16, stride := 0x40, rw := 0xFFFFFFFF },
  { name := "TEV_OUT_START_HI", base := 0x00061008, n := 16, stride := 0x40, rw := 0xFFFFFFFF },
  { name := "TEV_OUT_PER_FRAC", base := 0x0006100C, n := 16, stride := 0x40, rw := 0xFFFF },
  { name := "TEV_OUT_PER_LO", base := 0x00061010, n := 16, stride := 0x40, rw := 0xFFFFFFFF },
  { name := "TEV_OUT_PER_HI", base := 0x00061014, n := 16, stride := 0x40, rw := 0xFFFF },
  { name := "TEV_OUT_WIDTH", base := 0x00061018, n := 16, stride := 0x40, rw := 0xFFFFFFFF },
  { name := "TEV_OUT_COUNT", base := 0x0006101C, n := 16, stride := 0x40, rw := 0xFFFFFFFF },
  { name := "TEV_OUT_DONE", base := 0x00061020, n := 16, stride := 0x40 },
  { name := "TEV_OUT_MISS", base := 0x00061024, n := 16, stride := 0x40, rc := 0xFFFFFFFF },
  { name := "TEV_OUT_NEXT_LO", base := 0x00061028, n := 16, stride := 0x40 },
  { name := "TEV_OUT_NEXT_HI", base := 0x0006102C, n := 16, stride := 0x40 },
  { name := "TEV_IN_CFG", base := 0x00062000, n := 16, stride := 0x40, reset := 0x20010000, rw := 0xE03F0000 },
  { name := "TEV_IN_STAT", base := 0x00062004, n := 16, stride := 0x40, w1c := 0xC0000000 },
  { name := "TEV_IN_LOST", base := 0x00062008, n := 16, stride := 0x40, rc := 0xFFFFFFFF },
  { name := "TEV_IN_FASTCNT", base := 0x0006200C, n := 16, stride := 0x40, rc := 0xFFFFFFFF },
  { name := "TEV_IN_ENT0", base := 0x00062010, n := 16, stride := 0x40 },
  { name := "TEV_IN_ENT1", base := 0x00062014, n := 16, stride := 0x40 },
  { name := "TEV_IN_ENT2", base := 0x00062018, n := 16, stride := 0x40 },
  { name := "TEV_IN_ENT3", base := 0x0006201C, n := 16, stride := 0x40 } ]

def regs007 : List RegRow := [
  { name := "TSQ_STAT", base := 0x00070000, n := 14, stride := 0x40, reset := 0x10000, rw := 0x7F0000, w1c := 0x80000000 },
  { name := "TSQ_LOST", base := 0x00070004, n := 14, stride := 0x40, rc := 0xFFFFFFFF },
  { name := "TSQ_ENT0", base := 0x00070010, n := 14, stride := 0x40 },
  { name := "TSQ_ENT1", base := 0x00070014, n := 14, stride := 0x40 },
  { name := "TSQ_ENT2", base := 0x00070018, n := 14, stride := 0x40 },
  { name := "TSQ_ENT3", base := 0x0007001C, n := 14, stride := 0x40 } ]

def regs008 : List RegRow := [
  { name := "ARC_RSTAT", base := 0x00080000, n := 4, stride := 0x40 },
  { name := "ARC_RGEO", base := 0x00080004, n := 4, stride := 0x40 },
  { name := "ARC_WR_LO", base := 0x00080008, n := 4, stride := 0x40 },
  { name := "ARC_WR_HI", base := 0x0008000C, n := 4, stride := 0x40 },
  { name := "ARC_MARK_LO", base := 0x00080010, n := 4, stride := 0x40 },
  { name := "ARC_MARK_HI", base := 0x00080014, n := 4, stride := 0x40 },
  { name := "ARC_SEQ", base := 0x00080018, n := 4, stride := 0x40 },
  { name := "ARC_REC_CNT", base := 0x00080020, n := 4, stride := 0x40, rc := 0xFFFFFFFF },
  { name := "ARC_HOLD_DROP", base := 0x00080024, n := 4, stride := 0x40, rc := 0xFFFFFFFF },
  { name := "ARC_MLOST_CNT", base := 0x00080028, n := 4, stride := 0x40, rc := 0xFFFFFFFF },
  { name := "ARC_CAP_EN", base := 0x00080100, n := 2, rw := 0xFFFFFFFF },
  { name := "ARC_FLAG", base := 0x00080108, w1c := 0x7FF },
  { name := "ARC_PLAY_STAT", base := 0x0008010C },
  { name := "ARC_PLAY_CNT", base := 0x00080110 },
  { name := "ARC_CAP_D0", base := 0x00081000, n := 46, stride := 0x40 },
  { name := "ARC_CAP_D1", base := 0x00081004, n := 46, stride := 0x40 },
  { name := "ARC_CAP_D2", base := 0x00081008, n := 46, stride := 0x40 },
  { name := "ARC_CAP_D3", base := 0x0008100C, n := 46, stride := 0x40 },
  { name := "ARC_CAP_D4", base := 0x00081010, n := 46, stride := 0x40 },
  { name := "ARC_CAP_D5", base := 0x00081014, n := 46, stride := 0x40 },
  { name := "ARC_CAP_D6", base := 0x00081018, n := 46, stride := 0x40 },
  { name := "ARC_CAP_D7", base := 0x0008101C, n := 46, stride := 0x40 },
  { name := "ARC_CAP_TAG", base := 0x00081020, n := 46, stride := 0x40 },
  { name := "ARC_CAP_STAT", base := 0x00081024, n := 46, stride := 0x40, w1c := 0x80000000 },
  { name := "ARC_CAP_CFG", base := 0x00081028, n := 46, stride := 0x40, reset := 0x1, rw := 0x1FFF },
  { name := "ARC_CAP_LOST", base := 0x0008102C, n := 46, stride := 0x40, rc := 0xFFFFFFFF } ]

def regs00A : List RegRow := [
  { name := "CRY_Q_RBASE_LO", base := 0x000A0000, n := 12, stride := 0x80, rw := 0xFFFFFFFF },
  { name := "CRY_Q_RBASE_HI", base := 0x000A0004, n := 12, stride := 0x80, rw := 0xFFFFFFFF },
  { name := "CRY_Q_CBASE_LO", base := 0x000A0008, n := 12, stride := 0x80, rw := 0xFFFFFFFF },
  { name := "CRY_Q_CBASE_HI", base := 0x000A000C, n := 12, stride := 0x80, rw := 0xFFFFFFFF },
  { name := "CRY_Q_CTL", base := 0x000A0010, n := 12, stride := 0x80, rw := 0x80000F3F },
  { name := "CRY_Q_TAIL", base := 0x000A0014, n := 12, stride := 0x80, rw := 0xFF },
  { name := "CRY_Q_HEAD", base := 0x000A0018, n := 12, stride := 0x80 },
  { name := "CRY_Q_CTAIL", base := 0x000A001C, n := 12, stride := 0x80 },
  { name := "CRY_Q_CHEAD", base := 0x000A0020, n := 12, stride := 0x80, rw := 0xFF },
  { name := "CRY_Q_STAT", base := 0x000A0024, n := 12, stride := 0x80, w1c := 0xC0000000 },
  { name := "CRY_STAT", base := 0x000A0800 },
  { name := "CRY_FLAG", base := 0x000A0804, w1c := 0xF8000000 },
  { name := "CRY_FAULT_CNT", base := 0x000A0810, rc := 0xFFFFFFFF },
  { name := "CRY_REV_FAIL_CNT", base := 0x000A0814, rc := 0xFFFFFFFF },
  { name := "CRY_FRESH_FAIL_CNT", base := 0x000A0818, rc := 0xFFFFFFFF },
  { name := "CRY_SEAL_REV_CNT", base := 0x000A081C, rc := 0xFFFFFFFF },
  { name := "CRY_SEAL_HOLD_CNT", base := 0x000A0820, rc := 0xFFFFFFFF },
  { name := "CRY_INLINE_REV_CNT", base := 0x000A0824, rc := 0xFFFFFFFF },
  { name := "CRY_CACHE_MISS_CNT", base := 0x000A0828, rc := 0xFFFFFFFF } ]

def regs00F : List RegRow := [
  { name := "CAN_DW_SLOT", base := 0x000F0000, n := 8 } ]

def regs010 : List RegRow := [
  { name := "UPD_STAT", base := 0x00100000 },
  { name := "UPD_BLOCKS", base := 0x00100004 },
  { name := "UPD_EPOCH_LO", base := 0x00100008 },
  { name := "UPD_EPOCH_HI", base := 0x0010000C },
  { name := "UPD_PREV_FW", base := 0x00100010 },
  { name := "UPD_ROM_CTL", base := 0x00100014, wo := 0x8000FFFF },
  { name := "UPD_ROM_STAT", base := 0x00100018 },
  { name := "UPD_BLKFAIL_CNT", base := 0x00100020, rc := 0xFFFFFFFF },
  { name := "UPD_RELAY_CNT", base := 0x00100024, rc := 0xFFFFFFFF },
  { name := "UPD_HO_CNT", base := 0x00100028, rc := 0xFFFFFFFF },
  { name := "UPD_RB_CNT", base := 0x0010002C, rc := 0xFFFFFFFF } ]

def regs011 : List RegRow := [
  { name := "LCK_STAT", base := 0x00110000 },
  { name := "LCK_FENCE", base := 0x00110004 },
  { name := "LCK_FENCE_BANK", base := 0x00110008 },
  { name := "LCK_FLAG", base := 0x0011000C, w1c := 0xFFC00000 },
  { name := "LCK_LAST", base := 0x00110010 },
  { name := "LCK_LAST_DETAIL", base := 0x00110014 },
  { name := "LCK_INJ_STAT", base := 0x00110020, n := 2 },
  { name := "LCK_MIS_CNT", base := 0x00110040, n := 2, rc := 0xFFFFFFFF },
  { name := "LCK_SKEW_CNT", base := 0x00110048, n := 2, rc := 0xFFFFFFFF },
  { name := "LCK_TRANS_CNT", base := 0x00110084, n := 7, rc := 0xFFFFFFFF },
  { name := "LCK_LAST_CNT", base := 0x001100C4, n := 7, rc := 0xFFFFFFFF },
  { name := "LCK_FENCE_DROP", base := 0x00110100, rc := 0xFFFFFFFF },
  { name := "LCK_ITEM_DROP", base := 0x00110104, rc := 0xFFFFFFFF },
  { name := "LCK_ISL_RST", base := 0x00110200, w1s := 0xFFFF },
  { name := "LCK_RST_DROP", base := 0x00110204, rc := 0xFFFFFFFF } ]

def regs012 : List RegRow := [
  { name := "FAB_STR_STAT", base := 0x00120000 },
  { name := "FAB_STR_H", base := 0x00120004, reset := 0x1F407D0 },
  { name := "FAB_STR_FRONT_LO", base := 0x00120008 },
  { name := "FAB_STR_FRONT_HI", base := 0x0012000C },
  { name := "FAB_STR_SEG", base := 0x00120010 },
  { name := "FAB_STR_OVR_FLAG", base := 0x00120014, w1c := 0x803FFFFF },
  { name := "FAB_STR_OVR_LAST", base := 0x00120018 },
  { name := "FAB_STR_OVR_LAST_A_LO", base := 0x0012001C },
  { name := "FAB_STR_OVR_LAST_A_HI", base := 0x00120020 },
  { name := "FAB_STR_OVR_CNT", base := 0x00120040, n := 22, rc := 0xFFFFFFFF },
  { name := "FAB_STR_FUT_CNT", base := 0x00120098, rc := 0xFFFFFFFF },
  { name := "FAB_STR_PCFG", base := 0x00120100, n := 22 },
  { name := "FAB_STR_XSRC_LO", base := 0x00120160 },
  { name := "FAB_STR_XSRC_HI", base := 0x00120164 },
  { name := "FAB_CAL_STAT", base := 0x00121000 },
  { name := "FAB_CAL_SHFREE", base := 0x00121004 },
  { name := "FAB_CAL_SLACK_USED", base := 0x00121008 },
  { name := "FAB_CAL_HOLD_USED", base := 0x0012100C },
  { name := "FAB_CAL_FLAG", base := 0x00121010, w1c := 0xC0000000 },
  { name := "FAB_CAL_PAUSE_STAT", base := 0x00121014 },
  { name := "FAB_CAL_CRC_LAST", base := 0x00121018 },
  { name := "FAB_CAL_CRC_CNT", base := 0x0012101C, rc := 0xFFFFFFFF },
  { name := "FAB_CAL_NOCELL_CNT", base := 0x00121020, rc := 0xFFFFFFFF },
  { name := "FAB_Q_OCC", base := 0x00121400, n := 176 },
  { name := "FAB_Q_DROP", base := 0x00121800, n := 176, rc := 0xFFFFFFFF },
  { name := "FAB_Q_AGED", base := 0x00121C00, n := 176, rc := 0xFFFFFFFF },
  { name := "FAB_P_PEND", base := 0x00122000, n := 22 },
  { name := "FAB_P_IOCC", base := 0x00122080, n := 12 },
  { name := "FAB_P_XOFF_CNT", base := 0x00122100, n := 12, rc := 0xFFFFFFFF } ]

/-- [Log 171: DEDUCED] -/
def regs013 : List RegRow := [
  { name := "CAT_STAT", base := 0x00130000 },
  { name := "CAT_FLAG", base := 0x00130004, w1c := 0xF0000000 },
  { name := "CAT_LAG_MAX", base := 0x00130008, rc := 0xFFFFF },
  { name := "CAT_LAG_CNT", base := 0x0013000C, rc := 0xFFFFFFFF },
  { name := "CAT_LAGDROP_CNT", base := 0x00130010, rc := 0xFFFFFFFF },
  { name := "CAT_VIT_LAST", base := 0x00130014 },
  { name := "CAT_VIT_MIS_CNT", base := 0x00130018, rc := 0xFFFFFFFF },
  { name := "CAT_VIT_REP_CNT", base := 0x0013001C, rc := 0xFFFFFFFF },
  { name := "CAT_ECC_CNT", base := 0x00130020, rc := 0xFFFFFFFF },
  { name := "CAT_PART_BASE", base := 0x00130100, n := 12 },
  { name := "CAT_PART_CFG", base := 0x00130140, n := 12, reset := 0x20000000 },
  { name := "CAT_PART_USED", base := 0x00130180, n := 12 },
  { name := "CAT_HIT_CNT", base := 0x00130200, n := 12, rc := 0xFFFFFFFF },
  { name := "CAT_MISS_CNT", base := 0x00130240, n := 12, rc := 0xFFFFFFFF },
  { name := "CAT_ACC_CNT", base := 0x00130280, n := 12, rc := 0xFFFFFFFF },
  { name := "CAT_MOVE_CNT", base := 0x001302C0, n := 12, rc := 0xFFFFFFFF },
  { name := "CAT_DEACC_CNT", base := 0x00130300, n := 12, rc := 0xFFFFFFFF },
  { name := "CAT_AGED_CNT", base := 0x00130340, n := 12, rc := 0xFFFFFFFF },
  { name := "CAT_FULL_CNT", base := 0x00130380, n := 12, rc := 0xFFFFFFFF },
  { name := "CAT_CAP_CNT", base := 0x00130400, n := 22, rc := 0xFFFFFFFF },
  { name := "CAT_PORT_LRN", base := 0x00130480, n := 22 } ]

def regs014 : List RegRow := [
  { name := "SIG_STAT", base := 0x00140000 },
  { name := "SIG_FLAG", base := 0x00140004, w1c := 0xF8000000 },
  { name := "SIG_ALT_MAP_LO", base := 0x00140008 },
  { name := "SIG_ALT_MAP_HI", base := 0x0014000C },
  { name := "SIG_RT_CNT", base := 0x00140010, rc := 0xFFFFFFFF },
  { name := "SIG_SHORT_CNT", base := 0x00140014, rc := 0xFFFFFFFF },
  { name := "SIG_SAT_CNT", base := 0x00140018, rc := 0xFFFFFFFF },
  { name := "SIG_TMO_CNT", base := 0x0014001C, rc := 0xFFFFFFFF },
  { name := "SIG_PDU_TX_CNT", base := 0x00140020, rc := 0xFFFFFFFF },
  { name := "SIG_PDU_COAL_CNT", base := 0x00140024, rc := 0xFFFFFFFF },
  { name := "SIG_TUN_TX_CNT", base := 0x00140028, rc := 0xFFFFFFFF },
  { name := "SIG_TUN_RX_CNT", base := 0x0014002C, rc := 0xFFFFFFFF },
  { name := "SIG_TUN_SEQ_CNT", base := 0x00140030, rc := 0xFFFFFFFF },
  { name := "SIG_TUN_DROP_CNT", base := 0x00140034, rc := 0xFFFFFFFF },
  { name := "SIG_ALT_CNT", base := 0x00140038, rc := 0xFFFFFFFF },
  { name := "SIG_TMO_MAP", base := 0x00140400, n := 256 } ]

def regs015 : List RegRow := [
  { name := "EGR_FLAG", base := 0x00150000, w1c := 0xF8000000 },
  { name := "EGR_LATE_LAST", base := 0x00150004 },
  { name := "EGR_LATE_LAST_DLY", base := 0x00150008 },
  { name := "EGR_PSTAT", base := 0x00150100, n := 22, reset := 0xFF0000 },
  { name := "EGR_SEL_CNT", base := 0x00150200, n := 22, rc := 0xFFFFFFFF },
  { name := "EGR_CR_TX_CNT", base := 0x00150280, n := 22, rc := 0xFFFFFFFF },
  { name := "EGR_CR_LATE_CNT", base := 0x00150300, n := 22, rc := 0xFFFFFFFF },
  { name := "EGR_CR_LDROP_CNT", base := 0x00150380, n := 22, rc := 0xFFFFFFFF },
  { name := "EGR_CR_PMISS_CNT", base := 0x00150400, n := 22, rc := 0xFFFFFFFF },
  { name := "EGR_SLIP_CNT", base := 0x00150480, n := 22, rc := 0xFFFFFFFF },
  { name := "EGR_GATE_OVS_CNT", base := 0x00150500, n := 22, rc := 0xFFFFFFFF },
  { name := "EGR_HDEPTH", base := 0x00154000, n := 2816, rc := 0xFFFFFFFF },
  { name := "EGR_HDELAY", base := 0x00158000, n := 2816, rc := 0xFFFFFFFF } ]

def regs016 : List RegRow := [
  { name := "POL_FLAG", base := 0x00160000, w1c := 0xE0000000 },
  { name := "POL_BLOCK_MAP", base := 0x00161000, n := 2048 } ]

def regs017 : List RegRow := [
  { name := "ETH_STAT", base := 0x00170000, n := 14, stride := 0x400 },
  { name := "ETH_FLAG", base := 0x00170004, n := 14, stride := 0x400, w1c := 0xFE000000 },
  { name := "ETH_RX_OK", base := 0x00170040, n := 14, stride := 0x400, rc := 0xFFFFFFFF },
  { name := "ETH_RX_PCS", base := 0x00170044, n := 14, stride := 0x400, rc := 0xFFFFFFFF },
  { name := "ETH_RX_REASM", base := 0x00170048, n := 14, stride := 0x400, rc := 0xFFFFFFFF },
  { name := "ETH_RX_FCS", base := 0x0017004C, n := 14, stride := 0x400, rc := 0xFFFFFFFF },
  { name := "ETH_RX_RUNT", base := 0x00170050, n := 14, stride := 0x400, rc := 0xFFFFFFFF },
  { name := "ETH_RX_OVER", base := 0x00170054, n := 14, stride := 0x400, rc := 0xFFFFFFFF },
  { name := "ETH_RX_PAUSE", base := 0x00170058, n := 14, stride := 0x400, rc := 0xFFFFFFFF },
  { name := "ETH_RX_MACCTL", base := 0x0017005C, n := 14, stride := 0x400, rc := 0xFFFFFFFF },
  { name := "ETH_RX_FRAG", base := 0x00170060, n := 14, stride := 0x400, rc := 0xFFFFFFFF },
  { name := "ETH_TX_OK", base := 0x00170080, n := 14, stride := 0x400, rc := 0xFFFFFFFF },
  { name := "ETH_TX_OVER", base := 0x00170084, n := 14, stride := 0x400, rc := 0xFFFFFFFF },
  { name := "ETH_TX_LINKDN", base := 0x00170088, n := 14, stride := 0x400, rc := 0xFFFFFFFF },
  { name := "ETH_TX_PAUSE", base := 0x0017008C, n := 14, stride := 0x400, rc := 0xFFFFFFFF },
  { name := "ETH_TX_PREEMPT", base := 0x00170090, n := 14, stride := 0x400, rc := 0xFFFFFFFF },
  { name := "ETH_PAUSE_WD", base := 0x00170094, n := 14, stride := 0x400, rc := 0xFFFFFFFF },
  { name := "ETH_SEC_PNEXH", base := 0x00170098, n := 14, stride := 0x400, rc := 0xFFFFFFFF },
  { name := "ETH_SEC_IN_OK", base := 0x001700C0, n := 14, stride := 0x400, rc := 0xFFFFFFFF },
  { name := "ETH_SEC_IN_INVAL", base := 0x001700C4, n := 14, stride := 0x400, rc := 0xFFFFFFFF },
  { name := "ETH_SEC_IN_LATE", base := 0x001700C8, n := 14, stride := 0x400, rc := 0xFFFFFFFF },
  { name := "ETH_SEC_IN_NOTAG", base := 0x001700CC, n := 14, stride := 0x400, rc := 0xFFFFFFFF },
  { name := "ETH_SEC_IN_BADTAG", base := 0x001700D0, n := 14, stride := 0x400, rc := 0xFFFFFFFF },
  { name := "ETH_SEC_IN_NOSA", base := 0x001700D4, n := 14, stride := 0x400, rc := 0xFFFFFFFF },
  { name := "ETH_SEC_OUT_PROT", base := 0x001700D8, n := 14, stride := 0x400, rc := 0xFFFFFFFF } ]

def regs018 : List RegRow := [
  { name := "TIS_STAT", base := 0x00180000, n := 8, stride := 0x100 },
  { name := "TIS_RX_OK", base := 0x00180010, n := 8, stride := 0x100, rc := 0xFFFFFFFF },
  { name := "TIS_RX_ERR", base := 0x00180014, n := 8, stride := 0x100, rc := 0xFFFFFFFF },
  { name := "TIS_TAG_DROP_CNT", base := 0x00180018, n := 8, stride := 0x100, rc := 0xFFFFFFFF },
  { name := "TIS_TX_OK", base := 0x0018001C, n := 8, stride := 0x100, rc := 0xFFFFFFFF },
  { name := "TIS_COL_CNT", base := 0x00180020, n := 8, stride := 0x100, rc := 0xFFFFFFFF },
  { name := "TIS_EXCOL_CNT", base := 0x00180024, n := 8, stride := 0x100, rc := 0xFFFFFFFF },
  { name := "TIS_BCN_LOSS_CNT", base := 0x00180028, n := 8, stride := 0x100, rc := 0xFFFFFFFF },
  { name := "TIS_NOPORT_CNT", base := 0x00180800, rc := 0xFFFFFFFF } ]

def regs019 : List RegRow := [
  { name := "CAN_STAT", base := 0x00190000, n := 32, stride := 0x400 },
  { name := "CAN_ERR", base := 0x00190004, n := 32, stride := 0x400 },
  { name := "CAN_FLAG", base := 0x00190008, n := 32, stride := 0x400, w1c := 0xFF800000 },
  { name := "CAN_COLL_LAST", base := 0x0019000C, n := 32, stride := 0x400 },
  { name := "CAN_MB_EVT_LO", base := 0x00190010, n := 32, stride := 0x400, w1c := 0xFFFFFFFF },
  { name := "CAN_MB_EVT_HI", base := 0x00190014, n := 32, stride := 0x400, w1c := 0xFFFFFFFF },
  { name := "CAN_EP_CNT", base := 0x00190020, n := 32, stride := 0x400 },
  { name := "CAN_EP_CNTP", base := 0x00190024, n := 32, stride := 0x400 },
  { name := "CAN_EP_ST_LO", base := 0x00190028, n := 32, stride := 0x400 },
  { name := "CAN_EP_ST_HI", base := 0x0019002C, n := 32, stride := 0x400 },
  { name := "CAN_EP_STP_LO", base := 0x00190030, n := 32, stride := 0x400 },
  { name := "CAN_EP_STP_HI", base := 0x00190034, n := 32, stride := 0x400 },
  { name := "CAN_CNT_NOW", base := 0x00190038, n := 32, stride := 0x400 },
  { name := "CAN_HCTL", base := 0x0019003C, n := 32, stride := 0x400, rw := 0xC0000000, w1s := 0x20000000 },
  { name := "CAN_RX_OK", base := 0x00190040, n := 32, stride := 0x400, rc := 0xFFFFFFFF },
  { name := "CAN_TX_OK", base := 0x00190044, n := 32, stride := 0x400, rc := 0xFFFFFFFF },
  { name := "CAN_GW_TX", base := 0x00190048, n := 32, stride := 0x400, rc := 0xFFFFFFFF },
  { name := "CAN_ERRF", base := 0x0019004C, n := 32, stride := 0x400, rc := 0xFFFFFFFF },
  { name := "CAN_ARB_LOST", base := 0x00190050, n := 32, stride := 0x400, rc := 0xFFFFFFFF },
  { name := "CAN_BUSOFF_CNT", base := 0x00190054, n := 32, stride := 0x400, rc := 0xFFFFFFFF },
  { name := "CAN_GTQ_DROP", base := 0x00190058, n := 32, stride := 0x400, rc := 0xFFFFFFFF },
  { name := "CAN_OWN_DROP", base := 0x0019005C, n := 32, stride := 0x400, rc := 0xFFFFFFFF },
  { name := "CAN_AGE_DROP", base := 0x00190060, n := 32, stride := 0x400, rc := 0xFFFFFFFF },
  { name := "CAN_COLL_CNT", base := 0x00190064, n := 32, stride := 0x400, rc := 0xFFFFFFFF },
  { name := "CAN_COLL_EVT_CNT", base := 0x00190068, n := 32, stride := 0x400, rc := 0xFFFFFFFF },
  { name := "CAN_COLL_DROP", base := 0x0019006C, n := 32, stride := 0x400, rc := 0xFFFFFFFF },
  { name := "CAN_RX_NOMB", base := 0x00190070, n := 32, stride := 0x400, rc := 0xFFFFFFFF },
  { name := "CAN_MB_LOST", base := 0x00190074, n := 32, stride := 0x400, rc := 0xFFFFFFFF },
  { name := "CAN_TT_MISS", base := 0x00190078, n := 32, stride := 0x400, rc := 0xFFFFFFFF },
  { name := "CAN_SEAL_FAIL_CNT", base := 0x0019007C, n := 32, stride := 0x400, rc := 0xFFFFFFFF } ]

def regs01A : List RegRow := [
  { name := "LIN_STAT", base := 0x001A0000, n := 12, stride := 0x100 },
  { name := "LIN_FLAG", base := 0x001A0004, n := 12, stride := 0x100, w1c := 0xFF000000 },
  { name := "LIN_RX_OK", base := 0x001A0010, n := 12, stride := 0x100, rc := 0xFFFFFFFF },
  { name := "LIN_TX_OK", base := 0x001A0014, n := 12, stride := 0x100, rc := 0xFFFFFFFF },
  { name := "LIN_BIT_CNT", base := 0x001A0018, n := 12, stride := 0x100, rc := 0xFFFFFFFF },
  { name := "LIN_CHK_CNT", base := 0x001A001C, n := 12, stride := 0x100, rc := 0xFFFFFFFF },
  { name := "LIN_NORESP_CNT", base := 0x001A0020, n := 12, stride := 0x100, rc := 0xFFFFFFFF },
  { name := "LIN_FRM_CNT", base := 0x001A0024, n := 12, stride := 0x100, rc := 0xFFFFFFFF },
  { name := "LIN_SYNC_CNT", base := 0x001A0028, n := 12, stride := 0x100, rc := 0xFFFFFFFF },
  { name := "LIN_PAR_CNT", base := 0x001A002C, n := 12, stride := 0x100, rc := 0xFFFFFFFF },
  { name := "LIN_ETCOLL_CNT", base := 0x001A0030, n := 12, stride := 0x100, rc := 0xFFFFFFFF },
  { name := "LIN_LATE_CNT", base := 0x001A0034, n := 12, stride := 0x100, rc := 0xFFFFFFFF },
  { name := "LIN_NOPUB_CNT", base := 0x001A0038, n := 12, stride := 0x100, rc := 0xFFFFFFFF } ]

def regs01B : List RegRow := [
  { name := "FLX_STAT", base := 0x001B0000 },
  { name := "FLX_FLAG", base := 0x001B0004, w1c := 0xFC000000 },
  { name := "FLX_RX_OK_A", base := 0x001B0010, rc := 0xFFFFFFFF },
  { name := "FLX_RX_OK_B", base := 0x001B0014, rc := 0xFFFFFFFF },
  { name := "FLX_TX_OK", base := 0x001B0018, rc := 0xFFFFFFFF },
  { name := "FLX_SYNTAX_CNT_A", base := 0x001B001C, rc := 0xFFFFFFFF },
  { name := "FLX_SYNTAX_CNT_B", base := 0x001B0020, rc := 0xFFFFFFFF },
  { name := "FLX_NULL_TX_CNT", base := 0x001B0024, rc := 0xFFFFFFFF },
  { name := "FLX_LATE_CNT", base := 0x001B0028, rc := 0xFFFFFFFF },
  { name := "FLX_NOPUB_CNT", base := 0x001B002C, rc := 0xFFFFFFFF } ]

def regs01C : List RegRow := [
  { name := "CHN_STAT", base := 0x001C0000 },
  { name := "CHN_FLAG", base := 0x001C0004, w1c := 0xFC000000 },
  { name := "CHN_VER", base := 0x001C0008, reset := 0x1 },
  { name := "CHN_PSTAT", base := 0x001C0010, n := 2 },
  { name := "CHN_FAILOVER_CNT", base := 0x001C0020, rc := 0xFFFFFFFF },
  { name := "CHN_SC_TX", base := 0x001C0040, n := 2, stride := 0x40, rc := 0xFFFFFFFF },
  { name := "CHN_SC_RX", base := 0x001C0044, n := 2, stride := 0x40, rc := 0xFFFFFFFF },
  { name := "CHN_SC_CRC", base := 0x001C0048, n := 2, stride := 0x40, rc := 0xFFFFFFFF },
  { name := "CHN_SC_DROP", base := 0x001C004C, n := 2, stride := 0x40, rc := 0xFFFFFFFF },
  { name := "CHN_FAIL", base := 0x001C0050, n := 2, stride := 0x40, rc := 0xFFFFFFFF } ]

def regs01D : List RegRow := [
  { name := "KEY_STAT", base := 0x001D0000 },
  { name := "KEY_INFO_SEL", base := 0x001D0004, rw := 0xFFF },
  { name := "KEY_INFO", base := 0x001D0008 },
  { name := "KEY_INFO_PARENT", base := 0x001D000C },
  { name := "KEY_PRIV_DATA", base := 0x001D0100, n := 8 },
  { name := "KEY_PRIV_CTL", base := 0x001D0120 } ]

def regs01E : List RegRow := [
  { name := "PWR_STAT", base := 0x001E0000 },
  { name := "PWR_FLAG", base := 0x001E0004, w1c := 0xFFC00000 },
  { name := "PWR_COMP", base := 0x001E0008, reset := 0x1000 },
  { name := "PWR_TEMP", base := 0x001E000C },
  { name := "PWR_SAMPLE_LO", base := 0x001E0010 },
  { name := "PWR_SAMPLE_HI", base := 0x001E0014 },
  { name := "PWR_SEQ", base := 0x001E0018 },
  { name := "PWR_CH_STAT", base := 0x001E0100, n := 16, stride := 0x40, reset := 0x80000 },
  { name := "PWR_CUR", base := 0x001E0104, n := 16, stride := 0x40 },
  { name := "PWR_TJ", base := 0x001E0108, n := 16, stride := 0x40 },
  { name := "PWR_SC_CNT", base := 0x001E0110, n := 16, stride := 0x40, rc := 0xFFFFFFFF },
  { name := "PWR_TSD_CNT", base := 0x001E0114, n := 16, stride := 0x40, rc := 0xFFFFFFFF },
  { name := "PWR_I2T_CNT", base := 0x001E0118, n := 16, stride := 0x40, rc := 0xFFFFFFFF },
  { name := "PWR_OL_CNT", base := 0x001E011C, n := 16, stride := 0x40, rc := 0xFFFFFFFF },
  { name := "PWR_RESTART_CNT", base := 0x001E0120, n := 16, stride := 0x40, rc := 0xFFFFFFFF },
  { name := "PWR_LIMEV_CNT", base := 0x001E0124, n := 16, stride := 0x40, rc := 0xFFFFFFFF } ]

def regs01F : List RegRow := [
  { name := "NM_STAT", base := 0x001F0000 },
  { name := "NM_FLAG", base := 0x001F0004, w1c := 0xE0000000 },
  { name := "NM_CAN_QUIET", base := 0x001F0008 },
  { name := "NM_ETH_QUIET", base := 0x001F000C },
  { name := "NM_WAKE_IDENT", base := 0x001F0010 },
  { name := "NM_WAKE_AONT", base := 0x001F0014 },
  { name := "NM_SLEEP_CNT", base := 0x001F0020, rc := 0xFFFFFFFF },
  { name := "NM_ABORT_CNT", base := 0x001F0024, rc := 0xFFFFFFFF },
  { name := "NM_KA_RX_CNT", base := 0x001F0028, rc := 0xFFFFFFFF },
  { name := "NM_KA_TX_CNT", base := 0x001F002C, rc := 0xFFFFFFFF } ]

def regs020 : List RegRow := [
  { name := "POL_FLT_MATCH", base := 0x00200000, n := 65536, stride := 0x10, rc := 0xFFFFFFFF },
  { name := "POL_FLT_PASS", base := 0x00200004, n := 65536, stride := 0x10, rc := 0xFFFFFFFF },
  { name := "POL_FLT_SDU", base := 0x00200008, n := 65536, stride := 0x10, rc := 0xFFFFFFFF },
  { name := "POL_FLT_BLK", base := 0x0020000C, n := 65536, stride := 0x10, rc := 0xFFFFFFFF } ]

def regs030 : List RegRow := [
  { name := "POL_MTR_PASS", base := 0x00300000, n := 16384, stride := 0x8, rc := 0xFFFFFFFF },
  { name := "POL_MTR_DROP", base := 0x00300004, n := 16384, stride := 0x8, rc := 0xFFFFFFFF } ]

def regs100 : List RegRow := [
  { name := "RMT_TGT", base := 0x01000000, n := 16, stride := 0x40, rw := 0xFFF0FFF },
  { name := "RMT_ADDR", base := 0x01000004, n := 16, stride := 0x40, rw := 0xFFFFFFFF },
  { name := "RMT_WDATA", base := 0x01000008, n := 16, stride := 0x40, rw := 0xFFFFFFFF },
  { name := "RMT_CMD", base := 0x0100000C, n := 16, stride := 0x40, wo := 0xF },
  { name := "RMT_STAT", base := 0x01000010, n := 16, stride := 0x40 },
  { name := "RMT_RDATA0", base := 0x01000020, n := 16, stride := 0x40 },
  { name := "RMT_RDATA1", base := 0x01000024, n := 16, stride := 0x40 },
  { name := "RMT_RDATA2", base := 0x01000028, n := 16, stride := 0x40 },
  { name := "RMT_RDATA3", base := 0x0100002C, n := 16, stride := 0x40 },
  { name := "RMT_RDATA4", base := 0x01000030, n := 16, stride := 0x40 },
  { name := "RMT_RDATA5", base := 0x01000034, n := 16, stride := 0x40 },
  { name := "RMT_RDATA6", base := 0x01000038, n := 16, stride := 0x40 },
  { name := "RMT_RDATA7", base := 0x0100003C, n := 16, stride := 0x40 },
  { name := "RMT_FLAG", base := 0x01000800, w1c := 0xF0000000 },
  { name := "RMT_LOST_LAST", base := 0x01000804 },
  { name := "RMT_LOST_ADDR", base := 0x01000808 },
  { name := "RMT_FERR_STAT", base := 0x0100080C },
  { name := "RMT_FERR_ENT0", base := 0x01000810 },
  { name := "RMT_FERR_ENT1", base := 0x01000814 },
  { name := "RMT_FERR_ENT2", base := 0x01000818 },
  { name := "RMT_LOST_CNT", base := 0x01000820, rc := 0xFFFFFFFF },
  { name := "RMT_LATE_CNT", base := 0x01000824, rc := 0xFFFFFFFF },
  { name := "RMT_DISCARD_CNT", base := 0x01000828, rc := 0xFFFFFFFF },
  { name := "RMT_FERR_LOST", base := 0x0100082C, rc := 0xFFFFFFFF },
  { name := "RMT_SERVED_CNT", base := 0x01000830, rc := 0xFFFFFFFF } ]

/-- Word `j` of the operations of each slot: 32 words, a slot every 0x100 bytes (R490). -/
def regs101 : List RegRow :=
  (List.range 32).map (fun j => { name := "RMT_SEQBUF", base := 0x01010000 + 4 * j, n := 16, stride := 0x100, rw := 0xFFFFFFFF })

/-- The rows of one 64 KiB block of BAR0. The counters of R268 span several blocks. -/
def regRows (block : Nat) : List RegRow :=
  if block = 0x0 then regs000
  else if block = 0x1 then regs001
  else if block = 0x2 then regs002
  else if block = 0x3 then regs003
  else if block = 0x4 then regs004
  else if block = 0x6 then regs006
  else if block = 0x7 then regs007
  else if block = 0x8 then regs008
  else if block = 0xA then regs00A
  else if block = 0xF then regs00F
  else if block = 0x10 then regs010
  else if block = 0x11 then regs011
  else if block = 0x12 then regs012
  else if block = 0x13 then regs013
  else if block = 0x14 then regs014
  else if block = 0x15 then regs015
  else if block = 0x16 then regs016
  else if block = 0x17 then regs017
  else if block = 0x18 then regs018
  else if block = 0x19 then regs019
  else if block = 0x1A then regs01A
  else if block = 0x1B then regs01B
  else if block = 0x1C then regs01C
  else if block = 0x1D then regs01D
  else if block = 0x1E then regs01E
  else if block = 0x1F then regs01F
  else if 0x20 ≤ block && block ≤ 0x2F then regs020
  else if 0x30 ≤ block && block ≤ 0x31 then regs030
  else if block = 0x100 then regs100
  else if block = 0x101 then regs101
  else []

/-- The register at a BAR0 offset: its row and its number in the group. -/
def findReg (off : Nat) : Option (RegRow × Nat) :=
  ((regRows (off / 65536)).find? (fun r =>
    r.base ≤ off && (off - r.base) % r.stride = 0 && (off - r.base) / r.stride < r.n)).map
      (fun r => (r, (off - r.base) / r.stride))

/-- SYS_ID (R708). -/
def Reg.sysId : Nat := 0x00000000
/-- SYS_ISL_STAT (R21). -/
def Reg.sysIslStat : Nat := 0x00000040
/-- SYS_BADACC_ADDR (R709). -/
def Reg.sysBadaccAddr : Nat := 0x00000048
/-- SYS_BADACC_INFO (R709). -/
def Reg.sysBadaccInfo : Nat := 0x0000004C
/-- SYS_FLAG (R709). -/
def Reg.sysFlag : Nat := 0x00000050
/-- SYS_MAC_LO (R861). -/
def Reg.sysMacLo : Nat := 0x00000058
/-- SYS_MAC_HI (R861). -/
def Reg.sysMacHi : Nat := 0x0000005C
/-- SYS_DRAM_MAP (R709). -/
def Reg.sysDramMap (i : Nat) : Nat := 0x00000080 + 4 * i
/-- MSIX_ADDR_LO (R701). -/
def Reg.msixAddrLo (i : Nat) : Nat := 0x00002000 + 16 * i
/-- MSIX_ADDR_HI (R701). -/
def Reg.msixAddrHi (i : Nat) : Nat := 0x00002004 + 16 * i
/-- MSIX_DATA (R701). -/
def Reg.msixData (i : Nat) : Nat := 0x00002008 + 16 * i
/-- MSIX_CTL (R701). -/
def Reg.msixCtl (i : Nat) : Nat := 0x0000200C + 16 * i
/-- MSIX_PBA (R701). -/
def Reg.msixPba (i : Nat) : Nat := 0x00003000 + 4 * i
/-- INT_RAW (R739). -/
def Reg.intRaw (i : Nat) : Nat := 0x00010000 + 4 * i
/-- INT_EN (R739). -/
def Reg.intEn (i : Nat) : Nat := 0x00010020 + 4 * i
/-- INT_PEND (R739). -/
def Reg.intPend (i : Nat) : Nat := 0x00010040 + 4 * i
/-- INT_VACK (R739). -/
def Reg.intVack : Nat := 0x00010048
/-- INT_VEC (R739). -/
def Reg.intVec (i : Nat) : Nat := 0x00010100 + 4 * i
/-- MBX_WORD (R545). -/
def Reg.mbxWord (i : Nat) : Nat := 0x00020000 + 4 * i
/-- MBX_DB (R574). -/
def Reg.mbxDb (i : Nat) : Nat := 0x00030000 + 4 * i
/-- MBX_STATE (R575). -/
def Reg.mbxState (i : Nat) : Nat := 0x00030100 + 4 * i
/-- MBX_DONE (R576). -/
def Reg.mbxDone (i : Nat) : Nat := 0x00030110 + 4 * i
/-- MBX_IEN (R576). -/
def Reg.mbxIen (i : Nat) : Nat := 0x00030118 + 4 * i
/-- MBX_FLAG (R577). -/
def Reg.mbxFlag : Nat := 0x00030120
/-- MBX_FW_STAT (R578). -/
def Reg.mbxFwStat : Nat := 0x00030124
/-- MBX_FW_HB (R579). -/
def Reg.mbxFwHb : Nat := 0x00030128
/-- HDMA_RX_BASE_LO (R740). -/
def Reg.hdmaRxBaseLo (i : Nat) : Nat := 0x00040000 + 64 * i
/-- HDMA_RX_BASE_HI (R740). -/
def Reg.hdmaRxBaseHi (i : Nat) : Nat := 0x00040004 + 64 * i
/-- HDMA_RX_CTL (R740). -/
def Reg.hdmaRxCtl (i : Nat) : Nat := 0x00040008 + 64 * i
/-- HDMA_RX_TAIL (R740). -/
def Reg.hdmaRxTail (i : Nat) : Nat := 0x0004000C + 64 * i
/-- HDMA_RX_HEAD (R740). -/
def Reg.hdmaRxHead (i : Nat) : Nat := 0x00040010 + 64 * i
/-- HDMA_RX_SEEN (R740). -/
def Reg.hdmaRxSeen (i : Nat) : Nat := 0x00040014 + 64 * i
/-- HDMA_RX_FRM (R740). -/
def Reg.hdmaRxFrm (i : Nat) : Nat := 0x00040020 + 64 * i
/-- HDMA_RX_TRUNC (R740). -/
def Reg.hdmaRxTrunc (i : Nat) : Nat := 0x00040024 + 64 * i
/-- HDMA_RX_NOBUF (R740). -/
def Reg.hdmaRxNobuf (i : Nat) : Nat := 0x00040028 + 64 * i
/-- HDMA_TX_BASE_LO (R740). -/
def Reg.hdmaTxBaseLo (i : Nat) : Nat := 0x00041000 + 64 * i
/-- HDMA_TX_BASE_HI (R740). -/
def Reg.hdmaTxBaseHi (i : Nat) : Nat := 0x00041004 + 64 * i
/-- HDMA_TX_CTL (R740). -/
def Reg.hdmaTxCtl (i : Nat) : Nat := 0x00041008 + 64 * i
/-- HDMA_TX_TAIL (R740). -/
def Reg.hdmaTxTail (i : Nat) : Nat := 0x0004100C + 64 * i
/-- HDMA_TX_HEAD (R740). -/
def Reg.hdmaTxHead (i : Nat) : Nat := 0x00041010 + 64 * i
/-- HDMA_TX_SEEN (R740). -/
def Reg.hdmaTxSeen (i : Nat) : Nat := 0x00041014 + 64 * i
/-- HDMA_TX_FRM (R740). -/
def Reg.hdmaTxFrm (i : Nat) : Nat := 0x00041020 + 64 * i
/-- HDMA_TX_LATE (R740). -/
def Reg.hdmaTxLate (i : Nat) : Nat := 0x00041024 + 64 * i
/-- HDMA_TX_DROP (R740). -/
def Reg.hdmaTxDrop (i : Nat) : Nat := 0x00041028 + 64 * i
/-- HDMA_TX_ERR (R740). -/
def Reg.hdmaTxErr (i : Nat) : Nat := 0x0004102C + 64 * i
/-- HDMA_FLAG (R741). -/
def Reg.hdmaFlag : Nat := 0x00042000
/-- HDMA_ERR_ADDR_LO (R741). -/
def Reg.hdmaErrAddrLo : Nat := 0x00042004
/-- HDMA_ERR_ADDR_HI (R741). -/
def Reg.hdmaErrAddrHi : Nat := 0x00042008
/-- HDMA_ERR_INFO (R741). -/
def Reg.hdmaErrInfo : Nat := 0x0004200C
/-- HDMA_TSO_REJ_CNT (R741). -/
def Reg.hdmaTsoRejCnt : Nat := 0x00042010
/-- HDMA_RXMAP (R741). -/
def Reg.hdmaRxmap (i : Nat) : Nat := 0x00042040 + 4 * i
/-- TB_STAT (R438). -/
def Reg.tbStat : Nat := 0x00060000
/-- TB_DT_LO (R439). -/
def Reg.tbDtLo : Nat := 0x00060004
/-- TB_DT_HI (R439). -/
def Reg.tbDtHi : Nat := 0x00060008
/-- TB_DT_FRAC (R439). -/
def Reg.tbDtFrac : Nat := 0x0006000C
/-- TB_INCR_LO (R439). -/
def Reg.tbIncrLo : Nat := 0x00060010
/-- TB_INCR_HI (R439). -/
def Reg.tbIncrHi : Nat := 0x00060014
/-- TB_QUAL (R439). -/
def Reg.tbQual : Nat := 0x00060018
/-- TB_OFFS (R439). -/
def Reg.tbOffs : Nat := 0x0006001C
/-- TB_FLAG (R440). -/
def Reg.tbFlag : Nat := 0x00060020
/-- TB_STEP_LAST_LO (R439). -/
def Reg.tbStepLastLo : Nat := 0x00060024
/-- TB_STEP_LAST_HI (R439). -/
def Reg.tbStepLastHi : Nat := 0x00060028
/-- TB_EPOCH (R439). -/
def Reg.tbEpoch : Nat := 0x0006002C
/-- TB_DIST_ERR_CNT (R441). -/
def Reg.tbDistErrCnt : Nat := 0x00060030
/-- TB_STEP_CNT (R441). -/
def Reg.tbStepCnt : Nat := 0x00060034
/-- TB_CLAMP_CNT (R441). -/
def Reg.tbClampCnt : Nat := 0x00060038
/-- TB_SRC_LOSS_CNT (R441). -/
def Reg.tbSrcLossCnt : Nat := 0x0006003C
/-- TB_PPS_IN_LO (R439). -/
def Reg.tbPpsInLo : Nat := 0x00060040
/-- TB_PPS_IN_HI (R439). -/
def Reg.tbPpsInHi : Nat := 0x00060044
/-- TB_PPS_IN_CNT (R441). -/
def Reg.tbPpsInCnt : Nat := 0x00060048
/-- TB_STEP_LAST_FRAC (R439). -/
def Reg.tbStepLastFrac : Nat := 0x0006004C
/-- TEV_OUT_CFG (R442). -/
def Reg.tevOutCfg (i : Nat) : Nat := 0x00061000 + 64 * i
/-- TEV_OUT_START_LO (R442). -/
def Reg.tevOutStartLo (i : Nat) : Nat := 0x00061004 + 64 * i
/-- TEV_OUT_START_HI (R442). -/
def Reg.tevOutStartHi (i : Nat) : Nat := 0x00061008 + 64 * i
/-- TEV_OUT_PER_FRAC (R442). -/
def Reg.tevOutPerFrac (i : Nat) : Nat := 0x0006100C + 64 * i
/-- TEV_OUT_PER_LO (R442). -/
def Reg.tevOutPerLo (i : Nat) : Nat := 0x00061010 + 64 * i
/-- TEV_OUT_PER_HI (R442). -/
def Reg.tevOutPerHi (i : Nat) : Nat := 0x00061014 + 64 * i
/-- TEV_OUT_WIDTH (R442). -/
def Reg.tevOutWidth (i : Nat) : Nat := 0x00061018 + 64 * i
/-- TEV_OUT_COUNT (R442). -/
def Reg.tevOutCount (i : Nat) : Nat := 0x0006101C + 64 * i
/-- TEV_OUT_DONE (R442). -/
def Reg.tevOutDone (i : Nat) : Nat := 0x00061020 + 64 * i
/-- TEV_OUT_MISS (R442). -/
def Reg.tevOutMiss (i : Nat) : Nat := 0x00061024 + 64 * i
/-- TEV_OUT_NEXT_LO (R442). -/
def Reg.tevOutNextLo (i : Nat) : Nat := 0x00061028 + 64 * i
/-- TEV_OUT_NEXT_HI (R442). -/
def Reg.tevOutNextHi (i : Nat) : Nat := 0x0006102C + 64 * i
/-- TEV_IN_CFG (R443). -/
def Reg.tevInCfg (i : Nat) : Nat := 0x00062000 + 64 * i
/-- TEV_IN_STAT (R443). -/
def Reg.tevInStat (i : Nat) : Nat := 0x00062004 + 64 * i
/-- TEV_IN_LOST (R443). -/
def Reg.tevInLost (i : Nat) : Nat := 0x00062008 + 64 * i
/-- TEV_IN_FASTCNT (R443). -/
def Reg.tevInFastcnt (i : Nat) : Nat := 0x0006200C + 64 * i
/-- TEV_IN_ENT0 (R443). -/
def Reg.tevInEnt0 (i : Nat) : Nat := 0x00062010 + 64 * i
/-- TEV_IN_ENT1 (R443). -/
def Reg.tevInEnt1 (i : Nat) : Nat := 0x00062014 + 64 * i
/-- TEV_IN_ENT2 (R443). -/
def Reg.tevInEnt2 (i : Nat) : Nat := 0x00062018 + 64 * i
/-- TEV_IN_ENT3 (R443). -/
def Reg.tevInEnt3 (i : Nat) : Nat := 0x0006201C + 64 * i
/-- TSQ_STAT (R311). -/
def Reg.tsqStat (i : Nat) : Nat := 0x00070000 + 64 * i
/-- TSQ_LOST (R312). -/
def Reg.tsqLost (i : Nat) : Nat := 0x00070004 + 64 * i
/-- TSQ_ENT0 (R312). -/
def Reg.tsqEnt0 (i : Nat) : Nat := 0x00070010 + 64 * i
/-- TSQ_ENT1 (R312). -/
def Reg.tsqEnt1 (i : Nat) : Nat := 0x00070014 + 64 * i
/-- TSQ_ENT2 (R312). -/
def Reg.tsqEnt2 (i : Nat) : Nat := 0x00070018 + 64 * i
/-- TSQ_ENT3 (R312). -/
def Reg.tsqEnt3 (i : Nat) : Nat := 0x0007001C + 64 * i
/-- ARC_RSTAT (R742). -/
def Reg.arcRstat (i : Nat) : Nat := 0x00080000 + 64 * i
/-- ARC_RGEO (R742). -/
def Reg.arcRgeo (i : Nat) : Nat := 0x00080004 + 64 * i
/-- ARC_WR_LO (R742). -/
def Reg.arcWrLo (i : Nat) : Nat := 0x00080008 + 64 * i
/-- ARC_WR_HI (R742). -/
def Reg.arcWrHi (i : Nat) : Nat := 0x0008000C + 64 * i
/-- ARC_MARK_LO (R742). -/
def Reg.arcMarkLo (i : Nat) : Nat := 0x00080010 + 64 * i
/-- ARC_MARK_HI (R742). -/
def Reg.arcMarkHi (i : Nat) : Nat := 0x00080014 + 64 * i
/-- ARC_SEQ (R742). -/
def Reg.arcSeq (i : Nat) : Nat := 0x00080018 + 64 * i
/-- ARC_REC_CNT (R742). -/
def Reg.arcRecCnt (i : Nat) : Nat := 0x00080020 + 64 * i
/-- ARC_HOLD_DROP (R742). -/
def Reg.arcHoldDrop (i : Nat) : Nat := 0x00080024 + 64 * i
/-- ARC_MLOST_CNT (R742). -/
def Reg.arcMlostCnt (i : Nat) : Nat := 0x00080028 + 64 * i
/-- ARC_CAP_EN (R743). -/
def Reg.arcCapEn (i : Nat) : Nat := 0x00080100 + 4 * i
/-- ARC_FLAG (R743). -/
def Reg.arcFlag : Nat := 0x00080108
/-- ARC_PLAY_STAT (R743). -/
def Reg.arcPlayStat : Nat := 0x0008010C
/-- ARC_PLAY_CNT (R743). -/
def Reg.arcPlayCnt : Nat := 0x00080110
/-- ARC_CAP_D0 (R743). -/
def Reg.arcCapD0 (i : Nat) : Nat := 0x00081000 + 64 * i
/-- ARC_CAP_D1 (R743). -/
def Reg.arcCapD1 (i : Nat) : Nat := 0x00081004 + 64 * i
/-- ARC_CAP_D2 (R743). -/
def Reg.arcCapD2 (i : Nat) : Nat := 0x00081008 + 64 * i
/-- ARC_CAP_D3 (R743). -/
def Reg.arcCapD3 (i : Nat) : Nat := 0x0008100C + 64 * i
/-- ARC_CAP_D4 (R743). -/
def Reg.arcCapD4 (i : Nat) : Nat := 0x00081010 + 64 * i
/-- ARC_CAP_D5 (R743). -/
def Reg.arcCapD5 (i : Nat) : Nat := 0x00081014 + 64 * i
/-- ARC_CAP_D6 (R743). -/
def Reg.arcCapD6 (i : Nat) : Nat := 0x00081018 + 64 * i
/-- ARC_CAP_D7 (R743). -/
def Reg.arcCapD7 (i : Nat) : Nat := 0x0008101C + 64 * i
/-- ARC_CAP_TAG (R743). -/
def Reg.arcCapTag (i : Nat) : Nat := 0x00081020 + 64 * i
/-- ARC_CAP_STAT (R743). -/
def Reg.arcCapStat (i : Nat) : Nat := 0x00081024 + 64 * i
/-- ARC_CAP_CFG (R743). -/
def Reg.arcCapCfg (i : Nat) : Nat := 0x00081028 + 64 * i
/-- ARC_CAP_LOST (R743). -/
def Reg.arcCapLost (i : Nat) : Nat := 0x0008102C + 64 * i
/-- CRY_Q_RBASE_LO (R537). -/
def Reg.cryQRbaseLo (i : Nat) : Nat := 0x000A0000 + 128 * i
/-- CRY_Q_RBASE_HI (R537). -/
def Reg.cryQRbaseHi (i : Nat) : Nat := 0x000A0004 + 128 * i
/-- CRY_Q_CBASE_LO (R537). -/
def Reg.cryQCbaseLo (i : Nat) : Nat := 0x000A0008 + 128 * i
/-- CRY_Q_CBASE_HI (R537). -/
def Reg.cryQCbaseHi (i : Nat) : Nat := 0x000A000C + 128 * i
/-- CRY_Q_CTL (R537). -/
def Reg.cryQCtl (i : Nat) : Nat := 0x000A0010 + 128 * i
/-- CRY_Q_TAIL (R537). -/
def Reg.cryQTail (i : Nat) : Nat := 0x000A0014 + 128 * i
/-- CRY_Q_HEAD (R537). -/
def Reg.cryQHead (i : Nat) : Nat := 0x000A0018 + 128 * i
/-- CRY_Q_CTAIL (R537). -/
def Reg.cryQCtail (i : Nat) : Nat := 0x000A001C + 128 * i
/-- CRY_Q_CHEAD (R537). -/
def Reg.cryQChead (i : Nat) : Nat := 0x000A0020 + 128 * i
/-- CRY_Q_STAT (R537). -/
def Reg.cryQStat (i : Nat) : Nat := 0x000A0024 + 128 * i
/-- CRY_STAT (R538). -/
def Reg.cryStat : Nat := 0x000A0800
/-- CRY_FLAG (R539). -/
def Reg.cryFlag : Nat := 0x000A0804
/-- CRY_FAULT_CNT (R540). -/
def Reg.cryFaultCnt : Nat := 0x000A0810
/-- CRY_REV_FAIL_CNT (R540). -/
def Reg.cryRevFailCnt : Nat := 0x000A0814
/-- CRY_FRESH_FAIL_CNT (R540). -/
def Reg.cryFreshFailCnt : Nat := 0x000A0818
/-- CRY_SEAL_REV_CNT (R540). -/
def Reg.crySealRevCnt : Nat := 0x000A081C
/-- CRY_SEAL_HOLD_CNT (R540). -/
def Reg.crySealHoldCnt : Nat := 0x000A0820
/-- CRY_INLINE_REV_CNT (R540). -/
def Reg.cryInlineRevCnt : Nat := 0x000A0824
/-- CRY_CACHE_MISS_CNT (R540). -/
def Reg.cryCacheMissCnt : Nat := 0x000A0828
/-- CAN_DW_SLOT (R367). -/
def Reg.canDwSlot (i : Nat) : Nat := 0x000F0000 + 4 * i
/-- UPD_STAT (R797). -/
def Reg.updStat : Nat := 0x00100000
/-- UPD_BLOCKS (R798). -/
def Reg.updBlocks : Nat := 0x00100004
/-- UPD_EPOCH_LO (R798). -/
def Reg.updEpochLo : Nat := 0x00100008
/-- UPD_EPOCH_HI (R798). -/
def Reg.updEpochHi : Nat := 0x0010000C
/-- UPD_PREV_FW (R798). -/
def Reg.updPrevFw : Nat := 0x00100010
/-- UPD_ROM_CTL (R798). -/
def Reg.updRomCtl : Nat := 0x00100014
/-- UPD_ROM_STAT (R798). -/
def Reg.updRomStat : Nat := 0x00100018
/-- UPD_BLKFAIL_CNT (R798). -/
def Reg.updBlkfailCnt : Nat := 0x00100020
/-- UPD_RELAY_CNT (R798). -/
def Reg.updRelayCnt : Nat := 0x00100024
/-- UPD_HO_CNT (R798). -/
def Reg.updHoCnt : Nat := 0x00100028
/-- UPD_RB_CNT (R798). -/
def Reg.updRbCnt : Nat := 0x0010002C
/-- LCK_STAT (R772). -/
def Reg.lckStat : Nat := 0x00110000
/-- LCK_FENCE (R773). -/
def Reg.lckFence : Nat := 0x00110004
/-- LCK_FENCE_BANK (R773). -/
def Reg.lckFenceBank : Nat := 0x00110008
/-- LCK_FLAG (R774). -/
def Reg.lckFlag : Nat := 0x0011000C
/-- LCK_LAST (R775). -/
def Reg.lckLast : Nat := 0x00110010
/-- LCK_LAST_DETAIL (R775). -/
def Reg.lckLastDetail : Nat := 0x00110014
/-- LCK_INJ_STAT (R776). -/
def Reg.lckInjStat (i : Nat) : Nat := 0x00110020 + 4 * i
/-- LCK_MIS_CNT (R777). -/
def Reg.lckMisCnt (i : Nat) : Nat := 0x00110040 + 4 * i
/-- LCK_SKEW_CNT (R777). -/
def Reg.lckSkewCnt (i : Nat) : Nat := 0x00110048 + 4 * i
/-- LCK_TRANS_CNT (R777). -/
def Reg.lckTransCnt (i : Nat) : Nat := 0x00110084 + 4 * i
/-- LCK_LAST_CNT (R777). -/
def Reg.lckLastCnt (i : Nat) : Nat := 0x001100C4 + 4 * i
/-- LCK_FENCE_DROP (R777). -/
def Reg.lckFenceDrop : Nat := 0x00110100
/-- LCK_ITEM_DROP (R777). -/
def Reg.lckItemDrop : Nat := 0x00110104
/-- LCK_ISL_RST (R810). -/
def Reg.lckIslRst : Nat := 0x00110200
/-- LCK_RST_DROP (R812). -/
def Reg.lckRstDrop : Nat := 0x00110204
/-- FAB_STR_STAT (R81). -/
def Reg.fabStrStat : Nat := 0x00120000
/-- FAB_STR_H (R82). -/
def Reg.fabStrH : Nat := 0x00120004
/-- FAB_STR_FRONT_LO (R83). -/
def Reg.fabStrFrontLo : Nat := 0x00120008
/-- FAB_STR_FRONT_HI (R83). -/
def Reg.fabStrFrontHi : Nat := 0x0012000C
/-- FAB_STR_SEG (R84). -/
def Reg.fabStrSeg : Nat := 0x00120010
/-- FAB_STR_OVR_FLAG (R85). -/
def Reg.fabStrOvrFlag : Nat := 0x00120014
/-- FAB_STR_OVR_LAST (R86). -/
def Reg.fabStrOvrLast : Nat := 0x00120018
/-- FAB_STR_OVR_LAST_A_LO (R86). -/
def Reg.fabStrOvrLastALo : Nat := 0x0012001C
/-- FAB_STR_OVR_LAST_A_HI (R86). -/
def Reg.fabStrOvrLastAHi : Nat := 0x00120020
/-- FAB_STR_OVR_CNT (R87). -/
def Reg.fabStrOvrCnt (i : Nat) : Nat := 0x00120040 + 4 * i
/-- FAB_STR_FUT_CNT (R87). -/
def Reg.fabStrFutCnt : Nat := 0x00120098
/-- FAB_STR_PCFG (R88). -/
def Reg.fabStrPcfg (i : Nat) : Nat := 0x00120100 + 4 * i
/-- FAB_STR_XSRC_LO (R89). -/
def Reg.fabStrXsrcLo : Nat := 0x00120160
/-- FAB_STR_XSRC_HI (R89). -/
def Reg.fabStrXsrcHi : Nat := 0x00120164
/-- FAB_CAL_STAT (R124). -/
def Reg.fabCalStat : Nat := 0x00121000
/-- FAB_CAL_SHFREE (R125). -/
def Reg.fabCalShfree : Nat := 0x00121004
/-- FAB_CAL_SLACK_USED (R125). -/
def Reg.fabCalSlackUsed : Nat := 0x00121008
/-- FAB_CAL_HOLD_USED (R125). -/
def Reg.fabCalHoldUsed : Nat := 0x0012100C
/-- FAB_CAL_FLAG (R126). -/
def Reg.fabCalFlag : Nat := 0x00121010
/-- FAB_CAL_PAUSE_STAT (R127). -/
def Reg.fabCalPauseStat : Nat := 0x00121014
/-- FAB_CAL_CRC_LAST (R128). -/
def Reg.fabCalCrcLast : Nat := 0x00121018
/-- FAB_CAL_CRC_CNT (R129). -/
def Reg.fabCalCrcCnt : Nat := 0x0012101C
/-- FAB_CAL_NOCELL_CNT (R129). -/
def Reg.fabCalNocellCnt : Nat := 0x00121020
/-- FAB_Q_OCC (R130). -/
def Reg.fabQOcc (i : Nat) : Nat := 0x00121400 + 4 * i
/-- FAB_Q_DROP (R129). -/
def Reg.fabQDrop (i : Nat) : Nat := 0x00121800 + 4 * i
/-- FAB_Q_AGED (R129). -/
def Reg.fabQAged (i : Nat) : Nat := 0x00121C00 + 4 * i
/-- FAB_P_PEND (R130). -/
def Reg.fabPPend (i : Nat) : Nat := 0x00122000 + 4 * i
/-- FAB_P_IOCC (R130). -/
def Reg.fabPIocc (i : Nat) : Nat := 0x00122080 + 4 * i
/-- FAB_P_XOFF_CNT (R129). -/
def Reg.fabPXoffCnt (i : Nat) : Nat := 0x00122100 + 4 * i
/-- CAT_STAT (R187). -/
def Reg.catStat : Nat := 0x00130000
/-- CAT_FLAG (R188). -/
def Reg.catFlag : Nat := 0x00130004
/-- CAT_LAG_MAX (R189). -/
def Reg.catLagMax : Nat := 0x00130008
/-- CAT_LAG_CNT (R192). -/
def Reg.catLagCnt : Nat := 0x0013000C
/-- CAT_LAGDROP_CNT (R192). -/
def Reg.catLagdropCnt : Nat := 0x00130010
/-- CAT_VIT_LAST (R190). -/
def Reg.catVitLast : Nat := 0x00130014
/-- CAT_VIT_MIS_CNT (R192). -/
def Reg.catVitMisCnt : Nat := 0x00130018
/-- CAT_VIT_REP_CNT (R192). -/
def Reg.catVitRepCnt : Nat := 0x0013001C
/-- CAT_ECC_CNT (R192). -/
def Reg.catEccCnt : Nat := 0x00130020
/-- CAT_PART_BASE (R191). -/
def Reg.catPartBase (i : Nat) : Nat := 0x00130100 + 4 * i
/-- CAT_PART_CFG (R191). -/
def Reg.catPartCfg (i : Nat) : Nat := 0x00130140 + 4 * i
/-- CAT_PART_USED (R191). -/
def Reg.catPartUsed (i : Nat) : Nat := 0x00130180 + 4 * i
/-- CAT_HIT_CNT (R192). -/
def Reg.catHitCnt (i : Nat) : Nat := 0x00130200 + 4 * i
/-- CAT_MISS_CNT (R192). -/
def Reg.catMissCnt (i : Nat) : Nat := 0x00130240 + 4 * i
/-- CAT_ACC_CNT (R192). -/
def Reg.catAccCnt (i : Nat) : Nat := 0x00130280 + 4 * i
/-- CAT_MOVE_CNT (R192). -/
def Reg.catMoveCnt (i : Nat) : Nat := 0x001302C0 + 4 * i
/-- CAT_DEACC_CNT (R192). -/
def Reg.catDeaccCnt (i : Nat) : Nat := 0x00130300 + 4 * i
/-- CAT_AGED_CNT (R192). -/
def Reg.catAgedCnt (i : Nat) : Nat := 0x00130340 + 4 * i
/-- CAT_FULL_CNT (R192). -/
def Reg.catFullCnt (i : Nat) : Nat := 0x00130380 + 4 * i
/-- CAT_CAP_CNT (R192). -/
def Reg.catCapCnt (i : Nat) : Nat := 0x00130400 + 4 * i
/-- CAT_PORT_LRN (R192). -/
def Reg.catPortLrn (i : Nat) : Nat := 0x00130480 + 4 * i
/-- SIG_STAT (R226). -/
def Reg.sigStat : Nat := 0x00140000
/-- SIG_FLAG (R227). -/
def Reg.sigFlag : Nat := 0x00140004
/-- SIG_ALT_MAP_LO (R228). -/
def Reg.sigAltMapLo : Nat := 0x00140008
/-- SIG_ALT_MAP_HI (R228). -/
def Reg.sigAltMapHi : Nat := 0x0014000C
/-- SIG_RT_CNT (R229). -/
def Reg.sigRtCnt : Nat := 0x00140010
/-- SIG_SHORT_CNT (R229). -/
def Reg.sigShortCnt : Nat := 0x00140014
/-- SIG_SAT_CNT (R229). -/
def Reg.sigSatCnt : Nat := 0x00140018
/-- SIG_TMO_CNT (R229). -/
def Reg.sigTmoCnt : Nat := 0x0014001C
/-- SIG_PDU_TX_CNT (R229). -/
def Reg.sigPduTxCnt : Nat := 0x00140020
/-- SIG_PDU_COAL_CNT (R229). -/
def Reg.sigPduCoalCnt : Nat := 0x00140024
/-- SIG_TUN_TX_CNT (R229). -/
def Reg.sigTunTxCnt : Nat := 0x00140028
/-- SIG_TUN_RX_CNT (R229). -/
def Reg.sigTunRxCnt : Nat := 0x0014002C
/-- SIG_TUN_SEQ_CNT (R229). -/
def Reg.sigTunSeqCnt : Nat := 0x00140030
/-- SIG_TUN_DROP_CNT (R229). -/
def Reg.sigTunDropCnt : Nat := 0x00140034
/-- SIG_ALT_CNT (R229). -/
def Reg.sigAltCnt : Nat := 0x00140038
/-- SIG_TMO_MAP (R229). -/
def Reg.sigTmoMap (i : Nat) : Nat := 0x00140400 + 4 * i
/-- EGR_FLAG (R263). -/
def Reg.egrFlag : Nat := 0x00150000
/-- EGR_LATE_LAST (R264). -/
def Reg.egrLateLast : Nat := 0x00150004
/-- EGR_LATE_LAST_DLY (R264). -/
def Reg.egrLateLastDly : Nat := 0x00150008
/-- EGR_PSTAT (R265). -/
def Reg.egrPstat (i : Nat) : Nat := 0x00150100 + 4 * i
/-- EGR_SEL_CNT (R266). -/
def Reg.egrSelCnt (i : Nat) : Nat := 0x00150200 + 4 * i
/-- EGR_CR_TX_CNT (R266). -/
def Reg.egrCrTxCnt (i : Nat) : Nat := 0x00150280 + 4 * i
/-- EGR_CR_LATE_CNT (R266). -/
def Reg.egrCrLateCnt (i : Nat) : Nat := 0x00150300 + 4 * i
/-- EGR_CR_LDROP_CNT (R266). -/
def Reg.egrCrLdropCnt (i : Nat) : Nat := 0x00150380 + 4 * i
/-- EGR_CR_PMISS_CNT (R266). -/
def Reg.egrCrPmissCnt (i : Nat) : Nat := 0x00150400 + 4 * i
/-- EGR_SLIP_CNT (R266). -/
def Reg.egrSlipCnt (i : Nat) : Nat := 0x00150480 + 4 * i
/-- EGR_GATE_OVS_CNT (R266). -/
def Reg.egrGateOvsCnt (i : Nat) : Nat := 0x00150500 + 4 * i
/-- EGR_HDEPTH (R266). -/
def Reg.egrHdepth (i : Nat) : Nat := 0x00154000 + 4 * i
/-- EGR_HDELAY (R266). -/
def Reg.egrHdelay (i : Nat) : Nat := 0x00158000 + 4 * i
/-- POL_FLAG (R267). -/
def Reg.polFlag : Nat := 0x00160000
/-- POL_BLOCK_MAP (R268). -/
def Reg.polBlockMap (i : Nat) : Nat := 0x00161000 + 4 * i
/-- POL_FLT_MATCH (R268). -/
def Reg.polFltMatch (i : Nat) : Nat := 0x00200000 + 16 * i
/-- POL_FLT_PASS (R268). -/
def Reg.polFltPass (i : Nat) : Nat := 0x00200004 + 16 * i
/-- POL_FLT_SDU (R268). -/
def Reg.polFltSdu (i : Nat) : Nat := 0x00200008 + 16 * i
/-- POL_FLT_BLK (R268). -/
def Reg.polFltBlk (i : Nat) : Nat := 0x0020000C + 16 * i
/-- POL_MTR_PASS (R268). -/
def Reg.polMtrPass (i : Nat) : Nat := 0x00300000 + 8 * i
/-- POL_MTR_DROP (R268). -/
def Reg.polMtrDrop (i : Nat) : Nat := 0x00300004 + 8 * i
/-- ETH_STAT (R313). -/
def Reg.ethStat (i : Nat) : Nat := 0x00170000 + 1024 * i
/-- ETH_FLAG (R314). -/
def Reg.ethFlag (i : Nat) : Nat := 0x00170004 + 1024 * i
/-- ETH_RX_OK (R315). -/
def Reg.ethRxOk (i : Nat) : Nat := 0x00170040 + 1024 * i
/-- ETH_RX_PCS (R315). -/
def Reg.ethRxPcs (i : Nat) : Nat := 0x00170044 + 1024 * i
/-- ETH_RX_REASM (R315). -/
def Reg.ethRxReasm (i : Nat) : Nat := 0x00170048 + 1024 * i
/-- ETH_RX_FCS (R315). -/
def Reg.ethRxFcs (i : Nat) : Nat := 0x0017004C + 1024 * i
/-- ETH_RX_RUNT (R315). -/
def Reg.ethRxRunt (i : Nat) : Nat := 0x00170050 + 1024 * i
/-- ETH_RX_OVER (R315). -/
def Reg.ethRxOver (i : Nat) : Nat := 0x00170054 + 1024 * i
/-- ETH_RX_PAUSE (R315). -/
def Reg.ethRxPause (i : Nat) : Nat := 0x00170058 + 1024 * i
/-- ETH_RX_MACCTL (R315). -/
def Reg.ethRxMacctl (i : Nat) : Nat := 0x0017005C + 1024 * i
/-- ETH_RX_FRAG (R315). -/
def Reg.ethRxFrag (i : Nat) : Nat := 0x00170060 + 1024 * i
/-- ETH_TX_OK (R315). -/
def Reg.ethTxOk (i : Nat) : Nat := 0x00170080 + 1024 * i
/-- ETH_TX_OVER (R315). -/
def Reg.ethTxOver (i : Nat) : Nat := 0x00170084 + 1024 * i
/-- ETH_TX_LINKDN (R315). -/
def Reg.ethTxLinkdn (i : Nat) : Nat := 0x00170088 + 1024 * i
/-- ETH_TX_PAUSE (R315). -/
def Reg.ethTxPause (i : Nat) : Nat := 0x0017008C + 1024 * i
/-- ETH_TX_PREEMPT (R315). -/
def Reg.ethTxPreempt (i : Nat) : Nat := 0x00170090 + 1024 * i
/-- ETH_PAUSE_WD (R315). -/
def Reg.ethPauseWd (i : Nat) : Nat := 0x00170094 + 1024 * i
/-- ETH_SEC_PNEXH (R315). -/
def Reg.ethSecPnexh (i : Nat) : Nat := 0x00170098 + 1024 * i
/-- ETH_SEC_IN_OK (R315). -/
def Reg.ethSecInOk (i : Nat) : Nat := 0x001700C0 + 1024 * i
/-- ETH_SEC_IN_INVAL (R315). -/
def Reg.ethSecInInval (i : Nat) : Nat := 0x001700C4 + 1024 * i
/-- ETH_SEC_IN_LATE (R315). -/
def Reg.ethSecInLate (i : Nat) : Nat := 0x001700C8 + 1024 * i
/-- ETH_SEC_IN_NOTAG (R315). -/
def Reg.ethSecInNotag (i : Nat) : Nat := 0x001700CC + 1024 * i
/-- ETH_SEC_IN_BADTAG (R315). -/
def Reg.ethSecInBadtag (i : Nat) : Nat := 0x001700D0 + 1024 * i
/-- ETH_SEC_IN_NOSA (R315). -/
def Reg.ethSecInNosa (i : Nat) : Nat := 0x001700D4 + 1024 * i
/-- ETH_SEC_OUT_PROT (R315). -/
def Reg.ethSecOutProt (i : Nat) : Nat := 0x001700D8 + 1024 * i
/-- TIS_STAT (R316). -/
def Reg.tisStat (i : Nat) : Nat := 0x00180000 + 256 * i
/-- TIS_RX_OK (R316). -/
def Reg.tisRxOk (i : Nat) : Nat := 0x00180010 + 256 * i
/-- TIS_RX_ERR (R316). -/
def Reg.tisRxErr (i : Nat) : Nat := 0x00180014 + 256 * i
/-- TIS_TAG_DROP_CNT (R316). -/
def Reg.tisTagDropCnt (i : Nat) : Nat := 0x00180018 + 256 * i
/-- TIS_TX_OK (R316). -/
def Reg.tisTxOk (i : Nat) : Nat := 0x0018001C + 256 * i
/-- TIS_COL_CNT (R316). -/
def Reg.tisColCnt (i : Nat) : Nat := 0x00180020 + 256 * i
/-- TIS_EXCOL_CNT (R316). -/
def Reg.tisExcolCnt (i : Nat) : Nat := 0x00180024 + 256 * i
/-- TIS_BCN_LOSS_CNT (R316). -/
def Reg.tisBcnLossCnt (i : Nat) : Nat := 0x00180028 + 256 * i
/-- TIS_NOPORT_CNT (R316). -/
def Reg.tisNoportCnt : Nat := 0x00180800
/-- CAN_STAT (R364). -/
def Reg.canStat (i : Nat) : Nat := 0x00190000 + 1024 * i
/-- CAN_ERR (R365). -/
def Reg.canErr (i : Nat) : Nat := 0x00190004 + 1024 * i
/-- CAN_FLAG (R365). -/
def Reg.canFlag (i : Nat) : Nat := 0x00190008 + 1024 * i
/-- CAN_COLL_LAST (R365). -/
def Reg.canCollLast (i : Nat) : Nat := 0x0019000C + 1024 * i
/-- CAN_MB_EVT_LO (R365). -/
def Reg.canMbEvtLo (i : Nat) : Nat := 0x00190010 + 1024 * i
/-- CAN_MB_EVT_HI (R365). -/
def Reg.canMbEvtHi (i : Nat) : Nat := 0x00190014 + 1024 * i
/-- CAN_EP_CNT (R365). -/
def Reg.canEpCnt (i : Nat) : Nat := 0x00190020 + 1024 * i
/-- CAN_EP_CNTP (R365). -/
def Reg.canEpCntp (i : Nat) : Nat := 0x00190024 + 1024 * i
/-- CAN_EP_ST_LO (R365). -/
def Reg.canEpStLo (i : Nat) : Nat := 0x00190028 + 1024 * i
/-- CAN_EP_ST_HI (R365). -/
def Reg.canEpStHi (i : Nat) : Nat := 0x0019002C + 1024 * i
/-- CAN_EP_STP_LO (R365). -/
def Reg.canEpStpLo (i : Nat) : Nat := 0x00190030 + 1024 * i
/-- CAN_EP_STP_HI (R365). -/
def Reg.canEpStpHi (i : Nat) : Nat := 0x00190034 + 1024 * i
/-- CAN_CNT_NOW (R365). -/
def Reg.canCntNow (i : Nat) : Nat := 0x00190038 + 1024 * i
/-- CAN_HCTL (R365). -/
def Reg.canHctl (i : Nat) : Nat := 0x0019003C + 1024 * i
/-- CAN_RX_OK (R366). -/
def Reg.canRxOk (i : Nat) : Nat := 0x00190040 + 1024 * i
/-- CAN_TX_OK (R366). -/
def Reg.canTxOk (i : Nat) : Nat := 0x00190044 + 1024 * i
/-- CAN_GW_TX (R366). -/
def Reg.canGwTx (i : Nat) : Nat := 0x00190048 + 1024 * i
/-- CAN_ERRF (R366). -/
def Reg.canErrf (i : Nat) : Nat := 0x0019004C + 1024 * i
/-- CAN_ARB_LOST (R366). -/
def Reg.canArbLost (i : Nat) : Nat := 0x00190050 + 1024 * i
/-- CAN_BUSOFF_CNT (R366). -/
def Reg.canBusoffCnt (i : Nat) : Nat := 0x00190054 + 1024 * i
/-- CAN_GTQ_DROP (R366). -/
def Reg.canGtqDrop (i : Nat) : Nat := 0x00190058 + 1024 * i
/-- CAN_OWN_DROP (R366). -/
def Reg.canOwnDrop (i : Nat) : Nat := 0x0019005C + 1024 * i
/-- CAN_AGE_DROP (R366). -/
def Reg.canAgeDrop (i : Nat) : Nat := 0x00190060 + 1024 * i
/-- CAN_COLL_CNT (R366). -/
def Reg.canCollCnt (i : Nat) : Nat := 0x00190064 + 1024 * i
/-- CAN_COLL_EVT_CNT (R366). -/
def Reg.canCollEvtCnt (i : Nat) : Nat := 0x00190068 + 1024 * i
/-- CAN_COLL_DROP (R366). -/
def Reg.canCollDrop (i : Nat) : Nat := 0x0019006C + 1024 * i
/-- CAN_RX_NOMB (R366). -/
def Reg.canRxNomb (i : Nat) : Nat := 0x00190070 + 1024 * i
/-- CAN_MB_LOST (R366). -/
def Reg.canMbLost (i : Nat) : Nat := 0x00190074 + 1024 * i
/-- CAN_TT_MISS (R366). -/
def Reg.canTtMiss (i : Nat) : Nat := 0x00190078 + 1024 * i
/-- CAN_SEAL_FAIL_CNT (R366). -/
def Reg.canSealFailCnt (i : Nat) : Nat := 0x0019007C + 1024 * i
/-- LIN_STAT (R388). -/
def Reg.linStat (i : Nat) : Nat := 0x001A0000 + 256 * i
/-- LIN_FLAG (R389). -/
def Reg.linFlag (i : Nat) : Nat := 0x001A0004 + 256 * i
/-- LIN_RX_OK (R390). -/
def Reg.linRxOk (i : Nat) : Nat := 0x001A0010 + 256 * i
/-- LIN_TX_OK (R390). -/
def Reg.linTxOk (i : Nat) : Nat := 0x001A0014 + 256 * i
/-- LIN_BIT_CNT (R390). -/
def Reg.linBitCnt (i : Nat) : Nat := 0x001A0018 + 256 * i
/-- LIN_CHK_CNT (R390). -/
def Reg.linChkCnt (i : Nat) : Nat := 0x001A001C + 256 * i
/-- LIN_NORESP_CNT (R390). -/
def Reg.linNorespCnt (i : Nat) : Nat := 0x001A0020 + 256 * i
/-- LIN_FRM_CNT (R390). -/
def Reg.linFrmCnt (i : Nat) : Nat := 0x001A0024 + 256 * i
/-- LIN_SYNC_CNT (R390). -/
def Reg.linSyncCnt (i : Nat) : Nat := 0x001A0028 + 256 * i
/-- LIN_PAR_CNT (R390). -/
def Reg.linParCnt (i : Nat) : Nat := 0x001A002C + 256 * i
/-- LIN_ETCOLL_CNT (R390). -/
def Reg.linEtcollCnt (i : Nat) : Nat := 0x001A0030 + 256 * i
/-- LIN_LATE_CNT (R390). -/
def Reg.linLateCnt (i : Nat) : Nat := 0x001A0034 + 256 * i
/-- LIN_NOPUB_CNT (R390). -/
def Reg.linNopubCnt (i : Nat) : Nat := 0x001A0038 + 256 * i
/-- FLX_STAT (R391). -/
def Reg.flxStat : Nat := 0x001B0000
/-- FLX_FLAG (R392). -/
def Reg.flxFlag : Nat := 0x001B0004
/-- FLX_RX_OK_A (R392). -/
def Reg.flxRxOkA : Nat := 0x001B0010
/-- FLX_RX_OK_B (R392). -/
def Reg.flxRxOkB : Nat := 0x001B0014
/-- FLX_TX_OK (R392). -/
def Reg.flxTxOk : Nat := 0x001B0018
/-- FLX_SYNTAX_CNT_A (R392). -/
def Reg.flxSyntaxCntA : Nat := 0x001B001C
/-- FLX_SYNTAX_CNT_B (R392). -/
def Reg.flxSyntaxCntB : Nat := 0x001B0020
/-- FLX_NULL_TX_CNT (R392). -/
def Reg.flxNullTxCnt : Nat := 0x001B0024
/-- FLX_LATE_CNT (R392). -/
def Reg.flxLateCnt : Nat := 0x001B0028
/-- FLX_NOPUB_CNT (R392). -/
def Reg.flxNopubCnt : Nat := 0x001B002C
/-- CHN_STAT (R485). -/
def Reg.chnStat : Nat := 0x001C0000
/-- CHN_FLAG (R486). -/
def Reg.chnFlag : Nat := 0x001C0004
/-- CHN_VER (R486). -/
def Reg.chnVer : Nat := 0x001C0008
/-- CHN_PSTAT (R487). -/
def Reg.chnPstat (i : Nat) : Nat := 0x001C0010 + 4 * i
/-- CHN_FAILOVER_CNT (R488). -/
def Reg.chnFailoverCnt : Nat := 0x001C0020
/-- CHN_SC_TX (R488). -/
def Reg.chnScTx (i : Nat) : Nat := 0x001C0040 + 64 * i
/-- CHN_SC_RX (R488). -/
def Reg.chnScRx (i : Nat) : Nat := 0x001C0044 + 64 * i
/-- CHN_SC_CRC (R488). -/
def Reg.chnScCrc (i : Nat) : Nat := 0x001C0048 + 64 * i
/-- CHN_SC_DROP (R488). -/
def Reg.chnScDrop (i : Nat) : Nat := 0x001C004C + 64 * i
/-- CHN_FAIL (R488). -/
def Reg.chnFail (i : Nat) : Nat := 0x001C0050 + 64 * i
/-- KEY_STAT (R541). -/
def Reg.keyStat : Nat := 0x001D0000
/-- KEY_INFO_SEL (R542). -/
def Reg.keyInfoSel : Nat := 0x001D0004
/-- KEY_INFO (R542). -/
def Reg.keyInfo : Nat := 0x001D0008
/-- KEY_INFO_PARENT (R542). -/
def Reg.keyInfoParent : Nat := 0x001D000C
/-- KEY_PRIV_DATA (R543). -/
def Reg.keyPrivData (i : Nat) : Nat := 0x001D0100 + 4 * i
/-- KEY_PRIV_CTL (R543). -/
def Reg.keyPrivCtl : Nat := 0x001D0120
/-- PWR_STAT (R674). -/
def Reg.pwrStat : Nat := 0x001E0000
/-- PWR_FLAG (R675). -/
def Reg.pwrFlag : Nat := 0x001E0004
/-- PWR_COMP (R676). -/
def Reg.pwrComp : Nat := 0x001E0008
/-- PWR_TEMP (R676). -/
def Reg.pwrTemp : Nat := 0x001E000C
/-- PWR_SAMPLE_LO (R676). -/
def Reg.pwrSampleLo : Nat := 0x001E0010
/-- PWR_SAMPLE_HI (R676). -/
def Reg.pwrSampleHi : Nat := 0x001E0014
/-- PWR_SEQ (R676). -/
def Reg.pwrSeq : Nat := 0x001E0018
/-- PWR_CH_STAT (R677). -/
def Reg.pwrChStat (i : Nat) : Nat := 0x001E0100 + 64 * i
/-- PWR_CUR (R678). -/
def Reg.pwrCur (i : Nat) : Nat := 0x001E0104 + 64 * i
/-- PWR_TJ (R678). -/
def Reg.pwrTj (i : Nat) : Nat := 0x001E0108 + 64 * i
/-- PWR_SC_CNT (R678). -/
def Reg.pwrScCnt (i : Nat) : Nat := 0x001E0110 + 64 * i
/-- PWR_TSD_CNT (R678). -/
def Reg.pwrTsdCnt (i : Nat) : Nat := 0x001E0114 + 64 * i
/-- PWR_I2T_CNT (R678). -/
def Reg.pwrI2tCnt (i : Nat) : Nat := 0x001E0118 + 64 * i
/-- PWR_OL_CNT (R678). -/
def Reg.pwrOlCnt (i : Nat) : Nat := 0x001E011C + 64 * i
/-- PWR_RESTART_CNT (R678). -/
def Reg.pwrRestartCnt (i : Nat) : Nat := 0x001E0120 + 64 * i
/-- PWR_LIMEV_CNT (R678). -/
def Reg.pwrLimevCnt (i : Nat) : Nat := 0x001E0124 + 64 * i
/-- NM_STAT (R697). -/
def Reg.nmStat : Nat := 0x001F0000
/-- NM_FLAG (R698). -/
def Reg.nmFlag : Nat := 0x001F0004
/-- NM_CAN_QUIET (R699). -/
def Reg.nmCanQuiet : Nat := 0x001F0008
/-- NM_ETH_QUIET (R699). -/
def Reg.nmEthQuiet : Nat := 0x001F000C
/-- NM_WAKE_IDENT (R699). -/
def Reg.nmWakeIdent : Nat := 0x001F0010
/-- NM_WAKE_AONT (R699). -/
def Reg.nmWakeAont : Nat := 0x001F0014
/-- NM_SLEEP_CNT (R699). -/
def Reg.nmSleepCnt : Nat := 0x001F0020
/-- NM_ABORT_CNT (R699). -/
def Reg.nmAbortCnt : Nat := 0x001F0024
/-- NM_KA_RX_CNT (R699). -/
def Reg.nmKaRxCnt : Nat := 0x001F0028
/-- NM_KA_TX_CNT (R699). -/
def Reg.nmKaTxCnt : Nat := 0x001F002C
/-- RMT_TGT (R489). -/
def Reg.rmtTgt (i : Nat) : Nat := 0x01000000 + 64 * i
/-- RMT_ADDR (R489). -/
def Reg.rmtAddr (i : Nat) : Nat := 0x01000004 + 64 * i
/-- RMT_WDATA (R489). -/
def Reg.rmtWdata (i : Nat) : Nat := 0x01000008 + 64 * i
/-- RMT_CMD (R489). -/
def Reg.rmtCmd (i : Nat) : Nat := 0x0100000C + 64 * i
/-- RMT_STAT (R489). -/
def Reg.rmtStat (i : Nat) : Nat := 0x01000010 + 64 * i
/-- RMT_RDATA0 (R489). -/
def Reg.rmtRdata0 (i : Nat) : Nat := 0x01000020 + 64 * i
/-- RMT_RDATA1 (R489). -/
def Reg.rmtRdata1 (i : Nat) : Nat := 0x01000024 + 64 * i
/-- RMT_RDATA2 (R489). -/
def Reg.rmtRdata2 (i : Nat) : Nat := 0x01000028 + 64 * i
/-- RMT_RDATA3 (R489). -/
def Reg.rmtRdata3 (i : Nat) : Nat := 0x0100002C + 64 * i
/-- RMT_RDATA4 (R489). -/
def Reg.rmtRdata4 (i : Nat) : Nat := 0x01000030 + 64 * i
/-- RMT_RDATA5 (R489). -/
def Reg.rmtRdata5 (i : Nat) : Nat := 0x01000034 + 64 * i
/-- RMT_RDATA6 (R489). -/
def Reg.rmtRdata6 (i : Nat) : Nat := 0x01000038 + 64 * i
/-- RMT_RDATA7 (R489). -/
def Reg.rmtRdata7 (i : Nat) : Nat := 0x0100003C + 64 * i
/-- RMT_FLAG (R491). -/
def Reg.rmtFlag : Nat := 0x01000800
/-- RMT_LOST_LAST (R491). -/
def Reg.rmtLostLast : Nat := 0x01000804
/-- RMT_LOST_ADDR (R491). -/
def Reg.rmtLostAddr : Nat := 0x01000808
/-- RMT_FERR_STAT (R491). -/
def Reg.rmtFerrStat : Nat := 0x0100080C
/-- RMT_FERR_ENT0 (R491). -/
def Reg.rmtFerrEnt0 : Nat := 0x01000810
/-- RMT_FERR_ENT1 (R491). -/
def Reg.rmtFerrEnt1 : Nat := 0x01000814
/-- RMT_FERR_ENT2 (R491). -/
def Reg.rmtFerrEnt2 : Nat := 0x01000818
/-- RMT_LOST_CNT (R491). -/
def Reg.rmtLostCnt : Nat := 0x01000820
/-- RMT_LATE_CNT (R491). -/
def Reg.rmtLateCnt : Nat := 0x01000824
/-- RMT_DISCARD_CNT (R491). -/
def Reg.rmtDiscardCnt : Nat := 0x01000828
/-- RMT_FERR_LOST (R491). -/
def Reg.rmtFerrLost : Nat := 0x0100082C
/-- RMT_SERVED_CNT (R491). -/
def Reg.rmtServedCnt : Nat := 0x01000830
/-- RMT_SEQBUF (R490). -/
def Reg.rmtSeqbuf (i : Nat) : Nat := 0x01010000 + 4 * i

end Sys2Proof.Machine
end

