-- ==== Sys2Proof/Machine/State.lean ====
section
/-! DEFINITION. The state of the Z96 as plain data: every register, queue, counter, table and mode the spec gives the
module (INVENTORY.md lists them with their rules), what has left the module, and the queue of waiting commands. -/

namespace Sys2Proof.Machine

/-! ### What crosses the module's boundary, the firmware's log, and the stop reasons -/

/-- What the module puts out. The list of these in the state is the model's own record: the last entry is the newest.
Host memory, the wires, the die link and the pins lie outside the module. [Log 4: DESIGN CHOICE] -/
inductive Out
  | readData (offset : Nat) (value : W32)
  | ethFrame (port : Nat) (start : Stamp) (bytes : List Byte)
  | ethControl (port : Nat) (bytes : List Byte)
  | tisFrame (port : Nat) (bytes : List Byte)
  | beacon (port : Nat)
  | canFrame (controller : Nat) (frame : BusFrame) (modeSwitch : Bool)
  | canErrorFrame (controller : Nat) (passive : Bool)
  | linHeader (controller : Nat) (pid : Nat)
  | linResponse (controller : Nat) (ident : Nat) (data : List Byte) (check : Nat)
  | flxFrame (channels slot cycle : Nat) (nullFrame sync startup : Bool) (data : List Byte)
  | flxWakeup (channel : Nat)
  | msix (vector addr data : Nat)
  | miso (bytes : List Byte)
  | side (port : Nat) (msg : SideMsg)
  | sideBlock (port : Nat) (chunk : List Byte)
  | dieLink (kind : Nat) (words : List Nat)
  | hostWrite (addr : Nat) (bytes : List Byte)
  | pin (name : String) (index : Nat) (level : Bool) (at' : Stamp)
  | wakePattern (kind index : Nat)
  | mdio (port reg value : Nat)
  | anRestart (port : Nat)
deriving DecidableEq, Repr

/-- One line of the firmware's log: what, when, and the numbers that go with it. [Log 4: DESIGN CHOICE] -/
structure LogLine where
  what : String
  at' : Stamp
  args : List Int := []
deriving DecidableEq, Repr

/-- Reasons for which the machine stops. No command of this block stops it: the spec decides every case (R15), and
what it calls undefined is carried as a free value. -/
inductive Fault
  /-- Nobody raises it. It stands for a stop of the whole block, which the spec does not know. Safe. -/
  | halted
deriving DecidableEq, Repr

/-- Reasons for which the model gives no meaning. -/
inductive Refusal
  /-- Raised only by an arm of the dispatch that has no meaning yet. Safe: nothing is claimed of such a command. -/
  | notModelled (mnemonic : String)
deriving DecidableEq, Repr

/-! ### Firmware and mailboxes (chapter 13) -/

/-- The firmware states of R561. -/
inductive FwState | boot | config | run | degraded | sleepPrep | sleep | handover
deriving DecidableEq, Repr

/-- The three states of a mailbox (R549). -/
inductive MbxState | idle | busy | done
deriving DecidableEq, Repr

/-- The record of the last request executed from a mailbox (R554). -/
structure MbxRecord where
  code : Nat
  seq : Nat
  status : Nat
  apply : Stamp
deriving DecidableEq, Repr

/-- A mailbox: its state, whether the firmware has taken the request up and passed it (R559), and the last record. -/
structure Mbx where
  st : MbxState := .idle
  taken : Bool := false
  last : Option MbxRecord := none
deriving DecidableEq, Repr

/-- The firmware: its state, the state to return to from SLEEP_PREP or HANDOVER, the configuration in force, the
tick at which it started (R579), the SYS_RUN mailbox that waits for START (R585), and whether it has applied a configuration
since the reset. -/
structure Firmware where
  state : FwState := .boot
  back : FwState := .run
  cfgDefaults : Bool := false
  cfgCopy : Nat := 0
  startTick : Nat := 0
  running : Bool := false
  runMbx : Option Nat := none
  resetAt : Option Nat := none
  presence : Bool := false
  applied : Bool := false
deriving DecidableEq, Repr

/-! ### Frames, ordering and buffering (chapters 2 and 3) -/

/-- What a frame carries: an Ethernet-format frame from destination address to the last byte of the FCS (R91), or a bus
frame in internal form (R194). -/
inductive Body
  | eth (bytes : List Byte)
  | bus (b : BusFrame)
deriving DecidableEq, Repr

/-- What the order key of a re-injected frame needs of its parent (R63): the parent's order stamp with its segment, and
the parent's fabric port followed by the parent's sequence. -/
structure Parent where
  o : Stamp
  seg : Nat
  seq : List Nat
deriving DecidableEq, Repr

/-- A frame on its way through the module. `ingSeg` is the segment of the ingress stamp (R859); `dpcp` the default
PCP of R858; `named` the port set and class the firmware names (R863); `mirror` the mirror session of a copy for F21
(R160); `tsTag` the host's TX timestamp request (R305); `ring` the host ring it came from; `fv` the freshness value
and key slot of a sealed frame (R528); `fwTag` the firmware's own stamp request (R410); `seq`, `o` and `oSeg` the sequence,
order stamp and segment of its order key once it is released; `fid` the stored frame in Caldera that holds its cells, 0
for none. -/
structure Frame where
  fport : Nat := 0
  sub : Nat := 0
  body : Body := .eth []
  ing : Stamp := 0
  ingSeg : Nat := 0
  adm : Stamp := 0
  seg : Nat := 0
  dpcp : Nat := 0
  named : Option (Nat × Nat) := none
  mirror : Option Nat := none
  tsTag : Option Nat := none
  ring : Option Nat := none
  parent : Option Parent := none
  fv : Option (Nat × Nat) := none
  fwTag : Option Nat := none
  seq : List Nat := []
  o : Stamp := 0
  oSeg : Nat := 0
  fid : Nat := 0
deriving DecidableEq, Repr

/-- The order key of R42: segment, order stamp, fabric port and sequence. The sequence is the sub-source index and
the count of R45; for a re-injected frame it is the parent's port followed by the parent's sequence (R63). -/
structure OrderKey where
  seg : Nat
  o : Stamp
  port : Nat
  seq : List Nat
deriving DecidableEq, Repr

/-- A pending frame record of Strata (R55). `first` marks an old-segment frame that is carried over the close of its
segment and goes ahead of every new-segment frame (R76). -/
structure Pend where
  frame : Frame
  key : OrderKey
  first : Bool := false
  overrun : Bool := false
  express : Bool := false
deriving DecidableEq, Repr

/-- A change that the firmware itself originates (R58). -/
inductive FwChange
  | altFlag (bus : Nat) (val : Bool)
  | ringFailover
  | ringRestore
  | mkaInstall (port : Nat) (rx : Bool) (an : Nat) (sci : Nat) (keySlot : Nat)
deriving DecidableEq, Repr

/-- What an accepted change does when its stamp is reached: the request standing in mailbox `m`, or a change of the
firmware's own. -/
inductive ChangeAct
  | mailbox (m : Nat)
  | firmware (c : FwChange)
deriving DecidableEq, Repr

/-- A mailbox-driven or firmware-originated change waiting for its apply-at stamp (R58, R59). `rank` is the mailbox
index, 64 for the firmware's own; `seg` is the segment that `t` is read in; `first` marks a change carried over a segment
close (R78). -/
structure Change where
  t : Stamp
  rank : Nat
  seq : Nat
  act : ChangeAct
  seg : Nat := 0
  first : Bool := false
deriving DecidableEq, Repr

/-- An old segment that is still being released after a step (R75): the step's delta in 2⁻¹⁶ ns and the old
accumulator at the step tick. -/
structure Closing where
  delta : Int
  oldDt : Int
deriving DecidableEq, Repr

/-- Strata (R42–R80). `relSeg` is the segment being released, `counts` the next count of each sub-source under key
64·port + index (R45), `inbound` the frames delivered by ports and engines that have not reached Strata, `cellWait`
the frames an internal engine holds for want of pending cells (R97), `shift` the translation in ST64 units that the
step opening each segment adds (R859). -/
structure Strata where
  run : Bool := false
  startStamp : Stamp := 0
  startSeg : Nat := 0
  frontier : Stamp := 0
  relSeg : Nat := 0
  closing : Option Closing := none
  counts : Map Nat := []
  fwCount : Nat := 0
  accepted : Nat := 0
  inbound : List Frame := []
  cellWait : List Frame := []
  pend : List Pend := []
  changes : List Change := []
  shift : Map Int := []
deriving DecidableEq, Repr

/-- What a capture copy for F20 carries (R729–R731): the rings found at release, the record FLAGS, the order stamp
and the sequence word. -/
structure CapInfo where
  rings : Nat
  flags : Nat
  o : Stamp
  seq : Nat
deriving DecidableEq, Repr

/-- One copy of an admitted frame on an egress port: its class, its queue position (egress tag, R116), the order
stamp and segment of its admission, its lengths, and its constant-residence target if it has one (R256). -/
structure Copy where
  fid : Nat := 0
  tag : Nat := 0
  frame : Frame := {}
  cls : Nat := 0
  leaf : Nat := 0
  len : Nat := 0
  cells : Nat := 0
  admO : Stamp := 0
  cr : Option Stamp := none
  lateDrop : Bool := false
  handle : Nat := 0
  cap : Option CapInfo := none
  scrubbed : Bool := false
deriving DecidableEq, Repr

/-- A copy that left its queue by selection (R241): accounted start and departure, planned launch, whether it was
reserved (R257), the segment its stamps are in, the reservations that it gave way to (each with its end and the time it
took, R257), and the transmit SA in use when it was selected with the value its slot then had for it (R299, R512). -/
structure Sel where
  copy : Copy
  start : Stamp
  dep : Stamp
  launch : Stamp
  reserved : Bool := false
  ext : List (Stamp × Nat) := []
  seg : Nat := 0
  sa : Option (Nat × Option (List Byte)) := none
deriving DecidableEq, Repr

/-- A reservation of R257: a copy and its accounted interval. -/
structure Resv where
  copy : Copy
  start : Stamp
  tau : Nat
deriving DecidableEq, Repr

/-- Accounted cells that come back at a departure stamp (R99, R100). -/
structure Ret where
  dep : Stamp
  port : Nat
  cls : Nat
  cells : Nat
  inPort : Nat
  fid : Nat
deriving DecidableEq, Repr

/-- The physical cells of one stored frame, in cell-index order, and how many hold them: the frame itself until its
release, and each member copy (R105). -/
structure Store where
  cells : List Nat
  claims : Nat
deriving DecidableEq, Repr

/-- A cell of Caldera (R91–R93, R115): 64 data bytes, the CRC-16 written with them, the cell's index within its frame, the
number of the intermediate that wrote it and the slot in which it did. -/
structure Cell where
  data : List Byte
  crc : Nat
  index : Nat
  inter : Nat
  slot : Nat
deriving DecidableEq, Repr

/-- A reference in a VOQ (R116): egress tag, cell index, cell number. -/
structure CellRef where
  tag : Nat
  index : Nat
  cell : Nat
deriving DecidableEq, Repr

/-- Caldera (R91–R133): accounted occupancy per queue, ingress-attributed occupancy, XOFF state, departures to come,
stored frames, cells in use by number, the first slot that each input has free, VOQ[m][o] under key 24·o + m, and the tick at
which the FAB island started, from which slots count (R115). -/
structure Caldera where
  occ : Map Nat := []
  iocc : Map Nat := []
  xoff : Nat := 0
  rets : List Ret := []
  store : Map Store := []
  nextFid : Nat := 1
  cells : Map Cell := []
  inFree : Map Nat := []
  voq : Map (List CellRef) := []
  start : Nat := 0
deriving DecidableEq, Repr

/-! ### The catalogue (chapter 4) -/

/-- An entry's 64 bytes (R139): the W0 fields and words, and ACC_SEQ in W7. `rest` holds the bits of W0 outside VALID to
STRIKE and USER in which it differs from the TABLE and PIPE of its partition and zeros; 0 in every entry that hardware or
the firmware writes. -/
structure Entry where
  static : Bool := false
  hit : Bool := false
  strike : Bool := false
  user : Nat := 0
  w1 : W64 := 0
  w2 : W64 := 0
  w3 : W64 := 0
  w4 : W64 := 0
  w5 : W64 := 0
  w6 : W64 := 0
  accSeq : Nat := 0
  rest : Nat := 0
deriving DecidableEq, Repr

/-- A flush whose logical effect stands since its apply-at stamp and whose physical removal is going on (R182). -/
structure Flush where
  mbx : Option Nat
  matched : Nat
  hidden : List Nat
  at' : Stamp := 0
deriving DecidableEq, Repr

/-- The catalogue: valid entries by index, serial counters N (R141), deaccession LFSRs (R172), pending flushes,
learning counts (R169), entries that hold an uncorrectable error (R145), and the sweep origins and positions of R173 and R185. A position (stamp, n) says that every
visit before that stamp, and the first n at it, are done. -/
structure Catalogue where
  slots : Map Entry := []
  serial : Map Nat := []
  lfsr : Map Nat := []
  flushes : List Flush := []
  learned : Map Nat := []
  eccBad : List Nat := []
  ageOrigin : Stamp := 0
  agePos : Stamp × Nat := (0, 0)
  vitOrigin : Stamp := 0
  vitPos : Stamp × Nat := (0, 0)
deriving DecidableEq, Repr

/-! ### The signal router (chapter 5) -/

/-- A PDU descriptor (R204). `fmt`: 0 classical, 1 FD, 2 FD with BRS, 3 XL. -/
structure PduDesc where
  bus : Nat := 0
  ident : Nat := 0
  fmt : Nat := 0
  len : Nat := 0
  cls : Nat := 0
  periodMs : Nat := 0
  phaseMs : Nat := 0
  minGapMs : Nat := 0
  sdt : Nat := 0
  vcid : Nat := 0
  sec : Bool := false
  af : Nat := 0
  init : List Byte := []
deriving DecidableEq, Repr

/-- An enabled PDU: its descriptor, its content, its enable stamp E, its next cyclic expiry, a scheduled transmission
event and the MIN_GAP reference (R205, R207). -/
structure Pdu where
  desc : PduDesc
  en : Bool := true
  content : List Byte
  enable : Stamp
  nextCyc : Option Stamp := none
  event : Option Stamp := none
  gapRef : Stamp
deriving DecidableEq, Repr

/-- A timeout slot (R212): the catalogue index of its route, its deadline and TIMED_OUT. -/
structure TimeoutSlot where
  route : Nat
  deadline : Option Stamp
  timedOut : Bool := false
deriving DecidableEq, Repr

/-- The signal router's state: PDUs, timeout slots, REROUTED flags by bus, and the sequence numbers of outgoing and
received streams (R219, R225). -/
structure Router where
  run : Bool := false
  pdus : Map Pdu := []
  slots : Map TimeoutSlot := []
  rerouted : Nat := 0
  seqOut : Map Nat := []
  seqIn : List (Nat × Nat) := []
deriving DecidableEq, Repr

/-! ### Egress and policing (chapter 6) -/

/-- A gate-list bank (R251): the entry words in use, words loaded behind them, base time and cycle time in ns. -/
structure GateBank where
  entries : List Nat := []
  rest : List Nat := []
  base : Int := 0
  cycle : Nat := 1000
deriving DecidableEq, Repr

/-- A commit not yet in effect (R255): the bank it activates, or none for GATE_EN 0, and the wire time in ST64 units
at which it acts. -/
structure GateCommit where
  bank : Option Nat
  at' : Stamp
deriving DecidableEq, Repr

/-- The credit of one class (R250) and the stamp it is brought to. -/
structure Credit where
  c : Int := 0
  t : Stamp := 0
deriving DecidableEq, Repr

/-- One egress port: queued copies in admission order, selected copies not yet handed over, reservations, the copy in
accounted transmission, the stamp from which the transmitter is idle, the stamp before which every decision is final, the
interval of the last reservation served, virtual times and tags by node (R247), class credits, gate banks and mode-1 leaf
map and weights (R246); and the staging buffer (R119): how many of the selected copies, oldest first, have their cells
reserved, and the cells in staging as (egress tag, cell index); `later` is a commit of the new segment while the old one closes
(R255). Node keys: 0 the port, 1+d domain d; child keys: class c
or 1000+d domain d or 2000+16d+s service s. -/
structure EgrPort where
  queued : List Copy := []
  selected : List Sel := []
  resv : List Resv := []
  cur : Option Sel := none
  idleFrom : Stamp := 0
  settled : Stamp := 0
  lastResv : Option (Stamp × Stamp) := none
  nextTag : Nat := 0
  vtime : Map Nat := []
  tags : Map Nat := []
  credits : Map Credit := []
  creditFrom : Stamp := 0
  banks : Map GateBank := []
  gateEn : Bool := false
  bank : Nat := 0
  commit : Option GateCommit := none
  later : Option GateCommit := none
  leafMap : Map Nat := []
  weights : Map Nat := []
  reserved : Nat := 0
  staged : List (Nat × Nat) := []
deriving DecidableEq, Repr

/-- A stream filter (R233). -/
structure Filter where
  maxSdu : Nat := 0
  blockEn : Bool := false
  blocked : Bool := false
deriving DecidableEq, Repr

/-- A meter (R233, R235): settings, level in 1/64,000,000 byte, stamp of the last update and its segment. -/
structure Meter where
  rate : Nat := 25000000
  burst : Nat := 16777215
  level : Nat := 16777215 * 64000000
  t : Stamp := 0
  seg : Nat := 0
deriving DecidableEq, Repr

/-! ### Ethernet and 10BASE-T1S ports (chapter 7) -/

/-- One secure association of a SecY (R294, R524): its AN, SCI, key slot, next PN to send or lowest acceptable PN, short
SCI and salt. `gone` marks a transmit SA that is no longer loaded and still governs frames selected under it (R299), `thr`
one whose PN has reached PN_THRESH (R298). -/
structure SecAssoc where
  id : Nat
  rx : Bool
  an : Nat
  sci : Nat
  slot : Nat
  pn : Nat := 1
  ssci : Nat := 0
  salt : Nat := 0
  gone : Bool := false
  thr : Bool := false
deriving DecidableEq, Repr

/-- A frame handed to a MAC or a transmitter, waiting for its start (R121, R243). -/
structure MacJob where
  sel : Sel
  staged : Stamp
deriving DecidableEq, Repr

/-- A TX timestamp queue entry (R305, R310). -/
structure TsEntry where
  stamp : Stamp
  tag : Nat
  seq : Nat
  disc : Bool
  seg : Nat
deriving DecidableEq, Repr

/-- One MAC of E0–E11, K0 or K1 (index 0–13). Verify state as ETH_STAT codes it, its frames sent and the
tick of its next one; `wireFree` is the stamp at which the wire is free for the next frame, `onWire` the frame on it with
what preempting frames have taken of the wire, `wireLen` its bytes; `pauseUntil`, `pauseSince`, `ignoreUntil` serve R292 and R293; `rxCal` and `txCal` are
the latencies that calibration finds on a chain port (R415). -/
structure EthPort where
  link : Bool := false
  adminDown : Bool := false
  rateErr : Bool := false
  verify : Nat := 0
  verifySent : Nat := 0
  verifyAt : Nat := 0
  pauseUntil : Option Stamp := none
  pauseSince : Option Stamp := none
  ignoreUntil : Option Stamp := none
  xoffQueue : List Bool := []
  refreshAt : Option Stamp := none
  rxCal : Nat := 0
  txCal : Nat := 0
  jobs : List MacJob := []
  wireFree : Stamp := 0
  onWire : Option Sel := none
  wireLen : Nat := 0
  sas : List SecAssoc := []
  nextSa : Nat := 0
  encoding : Option Nat := none
  tsq : List TsEntry := []
  tsSeq : Nat := 0
  tsLatched : List Nat := [0, 0, 0, 0]
  tsArmed : Bool := false
deriving DecidableEq, Repr

/-- One S port (R274–R279): fallen back to CSMA/CD, beacon sent or seen, the tick of the last one
seen and of the next one to send, the frames sent since (R274: 1 + MAX_BC at most), transmit buffer (frames waiting, oldest
first, with the firmware's stamp request) and the attempts of the oldest. -/
structure TisPort where
  fallback : Bool := false
  beacon : Bool := false
  lastBeacon : Nat := 0
  nextBeacon : Nat := 0
  sent : Nat := 0
  buffer : List (List Byte × Option Nat) := []
  attempts : Nat := 0
deriving DecidableEq, Repr

/-! ### Timebase and time events (chapter 10) -/

/-- A step accepted or announced: its delta in 2⁻¹⁶ ns, the first tick that may carry it, and the instant T_s of a
chain-wide step (R398, R417). -/
structure StepReq where
  delta : Int
  notBefore : Nat
  instant : Option Stamp := none
  mbx : Option Nat := none
deriving DecidableEq, Repr

inductive Servo | freerun | acquiring | locked | holdover
deriving DecidableEq, Repr

/-- The timebase: the 104-bit accumulator (R394), tick number, the tick at which the TB island started (R324), INCR in 8.40 and the value waiting with its tick (R396),
the pending and the queued steps, the segment, the last step delta, the servo (R400–R405) with the last offset of each
source in 2⁻¹⁶ ns that it has not used, its last 16 offsets, the last one with its stamp, and its frequency errors of 60 s in
0.001 ppb with their ticks (R403), PPS_OUT's level, pulse end and next pulse, the last stamped edge of PPS_IN, the edges of
REF10_IN, and the islands
whose DT80 replica is off until the next tick (R25), with the ticks by which it is off. [Log 10: DESIGN CHOICE] -/
structure Timebase where
  acc : BitVec 104 := 0
  tick : Nat := 0
  start : Nat := 0
  incr : Nat := 0x020000000000
  incrNext : List (Nat × Nat) := []
  step : Option StepReq := none
  stepQueue : List StepReq := []
  seg : Nat := 0
  lastDelta : Int := 0
  epoch : Nat := 0
  servo : Servo := .freerun
  src : Nat := 0
  everLocked : Bool := false
  lockRun : Nat := 0
  firstSample : Bool := true
  valid : Nat := 0
  samples : Map Int := []
  holdE0 : Nat := 0
  holdY : Nat := 0
  lossStamp : Stamp := 0
  qual : Nat := 0xFFFFFFFF
  offs : Int := 0
  offsHist : List Int := []
  lastOffs : Option (Stamp × Int) := none
  freqHist : List (Nat × Int) := []
  ppsIn : Stamp := 0
  ppsOn : Bool := false
  ppsEnd : Option Stamp := none
  ppsNext : Option Stamp := some 0
  ppsInLast : Option Stamp := none
  refEdges : Nat := 0
  refFirst : Stamp := 0
  replica : Map Int := []
  heard : Map Nat := []
deriving DecidableEq, Repr

/-- One time-event output (R426–R432). `per` is PER in 2⁻¹⁶ units; `armed`: a set has been copied since TB island start. -/
structure TevOut where
  armTick : Option Nat := none
  armed : Bool := false
  active : Bool := false
  start : Stamp := 0
  per : Nat := 0
  width : Nat := 0
  count : Nat := 0
  k : Nat := 0
  level : Bool := false
  pulseEnd : Option Stamp := none
deriving DecidableEq, Repr

/-- An entry of a time-event input queue (R434). -/
structure TevEntry where
  stamp : Stamp
  rise : Bool
  seg : Nat
  seq : Nat
deriving DecidableEq, Repr

/-- One time-event input (R433, R434). -/
structure TevIn where
  queue : List TevEntry := []
  seq : Nat := 0
  last : Option Stamp := none
  latched : List Nat := [0, 0, 0, 0]
  armed : Bool := false
deriving DecidableEq, Repr

/-- Peer delay on a port (R407): the stamps of the exchange under way in 2⁻¹⁶ ns, its sequence number, the stamps of
the last complete exchange, and who asked last. -/
structure PeerDelay where
  seq : Nat := 0
  t1 : Option Int := none
  t2 : Int := 0
  t4 : Option Int := none
  last : Option (Int × Int) := none
  asker : Nat := 0
  askSeq : Nat := 0
deriving DecidableEq, Repr

/-- The time an instance last received (R409, R410): origin in ns, correction with link delay in 2⁻¹⁶ ns, ingress stamp
in 2⁻¹⁶ ns and its segment. -/
structure SyncInfo where
  origin : Int
  corr : Int
  rx : Int
  seg : Nat
deriving DecidableEq, Repr

/-- What the module that takes an instance's time from Ethernet tells the chain (R413): its address, the chain depth from
it, root system identity, stepsRemoved as it announces it, source port identity, UTC offset. -/
structure SpanInfo where
  src : Nat
  depth : Nat
  root : Nat
  steps : Nat
  source : Nat
  utc : Int
deriving DecidableEq, Repr

/-- One gPTP instance as the firmware keeps it (R406–R413): roles by port, the priority vector announced on each port,
the vector it follows, its time as an offset to DT in 2⁻¹⁶ ns at a DT of its own and a rate ratio to DT of
1 + `rate` × 2⁻⁴¹, UTC offset, sequence numbers, link delays in 2⁻¹⁶ ns and neighbour rate ratios by port, exchanges under way,
Syncs that wait for their Follow_Up, the last time received, what the chain says of it, and the ticks of the last Sync and of
the last Announce on each port (R401). -/
structure Gptp where
  roles : Map Nat := []
  announced : Map Nat := []
  gm : Nat := 0
  steps : Nat := 0
  offset : Int := 0
  offAt : Int := 0
  rate : Int := 0
  utcOffset : Int := 0
  seqSync : Map Nat := []
  seqAnn : Map Nat := []
  seqPd : Map Nat := []
  linkDelay : Map Int := []
  ratio : Map (Int × Int) := []
  pd : Map PeerDelay := []
  syncPending : Map (Nat × Int × Nat) := []
  last : Option SyncInfo := none
  span : Option SpanInfo := none
  syncTick : Nat := 0
  annTick : Map Nat := []
deriving DecidableEq, Repr

/-! ### CAN (chapter 8) -/

/-- A pair of counter value and ST64 (R324), its segment, and the quotient in force from it: an ST64 and a counter
difference (R325, R326); `step` marks the extra pair of a time step. -/
structure CanPair where
  cnt : Nat
  st : Stamp
  seg : Nat
  qNum : Int := 100
  qDen : Nat := 1
  step : Bool := false
deriving DecidableEq, Repr

/-- A received frame that waits for a seal verification ahead of it or its own (R45, R330): its stamps, its counter at SOF,
the entry of the seal filter that it is verified against (R329, R330), whether a change of T3 that comes before it has yet to
take effect (R511), and the buffers that it fits with their codes at its admission stamp point (R336); none where a change of
owner that comes before it has yet to take effect (R320). -/
structure CanHeld where
  frame : BusFrame
  ing : Stamp
  ingSeg : Nat
  adm : Stamp
  seg : Nat
  cnt : Nat
  verify : Option (Nat × Entry) := none
  wait : Bool := false
  snap : Option (Map Nat) := none
deriving DecidableEq, Repr

/-- Where the frame on the bus comes from; `past` is a frame whose source a change of owner took away (R363). -/
inductive CanSource
  | gtq
  | mb (n : Nat)
  | tt (n : Nat)
  | ref
  | past (frame : BusFrame)
deriving DecidableEq, Repr

/-- The transmission on the bus: its source, the counter at its SOF, and whether its buffer asked for withdrawal. -/
structure CanTx where
  src : CanSource
  cnt : Nat
  abort : Bool := false
deriving DecidableEq, Repr

/-- A collision entry (R358): an IDENT and the times of its last collisions, newest first. -/
structure CollEntry where
  ident : Nat
  times : List Stamp
deriving DecidableEq, Repr

/-- A frame in a gateway transmit queue. `prio` is unused by the order, which is that of selection (R343). -/
structure GtqFrame where
  frame : BusFrame
  ing : Stamp
  ingSeg : Nat
  sel : Stamp
  fid : Nat
deriving DecidableEq, Repr

/-- One CAN controller. `owners` holds the changes of owner since the run began, newest first: segment, apply-at stamp and
whether host software is the owner from there (R320), `later` the received frames offered to the buffers once a change that
comes before them has taken effect. `ram` holds the words of its 16 KiB region that are not 0 (R331); `lock` the buffer
holding the lock and its latched DLEN; `shadow` and `done` the shadow frame and the completion latch: a code and, where one
is to be written, a TS (R337–R340); `recFrom` the tick at which recovery began (R355). `filter` is the loaded seal filter: IDENT, slot and entry (R329). Time-triggered
operation (R348–R352): `refTick` the tick of the SOF of the last reference message, or from which the first is awaited, `ttFollow` follower for this cycle,
`ttDone` the columns of this cycle that are done. -/
structure CanCtl where
  host : Bool := false
  owners : List (Nat × Stamp × Bool) := []
  later : List CanHeld := []
  filter : Map (Nat × Entry) := []
  slot : Option Nat := none
  tec : Nat := 0
  rec' : Nat := 0
  lec : Nat := 0
  busOff : Bool := false
  recovering : Bool := false
  recFrom : Nat := 0
  ram : Map W32 := []
  image : Map W32 := []
  pairs : List CanPair := []
  lock : Option (Nat × Nat) := none
  shadow : Option (BusFrame × Nat) := none
  done : Option (Nat × Option Nat) := none
  reqTime : Map Stamp := []
  gtq : List GtqFrame := []
  tx : Option CanTx := none
  held : List CanHeld := []
  fvArr : Map Nat := []
  coll : List CollEntry := []
  shared : List Nat := []
  collLast : Nat := 0
  ttRun : Bool := false
  ttMaster : Bool := false
  ttFollow : Bool := false
  ttDone : List Nat := []
  refTick : Nat := 0
  cycle : Nat := 0
  btmSeq : Nat := 0
  btmSyncSeq : Nat := 0
  btmFollowSeg : Option Nat := none
  btmStage : Nat := 0
  btmEpoch : Option (Nat × Int) := none
deriving DecidableEq, Repr

/-- A capture FIFO (R725–R727): the bytes held, oldest first, and the items dropped since the last LOST item. -/
structure CapFifo where
  bytes : List Byte := []
  lost : Nat := 0
deriving DecidableEq, Repr

/-! ### LIN and FlexRay (chapter 9) -/

/-- A frame-table entry of a LIN controller (R375): direction 0 ignore, 1 publish, 2 subscribe. -/
structure LinEntry where
  dir : Nat := 0
  len : Nat := 8
  enhanced : Bool := true
deriving DecidableEq, Repr

/-- A schedule slot (R377, R379). `typ`: 0 unconditional, 1 event-triggered, 2 sporadic, 3 commander request,
4 responder response; `idents` the sporadic list; `resolve` the collision-resolution table. -/
structure LinSlot where
  typ : Nat := 0
  ident : Nat := 0
  delayMs : Nat := 10
  idents : List Nat := []
  resolve : Nat := 0
deriving DecidableEq, Repr

/-- The content of a committed buffer (R369): its stamp, its bytes, and whether it has come since the last
transmission (R379). -/
structure Committed where
  data : List Byte
  c : Stamp
  seg : Nat
  fresh : Bool := true
deriving DecidableEq, Repr

/-- A frame handed over that commits at its stamp C (R369). -/
structure CommitWait where
  buf : Nat
  data : List Byte
  c : Stamp
  seg : Nat
deriving DecidableEq, Repr

/-- A header to be sent at its wire time (R378): its slot, and the identifier it was sent with. -/
structure LinHeader where
  slot : LinSlot
  wire : Stamp
  seg : Nat
  ident : Nat := 0
  started : Bool := false
deriving DecidableEq, Repr

/-- One LIN controller: frame table, schedule tables, the table and slot that start next, those running now, next slot
start, a table asked for by command (15 to stop), the interrupted tables and slots, innermost first, a resolution table to
run next, the header of the present slot, the response being sent, the break and end of the last subscribed frame on the bus
and the protected identifier whose response was given up (counter values, R382), the contents of the committed buffers, newest
first, and waiting commits. -/
structure LinCtl where
  frames : Map LinEntry := []
  tables : Map (List LinSlot) := []
  running : Bool := false
  table : Nat := 0
  slot : Nat := 0
  curTable : Nat := 0
  curSlot : Nat := 0
  nextSlot : Option Stamp := none
  want : Option Nat := none
  resume : List (Nat × Nat) := []
  resolve : Option Nat := none
  header : Option LinHeader := none
  sending : Option (Nat × List Byte) := none
  lastFrame : Option (Nat × Nat) := none
  noResp : Option Nat := none
  commits : Map (List Committed) := []
  waits : List CommitWait := []
  pairs : List CanPair := []
deriving DecidableEq, Repr

/-- A transmit slot that FR0 owns on a channel, or a receive buffer: cycle filter and segment (R384, R385). -/
structure FlxSlot where
  slot : Nat
  channels : Nat
  rep : Nat := 1
  base : Nat := 0
  dynamic : Bool := false
deriving DecidableEq, Repr

/-- The cluster and node parameters of ISO 17458: those that the spec limits (R384): cycle length in µs, static slots, static
payload in words, minislots, and the longest dynamic payload in words; and the length of a minislot and of the symbol window
in ns, bits of a TSS, minislots of a dynamic slot's idle phase, wakeup symbols in a pattern, and the key slot, 0 for none.
[Log 90: PRESUMED] -/
structure FlxCluster where
  cycleUs : Nat := 1000
  statics : Nat := 2
  staticWords : Nat := 0
  minislots : Nat := 0
  dynWords : Nat := 127
  minislotNs : Nat := 5000
  symbolNs : Nat := 0
  tssBits : Nat := 9
  idleMinis : Nat := 1
  wakeSymbols : Nat := 33
  keySlot : Nat := 0
deriving DecidableEq, Repr

/-- The FlexRay controller FR0: POC state as FLX_STAT codes it, cycle, a pending HALT, leave to lead startup, owned
slots, the cluster, receive buffers, cycles without clock correction and their limits, the minislot counter of each channel
as (next dynamic slot, minislots gone by it), the tick at which a wakeup pattern ends, committed buffers by
2048·channel + slot. [Log 38: DEDUCED, 90: PRESUMED] -/
structure FlxCtl where
  poc : Nat := 0
  cycle : Nat := 0
  haltPending : Bool := false
  coldAllowed : Bool := false
  cluster : FlxCluster := {}
  owned : List FlxSlot := []
  rxBufs : List FlxSlot := []
  noCorr : Nat := 0
  maxPassive : Nat := 15
  maxFatal : Nat := 15
  mini : Map (Nat × Nat) := []
  wakeEnd : Nat := 0
  commits : Map (List Committed) := []
  waits : List CommitWait := []
  pairs : List CanPair := []
deriving DecidableEq, Repr

/-! ### Host rings and crypto queues (chapters 12 and 18) -/

/-- A frame or segment of a host send that is not injected yet (R61, R290): its bytes without FCS, the injection stamp it
asks for, and whether the TX timestamp request applies to it. -/
structure TxSeg where
  bytes : List Byte
  at' : Nat
  last : Bool
deriving DecidableEq, Repr

/-- A host send under way (R714–R719): segments still to be fetched, the segments in Caldera that wait for their stamps,
each with that stamp, its segment and its stored frame, the number of descriptors, IRQ, the timestamp tag, the port of a DIRECT send, and whether an
injection was late. -/
structure TxSend where
  segs : List TxSeg := []
  held : List (TxSeg × Stamp × Nat × Nat) := []
  descs : Nat
  irq : Bool
  tag : Option Nat
  direct : Option Nat
  late : Bool := false
deriving DecidableEq, Repr

/-- A host transmit ring: ring positions of completed descriptors with IRQ 1, and the send under way. -/
structure TxRing where
  irqDone : List Nat := []
  send : Option TxSend := none
deriving DecidableEq, Repr


/-! ### Chain and remote access (chapter 11) -/

/-- An entry of the far error log (R483). -/
structure FarEntry where
  w0 : Nat
  w1 : Nat
  w2 : Nat
deriving DecidableEq, Repr

/-! ### Keys and crypto (chapter 12) -/

/-- A key slot (R499). `state` 0 EMPTY, 1 VALID, 2 REVOKED; `attr` 0 ENC, 1 DEC, 2 WRAP, 3 DERIVE; `parent` 4096 for
the root, 0x1FFF for none; `value` of privileged slots only. -/
structure KeySlot where
  state : Nat := 0
  attr : Nat := 0
  len256 : Bool := false
  hostUse : Bool := false
  gen : Nat := 0
  depth : Nat := 0
  parent : Nat := 0x1FFF
  label : List Byte := []
  value : List Byte := []
deriving DecidableEq, Repr

/-- A root bank of the anti-fuse memory (R496–R498): the serial of the root it holds, and its root-revoked fuse. -/
structure RootBank where
  root : Option Nat := none
  revoked : Bool := false
deriving DecidableEq, Repr

/-- A record of the key-store journal (R533). Freshness records name an entry by its T3 key. [Log 110: DEDUCED] -/
inductive JRec
  | priv (slot : Nat) (k : KeySlot) (root : Option Nat)
  | derived (slot : Nat) (k : KeySlot)
  | revoke (slot : Nat)
  | freshTx (key value : Nat)
  | freshRx (key value : Nat)
deriving DecidableEq, Repr

/-- The key store: slots, root banks, the bank in use, the seal loop, the number of roots ever made, and the journal:
records committed, and records appended and not yet committed with the sequence number of the change each belongs
to; the slots that each key change of the run has replaced, latest first, with its segment and apply-at stamp (R511); and
the slots that only the firmware can name, 2p for the ICK and 2p + 1 for the KEK of MAC port p (R525). -/
structure KeyStore where
  slots : Map KeySlot := []
  banks : List RootBank := [{}, {}, {}, {}]
  bank : Option Nat := none
  loopOpen : Bool := false
  fusePending : Bool := false
  roots : Nat := 0
  journal : List JRec := []
  pending : List (Option Nat × JRec) := []
  past : List (Nat × Stamp × Map KeySlot) := []
  fw : Map (List Byte) := []
deriving DecidableEq, Repr

/-- A fetched request (R516): its descriptor's fields, the source bytes and the signature bytes read for it, and, once
an engine has it, the key value and the generation it goes on with. `status` and `output` stand once it has ended. -/
structure CryJob where
  op : Nat
  flags : Nat
  slot : Nat
  tag : Nat
  gen : Nat
  srcAddr : Nat
  dstAddr : Nat
  srcLen : Nat
  aadLen : Nat
  dstLen : Nat
  iv : List Byte
  tagLen : Nat
  rsv : Nat
  outSlot : Nat
  src : List Byte
  aux : List Byte
  dispatched : Bool := false
  key : List Byte := []
  usedGen : Nat := 0
  status : Option Nat := none
  output : List Byte := []
deriving DecidableEq, Repr

/-- A crypto request queue (R513–R515): the firmware queues' pointers (host queues have registers), requests in order,
descriptor positions of completions with IRQ 1, the share served so far, and a firmware queue's completions. -/
structure CryQueue where
  en : Bool := false
  head : Nat := 0
  tail : Nat := 0
  jobs : List CryJob := []
  irqDone : List Nat := []
  served : Nat := 0
  stale : List (Nat × List Nat) := []
  results : List (List Byte × List Byte) := []
deriving DecidableEq, Repr

/-- A peer that has sent MKPDUs on a port: its priority, member identifier and latest message number, whether it lists
this module, and the tick at which it expires. [Log 117: PRESUMED] -/
structure MkaPeer where
  prio : Nat
  mi : Nat
  mn : Nat
  live : Bool
  till : Nat
deriving DecidableEq, Repr

/-- MKA on one port (R525): peers by SCI, the module's own member identifier and message number, the SAK distributed last
(its AN and key number), the slots it lies in, its value where the module drew it, and whether a new one is wanted. -/
structure Mka where
  peers : Map MkaPeer := []
  mi : Nat := 0
  msg : Nat := 0
  sak : List Byte := []
  keyNum : Nat := 0
  an : Nat := 0
  encSlot : Option Nat := none
  decSlot : Option Nat := none
  want : Bool := false
deriving DecidableEq, Repr


/-! ### Detected errors (chapter 19) -/

/-- A detected hardware error that waits for its handling pair (R752): its KIND, DETAIL, island and unit under test. -/
structure ErrReport where
  kind : Nat
  detail : Nat
  island : Nat
  unit : Nat
deriving DecidableEq, Repr

/-! ### Lockstep pairs (chapter 19) -/

/-- A Curator pair (R744–R758): 0 not started, 1 running firmware, 2 stopped by a mismatch or under test, 3 restarting,
4 fenced; halted by a debugger (R749); running the new image of a handover (R789). -/
structure Pair where
  state : Nat := 0
  halted : Bool := false
  newImage : Bool := false
deriving DecidableEq, Repr


/-! ### Chain ports, topology and ring (chapter 11) -/

/-- One chain port (R448, R459, R464): aligned, the tick from which it lacks alignment, failed; its state (0 down, 1 UP,
2 CTRL_ONLY), the tick of the last hello and from which it is UP, what the neighbour said, blocked; the mean link delay
in 2⁻¹⁶ ns, and the last time word sent: its epoch and its departure in 2⁻¹⁶ ns; the tick of alignment, and the messages
to send, oldest first: class and the chunks still to go (R446, R449, R453); of what arrives, the bytes of the unfinished message
of each class, and the mark at which the last time word began, in 2⁻¹⁶ ns. -/
structure ChainPort where
  aligned : Bool := false
  lackSince : Nat := 0
  failed : Bool := false
  state : Nat := 0
  helloTick : Nat := 0
  upSince : Nat := 0
  nbrVer : Nat := 0
  nbrAddr : Nat := 0
  blocked : Bool := false
  delay : Int := 0
  wordSent : Option (Nat × Int) := none
  alignedAt : Nat := 0
  sendQ : List (Nat × List (List Byte)) := []
  part : Map (List Byte) := []
  mark : Int := 0
  lastWord : Option Nat := none
deriving DecidableEq, Repr

/-- The reach entry of an address (R460, R461): identity, version, role, ring-owner and time-root bits, its neighbours,
hop count and tick of the last announcement by port, and whether two identities were announced. -/
structure Reach where
  ident : Nat := 0
  ver : Nat := 0
  role : Nat := 0
  owner : Bool := false
  root : Bool := false
  nbrs : List Nat := []
  hops0 : Option (Nat × Nat) := none
  hops1 : Option (Nat × Nat) := none
  dup : Bool := false
deriving DecidableEq, Repr

/-- A message that ends here and waits to be handled: the port it came in on, its arrival mark in 2⁻¹⁶ ns of device
time, and the message. -/
structure Inbound where
  port : Nat
  mark : Int
  msg : SideMsg
deriving DecidableEq, Repr

/-- The chain: the CHAIN_ROLE straps, ports, reach entries, whether the ring is failed over, who reported the fault,
messages that wait, the tick since which every link of the ring is back (R466), and the port last followed for time (R404). -/
structure Chain where
  role : Nat := 0
  ports : Map ChainPort := []
  reach : Map Reach := []
  failedOver : Bool := false
  faultBy : Option Nat := none
  inbox : List Inbound := []
  backSince : Option Nat := none
  timePort : Option Nat := none
deriving DecidableEq, Repr

/-! ### Remote access (chapter 11) -/

/-- A bridge slot of an initiator (R470–R482): state as RMT_STAT codes it, error, operations completed, BSEQ; the
operation under way with its target, address, data, hops and sequence (operation, address, A, B), whether it has been
sent, its tag, the tick of its start, read data with the tick of its arrival while unclaimed, and the mailbox it
serves. -/
structure RmtSlot where
  state : Nat := 0
  err : Nat := 0
  doneOps : Nat := 0
  bseq : Nat := 0
  op : Nat := 0
  tgt : Nat := 0
  addr : Nat := 0
  wdata : Nat := 0
  hops : Nat := 0
  seq : List (Nat × Nat × Nat × Nat) := []
  sent : Bool := false
  tag : Nat := 0
  start : Nat := 0
  rdata : List Nat := []
  held : Option Nat := none
  mbx : Option Nat := none
deriving DecidableEq, Repr

/-- The bridge as initiator: slots 0–15 of the host and 16–31 of the firmware, the next tag and BSEQ, and operations
that timed out and may still be answered: tag, target, address and the addresses it reads. -/
structure Bridge where
  slots : Map RmtSlot := []
  nextTag : Nat := 0
  bseq : Nat := 0
  late : List (Nat × Nat × Nat × List Nat) := []
  ferrLatched : List Nat := [0, 0, 0]
  ferrArmed : Bool := false
deriving DecidableEq, Repr


/-! ### The power die (chapter 16) -/

/-- A channel's profile (R629, R654), in the units of PWR_PROFILE. -/
structure PdProfile where
  typ : Nat := 1
  amb : Int := 85
  wire : Nat := 35
  policy : Nat := 0
  retries : Nat := 0
  ilim : Nat := 1000
  limp : Nat := 0
  safe : Nat := 0
  olMs : Nat := 1
  olMa : Nat := 0
  blankUs : Nat := 0
  points : List (Nat × Nat) := []
deriving DecidableEq, Repr

/-- One load channel (R649–R666): commanded state as CMD codes it, commanded duty and frequency and those in effect, the
latch with its cause and time, blanking, limit and limit event, fuse state W, retries left, the time since which it has
been on without a latch-off, open load and the time of its last change, and the last telemetry. Times are microseconds of the power die's oscillator. -/
structure PdChan where
  prof : PdProfile := {}
  cmd : Nat := 0
  duty : Nat := 0
  freq : Nat := 200
  actDuty : Nat := 0
  actFreq : Nat := 0
  pwmFrom : Option Nat := none
  out : Bool := false
  latched : Bool := false
  cause : Nat := 0
  latchAt : Nat := 0
  blankFrom : Option Nat := none
  limit : Bool := false
  limitFrom : Nat := 0
  limitEv : Bool := false
  w : Rat := 0
  retriesLeft : Nat := 0
  onFrom : Option Nat := none
  openLoad : Bool := false
  olFrom : Nat := 0
  cur : Nat := 0
  tj : Int := 0
deriving DecidableEq, Repr

/-- A setting sent over the die link (R31, R628, R629, R645), with the mailbox that waits for its acknowledgement. -/
inductive DieMsg
  | set (op mask duty freq : Nat) (mbx : Option Nat)
  | restart (mask : Nat) (mbx : Option Nat)
  | profile (ch : Nat) (p : PdProfile)
  | setting (id value : Nat)
  | keep (v : Bool)
deriving DecidableEq, Repr

/-- The power die: its time in microseconds, channels, settings passed to it, hold and heartbeat (R669–R671), supply
off (0 none, 1 under, 2 over) with the counts of such changes, the factor F as V_nom and V_BAT in mV (R664), freeze
(R665), a discarded message to report (R31), the last telemetry, the PDIE_KEEP it was last sent (R804), and
keeper mode (R689). [Log 10: DESIGN CHOICE] -/
structure Pdie where
  us : Nat := 0
  chans : Map PdChan := []
  holdMs : Nat := 500
  hbMs : Nat := 10
  vnom : Nat := 13500
  compEn : Nat := 0
  lastHb : Nat := 0
  hold : Bool := false
  holdFrom : Nat := 0
  hbBack : Bool := false
  adopt : Bool := false
  supply : Nat := 0
  uvChanges : Nat := 0
  ovChanges : Nat := 0
  fNum : Nat := 1
  fDen : Nat := 1
  frozen : Bool := false
  limitEnded : Nat := 0
  disc : Bool := false
  vbat : Nat := 0
  temp : Int := 0
  seq : Nat := 0
  lastStatus : Nat := 0
  lastFuse : Nat := 0
  lastComp : Nat := 0
  safeDone : Bool := false
  keep : Bool := false
  keeper : Bool := false
deriving DecidableEq, Repr

/-- The gateway die's side of the die link: what the power die last reported, whether status messages arrive, the
device time of the last one in ns, settings under way, acknowledgements under way by mailbox, the ticks at which
requests were sent, and the tick of the last heartbeat. -/
structure DieLink where
  seen : Pdie := {}
  link : Bool := false
  sample : Nat := 0
  toDie : List DieMsg := []
  acks : List (Nat × Nat) := []
  sent : Map Nat := []
  hbTick : Option Nat := none
deriving DecidableEq, Repr


/-! ### Network sleep and the AON island (chapters 17 and 21) -/

/-- A keep-alive recognised on an NM bus and not yet handled: the bus (CAN controller c, or 32 + fabric port), its eight
bytes, and its stamp with its segment. -/
structure NmHeard where
  bus : Nat
  bytes : List Byte
  stamp : Stamp
  seg : Nat
deriving DecidableEq, Repr

/-- A node as the firmware knows it: bus, NODE, and the stamp of its last keep-alive with NEED 1 with its segment. -/
structure NmNode where
  bus : Nat
  node : Nat
  stamp : Stamp
  seg : Nat
deriving DecidableEq, Repr

/-- Network management (R679–R688): AWAKE of NM_STAY, deadlines by bus with their segments, SEQ of the keep-alives sent
by bus, ticks of the last keep-alive and of the last insomnia check, the tick until which WOKE is set, the tick at which
SLEEP_PREP was entered, keep-alives not yet handled, and nodes heard. -/
structure Nm where
  awake : Bool := false
  deadlines : Map (Stamp × Nat) := []
  seqTx : Map Nat := []
  kaTick : Option Nat := none
  checkTick : Nat := 0
  wokeUntil : Option Nat := none
  prepTick : Nat := 0
  deferred : Bool := false
  inbox : List NmHeard := []
  heard : List NmNode := []
deriving DecidableEq, Repr

/-- An entry of the insomnia log (R696): bus and NODE, DT in ns of the last keep-alive, and the decisions prevented. -/
structure Insomniac where
  bus : Nat
  node : Nat
  last : Int
  cnt : Nat
deriving DecidableEq, Repr

/-- A wake event: SRC as NM_WAKE_CAUSE codes it, index and IDENT. -/
structure WakeEvent where
  src : Nat
  index : Nat
  ident : Nat := 0
deriving DecidableEq, Repr

/-- The record of the last wake (R694): the event, whether it came after the commit point, and the AON ticks from sleep
entry. -/
structure WakeRecord where
  ev : WakeEvent
  latched : Bool
  ticks : Nat
deriving DecidableEq, Repr

/-- The AON island: its clock source and tick count (R687, R800), PWR_EN and whether the gateway die is out of reset
(R802), the straps BOOT_SEL and PDIE_KEEP (R803), the wake settings armed in SLEEP_PREP (R686), the last two samples of
the WAKE pins and PHY interrupts (R692, R693), events of the present tick, the sleep with its entry tick, the wake that
waits, the last wake's record, the insomnia log, TEST_MODE, and the AON tick of the next try of PWR_EN (R802).
[Log 10: DESIGN CHOICE] -/
structure Aon where
  crystal : Bool := false
  tick : Nat := 0
  pwrEn : Bool := true
  released : Bool := false
  bootSel : Nat := 0
  pdieKeep : Bool := false
  armed : Bool := false
  decoders : Map Nat := []
  wakePins : Nat := 0
  wakeOther : Nat := 0
  pins : Nat := 0
  pinsBefore : Nat := 0
  phys : Nat := 0
  physBefore : Nat := 0
  events : List WakeEvent := []
  asleep : Bool := false
  sleepTick : Nat := 0
  waking : Option WakeRecord := none
  record : WakeRecord := { ev := { src := 0, index := 0 }, latched := false, ticks := 0 }
  insomnia : List Insomniac := []
  testMode : Bool := false
  retryAt : Option Nat := none
  pwrTick : Nat := 0
deriving DecidableEq, Repr


/-! ### Faults (chapter 19) -/

/-- An error-log record (R643): DT in ns of detection, KIND, island, CLASS, SEQ and DETAIL. -/
structure ErrRec where
  dt : Int
  kind : Nat
  island : Nat
  cls : Nat
  seq : Nat
  detail : Nat
deriving DecidableEq, Repr

/-- A targeted test that runs or waits (R753, R757): the error, its log sequence, and whether the unit is lasting whatever
the test says (R756, R757). -/
structure FaultTest where
  rep : ErrReport
  seq : Nat
  running : Bool := false
  mustFail : Bool := false
deriving DecidableEq, Repr

/-- Error handling: the error log, oldest first, and its next SEQ, tests, transient classifications of each unit with
MBX_FW_HB (R756), retired DRAM pages (R763), fenced Caldera banks, hot-catalogue banks, AES cores, hash engines and TRNG
(R760), injection-test results by pair (R776), the most recent error (R775), the tick of the debug unlock (R643), and
whether power is failing, and the DRAM words, by offset / 64, that read as uncorrectable (R759). -/
structure Faults where
  log : List ErrRec := []
  nextSeq : Nat := 0
  tests : List FaultTest := []
  transients : List (Nat × Nat × Nat × Nat) := []
  retired : List Nat := []
  calBanks : Nat := 0
  hotBanks : Nat := 0
  aes : Nat := 0
  hash : Nat := 0
  trng : Bool := false
  inj : Map Nat := []
  last : Option ErrRec := none
  dbg : Option Int := none
  powerFail : Bool := false
  gaspWritten : Bool := false
  badWords : List Nat := []
deriving DecidableEq, Repr


/-! ### Flash, update and boot (chapters 20 and 21) -/

/-- A boot image slot: blank, the image the module was delivered with, or the bytes of a firmware image (R778). -/
inductive FwSlot
  | blank
  | delivered
  | image (bytes : List Byte)
deriving DecidableEq, Repr

/-- What the body of a configuration copy says. The spec gives the copy's frame (R765) and not the layout of its tables,
so the model keeps them as read: parameters by ID, table entries by partition, PDUs and those of EN 0, filters and meters, gate banks and the active ones,
leaf maps and node weights, mirror sessions, CAN buffers and shared lists, LIN tables, the FlexRay cluster, load-channel
profiles, and PHY registers as (port, register, value). [Log 26: DEDUCED] -/
structure CfgContent where
  params : List (Nat × Nat) := []
  entries : List (Nat × Entry) := []
  pdus : List (Nat × PduDesc) := []
  pdusOff : List Nat := []
  filters : Map Filter := []
  meters : List (Nat × Nat × Nat) := []
  gates : Map GateBank := []
  gatesOn : List (Nat × Nat) := []
  leafMaps : Map (Map Nat) := []
  weights : Map (Map Nat) := []
  mirrors : Map Nat := []
  canBuffers : Map (Map W32) := []
  canShared : Map (List Nat) := []
  lin : Map LinCtl := []
  flx : FlxCtl := {}
  profiles : List (Nat × PdProfile) := []
  phy : List (Nat × Nat × Nat) := []
deriving DecidableEq, Repr, Inhabited

/-- A configuration copy in flash (R765, R780): VERSION, the stored check word and whether it matches, the content, the
copy's bytes, and the header and SIG of the package it came from. [Log 26: DEDUCED] -/
structure CfgCopy where
  version : Nat := 0
  check : Nat := 0
  checkOk : Bool := true
  content : CfgContent := {}
  bytes : List Byte := []
  header : List Byte := []
  sig : List Byte := []
deriving DecidableEq, Repr

/-- Flash: two boot image slots, the two boot-selector records as (slot, sequence) (R794), configuration copies A and B,
the two last-gasp record slots with the order of writing (R769), and the fault slot (R764). The key-store journal stands
in the key store. [Log 8: PRESUMED] -/
structure Flash where
  slots : Map FwSlot := [(0, .delivered)]
  selector : Map (Nat × Nat) := []
  cfg : Map CfgCopy := []
  gasp : Map (Nat × List Byte) := []
  gaspSeq : Nat := 0
  faultSlot : List ErrReport := []
deriving DecidableEq, Repr

/-- An update session at its target (R636): number, KIND, BASE, NEW, BLOCKS, complete blocks, bytes received of the
blocks under way, PHASE, the reconstructed package, and the target address for UPD_STATUS. -/
structure UpdSession where
  num : Nat
  kind : Nat
  base : Nat
  new : Nat
  blocks : Nat
  received : Map (List Byte) := []
  parts : Map (List Byte) := []
  phase : Nat := 0
  image : List Byte := []
  target : Nat := 0
deriving DecidableEq, Repr

/-- A request passed to another module, waiting for its reply (R786): the mailbox, the target, the UPD type and the tick
of its sending. -/
structure UpdWait where
  mbx : Nat
  target : Nat
  typ : Nat
  tick : Nat
deriving DecidableEq, Repr

/-- The update service: the open session, the number last given, sessions begun here at other modules with the
blocks under way as (session, target, bytes by block), and requests passed on. -/
structure Update where
  session : Option UpdSession := none
  lastNum : Nat := 0
  remote : List (Nat × Nat × Map (List Byte)) := []
  waits : List UpdWait := []
deriving DecidableEq, Repr

/-- A handover under way (R787–R793): E, whether it has come, the mailbox of UPD_ACTIVATE, or the address of the module
whose request it was, the slot of the new image, the tick of E, the pairs that run the new image, the ports that were UP
at E and have not yet sent a hello, a heartbeat acknowledged, the detected errors that waited at E, and a failed check. -/
structure Handover where
  epoch : Stamp
  started : Bool := false
  mbx : Option Nat := none
  asker : Option Nat := none
  slot : Nat := 0
  tick : Nat := 0
  pairsNew : Nat := 0
  ports : List Nat := []
  heartbeat : Bool := false
  errors : Nat := 0
  failed : Bool := false
deriving DecidableEq, Repr

/-- Boot: stage 0 held in reset, 1 released, 2 firmware in BOOT, 3 running, 4 recovery, 5 stopped in BOOT; the slot in
use, FALLBACK, recovery status (R797, R798), what became of each configuration copy: CAUSE, REJ_AREA and REJ_ITEM (R591),
whether this start is a wake, whether a new root was asked for (R625), and E of the last handover. -/
structure Boot where
  stage : Nat := 0
  slot : Nat := 0
  fallback : Bool := false
  romStat : Nat := 0
  causes : List Nat := [2, 2]
  rejArea : Nat := 0
  rejItem : Nat := 0
  wake : Bool := false
  rootNew : Bool := false
  hoEpoch : Stamp := 0
deriving DecidableEq, Repr


/-! ### Host rings, archive and playback (chapter 18) -/

/-- A receive ring: posted buffers from HEAD as (address, size), the frames that wait for it with their egress
fabric ports, the buffers of the oldest
that are filled as (index, address, bytes), what is left of it, and the tick since which it waits (R720–R722). -/
structure RxRing where
  posted : List (Nat × Nat) := []
  queue : List (Nat × Sel) := []
  filled : List (Nat × Nat × List Byte) := []
  left : Option (List Byte) := none
  waitFrom : Option Nat := none
deriving DecidableEq, Repr

/-- An archive ring (R729–R735): bytes written since the start of the run, SEQ of the next record, the record starts
still whole with their lengths, oldest first, the mark with the byte count at which it was set, HELD, MARK_LOST of
ARC_STATUS, and records dropped under HOLD since the last acknowledgement. Positions count from the start of the run. -/
structure ArcRing where
  wr : Nat := 0
  seq : Nat := 0
  recs : List (Nat × Nat) := []
  mark : Option (Nat × Nat) := none
  held : Bool := false
  markLost : Bool := false
  dropped : Nat := 0
deriving DecidableEq, Repr

/-- A playback session (R736, R737): ring, offset of the next record, records left or none for up to the write offset
that held at the start, pass offset in ns, SEQ of the record before, and the records injected. -/
structure Playback where
  ring : Nat
  pos : Nat
  left : Option Nat
  bytes : Nat
  pass : Nat
  lastSeq : Option Nat := none
deriving DecidableEq, Repr

/-- The archive: its rings, the playback session, and the ring and count of ARC_PLAY_STAT and ARC_PLAY_CNT. -/
structure Archive where
  rings : Map ArcRing := []
  play : Option Playback := none
  playRing : Nat := 0
  playCnt : Nat := 0
deriving DecidableEq, Repr


/-! ### The whole module -/

/-- Everything the module holds except its DRAM and the waiting commands. Every field starts at its reset value.
[Log 10: DESIGN CHOICE] -/
structure Gw where
  /-- Island status codes of R21 by island index; an unlisted island reads 0b00. -/
  isl : Map Nat := []
  fw : Firmware := {}
  /-- Register values that differ from their reset value in the register map. -/
  regs : Map W32 := []
  /-- Latched high halves and companion words, by the offset of the register that returns them (R83, R439). -/
  latches : Map W32 := []
  /-- Parameter values that differ from their defaults (R572). -/
  params : Map Nat := []
  /-- What the module has put out so far (the model's own record). -/
  out : List Out := []
  log : List LogLine := []
  /-- The number of free values drawn so far (the model's own field). -/
  free : Nat := 0
  mbx : Map Mbx := []
  /-- Mailboxes rung and not yet taken up, in doorbell order (R555). -/
  rung : List Nat := []
  tb : Timebase := {}
  tevOut : Map TevOut := []
  tevIn : Map TevIn := []
  gptp : Map Gptp := []
  str : Strata := {}
  cal : Caldera := {}
  cat : Catalogue := {}
  rtr : Router := {}
  egr : Map EgrPort := []
  filters : Map Filter := []
  meters : Map Meter := []
  /-- Port set of each mirror session (R160), by the configuration image. -/
  mirrors : Map Nat := []
  eth : Map EthPort := []
  tis : Map TisPort := []
  /-- Egress ports whose content has become undefined (R108, R165, R273, R276, R531), bit f for Ff and 32+s for Ss. -/
  undefEgress : Nat := 0
  /-- Launch stamps of constant-residence streams have become undefined (R164, R261). -/
  undefLaunch : Bool := false
  lin : Map LinCtl := []
  flx : FlxCtl := {}
  /-- FV_last of each KIND 2 entry by catalogue index (R529). -/
  fvLast : Map Nat := []
  txRing : Map TxRing := []
  cryQ : Map CryQueue := []
  keys : KeyStore := {}
  /-- Engines in service: AES cores in [7:0], hash engines in [9:8]; and the TRNG's health (R493, R538). -/
  cryUp : Nat := 0
  trngOk : Bool := false
  /-- Slots whose derived keys the cache holds, most recent first (R506). -/
  cryCache : List Nat := []
  mka : Map Mka := []
  /-- FV_tx and the committed reservation FV_res of each KIND 3 entry, and the last FV_last journaled for each KIND 2
  entry, by catalogue index (R530–R532). -/
  fvTx : Map Nat := []
  fvRes : Map Nat := []
  fvJrnl : Map Nat := []
  farLog : List FarEntry := []
  /-- The HOST_SEL strap at SPI (R703). -/
  hostSpi : Bool := false
  can : Map CanCtl := []
  capFifo : Map CapFifo := []
  /-- The tick at which the CANX island started, from which its counters run (R324). -/
  canStart : Nat := 0
  /-- CAN, LIN and FlexRay buses whose content has become undefined (R360, R531), bit i for source index i. -/
  undefBus : Nat := 0
  /-- Detected errors not yet handled, in order of detection (R752, R753). -/
  detected : List ErrReport := []
  /-- The two Curator pairs (R744). -/
  pairs : Map Pair := []
  chn : Chain := {}
  rmt : Bridge := {}
  /-- The power die, and the gateway die's side of the die link. -/
  pdie : Pdie := {}
  die : DieLink := {}
  /-- The part is a Z96N, which has no power die (R2–R5). -/
  partN : Bool := false
  nm : Nm := {}
  aon : Aon := {}
  flt : Faults := {}
  flash : Flash := {}
  upd : Update := {}
  ho : Option Handover := none
  boot : Boot := {}
  rxRing : Map RxRing := []
  arc : Archive := {}
  /-- Decisions of the firmware that wait for the end of HANDOVER (R790). -/
  deferred : List FwChange := []
  /-- Islands in a per-island reset, with the tick from which each may start (R810). -/
  islRst : Map Nat := []
  /-- The ball OSPI_RST_N: true once the boot ROM has released it (R825). -/
  ospiRun : Bool := false
  /-- Ticks at which the firmware's periodic actions last took place, by action (the model's own field). -/
  timers : Map Nat := []
deriving DecidableEq, Repr

/-- The machine: the module, its DRAM as listed bytes in canonical form (R29), and the commands that wait, first in,
first out. [Log 1: DESIGN CHOICE] -/
structure State where
  gw : Gw
  dram : List Host.Cell
  pending : List Instr
deriving DecidableEq, Repr

/-- The module at the release of PORST_N (R21, R801–R806): every island but AON in reset, every register at its reset
value, the firmware not started, nothing in DRAM and no command waiting.
[Log 8: PRESUMED, 9: DESIGN CHOICE, 10: DESIGN CHOICE] -/
def State.reset : State :=
  { gw := { isl := [(15, 1)] }, dram := [], pending := [] }

end Sys2Proof.Machine
end

