-- ==== Sys2Proof/Machine/Ops.lean ====
section
/-! DEFINITION. The named operations over the module's registers, parameters, time and record of outputs. Register
reads and writes go through here; the flag and counter operations stand in Flags.lean. -/

namespace Sys2Proof.Machine

/-! ### Registers -/

/-- The reset value of the register at an offset. -/
def regReset (off : Nat) : W32 :=
  match findReg off with
  | some (r, _) => w32 r.reset
  | none => 0

/-- The stored value of a register: its reset value until it differs (R7). -/
def Gw.reg (g : Gw) (off : Nat) : W32 := mgetD g.regs off (regReset off)

def Gw.regN (g : Gw) (off : Nat) : Nat := (g.reg off).toNat

/-- A register's stored value set. -/
def Gw.setReg (g : Gw) (off : Nat) (v : W32) : Gw := { g with regs := mput g.regs off v (regReset off) }

def Gw.setRegN (g : Gw) (off v : Nat) : Gw := g.setReg off (w32 v)

/-- The latched companion of a latching read (R83, R439), set. -/
def Gw.latch (g : Gw) (off : Nat) (v : W32) : Gw := { g with latches := mput g.latches off v (regReset off) }

/-- A change of register field `[hi:lo]`. -/
def setBits (old hi lo v : Nat) : Nat :=
  old - bits old hi lo * 2 ^ lo + (v % 2 ^ (hi - lo + 1)) * 2 ^ lo

/-! ### Parameters -/

/-- A parameter's value in force (R572). Defaults depend on stored values only. -/
def Gw.param (g : Gw) (id : Nat) : Nat := mgetD g.params id (paramDefault (fun i => mgetD g.params i 0x18000000) id)

def Gw.setParam (g : Gw) (id v : Nat) : Gw := { g with params := mset g.params id v }

/-- The value of a signed 32-bit parameter. -/
def Gw.paramI (g : Gw) (id : Nat) : Int := asI32 (g.param id)

/-! ### Time (R22, R47, R394) -/

/-- DT80 at the last tick, in 2⁻⁴⁰ ns with the residue cut off. -/
def Timebase.dt40 (t : Timebase) : Nat := t.acc.toNat / 16777216 * 16777216

/-- The stamp of an event at phase `p` of the current tick: floor(8 × (D_t + p × INCR / 16)) (R22). -/
def Timebase.stamp (t : Timebase) (phase : Nat) : Stamp := Int.ofNat ((t.dt40 * 16 + phase * t.incr) / 2 ^ 41)

/-- The stamp of the current tick. -/
def Gw.now (g : Gw) : Stamp := g.tb.stamp 0

/-- The latest stamp of the current tick. -/
def Gw.nowLast (g : Gw) : Stamp := g.tb.stamp 15

/-- The stamp that the stamp unit of an island forms at phase `p`: its DT80 replica may be a tick off until the next tick (R22,
R25). -/
def Gw.stampIn (g : Gw) (island phase : Nat) : Stamp :=
  (Int.ofNat (g.tb.dt40 * 16 + phase * g.tb.incr) + 16 * mgetD g.tb.replica island 0 * Int.ofNat g.tb.incr) / 2 ^ 41

/-- Device time on the continuation of the old time while an old segment closes (R75), else device time. -/
def Gw.orderNow (g : Gw) : Stamp :=
  match g.str.closing with
  | none => g.now
  | some c => ((Int.ofNat g.tb.dt40 - c.delta * 16777216) * 8) / 2 ^ 40

/-- H and H_X in ns (R49). -/
def Gw.hNs (g : Gw) : Nat := g.param Par.strHNs
def Gw.hxNs (g : Gw) : Nat := g.param Par.strHxNs

/-- The frontier set from the present time alone, where a step begins a segment with no older one to close (R47, R77). -/
def Gw.freshFrontier (g : Gw) : Gw := { g with str := { g.str with frontier := g.now - 8 * Int.ofNat g.hNs } }

/-- Ticks of one millisecond at the nominal rate, for the firmware's counters and delays. -/
def ticksPerMs : Nat := 500000

/-- A stamp of segment `a` translated into segment `b` (R859): every step between them adds floor(8 × δ).
[Log 30: DEDUCED] -/
def Gw.translate (g : Gw) (t : Stamp) (a b : Nat) : Stamp :=
  t + (g.str.shift.foldl (fun acc e => if a < e.1 && e.1 ≤ b then acc + e.2 else acc) 0)

/-- The ingress stamp of a frame as records and descriptors show it: in the segment of its admission stamp (R859). -/
def Gw.shownIngress (g : Gw) (x : Frame) : Stamp := g.translate x.ing x.ingSeg x.seg

/-! ### Outputs, log and free values -/

/-- [Log 4: DESIGN CHOICE] -/
def Gw.emit (g : Gw) (o : Out) : Gw := { g with out := g.out ++ [o] }

/-- [Log 4: DESIGN CHOICE] -/
def Gw.emitAll (g : Gw) (os : List Out) : Gw := { g with out := g.out ++ os }

/-- A line in the firmware's log, with the present device time (R405 and the like). [Log 4: DESIGN CHOICE] -/
def Gw.note (g : Gw) (what : String) (args : List Int := []) : Gw :=
  { g with log := g.log ++ [{ what := what, at' := g.now, args := args }] }

/-- A line in the firmware's log under a stamp that the line's rule names (R216). [Log 4: DESIGN CHOICE] -/
def Gw.noteAt (g : Gw) (what : String) (args : List Int) (t : Stamp) : Gw :=
  { g with log := g.log ++ [{ what := what, at' := t, args := args }] }

/-- The next free-value number taken. [Log 5: DESIGN CHOICE] -/
def Gw.draw (g : Gw) : Gw := { g with free := g.free + 1 }

/-- Ticks of `n` intervals of 2^l seconds, `l` a signed byte. -/
def logTicks (n l : Nat) : Nat := if 128 ≤ l then n * 500000000 / 2 ^ (256 - l) else n * 500000000 * 2 ^ l

/-- A periodic action of the firmware takes place when its period, in ticks, has gone by since the last one; the first may
take place at once. [Log 176: DESIGN CHOICE] -/
def Gw.every (g : Gw) (key period : Nat) (f : Gw → Gw) : Gw :=
  if (match mget? g.timers key with
      | some t => decide (t + period ≤ g.tb.tick)
      | none => true) then f { g with timers := mset g.timers key g.tb.tick }
  else g

/-- Keys of the periodic actions: quality in HOLDOVER, hellos, topology announcements, link calibration by port, the journal
of received freshness values, gPTP timers by instance, and bus time messages by controller. -/
def timerHoldover : Nat := 0
def timerHello : Nat := 1
def timerTopology : Nat := 2
def timerCal (k : Nat) : Nat := 3 + k
def timerJournal : Nat := 5
def timerSync (i : Nat) : Nat := 8 + i
def timerAnnounce (i : Nat) : Nat := 12 + i
def timerPdelay (i : Nat) : Nat := 16 + i
def timerBtm (c : Nat) : Nat := 32 + c

/-! ### Islands and firmware state -/

/-- An island is running (R21). -/
def Gw.islOn (g : Gw) (i : Nat) : Bool := mgetD g.isl i 0 = 1

/-- An island is fenced after a lasting fault (R21). -/
def Gw.islFenced (g : Gw) (i : Nat) : Bool := mgetD g.isl i 0 = 2

def Gw.setIsl (g : Gw) (i code : Nat) : Gw := { g with isl := mput g.isl i code 0 }

/-- The code of a firmware state (R561). -/
def FwState.code : FwState → Nat
  | .boot => 0
  | .config => 1
  | .run => 2
  | .degraded => 3
  | .sleepPrep => 4
  | .sleep => 5
  | .handover => 6

/-- Full or reduced service (R561). -/
def Gw.serving (g : Gw) : Bool := g.fw.state = .run || g.fw.state = .degraded

/-- The states in which the module gives its service: RUN, DEGRADED, and SLEEP_PREP and HANDOVER, which keep it
(R561). -/
def Gw.inService (g : Gw) : Bool := g.serving || g.fw.state = .sleepPrep || g.fw.state = .handover

/-- The state after an answer: the module changed, memory and queue as before. -/
def State.withGw (s : State) (g : Gw) : State := { s with gw := g }

/-- A command whose whole effect is on the module outside DRAM. -/
def onGw (f : Gw → Gw) (s : State) : State := { s with gw := f s.gw }

/-! ### Bytes of Ethernet frames -/

/-- A VLAN tag is recognised by TPID 0x8100 or 0x88A8 after the addresses (R280). -/
def hasTag (bs : List Byte) : Bool :=
  let t := fromBe (slice bs 12 2)
  bs.length ≥ 16 && (t = 0x8100 || t = 0x88A8)

/-- The 48-bit address at a byte offset, first wire byte lowest (R857). -/
def macAt (bs : List Byte) (off : Nat) : Nat := fromLe (slice bs off 6)

/-- Tag control information, 0 when untagged. -/
def tciOf (bs : List Byte) : Nat := if hasTag bs then fromBe (slice bs 14 2) else 0

/-- VLAN identifier; 0 for untagged and priority-tagged frames (R146). -/
def vidOf (bs : List Byte) : Nat := bits (tciOf bs) 11 0

/-- EtherType after any VLAN tag. -/
def etypeOf (bs : List Byte) : Nat := fromBe (slice bs (if hasTag bs then 16 else 12) 2)

/-- Offset of the first byte after the EtherType. -/
def payloadOff (bs : List Byte) : Nat := if hasTag bs then 18 else 14

/-- A frame without its FCS, and with a fresh one (R281, R715). -/
def stripFcs (bs : List Byte) : List Byte := bs.take (bs.length - 4)
def withFcs (bs : List Byte) : List Byte := bs ++ fcsOf bs

/-- A VLAN tag inserted after the source address of a frame without FCS (R277, R281). -/
def insertTag (bs : List Byte) (pcp vid : Nat) : List Byte :=
  bs.take 12 ++ beBytes 2 0x8100 ++ beBytes 2 (pcp * 8192 + vid) ++ bs.drop 12

/-- The tag removed (R278). -/
def removeTag (bs : List Byte) : List Byte := if hasTag bs then bs.take 12 ++ bs.drop 16 else bs

def broadcast : Nat := 0xFFFFFFFFFFFF

/-- The 16-byte header of the internal form (R194). -/
def busHeader (b : BusFrame) : List Byte :=
  leBytes 1 b.bus ++
  leBytes 1 (atBit 7 b.xlf + atBit 6 b.fdf + atBit 5 b.brs + atBit 4 b.esi + atBit 3 b.rtr + atBit 2 b.sealedOk) ++
  leBytes 2 b.data.length ++ leBytes 4 b.ident ++ leBytes 1 b.sdt ++ leBytes 1 b.vcid ++
  leBytes 1 (atBit 0 b.sec) ++ leBytes 1 b.cycle ++ leBytes 4 b.af

/-- The bytes of a frame's body as stored: the Ethernet frame, or the internal form. -/
def Body.bytes : Body → List Byte
  | .eth bs => bs
  | .bus b => busHeader b ++ b.data

/-- The length L of R91. -/
def Frame.len (f : Frame) : Nat := f.body.bytes.length

/-- The cells of a frame of L bytes (R91). -/
def cellsOf (len : Nat) : Nat := ceilDiv len 64

/-! ### Uncorrectable DRAM words (R759) -/

/-- A word of 64 bytes reads as uncorrectable from now on. [Log 136: DEDUCED] -/
def Gw.spoil (g : Gw) (w : Nat) : Gw :=
  if g.flt.badWords.contains w then g else { g with flt := { g.flt with badWords := g.flt.badWords ++ [w] } }

/-- A word of 64 bytes written whole is good again. -/
def overwritten (addr n w : Nat) : Bool := addr ≤ 64 * w && 64 * w + 64 ≤ addr + n

/-- `n` bytes written from `addr` on: the words written whole are good again. [Log 136: DEDUCED] -/
def Gw.mend (g : Gw) (addr n : Nat) : Gw :=
  { g with flt := { g.flt with badWords := g.flt.badWords.filter (fun w => !overwritten addr n w) } }

/-- A word among `n` bytes from `addr` on is uncorrectable. -/
def Gw.spoilt (g : Gw) (addr n : Nat) : Bool := g.flt.badWords.any (fun w => addr < 64 * w + 64 && 64 * w < addr + n)

end Sys2Proof.Machine
end

