-- ==== Sys2Proof/Machine/Flags.lean ====
section
/-! DEFINITION. Sticky flags and counters: what a W1C flag bit, an RC counter, a saturating count and a read or write
by the access codes of R9 do, and what a change of the firmware's state brings. -/

namespace Sys2Proof.Machine

/-- Hardware sets bits of a W1C flag register (R9, R10). -/
def Gw.flag (g : Gw) (off mask : Nat) : Gw := g.setReg off (g.reg off ||| w32 mask)

/-- A counter advances and stops at its all-ones value (R12). [Log 16: DEDUCED] -/
def satAdd (v n : Nat) : Nat := min (v + n) 0xFFFFFFFF

/-- [Log 16: DEDUCED] -/
def Gw.bumpN (g : Gw) (off n : Nat) : Gw := g.setRegN off (satAdd (g.regN off) n)

/-- [Log 16: DEDUCED] -/
def Gw.bump (g : Gw) (off : Nat) : Gw := g.bumpN off 1

/-! ### The firmware's state, and the deadlines of the NM buses that start with it -/

/-- NM buses: CAN controllers c, and fabric ports f as 32 + f. [Log 128: DEDUCED] -/
def Gw.nmBuses (g : Gw) : List Nat :=
  bitList 32 (g.param Par.nmCanMask) ++
    ((bitList 16 (g.param Par.nmEthMask)).filter (· ≠ 13)).map (· + 32)

/-- NM_TIMEOUT_MS in ST64 units. -/
def Gw.nmTimeout (g : Gw) : Int := 8000000 * Int.ofNat (g.param Par.nmTimeoutMs)

/-- Every deadline set to now plus NM_TIMEOUT_MS (R684); the checks of R696 start. -/
def Gw.freshDeadlines (g : Gw) : Gw :=
  { g with nm := { g.nm with deadlines := (g.nmBuses.foldl (fun (m : Map (Stamp × Nat)) b =>
      mset m b (g.now + g.nmTimeout, g.tb.seg)) []), checkTick := g.tb.tick } }

/-- The firmware changes its state, which sets STATE_CHG in MBX_FLAG (R562, R563, R577); at each entry to RUN or DEGRADED the
deadlines of the NM buses start anew (R684). -/
def Gw.setFw (g : Gw) (st : FwState) : Gw :=
  if g.fw.state = st then g
  else
    let g := { g with fw := { g.fw with state := st } }.flag Reg.mbxFlag 0x10000000
    if st = .run || st = .degraded then g.freshDeadlines else g

/-- RUN becomes DEGRADED (R562). -/
def Gw.degrade (g : Gw) : Gw := if g.fw.state = .run then g.setFw .degraded else g

/-- A hardware error is detected: its flag in LCK_FLAG, and the report for the handling pair (R752, R774). -/
def Gw.detect (g : Gw) (kind detail island unit : Nat) : Gw :=
  let r : ErrReport := { kind := kind, detail := detail, island := island, unit := unit }
  { g with detected := g.detected ++ [r] }.flag Reg.lckFlag (2 ^ (32 - kind))

/-- What a write leaves in a register by its access codes (R9): RW bits are set, W1C bits written 1 are cleared, W1S
bits written 1 are set, every other bit stays. -/
def RegRow.written (r : RegRow) (old v : W32) : W32 :=
  let rw := w32 r.rw
  let kept := old &&& ~~~rw
  ((kept ||| (v &&& rw)) &&& ~~~(v &&& w32 r.w1c)) ||| (v &&& w32 r.w1s)

/-- What stands in a register after a read: RC bits are cleared (R9, R11). -/
def RegRow.afterRead (r : RegRow) (old : W32) : W32 := old &&& ~~~(w32 r.rc)

/-- What a read returns of a stored value: WO bits read 0 (R9). -/
def RegRow.readable (r : RegRow) (old : W32) : W32 := old &&& ~~~(w32 r.wo)

/-- A plain write by access codes to a register of the map. -/
def Gw.plainWrite (g : Gw) (off : Nat) (v : W32) : Gw :=
  match findReg off with
  | some (r, _) => g.setReg off (r.written (g.reg off) v)
  | none => g

/-- The clearing effect of a read. [Log 16: DEDUCED] -/
def Gw.readClear (g : Gw) (off : Nat) : Gw :=
  match findReg off with
  | some (r, _) => g.setReg off (r.afterRead (g.reg off))
  | none => g

end Sys2Proof.Machine
end

