-- ==== Sys2Proof/Machine/Interrupts.lean ====
section
/-! DEFINITION. Interrupt sources, vectors and messages (R551, R710–R713), and the answer of a command: its effect,
then the MSI-X messages of the vectors that became pending by it. -/

namespace Sys2Proof.Machine

/-- The ring position `i` lies from `a` up to but not including `b`, in a ring of `n` entries. -/
def inRing (n a b i : Nat) : Bool := if a ≤ b then a ≤ i && i < b else a ≤ i && i < n || i < b

/-- A mailbox has its DONE and its IEN bit set (R551). -/
def Gw.mbxSource (g : Gw) : Bool :=
  (g.regN (Reg.mbxDone 0) &&& g.regN (Reg.mbxIen 0)) ≠ 0 || (g.regN (Reg.mbxDone 1) &&& g.regN (Reg.mbxIen 1)) ≠ 0

/-- The flag register of sources 1–15 (R710). -/
def blockFlag (s : Nat) : Nat :=
  [0, Reg.fabStrOvrFlag, Reg.fabCalFlag, Reg.catFlag, Reg.sigFlag, Reg.egrFlag, Reg.polFlag, Reg.tbFlag, Reg.rmtFlag,
   Reg.chnFlag, Reg.cryFlag, Reg.pwrFlag, Reg.nmFlag, Reg.sysFlag, Reg.hdmaFlag, Reg.arcFlag].getD s 0

/-- The condition of one source (R710). -/
def Gw.raised (g : Gw) (s : Nat) : Bool :=
  if s = 0 then g.mbxSource
  else if s = 8 then g.regN Reg.rmtFlag ≠ 0 || 1 ≤ g.farLog.length
  else if s ≤ 15 then g.regN (blockFlag s) ≠ 0
  else if s ≤ 29 then g.regN (Reg.ethFlag (s - 16)) ≠ 0
  else if s ≤ 43 then bits (g.regN (Reg.tsqStat (s - 30))) 22 16 ≤ (mgetD g.eth (s - 30) {}).tsq.length
  else if s ≤ 59 then
    bits (g.regN (Reg.tevInCfg (s - 44))) 21 16 ≤ (mgetD g.tevIn (s - 44) {}).queue.length ||
      g.regN (Reg.tevInStat (s - 44)) ≠ 0
  else if s ≤ 91 then
    g.regN (Reg.canFlag (s - 60)) ≠ 0 || g.regN (Reg.canMbEvtLo (s - 60)) ≠ 0 || g.regN (Reg.canMbEvtHi (s - 60)) ≠ 0
  else if s ≤ 103 then g.regN (Reg.linFlag (s - 92)) ≠ 0
  else if s = 104 then g.regN Reg.flxFlag ≠ 0
  else if s ≤ 136 then g.regN (Reg.hdmaRxHead (s - 105)) ≠ g.regN (Reg.hdmaRxSeen (s - 105))
  else if s ≤ 168 then
    let r := s - 137
    (mgetD g.txRing r {}).irqDone.any (inRing 4096 (g.regN (Reg.hdmaTxSeen r)) (g.regN (Reg.hdmaTxHead r)))
  else if s ≤ 180 then
    let q := s - 169
    (mgetD g.cryQ q {}).irqDone.any (inRing 256 (g.regN (Reg.cryQChead q)) (g.regN (Reg.cryQCtail q)))
  else if s ≤ 226 then g.regN (Reg.arcCapStat (s - 181)) ≠ 0
  else false

/-- The sources whose enable bit is 1, ascending. -/
def Gw.enabledSources (g : Gw) : List Nat :=
  (List.range 8).flatMap (fun n => (bitList 32 (g.regN (Reg.intEn n))).map (fun i => 32 * n + i))

/-- The vector of a source (R711). -/
def Gw.vectorOf (g : Gw) (s : Nat) : Nat :=
  if 169 ≤ s && s ≤ 180 then bits (g.regN (Reg.cryQCtl (s - 169))) 5 0 else bits (g.regN (Reg.intVec s)) 5 0

/-- The pending vectors, without repeats. -/
def Gw.pendingVectors (g : Gw) : List Nat := ((g.enabledSources.filter g.raised).map g.vectorOf).eraseDups

/-- INT_N is driven low (R713). -/
def Gw.intLow (g : Gw) : Bool := (g.enabledSources.filter g.raised).any (fun s => bit (g.regN (Reg.intVec s)) 31)

/-- The MSI-X message of a vector: sent with the address and data of its table entry, or held in the PBA while the
vector is masked (R701, R712). Under HOST_SEL at SPI no message is sent (R703). [Log 59: PRESUMED] -/
def Gw.message (g : Gw) (v : Nat) : Gw :=
  if g.hostSpi then g
  else if bit (g.regN (Reg.msixCtl v)) 0 then
    g.setReg (Reg.msixPba (v / 32)) (g.reg (Reg.msixPba (v / 32)) ||| w32 (2 ^ (v % 32)))
  else g.emit (.msix v (g.regN (Reg.msixAddrLo v) + 4294967296 * g.regN (Reg.msixAddrHi v)) (g.regN (Reg.msixData v)))

/-- A vector whose mask is cleared sends the message that the PBA holds (R712). [Log 59: PRESUMED] -/
def Gw.unmasked (g : Gw) (v : Nat) : Gw :=
  let w := g.regN (Reg.msixPba (v / 32))
  if bit w (v % 32) && !bit (g.regN (Reg.msixCtl v)) 0 then
    (g.setRegN (Reg.msixPba (v / 32)) (w - 2 ^ (v % 32))).message v
  else g

/-- The messages and the pin change that lead from one module state to the next (R712, R713). [Log 59: PRESUMED] -/
def Gw.interrupts (old new : Gw) : Gw :=
  let was := old.pendingVectors
  let g := (new.pendingVectors.filter (fun v => !was.contains v)).foldl Gw.message new
  if old.intLow = new.intLow then g else g.emit (.pin "INT_N" 0 (!new.intLow) new.now)

/-- The answer of a command whose effect is `f`: the next state, with the interrupt outputs of the change. -/
def answer (f : State → State) (s : State) : Host.Outcome State Fault Refusal :=
  let t := f s
  .next { t with gw := s.gw.interrupts t.gw }

end Sys2Proof.Machine
end

