-- ==== Sys2Proof/Machine/Capture.lean ====
section
/-! DEFINITION. The capture FIFOs (R725–R728) and their commands CAPTURE_LOST_ITEM and ARC_CAP_D0_READ. -/

namespace Sys2Proof.Machine

def Gw.fifo (g : Gw) (s : Nat) : CapFifo := mgetD g.capFifo s {}

/-- Capture of source `s` is enabled (R725). -/
def Gw.capOn (g : Gw) (s : Nat) : Bool := bit (g.regN (Reg.arcCapEn (s / 32))) (s % 32)

/-- Bytes appended; crossing LEVEL upward sets LVL (R728). [Log 132: DEDUCED] -/
def Gw.capAppend (g : Gw) (s : Nat) (bs : List Byte) : Gw :=
  let q := g.fifo s
  let level := bits (g.regN (Reg.arcCapCfg s)) 12 0
  let new := q.bytes ++ bs
  let g := { g with capFifo := mset g.capFifo s { q with bytes := new } }
  if q.bytes.length < level && level ≤ new.length then g.flag (Reg.arcCapStat s) 0x80000000 else g

/-- The 12-byte header of an item (R726). [Log 132: DEDUCED] -/
def capHeader (len kind flags cnt ident : Nat) : List Byte :=
  leBytes 2 len ++ leBytes 1 kind ++ leBytes 1 flags ++ leBytes 4 cnt ++ leBytes 4 ident

/-- The LOST item that stands before the next item, once room exists (R725). -/
def Gw.capLost (g : Gw) (s : Nat) : Gw :=
  let q := g.fifo s
  if q.lost = 0 || 4096 < q.bytes.length + 12 then g
  else
    let g := { g with capFifo := mset g.capFifo s { q with lost := 0 } }
    g.capAppend s (capHeader 12 3 0 q.lost 0)

/-- One capture item; one that is dropped sets CAP_LOST (R725, R726). [Log 132: DEDUCED] -/
def Gw.capItem (g : Gw) (s kind flags cnt ident : Nat) (data : List Byte) : Gw :=
  if !g.capOn s then g
  else
    let g := g.capLost s
    let q := g.fifo s
    let n := 12 + data.length
    if q.lost ≠ 0 || 4096 < q.bytes.length + n then
      ({ g with capFifo := mset g.capFifo s { q with lost := q.lost + 1 } }.bump (Reg.arcCapLost s)).flag
        Reg.arcFlag 0x400
    else g.capAppend s (capHeader n kind flags cnt ident ++ data)

/-- FLAGS of a frame's item: XLF, FDF, BRS, ESI, RTR and IDE in [5:0]. -/
def capFlags (b : BusFrame) : Nat :=
  atBit 5 b.xlf + atBit 4 b.fdf + atBit 3 b.brs + atBit 2 b.esi + atBit 1 b.rtr + atBit 0 (b.bus ≤ 31 && bit b.ident 31)

def execCaptureLostItem (n : Nat) (s : State) : Host.Outcome State Fault Refusal :=
  answer (onGw (fun g => if n < 46 then g.capLost n else g)) s

/-- Words latched at the offsets of ARC_CAP_D0_s to ARC_CAP_D7_s. -/
def Gw.capLatch (g : Gw) (s : Nat) (ws : List W32) : Gw :=
  ((List.range 8).zip ws).foldl (fun g iw => g.setReg (Reg.arcCapD0 s + 4 * iw.1) iw.2) g

/-- A read of ARC_CAP_D0_s: up to 32 bytes leave the FIFO and are latched (R727). -/
def Gw.readCap (g : Gw) (s : Nat) : Gw × W32 :=
  let q := g.fifo s
  if q.bytes.isEmpty then
    let g := (g.capLatch s [w32 0xA5A50000, 0, 0, 0, 0, 0, 0, 0]).setRegN (Reg.arcCapTag s) 0
    (g, w32 0xA5A50000)
  else
    let head := q.bytes.take 32
    let ws := wordsOf (padTo 32 head)
    let g := { g with capFifo := mset g.capFifo s { q with bytes := q.bytes.drop 32 } }
    let g := (g.capLatch s ws).setRegN (Reg.arcCapTag s) head.length
    (g, ws.headD 0)

def execArcCapD0Read (n : Nat) (s : State) : Host.Outcome State Fault Refusal :=
  answer (onGw (fun g => if n < 46 then let r := g.readCap n; r.1.emit (.readData (Reg.arcCapD0 n) r.2) else g)) s

end Sys2Proof.Machine
end

