-- ==== Sys2Proof/Machine/Memory.lean ====
section
/-! DEFINITION. DRAM: 7 GiB of usable bytes (R29, R702), kept as a list of listed bytes with strictly rising addresses.
A byte nothing has written reads 0 (a design choice: the spec gives DRAM no reset contents), so a written 0 is not
listed. The regions of R29 lie one after another in the order of R702. -/

namespace Sys2Proof.Machine

/-- Usable DRAM in bytes: 7,168 MiB (R29). -/
def dramSize : Nat := 7168 * 1048576

/-- What an unlisted byte reads as. [Log 6: DESIGN CHOICE] -/
def dramDefault : Byte := 0

/-- The byte at an address. [Log 6: DESIGN CHOICE] -/
def dramByte (d : List Host.Cell) (a : Nat) : Byte := mgetD d a dramDefault

/-- One byte written; an address outside usable DRAM does not exist and keeps nothing (R702). [Log 6: DESIGN CHOICE] -/
def dramPut (d : List Host.Cell) (a : Nat) (b : Byte) : List Host.Cell :=
  if a < dramSize then mput d a b dramDefault else d

/-- Bytes written from an address upward. -/
def dramWrite (d : List Host.Cell) (a : Nat) : List Byte → List Host.Cell
  | [] => d
  | b :: r => dramWrite (dramPut d a b) (a + 1) r

/-- Bytes read from an address upward. -/
def dramRead (d : List Host.Cell) (a : Nat) : Nat → List Byte
  | 0 => []
  | n + 1 => dramByte d a :: dramRead d (a + 1) n

/-- The canonical form: addresses strictly rising, inside usable DRAM, and no listed byte equal to the default.
[Log 6: DESIGN CHOICE] -/
def dramWf (d : List Host.Cell) : Bool := mwf d && d.all (fun c => c.1 < dramSize && c.2 != dramDefault)

def mib : Nat := 1048576

/-- Size in MiB of region `k` of R702: Curator, store room, archive, vitrine, update staging, host shared. -/
def Gw.regionMib (g : Gw) (k : Nat) : Nat :=
  [512, g.param Par.sysDramStoreMib, g.param Par.sysDramArchiveMib, g.param Par.sysDramVitrineMib, 128,
   g.param Par.sysDramHostshMib].getD k 0

/-- First MiB of region `k`. -/
def Gw.regionBase (g : Gw) (k : Nat) : Nat := ((List.range k).map g.regionMib).sum

end Sys2Proof.Machine
end

