-- ==== Sys2Proof/Machine/Operands.lean ====
section
/-! DEFINITION. The operand forms of mailbox commands: header, length, apply-at and payload words of a mailbox
(R545–R548), the reply (R551, R552), the queue of mailbox-driven changes (R36, R58–R60) and the status codes of
R558. -/

namespace Sys2Proof.Machine

/-! ### Status codes (R558) -/

def stOk : Nat := 0x00
def stBusy : Nat := 0x01
def stBadCmd : Nat := 0x02
def stBadArg : Nat := 0x03
def stState : Nat := 0x04
def stPresence : Nat := 0x05
def stNoRoom : Nat := 0x06
def stNotFound : Nat := 0x07
def stKeyRevoked : Nat := 0x08
def stRemoteFail : Nat := 0x09
def stTimeout : Nat := 0x0A
def stVerifyFail : Nat := 0x0B
def stIncompatible : Nat := 0x0C
def stDegraded : Nat := 0x0D
def stNotPresent : Nat := 0x0E
def stLocked : Nat := 0x0F

/-! ### Mailbox words -/

/-- The offset of word `i` of mailbox `m` (R545). -/
def mbxOff (m i : Nat) : Nat := Reg.mbxWord (256 * m + i)

def Gw.mbxWord (g : Gw) (m i : Nat) : Nat := g.regN (mbxOff m i)

/-- Payload word `i` of the request. -/
def Gw.arg (g : Gw) (m i : Nat) : Nat := g.mbxWord m (4 + i)

def Gw.reqCode (g : Gw) (m : Nat) : Nat := bits (g.mbxWord m 0) 31 16
def Gw.reqSeq (g : Gw) (m : Nat) : Nat := bits (g.mbxWord m 0) 15 8
def Gw.reqDir (g : Gw) (m : Nat) : Bool := bit (g.mbxWord m 0) 7

/-- The payload length N (R547). -/
def Gw.reqLen (g : Gw) (m : Nat) : Nat := 16 * bits (g.mbxWord m 1) 3 0 + bits (g.mbxWord m 0) 3 0

/-- The requested apply-at stamp. -/
def Gw.reqApply (g : Gw) (m : Nat) : Nat := g.mbxWord m 2 + 4294967296 * g.mbxWord m 3

def Gw.mbxAt (g : Gw) (m : Nat) : Mbx := mgetD g.mbx m {}

def Gw.setMbx (g : Gw) (m : Nat) (x : Mbx) : Gw := { g with mbx := mput g.mbx m x {} }

/-- `n` payload bytes of a request starting at payload word `i`. -/
def Gw.argBytes (g : Gw) (m i n : Nat) : List Byte :=
  ((List.range (ceilDiv n 4)).flatMap (fun k => leBytes 4 (g.arg m (i + k)))).take n

/-- Two payload words as one 64-bit number, low word first. -/
def Gw.arg64 (g : Gw) (m i : Nat) : Nat := g.arg m i + 4294967296 * g.arg m (i + 1)

/-- A number as `n` 32-bit words, low word first. -/
def splitWords (n v : Nat) : List Nat := (List.range n).map (fun i => v / 2 ^ (32 * i) % 4294967296)

/-- Bytes as payload words, byte 0 in bits [7:0]. -/
def byteWords (bs : List Byte) : List Nat := (wordsOf bs).map BitVec.toNat

/-! ### Replies -/

/-- What a command gives back: a status and payload words, or nothing yet when its reply comes with a later event. -/
structure Answer where
  status : Nat := 0
  words : List Nat := []
  later : Bool := false
  apply : Option Stamp := none
deriving DecidableEq, Repr

/-- [Log 23: DEDUCED] -/
def failWith (st : Nat) : Answer := { status := st }

/-- Payload words of a reply written from word `i` on. -/
def Gw.putWords (g : Gw) (m i : Nat) : List Nat → Gw
  | [] => g
  | w :: r => (g.setRegN (mbxOff m i) w).putWords m (i + 1) r

/-- The reply of R551 and R552: words first, then DONE and the mailbox's done bit. The reply of KEY_PROVISION clears w1
to w8 (R622). -/
def Gw.replyRaw (g : Gw) (m status : Nat) (apply : Stamp) (words : List Nat) (isRepeat : Bool) : Gw :=
  let hdr := g.reqCode m * 65536 + g.reqSeq m * 256 + 128 + atBit 6 isRepeat + words.length % 16
  let g := (((g.setRegN (mbxOff m 0) hdr).setRegN (mbxOff m 1) (status * 256 + words.length / 16)).setRegN
    (mbxOff m 2) (stampLo apply)).setRegN (mbxOff m 3) (stampHi apply)
  let g := g.putWords m 4 words
  let g := if g.reqCode m = 0x0A01 then g.putWords m 5 (List.replicate 8 0) else g
  let g := g.setMbx m { g.mbxAt m with st := .done, taken := false }
  g.flag (Reg.mbxDone (m / 32)) (2 ^ (m % 32))

/-- The reply of an executed request: it also becomes the record that repeats are measured against (R553, R554).
[Log 19: DEDUCED, 23: DEDUCED] -/
def Gw.reply (g : Gw) (m status : Nat) (apply : Stamp) (words : List Nat) : Gw :=
  let rec' : MbxRecord := { code := g.reqCode m, seq := g.reqSeq m, status := status, apply := apply }
  let g := g.replyRaw m status apply words false
  g.setMbx m { g.mbxAt m with last := some rec' }

/-- The answer of a command placed in its mailbox unless it comes later; until then the mailbox stays BUSY and nothing
executes it a second time. [Log 23: DEDUCED] -/
def Gw.finish (g : Gw) (m : Nat) (apply : Stamp) (a : Answer) : Gw :=
  if a.later then g.setMbx m { g.mbxAt m with taken := false } else g.reply m a.status (a.apply.getD apply) a.words

/-- A taken-up request with a given code stands in mailbox `m`, one of the 64 (R545). -/
def Gw.holds (g : Gw) (m code : Nat) : Bool :=
  m < 64 && (g.mbxAt m).st = .busy && (g.mbxAt m).taken && g.reqCode m = code

/-! ### Mailbox-driven changes -/

/-- The earliest apply-at stamp the firmware can meet: the present tick's, and START at the least (R36, R585).
[Log 20: DEDUCED] -/
def Gw.soonest (g : Gw) : Stamp := max g.now g.str.startStamp

/-- The frontier of the segment a requested stamp is read in (R60): that of the order, H behind the present time at least; while
an old segment closes, the new one's lies H behind its time (R77). [Log 20: DEDUCED] -/
def Gw.requestFrontier (g : Gw) : Stamp :=
  if g.str.closing.isSome then g.now - 8 * Int.ofNat g.hNs else max g.str.frontier (g.now - 8 * Int.ofNat g.hNs)

/-- A change accepted at its stamp T. A stamp that cannot be met returns BAD_ARG and the earliest that could (R60).
[Log 20: DEDUCED, 24: DEDUCED] -/
def Gw.queueChange (g : Gw) (m : Nat) : Gw :=
  let req : Stamp := Int.ofNat (g.reqApply m)
  if req ≠ 0 ∧ (req ≤ g.requestFrontier ∨ req < g.str.startStamp) then g.reply m stBadArg g.soonest []
  else
    let t := if req = 0 then g.soonest else req
    let c : Change := { t := t, rank := m, seq := g.str.accepted, act := .mailbox m, seg := g.tb.seg }
    { (g.setMbx m { g.mbxAt m with taken := false }) with
      str := { g.str with changes := g.str.changes ++ [c], accepted := g.str.accepted + 1 } }

/-- The row of a command that is a mailbox-driven change (R36): at once in CONFIG (R176), at its stamp otherwise.
[Log 21: DEDUCED, 24: DEDUCED] -/
def changeRow (code : Nat) (eff : Nat → Stamp → State → State × Answer) (m : Nat) (s : State) : State :=
  if s.gw.holds m code then
    if s.gw.serving then s.withGw (s.gw.queueChange m)
    else let r := eff m 0 s; r.1.withGw (r.1.gw.finish m 0 r.2)
  else s

/-- The row of a command that acts when the firmware executes it. -/
def directRow (code : Nat) (eff : Nat → State → State × Answer) (m : Nat) (s : State) : State :=
  if s.gw.holds m code then let r := eff m s; r.1.withGw (r.1.gw.finish m 0 r.2) else s

/-- An effect on the module alone. -/
def effGw (f : Nat → Gw → Gw × Answer) (m : Nat) (s : State) : State × Answer :=
  let r := f m s.gw; (s.withGw r.1, r.2)

def effAt (f : Nat → Stamp → Gw → Gw × Answer) (m : Nat) (t : Stamp) (s : State) : State × Answer :=
  let r := f m t s.gw; (s.withGw r.1, r.2)

end Sys2Proof.Machine
end

