-- ==== Sys2Proof/Machine/Catalogue.lean ====
section
/-! DEFINITION. The catalogue (R134–R193): partitions, hashing, lookup, accession and deaccession, removal, flushes,
and the ageing and vitrine sweeps. -/

namespace Sys2Proof.Machine

/-! ### Partitions -/

def Gw.partBase (g : Gw) (p : Nat) : Nat := bits (g.param (Par.catPart p)) 56 32
def Gw.partSize (g : Gw) (p : Nat) : Nat := 1024 * bits (g.param (Par.catPart p)) 15 0
/-- Deaccession policy: 0 NONE, 1 OLDEST, 2 RANDOM (R171). -/
def Gw.partDeacc (g : Gw) (p : Nat) : Nat := bits (g.param (Par.catPart p)) 30 29

/-- The table of a partition (R135). -/
def tableOf (p : Nat) : Nat := if p ≤ 3 then 0 else if p ≤ 7 then p - 3 else 5

/-- Key length K in bytes by table (R146–R154). -/
def keyLen (table : Nat) : Nat := [8, 16, 8, 16, 16, 32].getD table 8

/-- The vitrine offset of a partition, if it has one (R193). -/
def Gw.vitOff (g : Gw) (p : Nat) : Option Nat :=
  let v := g.param (Par.catVitOff p)
  if v = 0xFFFFFFFF then none else some v

/-! ### Entries -/

def Entry.word (e : Entry) (i : Nat) : Nat :=
  (match i with
    | 1 => e.w1
    | 2 => e.w2
    | 3 => e.w3
    | 4 => e.w4
    | 5 => e.w5
    | 6 => e.w6
    | _ => (0 : W64)).toNat

/-- A field of an entry word. -/
def Entry.f (e : Entry) (i hi lo : Nat) : Nat := bits (e.word i) hi lo

/-- The key as a number: W1 upward, low word first. -/
def Entry.key (e : Entry) (table : Nat) : Nat :=
  (e.w1.toNat + 2 ^ 64 * e.w2.toNat + 2 ^ 128 * e.w3.toNat + 2 ^ 192 * e.w4.toNat) % 2 ^ (8 * keyLen table)

/-- TABLE and PIPE of W0 in partition `p` (R139). -/
def kindBits (p : Nat) : Nat := tableOf p * 2 ^ 57 + (if p ≤ 3 then p else 0) * 2 ^ 55

/-- The bits of W0 outside VALID to STRIKE and USER. -/
def kindMask : Nat := 0x0FFF0000FFFFFFFF

/-- W0 of the entry in partition `p` (R139). -/
def Entry.word0 (e : Entry) (p : Nat) : Nat :=
  atBit 63 true + atBit 62 e.static + atBit 61 e.hit + atBit 60 e.strike + (kindBits p ^^^ (e.rest &&& kindMask)) +
    (e.user % 65536) * 2 ^ 32

/-- The entry's 64 bytes (R139). -/
def Entry.bytes (e : Entry) (p : Nat) : List Byte :=
  leBytes 8 (e.word0 p) ++ ([1, 2, 3, 4, 5, 6].flatMap (fun i => leBytes 8 (e.word i))) ++ leBytes 8 e.accSeq

/-- The entry that 64 bytes in partition `p` hold, if they hold a valid one (R139). -/
def entryOfBytes (p : Nat) (bs : List Byte) : Option Entry :=
  let w := fun i => fromLe (slice bs (8 * i) 8)
  if bit (w 0) 63 then
    some { static := bit (w 0) 62, hit := bit (w 0) 61, strike := bit (w 0) 60, user := bits (w 0) 47 32,
           w1 := BitVec.ofNat 64 (w 1), w2 := BitVec.ofNat 64 (w 2), w3 := BitVec.ofNat 64 (w 3),
           w4 := BitVec.ofNat 64 (w 4), w5 := BitVec.ofNat 64 (w 5), w6 := BitVec.ofNat 64 (w 6), accSeq := w 7,
           rest := (w 0 &&& kindMask) ^^^ kindBits p }
  else none

/-- The entry of a vitrine copy: valid and static. A copy that is valid and not static counts as not valid (R185).
[Log 161: DESIGN CHOICE] -/
def copyOfBytes (p : Nat) (bs : List Byte) : Option Entry := (entryOfBytes p bs).filter Entry.static

/-- The port a dynamic T0 entry names (R147). -/
def Entry.port (e : Entry) : Nat := ((bitList 22 (e.f 2 21 0)).head?).getD 0

/-! ### Hashing and lookup (R142–R145) -/

/-- The bucket of a key: floor(h × B / 2³²) with h over the partition's seed and the key bytes (R143). -/
def Gw.bucket (g : Gw) (p key : Nat) : Nat :=
  crc32 (leBytes 4 (g.param (Par.catSeed p)) ++ leBytes (keyLen (tableOf p)) key) * (g.partSize p / 8) / 4294967296

/-- The slot lies in a fenced bank of the hot catalogue (R134, R760). [Log 67: DEDUCED] -/
def Gw.hotFenced (g : Gw) (i : Nat) : Bool := i < 131072 && bit g.flt.hotBanks (i / 16384)

/-- The eight indices of a key's bucket in slot order; none in a partition of size 0 (R137, R142), and none in a fenced
bank, whose slots act as empty and take no entry (R760). -/
def Gw.bucketSlots (g : Gw) (p key : Nat) : List Nat :=
  let b := g.partBase p + 8 * g.bucket p key
  if g.partSize p = 0 || g.hotFenced b then [] else (List.range 8).map (fun i => b + i)

/-- Hidden by a pending flush (R182). -/
def Gw.hidden (g : Gw) (i : Nat) : Bool := g.cat.flushes.any (fun f => f.hidden.contains i)

/-- The entry a decision sees in a slot: valid and not hidden. -/
def Gw.slot (g : Gw) (i : Nat) : Option Entry := if g.hidden i then none else mget? g.cat.slots i

/-- A lookup without side effect (R144); entries in error count as empty (R145). -/
def Gw.find (g : Gw) (p key : Nat) : Option (Nat × Entry) :=
  (g.bucketSlots p key).findSome? (fun i =>
    match g.slot i with
    | some e => if !g.cat.eccBad.contains i && e.key (tableOf p) = key then some (i, e) else none
    | none => none)

/-- The byte of DRAM at which the entry with an index of the store room begins (R29, R134). -/
def Gw.storeAddr (g : Gw) (i : Nat) : Nat := g.regionBase 1 * mib + (i - 131072) * 64

/-- The detected error of an entry in slot `i` (R145, R752): a hot-catalogue bank, or a DRAM page of the store room. The
island of the hot catalogue and the DETAIL of an SRAM error rest on numbers that the spec does not give.
[Log 66: DEDUCED] -/
def Gw.slotError (g : Gw) (i : Nat) : Gw :=
  if i < 131072 then g.detect 2 (Config.sramDetail (0x200 + i / 16384) i) 0 (0x200 + i / 16384)
  else (g.spoil (g.storeAddr i / 64)).detect 5 (g.storeAddr i / 64) 13 (g.storeAddr i / 4096)

/-- A slot written: it is no longer hidden or in error. -/
def Gw.putEntry (g : Gw) (i : Nat) (e : Entry) : Gw :=
  let g := if i < 131072 then g else g.mend (g.storeAddr i) 64
  { g with cat := { g.cat with
      slots := mset g.cat.slots i e
      flushes := g.cat.flushes.map (fun f => { f with hidden := f.hidden.filter (· != i) })
      eccBad := g.cat.eccBad.filter (· != i) } }

/-- HIT set in a slot. [Log 68: DEDUCED] -/
def Gw.setHit (g : Gw) (i : Nat) : Gw :=
  match mget? g.cat.slots i with
  | some e => { g with cat := { g.cat with slots := mset g.cat.slots i { e with hit := true } } }
  | none => g

/-! ### Learning counts (R169) and removal -/

def Gw.learn (g : Gw) (f : Nat) : Gw :=
  { g with cat := { g.cat with learned := mput g.cat.learned f (mgetD g.cat.learned f 0 + 1) 0 } }

def Gw.unlearn (g : Gw) (f : Nat) : Gw :=
  { g with cat := { g.cat with learned := mput g.cat.learned f (mgetD g.cat.learned f 0 - 1) 0 } }

/-- An entry removed; a dynamic T0 entry gives up its port's count, unless a pending flush that hides it has already
given it up (R182). -/
def Gw.dropEntry (g : Gw) (p i : Nat) (e : Entry) : Gw :=
  let g := if tableOf p = 0 && !e.static && !g.hidden i then g.unlearn e.port else g
  { g with cat := { g.cat with slots := merase g.cat.slots i, eccBad := g.cat.eccBad.filter (· != i) } }

/-- The errors a lookup meets (R145): each is counted and reported, and the entry that held it is discarded (R759).
[Log 66: DEDUCED] -/
def Gw.noteEcc (g : Gw) (p key : Nat) : Gw :=
  let bad := (g.bucketSlots p key).filter (fun i => g.cat.eccBad.contains i && (mget? g.cat.slots i).isSome)
  if bad.isEmpty then g
  else bad.foldl (fun (g : Gw) i => (g.slotError i).dropEntry p i (mgetD g.cat.slots i {}))
    ((g.bumpN Reg.catEccCnt bad.length).flag Reg.catFlag 0x10000000)

/-- A lookup of the firmware or of accession: the errors it meets are counted and reported (R145), and the module after
that with what it finds. [Log 66: DEDUCED] -/
def Gw.probe (g : Gw) (p key : Nat) : Gw × Option (Nat × Entry) :=
  let g := g.noteEcc p key
  (g, g.find p key)

/-- A frame's lookup in a partition: counted as hit or miss (R192); `mark` sets HIT in the match (R161).
[Log 66: DEDUCED] -/
def Gw.lookup (g : Gw) (p key : Nat) (mark : Bool) : Gw × Option (Nat × Entry) :=
  let g := g.noteEcc p key
  match g.find p key with
  | some (i, e) => ((if mark then g.setHit i else g).bump (Reg.catHitCnt p), some (i, e))
  | none => (g.bump (Reg.catMissCnt p), none)

/-- The visible entries of the partitions `parts` that `sel` picks: partition, index and entry. -/
def Gw.matching (g : Gw) (parts : List Nat) (sel : Nat → Entry → Bool) : List (Nat × Nat × Entry) :=
  g.cat.slots.filterMap (fun (q : Nat × Entry) =>
    if g.hidden q.1 then none
    else (parts.find? (fun p => g.partBase p ≤ q.1 && q.1 < g.partBase p + g.partSize p && sel p q.2)).map
      (fun p => (p, q.1, q.2)))

/-- A flush takes logical effect (R182): matching entries become hidden, and each dynamic T0 entry gives up its port's
count. `sel` picks entries by partition. -/
def Gw.flush (g : Gw) (mbx : Option Nat) (parts : List Nat) (sel : Nat → Entry → Bool) : Gw :=
  let hits := g.matching parts sel
  let g := hits.foldl (fun g h => if tableOf h.1 = 0 && !h.2.2.static then g.unlearn h.2.2.port else g) g
  let f : Flush := { mbx := mbx, matched := hits.length, hidden := hits.map (fun h => h.2.1) }
  { g with cat := { g.cat with flushes := g.cat.flushes ++ [f] } }

/-- The serial N taken for a new entry (R141). -/
def Gw.takeSerial (g : Gw) (p : Nat) : Nat × Gw :=
  let n := mgetD g.cat.serial p 0
  (n, { g with cat := { g.cat with serial := mset g.cat.serial p (n + 1) } })

/-! ### Deaccession (R171, R172) -/

/-- One advance of the 32-bit LFSR (R172). -/
def lfsrNext (l : Nat) : Nat :=
  (2 * l + (bit l 31 ^^ bit l 21 ^^ bit l 1 ^^ bit l 0).toNat) % 4294967296

/-- The dynamic entries of a bucket in slot order. -/
def Gw.candidates (g : Gw) (slots : List Nat) : List (Nat × Entry) :=
  slots.filterMap (fun i => match g.slot i with
    | some e => if e.static then none else some (i, e)
    | none => none)

/-- The candidate that a policy gives up, and the LFSR value left behind (R171). [Log 179: DESIGN CHOICE] -/
def Gw.chooseVictim (g : Gw) (p policy : Nat) (slots : List Nat) : Option ((Nat × Entry) × Option Nat) :=
  let cs := g.candidates slots
  if policy = 0 then none
  else if policy = 2 then
    let l := lfsrNext (mgetD g.cat.lfsr p 1)
    (cs[l * cs.length / 4294967296]?).map (fun c => (c, some l))
  else (leastBy (fun a b => a.2.accSeq < b.2.accSeq) cs).map (fun c => (c, none))

/-- A candidate replaced: counted, its port's count given up, the LFSR moved if the policy moved it. -/
def Gw.evict (g : Gw) (p : Nat) (v : (Nat × Entry) × Option Nat) : Gw :=
  let g := (g.dropEntry p v.1.1 v.1.2).bump (Reg.catDeaccCnt p)
  match v.2 with
  | some l => { g with cat := { g.cat with lfsr := mset g.cat.lfsr p l } }
  | none => g

/-- The lowest free slot of a bucket: not valid or hidden (R170). [Log 67: DEDUCED] -/
def Gw.freeSlot (g : Gw) (slots : List Nat) : Option Nat := slots.find? (fun i => (g.slot i).isNone)

/-! ### Accession (R166–R170) -/

def dynEntry (key f : Nat) : Entry :=
  { hit := true, w1 := BitVec.ofNat 64 key, w2 := BitVec.ofNat 64 (2 ^ f) }

/-- The removal of the same dynamic key from the other T0 partitions, each counted as a move (R166). -/
def Gw.moveAway (g : Gw) (p key : Nat) : Gw :=
  [0, 1, 2, 3].foldl (fun g q =>
    if q = p then g else match g.probe q key with
      | (g, some (i, e)) => if e.static then g else (g.dropEntry q i e).bump (Reg.catMoveCnt p)
      | (g, none) => g) g

def Gw.learnCap (g : Gw) (f : Nat) : Nat := bits (g.param (Par.catPort f)) 25 0

/-- The creation of a dynamic entry for a source that missed, subject to the cap (R169, R170). -/
def Gw.create (g : Gw) (p f key : Nat) : Gw :=
  let slots := g.bucketSlots p key
  let free := g.freeSlot slots
  let victim := if free.isSome then none else g.chooseVictim p (g.partDeacc p) slots
  let released := match victim with
    | some v => if v.1.2.port = f then 1 else 0
    | none => 0
  if g.partSize p = 0 then g.bump (Reg.catFullCnt p)
  else if mgetD g.cat.learned f 0 - released ≥ g.learnCap f then g.bump (Reg.catCapCnt f)
  else match free, victim with
    | some i, _ =>
      let t := g.takeSerial p
      ((t.2.putEntry i { dynEntry key f with accSeq := t.1 }).learn f).bump (Reg.catAccCnt p)
    | none, some v =>
      let t := (g.evict p v).takeSerial p
      ((t.2.putEntry v.1.1 { dynEntry key f with accSeq := t.1 }).learn f).bump (Reg.catAccCnt p)
    | none, none => g.bump (Reg.catFullCnt p)

/-- The source lookup and accession of a frame that meets R167, in pipeline `p` for ingress port `f` (R168). The
answer says whether the source hit an entry with DROP_SRC 1. [Log 67: DEDUCED] -/
def Gw.accession (g : Gw) (p f key : Nat) (learning : Bool) : Gw × Bool :=
  let r := g.lookup p key true
  match r.2 with
  | some (i, e) =>
    if e.static || !learning || e.port = f then (r.1, bit (e.word 2) 40)
    else
      let w2 := BitVec.ofNat 64 (setBits (e.word 2) 21 0 (2 ^ f))
      let g := ((r.1.unlearn e.port).learn f).putEntry i { e with hit := true, w2 := w2 }
      (g.bump (Reg.catMoveCnt p), false)
  | none => (if learning then (r.1.moveAway p key).create p f key else r.1, false)

/-! ### Sweeps (R173, R174, R185, R186) -/

/-- AGE_PERIOD and VIT_PERIOD in ST64 units. -/
def Gw.agePeriod (g : Gw) : Int := 8000000000 * g.param Par.catAgePeriodS
def Gw.vitPeriod (g : Gw) : Int := 8000000 * g.param Par.catVitPeriodMs

/-- The first visit of one slot after a sweep position: the stamp A0 + k × P + floor(j × P / S) and its rank among
visits of that stamp. [Log 69: DEDUCED] -/
def nextVisit (origin period : Int) (pos : Stamp × Nat) (j size rank : Nat) : Stamp × Nat :=
  let t0 := origin + j * period / size
  let k := max 0 ((pos.1 - t0) / period)
  let t := t0 + k * period
  if pos.1 < t || (pos.1 = t && pos.2 ≤ rank) then (t, rank)
  else (t + period, rank)

/-- Rank of a slot among visits of one stamp: ascending partition, then index. [Log 69: DEDUCED] -/
def visitRank (p i : Nat) : Nat := p * 33554432 + i

def earlier (a b : Stamp × Nat) : Bool := a.1 < b.1 || (a.1 = b.1 && a.2 < b.2)

/-- A rank beyond that of every visit of a stamp. -/
def allVisits : Nat := 2 ^ 60

/-- A sweep position moved up to what the order has reached: never back. -/
def advance (pos reached : Stamp × Nat) : Stamp × Nat := if earlier pos reached then reached else pos

/-- The order has reached an event of stamp `t` and kind `k` of R58, or a frame (kind 6): visits before it are past, of
the sweeps that rank before it those at `t` too (R57, R58, R173). -/
def Gw.passTo (g : Gw) (t : Stamp) (k : Nat) : Gw :=
  { g with cat := { g.cat with vitPos := advance g.cat.vitPos (t, if 2 < k then allVisits else 0)
                               agePos := advance g.cat.agePos (t, if 3 < k then allVisits else 0) } }

/-- The partition that holds an index, among a list. -/
def Gw.partOf (g : Gw) (ps : List Nat) (i : Nat) : Option Nat :=
  ps.find? (fun p => g.partBase p ≤ i && i < g.partBase p + g.partSize p)

/-- The catalogue index whose entry holds a byte of DRAM, with its partition: indices from 131,072 on lie in the store-room
region (R29, R134). -/
def Gw.storeSlot (g : Gw) (addr : Nat) : Option (Nat × Nat) :=
  let b := g.regionBase 1 * mib
  if b ≤ addr && addr < b + g.regionMib 1 * mib then
    let i := 131072 + (addr - b) / 64
    (g.partOf (List.range 12) i).map (fun p => (i, p))
  else none

/-- The next ageing visit: its stamp and rank, partition and index. Only dynamic T0 entries are visited (R173).
[Log 69: DEDUCED] -/
def Gw.nextAgeing (g : Gw) : Option ((Stamp × Nat) × Nat × Nat) :=
  if g.param Par.catAgeEn = 0 then none else
  leastBy (fun a b => earlier a.1 b.1) (g.cat.slots.filterMap (fun (i, e) =>
    match g.partOf [0, 1, 2, 3] i with
    | some p => if e.static || g.hidden i then none
        else some (nextVisit g.cat.ageOrigin g.agePeriod g.cat.agePos (i - g.partBase p) (g.partSize p)
          (visitRank p i), p, i)
    | none => none))

/-- What the sweeper does with an entry (R174). -/
def Gw.ageEntry (g : Gw) (p i : Nat) : Gw :=
  match mget? g.cat.slots i with
  | some e =>
    if e.hit then { g with cat := { g.cat with slots := mset g.cat.slots i { e with hit := false, strike := false } } }
    else if e.strike then (g.dropEntry p i e).bump (Reg.catAgedCnt p)
    else { g with cat := { g.cat with slots := mset g.cat.slots i { e with strike := true } } }
  | none => g

/-- The bytes of the vitrine copy of slot `j` of a partition with vitrine offset `off`. -/
def Gw.vitAddr (g : Gw) (off j : Nat) : Nat := g.regionBase 3 * mib + off * 65536 + 64 * j

/-- The difference of R185 between a slot and its copy: 1 MISSING, 2 DIFFER, 3 EXTRA. HIT and STRIKE do not count. -/
def vitCompare (slot copy : Option Entry) : Nat :=
  match slot, copy with
  | some s, some c =>
    if !s.static then 1
    else if { s with hit := c.hit, strike := c.strike } = c then 0 else 2
  | none, some _ => 1
  | some s, none => if s.static then 3 else 0
  | none, none => 0

/-- The next vitrine visit. Every slot of a partition with a vitrine is visited; the model looks at the slots that are
valid or whose copy is, since a visit that finds neither does nothing. [Log 69: DEDUCED] -/
def Gw.nextVitrine (g : Gw) (dram : List Host.Cell) : Option ((Stamp × Nat) × Nat × Nat) :=
  let listed := g.cat.slots.filterMap (fun (i, _) =>
    (g.partOf (List.range 12) i).bind (fun p => (g.vitOff p).map (fun _ => (p, i))))
  let copies := dram.flatMap (fun (a, _) =>
    ((List.range 12).filter (fun p => match g.vitOff p with
      | some o => g.vitAddr o 0 ≤ a && a < g.vitAddr o (g.partSize p)
      | none => false)).map (fun p => (p, g.partBase p + (a - g.vitAddr ((g.vitOff p).getD 0) 0) / 64)))
  leastBy (fun a b => earlier a.1 b.1) ((listed ++ copies).map (fun (p, i) =>
    (nextVisit g.cat.vitOrigin g.vitPeriod g.cat.vitPos (i - g.partBase p) (g.partSize p) (visitRank p i), p, i)))

/-- DRAM is about to change by a hand that the order does not know (BAR2): visits up to the frontier that find nothing now are
past, so that none of them meets what comes (R173, R185). [Log 69: DEDUCED] -/
def Gw.visitsPast (g : Gw) (dram : List Host.Cell) : Gw :=
  let done := (g.str.frontier, allVisits)
  let vit := match g.nextVitrine dram with
    | some v => if v.1.1 ≤ g.str.frontier then g.cat.vitPos else advance g.cat.vitPos done
    | none => advance g.cat.vitPos done
  let age := match g.nextAgeing with
    | some v => if v.1.1 ≤ g.str.frontier then g.cat.agePos else advance g.cat.agePos done
    | none => advance g.cat.agePos done
  if g.str.run then { g with cat := { g.cat with vitPos := vit, agePos := age } } else g

/-- A vitrine visit (R185, R186). A copy that lies in an uncorrectable word is discarded, and nothing is compared with it
(R759). [Log 136: DEDUCED] -/
def Gw.vitVisit (g : Gw) (dram : List Host.Cell) (p i : Nat) : Gw :=
  let a := g.vitAddr ((g.vitOff p).getD 0) (i - g.partBase p)
  let copy := copyOfBytes p (dramRead dram a 64)
  let slot := g.slot i
  let kind := vitCompare slot copy
  if g.spoilt a 64 then g.bump Reg.lckItemDrop
  else if kind = 0 then g
  else
    let repair := g.param Par.catVitRepair = 1 && kind ≠ 3
    let g := (g.bump Reg.catVitMisCnt).flag Reg.catFlag 0x20000000
    let g := g.setRegN Reg.catVitLast (kind * 2 ^ 30 + atBit 29 repair + p * 2 ^ 25 + i)
    if repair then
      let g := match slot with
        | some e => if e.static then g else (g.dropEntry p i e).bump (Reg.catDeaccCnt p)
        | none => g
      ((g.putEntry i (copy.getD {})).bump Reg.catVitRepCnt).note "vitrine repair" [p, i]
    else g

/-! ### The state of the catalogue at the start of a run (R141, R172) -/

def Gw.startCatalogue (g : Gw) (start : Stamp) : Gw :=
  let serial := (List.range 12).map (fun p => (p,
    (g.cat.slots.foldl (fun n (i, e) =>
      if g.partBase p ≤ i && i < g.partBase p + g.partSize p then max n (e.accSeq + 1) else n) 0)))
  let lfsr := (List.range 4).map (fun p =>
    let s := g.param (Par.catLfsrSeed p); (p, if s = 0 then 1 else s))
  { g with cat := { g.cat with serial := serial, lfsr := lfsr, ageOrigin := start, agePos := (start, 0),
                               vitOrigin := start, vitPos := (start, 0) } }

end Sys2Proof.Machine
end

