-- ==== Sys2Proof/Machine/Buffer.lean ====
section
/-! DEFINITION. Caldera's accounting and storage (R91–R133): the parts of the pool, accounted occupancy and admission,
returns of cells, XOFF and XON decisions, physical cells, and pending allotments. -/

namespace Sys2Proof.Machine

/-! ### Queue configuration (R131–R133) -/

def Gw.qProfile (g : Gw) (f : Nat) : Nat := bits (g.param (Par.calPcfg f)) 20 18
/-- L_p, the shared limit of port `f`. -/
def Gw.shLimit (g : Gw) (f : Nat) : Nat := bits (g.param (Par.calPcfg f)) 17 0
def Gw.qConf (g : Gw) (f c : Nat) : Nat := g.param (Par.calQg (8 * g.qProfile f + c))
/-- G_q, the guaranteed minimum. -/
def Gw.guar (g : Gw) (f c : Nat) : Nat := bits (g.qConf f c) 12 0
/-- The age limit in µs of class `c` of port `f`; 0 for none (R109). -/
def Gw.ageLimitUs (g : Gw) (f c : Nat) : Nat := g.param (Par.calAge (8 * g.qProfile f + c))

/-- Cells of fenced Caldera banks (R760). -/
def Gw.fencedCells (g : Gw) : Nat := 16384 * (bitList 16 g.flt.calBanks).length

/-- The queue pool of R94, less the cells of fenced banks (R760). -/
def Gw.queuePool (g : Gw) : Nat := 262144 - 24576 - g.param Par.calHostHold - g.param Par.calSlack - g.fencedCells

/-- The sum of the guarantees of all queues. -/
def Gw.guarSum (g : Gw) : Nat :=
  ((List.range 22).map (fun f => ((List.range 8).map (g.guar f)).sum)).sum

/-! ### Accounted occupancy (R99–R106) -/

/-- U_q of queue 8f + c. -/
def Gw.occ (g : Gw) (f c : Nat) : Nat := mgetD g.cal.occ (8 * f + c) 0

/-- X_q, the shared cells a queue uses (R101). -/
def Gw.shared (g : Gw) (f c : Nat) : Nat := g.occ f c - g.guar f c

/-- X_p. -/
def Gw.sharedPort (g : Gw) (f : Nat) : Nat := ((List.range 8).map (g.shared f)).sum

/-- S_free (R101). -/
def Gw.sFree (g : Gw) : Nat :=
  g.queuePool - g.guarSum - ((g.cal.occ.map (fun (q, u) => u - g.guar (q / 8) (q % 8))).sum)

/-- α_q × S_free by its code (R103). -/
def alphaLimit (a sFree : Nat) : Nat := if a < 4 then sFree / 2 ^ (4 - a) else sFree * 2 ^ (a - 4)

/-- The admission test of R102, and of R106 for the host receive queues. -/
def Gw.admits (g : Gw) (f c n : Nat) : Bool :=
  let x' := g.occ f c + n - g.guar f c
  let d := x' - g.shared f c
  d = 0 || (f ≠ 16 && f ≠ 17 && d ≤ g.sFree && x' ≤ alphaLimit (bits (g.qConf f c) 18 16) g.sFree &&
    g.sharedPort f + d ≤ g.shLimit f)

/-- The XOFF and XON decisions of a change of I_p (R112, R113); the MAC sends pause frames for them with PAUSE_TX 1
(R291). -/
def Gw.setIocc (g : Gw) (p v : Nat) : Gw :=
  let old := mgetD g.cal.iocc p 0
  let g := { g with cal := { g.cal with iocc := mput g.cal.iocc p v 0 } }
  let hi := bits (g.param (Par.calPause p)) 31 16
  let lo := bits (g.param (Par.calPause p)) 15 0
  let push := fun (g : Gw) (b : Bool) =>
    let e := mgetD g.eth p {}
    if bit (g.param (Par.ethMac p)) 15 then { g with eth := mset g.eth p { e with xoffQueue := e.xoffQueue ++ [b] } } else g
  if old < v && hi ≤ v && !bit g.cal.xoff p then
    (push { g with cal := { g.cal with xoff := g.cal.xoff + 2 ^ p } } true).bump (Reg.fabPXoffCnt p)
  else if v < old && v ≤ lo && bit g.cal.xoff p then
    push { g with cal := { g.cal with xoff := g.cal.xoff - 2 ^ p } } false
  else g

/-- The bin of R262 for a value in units. -/
def histBin (v : Nat) : Nat := if v = 0 then 0 else min 15 (Nat.log2 v + 1)

/-- Cells charged to a queue (R99), with the depth sample of R262. `inPort` is the ingress fabric port. -/
def Gw.charge (g : Gw) (f c n inPort : Nat) : Gw :=
  let u := g.occ f c + n
  let g := { g with cal := { g.cal with occ := mput g.cal.occ (8 * f + c) u 0 } }
  let g := g.bump (Reg.egrHdepth (16 * (8 * f + c) + histBin u))
  if inPort ≤ 11 && f ≠ 16 && f ≠ 17 then g.setIocc inPort (mgetD g.cal.iocc inPort 0 + n) else g

/-- Cells returned to a queue (R100). -/
def Gw.giveBack (g : Gw) (f c n inPort : Nat) : Gw :=
  let g := { g with cal := { g.cal with occ := mput g.cal.occ (8 * f + c) (g.occ f c - n) 0 } }
  if inPort ≤ 11 && f ≠ 16 && f ≠ 17 then g.setIocc inPort (mgetD g.cal.iocc inPort 0 - n) else g

/-- A return put in departure order. -/
def Gw.addRet (g : Gw) (r : Ret) : Gw :=
  { g with cal := { g.cal with rets := insertBy (fun a b => a.dep < b.dep) r g.cal.rets } }

/-- Every return whose departure stamp is at or before `o`, in order (R100). -/
def Gw.returnsUpTo (g : Gw) (o : Stamp) : Gw :=
  let due := g.cal.rets.filter (fun r => r.dep ≤ o)
  let g := { g with cal := { g.cal with rets := g.cal.rets.filter (fun r => o < r.dep) } }
  due.foldl (fun g r => g.giveBack r.port r.cls r.cells r.inPort) g

/-! ### Physical storage (R105, R107, R108) -/

/-- One claim on a stored frame ends; its cells are free when none is left (R105). -/
def Gw.unclaim (g : Gw) (fid : Nat) : Gw :=
  match mget? g.cal.store fid with
  | some st =>
    if st.claims ≤ 1 then
      { g with cal := { g.cal with store := merase g.cal.store fid, cells := st.cells.foldl merase g.cal.cells } }
    else { g with cal := { g.cal with store := mset g.cal.store fid { st with claims := st.claims - 1 } } }
  | none => g

/-- One more member copy claims a stored frame. -/
def Gw.claim (g : Gw) (fid : Nat) : Gw :=
  { g with cal := { g.cal with store := mmod g.cal.store fid { cells := [], claims := 0 }
                                          (fun st => { st with claims := st.claims + 1 }) } }

/-- Pending cells of an ingress port (R95, R130): frames on their way to Strata and pending there. -/
def Gw.pendCells (g : Gw) (f : Nat) : Nat :=
  ((g.str.pend.map (·.frame) ++ g.str.inbound).map
    (fun x => if x.fport = f then cellsOf x.len else 0)).sum

/-- Cells of host frames that wait in Caldera for their requested stamp (R61). -/
def Gw.waitCells (g : Gw) : Nat :=
  (g.txRing.map (fun (x : Nat × TxRing) => match x.2.send with
    | some d => (d.held.map (fun h => cellsOf (h.1.bytes.length + 4))).sum
    | none => 0)).sum

/-- Host hold cells in use (R98). -/
def Gw.holdCells (g : Gw) : Nat := g.pendCells 16 + g.pendCells 17 + g.waitCells

/-- Pending cells of every port but the host ports. -/
def Gw.pendAll (g : Gw) : Nat :=
  ((List.range 22).map (fun f => if f = 16 || f = 17 then 0 else g.pendCells f)).sum

/-- Physical cells in use. -/
def Gw.usedCells (g : Gw) : Nat := g.cal.cells.length

/-- Accounted cells. -/
def Gw.accountedCells (g : Gw) : Nat := (g.cal.occ.map (·.2)).sum

/-- Slack cells in use (R107). -/
def Gw.slackUsed (g : Gw) : Nat := g.usedCells - (g.accountedCells + g.pendAll + g.holdCells)

/-- The pending allotment of an ingress port (R95); the host ports use the host hold. -/
def Gw.allotment (g : Gw) (f : Nat) : Nat :=
  if f ≤ 11 then 448 else if f = 12 then 320 else if f = 13 then 1152 else if f = 14 || f = 15 then 704
  else if f = 19 then 960 else if f = 16 || f = 17 then g.param Par.calHostHold else 5120

/-! ### Cells and stage one (R91–R93, R108, R115, R760) -/

/-- Cell `c` takes no new data: it is in use, or its bank is fenced (R760). -/
def Gw.cellBusy (g : Gw) (c : Nat) : Bool := (mget? g.cal.cells c).isSome || bit g.flt.calBanks (c / 16384)

/-- The lowest `n` cells from `c` on that are not busy, of the 262,144 (R91). -/
def takeCells (busy : Nat → Bool) : Nat → Nat → Nat → List Nat
  | 0, _, _ => []
  | room + 1, c, n =>
    if n = 0 then [] else if busy c then takeCells busy room (c + 1) n else c :: takeCells busy room (c + 1) (n - 1)

/-- `n` free cells, or none of them. "Any free Caldera cell" (R115) is the lowest ones here. [Log 162: DESIGN CHOICE] -/
def Gw.freeCells (g : Gw) (n : Nat) : Option (List Nat) :=
  let l := takeCells g.cellBusy 262144 0 n
  if l.length = n then some l else none

/-- The slot of the present tick: slots of 10 ns, five ticks, count from FAB island start (R115).
[Log 34: DESIGN CHOICE] -/
def Gw.slotNow (g : Gw) : Nat := (g.tb.tick - g.cal.start) / 5

/-- MODE of R270; 0 for K0 and K1. -/
def Gw.ethMode (g : Gw) (p : Nat) : Nat := if p < 12 then bits (g.param (Par.ethMode p)) 31 28 else 0

/-- The line rate of K0 and K1 in Mb/s (R447). -/
def chainRate : Nat := 24218

/-- The rate in Mb/s at which input `p` of the fabric delivers a frame: its line rate on F0–F12, F14 and F15; elsewhere one
cell a slot. [Log 162: DESIGN CHOICE] -/
def Gw.inputRate (g : Gw) (p : Nat) : Nat :=
  if p < 12 then modeRate (g.ethMode p) else if p = 12 then 10 else if p = 14 ∨ p = 15 then chainRate else 51200

/-- The slots of cells `j`, `j` + 1, …: each the slot in which the cell is ready, or the next one that the input has free
(R115). -/
def slotsFrom (ready : Nat → Nat) : Nat → Nat → Nat → List Nat
  | 0, _, _ => []
  | n + 1, j, free => let s := max free (ready j); s :: slotsFrom ready n (j + 1) (s + 1)

/-- The slots in which the cells of a frame of `len` bytes pass stage one at input `p` (R115): its last byte has come now, the
earlier ones at the input's rate before. [Log 162: DESIGN CHOICE] -/
def Gw.cellSlots (g : Gw) (p len : Nat) : List Nat :=
  slotsFrom (fun j => g.slotNow - (len - 64 * (j + 1)) * 800 / g.inputRate p) (cellsOf len) 0 (mgetD g.cal.inFree p 0)

/-- Cell `j` of a frame: its 64 bytes, the last cell's unused bytes zeros (R92), its CRC, and the intermediate that input
`p` meets in its slot (R115). -/
def cellOf (bytes : List Byte) (p j slot : Nat) : Cell :=
  let data := padTo 64 (slice bytes (64 * j) 64)
  { data := data, crc := cellCrc data j, index := j, inter := (p + slot) % 24, slot := slot }

/-- A frame of input `p` stored in Caldera, held by itself until its release; none when a cell is lacking (R108). -/
def Gw.storeFrame (g : Gw) (x : Frame) : Option (Gw × Frame) :=
  let bytes := x.body.bytes
  let n := cellsOf bytes.length
  match g.freeCells n with
  | none => none
  | some ids =>
    let fid := g.cal.nextFid
    let slots := g.cellSlots x.fport bytes.length
    let cells := (ids.zip slots).zipIdx.foldl (fun (m : Map Cell) (q : (Nat × Nat) × Nat) =>
      mset m q.1.1 (cellOf bytes x.fport q.2 q.1.2)) g.cal.cells
    let free := (slots.getLast?.map (· + 1)).getD (mgetD g.cal.inFree x.fport 0)
    some ({ g with cal := { g.cal with nextFid := fid + 1, cells := cells, inFree := mset g.cal.inFree x.fport free,
                                       store := mset g.cal.store fid { cells := ids, claims := 1 } } },
          { x with fid := fid })

/-- A frame discarded for want of a physical cell (R108). -/
def Gw.noCell (g : Gw) : Gw :=
  { ((g.bump Reg.fabCalNocellCnt).flag Reg.fabCalFlag 0x40000000) with undefEgress := 0xFF003FFFFF }

/-- A frame stored and on its way to Strata; discarded without a free cell (R108). -/
def Gw.toStrata (g : Gw) (x : Frame) : Gw :=
  match g.storeFrame x with
  | some (g, x) => { g with str := { g.str with inbound := g.str.inbound ++ [x] } }
  | none => g.noCell

/-- A frame of port F0–F15 delivered towards Strata. Without a physical cell it is discarded (R108); with its port's
allotment full it is discarded (R165). Egress content after either is undefined. -/
def Gw.deliver (g : Gw) (x : Frame) : Gw :=
  let n := cellsOf x.len
  if (g.freeCells n).isSome && g.pendCells x.fport + n > g.allotment x.fport then
    { ((g.bump Reg.catLagdropCnt).flag Reg.catFlag 0x40000000) with undefEgress := 0xFF003FFFFF }
  else g.toStrata x

/-- A frame of an internal engine (F18–F21) delivered towards Strata: it waits when its allotment is full (R97). -/
def Gw.deliverInternal (g : Gw) (x : Frame) : Gw :=
  if g.str.cellWait.any (fun y => y.fport = x.fport) || g.pendCells x.fport + cellsOf x.len > g.allotment x.fport then
    { g with str := { g.str with cellWait := g.str.cellWait ++ [x] } }
  else g.toStrata x

/-- The engine of port `f` resumes with its oldest waiting frame once its allotment has room (R97). -/
def Gw.resumeEngine (g : Gw) (f : Nat) : Gw :=
  match takeFirst (fun y => y.fport = f) g.str.cellWait with
  | some (x, rest) =>
    if g.pendCells f + cellsOf x.len ≤ g.allotment f then
      ({ g with str := { g.str with cellWait := rest } } : Gw).toStrata x
    else g
  | none => g

/-! ### References and stage two (R116–R120) -/

/-- References to every cell of a stored frame appended to the VOQs of output `o` under egress tag `tag`, in cell-index
order (R116, R117). -/
def Gw.addRefs (g : Gw) (o tag fid : Nat) : Gw :=
  let ids := ((mget? g.cal.store fid).map Store.cells).getD []
  let voq := ids.zipIdx.foldl (fun (m : Map (List CellRef)) (q : Nat × Nat) =>
    let k := 24 * o + ((mget? g.cal.cells q.1).map Cell.inter).getD 0
    mset m k (mgetD m k [] ++ [{ tag := tag, index := q.2, cell := q.1 }])) g.cal.voq
  { g with cal := { g.cal with voq := voq } }

/-- The references of a copy that leaves output `o` unread. -/
def Gw.dropRefs (g : Gw) (o tag : Nat) : Gw :=
  { g with cal := { g.cal with voq := (List.range 24).foldl (fun (m : Map (List CellRef)) i =>
      mput m (24 * o + i) ((mgetD m (24 * o + i) []).filter (fun r => r.tag ≠ tag)) []) g.cal.voq } }

end Sys2Proof.Machine
end

