-- ==== Sys2Proof/Machine/Hash.lean ====
section
/-! DEFINITION. The functions of the hash engines (R493): Keccak-p[1600, 24], SHA3-256, SHA3-512, SHAKE128 and SHAKE256 of
FIPS 202, and KMAC256 of NIST SP 800-185. A state is 25 lanes of 64 bits, lane (x, y) at place x + 5y. -/

namespace Sys2Proof.Machine

/-- A 64-bit lane rotated left by `n` below 64. -/
def rotLane (v n : Nat) : Nat := (v <<< n ||| v >>> (64 - n)) % 2 ^ 64

/-- Rotations of ρ by lane. -/
def keccakRho : List Nat :=
  [0, 1, 62, 28, 27, 36, 44, 6, 55, 20, 3, 10, 43, 25, 39, 41, 45, 15, 21, 8, 18, 2, 61, 56, 14]

/-- Round constants of ι. -/
def keccakIota : List Nat :=
  [0x0000000000000001, 0x0000000000008082, 0x800000000000808A, 0x8000000080008000, 0x000000000000808B, 0x0000000080000001,
   0x8000000080008081, 0x8000000000008009, 0x000000000000008A, 0x0000000000000088, 0x0000000080008009, 0x000000008000000A,
   0x000000008000808B, 0x800000000000008B, 0x8000000000008089, 0x8000000000008003, 0x8000000000008002, 0x8000000000000080,
   0x000000000000800A, 0x800000008000000A, 0x8000000080008081, 0x8000000000008080, 0x0000000080000001, 0x8000000080008008]

/-- Lane (x, y) of a state, both modulo 5. -/
def lane (a : List Nat) (x y : Nat) : Nat := a.getD (x % 5 + 5 * (y % 5)) 0

/-- θ. -/
def keccakTheta (a : List Nat) : List Nat :=
  let c := (List.range 5).map (fun x => lane a x 0 ^^^ lane a x 1 ^^^ lane a x 2 ^^^ lane a x 3 ^^^ lane a x 4)
  let d := (List.range 5).map (fun x => c.getD ((x + 4) % 5) 0 ^^^ rotLane (c.getD ((x + 1) % 5) 0) 1)
  (List.range 25).map (fun i => a.getD i 0 ^^^ d.getD (i % 5) 0)

/-- ρ and π: lane (x, y) goes to (y, 2x + 3y). -/
def keccakRhoPi (a : List Nat) : List Nat :=
  let r := (a.zip keccakRho).map (fun q => rotLane q.1 q.2)
  (List.range 25).map (fun i => lane r (i % 5 + 3 * (i / 5)) (i % 5))

/-- χ. -/
def keccakChi (a : List Nat) : List Nat :=
  (List.range 25).map (fun i =>
    lane a (i % 5) (i / 5) ^^^ ((lane a (i % 5 + 1) (i / 5) ^^^ (2 ^ 64 - 1)) &&& lane a (i % 5 + 2) (i / 5)))

/-- One round with its constant. -/
def keccakRound (a : List Nat) (c : Nat) : List Nat :=
  match keccakChi (keccakRhoPi (keccakTheta a)) with
  | h :: r => (h ^^^ c) :: r
  | [] => []

/-- The permutation Keccak-p[1600, 24]. -/
def keccak (a : List Nat) : List Nat := keccakIota.foldl keccakRound a

/-- Lanes of a block of bytes, least significant byte first. -/
def lanesOf (bs : List Byte) : List Nat := (List.range 25).map (fun i => fromLe (slice bs (8 * i) 8))

/-- Blocks of `rate` bytes absorbed, `n` of them. -/
def absorb (rate : Nat) : Nat → List Nat → List Byte → List Nat
  | 0, a, _ => a
  | n + 1, a, bs =>
    absorb rate n (keccak ((a.zip (lanesOf (bs.take rate))).map (fun q => q.1 ^^^ q.2))) (bs.drop rate)

/-- `n` blocks of `rate` bytes squeezed. -/
def squeeze (rate : Nat) : Nat → List Nat → List Byte
  | 0, _ => []
  | n + 1, a => (a.flatMap (leBytes 8)).take rate ++ squeeze rate n (keccak a)

/-- The sponge with a domain suffix and the padding 10*1: `out` bytes. -/
def sponge (rate suffix : Nat) (msg : List Byte) (out : Nat) : List Byte :=
  let q := rate - msg.length % rate
  let pad := if q = 1 then [BitVec.ofNat 8 (suffix + 128)]
    else [BitVec.ofNat 8 suffix] ++ List.replicate (q - 2) 0 ++ [0x80]
  let bs := msg ++ pad
  (squeeze rate (ceilDiv out rate) (absorb rate (bs.length / rate) (List.replicate 25 0) bs)).take out

/-- SHA3-256, SHA3-512 and the extendable-output functions of FIPS 202. [Log 12: PRESUMED] -/
def sha3x256 (m : List Byte) : List Byte := sponge 136 0x06 m 32
/-- [Log 12: PRESUMED] -/
def sha3x512 (m : List Byte) : List Byte := sponge 72 0x06 m 64
/-- [Log 12: PRESUMED] -/
def shake128 (m : List Byte) (out : Nat) : List Byte := sponge 168 0x1F m out
/-- [Log 12: PRESUMED] -/
def shake256 (m : List Byte) (out : Nat) : List Byte := sponge 136 0x1F m out

/-- Bytes that a number takes, at least one; for numbers below 2^64. -/
def numBytes (v : Nat) : Nat := max 1 (((List.range 8).filter (fun i => 2 ^ (8 * i) ≤ v)).length)

def leftEncode (v : Nat) : List Byte := BitVec.ofNat 8 (numBytes v) :: beBytes (numBytes v) v
def rightEncode (v : Nat) : List Byte := beBytes (numBytes v) v ++ [BitVec.ofNat 8 (numBytes v)]
def encodeString (s : List Byte) : List Byte := leftEncode (8 * s.length) ++ s

/-- A string prepended by the width and padded with zeros to a multiple of it. -/
def bytePad (w : Nat) (s : List Byte) : List Byte :=
  let x := leftEncode w ++ s
  padTo (ceilDiv x.length w * w) x

/-- KMAC256(K, X, L, S) with L in bytes (NIST SP 800-185). [Log 12: PRESUMED] -/
def kmac256 (key msg : List Byte) (bytes : Nat) (custom : List Byte) : List Byte :=
  let name : List Byte := [0x4B, 0x4D, 0x41, 0x43]
  sponge 136 0x04 (bytePad 136 (encodeString name ++ encodeString custom) ++ bytePad 136 (encodeString key) ++ msg ++
    rightEncode (8 * bytes)) bytes

end Sys2Proof.Machine
end

