-- ==== Sys2Proof/Machine/Keys.lean ====
section
/-! DEFINITION. The key store (R496–R511, R533–R536): root banks, slots, derivation, invalidation, the journal, the
tamper sequence, TRNG_HEALTH_FAIL, and what a journal record holds. -/

namespace Sys2Proof.Machine

/-! ### Slots, roots and values (R497, R499, R503) -/

def KeyStore.at' (ks : KeyStore) (i : Nat) : KeySlot := mgetD ks.slots i {}
def KeyStore.set (ks : KeyStore) (i : Nat) (k : KeySlot) : KeyStore := { ks with slots := mput ks.slots i k {} }

/-- The serial of the root in use, none when absent or revoked. -/
def KeyStore.root (ks : KeyStore) : Option Nat :=
  match ks.bank with
  | some b => (ks.banks[b]?).bind (fun x => if x.revoked then none else x.root)
  | none => none

/-- ROOT of KEY_STAT: 0 absent, 1 valid, 2 revoked. -/
def KeyStore.rootStat (ks : KeyStore) : Nat :=
  if ks.root.isSome then 1 else if ks.banks.any (fun x => x.root.isSome) then 2 else 0

/-- Unused banks. -/
def KeyStore.banksFree (ks : KeyStore) : Nat := (ks.banks.filter (fun x => x.root.isNone && !x.revoked)).length

/-- Key length in bytes. -/
def KeySlot.bytes (k : KeySlot) : Nat := if k.len256 then 32 else 16

/-- The customization string "Z96KDF". -/
def kdfString : List Byte := [0x5A, 0x39, 0x36, 0x4B, 0x44, 0x46]

/-- The value of a VALID slot, walking from its ancestor (R503, R506); none where it cannot be had. -/
def KeyStore.value (ks : KeyStore) : Nat → Nat → Option (List Byte)
  | 0, _ => none
  | n + 1, i =>
    let k := ks.at' i
    if k.state ≠ 1 then none
    else if i < 64 then some k.value
    else
      let parent := if k.parent = 4096 then ks.root.map Config.rootValue else ks.value n k.parent
      parent.map (fun v => kmac256 v k.label k.bytes kdfString)

def KeyStore.keyOf (ks : KeyStore) (i : Nat) : Option (List Byte) := ks.value 6 i

/-- The slot that an SA needs (R294, R502, R524): VALID, of LEN 256, with ENC for transmit and DEC for receive. -/
def KeyStore.saSlotOk (ks : KeyStore) (slot : Nat) (rx : Bool) : Bool :=
  let k := ks.at' slot
  k.state = 1 && k.len256 && k.attr = (if rx then 1 else 0)

/-- The value of an SA's slot while it can be used (R502, R512). [Log 183: DESIGN CHOICE] -/
def KeyStore.saKey (ks : KeyStore) (a : SecAssoc) : Option (List Byte) :=
  if ks.saSlotOk a.slot a.rx then ks.keyOf a.slot else none

/-- Slot `i` descends from slot `a` (R507). -/
def KeyStore.descends (ks : KeyStore) (a : Nat) : Nat → Nat → Bool
  | 0, _ => false
  | n + 1, i =>
    let k := ks.at' i
    i ≥ 64 && k.parent < 4096 && (k.parent = a || ks.descends a n k.parent)

/-- The slot and its descendants. -/
def KeyStore.family (ks : KeyStore) (a : Nat) : List Nat :=
  a :: ((ks.slots.map (·.1)).filter (fun i => i != a && ks.descends a 5 i))

/-- GEN of the slot and of every descendant advances (R507). -/
def KeyStore.bumpGen (ks : KeyStore) (a : Nat) : KeyStore :=
  (ks.family a).foldl (fun ks i => ks.set i { ks.at' i with gen := ((ks.at' i).gen + 1) % 65536 }) ks

/-- VALID slots. -/
def KeyStore.validCount (ks : KeyStore) : Nat := (ks.slots.filter (fun k => k.2.state = 1)).length

/-! ### The effects of the key commands on the store (R621, R623, R624) -/

/-- A bit of KEY_MKA_SLOTS (R525). -/
def Gw.mkaSlot (g : Gw) (i : Nat) : Bool := bit (g.param Par.keyMkaSlots) i

/-- The privileged slot of a KEY_PROVISION request. -/
def Gw.provisionSlot (g : Gw) (m : Nat) : KeySlot :=
  let w := g.arg m 0
  let len256 := bit w 10
  { state := 1, attr := bits w 9 8, len256 := len256, hostUse := bit w 11,
    value := g.argBytes m 1 (if len256 then 32 else 16) }

/-- Its refusal at its apply-at stamp, 0 for none. Presence counts before the first side effect, the journal record (R565). -/
def Gw.provisionStatus (g : Gw) (m : Nat) : Nat :=
  if g.mkaSlot (bits (g.arg m 0) 5 0) then stLocked else stOk

/-- The derived slot of a KEY_DERIVE request; its DEPTH comes with its place in the store. -/
def Gw.deriveSlot (g : Gw) (m : Nat) : KeySlot :=
  let w := g.arg m 0
  { state := 1, attr := bits w 26 25, len256 := bit w 27, hostUse := bit w 28, parent := bits w 24 12,
    label := g.argBytes m 1 32 }

/-- A slot's depth under the root or its privileged ancestor (R499), 5 where the walk goes deeper than R504 allows. -/
def KeyStore.depthOf (ks : KeyStore) : Nat → Nat → Nat
  | 0, _ => 5
  | n + 1, i =>
    if i < 64 then 0 else if (ks.at' i).parent = 4096 then 1 else min 5 (ks.depthOf n (ks.at' i).parent + 1)

/-- A derived slot written (R499, R507): its descendants' DEPTH follows. -/
def KeyStore.derive (ks : KeyStore) (i : Nat) (k : KeySlot) : KeyStore :=
  let ks := ks.set i k
  (ks.family i).foldl (fun ks j => ks.set j { ks.at' j with depth := ks.depthOf 6 j }) ks

/-- The refusal of KEY_DERIVE (R504, R623). A parent that is the slot itself or descends from it, or a descendant carried
below depth 4, lies deeper than 4. [Log 110: DEDUCED] -/
def Gw.deriveStatus (g : Gw) (m : Nat) (ks : KeyStore) : Nat :=
  let w := g.arg m 0
  let parent := bits w 24 12
  let slot := bits w 11 0
  let k := g.deriveSlot m
  let p := ks.at' parent
  let loop := parent = slot || ks.descends slot 5 parent
  let deep := (ks.family slot).any (fun j => 4 < (ks.set slot k).depthOf 6 j)
  if slot < 64 || 4096 < parent || byteAt k.label 0 ≠ 1 || byteAt k.label 2 ≠ k.bytes then stBadArg
  else if parent = 4096 then
    (if ks.rootStat = 0 then stNotFound else if ks.rootStat = 2 then stKeyRevoked else if deep then stBadArg else stOk)
  else if p.state = 0 then stNotFound
  else if p.state = 2 then stKeyRevoked
  else if p.attr ≠ 3 || loop || deep then stBadArg else stOk

def Gw.revokeStatus (g : Gw) (m : Nat) (ks : KeyStore) : Nat :=
  let k := ks.at' (bits (g.arg m 0) 11 0)
  if k.state = 0 then stNotFound else if k.state = 2 then stKeyRevoked else stOk

/-- The slot of the request and its descendants set REVOKED. -/
def KeyStore.revoke (ks : KeyStore) (a : Nat) : KeyStore :=
  (ks.family a).foldl (fun ks i => ks.set i { ks.at' i with state := 2 }) ks

/-- The slot a key command changes. -/
def Gw.keyTarget (g : Gw) (m : Nat) : Nat :=
  if g.reqCode m = 0x0A01 then bits (g.arg m 0) 5 0 else bits (g.arg m 0) 11 0

/-- The status of the key command standing in mailbox `m` against a store. -/
def Gw.keyStatus (g : Gw) (m : Nat) (ks : KeyStore) : Nat :=
  if g.reqCode m = 0x0A01 then g.provisionStatus m
  else if g.reqCode m = 0x0A02 then g.deriveStatus m ks else g.revokeStatus m ks

/-- The store after the key command standing in mailbox `m`, unchanged when it fails. -/
def Gw.keyAfter (g : Gw) (m : Nat) (ks : KeyStore) : KeyStore :=
  if g.keyStatus m ks ≠ stOk then ks
  else
    let i := g.keyTarget m
    let keep := fun (k : KeySlot) => { k with gen := (ks.at' i).gen }
    if g.reqCode m = 0x0A01 then (ks.set i (keep (g.provisionSlot m))).bumpGen i
    else if g.reqCode m = 0x0A02 then (ks.derive i (keep (g.deriveSlot m))).bumpGen i
    else (ks.revoke i).bumpGen i

/-- A mailbox holds a key command. -/
def Gw.isKeyCmd (g : Gw) (m : Nat) : Bool := 0x0A01 ≤ g.reqCode m && g.reqCode m ≤ 0x0A03

/-- A pending change acts before a frame with stamp `a` in segment `seg` (R511): its stamp is not later, or it stands in an
earlier segment. Stamps of segments already closed are carried over. -/
def Gw.changeBefore (g : Gw) (c : Change) (seg : Nat) (a : Stamp) : Bool :=
  let u := max seg g.str.relSeg
  c.seg < u || (c.seg = u && decide (c.t ≤ g.translate a seg u))

/-- The order in which pending changes act. -/
def changeLt (x y : Change) : Bool :=
  x.seg < y.seg || (x.seg = y.seg && (x.t < y.t || (x.t = y.t && (x.rank < y.rank || (x.rank = y.rank && x.seq < y.seq)))))

/-- A key change that acted at stamp `t` of segment `u` comes before a frame with stamp `a` of segment `seg` (R511). -/
def Gw.actedBefore (g : Gw) (u : Nat) (t : Stamp) (seg : Nat) (a : Stamp) : Bool :=
  u < seg || decide (t ≤ g.translate a seg u)

/-- The store as it stood before the key changes of the run that come after a frame (R511). -/
def Gw.keysPast (g : Gw) (seg : Nat) (a : Stamp) : KeyStore :=
  (g.keys.past.takeWhile (fun x => !(g.actedBefore x.1 x.2.1 seg a))).foldl
    (fun ks x => x.2.2.foldl (fun (ks : KeyStore) y => ks.set y.1 y.2) ks) g.keys

/-- The store as it stands for a frame with stamp `a` in segment `seg` (R511): pending key changes whose stamp is not later
count, and those that have acted with a later stamp do not. -/
def Gw.keysAt (g : Gw) (seg : Nat) (a : Stamp) : KeyStore :=
  let due := g.str.changes.filter (fun c => match c.act with
    | .mailbox m => g.isKeyCmd m && g.changeBefore c seg a
    | .firmware _ => false)
  let sorted := due.foldl (fun acc c => insertBy changeLt c acc) []
  sorted.foldl (fun ks c => match c.act with
    | .mailbox m => g.keyAfter m ks
    | .firmware _ => ks) (g.keysPast seg a)

/-! ### Invalidation (R508) -/

/-- Operations that name a key. -/
def CryJob.keyed (j : CryJob) : Bool := (1 ≤ j.op && j.op ≤ 7) || j.op = 0x12

def Gw.cryAt (g : Gw) (q : Nat) : CryQueue := mgetD g.cryQ q {}
def Gw.setCry (g : Gw) (q : Nat) (x : CryQueue) : Gw := { g with cryQ := mset g.cryQ q x }

/-- EN, HEAD and TAIL: registers of host queues 0–11, fields of firmware queues 12–15. -/
def Gw.cryEn (g : Gw) (q : Nat) : Bool := if q < 12 then bit (g.regN (Reg.cryQCtl q)) 31 else (g.cryAt q).en
def Gw.cryHead (g : Gw) (q : Nat) : Nat := if q < 12 then g.regN (Reg.cryQHead q) % 256 else (g.cryAt q).head
def Gw.cryTail (g : Gw) (q : Nat) : Nat := if q < 12 then g.regN (Reg.cryQTail q) % 256 else (g.cryAt q).tail

/-- Requests that stand in a queue's ring, not yet fetched. -/
def Gw.cryPosted (g : Gw) (q : Nat) : Nat := (g.cryTail q + 256 - g.cryHead q) % 256

/-- A request that ends before an engine has taken it: its completion carries the slot's GEN (R518).
[Log 114: DEDUCED] -/
def Gw.ended (g : Gw) (j : CryJob) (st : Nat) : CryJob :=
  { j with status := some st, output := [], usedGen := if j.keyed then (g.keys.at' j.slot).gen else 0 }

/-- Requests not yet dispatched that name the slot or a descendant complete with KEY_REVOKED, those that still stand in a
ring when they are fetched; their cache entries are flushed; REVOKE is set. `fam` is the slot's family before the change. -/
def Gw.invalidate (g : Gw) (fam : List Nat) : Gw :=
  let hit := fun (j : CryJob) => j.status.isNone && !j.dispatched && j.keyed && fam.contains j.slot
  let n := (g.cryQ.map (fun q => (q.2.jobs.filter hit).length)).sum
  let fail := fun (j : CryJob) => if hit j then g.ended j 4 else j
  let qs := g.cryQ.map (fun (q : Nat × CryQueue) => (q.1, { q.2 with jobs := q.2.jobs.map fail }))
  let g := { g with cryQ := qs, cryCache := g.cryCache.filter (fun i => !fam.contains i) }
  let g := ((List.range 16).filter (fun q => g.cryPosted q ≠ 0)).foldl
    (fun (g : Gw) q => g.setCry q { g.cryAt q with stale := (g.cryAt q).stale ++ [(g.cryPosted q, fam)] }) g
  (g.bumpN Reg.cryRevFailCnt n).flag Reg.cryFlag 0x20000000

/-- The key command standing in mailbox `m` takes effect (R508, R621–R624). A loss of presence since its first side effect is
logged (R565). -/
def Gw.keyEffect (g : Gw) (m : Nat) : Gw × Answer :=
  let g := if g.reqCode m = 0x0A01 && !g.fw.presence then g.note "presence lost" [g.keyTarget m] else g
  let st := g.keyStatus m g.keys
  if st ≠ stOk then (g, failWith st)
  else
    let i := g.keyTarget m
    let fam := g.keys.family i
    let g : Gw := { (g.invalidate fam) with keys := g.keyAfter m g.keys }
    let k := g.keys.at' i
    let w := if g.reqCode m = 0x0A03 then fam.length
      else if g.reqCode m = 0x0A02 then k.depth * 65536 + k.gen else k.gen
    (g, { words := [w] })

/-! ### The journal (R510, R533) -/

/-- The journal record of the key command standing in mailbox `m`. -/
def Gw.keyRecord (g : Gw) (m : Nat) : JRec :=
  let i := g.keyTarget m
  if g.reqCode m = 0x0A01 then .priv i (g.provisionSlot m) g.keys.root
  else if g.reqCode m = 0x0A02 then .derived i (g.deriveSlot m) else .revoke i

/-- A record appended and not yet committed. [Log 110: DEDUCED] -/
def Gw.journal (g : Gw) (seq : Option Nat) (r : JRec) : Gw :=
  { g with keys := { g.keys with pending := g.keys.pending ++ [(seq, r)] } }

/-- The record of a change that was refused at its stamp is void, so that no replay applies it: it never took effect.
[Log 110: DEDUCED] -/
def Gw.voidRecord (g : Gw) (r : JRec) : Gw :=
  match takeFirst (fun x => decide (x = r)) g.keys.journal.reverse with
  | some (_, l) => { g with keys := { g.keys with journal := l.reverse } }
  | none => g

/-- The record of a change is not committed yet, so the change may not take effect (R510). [Log 110: DEDUCED] -/
def Gw.recordWaits (g : Gw) (c : Change) : Bool := g.keys.pending.any (fun r => r.1 = some c.seq)

/-- JOURNAL_RECORD_COMMIT: the oldest record finishes its flash write; a transmit reservation then holds (R531). The
entries are found by their T3 key. -/
def Gw.commitRecord (g : Gw) (keyIndex : Nat → Option Nat) : Gw :=
  match g.keys.pending with
  | [] => g
  | (_, r) :: rest =>
    let g := { g with keys := { g.keys with pending := rest, journal := g.keys.journal ++ [r] } }
    match r with
    | .freshTx key v => match keyIndex key with
      | some i => { g with fvRes := mset g.fvRes i v }
      | none => g
    | _ => g

/-- The replay of committed records at a start (R533): privileged values of another root are EMPTY, and slots that
descend from one, at any depth, REVOKED: a slot whose parent is not VALID was derived under one. [Log 110: DEDUCED] -/
def replayRec (ks : KeyStore) : JRec → KeyStore
  | .priv i k root =>
    if root = ks.root && root.isSome then (ks.set i { k with gen := (ks.at' i).gen }).bumpGen i
    else
      let fam := (ks.family i).filter (fun j => j != i)
      fam.foldl (fun ks j => ks.set j { ks.at' j with state := 2 }) (ks.set i { (ks.at' i) with state := 0, value := [] })
  | .derived i k =>
    let k' := { k with gen := (ks.at' i).gen }
    let orphan := k.parent < 4096 && (ks.at' k.parent).state ≠ 1
    (ks.derive i (if orphan then { k' with state := 2 } else k')).bumpGen i
  | .revoke i => (ks.revoke i).bumpGen i
  | .freshTx _ _ => ks
  | .freshRx _ _ => ks

/-- [Log 110: DEDUCED] -/
def KeyStore.replay (ks : KeyStore) : KeyStore :=
  ks.journal.foldl replayRec { ks with slots := [], past := [] }

/-- The last value the journal holds for a T3 entry. -/
def KeyStore.journaled (ks : KeyStore) (tx : Bool) (key : Nat) : Option Nat :=
  ks.journal.foldl (fun acc r => match r with
    | .freshTx k v => if tx && k = key then some v else acc
    | .freshRx k v => if !tx && k = key then some v else acc
    | _ => acc) none

/-! ### KEY_PRIV_ (R500, R543) -/

/-- The slot that a write of KEY_PRIV_CTL names, as GO leaves it: the eight data words, the low four for LEN 128. -/
def privSlot (ctl : Nat) (data : List Byte) : KeySlot :=
  { state := 1, attr := bits ctl 9 8, len256 := bit ctl 10, hostUse := bit ctl 11,
    value := padTo (if bit ctl 10 then 32 else 16) data }

/-- The two writes that the firmware makes (R500): the value that a KEY_PROVISION in hand carries under presence, into a slot
that KEY_MKA_SLOTS does not reserve; and a SAK that the module has drawn as key server, into a slot reserved to it. -/
def Gw.privTakes (g : Gw) (ctl : Nat) (data : List Byte) : Bool :=
  let i := bits ctl 5 0
  bit ctl 31 && g.islOn 11 &&
    (if g.mkaSlot i then g.mka.any (fun q => (q.2.encSlot = some i || q.2.decSlot = some i) &&
        bit ctl 10 && q.2.sak.length = 32 && padTo 32 data = q.2.sak)
      else g.fw.presence && (List.range 4).any (fun m => g.holds m 0x0A01 && bits (g.arg m 0) 5 0 = i &&
        g.provisionSlot m = privSlot ctl data))

/-- GO writes the slot, and its record is in the journal (R533). The registers read 0 afterwards. -/
def Gw.privGo (g : Gw) (i : Nat) (k : KeySlot) : Gw :=
  let g := g.invalidate (g.keys.family i)
  let ks := (g.keys.set i { k with gen := (g.keys.at' i).gen }).bumpGen i
  { g with keys := { ks with journal := ks.journal ++ [.priv i k ks.root] } }

/-! ### Tamper (R535, R536) -/

/-- The root bank in use: the lowest that holds a root and whose fuse is intact (R497). -/
def KeyStore.lowestBank (ks : KeyStore) : Option Nat :=
  ks.banks.findIdx? (fun (b : RootBank) => b.root.isSome && !b.revoked)

/-- The root-revoked fuse of the current bank is burned (R535): also in sleep and before the boot ROM has run, where the
bank is the one that the next start would use. -/
def KeyStore.burn (ks : KeyStore) : KeyStore :=
  match ks.lowestBank with
  | some b => { ks with banks := ks.banks.modify b (fun x => { x with revoked := true }), bank := none, fusePending := false }
  | none => { ks with fusePending := false }

/-- The seal loop opens: every slot EMPTY, the caches empty, presence lost, requests complete with KEY_EMPTY; with VAON
in range the fuse is burned, else at the next start (R536). -/
def Gw.tamper (g : Gw) (vaonOk : Bool) : Gw :=
  let empty := g.keys.slots.map (fun (k : Nat × KeySlot) => (k.1, ({ gen := k.2.gen } : KeySlot)))
  let ks := { g.keys with slots := empty, past := [], fw := [], loopOpen := true, fusePending := true }
  let ks := if vaonOk then ks.burn else ks
  let fail := fun (j : CryJob) => if j.status.isNone then g.ended j 2 else j
  let qs := g.cryQ.map (fun (q : Nat × CryQueue) => (q.1, { q.2 with jobs := q.2.jobs.map fail }))
  let g := { g with keys := ks, cryCache := [], cryQ := qs, fw := { g.fw with presence := false } }
  if g.fw.running then ((g.flag Reg.cryFlag 0x10000000).note "TAMPER").degrade else g

/-- A check of R522 fails on core `core`: counted, flagged and reported (R523). -/
def Gw.checkFailed (g : Gw) (core : Nat) : Gw :=
  ((g.bump Reg.cryFaultCnt).flag Reg.cryFlag 0x80000000).detect 3 core 11 core

/-- TRNG_HEALTH_FAIL (R495): the flag and a detected error; the failing test's number is not given. -/
def Gw.trngFail (g : Gw) : Gw :=
  ({ g with trngOk := false }.flag Reg.cryFlag 0x40000000).detect 7 0 11 9

def execTrngHealthFail (s : State) : Host.Outcome State Fault Refusal :=
  answer (onGw (fun g => if g.islOn 11 then g.trngFail else g)) s

end Sys2Proof.Machine
end

