-- ==== Sys2Proof/Machine/Egress.lean ====
section
/-! DEFINITION. Egress scheduling (R239–R262): accounted times, gates, credits, reservations, weighted selection, and
the accounted transmitter of each port. -/

namespace Sys2Proof.Machine

/-! ### Port figures -/

/-- F0–F11, F14 and F15 have planned launches, gates, credits and constant residence (R241, R244). -/
def wirePort (f : Nat) : Bool := f ≤ 11 || f = 14 || f = 15

/-- MAC index of a wire port: E0–E11, K0, K1 (chapter 7); index j of EGR_CBS (R269). -/
def macIndex (f : Nat) : Nat := if f ≤ 11 then f else if f = 14 then 12 else 13

/-- Fabric port of a MAC index. -/
def macFabric (p : Nat) : Nat := if p ≤ 11 then p else if p = 12 then 14 else 15

def Gw.egrAt (g : Gw) (f : Nat) : EgrPort := mgetD g.egr f {}
def Gw.setEgr (g : Gw) (f : Nat) (e : EgrPort) : Gw := { g with egr := mset g.egr f e }
def Gw.ethAt (g : Gw) (p : Nat) : EthPort := mgetD g.eth p {}
def Gw.setEth (g : Gw) (p : Nat) (e : EthPort) : Gw := { g with eth := mset g.eth p e }

/-- R_p in Mb/s. -/
def Gw.rate (g : Gw) (f : Nat) : Nat := g.param (Par.egrRate f)
/-- MODE 1: hierarchical service (R245). -/
def Gw.hier (g : Gw) (f : Nat) : Bool := bit (g.param (Par.egrPort f)) 31
/-- Λ_p = H + EGR_LAT_p, in ST64 units (R241). -/
def Gw.lambda8 (g : Gw) (f : Nat) : Nat := 8 * (g.hNs + 8 * bits (g.param (Par.egrPort f)) 30 20)

/-- τ of a copy of length L (R240). -/
def Gw.tau (g : Gw) (f len : Nat) : Nat := ceilDiv ((len + bits (g.param (Par.egrPort f)) 19 14) * 64000) (g.rate f)

/-- Accounted length L_acc (R240). -/
def Gw.accLen (g : Gw) (f len : Nat) : Nat := len + bits (g.param (Par.egrPort f)) 19 14

/-- Preemption enabled on a port, and preemptable classes (R283, R286). -/
def Gw.preempts (g : Gw) (f : Nat) : Bool := wirePort f && bit (g.param (Par.ethMac (macIndex f))) 14
def Gw.preemptable (g : Gw) (f cls : Nat) : Bool := g.preempts f && bit (g.param (Par.ethMac (macIndex f))) cls

/-! ### Time gates (R251–R255) -/

/-- The segments of one cycle in ST64 units: length and gate states. The last entry holds to the cycle's end; the
cycle's end cuts the list (R252). -/
def cutSegs : List Nat → Nat → List (Nat × Nat)
  | [], _ => []
  | [e], room => if room = 0 then [] else [(room, bits e 31 24)]
  | e :: r, room =>
    let n := min (64 * bits e 23 0) room
    if n = 0 then cutSegs r room else (n, bits e 31 24) :: cutSegs r (room - n)

def GateBank.segs (b : GateBank) : List (Nat × Nat) := cutSegs b.entries (8 * b.cycle)

/-- The segments from position `x` of the cycle to its end. -/
def dropSegs : List (Nat × Nat) → Nat → List (Nat × Nat)
  | [], _ => []
  | (n, v) :: r, x => if x < n then (n - x, v) :: r else dropSegs r (x - n)

/-- Open length at the head of a segment list. -/
def openHead (c : Nat) : List (Nat × Nat) → Nat
  | [] => 0
  | (n, v) :: r => if bit v c then n + openHead c r else 0

/-- Open length in a segment list. -/
def openTotal (c : Nat) (l : List (Nat × Nat)) : Nat := (l.map (fun e => if bit e.2 c then e.1 else 0)).sum

/-- The part of a segment list below length `x`. -/
def takeSegs : List (Nat × Nat) → Nat → List (Nat × Nat)
  | [], _ => []
  | (n, v) :: r, x => if x = 0 then [] else if x ≤ n then [(x, v)] else (n, v) :: takeSegs r (x - n)

/-- Position of a wire time in the bank's cycle. -/
def GateBank.phase (b : GateBank) (w : Stamp) : Nat := ((w - 8 * b.base) % (8 * b.cycle : Int)).toNat

/-- `k` copies of a list, one after another. -/
def repeatList {α : Type} : Nat → List α → List α
  | 0, _ => []
  | k + 1, l => l ++ repeatList k l

/-- The bank keeps the gate of class `c` open from wire time `w` for `need` units (R253). -/
def GateBank.stays (b : GateBank) (c : Nat) (w : Stamp) (need : Nat) : Bool :=
  b.entries.isEmpty ||
  need ≤ openHead c (dropSegs b.segs (b.phase w) ++ repeatList (need / (8 * b.cycle) + 1) b.segs) &&
  (0 < openHead c (dropSegs b.segs (b.phase w)))

/-- Open time of class `c` in the bank between two wire times. -/
def GateBank.openTime (b : GateBank) (c : Nat) (w1 w2 : Stamp) : Nat :=
  if b.entries.isEmpty then (w2 - w1).toNat else
  let len := (w2 - w1).toNat
  let x := b.phase w1
  let whole := (x + len) / (8 * b.cycle)
  whole * openTotal c b.segs + openTotal c (takeSegs b.segs ((x + len) % (8 * b.cycle))) -
    openTotal c (takeSegs b.segs x)

/-- The longest window of class `c` in the bank, windows joining across the cycle's end. -/
def GateBank.longest (b : GateBank) (c : Nat) : Nat :=
  let l := b.segs ++ b.segs
  (List.range b.segs.length).foldl (fun m i => max m (openHead c (l.drop i))) 0

/-- Wire times after `w`, within two cycles, at which an entry of the bank begins. -/
def GateBank.edges (b : GateBank) (w : Stamp) : List Stamp :=
  let start := w - b.phase w
  let offs : List Nat := (b.segs.foldl (fun (acc : Nat × List Nat) s => (acc.1 + s.1, acc.2 ++ [acc.1])) (0, [])).2
  let at' := fun (k o : Nat) => start + Int.ofNat (8 * b.cycle * k + o)
  (offs.map (at' 0) ++ offs.map (at' 1) ++ offs.map (at' 2)).filter (fun e => decide (w < e))

def EgrPort.bankAt (e : EgrPort) (i : Nat) : GateBank := mgetD e.banks i {}

/-- The arrangement in force, and the one a pending commit brings; an empty bank has every gate open (R251). -/
def EgrPort.gates (e : EgrPort) : GateBank := if e.gateEn then e.bankAt e.bank else {}
def EgrPort.gatesNext (e : EgrPort) (k : GateCommit) : GateBank :=
  match k.bank with
  | some i => e.bankAt i
  | none => {}

/-- The gate of class `c` is open at wire time `w` and stays so for `need` units, across a pending commit (R253,
R255). -/
def EgrPort.gatePass (e : EgrPort) (c : Nat) (w : Stamp) (need : Nat) : Bool :=
  match e.commit with
  | none => e.gates.stays c w need
  | some k =>
    if k.at' ≤ w then (e.gatesNext k).stays c w need
    else
      let first := min need (k.at' - w).toNat
      e.gates.stays c w first && (need ≤ first || (e.gatesNext k).stays c k.at' (need - first))

def EgrPort.openTime (e : EgrPort) (c : Nat) (w1 w2 : Stamp) : Nat :=
  match e.commit with
  | none => e.gates.openTime c w1 w2
  | some k =>
    if k.at' ≤ w1 then (e.gatesNext k).openTime c w1 w2
    else if w2 ≤ k.at' then e.gates.openTime c w1 w2
    else e.gates.openTime c w1 k.at' + (e.gatesNext k).openTime c k.at' w2

/-- Wire times after `w` at which gates may change. -/
def EgrPort.gateEdges (e : EgrPort) (w : Stamp) : List Stamp :=
  match e.commit with
  | none => if e.gates.entries.isEmpty then [] else e.gates.edges w
  | some k =>
    (if w < k.at' then [k.at'] else []) ++
    (if e.gates.entries.isEmpty then [] else (e.gates.edges w).filter (fun x => x < k.at')) ++
    (if (e.gatesNext k).entries.isEmpty then [] else (e.gatesNext k).edges (max w k.at'))

/-! ### Credit shapers (R250) -/

def Gw.cbs (g : Gw) (f c : Nat) : Nat := if wirePort f then g.param (Par.egrCbs (8 * macIndex f + c)) else 0
def Gw.idleKbps (g : Gw) (f c : Nat) : Nat := bits (g.cbs f c) 62 32
def Gw.burstBits (g : Gw) (f c : Nat) : Nat := bits (g.cbs f c) 31 0

/-- The credit of a class starts at 0 at the run's start. -/
def Gw.credit (g : Gw) (f c : Nat) : Credit := mgetD (g.egrAt f).credits c { t := (g.egrAt f).creditFrom }
def Gw.setCredit (g : Gw) (f c : Nat) (k : Credit) : Gw :=
  g.setEgr f { g.egrAt f with credits := mset (g.egrAt f).credits c k }

/-- The credit of class `c` brought to stamp `t` while no copy of the class is in transmission. -/
def Gw.creditAt (g : Gw) (f c : Nat) (t : Stamp) : Int :=
  let k := g.credit f c
  if t ≤ k.t then k.c
  else
    let w := g.lambda8 f
    min (Int.ofNat (g.burstBits f c) * 8000000)
      (k.c + Int.ofNat ((g.egrAt f).openTime c (k.t + w) (t + w)) * g.idleKbps f c)

def Gw.creditOk (g : Gw) (f c : Nat) (t : Stamp) : Bool := g.idleKbps f c = 0 || 0 ≤ g.creditAt f c t

/-- The stamp at which a negative credit would reach 0 with the gate open from `t` on. -/
def Gw.creditZero (g : Gw) (f c : Nat) (t : Stamp) : Stamp :=
  let k := g.idleKbps f c
  if k = 0 then t else t + (ceilDiv (-(g.creditAt f c t)).toNat k)

/-- The credit of class `c` at stamp `t`, in a transmission of the class too: that one's fall is settled for its end. -/
def Gw.creditNow (g : Gw) (f c : Nat) (t : Stamp) : Int :=
  let k := g.credit f c
  if t < k.t then k.c + (k.t - t) * (1000 * g.rate f - g.idleKbps f c) else g.creditAt f c t

/-- The credit after a copy of the class in accounted transmission from `s` to `d`. [Log 36: DEDUCED] -/
def Gw.spendCredit (g : Gw) (f c : Nat) (s d : Stamp) : Gw :=
  if g.idleKbps f c = 0 then g else
  let v := g.creditAt f c s - (d - s) * (1000 * g.rate f - g.idleKbps f c)
  g.setCredit f c { c := v, t := d }

/-- The credits of port `f` brought to stamp `t`, before its gates change. [Log 36: DEDUCED] -/
def Gw.settleCredits (g : Gw) (f : Nat) (t : Stamp) : Gw :=
  (List.range 8).foldl (fun (g : Gw) c =>
    if (g.credit f c).t < t then g.setCredit f c { c := g.creditAt f c t, t := t } else g) g

/-- EGR_CBS takes a new value at stamp `t`: the credit is brought there under the old one, and the rest of a
transmission runs under the new one. A shaper that was disabled starts at 0. [Log 37: DEDUCED] -/
def Gw.changeCbs (g : Gw) (f c new : Nat) (t : Stamp) : Gw :=
  let was : Int := Int.ofNat (g.idleKbps f c)
  let is' : Int := Int.ofNat (bits new 62 32)
  let top : Int := Int.ofNat (bits new 31 0) * 8000000
  let k := g.credit f c
  let sending := (g.egrAt f).cur.filter (fun x => x.copy.cls = c && x.copy.cr.isNone && t < x.dep)
  if was = 0 then
    match sending with
    | some x => g.setCredit f c { c := -((x.dep - t) * (1000 * g.rate f - is')), t := x.dep }
    | none => g.setCredit f c { c := 0, t := t }
  else if t < k.t then g.setCredit f c { c := k.c + (k.t - t) * (is' - was), t := k.t }
  else g.setCredit f c { c := min top (g.creditAt f c t), t := t }

/-! ### Reservations (R257) -/

/-- Wire time of one continuation: 24 bytes (R257, R284). -/
def Gw.contCost (g : Gw) (f : Nat) : Nat := ceilDiv (24 * 64000) (g.rate f)

/-- A copy may be preempted at `sr`: 60 bytes passed and 64 left (R257). `x` is the time given to reservations.
[Log 46: DEDUCED] -/
def Gw.canPreempt (g : Gw) (f : Nat) (c : Copy) (s sr : Stamp) (x : Nat) : Bool :=
  let passed : Int := (sr - s - x) * g.rate f / 64000 - 8
  g.preemptable f c.cls && c.cr.isNone && 60 ≤ passed && 64 ≤ c.len - passed

/-- X of R257 at stamp `t`: the extensions that reservations ending at or before `t` have given a copy. -/
def extAt (ext : List (Stamp × Nat)) (t : Stamp) : Nat := (ext.map (fun r => if r.1 ≤ t then r.2 else 0)).sum

/-- What a reservation adds to the departure of a copy that spans it (R257). -/
def Gw.extCost (g : Gw) (f tau : Nat) : Nat := tau + g.contCost f

/-- Departure and extensions of a copy started at `s`, or none when it does not keep clear of a reservation. The
reservations come in order of start. -/
def Gw.clearOf (g : Gw) (f : Nat) (c : Copy) (s : Stamp) :
    List Resv → Stamp → List (Stamp × Nat) → Option (Stamp × List (Stamp × Nat))
  | [], d, x => some (d, x)
  | r :: rs, d, x =>
    if d ≤ r.start || r.start + r.tau ≤ s then g.clearOf f c s rs d x
    else if s < r.start && g.canPreempt f c s r.start (extAt x r.start) then
      g.clearOf f c s rs (d + g.extCost f r.tau) (x ++ [(r.start + r.tau, g.extCost f r.tau)])
    else none

def sortResv (l : List Resv) : List Resv := l.foldr (insertBy (fun a b => a.start < b.start)) []

/-- A copy's accounted departure if started at `t` (R241, R257). -/
def Gw.depart (g : Gw) (f : Nat) (c : Copy) (t : Stamp) : Option (Stamp × List (Stamp × Nat)) :=
  g.clearOf f c t (sortResv (g.egrAt f).resv) (t + g.tau f c.len) []

/-! ### Candidates and selection (R245–R249) -/

/-- Queue number of a copy for service: its class, or its leaf in mode 1. -/
def Gw.serviceQueue (g : Gw) (f : Nat) (c : Copy) : Nat := if g.hier f then c.leaf else c.cls

/-- The head copies of a port's queues at stamp `t`: the first of each queue that is not reserved. -/
def Gw.heads (g : Gw) (f : Nat) (t : Stamp) : List Copy :=
  ((g.egrAt f).queued.foldl (fun (acc : List Nat × List Copy) c =>
    if c.cr.isSome || acc.1.contains (g.serviceQueue f c) then acc
    else (g.serviceQueue f c :: acc.1, if c.admO ≤ t then acc.2 ++ [c] else acc.2)) ([], [])).2

/-- The transmitter's departure for a candidate at stamp `t`, none when it is no candidate (R249). -/
def Gw.candidate (g : Gw) (f : Nat) (c : Copy) (t : Stamp) : Option (Stamp × List (Stamp × Nat)) :=
  match g.depart f c t with
  | some (d, x) =>
    if g.creditOk f c.cls t && (!wirePort f || (g.egrAt f).gatePass c.cls (t + g.lambda8 f) (d - t).toNat)
    then some (d, x) else none
  | none => none

/-- The first class or index of least rank; `lt` orders by tag then by the tie rule of R247. -/
def Gw.tagOf (g : Gw) (f child : Nat) : Nat := mgetD (g.egrAt f).tags child 0

/-- One choice of R247 among children (child key, weight, strict rank, tie rank, accounted length): the chosen child
key and, for a weighted child, its finish tag. -/
def Gw.chooseChild (g : Gw) (f node : Nat) (cs : List (Nat × Nat × Nat × Nat)) : Option (Nat × Option Nat) :=
  let strict := cs.filter (fun c => c.2.1 = 0)
  match leastBy (fun a b => a.2.2.1 < b.2.2.1) strict with
  | some c => some (c.1, none)
  | none =>
    let v := mgetD (g.egrAt f).vtime node 0
    let fin := cs.map (fun c => (c, max v (g.tagOf f c.1) + ceilDiv (c.2.2.2 * 65536) c.2.1))
    (leastBy (fun a b => a.2 < b.2 || (a.2 = b.2 && a.1.2.2.1 < b.1.2.2.1)) fin).map (fun c => (c.1.1, some c.2))

/-- V and G after a weighted choice (R247 step 3). -/
def Gw.markChoice (g : Gw) (f node : Nat) (r : Nat × Option Nat) : Gw :=
  match r.2 with
  | none => g
  | some t => g.setEgr f { g.egrAt f with vtime := mset (g.egrAt f).vtime node t, tags := mset (g.egrAt f).tags r.1 t }

/-- Weight code of class `c` in mode 0 (R269). -/
def Gw.classWeight (g : Gw) (f c : Nat) : Nat := bits (g.param (Par.egrWfq f)) (8 * c + 7) (8 * c)

/-- Weight of a mode-1 node (R246, R604); key 1000+d or 2000+16d+s. -/
def Gw.nodeWeight (g : Gw) (f key : Nat) : Nat := mgetD (g.egrAt f).weights key 0

/-- The copy a service queue would send. -/
def Gw.headOf (g : Gw) (f : Nat) (cs : List Copy) (q : Nat) : Option Copy :=
  cs.find? (fun c => g.serviceQueue f c = q)

/-- The selection of R248 among candidate copies, with the tags it leaves. `marks` says whether V and G move. -/
def Gw.selectFlat (g : Gw) (f : Nat) (cs : List Copy) : Option (Copy × Gw) :=
  match g.chooseChild f 0 (cs.map (fun c => (c.cls, g.classWeight f c.cls, 7 - c.cls, g.accLen f c.len))) with
  | some r => (g.headOf f cs r.1).map (fun c => (c, g.markChoice f 0 r))
  | none => none

/-- The service a domain would choose, with its choice record. -/
def Gw.serviceChoice (g : Gw) (f d : Nat) (cs : List Copy) : Option (Copy × (Nat × Option Nat)) :=
  let mine := cs.filter (fun c => c.leaf / 16 = d)
  match g.chooseChild f (1 + d)
      (mine.map (fun c => (2000 + c.leaf, g.nodeWeight f (2000 + c.leaf), c.leaf % 16, g.accLen f c.len))) with
  | some r => (mine.find? (fun c => 2000 + c.leaf = r.1)).map (fun c => (c, r))
  | none => none

def Gw.selectHier (g : Gw) (f : Nat) (cs : List Copy) : Option (Copy × Gw) :=
  let doms := (List.range 16).filterMap (fun d =>
    (g.serviceChoice f d cs).map (fun r => (1000 + d, g.nodeWeight f (1000 + d), d, g.accLen f r.1.len)))
  match g.chooseChild f 0 doms with
  | some r =>
    (g.serviceChoice f (r.1 - 1000) cs).map (fun x => (x.1, (g.markChoice f 0 r).markChoice f (1 + (r.1 - 1000)) x.2))
  | none => none

/-- The copy that R247 and R248 select, and the module with the tags moved. -/
def Gw.select (g : Gw) (f : Nat) (cs : List Copy) : Option (Copy × Gw) :=
  if g.hier f then g.selectHier f cs else g.selectFlat f cs

/-! ### The accounted transmitter (R239–R242, R254) -/

/-- D − S of a copy if started at `t`: with the extensions of R257, or τ alone where a reservation stands in its way. -/
def Gw.span (g : Gw) (f : Nat) (c : Copy) (t : Stamp) : Int :=
  match g.depart f c t with
  | some (d, _) => d - t
  | none => Int.ofNat (g.tau f c.len)

/-- A head that no window of its class can carry (R254). -/
def Gw.gateTooLong (g : Gw) (f : Nat) (c : Copy) (t : Stamp) : Bool :=
  let e := g.egrAt f
  let b := match e.commit with
    | some k => if k.at' ≤ t + g.lambda8 f then e.gatesNext k else e.gates
    | none => e.gates
  wirePort f && !b.entries.isEmpty && decide (Int.ofNat (b.longest c.cls) < g.span f c t) &&
    b.segs.any (fun s => !bit s.2 c.cls)

/-- What the transmitter does next. -/
inductive TxAct
  | serve (r : Resv)
  | discard (c : Copy)
  | pick
deriving DecidableEq, Repr

/-- What the transmitter can do at stamp `t` when idle. -/
def Gw.txAt (g : Gw) (f : Nat) (t : Stamp) : Option TxAct :=
  match (g.heads f t).find? (fun c => g.gateTooLong f c t) with
  | some c => some (.discard c)
  | none => if (g.heads f t).any (fun c => (g.candidate f c t).isSome) then some .pick else none

/-- The stamps after `t` at which a candidate can arise (R241). -/
def Gw.instants (g : Gw) (f : Nat) (t : Stamp) : List Stamp :=
  let e := g.egrAt f
  let ends : List Stamp := e.resv.map (fun (r : Resv) => r.start + Int.ofNat r.tau)
  let zeros : List Stamp := (g.heads f t).map (fun (c : Copy) => g.creditZero f c.cls t)
  let gates : List Stamp :=
    if wirePort f then (e.gateEdges (t + g.lambda8 f)).map (fun (w : Stamp) => w - Int.ofNat (g.lambda8 f)) else []
  (e.queued.map Copy.admO ++ ends ++ zeros ++ gates).filter (fun x => decide (t < x))

/-- The first stamp from `t` on at which the idle transmitter can act, no later than `limit`. Every call goes on at a later
stamp, so that `limit` − `t` + 1 calls are enough. -/
def Gw.firstAct (g : Gw) (f : Nat) (limit : Stamp) : Nat → Stamp → Option (Stamp × TxAct)
  | 0, _ => none
  | n + 1, t =>
    if limit < t then none else
    match g.txAt f t with
    | some a => some (t, a)
    | none =>
      match leastBy (fun a b => a < b) (g.instants f t) with
      | some t' => g.firstAct f limit n t'
      | none => none

/-- The stamp from which the transmitter's decisions are open: it is idle, and no earlier decision is final. -/
def EgrPort.from' (e : EgrPort) : Stamp := max e.idleFrom e.settled

/-- The next decision of port `f` no later than `limit`: the start of a reservation, or a selection (R239, R241). -/
def Gw.nextTx (g : Gw) (f : Nat) (limit : Stamp) : Option (Stamp × TxAct) :=
  let e := g.egrAt f
  let res := (leastBy (fun a b => a.start < b.start) e.resv).map (fun r => (r.start, TxAct.serve r))
  let res := res.bind (fun r => if r.1 ≤ limit then some r else none)
  if e.queued.all (fun c => c.cr.isSome) then res else
  match res, g.firstAct f limit ((limit - e.from').toNat + 1) e.from' with
  | some r, some a => if r.1 ≤ a.1 then some r else some a
  | some r, none => some r
  | none, a => a

/-- Every decision of port `f` before stamp `t` is final (R239). -/
def Gw.settle (g : Gw) (f : Nat) (t : Stamp) : Gw := g.setEgr f { g.egrAt f with settled := max (g.egrAt f).settled t }

/-- Every decision before stamp `t` is final on every port. -/
def Gw.settleAll (g : Gw) (t : Stamp) : Gw :=
  { g with egr := g.egr.map (fun (q : Nat × EgrPort) => (q.1, { q.2 with settled := max q.2.settled t })) }

/-- A copy taken out of its queue. -/
def Gw.unqueue (g : Gw) (f : Nat) (c : Copy) : Gw :=
  let e := g.egrAt f
  g.setEgr f { e with queued := e.queued.filter (fun x => x.tag != c.tag),
                      resv := e.resv.filter (fun r => r.copy.tag != c.tag) }

/-- The head cell that staging holds of a copy that leaves its queue unselected. -/
def Gw.dropStaged (g : Gw) (f tag : Nat) : Gw :=
  g.setEgr f { g.egrAt f with staged := (g.egrAt f).staged.filter (fun q => q.1 ≠ tag) }

/-- A TX timestamp entry produced by queue `p` (R305–R308). [Log 51: DEDUCED] -/
def Gw.pushTs (g : Gw) (p : Nat) (stamp : Stamp) (tag seg : Nat) (disc : Bool) : Gw :=
  let e := g.ethAt p
  let ent : TsEntry := { stamp := stamp, tag := tag, seq := e.tsSeq, disc := disc, seg := seg }
  let full := 64 ≤ e.tsq.length
  let g := g.setEth p { e with tsSeq := (e.tsSeq + 1) % 65536, tsq := if full then e.tsq else e.tsq ++ [ent] }
  if full then (g.flag (Reg.tsqStat p) 0x80000000).bump (Reg.tsqLost p) else g

/-- The DISC entry of a stamp-requesting frame discarded after selection (R307). [Log 51: DEDUCED] -/
def Gw.discTs (g : Gw) (f : Nat) (x : Frame) : Gw :=
  match x.tsTag with
  | some tag => if wirePort f then g.pushTs (macIndex f) 0 tag g.tb.seg true else g
  | none => g

/-- A copy discarded at stamp `s`: it takes no time, its cells come back at `s`, and the transmitter goes on at `s`. -/
def Gw.discardCopy (g : Gw) (f : Nat) (c : Copy) (s : Stamp) : Gw :=
  let g := ((((g.unqueue f c).settle f s).dropRefs f c.tag).dropStaged f c.tag).addRet
    { dep := s, port := f, cls := c.cls, cells := c.cells, inPort := c.frame.fport, fid := c.fid }
  ((if c.scrubbed then g else g.unclaim c.fid).discTs f c.frame)

/-- The ageing test of R109 at a would-be departure; the ingress stamp is taken in the segment being released
(R859). [Log 35: DEDUCED] -/
def Gw.aged (g : Gw) (f : Nat) (c : Copy) (d : Stamp) : Bool :=
  let lim := g.ageLimitUs f c.cls
  lim ≠ 0 && Int.ofNat (8000 * lim) < d - g.translate c.frame.ing c.frame.ingSeg g.str.relSeg

/-! ### The staging buffer (R119–R121) -/

/-- How many of the next selected copies find room behind `used` reserved cells, of the 320 for selected frames. -/
def roomFor : List Sel → Nat → Nat
  | [], _ => 0
  | w :: r, used => if used + w.copy.cells ≤ 320 then 1 + roomFor r (used + w.copy.cells) else 0

/-- Reservations for the selected copies of port `f` that staging has room for, in the order of selection (R119). -/
def EgrPort.reserveStage (e : EgrPort) : EgrPort :=
  let used := ((e.selected.take e.reserved).map (fun (w : Sel) => w.copy.cells)).sum
  { e with reserved := e.reserved + roomFor (e.selected.drop e.reserved) used }

/-- The oldest selected copy is whole in staging (R121). -/
def EgrPort.headStaged (e : EgrPort) : Bool :=
  match e.selected with
  | w :: _ => 1 ≤ e.reserved && (List.range w.copy.cells).all (fun i => e.staged.contains (w.copy.tag, i))
  | [] => false

/-- The oldest selected copy leaves staging (R121). -/
def EgrPort.leaveStage (e : EgrPort) : EgrPort :=
  match e.selected with
  | w :: rest =>
    ({ e with selected := rest, reserved := e.reserved - 1,
              staged := e.staged.filter (fun q => q.1 ≠ w.copy.tag) } : EgrPort).reserveStage
  | [] => e

/-- The cell that output `f` reads in a slot, of those at the connected intermediate: for the oldest selected frame with a
reservation that has one there, else the first cell of the head frame of a class queue, in which a selected frame stands until
staging has room for it (R119, R120). -/
def EgrPort.readsCell (e : EgrPort) (here : List CellRef) : Option CellRef :=
  match (e.selected.take e.reserved).findSome? (fun w => here.find? (fun r => r.tag = w.copy.tag)) with
  | some r => some r
  | none => (List.range 8).findSome? (fun c =>
      (((e.selected.drop e.reserved).map Sel.copy ++ e.queued).find? (fun q => q.cls = c)).bind (fun q => here.find? (fun r => r.tag = q.tag && r.index = 0)))

/-- Output `f` meets intermediate (f + s) mod 24 in slot `s` and reads at most one cell there (R118, R120). -/
def Gw.stageTwo (g : Gw) (s f : Nat) : Gw :=
  let e := g.egrAt f
  let k := 24 * f + (f + s) % 24
  let refs := mgetD g.cal.voq k []
  let written := fun (r : CellRef) => ((mget? g.cal.cells r.cell).map (fun c => decide (c.slot ≤ s))).getD false
  match e.readsCell (refs.filter written) with
  | some r =>
    let g := { g with cal := { g.cal with voq := mput g.cal.voq k (refs.filter (fun q => q ≠ r)) [] } }
    g.setEgr f { e with staged := e.staged ++ [(r.tag, r.index)] }
  | none => g

/-- The slot that begins at the present tick, one every five ticks (R115, R118). -/
def Gw.fabricSlot (g : Gw) : Gw :=
  if g.islOn 0 && (g.tb.tick - g.cal.start) % 5 = 0 then (g.egr.map (·.1)).foldl (fun (g : Gw) f => g.stageTwo g.slotNow f) g else g

/-- The transmit SA in use at a selection for a MAC, with the value of its slot for it (R299, R512). -/
def Gw.saInUse (g : Gw) (f : Nat) : Option (Nat × Option (List Byte)) :=
  let x := g.ethAt (macIndex f)
  if wirePort f then x.encoding.map (fun i => (i, (x.sas.find? (fun a => a.id = i)).bind g.keys.saKey)) else none

/-- A copy fixed with start `s` and departure `d` (R241). -/
def Gw.fixSel (g : Gw) (f : Nat) (c : Copy) (s d : Stamp) (x : List (Stamp × Nat)) (reserved : Bool) : Gw :=
  let g := (g.unqueue f c).bump (Reg.egrSelCnt f)
  let sel : Sel := { copy := c, start := s, dep := d, launch := s + g.lambda8 f, reserved := reserved, ext := x,
                     seg := g.str.relSeg, sa := g.saInUse f }
  let e := g.egrAt f
  let e' : EgrPort :=
    { e with selected := e.selected ++ [sel], cur := if reserved && s < e.idleFrom then e.cur else some sel,
             idleFrom := max e.idleFrom d, settled := max e.settled s,
             lastResv := if reserved then some (s, d) else e.lastResv }
  let g := g.setEgr f e'.reserveStage
  if f = 16 || f = 17 then g
  else g.addRet { dep := d, port := f, cls := c.cls, cells := c.cells, inPort := c.frame.fport, fid := c.fid }

/-- A reservation reaches its start: the reserved copy is selected, or aged (R242, R259). -/
def Gw.serveResv (g : Gw) (f : Nat) (r : Resv) : Gw :=
  if g.aged f r.copy (r.start + r.tau) then (g.discardCopy f r.copy r.start).bump (Reg.fabQAged (8 * f + r.copy.cls))
  else g.fixSel f r.copy r.start (r.start + r.tau) [] true

/-- The selection at stamp `t` among the candidates (R241, R242). [Log 35: DEDUCED] -/
def Gw.pickAt (g : Gw) (f : Nat) (t : Stamp) : Gw :=
  let cs := (g.heads f t).filter (fun c => (g.candidate f c t).isSome)
  match g.select f cs with
  | some (c, g') =>
    match g.candidate f c t with
    | some (d, x) =>
      let g0 := g.setEgr f { g.egrAt f with idleFrom := max (g.egrAt f).idleFrom t }
      if g.aged f c (t + g.tau f c.len) then (g0.discardCopy f c t).bump (Reg.fabQAged (8 * f + c.cls))
      else
        let g1 := g'.setEgr f { g'.egrAt f with idleFrom := max (g'.egrAt f).idleFrom t }
        (g1.fixSel f c t d x false).spendCredit f c.cls t d
    | none => g
  | none => g

/-- One decision of the accounted transmitter of port `f` (R239–R242, R254). -/
def Gw.txStep (g : Gw) (f : Nat) (t : Stamp) : TxAct → Gw
  | .serve r => g.serveResv f r
  | .discard c =>
    ((g.discardCopy f c t).bump (Reg.egrGateOvsCnt f)).flag Reg.egrFlag 0x10000000
  | .pick => g.pickAt f t

/-! ### Constant residence (R256–R258) -/

/-- The reservations of a port that may overlap a new one: those to come, and the last one served (R258). -/
def EgrPort.taken (e : EgrPort) : List (Stamp × Stamp) :=
  e.lastResv.toList ++ e.resv.map (fun (r : Resv) => (r.start, r.start + Int.ofNat r.tau))

/-- None of the three LATE conditions holds for a start at `s` (R258). -/
def Gw.resvOk (g : Gw) (f : Nat) (o s : Stamp) (tau : Nat) : Bool :=
  let e := g.egrAt f
  o ≤ s && !(e.taken.any (fun r => r.1 < s + tau && s < r.2)) &&
    (match e.cur with
      | some x => !(x.start < o && x.start ≤ s && s < x.dep && !(g.canPreempt f x.copy x.start s (extAt x.ext s)))
      | none => true)

/-- Stamps from which a late reservation may become possible: its release, the end of a reservation, the end of the copy
in transmission, and the stamps at which 60 bytes of that copy have passed, whatever extensions count by then. -/
def Gw.resvTries (g : Gw) (f : Nat) (o sr : Stamp) : List Stamp :=
  let e := g.egrAt f
  let cur : List Stamp := match e.cur with
    | some x => x.dep :: (List.range (x.ext.length + 1)).map (fun k =>
        x.start + Int.ofNat (((x.ext.take k).map Prod.snd).sum + ceilDiv (68 * 64000) (g.rate f)))
    | none => []
  ([o] ++ e.taken.map Prod.snd ++ cur).filter (fun t => decide (sr < t) && decide (o ≤ t))

/-- The extensions that a transmission up to `d` takes from further reservations, in order, each one that the departure
reached so far spans (R257). -/
def Gw.spanOn (g : Gw) (f : Nat) : List Resv → Stamp → List (Stamp × Nat)
  | [], _ => []
  | r :: rs, d =>
    if r.start < d then
      (r.start + Int.ofNat r.tau, g.extCost f r.tau) :: g.spanOn f rs (d + Int.ofNat (g.extCost f r.tau))
    else g.spanOn f rs d

/-- A reservation made inside a transmission that it may preempt extends that transmission, and so does every further one
that it then comes to span; the credit falls on to the new departure (R250, R257). -/
def Gw.extendCur (g : Gw) (f : Nat) (s : Stamp) (tau : Nat) : Gw :=
  let e := g.egrAt f
  match e.cur with
  | some x =>
    if x.start ≤ s && s < x.dep && !x.reserved then
      let first := (s + Int.ofNat tau, g.extCost f tau)
      let later := (sortResv e.resv).filter (fun r => decide (x.dep ≤ r.start))
      let new := first :: g.spanOn f later (x.dep + Int.ofNat first.2)
      let more := (new.map Prod.snd).sum
      let y : Sel := { x with dep := x.dep + more, ext := new.foldl (fun l r => insertBy (fun a b => a.1 < b.1) r l) x.ext }
      let sel := e.selected.map (fun (z : Sel) => if z.copy.tag = x.copy.tag then y else z)
      let k := g.credit f x.copy.cls
      let fall := Int.ofNat more * (1000 * g.rate f - g.idleKbps f x.copy.cls)
      let g := g.setEgr f { e with cur := some y, idleFrom := max e.idleFrom y.dep, selected := sel }
      let g := if g.idleKbps f x.copy.cls ≠ 0 && k.t = x.dep then
          g.setCredit f x.copy.cls { c := k.c - fall, t := y.dep } else g
      let mine : Ret → Bool := fun r => r.port = f && r.fid = x.copy.fid && r.dep = x.dep
      let g := { g with cal := { g.cal with rets := g.cal.rets.filter (fun r => !mine r) } }
      g.addRet { dep := y.dep, port := f, cls := x.copy.cls, cells := x.copy.cells, inPort := x.copy.frame.fport,
                 fid := x.copy.fid }
    else g
  | none => g

/-- The reservation of a constant-residence copy at its release with order stamp `o` (R257, R258). Every decision before `o` has
been taken without it. -/
def Gw.reserve (g : Gw) (f : Nat) (c : Copy) (target o : Stamp) : Gw :=
  let g := g.settle f o
  let tau := g.tau f c.len
  let sr := target - g.lambda8 f
  let put := fun (g : Gw) (s : Stamp) =>
    let g := g.extendCur f s tau
    g.setEgr f { g.egrAt f with resv := (g.egrAt f).resv ++ [{ copy := c, start := s, tau := tau }] }
  if g.resvOk f o sr tau then put g sr
  else
    let s := ((leastBy (fun a b => a < b) ((g.resvTries f o sr).filter (fun t => g.resvOk f o t tau)))).getD
      (max o (g.egrAt f).idleFrom)
    let g := (g.bump (Reg.egrCrLateCnt f)).flag Reg.egrFlag 0x80000000
    let g := g.setRegN Reg.egrLateLast (f * 2 ^ 27 + atBit 26 c.lateDrop + c.handle % 65536)
    let g := g.setRegN Reg.egrLateLastDly (min 0xFFFFFFFF (s - sr).toNat)
    if c.lateDrop then
      ((g.discardCopy f c o).bump (Reg.egrCrLdropCnt f)).flag Reg.egrFlag 0x40000000
    else put g s

end Sys2Proof.Machine
end

