-- ==== Sys2Proof/Machine/Router.lean ====
section
/-! DEFINITION. The signal router (R194–R230): signal positions, transform and saturation, destination PDUs and their
triggers, timeouts, rerouting, and tunnelling in both directions; and the admission of frames to egress queues, which
the router shares with the pipelines (R67, R99–R105). -/

namespace Sys2Proof.Machine

/-! ### Queue admission of a frame's copies (R67, R102, R105) -/

/-- A member of a frame's egress set with the class of its copy and its constant-residence target. -/
structure Member where
  port : Nat
  cls : Nat
  cr : Option Stamp := none
  lateDrop : Bool := false
  handle : Nat := 0
  cap : Option CapInfo := none
deriving DecidableEq, Repr

/-- LEAF_p[g][c] (R246). -/
def Gw.leafOf (g : Gw) (p inPort c : Nat) : Nat := mgetD (g.egrAt p).leafMap (8 * inPort + c) 0

/-- Queue admission for one member at order stamp `o` (R100, R102, R116). The answer says whether the copy was
admitted. -/
def Gw.admitCopy (g : Gw) (x : Frame) (m : Member) (o : Stamp) : Gw × Bool :=
  let n := cellsOf x.len
  let g := g.returnsUpTo o
  if g.admits m.port m.cls n then
    let g := (g.charge m.port m.cls n x.fport).claim x.fid
    let e := g.egrAt m.port
    let g := g.addRefs m.port e.nextTag x.fid
    let c : Copy := { fid := x.fid, tag := e.nextTag, frame := x, cls := m.cls,
                      leaf := g.leafOf m.port x.fport m.cls, len := x.len, cells := n, admO := o,
                      cr := if wirePort m.port then m.cr else none, lateDrop := m.lateDrop, handle := m.handle,
                      cap := m.cap }
    let g := g.setEgr m.port { e with queued := e.queued ++ [c], nextTag := e.nextTag + 1 }
    match c.cr with
    | some t => (g.reserve m.port c t o, true)
    | none => (g, true)
  else (g.bump (Reg.fabQDrop (8 * m.port + m.cls)), false)

/-- Queue admission of a stored frame for its members in ascending port order (R67). Every admitted copy claims the
stored frame (R105); the answer is how many were admitted. -/
def Gw.admitFrame (g : Gw) (x : Frame) (ms : List Member) (o : Stamp) : Gw × Nat :=
  ms.foldl (fun (acc : Gw × Nat) m =>
    let y := acc.1.admitCopy x m o
    (y.1, if y.2 then acc.2 + 1 else acc.2)) (g, 0)

/-- Queue admission of a frame that the module composes at its place in the order: a PDU's snapshot, a tunnel frame or an
unpacked one. It is stored for its copies alone; without a free cell it is discarded (R108). -/
def Gw.admitNew (g : Gw) (x : Frame) (ms : List Member) (o : Stamp) : Gw × Nat :=
  match g.storeFrame { x with fid := 0, o := o, oSeg := g.str.relSeg } with
  | some (g, x) =>
    let r := g.admitFrame x ms o
    (r.1.unclaim x.fid, r.2)
  | none => (g.noCell, 0)

/-! ### Signal positions (R195–R198) -/

/-- The payload bits of a signal from its least significant bit up. -/
def sigBits (start len : Nat) (big : Bool) : List Nat :=
  if big then
    let step := fun p => if p % 8 = 0 then p + 15 else p - 1
    ((List.range len).foldl (fun (acc : Nat × List Nat) _ => (step acc.1, acc.1 :: acc.2)) (start, [])).2
  else (List.range len).map (fun k => start + k)

/-- Payload bit `b` (R195). -/
def payloadBit (data : List Byte) (b : Nat) : Bool := (byteAt data (b / 8)).testBit (b % 8)

/-- The value of a signal. -/
def sigGet (data : List Byte) (ps : List Nat) : Nat :=
  ps.foldr (fun p a => (payloadBit data p).toNat + 2 * a) 0

/-- One payload bit set to a value. -/
def setPayloadBit (data : List Byte) (p : Nat) (v : Bool) : List Byte :=
  let old := byteAt data (p / 8)
  let new := if old.testBit (p % 8) = v then old else if v then old + 2 ^ (p % 8) else old - 2 ^ (p % 8)
  data.set (p / 8) (BitVec.ofNat 8 new)

/-- A value written into payload bits, least significant first. -/
def sigSet (data : List Byte) (ps : List Nat) (v : Nat) : List Byte :=
  (ps.foldl (fun (acc : List Byte × Nat) p => (setPayloadBit acc.1 p (acc.2 % 2 = 1), acc.2 / 2)) (data, v)).1

/-- Sign extension from `len` bits (R198). -/
def extend (signed : Bool) (len v : Nat) : Int :=
  if signed && v.testBit (len - 1) then Int.ofNat v - 2 ^ len else Int.ofNat v

/-! ### The route body (R200–R203) -/

/-- The fields of a T2 route body. -/
structure Route where
  start : Nat
  len : Nat
  big : Bool
  signed : Bool
  policy : Nat
  xf : Bool
  tmoMode : Nat
  alt : Bool
  scale : Int
  offset : Int
  dpdu : Nat
  dstart : Nat
  dlen : Nat
  dbig : Bool
  dsigned : Bool
  subst : Nat
  tmoMs : Nat
  altPdu : Nat
  altStart : Nat
  tslot : Nat
deriving DecidableEq, Repr

def routeOf (e : Entry) : Route :=
  { start := e.f 2 63 50, len := e.f 2 49 44 + 1, big := bit (e.word 2) 43, signed := bit (e.word 2) 42,
    policy := e.f 2 41 40, xf := bit (e.word 2) 39, tmoMode := e.f 2 38 37, alt := bit (e.word 2) 36,
    scale := asI32 (e.f 3 63 32), offset := asI32 (e.f 3 31 0), dpdu := e.f 4 63 52, dstart := e.f 4 51 38,
    dlen := e.f 4 37 32 + 1, dbig := bit (e.word 4) 31, dsigned := bit (e.word 4) 30, subst := e.word 5,
    tmoMs := e.f 6 63 48, altPdu := e.f 6 47 36, altStart := e.f 6 35 22, tslot := e.f 6 12 0 }

/-- The transform of R202, exact: floor((x × SCALE + OFFSET + 2¹⁵) / 2¹⁶). -/
def transform (r : Route) (x : Int) : Int := if r.xf then (x * r.scale + r.offset + 32768) / 65536 else x

/-- The destination range of R203. -/
def limitTo (r : Route) (y : Int) : Int :=
  if r.dsigned then max (-(2 ^ (r.dlen - 1))) (min (2 ^ (r.dlen - 1) - 1) y) else max 0 (min (2 ^ r.dlen - 1) y)

/-! ### Destination PDUs (R204–R209) -/

def Gw.setPdu (g : Gw) (k : Nat) (p : Pdu) : Gw := { g with rtr := { g.rtr with pdus := mset g.rtr.pdus k p } }

def Gw.setTmo (g : Gw) (n : Nat) (t : TimeoutSlot) : Gw :=
  { g with rtr := { g.rtr with slots := mset g.rtr.slots n t } }

/-- A trigger of PDU `k` by a decision at order stamp `o` (R207). -/
def Gw.trigger (g : Gw) (k : Nat) (p : Pdu) (o : Stamp) : Gw :=
  match p.event with
  | some _ => g.bump Reg.sigPduCoalCnt
  | none =>
    let due := p.gapRef + 8000000 * Int.ofNat p.desc.minGapMs
    let deferred := o + 1 < due
    let g := g.setPdu k { p with event := some (if deferred then due else o + 1) }
    if deferred then g.bump Reg.sigPduCoalCnt else g

/-- A route write into its destination or, while rerouted, its alternate PDU (R206, R215). -/
def Gw.routeWrite (g : Gw) (r : Route) (v : Nat) (o : Stamp) : Gw :=
  let rerouted := r.alt && (match mget? g.rtr.pdus r.dpdu with
    | some p => bit g.rtr.rerouted p.desc.bus
    | none => false)
  let k := if rerouted then r.altPdu else r.dpdu
  let start := if rerouted then r.altStart else r.dstart
  match mget? g.rtr.pdus k with
  | some p =>
    if !p.en then g else
    let ps := sigBits start r.dlen r.dbig
    let new := sigSet p.content ps v
    let p' := { p with content := new }
    let g := g.setPdu k p'
    if r.policy = 2 || (r.policy = 0 && new ≠ p.content) then g.trigger k p' o else g
  | none => g

/-- The deadline of a route's timeout slot set anew (R212). [Log 181: DESIGN CHOICE] -/
def Gw.armTimeout (g : Gw) (idx : Nat) (r : Route) (o : Stamp) : Gw :=
  if r.tmoMode = 0 then g
  else g.setTmo r.tslot { route := idx, deadline := some (o + 8000000 * Int.ofNat r.tmoMs) }

/-- One route applied to a received frame's data at order stamp `o` (R199, R202, R203, R212). -/
def Gw.applyRoute (g : Gw) (idx : Nat) (e : Entry) (data : List Byte) (o : Stamp) : Gw :=
  let r := routeOf e
  let ps := sigBits r.start r.len r.big
  if ps.any (fun p => 8 * data.length ≤ p) then (g.bump Reg.sigShortCnt).flag Reg.sigFlag 0x80000000
  else
    let y := transform r (extend r.signed r.len (sigGet data ps))
    let z := limitTo r y
    let g := g.bump Reg.sigRtCnt
    let g := if z = y then g else (g.bump Reg.sigSatCnt).flag Reg.sigFlag 0x40000000
    (g.armTimeout idx r o).routeWrite r (z % 2 ^ r.dlen).toNat o

/-- The internal-form frame of a PDU's snapshot at stamp `t` (R209). -/
def pduFrame (p : Pdu) (t : Stamp) (seg : Nat) : Frame :=
  { fport := 13, sub := 0, ing := t, ingSeg := seg, adm := t, seg := seg,
    body := .bus { bus := p.desc.bus, ident := p.desc.ident, xlf := p.desc.fmt = 3,
                   fdf := p.desc.fmt = 1 || p.desc.fmt = 2, brs := p.desc.fmt = 2, sdt := p.desc.sdt,
                   vcid := p.desc.vcid, sec := p.desc.sec, af := p.desc.af, data := p.content } }

/-- One transmission of PDU `k` at stamp `t` (R208, R209). -/
def Gw.transmitPdu (g : Gw) (k : Nat) (p : Pdu) (t : Stamp) : Gw :=
  let event := p.event.bind (fun e => if e ≤ t then none else some e)
  let g := g.setPdu k { p with gapRef := t, event := event }
  ((g.admitNew (pduFrame p t g.str.relSeg) [{ port := 13, cls := p.desc.cls }] t).1).bump Reg.sigPduTxCnt

/-- A cyclic expiry of PDU `k` at `t`: a transmission, and the next expiry one period on (R205). -/
def Gw.cyclicExpiry (g : Gw) (k : Nat) (p : Pdu) (t : Stamp) : Gw :=
  g.transmitPdu k { p with nextCyc := some (t + 8000000 * Int.ofNat p.desc.periodMs) } t

/-- The deadline of slot `n` expires at `t` (R213). -/
def Gw.expireTimeout (g : Gw) (n : Nat) (ts : TimeoutSlot) (t : Stamp) : Gw :=
  let g := g.setTmo n { ts with deadline := none, timedOut := true }
  let g := (g.bump Reg.sigTmoCnt).flag Reg.sigFlag 0x20000000
  match mget? g.cat.slots ts.route with
  | some e =>
    let r := routeOf e
    if r.tmoMode = 1 then g.routeWrite r (r.subst % 2 ^ r.dlen) t else g
  | none => g

/-- A REROUTED flag changed at stamp `t`; a change of value is counted and logged with its stamp (R216). -/
def Gw.setRerouted (g : Gw) (bus : Nat) (v : Bool) (t : Stamp) : Gw :=
  if bit g.rtr.rerouted bus = v then g
  else
    let n := if v then g.rtr.rerouted + 2 ^ bus else g.rtr.rerouted - 2 ^ bus
    ({ g with rtr := { g.rtr with rerouted := n } }.bump Reg.sigAltCnt).noteAt "reroute" [bus, if v then 1 else 0] t

/-! ### Tunnelling out (R217–R221) -/

/-- The protected identifier of a LIN frame. -/
def linPid (id : Nat) : Nat :=
  let b := fun i => bit id i
  id % 64 + atBit 6 (b 0 ^^ b 1 ^^ b 2 ^^ b 4) + atBit 7 (!(b 1 ^^ b 3 ^^ b 4 ^^ b 5))

/-- An ACF message from its type, the rest of its first two octet pairs, the fields after the time stamp and the
data: length in quadlets and pad bytes are worked out (R220). [Log 74: PRESUMED] -/
def acfMessage (typ : Nat) (flags : Nat) (stamp : Nat) (mtv : Bool) (fields data : List Byte) : List Byte :=
  let raw := 12 + fields.length + data.length
  let pad := (4 - raw % 4) % 4
  beBytes 2 (typ * 512 + (raw + pad) / 4) ++ beBytes 2 (pad * 16384 + atBit 13 mtv + flags) ++
    beBytes 8 (if mtv then stamp else 0) ++ fields ++ data ++ List.replicate pad 0

/-- The CAN XL message of R221. [Log 74: PRESUMED] -/
def acfXl (b : BusFrame) (stamp : Nat) (mtv : Bool) : List Byte :=
  let raw := 24 + b.data.length
  let pad := (4 - raw % 4) % 4
  beBytes 2 (0x78 * 512 + (raw + pad) / 4) ++ [BitVec.ofNat 8 (pad * 64 + atBit 5 mtv + b.bus % 32),
    BitVec.ofNat 8 (atBit 0 b.sec), BitVec.ofNat 8 b.sdt, BitVec.ofNat 8 b.vcid] ++ beBytes 2 (b.ident % 2048) ++
    beBytes 4 b.af ++ beBytes 8 (if mtv then stamp else 0) ++ beBytes 2 (b.data.length - 1) ++ beBytes 2 0 ++
    b.data ++ List.replicate pad 0

/-- The ACF message of a bus frame (R220). [Log 74: PRESUMED] -/
def acfOf (b : BusFrame) (stamp : Nat) (mtv : Bool) : List Byte :=
  if b.xlf then acfXl b stamp mtv
  else if b.bus ≤ 31 then
    acfMessage 0x01 (atBit 12 b.rtr + atBit 11 (bit b.ident 31) + atBit 10 b.brs + atBit 9 b.fdf + atBit 8 b.esi +
      b.bus % 32) stamp mtv (beBytes 4 (b.ident % 2 ^ 29)) b.data
  else if b.bus ≤ 43 then acfMessage 0x03 ((b.bus - 32) * 256 + linPid (b.ident % 64)) stamp mtv [] b.data
  else
    acfMessage 0x00 (atBit (if b.bus = 44 then 4 else 5) true + b.flx % 16) stamp mtv
      (beBytes 4 (b.ident % 2048 * 2 ^ 21 + b.cycle % 64)) b.data

/-- The Ethernet frame of R218, without FCS. [Log 74: PRESUMED] -/
def tunnelBytes (dmac smac pcp vid seq stream : Nat) (acf : List Byte) : List Byte :=
  leBytes 6 dmac ++ leBytes 6 smac ++ beBytes 2 0x8100 ++ beBytes 2 (pcp * 8192 + vid) ++ beBytes 2 0x22F0 ++
    [BitVec.ofNat 8 0x82] ++ beBytes 2 (32768 + acf.length % 2048) ++ [BitVec.ofNat 8 seq] ++ beBytes 8 stream ++ acf

/-- SIG_TUN_SMAC, or the station address of E0 when it is 0 (R230). -/
def Gw.tunSmac (g : Gw) : Nat :=
  let v := g.param Par.sigTunSmac
  if v = 0 then g.param (Par.ethSaddr 0) else v

/-- Class by EGR_PCPMAP of a port (R231). -/
def Gw.pcpClass (g : Gw) (f pcp : Nat) : Nat := bits (g.param (Par.egrPcpmap f)) (4 * pcp + 2) (4 * pcp)

/-- The tunnel frame of a bus frame whose T4 lookup hit entry `e` (R217–R221), and how many ports admitted it.
[Log 156: PRESUMED] -/
def Gw.tunnelOut (g : Gw) (x : Frame) (b : BusFrame) (e : Entry) (o : Stamp) : Gw × Nat :=
  if b.xlf && 2020 < b.data.length then ((g.bump Reg.sigTunDropCnt).flag Reg.sigFlag 0x08000000, 0)
  else
    let stream := e.word 4
    let seq := mgetD g.rtr.seqOut stream 0
    let ing := g.translate x.ing x.ingSeg g.str.relSeg
    let mtv := g.param Par.sigTunMtv = 1
    let bytes := withFcs (tunnelBytes (e.f 3 47 0) g.tunSmac (e.f 3 62 60) (e.f 3 59 48) seq stream
      (acfOf b (stampNat (ing / 8)) mtv))
    let y : Frame := { x with body := .eth bytes, tsTag := none, fv := none }
    let cls := g.pcpClass 13 (e.f 3 62 60)
    let seqs := mset g.rtr.seqOut stream ((seq + 1) % 256)
    let g := { g with rtr := { g.rtr with seqOut := seqs } }
    let r := g.admitNew y ((bitList 22 (e.f 5 21 0)).map (fun f => { port := f, cls := cls })) o
    (r.1.bump Reg.sigTunTxCnt, r.2)

/-! ### Tunnelling in (R222–R225) -/

/-- The bus frame an ACF message carries, for the bus type it names: 0 CAN, 1 LIN, 2 FlexRay.
[Log 74: PRESUMED, 173: DEDUCED] -/
def acfParse (m : List Byte) : Option (Nat × BusFrame) :=
  let typ := byteAt m 0 / 2
  let b2 := byteAt m 2
  let b3 := byteAt m 3
  let pad := b2 / 64
  let body := fun (h : Nat) => (m.drop h).take (m.length - h - pad)
  let canIdent := fun (h : Nat) => fromBe (slice m (h - 4) 4) % 2 ^ 29 + atBit 31 (bit b2 3)
  let flags : BusFrame := { rtr := bit b2 4, brs := bit b2 2, fdf := bit b2 1, esi := bit b2 0 }
  let can := fun (h : Nat) => (0, { flags with ident := canIdent h, data := body h })
  if typ = 0x01 then some (can 16)
  else if typ = 0x02 then some (can 8)
  else if typ = 0x03 then some (1, { ident := b3 % 64, data := body 12 })
  else if typ = 0x00 then
    some (2, { flx := b3 % 16, ident := fromBe (slice m 12 4) / 2 ^ 21 + bits (fromBe (slice m 12 4)) 5 0 * 2048,
               cycle := bits (fromBe (slice m 12 4)) 5 0, data := body 16 })
  else if typ = 0x78 then
    some (0, { xlf := true, sec := bit b3 0, sdt := byteAt m 4, vcid := byteAt m 5,
               ident := 2 ^ 30 + fromBe (slice m 6 2) % 2048, af := fromBe (slice m 8 4),
               data := (m.drop 24).take (fromBe (slice m 20 2) % 2048 + 1) })
  else none

/-- The messages of an AVTP payload in order: the whole ones, how many were skipped for their type, and whether the
reading stopped at a bad one (R222). -/
def acfMessages : Nat → List Byte → Nat → List (Nat × BusFrame) × Nat × Bool
  | 0, _, _ => ([], 0, false)
  | n + 1, bs, room =>
    if room = 0 then ([], 0, false) else
    let len := 4 * (fromBe (slice bs 0 2) % 512)
    if len = 0 || room < len || bs.length < len then ([], 0, true)
    else
      let r := acfMessages n (bs.drop len) (room - len)
      match acfParse (bs.take len) with
      | some x => (x :: r.1, r.2.1, r.2.2)
      | none => (r.1, r.2.1 + 1, r.2.2)

/-- The buses of a type in an OUT set (R149, R153). -/
def busesOf (typ out : Nat) : List Nat :=
  (bitList 46 out).filter (fun i => if typ = 0 then decide (i ≤ 31) else if typ = 1 then decide (32 ≤ i && i ≤ 43)
    else decide (44 ≤ i))

/-- MODE of CAN controller `c`: 0 classical, 1 FD, 2 XL (R318). -/
def Gw.canMode (g : Gw) (c : Nat) : Nat := bits (g.param (Par.canCfg c)) 63 62

/-- A controller sends a frame of this format (R223). [Log 91: DEDUCED] -/
def Gw.sendsFormat (g : Gw) (bus : Nat) (b : BusFrame) : Bool :=
  if bus ≤ 31 then (if b.xlf then g.canMode bus = 2 else if b.fdf then decide (1 ≤ g.canMode bus) else true) else true

/-- Sequence tracking of a received stream (R225). -/
def Gw.trackStream (g : Gw) (stream seq : Nat) : Gw :=
  match takeFirst (fun (y : Nat × Nat) => y.1 = stream) g.rtr.seqIn with
  | some (old, _) =>
    let seqs := g.rtr.seqIn.map (fun y => if y.1 = stream then (stream, seq) else y)
    let g' := { g with rtr := { g.rtr with seqIn := seqs } }
    if seq = (old.2 + 1) % 256 then g' else (g'.bump Reg.sigTunSeqCnt).flag Reg.sigFlag 0x10000000
  | none =>
    if g.rtr.seqIn.length < 4096 then { g with rtr := { g.rtr with seqIn := g.rtr.seqIn ++ [(stream, seq)] } } else g

/-- An IEEE 1722 frame delivered to F13 is unpacked under its T4 entry (R222–R224). [Log 75: DEDUCED] -/
def Gw.tunnelIn (g : Gw) (x : Frame) (bs : List Byte) (e : Entry) (o : Stamp) : Gw :=
  let p := stripFcs (bs.drop (payloadOff bs))
  let sub := byteAt p 0
  if sub ≠ 0x82 && sub ≠ 0x02 then (g.bump Reg.sigTunDropCnt).flag Reg.sigFlag 0x08000000
  else
    let hdr := if sub = 0x82 then 12 else 24
    let room := if sub = 0x82 then fromBe (slice p 1 2) % 2048 else fromBe (slice p 20 2)
    let seq := if sub = 0x82 then byteAt p 3 else byteAt p 2
    let g := g.trackStream (fromBe (slice p 4 8)) seq
    let r := acfMessages 4096 (p.drop hdr) room
    let g := g.bumpN Reg.sigTunDropCnt (r.2.1 + r.2.2.toNat)
    let g := if r.2.1 + r.2.2.toNat = 0 then g else g.flag Reg.sigFlag 0x08000000
    r.1.foldl (fun g msg =>
      (busesOf msg.1 (e.word 4)).foldl (fun g bus =>
        if g.sendsFormat bus msg.2 then
          let y : Frame := { x with body := .bus { msg.2 with bus := bus }, tsTag := none }
          (g.admitNew y [{ port := 13, cls := 0 }] o).1
        else (g.bump Reg.sigTunDropCnt).flag Reg.sigFlag 0x08000000) (g.bump Reg.sigTunRxCnt)) g

/-- A PDU started with INIT at its enable stamp (R205). -/
def Pdu.startAt (p : Pdu) (e : Stamp) : Pdu :=
  let next := if p.en && p.desc.periodMs ≠ 0 then some (e + 8000000 * Int.ofNat p.desc.phaseMs) else none
  { p with enable := e, gapRef := e, content := padTo p.desc.len p.desc.init, event := none, nextCyc := next }

/-! ### The start of a run (R205, R212, R219, R225) -/

def Gw.startRouter (g : Gw) (start : Stamp) : Gw :=
  let pdus := g.rtr.pdus.map (fun (k, p) => (k, p.startAt start))
  let slots := g.cat.slots.foldl (fun (acc : Map TimeoutSlot) (i, e) =>
    match g.partOf [5] i with
    | some _ =>
      let r := routeOf e
      if r.tmoMode = 0 || g.hidden i then acc
      else mset acc r.tslot { route := i, deadline := some (start + 8000000 * Int.ofNat r.tmoMs) }
    | none => acc) []
  { g with rtr := { run := true, pdus := pdus, slots := slots, rerouted := g.rtr.rerouted } }

end Sys2Proof.Machine
end

