-- ==== Sys2Proof/Machine/Release.lean ====
section
/-! DEFINITION. Strata's order and release (R42–R80, R859) and all ordered decisions of a released frame: lookups
(R156–R160), policing (R233–R238), class (R231), admission, freshness acceptance (R529), routes and tunnels, and
capture (R729). -/

namespace Sys2Proof.Machine

/-! ### The order (R42, R45, R57, R58) -/

/-- Count `a` precedes count `b` as serial numbers modulo 2²⁴ (R45). -/
def serialLt (a b : Nat) : Bool :=
  let d := (b + 16777216 - a % 16777216) % 16777216
  1 ≤ d && d ≤ 0x7FFFFF

/-- Sequences compare field by field, the last one as a serial number. -/
def seqLt : List Nat → List Nat → Bool
  | [], _ => false
  | _, [] => false
  | [a], [b] => serialLt a b
  | a :: r, b :: t => a < b || (a = b && seqLt r t)

/-- The order of R42 on order keys. -/
def keyLt (a b : OrderKey) : Bool :=
  a.seg < b.seg || (a.seg = b.seg && (a.o < b.o || (a.o = b.o &&
    (a.port < b.port || (a.port = b.port && seqLt a.seq b.seq)))))

/-- Pending records in order; an old-segment frame carried over goes first, by port and sequence (R76).
[Log 31: DEDUCED] -/
def pendLt (a b : Pend) : Bool :=
  if a.first != b.first then a.first
  else if a.first then a.key.port < b.key.port || (a.key.port = b.key.port && seqLt a.key.seq b.key.seq)
  else keyLt a.key b.key

/-- The next pending record of the segment being released. -/
def Gw.nextPend (g : Gw) : Option Pend :=
  leastBy pendLt (g.str.pend.filter (fun p => p.first || p.key.seg ≤ g.str.relSeg))

/-- The internal events of Strata (R57, R377). -/
inductive Ev
  | change (c : Change)
  | vitrine (p i : Nat) (pos : Stamp × Nat)
  | ageing (p i : Nat) (pos : Stamp × Nat)
  | composer (k : Nat)
  | pduEvent (k : Nat)
  | timeout (n : Nat)
  | linSlot (l : Nat)
deriving DecidableEq, Repr

/-- An internal event with its place: carried-over changes first, then stamp, kind of R58 and the ranks within it. -/
structure Due where
  first : Bool
  t : Stamp
  kind : Nat
  a : Nat
  b : Nat
  ev : Ev
deriving DecidableEq, Repr

/-- The stamp at which a change acts: its apply-at stamp, or the start of the new segment's order when it was carried
over a segment close (R78). [Log 24: DEDUCED] -/
def Gw.changeStamp (g : Gw) (c : Change) : Stamp := if c.first then g.str.frontier else c.t

/-- [Log 32: DEDUCED] -/
def dueLt (x y : Due) : Bool :=
  if x.first != y.first then x.first
  else
    let tail := x.kind < y.kind || (x.kind = y.kind && (x.a < y.a || (x.a = y.a && x.b < y.b)))
    if x.first then tail else x.t < y.t || (x.t = y.t && tail)

/-- Every internal event that waits. Composer events and timeouts rank by PDU index, then route index, an expiry
before the timeouts of its PDU. A change whose stamp lies in a segment that Strata has not come to waits for it (R59,
R77). [Log 2: DESIGN CHOICE, 32: DEDUCED] -/
def Gw.dues (g : Gw) (dram : List Host.Cell) : List Due :=
  let changes := (g.str.changes.filter (fun c => c.first || c.seg ≤ g.str.relSeg)).map (fun c =>
    ({ first := c.first, t := g.changeStamp c, kind := 1, a := c.rank, b := c.seq, ev := .change c } : Due))
  let vit := (g.nextVitrine dram).toList.map (fun v => ({ first := false, t := v.1.1, kind := 2, a := v.1.2, b := 0,
                                                          ev := .vitrine v.2.1 v.2.2 v.1 } : Due))
  let age := g.nextAgeing.toList.map (fun v => ({ first := false, t := v.1.1, kind := 3, a := v.1.2, b := 0,
                                                  ev := .ageing v.2.1 v.2.2 v.1 } : Due))
  let cyc := g.rtr.pdus.filterMap (fun (k, p) => p.nextCyc.map (fun t =>
    ({ first := false, t := t, kind := 4, a := k, b := 0, ev := .composer k } : Due)))
  let evs := g.rtr.pdus.filterMap (fun (k, p) => p.event.map (fun t =>
    ({ first := false, t := t, kind := 4, a := k, b := 1, ev := .pduEvent k } : Due)))
  let tmo := g.rtr.slots.filterMap (fun (n, s) => s.deadline.map (fun t =>
    let k := match mget? g.cat.slots s.route with
      | some e => (routeOf e).dpdu
      | none => 0
    ({ first := false, t := t, kind := 4, a := k, b := 2 + s.route, ev := .timeout n } : Due)))
  let lin := g.lin.filterMap (fun (l, c) => c.nextSlot.map (fun t =>
    ({ first := false, t := t, kind := 5, a := l, b := 0, ev := .linSlot l } : Due)))
  changes ++ vit ++ age ++ cyc ++ evs ++ tmo ++ lin

/-- [Log 2: DESIGN CHOICE] -/
def Gw.nextDue (g : Gw) (dram : List Host.Cell) : Option Due := leastBy dueLt (g.dues dram)

/-- No transmitter has a decision left before stamp `t` (R239: a decision at a stamp comes before what has a later
one). -/
def Gw.txSettled (g : Gw) (t : Stamp) : Bool :=
  (List.range 22).all (fun f => (g.nextTx f (t - 1)).isNone)

/-- The internal event that Strata may release now: the next one, its stamp reached, no pending frame ordered before
it (R57). A carried-over frame stands at its stamp F + 1 among events. [Log 31: DEDUCED] -/
def Gw.readyDue (g : Gw) (dram : List Host.Cell) : Option Due :=
  if !g.str.run then none else
  match g.nextDue dram with
  | some d =>
    let ahead := match g.nextPend with
      | some p => !d.first && p.key.o < d.t
      | none => false
    if d.t ≤ g.str.frontier && !ahead && g.txSettled d.t then some d else none
  | none => none

/-- The frame that Strata may release now (R48): the smallest order key, its stamp reached, no internal event at or
before it. A carried-over frame waits for its stamp F + 1 too (R72, R76). [Log 31: DEDUCED] -/
def Gw.readyPend (g : Gw) (dram : List Host.Cell) : Option Pend :=
  if !g.str.run then none else
  match g.nextPend with
  | some p =>
    let ahead := match g.nextDue dram with
      | some d => d.first || d.t ≤ p.key.o
      | none => false
    if p.key.o ≤ g.str.frontier && !ahead && g.txSettled p.key.o then some p else none
  | none => none

/-- The last stamp a transmitter may decide: the frontier, and before every waiting frame and event (R239). -/
def Gw.txLimit (g : Gw) (dram : List Host.Cell) : Stamp :=
  let a := match g.nextPend with
    | some p => min g.str.frontier (p.key.o - 1)
    | none => g.str.frontier
  match g.nextDue dram with
  | some d => min a (d.t - 1)
  | none => a

/-! ### Arrival at Strata (R43–R46, R51, R63, R71–R77) -/

/-- STR_PCFG_f (R88). -/
def Gw.pcfg (g : Gw) (f : Nat) : Nat := g.param (Par.strPcfg f)

/-- The PCP a frame uses: its tag's, or its default (R858). -/
def framePcp (x : Frame) (bs : List Byte) : Nat := if hasTag bs then tciOf bs / 8192 else x.dpcp

/-- The express order class (R51): by PCP on an Ethernet, 10BASE-T1S, chain or host port, by sub-source on F13, on no
other port. -/
def Gw.isExpress (g : Gw) (x : Frame) : Bool :=
  x.parent.isNone && bit (g.pcfg x.fport) 0 &&
    (match x.body with
      | .bus _ => x.fport = 13 && bit (g.param Par.strXsrcF13) x.sub
      | .eth bs => (x.fport ≤ 12 || (14 ≤ x.fport && x.fport ≤ 17)) && bit (g.pcfg x.fport) (16 + framePcp x bs))

/-- Pass offset of a re-injection port in ST64 units (R64); playback frames carry theirs in `ing` (R736). -/
def Gw.passOffset (g : Gw) (f : Nat) : Int :=
  if f = 18 then 8 * Int.ofNat (g.param Par.strPassF18Ns)
  else if f = 21 then 8 * Int.ofNat (g.param Par.strPassF21Ns) else 0

/-- The order stamp of R43 or R63 and the horizon of the frame's class, both in ST64 units. -/
def Gw.orderStamp (g : Gw) (x : Frame) : Stamp × Int :=
  let h := 8 * Int.ofNat g.hNs
  match x.parent with
  | some p => (p.o + g.passOffset x.fport, h)
  | none =>
    let hc := if g.isExpress x then 8 * Int.ofNat g.hxNs else h
    (x.adm - (h - hc), hc)

/-- The next sequence of a sub-source (R45) taken. -/
def Gw.takeCount (g : Gw) (x : Frame) : List Nat × Gw :=
  match x.parent with
  | some p => (p.seq, g)
  | none =>
    let k := 64 * x.fport + x.sub
    let n := mgetD g.str.counts k 0
    ([x.sub, n], { g with str := { g.str with counts := mput g.str.counts k ((n + 1) % 16777216) 0 } })

/-- An overrun counted and recorded (R71). -/
def Gw.noteOverrun (g : Gw) (x : Frame) (late : Int) : Gw :=
  let g := (g.bump (Reg.fabStrOvrCnt x.fport)).flag Reg.fabStrOvrFlag (2 ^ x.fport)
  let g := g.setRegN Reg.fabStrOvrLast (x.fport * 2 ^ 27 + x.sub % 64 * 2 ^ 21 + min 0x1FFFFF late.toNat)
  (g.setRegN Reg.fabStrOvrLastALo (stampLo x.adm)).setRegN Reg.fabStrOvrLastAHi (stampHi x.adm)

/-- The island of the stamp unit of a fabric port (R74, R19). [Log 144: DEDUCED] -/
def stampIsland (f : Nat) : Nat :=
  if f ≤ 5 then 6 else if f ≤ 11 then 7 else if f = 13 then 9 else if f ≤ 15 then 8 else if f ≤ 17 then 14
  else if f = 18 then 11 else if f = 19 then 10 else 13

/-- A frame of a transmit ring that took no queue admission on any port (R719). [Log 157: DEDUCED] -/
def Gw.noteTxDrop (g : Gw) (x : Frame) (admitted : Nat) : Gw :=
  match x.ring with
  | some r => if admitted = 0 && (x.fport = 16 || x.fport = 17) then g.bump (Reg.hdmaTxDrop r) else g
  | none => g

/-- The segment of a frame's order key: its admission stamp's, or its parent's (R42, R44, R63). -/
def Frame.orderSeg (x : Frame) : Nat := (x.parent.map Parent.seg).getD x.seg

/-- Stamps at or before which everything of segment `seg` is decided: the frontier, or, of a segment that Strata has not
come to, H behind its time (R47, R77). -/
def Gw.frontierOf (g : Gw) (seg : Nat) : Stamp := if seg ≤ g.str.relSeg then g.str.frontier else g.requestFrontier

/-- How far a frame with order stamp `o` of segment `seg` is past `o` + H, in 1/8 ns: positive for an overrun (R40, R66,
R71). A closed segment's stamp is translated into the present one (R859). [Log 164: DEDUCED] -/
def Gw.lateBy (g : Gw) (o : Stamp) (seg : Nat) : Int :=
  let due := o + 8 * Int.ofNat g.hNs
  if seg = g.str.relSeg then g.orderNow - due else g.now - g.translate due seg g.tb.seg

/-- The pending record of a frame that takes its place at stamp `o`. -/
def Gw.pendAt (g : Gw) (x : Frame) (seq : List Nat) (o : Stamp) (first late : Bool) : Gw :=
  let p : Pend := { frame := x, key := { seg := x.orderSeg, o := o, port := x.fport, seq := seq }, first := first,
                    overrun := late, express := g.isExpress x }
  { g with str := { g.str with pend := g.str.pend ++ [p] } }

/-- A frame that reaches Strata is discarded there, its pending cells freed (R72, R74, R585). -/
def Gw.discardPend (g : Gw) (x : Frame) : Gw := g.unclaim x.fid

/-- A frame reaches Strata (R45, R71–R77). Frames below the start of the run are discarded and take no count (R585); a
frame of a closed segment is an overrun whatever its stamp (R76). [Log 15: DESIGN CHOICE, 31: DEDUCED, 164: DEDUCED] -/
def Gw.arrive (g : Gw) (x : Frame) : Gw :=
  let os := g.orderStamp x
  let seg := x.orderSeg
  if !g.str.run || seg < g.str.startSeg || (seg = g.str.startSeg && os.1 < g.str.startStamp) then g.discardPend x
  else
    let t := g.takeCount x
    let g := t.2
    if x.parent.isNone && x.seg = g.tb.seg && g.now + 8000000 < os.1 then
      let u := stampIsland x.fport
      (((g.bump Reg.fabStrFutCnt).flag Reg.fabStrOvrFlag 0x80000000).detect 6 u u u).discardPend x
    else
      let closed : Bool := seg < g.str.relSeg
      let late := g.lateBy os.1 seg
      if !closed && late ≤ 0 then g.pendAt x t.1 os.1 false false
      else
        let g := g.noteOverrun x late
        if bit (g.pcfg x.fport) 8 then (g.noteTxDrop x 0).discardPend x
        else g.pendAt x t.1 (g.frontierOf seg + 1) closed true

/-! ### Policing (R233–R238) -/

def Gw.filterAt (g : Gw) (i : Nat) : Filter := mgetD g.filters i {}
def Gw.setFilter (g : Gw) (i : Nat) (f : Filter) : Gw := { g with filters := mput g.filters i f {} }
def Gw.meterAt (g : Gw) (i : Nat) : Meter := mgetD g.meters i {}
def Gw.setMeter (g : Gw) (i : Nat) (m : Meter) : Gw := { g with meters := mset g.meters i m }

/-- The level of a meter brought to stamp `o` of segment `seg` (R235). A meter that was never used is full. -/
def Gw.refill (g : Gw) (m : Meter) (o : Stamp) (seg : Nat) : Meter :=
  let t := g.translate m.t m.seg seg
  { m with level := min (m.burst * 64000000) (m.level + (o - t).toNat * m.rate), t := o, seg := seg }

/-- A frame of length `len` meets meter `i` at `o`: passed or not (R235). -/
def Gw.meter (g : Gw) (i len : Nat) (o : Stamp) : Gw × Bool :=
  let m := g.refill (g.meterAt i) o g.str.relSeg
  if len * 64000000 ≤ m.level then
    ((g.setMeter i { m with level := m.level - len * 64000000 }).bump (Reg.polMtrPass i), true)
  else (((g.setMeter i m).bump (Reg.polMtrDrop i)).flag Reg.polFlag 0x20000000, false)

/-- The policing of a frame whose T1 hit is `e` (R234). -/
def Gw.police (g : Gw) (e : Entry) (len : Nat) (o : Stamp) : Gw × Bool :=
  let i := e.f 3 31 16
  let f := g.filterAt i
  let g := g.bump (Reg.polFltMatch i)
  if f.blocked then (g.bump (Reg.polFltBlk i), false)
  else if f.maxSdu ≠ 0 && f.maxSdu < len then
    let g := (g.bump (Reg.polFltSdu i)).flag Reg.polFlag 0x80000000
    if f.blockEn then ((g.setFilter i { f with blocked := true }).flag Reg.polFlag 0x40000000, false) else (g, false)
  else if bit (e.word 3) 46 then
    let r := g.meter (e.f 3 45 32) len o
    if r.2 then (r.1.bump (Reg.polFltPass i), true) else (r.1, false)
  else (g.bump (Reg.polFltPass i), true)

/-! ### Lookups of an Ethernet-format frame (R156–R158, R231) -/

/-- The pipeline of a fabric port (R26). -/
def pipeOf (f : Nat) : Nat := if f ≤ 5 then 0 else if f ≤ 11 then 1 else if f ≤ 15 then 2 else 3

/-- The T5 key fields of a frame as a 256-bit number (R154). [Log 73: DEDUCED] -/
def t5Key (x : Frame) (bs : List Byte) : Nat :=
  let et := etypeOf bs
  let ip := bs.drop (payloadOff bs)
  let v4 := et = 0x0800 && byteAt ip 0 / 16 = 4
  let proto := byteAt ip 9
  let l4 := ip.drop (4 * (byteAt ip 0 % 16))
  let hasL4 := v4 && (proto = 6 || proto = 17) && fromBe (slice ip 6 2) % 8192 = 0
  let w1 := framePcp x bs * 2 ^ 60 + vidOf bs * 2 ^ 48 + macAt bs 0
  let w2 := et * 2 ^ 48 + macAt bs 6
  let w3 := (if v4 then fromBe (slice ip 16 4) * 2 ^ 32 + proto * 2 ^ 16 else 0) + x.fport
  let w4 := (if hasL4 then fromBe (slice l4 0 2) * 2 ^ 48 + fromBe (slice l4 2 2) * 2 ^ 32 else 0) +
    (if v4 then fromBe (slice ip 12 4) else 0)
  w1 + w2 * 2 ^ 64 + w3 * 2 ^ 128 + w4 * 2 ^ 192

/-- T5 stages 0 to 3 until one hits (step 1 of R156). -/
def Gw.lookupT5 (g : Gw) (x : Frame) (bs : List Byte) : List Nat → Gw × Option Entry
  | [] => (g, none)
  | s :: r =>
    let k := t5Key x bs &&& g.param (Par.catT5Mask s)
    match g.lookup (8 + s) k true with
    | (g, some (_, e)) => (g, some e)
    | (g, none) => g.lookupT5 x bs r

/-- The T1 lookups of a frame (step 2 of R156). -/
def Gw.lookupT1 (g : Gw) (x : Frame) (bs : List Byte) : Gw × Option Entry :=
  let typ := bits (g.param (Par.catPort x.fport)) 30 28
  if typ = 7 then (g, none)
  else
    let w1 := typ * 2 ^ 60 + vidOf bs * 2 ^ 48 + (if typ = 1 then macAt bs 6 else macAt bs 0)
    let pcp := if typ = 2 then framePcp x bs * 32 else 0
    match g.lookup 4 (w1 + 2 ^ 64 * (pcp + x.fport)) true with
    | (g, some (_, e)) => (g, some e)
    | (g, none) =>
      let r := g.lookup 4 (w1 + 2 ^ 64 * (pcp + 31)) true
      (r.1, r.2.map (·.2))

/-- The T0 key of an address in the frame's VLAN (R146). -/
def t0Key (bs : List Byte) (mac : Nat) : Nat := vidOf bs * 2 ^ 48 + mac

/-- The destination lookup: own partition first, then the others in ascending order (step 3 of R156).
[Log 68: DEDUCED] -/
def Gw.lookupDst (g : Gw) (key : Nat) : List Nat → Gw × Option Entry
  | [] => (g, none)
  | p :: r =>
    match g.lookup p key false with
    | (g, some (_, e)) => (g, some e)
    | (g, none) => g.lookupDst key r

/-- What the lookups of a frame decide: denied by T5, or discarded by DROP_DST or DROP_SRC. -/
structure Verdict where
  denied : Bool := false
  discard : Bool := false
  t1 : Option Entry := none
  ports : Nat := 0
  cls : Nat := 0
  mirror : Option Nat := none
deriving DecidableEq, Repr

/-- Learning of R167 applies to the frame. [Log 68: DEDUCED] -/
def Gw.learns (g : Gw) (x : Frame) (bs : List Byte) : Bool :=
  (x.fport ≤ 12 || (14 ≤ x.fport && x.fport ≤ 17)) && bit (g.param (Par.catPort x.fport)) 31 &&
    macAt bs 6 ≠ 0 && !bit (macAt bs 6) 0

/-- The lookup sequence of R156, the egress set of R157 and the class of R231. -/
def Gw.classify (g : Gw) (x : Frame) (bs : List Byte) : Gw × Verdict :=
  let r5 := g.lookupT5 x bs [0, 1, 2, 3]
  let act := (r5.2.map (fun e => e.f 5 1 0)).getD 0
  let mir := if act = 3 then r5.2.map (fun e => e.f 5 39 32) else none
  if act = 1 then (r5.1, { denied := true, discard := true })
  else
    let r1 := r5.1.lookupT1 x bs
    let egr := match r1.2 with
      | some e => bit (e.word 5) 22
      | none => false
    let own := pipeOf x.fport
    let rd := if act = 2 || egr then (r1.1, none)
      else r1.1.lookupDst (t0Key bs (macAt bs 0)) (own :: ([0, 1, 2, 3].filter (· != own)))
    let dropDst := match rd.2 with
      | some e => bit (e.word 2) 41
      | none => false
    let ra := rd.1.accession own x.fport (t0Key bs (macAt bs 6)) (rd.1.learns x bs)
    let bc := macAt bs 0 = broadcast
    let flood := ra.1.param (Par.catFlood x.fport)
    let ports :=
      if act = 2 then (r5.2.map (fun e => e.f 5 29 8)).getD 0
      else if egr then (r1.2.map (fun e => e.f 5 21 0)).getD 0
      else match rd.2 with
        | some e => if bc then flood else e.f 2 21 0
        | none => flood
    let cls := match r5.2.filter (fun e => bit (e.word 5) 2), r1.2.filter (fun e => bit (e.word 3) 51),
        rd.2.filter (fun e => bit (e.word 2) 39) with
      | some e, _, _ => e.f 5 5 3
      | none, some e, _ => e.f 3 50 48
      | none, none, some e => e.f 2 34 32
      | none, none, none => ra.1.pcpClass x.fport (framePcp x bs)
    let ports := if bit ports x.fport then ports - 2 ^ x.fport else ports
    (ra.1, { discard := dropDst || ra.2, t1 := r1.2, ports := ports, cls := cls, mirror := mir })

/-- The T4 lookup of R158, which a frame discarded by T0 or policing takes too, and the unpacking that `deliver` lets it
lead to. -/
def Gw.maybeUnpack (g : Gw) (x : Frame) (bs : List Byte) (o : Stamp) (deliver : Bool) : Gw :=
  if (x.fport ≤ 11 || x.fport = 14 || x.fport = 15) && etypeOf bs = 0x22F0 then
    match g.lookup 7 (1 + 2 ^ 64 * fromBe (slice bs (payloadOff bs + 4) 8)) true with
    | (g, some (_, e)) => if deliver then g.tunnelIn x bs e o else g
    | (g, none) => g
  else g

/-- The members of a port set for a frame's class and T1 hit (R256). [Log 76: DEDUCED] -/
def Gw.members (g : Gw) (x : Frame) (ports cls : Nat) (t1 : Option Entry) : List Member :=
  let cr := match t1 with
    | some e => if bit (e.word 3) 52 then
        some (g.translate x.ing x.ingSeg g.str.relSeg + 64 * Int.ofNat (e.f 4 16 0), e) else none
    | none => none
  (bitList 22 ports).map (fun f => match cr with
    | some (t, e) => { port := f, cls := cls, cr := some t, lateDrop := bit (e.word 3) 53, handle := e.f 3 15 0 }
    | none => { port := f, cls := cls })

/-- A keep-alive that enters at an NM port (R679, R682): it goes to F19 only. -/
def Gw.nmFrame (g : Gw) (x : Frame) (bs : List Byte) : Bool :=
  x.fport ≤ 15 && x.fport ≠ 13 && bit (g.param Par.nmEthMask) x.fport && !hasTag bs &&
    macAt bs 0 = 0x4D4E36395A03 && etypeOf bs = 0x88B5

/-- The decisions of an Ethernet-format frame at its release; the answer is the number of admissions. A frame re-injected at F21
takes no lookup, and one looped back there has no mirror session to take a port set from (R160). A frame with a mirror
copy has no second copy on F21 (R65). [Log 76: DEDUCED, 165: DEDUCED, 178: DEDUCED] -/
def Gw.decideEth (g : Gw) (x : Frame) (bs : List Byte) (o : Stamp) : Gw × Nat :=
  match x.named, x.mirror with
  | some (ports, cls), _ =>
    let c := if cls < 8 then cls else g.pcpClass x.fport (framePcp x bs)
    g.admitFrame x (g.members x ports c none) o
  | none, some ses =>
    g.admitFrame x (g.members x (mgetD g.mirrors ses 0) (g.pcpClass x.fport (framePcp x bs)) none) o
  | none, none =>
    if x.fport = 21 then (g, 0)
    else if g.nmFrame x bs then
      g.admitFrame x (g.members x (2 ^ 19) (g.pcpClass x.fport (framePcp x bs)) none) o
    else
    let r := g.classify x bs
    let v := r.2
    let pol := if v.discard then (r.1, false) else
      match v.t1 with
      | some e => r.1.police e x.len o
      | none => (r.1, true)
    let ports := if v.mirror.isSome && bit v.ports 21 then v.ports - 2 ^ 21 else v.ports
    let adm := if pol.2 then pol.1.admitFrame x (pol.1.members x ports v.cls v.t1) o else (pol.1, 0)
    let g := adm.1
    let mir := match v.mirror with
      | some ses => g.admitFrame { x with mirror := some ses } [{ port := 21, cls := v.cls }] o
      | none => (g, 0)
    (if v.denied then mir.1 else mir.1.maybeUnpack x bs o pol.2, adm.2 + mir.2)

/-! ### Lookups of a bus frame (R159, R211, R529) -/

/-- The T3 key of KIND `kind` for a bus and IDENT (R151). [Log 91: DEDUCED] -/
def t3Key (kind bus ident : Nat) : Nat := bus * 256 + kind + 2 ^ 64 * ident

/-- IDENT of a received FlexRay frame with ANYCYC 1 (R149). -/
def anyCyc (ident : Nat) : Nat := ident % 2048 + 2 ^ 17

/-- The T2 lookups of a frame in ascending ordinal (step 2 of R159, R210); its routes act only with `act` (R211). -/
def Gw.applyRoutes (g : Gw) (b : BusFrame) (o : Stamp) (act : Bool) : List Nat → Gw
  | [] => g
  | ord :: r =>
    let key := fun ident => ord * 2 ^ 40 + ident * 256 + b.bus
    let hit := match g.lookup 5 (key b.ident) true with
      | (g, some h) => (g, some h)
      | (g, none) => if 44 ≤ b.bus then g.lookup 5 (key (anyCyc b.ident)) true else (g, none)
    match hit with
    | (g, some (i, e)) =>
      let g := if act then g.applyRoute i e b.data o else g
      if bit (e.word 2) 0 then g else g.applyRoutes b o act r
    | (g, none) => g

/-- Freshness acceptance of a sealed frame with its candidate value (R529). [Log 116: DEDUCED] -/
def Gw.acceptFresh (g : Gw) (i : Nat) (e : Entry) (cand : Option Nat) : Gw × Bool :=
  let last := mgetD g.fvLast i (e.word 4)
  match cand with
  | some c =>
    if last < c && c - last ≤ e.f 5 31 0 then ({ g with fvLast := mset g.fvLast i c }, true)
    else (g.bump Reg.cryFreshFailCnt, false)
  | none => (g.bump Reg.cryFreshFailCnt, false)

/-- The decisions of a bus frame at its release; a played one takes no T3 step (R738). A frame that fails freshness acceptance
takes the lookups of R159 and none of their actions, a remote frame no T2 action (R211). [Log 71: DEDUCED] -/
def Gw.decideBus (g : Gw) (x : Frame) (b : BusFrame) (o : Stamp) : Gw × Nat :=
  match x.named with
  | some (ports, cls) => g.admitFrame x (g.members x ports cls none) o
  | none =>
  let r3 := if x.fport = 20 then (g, none) else g.lookup 6 (t3Key 2 b.bus b.ident) true
  let fr := match r3.2 with
    | some (i, e) => r3.1.acceptFresh i e (x.fv.map Prod.fst)
    | none => (r3.1, true)
  let g := fr.1.applyRoutes b o (fr.2 && !b.rtr) (List.range 256)
  let key := fun ident => ident * 256 + b.bus * 2
  let r4 := match g.lookup 7 (key b.ident) true with
    | (g, some h) => (g, some h)
    | (g, none) => if 44 ≤ b.bus then g.lookup 7 (key (anyCyc b.ident)) true else (g, none)
  match r4 with
  | (g, some (_, e)) => if fr.2 then g.tunnelOut x b e o else (g, 0)
  | (g, none) => (g, 0)

/-! ### Capture (R729) and the release itself -/

/-- The rings that capture a frame: enabled, and naming its ingress port or its F13 sub-source. -/
def Gw.captureRings (g : Gw) (x : Frame) : Nat :=
  (List.range 4).foldl (fun m k =>
    let on := bit (g.param (Par.arcRing k)) 63 &&
      (bit (g.param (Par.arcPort k)) x.fport || (x.fport = 13 && bit (g.param (Par.arcSrc k)) x.sub))
    if on then m + 2 ^ k else m) 0

/-- The sequence word of R45 for a record. -/
def seqWord (s : List Nat) : Nat :=
  match s.reverse with
  | c :: sub :: _ => sub % 256 * 16777216 + c % 16777216
  | [c] => c
  | [] => 0

def Gw.capture (g : Gw) (p : Pend) (admitted : Nat) : Gw :=
  let x := p.frame
  let rings := g.captureRings x
  if rings = 0 || x.fport = 20 then g
  else
    let busFlags := match x.body with
      | .bus b => 8 + atBit 4 b.sealedOk
      | .eth _ => 0
    let flags := atBit 0 p.express + atBit 1 p.overrun + atBit 2 (admitted = 0) + busFlags
    let info : CapInfo := { rings := rings, flags := flags, o := p.key.o, seq := seqWord p.key.seq }
    (g.admitFrame x [{ port := 20, cls := 0, cap := some info }] p.key.o).1

/-- The release lag of R163: recorded in ns, compared with 250 ns to the 1/8 ns. [Log 33: DESIGN CHOICE] -/
def Gw.noteLag (g : Gw) (p : Pend) : Gw :=
  let lag := (g.orderNow - (p.key.o + 8 * Int.ofNat g.hNs)).toNat
  let g := g.setRegN Reg.catLagMax (max (g.regN Reg.catLagMax) (min 0xFFFFF (lag / 8)))
  if lag ≤ 2000 then g
  else { ((g.bump Reg.catLagCnt).flag Reg.catFlag 0x80000000) with undefLaunch := true }

/-- Strata releases the pending frame `p` and takes all its ordered decisions (R48, R67); the frame's own claim on its
cells ends with them (R105). [Log 33: DESIGN CHOICE] -/
def Gw.release (g : Gw) (p : Pend) (ecc : List Nat) : Gw :=
  let g := { g with str := { g.str with pend := g.str.pend.filter (fun q => q.key != p.key) } }
  let g := { g with cat := { g.cat with eccBad := g.cat.eccBad ++ ecc } }
  let g := (g.passTo p.key.o 6).noteLag p
  let p := { p with frame := { p.frame with seq := p.key.seq, o := p.key.o, oSeg := g.str.relSeg } }
  let r := match p.frame.body with
    | .eth bs => g.decideEth p.frame bs p.key.o
    | .bus b => g.decideBus p.frame b p.key.o
  ((r.1.noteTxDrop p.frame r.2).capture p r.2).unclaim p.frame.fid

end Sys2Proof.Machine
end

