-- ==== Sys2Proof/Machine/Can.lean ====
section
/-! DEFINITION. The CAN controllers (R318–R368): stamps against device time, receive path, message buffers with lock,
shadow and completion latch, the gateway transmit queue, arbitration, time-triggered transmission, fault confinement,
identifier collisions and ownership. Commands of chapter 8 but SEAL_VERIFY, which stands with the crypto island. A
command whose event the controller's state does not allow has no effect. -/

namespace Sys2Proof.Machine

/-! ### Settings and access -/

def Gw.canAt (g : Gw) (c : Nat) : CanCtl := mgetD g.can c {}
def Gw.setCan (g : Gw) (c : Nat) (x : CanCtl) : Gw := { g with can := mset g.can c x }

def Gw.canCfg (g : Gw) (c : Nat) : Nat := g.param (Par.canCfg c)

/-- Listen-only: LOM, or LOM_H under host ownership (R347, R365). -/
def Gw.canLom (g : Gw) (c : Nat) : Bool :=
  bit (g.canCfg c) 61 || ((g.canAt c).host && bit (g.regN (Reg.canHctl c)) 30)

/-- INIT holds a host-owned controller off the bus (R365). -/
def Gw.canInit (g : Gw) (c : Nat) : Bool := (g.canAt c).host && bit (g.regN (Reg.canHctl c)) 31

def Gw.ttEn (g : Gw) (c : Nat) : Bool := bit (g.canCfg c) 58

/-- The controller takes part in its bus: its island runs, it holds a pair (R325), it is neither in bus-off nor held in
INIT. [Log 77: DEDUCED] -/
def Gw.canLive (g : Gw) (c : Nat) : Bool :=
  c < 32 && g.islOn 9 && !(g.canAt c).pairs.isEmpty && !(g.canAt c).busOff && !g.canInit c

def Gw.canFlag (g : Gw) (c b : Nat) : Gw := g.flag (Reg.canFlag c) (2 ^ b)

/-! ### Counter and stamps (R324–R327) -/

/-- 80 MHz counts between the island's start and a tick: one count is 6.25 ticks. The first edge at or after it. -/
def Gw.canEdge (g : Gw) : Nat := ceilDiv (4 * (g.tb.tick - g.canStart)) 25 % 4294967296

/-- The counter's value now. -/
def Gw.canNow (g : Gw) : Nat := 4 * (g.tb.tick - g.canStart) / 25 % 4294967296

/-- Difference of counter values modulo 2³². -/
def cntDiff (a b : Nat) : Nat := (a + 4294967296 - b % 4294967296) % 4294967296

/-- The pairs of the last `n` epochs, with the step pairs among them (R324, R326). -/
def keepEpochs : List CanPair → Nat → List CanPair
  | [], _ => []
  | p :: ps, n => if p.step then p :: keepEpochs ps n else if n = 0 then [] else p :: keepEpochs ps (n - 1)

/-- The pairs of epochs, without those of time steps. -/
def CanCtl.epochs (x : CanCtl) : List CanPair := x.pairs.filter (fun p => !p.step)

/-- A pair recorded at a TB epoch; the quotient is that of the last two pairs, the nominal one before there are two
(R324, R325). At the tick of a step the quotient stays the last one (R326). -/
def addEpoch (ps : List CanPair) (cnt : Nat) (st : Stamp) (seg : Nat) : List CanPair :=
  let p : CanPair := match ps with
    | [] => { cnt := cnt, st := st, seg := seg }
    | q :: _ =>
      if cntDiff cnt q.cnt = 0 then { q with cnt := cnt, st := st, seg := seg, step := false }
      else { cnt := cnt, st := st, seg := seg, qNum := st - q.st, qDen := cntDiff cnt q.cnt }
  keepEpochs (p :: ps) 256

/-- The extra pair of a time step keeps the last quotient (R326). -/
def addStep (ps : List CanPair) (cnt : Nat) (st : Stamp) (seg : Nat) : List CanPair :=
  match ps with
  | [] => []
  | q :: _ => { q with cnt := cnt, st := st, seg := seg, step := true } :: ps

/-- Every controller of the CANX island records a pair. -/
def Gw.recordPairs (g : Gw) (add : List CanPair → Nat → Stamp → Nat → List CanPair) : Gw :=
  if g.islOn 9 then
    let f := fun (ps : List CanPair) => add ps g.canEdge g.now g.tb.seg
    { g with
      can := (List.range 32).foldl (fun m c => mmod m c {} (fun x => { x with pairs := f x.pairs })) g.can
      lin := (List.range 12).foldl (fun m l => mmod m l {} (fun x => { x with pairs := f x.pairs })) g.lin
      flx := { g.flx with pairs := f g.flx.pairs } }
  else g

/-- A counter value as a stamp with its segment, by a controller's pairs and receive latency (R325). -/
def stampOf (ps : List CanPair) (rxLat cnt : Nat) : Option (Stamp × Nat) :=
  match ps.find? (fun p => cntDiff cnt p.cnt < 2147483648) with
  | some p => some (p.st + Int.ofNat (cntDiff cnt p.cnt) * p.qNum / Int.ofNat p.qDen - Int.ofNat rxLat, p.seg)
  | none => none

/-- [Log 77: DEDUCED] -/
def Gw.canStamp (g : Gw) (c cnt : Nat) : Option (Stamp × Nat) :=
  stampOf (g.canAt c).pairs (bits (g.canCfg c) 15 0) cnt

/-! ### Fault confinement (R353–R356) -/

/-- A change that the firmware originates at a stamp of its choice (R36, R216). -/
def Gw.fwChange (g : Gw) (c : FwChange) : Gw :=
  let x : Change := { t := g.soonest, rank := 64, seq := g.str.fwCount, act := .firmware c, seg := g.tb.seg }
  { g with str := { g.str with changes := g.str.changes ++ [x], fwCount := g.str.fwCount + 1 } }

/-- A decision the firmware takes by itself: a change now, or after HANDOVER (R790). In CONFIG, where nothing is ordered, a
reroute takes effect at once with stamp 0, as a command would (R176, R216). -/
def Gw.fwDecide (g : Gw) (c : FwChange) : Gw :=
  if g.fw.state = .handover then { g with deferred := g.deferred ++ [c] }
  else if g.inService then g.fwChange c
  else match c with
    | .altFlag bus v => g.setRerouted bus v 0
    | _ => g

/-- A buffer's event bit (R341). -/
def Gw.mbEvent (g : Gw) (c n : Nat) : Gw :=
  if n < 32 then g.flag (Reg.canMbEvtLo c) (2 ^ n) else g.flag (Reg.canMbEvtHi c) (2 ^ (n - 32))

/-- The CAN bus's egress content becomes undefined (R360). -/
def Gw.canUndef (g : Gw) (c : Nat) : Gw := { g with undefBus := g.undefBus ||| 2 ^ c }

/-- A word of a controller's CAN RAM region, by word index; the reserved part reads 0 (R331). -/
def CanCtl.word (x : CanCtl) (i : Nat) : Nat := if 0x420 ≤ i && i < 0x600 then 0 else (mgetD x.ram i 0).toNat
def CanCtl.setWord (x : CanCtl) (i v : Nat) : CanCtl := { x with ram := mput x.ram i (w32 v) 0 }

/-- Bits of header word `i` that are not reserved (R332). -/
def hdrMask (i : Nat) : Nat := [0xF7F80FFF, 0xFFFFFFFF, 0xFFFFFFFF, 0xFFFC0000, 0xFFFF8000, 0xFFFFFFFF, 0xFFFFFFFF,
  0xFFFF0000].getD i 0

/-- Words of a region as the configuration image sets them: reserved bits and the reserved part keep nothing (R331, R332). -/
def imageRam (m : Map W32) : Map W32 :=
  m.foldl (fun (r : Map W32) q =>
    if q.1 < 0x200 then mput r q.1 (q.2 &&& w32 (hdrMask (q.1 % 8))) 0
    else if 0x1000 ≤ q.1 || (0x420 ≤ q.1 && q.1 < 0x600) then r
    else mput r q.1 q.2 0) []

/-- Header word `i` of buffer `n` (R332). -/
def CanCtl.hdr (x : CanCtl) (n i : Nat) : Nat := x.word (8 * n + i)
def CanCtl.code (x : CanCtl) (n : Nat) : Nat := bits (x.hdr n 0) 31 28
def CanCtl.setCode (x : CanCtl) (n code : Nat) : CanCtl := x.setWord (8 * n) (setBits (x.hdr n 0) 31 28 code)
def CanCtl.locked (x : CanCtl) (n : Nat) : Bool := match x.lock with
  | some l => l.1 = n
  | none => false

/-- A buffer's new code, with its event when R341 names it. -/
def Gw.mbCode (g : Gw) (c n code : Nat) : Gw :=
  let g := g.setCan c ((g.canAt c).setCode n code)
  if code = 2 || code = 3 || (0xB ≤ code && code ≤ 0xD) then g.mbEvent c n else g

/-- A transmission attempt of buffer `n` ended with a code and, when the frame was sent, a TS: written, or kept in the
completion latch while the buffer holds the lock (R327, R340). -/
def Gw.mbOutcome (g : Gw) (c n code : Nat) (ts : Option Nat) : Gw :=
  let x := g.canAt c
  if x.locked n then g.setCan c { x with done := some (code, ts) }
  else
    let g := match ts with
      | some t => g.setCan c (x.setWord (8 * n + 6) t)
      | none => g
    g.mbCode c n code

/-- The gateway frames of a controller are discarded at bus-off with BO_FLUSH (R355). -/
def Gw.flushGtq (g : Gw) (c : Nat) : Gw :=
  let x := g.canAt c
  let n := x.gtq.length
  if n = 0 then g
  else (((g.setCan c { x with gtq := [] }).bumpN (Reg.canGtqDrop c) n).canFlag c 27).canUndef c

/-- The attempt on the bus ends without success and is not on the bus any more (R334, R340, R343, R350). -/
def Gw.endAttempt (g : Gw) (c : Nat) : Gw :=
  let x := g.canAt c
  match x.tx with
  | some t =>
    let g := g.setCan c { x with tx := none }
    match t.src with
    | .mb n => g.mbOutcome c n (if t.abort then 0xB else 9) none
    | .tt n => if t.abort then g.mbOutcome c n 0xB none else g
    | _ => g
  | none => g

/-- Bus-off (R355, R216). -/
def Gw.enterBusOff (g : Gw) (c : Nat) : Gw :=
  let g := g.endAttempt c
  let g := g.setCan c { g.canAt c with busOff := true, recovering := bit (g.canCfg c) 60, recFrom := g.tb.tick }
  let g := (g.bump (Reg.canBusoffCnt c)).canFlag c 31
  let g := if bit (g.canCfg c) 59 then g.flushGtq c else g
  if g.param Par.sigAltAuto = 1 then g.fwDecide (.altFlag c true) else g

/-- New error counters, with the flags of the thresholds they cross upward (R353, R354). -/
def Gw.setCounters (g : Gw) (c tec rec' : Nat) : Gw :=
  let x := g.canAt c
  let r := min rec' 255
  let g := g.setCan c { x with tec := tec, rec' := r }
  let g := if (x.tec < 96 && 96 ≤ tec) || (x.rec' < 96 && 96 ≤ r) then g.canFlag c 29 else g
  let was := 127 < x.tec || 127 < x.rec'
  let is := 127 < tec || 127 < r
  let g := if !was && is && tec ≤ 255 then g.canFlag c 30 else g
  if 255 < tec then g.enterBusOff c else g

/-- The error flag of a detected error: active, or passive in the error-passive state; none in listen-only or bus-off
(R318, R347, R353). -/
def Gw.errorFlag (g : Gw) (c : Nat) : Gw :=
  let x := g.canAt c
  if g.canLom c || x.busOff then g else g.emit (.canErrorFrame c (127 < x.tec || 127 < x.rec'))

/-- A detected error: error flag, last error code, destroyed frame, counters unless listen-only (R347, R353, R366), capture item.
[Log 78: DEDUCED] -/
def Gw.canError (g : Gw) (c : Nat) (e : CanError) : Gw :=
  let g := ((g.errorFlag c).setCan c { g.canAt c with lec := e.code }).capItem c 2 e.code g.canNow 0 []
  let g := if e.destroyed then g.bump (Reg.canErrf c) else g
  let x := g.canAt c
  if g.canLom c || e.noCount then g
  else if e.asTx then g.setCounters c (x.tec + 8) x.rec'
  else g.setCounters c x.tec (x.rec' + (if e.heavy then 8 else 1))

/-- CAN_ERROR_DETECTED: the attempt on the bus ends first when the controller was sending. -/
def Gw.errorDetected (g : Gw) (c : Nat) (e : CanError) : Gw :=
  if !g.canLive c then g
  else (if e.asTx then g.endAttempt c else g).canError c e

def execCanErrorDetected (c : Nat) (err : CanError) (s : State) : Host.Outcome State Fault Refusal :=
  answer (onGw (fun g => g.errorDetected c err)) s

/-- REC of CAN_HCTL_c reads 1 from the write until recovery completes (R9, R365). [Log 184: DESIGN CHOICE] -/
def Gw.setRec (g : Gw) (c : Nat) (v : Bool) : Gw :=
  g.setRegN (Reg.canHctl c) (setBits (g.regN (Reg.canHctl c)) 29 29 (atBit 0 v))

/-- Recovery begins, unless it has begun or the controller is not in bus-off (R355). -/
def Gw.beginRecovery (g : Gw) (c : Nat) : Gw :=
  let x := g.canAt c
  if x.busOff && !x.recovering then g.setCan c { x with recovering := true, recFrom := g.tb.tick } else g

/-- A write of REC through the controller's slot (R355, R365). [Log 184: DESIGN CHOICE] -/
def Gw.recWrite (g : Gw) (c : Nat) : Gw :=
  if (g.canAt c).host && (g.canAt c).busOff then (g.beginRecovery c).setRec c true else g

def execCanHctlRecWrite (c : Nat) (s : State) : Host.Outcome State Fault Refusal :=
  answer (onGw (fun g => g.recWrite c)) s

/-- Periods of 12.5 ns per nominal bit (R321). -/
def nominalBit (bt : Nat) : Nat := (bits bt 63 56 + 1) * (1 + (bits bt 55 48 + 1) + (bits bt 46 40 + 1))

/-- The time of 128 sequences of eleven nominal bits has passed since recovery began (R355). [Log 78: DEDUCED] -/
def Gw.recoveryDue (g : Gw) (c : Nat) : Bool :=
  1408 * nominalBit (g.param (Par.canBt c)) * 25 ≤ 4 * (g.tb.tick - (g.canAt c).recFrom)

/-- Recovery completes: both counters 0, error-active (R354, R355, R216). -/
def Gw.recoveryComplete (g : Gw) (c : Nat) : Gw :=
  let x := g.canAt c
  if x.busOff && x.recovering && g.recoveryDue c then
    let g := (g.setCan c { x with busOff := false, recovering := false, tec := 0, rec' := 0 }).setRec c false
    if g.param Par.sigAltReturn = 1 then g.fwDecide (.altFlag c false) else g
  else g

def execCanRecoveryComplete (c : Nat) (s : State) : Host.Outcome State Fault Refusal :=
  answer (onGw (fun g => g.recoveryComplete c)) s

/-! ### Receive path and receive buffers (R328, R336–R339) -/

/-- The format flags of a buffer header: XLF, FDF, BRS, ESI, RTR and IDE in [24:19] (R332). -/
def hdrFlags (b : BusFrame) : Nat :=
  atBit 24 b.xlf + atBit 23 b.fdf + atBit 22 b.brs + atBit 21 b.esi + atBit 20 b.rtr + atBit 19 (bit b.ident 31)

/-- Data words from a pool unit on. -/
def CanCtl.putData (x : CanCtl) (i : Nat) : List W32 → CanCtl
  | [] => x
  | w :: r => (x.setWord i w.toNat).putData (i + 1) r

def CanCtl.doff (x : CanCtl) (n : Nat) : Nat := bits (x.hdr n 3) 31 24
def CanCtl.dataWord (x : CanCtl) (n : Nat) : Nat := 0x600 + 16 * x.doff n

/-- A received frame written into buffer `n` (R332, R333). LOST stays as it stood. [Log 80: DEDUCED] -/
def CanCtl.fill (x : CanCtl) (n : Nat) (b : BusFrame) (cnt : Nat) : CanCtl :=
  let code := if x.code n = 1 then 2 else 3
  let lost := atBit 26 (bit (x.hdr n 0) 26)
  let x := x.setWord (8 * n) (code * 2 ^ 28 + lost + atBit 25 b.sealedOk + hdrFlags b + b.data.length % 4096)
  let x := (x.setWord (8 * n + 1) b.ident).setWord (8 * n + 4) (b.sdt % 256 * 2 ^ 24 + b.vcid % 256 * 2 ^ 16 + atBit 15 b.sec)
  ((x.setWord (8 * n + 5) b.af).setWord (8 * n + 6) cnt).putData (x.dataWord n) (wordsOf b.data)

/-- The code a buffer has, or will have once its shadow is written (R336). -/
def CanCtl.effCode (x : CanCtl) (n : Nat) : Nat :=
  if x.locked n && x.shadow.isSome then (if x.code n = 1 then 2 else 3) else x.code n

/-- The match of R336. -/
def CanCtl.matches' (x : CanCtl) (n : Nat) (b : BusFrame) : Bool :=
  1 ≤ x.effCode n && x.effCode n ≤ 3 && (b.ident ^^^ x.hdr n 1) &&& x.hdr n 2 = 0 &&
    b.data.length ≤ 64 * (bits (x.hdr n 3) 23 19 + 1)

/-- The buffers that a frame matches now, with their codes. -/
def CanCtl.snapshot (x : CanCtl) (b : BusFrame) : Map Nat :=
  ((List.range 64).filter (fun n => x.matches' n b)).map (fun n => (n, x.effCode n))

/-- LOST and its count for a buffer holding the lock (R337). [Log 79: DEDUCED] -/
def Gw.mbLost (g : Gw) (c n : Nat) : Gw :=
  let x := g.canAt c
  ((g.setCan c (x.setWord (8 * n) (x.hdr n 0 ||| 2 ^ 26))).bump (Reg.canMbLost c)).canFlag c 25

/-- Buffer `n` is taken by a frame: held frames behind it find it so (R336). -/
def CanHeld.after (n : Nat) (h : CanHeld) : CanHeld :=
  { h with snap := h.snap.map (fun m => match mget? m n with
    | some k => mset m n (if k = 1 then 2 else 3)
    | none => m) }

/-- A frame offered to the buffers it matches, `m`, with their codes at its admission stamp point (R336, R337).
[Log 79: DEDUCED] -/
def Gw.offerTo (g : Gw) (c : Nat) (b : BusFrame) (cnt : Nat) (m : Map Nat) : Gw :=
  let x := g.canAt c
  let pick := match m.find? (fun q => q.2 = 1) with
    | some q => some q
    | none => m.find? (fun q => bit (x.hdr q.1 3) 18)
  match pick with
  | some (n, _) =>
    let x := { x with held := x.held.map (CanHeld.after n) }
    if x.locked n then
      let g' := g.setCan c { x with shadow := some (b, cnt) }
      if x.shadow.isSome then g'.mbLost c n else g'
    else (g.setCan c (x.fill n b cnt)).mbEvent c n
  | none =>
    let g := g.bump (Reg.canRxNomb c)
    match m.find? (fun q => x.locked q.1 && x.shadow.isSome) with
    | some q => g.mbLost c q.1
    | none => g

/-- A frame offered to the receive buffers as they stand. -/
def Gw.offer (g : Gw) (c : Nat) (b : BusFrame) (cnt : Nat) : Gw := g.offerTo c b cnt ((g.canAt c).snapshot b)

/-- A frame that the controller received, as it goes to F13. -/
def CanHeld.toFrame (h : CanHeld) (c : Nat) (fv : Option (Nat × Nat)) : Frame :=
  { fport := 13, sub := c, body := .bus h.frame, ing := h.ing, ingSeg := h.ingSeg, adm := h.adm, seg := h.seg, fv := fv }

/-- A pending change made by a request of this kind comes at or before stamp `o` of segment `seg`. -/
def Gw.requestBefore (g : Gw) (seg : Nat) (o : Stamp) (is : Nat → Bool) : Bool :=
  g.str.changes.any (fun x => match x.act with
    | .mailbox m => is m && (x.seg < seg || (x.seg = seg && x.t ≤ o))
    | .firmware _ => false)

/-- A change of owner of controller `c` at or before a frame's order stamp has yet to take effect (R320). -/
def Gw.ownPending (g : Gw) (c : Nat) (h : CanHeld) : Bool :=
  g.requestBefore h.seg (g.orderStamp (h.toFrame c none)).1 (fun m => g.reqCode m = 0x0708 && bits (g.arg m 0) 4 0 = c)

/-- A change of T3, and so of the seal filter, at or before a frame's admission stamp has yet to take effect (R329, R511).
[Log 185: DEDUCED] -/
def Gw.filterPending (g : Gw) (h : CanHeld) : Bool :=
  g.requestBefore h.seg h.adm (fun m => g.reqCode m ∈ [0x0303, 0x0304, 0x0306] && bits (g.arg m 0) 3 0 = 6)

/-- A frame offered to the buffers of the owner that its order stamp names (R320): it waits while that owner has yet to
take over. -/
def Gw.offerOwned (g : Gw) (c : Nat) (h : CanHeld) : Gw :=
  if g.ownPending c h then g.setCan c { g.canAt c with later := (g.canAt c).later ++ [h] }
  else match h.snap with
    | some m => g.offerTo c h.frame h.cnt m
    | none => g.offer c h.frame h.cnt

/-- A change of owner has taken effect: frames that waited for it are offered. -/
def Gw.offerLater (g : Gw) (c : Nat) : Gw :=
  let l := (g.canAt c).later
  l.foldl (fun (g : Gw) h => g.offerOwned c h) (g.setCan c { g.canAt c with later := [] })

/-- A frame that is received and, where needed, verified: to F13 while F13_EN is 1, and to the buffers (R328).
[Log 79: DEDUCED] -/
def Gw.canAccept (g : Gw) (c : Nat) (h : CanHeld) (fv : Option (Nat × Nat)) : Gw :=
  (if bit (g.canCfg c) 57 then g.deliver (h.toFrame c fv) else g).offerOwned c h

/-- Frames at the head of the held list that need no verification are accepted in order, `n` at most (R45). -/
def Gw.canFlushHeld (g : Gw) (c : Nat) : Nat → Gw
  | 0 => g
  | n + 1 =>
    match (g.canAt c).held with
    | h :: r =>
      if h.verify.isSome || h.wait then g else ((g.setCan c { g.canAt c with held := r }).canAccept c h none).canFlushHeld c n
    | [] => g

/-- What the seal filter says of a frame, or that it waits for a change of T3 (R330). [Log 185: DEDUCED] -/
def Gw.judgeHeld (g : Gw) (c : Nat) (h : CanHeld) : CanHeld :=
  if g.filterPending h then { h with wait := true }
  else { h with wait := false, verify := mget? (g.canAt c).filter h.frame.ident }

/-- Held frames that waited for a change of T3 meet the filter that it leaves. [Log 185: DEDUCED] -/
def Gw.heldDecided (g : Gw) : Gw :=
  (g.can.map (·.1)).foldl (fun (g : Gw) c =>
    let x := g.canAt c
    if x.held.any CanHeld.wait then
      let g := g.setCan c { x with held := x.held.map (fun h => if h.wait then g.judgeHeld c h else h) }
      g.canFlushHeld c x.held.length
    else g) g

/-- A frame beyond the controller's mode (R318): a form error in classical mode, a protocol exception in FD mode.
[Log 78: DEDUCED] -/
def Gw.laterFormat (g : Gw) (c : Nat) : Gw :=
  if g.canMode c = 0 then g.canError c { code := 2, destroyed := !g.canLom c }
  else g.setCan c { g.canAt c with lec := 7 }

/-- The receive error counter after a frame received successfully (R354). -/
def recAfter (r : Nat) : Nat := if 127 < r then 127 else r - 1

/-- A keep-alive on an NM controller (R679–R681). -/
def Gw.nmCan (g : Gw) (c : Nat) (b : BusFrame) : Bool :=
  bit (g.param Par.nmCanMask) c && !b.xlf && !b.fdf && !b.rtr && b.data.length = 8 &&
    b.ident / 256 = g.param Par.nmKaIdent / 256 && byteAt b.data 0 / 16 = 1

/-- Ticks at which the counter stood at `cnt`, a value of the last 2³² counts. -/
def Gw.tickOf (g : Gw) (cnt : Nat) : Nat := g.tb.tick - cntDiff g.canNow cnt * 25 / 4

/-- A reference message of another node with SOF at `sof` restarts cycle time; one of higher priority makes a master a
follower for the cycle (R348, R352). [Log 83: DEDUCED] -/
def Gw.ttHeard (g : Gw) (c sof prio cycle : Nat) : Gw :=
  let x := g.canAt c
  let follows := bit (g.param (Par.canTt c)) 63 && prio < bits (g.param (Par.canTt c)) 2 0
  g.setCan c { x with cycle := cycle % 64 % 2 ^ bits (g.param (Par.canTt c)) 58 56, ttRun := true, ttFollow := follows,
                      ttMaster := x.ttMaster && !follows, refTick := g.tickOf sof, ttDone := [] }

/-- A received frame with REF_IDENT but for its priority is a reference message (R348, R352). -/
def Gw.ttSeen (g : Gw) (c sof : Nat) (b : BusFrame) : Gw :=
  if g.ttEn c && !b.xlf && b.ident / 8 = bits (g.param (Par.canTt c)) 31 3 then
    g.ttHeard c sof (b.ident % 8) (byteAt b.data 0)
  else g

/-- CAN_FRAME_RECEIVE (R318, R326–R330, R348, R681, R725). [Log 78: DEDUCED] -/
def Gw.canReceive (g : Gw) (c sof eof : Nat) (b : BusFrame) : Gw :=
  if !g.canLive c then g
  else
    let b := { b with bus := c, sealedOk := false }
    if !g.sendsFormat c b then g.laterFormat c
    else
      let g := g.bump (Reg.canRxOk c)
      let g := if g.canLom c then g
        else g.setCan c { g.canAt c with rec' := recAfter (g.canAt c).rec' }
      let g := (g.capItem c 0 (capFlags b) sof b.ident b.data).ttSeen c sof b
      match g.canStamp c sof, g.canStamp c eof with
      | some i, some a =>
        let ka : NmHeard := { bus := c, bytes := b.data, stamp := i.1, seg := i.2 }
        let g := if g.nmCan c b then { g with nm := { g.nm with inbox := g.nm.inbox ++ [ka] } } else g
        let h := g.judgeHeld c { frame := b, ing := i.1, ingSeg := i.2, adm := a.1, seg := a.2, cnt := sof }
        let x := g.canAt c
        if h.verify.isSome || h.wait || !x.held.isEmpty then
          let snap := if g.ownPending c h then none else some (x.snapshot b)
          g.setCan c { x with held := x.held ++ [{ h with snap := snap }] }
        else g.canAccept c h none
      | _, _ => g

def execCanFrameReceive (c sof eof : Nat) (frame : BusFrame) (s : State) : Host.Outcome State Fault Refusal :=
  answer (onGw (fun g => g.canReceive c sof eof frame)) s

/-! ### The lock (R337–R340) -/

/-- At release the shadow frame, then the completion latch, is written into the buffer (R338, R340).
[Log 80: DEDUCED] -/
def Gw.releaseLock (g : Gw) (c : Nat) : Gw :=
  let x := g.canAt c
  match x.lock with
  | some l =>
    let g := g.setCan c { x with lock := none, shadow := none, done := none }
    let g := match x.shadow with
      | some f => (g.setCan c ((g.canAt c).fill l.1 f.1 f.2)).mbEvent c l.1
      | none => g
    match x.done with
    | some d => g.mbOutcome c l.1 d.1 d.2
    | none => g
  | none => g

/-- The header word as read: LOCKED in bit 27 (R332). -/
def CanCtl.hdrRead (x : CanCtl) (n : Nat) : Nat := x.hdr n 0 + atBit 27 (x.locked n)

/-- The access comes from the controller's owner, and its island runs (R320, R362). [Log 81: DEDUCED] -/
def Gw.mbOwner (g : Gw) (c n : Nat) (host : Bool) : Bool := c < 32 && n < 64 && g.islOn 9 && (g.canAt c).host = host

/-- An owner read of a buffer header returns the header and then takes the lock (R337, R339). The holder of the lock keeps
it, with the DLEN latched at the locking read. [Log 81: DEDUCED] -/
def Gw.mbHdrRead (g : Gw) (c n : Nat) : Gw × Nat :=
  if (g.canAt c).locked n then (g, (g.canAt c).hdrRead n)
  else
    let g := g.releaseLock c
    let x := g.canAt c
    (g.setCan c { x with lock := some (n, bits (x.hdr n 0) 11 0) }, x.hdrRead n)

def execCanMbHdrRead (c n : Nat) (host : Bool) (s : State) : Host.Outcome State Fault Refusal :=
  answer (onGw (fun g =>
    if g.mbOwner c n host then
      let r := g.mbHdrRead c n
      r.1.emit (.readData (0x400000 + 0x4000 * c + 32 * n) (w32 r.2))
    else g)) s

/-- Word index of the last word of the locked buffer (R338). -/
def CanCtl.lastWord (x : CanCtl) (n dlen : Nat) : Nat :=
  if dlen = 0 then 8 * n + 7 else x.dataWord n + (ceilDiv dlen 4 - 1)

def execCanMbLastWordRead (c n : Nat) (host : Bool) (s : State) : Host.Outcome State Fault Refusal :=
  answer (onGw (fun g =>
    let x := g.canAt c
    match x.lock with
    | some l =>
      if g.mbOwner c n host && l.1 = n then
        let i := x.lastWord n l.2
        (g.releaseLock c).emit (.readData (0x400000 + 0x4000 * c + 4 * i) (w32 (x.word i)))
      else g
    | none => g)) s

/-- A request withdrawn: at once, or at the end of the frame on the bus (R334). -/
def Gw.mbAbort (g : Gw) (c n : Nat) : Gw :=
  let x := g.canAt c
  let onBus := match x.tx with
    | some t => decide (t.src = CanSource.mb n) || decide (t.src = CanSource.tt n)
    | none => false
  if onBus then g.setCan c { (x.setCode n 0xA) with tx := x.tx.map (fun (t : CanTx) => { t with abort := true }) }
  else g.mbCode c n 0xB

/-- An owner write of a buffer header (R333–R335, R338): the lock is released, then an owner-written code takes
effect; a write of another code has none. [Log 80: DEDUCED] -/
def Gw.mbHdrWrite (g : Gw) (c n v : Nat) : Gw :=
  let g := if (g.canAt c).locked n then g.releaseLock c else g
  let code := bits v 31 28
  if code ∈ [0, 1, 8, 9, 0xA, 0xE] then
    let x := g.canAt c
    if code = 0xA then g.mbAbort c n
    else
      let x := x.setWord (8 * n) (v &&& hdrMask 0)
      let x := if code = 9 then { x with reqTime := mset x.reqTime n g.now } else x
      g.setCan c x
  else g

/-- [Log 80: DEDUCED] -/
def Gw.mbHdrWriteBy (g : Gw) (c n : Nat) (host : Bool) (v : Nat) : Gw :=
  if g.mbOwner c n host then g.mbHdrWrite c n v else g

def execCanMbHdrWrite (c n : Nat) (host : Bool) (value : W32) (s : State) : Host.Outcome State Fault Refusal :=
  answer (onGw (fun g => g.mbHdrWriteBy c n host value.toNat)) s

/-- A header write with CODE TX_PENDING, the other fields as given. -/
def execCanTxPendingWrite (c n : Nat) (host : Bool) (value : W32) (s : State) : Host.Outcome State Fault Refusal :=
  answer (onGw (fun g => g.mbHdrWriteBy c n host (setBits value.toNat 31 28 9))) s

def execCanTxAbortReq (c n : Nat) (host : Bool) (s : State) : Host.Outcome State Fault Refusal :=
  answer (onGw (fun g => g.mbHdrWriteBy c n host 0xA0000000)) s

def execCanTxTtWrite (c n : Nat) (host : Bool) (value : W32) (s : State) : Host.Outcome State Fault Refusal :=
  answer (onGw (fun g => g.mbHdrWriteBy c n host (setBits value.toNat 31 28 0xE))) s

/-! ### Bit times and longest frames (R321, R322) -/

/-- Periods of 12.5 ns per bit in FD and XL data phases. -/
def fdBit (bt : Nat) : Nat := (bits bt 28 24 + 1) * (1 + (bits bt 20 16 + 1) + (bits bt 11 8 + 1))
def xlBit (xbt : Nat) : Nat := (bits xbt 60 56 + 1) * (1 + (bits xbt 52 48 + 1) + (bits xbt 43 40 + 1))

/-- Nominal-rate and data-rate bits of the longest frame of a format with `n` data bytes, SOF to the end of EOF, with
the most stuff bits any content can produce. [Log 82: PRESUMED] -/
def frameBits (b : BusFrame) (n : Nat) : Nat × Nat :=
  let ext := bit b.ident 31
  if b.xlf then (30, 120 + 8 * n + (108 + 8 * n) / 10)
  else if b.fdf then
    let head := if ext then 36 else 17
    let all := head + 5 + 8 * n
    let crc := if n ≤ 16 then 21 + 6 else 25 + 7
    if b.brs then (head + (head - 1) / 4 + 9, (all - head) + ((all - 1) / 4 - (head - 1) / 4) + crc + 1)
    else (all + (all - 1) / 4 + crc + 10, 0)
  else
    let m := (if ext then 54 else 34) + 8 * n
    (m + (m - 1) / 4 + 10, 0)

/-- The longest duration of a frame in periods of 12.5 ns. [Log 82: PRESUMED] -/
def Gw.longestFrame (g : Gw) (c : Nat) (b : BusFrame) : Nat :=
  let bt := g.param (Par.canBt c)
  let r := frameBits b b.data.length
  r.1 * nominalBit bt + r.2 * (if b.xlf then xlBit (g.param (Par.canXbt c)) else fdBit bt)

/-- A bit timing in range, for a mode (R322). -/
def timingOk (mode bt xbt : Nat) : Bool :=
  let quanta := fun (t1 t2 : Nat) => 1 + t1 + t2
  let nt1 := bits bt 55 48 + 1
  let nt2 := bits bt 46 40 + 1
  let ft1 := bits bt 20 16 + 1
  let ft2 := bits bt 11 8 + 1
  let xt1 := bits xbt 52 48 + 1
  let xt2 := bits xbt 43 40 + 1
  let ext : BusFrame := { ident := 0x80000000 }
  let long := fun (b : BusFrame) (n : Nat) => (frameBits b n).1 * nominalBit bt + (frameBits b n).2 * xlBit xbt
  2 ≤ nt1 && bits bt 38 32 ≤ bits bt 46 40 && 8 ≤ quanta nt1 nt2 && 80 ≤ nominalBit bt &&
  bits bt 3 0 ≤ bits bt 11 8 && 4 ≤ quanta ft1 ft2 && 10 ≤ fdBit bt && ft1 ≤ 32 &&
  bits xbt 35 32 ≤ bits xbt 43 40 && 4 ≤ quanta xt1 xt2 && 4 ≤ xlBit xbt && xt1 ≤ 32 &&
  long ext 8 ≤ 2400000 && (mode = 0 || long { ext with fdf := true } 64 ≤ 2400000) &&
  (mode ≠ 2 || long { xlf := true } 2048 ≤ 2400000)

/-! ### Time-triggered operation (R348–R352) -/

/-- Valid columns with their time marks, in order (R349). -/
def CanCtl.columns (x : CanCtl) : List (Nat × Nat) :=
  (List.range 32).filterMap (fun k =>
    let w := x.word (0x200 + k)
    if bit w 31 then some (k, bits w 15 0) else none)

/-- Cell (r, k) of the matrix. -/
def CanCtl.cell (x : CanCtl) (r k : Nat) : Nat :=
  let i := 0x880 + 32 * r + k
  bits (x.word (i / 4)) (8 * (i % 4) + 7) (8 * (i % 4))

/-- [Log 83: DEDUCED] -/
def Gw.cycles (g : Gw) (c : Nat) : Nat := 2 ^ bits (g.param (Par.canTt c)) 58 56
/-- [Log 83: DEDUCED] -/
def Gw.cycleNtu (g : Gw) (c : Nat) : Nat := bits (g.param (Par.canTt c)) 47 32
def Gw.ttMasterCfg (g : Gw) (c : Nat) : Bool := bit (g.param (Par.canTt c)) 63

/-- Cycle time in NTU: nominal bit times since the SOF of the last reference message (R348). -/
def Gw.cycleTime (g : Gw) (c : Nat) : Nat :=
  4 * (g.tb.tick - (g.canAt c).refTick) / 25 / nominalBit (g.param (Par.canBt c))

/-- A frame may start now: its column allows it, and it ends before the next time mark at its longest (R351).
[Log 82: PRESUMED] -/
def Gw.windowOk (g : Gw) (c : Nat) (b : BusFrame) : Bool :=
  if !g.ttEn c then true
  else
    let x := g.canAt c
    let cycleTime := g.cycleTime c
    match (x.columns.filter (fun k => k.2 ≤ cycleTime)).getLast? with
    | some k =>
      let typ := x.cell (x.cycle % g.cycles c) k.1 / 64
      let limit := ((x.columns.filter (fun j => cycleTime < j.2)).head?.map Prod.snd).getD (g.cycleNtu c)
      x.ttRun && (typ = 0 || typ = 2) &&
        4 * (g.tb.tick - x.refTick) + 25 * g.longestFrame c b < 25 * limit * nominalBit (g.param (Par.canBt c))
    | none => false

/-! ### Transmission (R340, R342–R346) -/

/-- The frame in a transmit buffer; in FD frames an error-passive controller sends ESI 1 (R353). -/
def CanCtl.mbFrame (x : CanCtl) (c n : Nat) : BusFrame :=
  let h := x.hdr n 0
  let len := bits h 11 0
  let words := (List.range (ceilDiv len 4)).map (fun i => mgetD x.ram (x.dataWord n + i) 0)
  { bus := c, xlf := bit h 24, fdf := bit h 23, brs := bit h 22, esi := bit h 21, rtr := bit h 20, ident := x.hdr n 1,
    sdt := bits (x.hdr n 4) 31 24, vcid := bits (x.hdr n 4) 23 16, sec := bit (x.hdr n 4) 15, af := x.hdr n 5,
    data := (bytesOfWords words).take len }

/-- ESI as sent (R224, R353). [Log 5: DESIGN CHOICE, 71: DEDUCED] -/
def Gw.asSent (g : Gw) (c : Nat) (b : BusFrame) : BusFrame :=
  let x := g.canAt c
  { b with esi := b.esi || (b.fdf && (127 < x.tec || 127 < x.rec')) }

/-- The arbitration field as a number: lower wins (R345). -/
def arbKey (b : BusFrame) : Nat :=
  if bit b.ident 31 then
    bits b.ident 28 18 * 2 ^ 21 + 2 ^ 20 + 2 ^ 19 + bits b.ident 17 0 * 2 + b.rtr.toNat
  else bits b.ident 10 0 * 2 ^ 21 + atBit 20 b.rtr

/-- The owner at an order stamp: true for host software (R320). The gateway owns every controller at the start of a run. -/
def CanCtl.hostAt (x : CanCtl) (seg : Nat) (o : Stamp) : Bool :=
  ((x.owners.find? (fun e => e.1 < seg || (e.1 = seg && e.2.1 ≤ o))).map (fun e => e.2.2)).getD false

/-- One frame with order stamp `o` handed to a controller's gateway transmit queue; the first case of R342 that applies
decides. -/
def Gw.canPush (g : Gw) (f : GtqFrame) (seg : Nat) (o : Stamp) : Gw :=
  let c := f.frame.bus
  let x := g.canAt c
  if g.canLom c || x.hostAt seg o || !g.sendsFormat c f.frame then g.bump (Reg.canOwnDrop c)
  else if 64 ≤ x.gtq.length || 16384 < (x.gtq.map (fun y => y.frame.data.length)).sum + f.frame.data.length then
    ((g.bump (Reg.canGtqDrop c)).canFlag c 27).canUndef c
  else g.setCan c { x with gtq := x.gtq ++ [f] }

/-- The head of the queue is too old to start now (R344). -/
def Gw.gtqExpired (g : Gw) (c : Nat) (f : GtqFrame) : Bool :=
  let age := bits (g.canCfg c) 47 32
  age ≠ 0 && g.translate f.ing f.ingSeg g.tb.seg + 8000000 * Int.ofNat age < g.now

/-- A buffer's request is too old to start now (R335). -/
def Gw.mbExpired (g : Gw) (c n : Nat) : Bool :=
  let x := g.canAt c
  let age := bits (x.hdr n 7) 31 16
  age ≠ 0 && mgetD x.reqTime n 0 + 8000000 * Int.ofNat age < g.now

def Gw.ageDrop (g : Gw) (c : Nat) : Gw := (g.bump (Reg.canAgeDrop c)).canFlag c 26

/-- Buffer `n` may be offered: it does not hold the lock, it is not reserved for the reference message, and its frame's
format does not exceed MODE (R318, R340, R352). [Log 84: DEDUCED] -/
def Gw.mbFree (g : Gw) (c n : Nat) : Bool :=
  let x := g.canAt c
  !x.locked n && !(n = 0 && g.ttEn c && g.ttMasterCfg c) && g.sendsFormat c (x.mbFrame c n)

/-- Buffers that are requests for arbitration (R340, R345, R352). -/
def Gw.mbRequests (g : Gw) (c : Nat) : List Nat :=
  (List.range 64).filter (fun n => (g.canAt c).code n = 9 && g.mbFree c n)

/-- The frame of highest priority is offered; a frame found expired is discarded and the next one is taken (R335,
R344, R345). -/
def Gw.startNext (g : Gw) (c : Nat) : Nat → Gw
  | 0 => g
  | k + 1 =>
    let x := g.canAt c
    let mbs := (g.mbRequests c).map (fun n => (arbKey (x.mbFrame c n), n))
    let best := leastBy (fun (a b : Nat × Nat) => a.1 < b.1) mbs
    let start := fun (src : CanSource) (b : BusFrame) =>
      if g.windowOk c b then g.setCan c { x with tx := some { src := src, cnt := g.canNow } } else g
    match x.gtq, best with
    | [], none => g
    | f :: r, none =>
      if g.gtqExpired c f then (((g.setCan c { x with gtq := r }).ageDrop c).canUndef c).startNext c k
      else start .gtq f.frame
    | [], some m =>
      if g.mbExpired c m.2 then ((g.mbCode c m.2 0xD).ageDrop c).startNext c k
      else start (.mb m.2) (x.mbFrame c m.2)
    | f :: r, some m =>
      if arbKey f.frame < m.1 then
        if g.gtqExpired c f then (((g.setCan c { x with gtq := r }).ageDrop c).canUndef c).startNext c k
        else start .gtq f.frame
      else if g.mbExpired c m.2 then ((g.mbCode c m.2 0xD).ageDrop c).startNext c k
      else start (.mb m.2) (x.mbFrame c m.2)

/-- CAN_TX_START: on an idle bus the controller offers a frame to arbitration; `idle`, whether the bus is, comes with the
command. -/
def Gw.canTxStart (g : Gw) (c : Nat) (idle : Bool) : Gw :=
  if idle && g.canLive c && !g.canLom c && (g.canAt c).tx.isNone then g.startNext c 130 else g

def execCanTxStart (c : Nat) (idle : Bool) (s : State) : Host.Outcome State Fault Refusal :=
  answer (onGw (fun g => g.canTxStart c idle)) s

/-- A frame on a bus whose egress content has become undefined: any frame (R39, R360). [Log 5: DESIGN CHOICE] -/
def Gw.shownFrame (g : Gw) (c : Nat) (b : BusFrame) : BusFrame × Gw :=
  if bit g.undefBus c then ({ Config.undefinedFrame g.free with bus := c }, g.draw) else (b, g)

/-- What a sent frame leaves: counters, capture item and the frame on the bus, with the transceiver mode switch of an XL
frame signalled when XL_TMS is 1 (R319). -/
def Gw.sentFrame (g : Gw) (c cnt : Nat) (b : BusFrame) : Gw :=
  let q := g.shownFrame c (g.asSent c b)
  let b := q.1
  let g := (q.2.bump (Reg.canTxOk c)).capItem c 1 (capFlags b) cnt b.ident b.data
  let g := g.setCan c { g.canAt c with tec := (g.canAt c).tec - 1 }
  g.emit (.canFrame c b (b.xlf && bit (g.canCfg c) 56))

/-- The reference message of cycle `n`: MB_0 with REF_IDENT and the cycle count in [5:0] of its first data byte (R348,
R352). -/
def Gw.refFrame (g : Gw) (c n : Nat) : BusFrame :=
  let b := (g.canAt c).mbFrame c 0
  { b with ident := g.param (Par.canTt c) % 4294967296,
           data := BitVec.ofNat 8 (setBits (byteAt b.data 0) 5 0 n) :: b.data.drop 1 }

/-- The cycle that the controller's next reference message opens. -/
def Gw.nextCycle (g : Gw) (c : Nat) : Nat := if (g.canAt c).ttRun then ((g.canAt c).cycle + 1) % g.cycles c else 0

/-- The reference message has been sent with SOF at `cnt`: cycle time restarts there, and MB_0 takes the TS (R327, R348,
R352). -/
def Gw.refSent (g : Gw) (c cnt : Nat) : Gw :=
  let n := g.nextCycle c
  let g := g.sentFrame c cnt (g.refFrame c n)
  let x := { g.canAt c with cycle := n, ttRun := true, ttMaster := true, ttFollow := false, refTick := g.tickOf cnt, ttDone := [] }
  (g.setCan c x).mbOutcome c 0 (x.code 0) (some cnt)

/-- CAN_TX_DONE: a transmission ends; outcome 0 sent, 1 arbitration lost, else an error already reported (R334, R340,
R343, R350). -/
def Gw.canTxDone (g : Gw) (c outcome : Nat) : Gw :=
  let x := g.canAt c
  match x.tx with
  | none => g
  | some t =>
    if outcome = 0 then
      let g := g.setCan c { x with tx := none }
      match t.src with
      | .gtq =>
        match x.gtq with
        | f :: r =>
          ((g.setCan c { g.canAt c with gtq := r }).bump (Reg.canGwTx c)).sentFrame c t.cnt f.frame
        | [] => g
      | .mb n => (g.sentFrame c t.cnt (x.mbFrame c n)).mbOutcome c n 0xC (some t.cnt)
      | .tt n => (g.sentFrame c t.cnt (x.mbFrame c n)).mbOutcome c n (if t.abort then 0xC else 0xE) (some t.cnt)
      | .ref => g.refSent c t.cnt
      | .past b => g.sentFrame c t.cnt b
    else (if outcome = 1 then g.bump (Reg.canArbLost c) else g).endAttempt c

def execCanTxDone (c outcome : Nat) (s : State) : Host.Outcome State Fault Refusal :=
  answer (onGw (fun g => g.canTxDone c outcome)) s

/-! ### Collisions (R357–R359) -/

/-- Tracking of R358; the answer says whether ID_COLLISION is raised. -/
def CanCtl.track (x : CanCtl) (ident : Nat) (t : Stamp) : CanCtl × Bool :=
  let old := (x.coll.find? (fun e => e.ident = ident)).map CollEntry.times
  let times := (t :: old.getD []).take 3
  let hit := match times with
    | [a, _, b] => decide (a - b ≤ 800000000)
    | _ => false
  let e : CollEntry := { ident := ident, times := if hit then [] else times }
  let rest := x.coll.filter (fun y => y.ident != ident)
  let rest := if rest.length < 8 then rest else
    match leastBy (fun (a b : CollEntry) => decide (a.times.headD 0 < b.times.headD 0)) rest with
    | some v => rest.filter (fun y => y.ident != v.ident)
    | none => rest
  ({ x with coll := rest ++ [e] }, hit)

/-- The frame of a transmission. -/
def Gw.txFrame (g : Gw) (c : Nat) : CanSource → BusFrame
  | .gtq => ((g.canAt c).gtq.head?.map GtqFrame.frame).getD {}
  | .mb n => (g.canAt c).mbFrame c n
  | .tt n => (g.canAt c).mbFrame c n
  | .ref => g.refFrame c (g.nextCycle c)
  | .past b => b

def Gw.collision (g : Gw) (c : Nat) : Gw :=
  let x := g.canAt c
  match x.tx with
  | none => g
  | some t =>
    let b := g.txFrame c t.src
    let g := g.bump (Reg.canCollCnt c)
    let r := x.track b.ident g.now
    let g := g.setCan c r.1
    let g := if r.2 then
        let g := ((g.setCan c { g.canAt c with collLast := b.ident }).canFlag c 28).bump (Reg.canCollEvtCnt c)
        g.note "ID_COLLISION" [c, b.ident]
      else g
    let shared := x.shared.contains b.ident
    let g := if shared then g.endAttempt c
      else
        let g := g.setCan c { g.canAt c with tx := none }
        match t.src with
        | .gtq => ((g.setCan c { g.canAt c with gtq := x.gtq.drop 1 }).bump (Reg.canCollDrop c)).canUndef c
        | .mb n => g.mbOutcome c n 0xB none
        | .tt n => g.mbOutcome c n 0xB none
        | .ref => g
        | .past _ => g
    g.canError c { code := 4, asTx := true }

def execCanCollision (c : Nat) (s : State) : Host.Outcome State Fault Refusal :=
  answer (onGw (fun g => if g.canLive c then g.collision c else g)) s

/-! ### The matrix and the reference message (R350, R352) -/

/-- A transmission of a source begins. -/
def Gw.startTx (g : Gw) (c : Nat) (src : CanSource) : Gw :=
  g.setCan c { g.canAt c with tx := some { src := src, cnt := g.canNow } }

/-- A source comes before buffer `n` in the arbitration that R345 holds inside the controller. -/
def Gw.beats (g : Gw) (c n : Nat) (src : CanSource) : Bool :=
  let k := arbKey (g.txFrame c src)
  let mine := arbKey ((g.canAt c).mbFrame c n)
  match src with
  | .mb m => k < mine || (k = mine && m < n)
  | _ => k < mine

/-- The cell's buffer starts: in an arbitrating window only when no waiting frame of higher priority does (R345, R350). -/
def Gw.ttStart (g : Gw) (c k n : Nat) (arbitrates : Bool) : Gw :=
  let start := fun (g : Gw) => (g.startTx c (.tt n)).setCan c
    { (g.startTx c (.tt n)).canAt c with ttDone := k :: (g.canAt c).ttDone }
  let rival := (!(g.canAt c).gtq.isEmpty && g.beats c n .gtq) || (g.mbRequests c).any (fun m => g.beats c n (.mb m))
  if arbitrates && rival then
    let g := g.startNext c 130
    match (g.canAt c).tx with
    | some t => if g.beats c n t.src then g else start g
    | none => start g
  else start g

/-- CAN_TT_COLUMN: column `k`, with the bus idle or not. A cell is sent once its mark is reached and the bus is idle
within TX_EN_WIN of it; it is missed when its buffer cannot be sent or the window has passed (R350).
[Log 83: DEDUCED] -/
def Gw.ttColumn (g : Gw) (c k : Nat) (idle : Bool) : Gw :=
  let x := g.canAt c
  let w := x.word (0x200 + k)
  let runs := c < 32 && g.islOn 9 && !x.pairs.isEmpty && g.ttEn c && x.ttRun
  let cell := x.cell (x.cycle % g.cycles c) k
  let n := cell % 64
  let timed := cell / 64 = 1 || cell / 64 = 2
  if !(runs && k < 32 && bit w 31 && timed) || x.ttDone.contains k || g.cycleTime c < bits w 15 0 then g
  else if x.code n = 0xE && g.mbFree c n && g.canLive c && !g.canLom c &&
      g.cycleTime c ≤ bits w 15 0 + bits (g.param (Par.canTt c)) 55 48 then
    if idle && x.tx.isNone then g.ttStart c k n (cell / 64 = 2) else g
  else (g.setCan c { x with ttDone := k :: x.ttDone }).bump (Reg.canTtMiss c)

def execCanTtColumn (c k : Nat) (idle : Bool) (s : State) : Host.Outcome State Fault Refusal :=
  answer (onGw (fun g => g.ttColumn c k idle)) s

/-- A master begins to send the reference message on its idle bus; it cannot while MB_0 holds the lock or its
format exceeds MODE (R318, R340, R352). -/
def Gw.refStart (g : Gw) (c : Nat) : Gw :=
  let x := g.canAt c
  if g.ttMasterCfg c && !g.canLom c && x.tx.isNone && !x.locked 0 && g.sendsFormat c (g.refFrame c (g.nextCycle c)) then
    g.startTx c .ref
  else g

/-- CAN_TT_REFERENCE: a reference message with its SOF at `sof` has been received, or a master that is no follower in this
cycle begins its own, once every CYCLE_NTU (R352). [Log 83: DEDUCED] -/
def Gw.ttReference (g : Gw) (c : Nat) (sent : Bool) (sof prio cycle : Nat) : Gw :=
  let x := g.canAt c
  if !(g.canLive c && g.ttEn c) then g
  else if sent then
    (if !x.ttRun || (!x.ttFollow && g.cycleNtu c ≤ g.cycleTime c) then g.refStart c else g)
  else g.ttHeard c sof prio cycle

def execCanTtReference (c : Nat) (sent : Bool) (sof : Nat) (ref : TtRef) (s : State) : Host.Outcome State Fault Refusal :=
  answer (onGw (fun g => g.ttReference c sent sof ref.prio ref.cycle)) s

/-- The controller awaits its first reference message from now (R352). -/
def Gw.ttAwait (g : Gw) (c : Nat) : Gw :=
  let x := g.canAt c
  if x.ttRun then g else g.setCan c { x with refTick := g.tb.tick }

/-- No reference message for 2 × CYCLE_NTU: a master sends it, a follower stops (R352). -/
def Gw.ttTimeout (g : Gw) (c : Nat) : Gw :=
  if !(g.canLive c && g.ttEn c) || g.cycleTime c < 2 * g.cycleNtu c then g
  else if g.ttMasterCfg c && !g.canLom c then g.refStart c
  else (g.setCan c { g.canAt c with ttRun := false }).canFlag c 24

def execCanTtRefTimeout (c : Nat) (s : State) : Host.Outcome State Fault Refusal :=
  answer (onGw (fun g => g.ttTimeout c)) s

/-! ### Ownership (R320, R361, R363) -/

/-- The frame on the bus at a change of owner goes on to its end: the gateway's as the head of its queue, any other by
itself, since its buffer is no longer the request it was (R363). [Log 175: DEDUCED] -/
def Gw.pastTx (g : Gw) (c : Nat) : Option CanTx :=
  (g.canAt c).tx.map (fun t => match t.src with
    | .gtq => t
    | src => { t with src := .past (g.txFrame c src) })

/-- Host software takes a controller: queued gateway frames not started are discarded, buffers become INACTIVE, the
lock is released. -/
def Gw.canTake (g : Gw) (c slot : Nat) : Gw :=
  let g := g.releaseLock c
  let x := g.canAt c
  let started := match x.tx with
    | some t => decide (t.src = CanSource.gtq)
    | none => false
  let keep := if started then x.gtq.take 1 else []
  let tx := g.pastTx c
  let x := (List.range 64).foldl (fun x n => x.setCode n 0) x
  let g := g.setCan c { x with host := true, slot := some slot, gtq := keep, tx := tx }
  ((g.bumpN (Reg.canOwnDrop c) (x.gtq.length - keep.length)).setRegN (Reg.canHctl c) 0).setRegN (Reg.canDwSlot slot)
    (2 ^ 31 + c)

/-- Host software gives a controller back: pending requests end as TX_ABORTED and the buffers of the configuration
image are restored. -/
def Gw.canGive (g : Gw) (c : Nat) : Gw :=
  let x := g.canAt c
  let g := ((List.range 64).filter (fun n => x.code n = 9 || x.code n = 0xA)).foldl (fun g n => g.mbEvent c n) g
  let g := match x.slot with
    | some s => g.setRegN (Reg.canDwSlot s) 0
    | none => g
  let tx := g.pastTx c
  (g.setCan c { x with host := false, slot := none, ram := x.image, tx := tx, lock := none, shadow := none, done := none }).setRegN
    (Reg.canHctl c) 0

/-- The lowest direct-window slot that no controller is bound to (R361). -/
def Gw.freeSlotDw (g : Gw) : Option Nat :=
  (List.range 8).find? (fun s => g.regN (Reg.canDwSlot s) = 0)

end Sys2Proof.Machine
end

