-- ==== Sys2Proof/Machine/Gptp.lean ====
section
/-! DEFINITION. Frames that the firmware sends through F19 (R863), and gPTP (R406–R413): GPTP_SYNC_TRANSMIT
and GPTP_PDELAY_TIMER; GPTP_MESSAGE and GPTP_ANNOUNCE_TIMER stand with the spans of instances over a chain. Message layouts and the choice of roles are those of
IEEE 802.1AS-2020. Ports are numbered as GPTP_ROLE numbers them: 0–11 for E0–E11, 12–19 for S0–S7. -/

namespace Sys2Proof.Machine

/-- Pair `k` runs firmware (R744, R758, R772). -/
def Gw.pairRuns (g : Gw) (k : Nat) : Bool :=
  let x := mgetD g.pairs k {}
  g.islOn 10 && x.state = 1 && !x.halted

/-- A frame that pair `k` sends through F19 on the named ports and class (R863, R715), with a stamp request of the
firmware's own (R410). [Log 51: DEDUCED] -/
def Gw.fwSendTag (g : Gw) (k ports cls : Nat) (bytes : List Byte) (tag : Option Nat) : Gw :=
  g.deliverInternal { fport := 19, sub := k, body := .eth (withFcs bytes), ing := g.now, ingSeg := g.tb.seg, adm := g.now,
                      seg := g.tb.seg, named := some (ports, cls), fwTag := tag }

def Gw.fwSend (g : Gw) (k ports cls : Nat) (bytes : List Byte) : Gw := g.fwSendTag k ports cls bytes none

/-! ### Instances -/

def Gw.gptpAt (g : Gw) (i : Nat) : Gptp := mgetD g.gptp i {}
def Gw.setGptp (g : Gw) (i : Nat) (x : Gptp) : Gw := { g with gptp := mset g.gptp i x }
def Gw.gptpCfg (g : Gw) (i : Nat) : Nat := g.param (Par.gptpDom i)

/-- The firmware runs instance `i` (R406, R411, R760). -/
def Gw.gptpOn (g : Gw) (i : Nat) : Bool :=
  i < 4 && bit (g.gptpCfg i) 63 && !bit (g.gptpCfg i) 62 && g.inService && g.pairRuns 0

def Gw.extCfg (g : Gw) (i : Nat) : Bool := bit (g.gptpCfg i) 60

/-- The role of a port: 0 disabled, 1 master, 2 slave, 3 passive (R407). A port takes part when GPTP_ROLE does not
disable it. -/
def Gw.gptpRole (g : Gw) (i port : Nat) : Nat :=
  let set := bits (g.param (Par.gptpRole i)) (2 * port + 1) (2 * port)
  if g.extCfg i || set = 0 then set else mgetD (g.gptpAt i).roles port 1

/-- The module's clock identity: the EUI-64 of E0's station address. [Log 92: PRESUMED] -/
def Gw.clockId (g : Gw) : Nat :=
  let a := leBytes 6 (g.param (Par.ethSaddr 0))
  fromBe (a.take 3 ++ [0xFF, 0xFE] ++ a.drop 3)

/-- The module's root system identity: priority1, clock quality, priority2, clock identity. -/
def Gw.ownRoot (g : Gw) (i : Nat) : Nat :=
  let c := g.gptpCfg i
  let p1 := if bit c 61 then bits c 47 40 else 255
  p1 * 2 ^ 104 + 0xF8FE4100 * 2 ^ 72 + bits c 39 32 * 2 ^ 64 + g.clockId

/-- A priority vector: root system identity, steps removed, source port identity. [Log 92: PRESUMED] -/
def gptpVector (root steps source : Nat) : Nat := (root * 2 ^ 16 + steps) * 2 ^ 80 + source

/-- [Log 92: PRESUMED] -/
def Gw.ownVector (g : Gw) (i : Nat) : Nat := gptpVector (g.ownRoot i) 0 (g.clockId * 65536)

/-- The vector of an instance that reaches the module over the chain, as if heard on a port 20: stepsRemoved of the module
that takes its time from Ethernet, increased by the chain depth from it once this module adds its own step (R413). It holds
while that module can be reached. [Log 169: DESIGN CHOICE] -/
def Gw.spanVector (g : Gw) (i : Nat) : Option (Nat × Nat) :=
  (g.gptpAt i).span.bind (fun s =>
    if (mget? g.chn.reach s.src).isSome then some (20, gptpVector s.root (s.steps + s.depth - 1) s.source) else none)

/-- The module follows another clock in instance `i`. -/
def Gw.gptpSlaveOf (g : Gw) (i : Nat) : Bool := (List.range 20).any (fun p => g.gptpRole i p = 2)

/-- The vector that the module follows and where it comes from: the best one heard when it is better than the module's own
(IEEE 802.1AS-2020 clause 10.3); with external port configuration that of the slave port, or of the chain.
[Log 92: PRESUMED] -/
def Gw.gptpFollowed (g : Gw) (i : Nat) : Option (Nat × Nat) :=
  let heard := (g.gptpAt i).announced.filter (fun (q : Nat × Nat) => g.gptpRole i q.1 ≠ 0)
  let chain := g.spanVector i
  if g.extCfg i then
    (match heard.find? (fun q => g.gptpRole i q.1 = 2) with
      | some q => some q
      | none => if g.gptpSlaveOf i then none else chain)
  else
    (leastBy (fun (a b : Nat × Nat) => a.2 < b.2) (heard ++ chain.toList)).bind (fun b =>
      if b.2 < g.ownVector i then some b else none)

/-- Grandmaster and stepsRemoved as the module presents them, from what it follows. -/
def Gw.gptpPresent (g : Gw) (i : Nat) : Gw :=
  match g.gptpFollowed i with
  | some b => g.setGptp i { g.gptpAt i with gm := b.2 / 2 ^ 96 % 2 ^ 64, steps := b.2 / 2 ^ 80 % 65536 + 1 }
  | none => g.setGptp i { g.gptpAt i with gm := g.clockId, steps := 0 }

/-- The roles that follow from the announced vectors (IEEE 802.1AS-2020 clause 10.3): the port with the best vector is
slave unless the module's own is better or the chain brings the best one, and a port is passive when it hears a better one
than the module would send. [Log 92: PRESUMED] -/
def Gw.gptpSelect (g : Gw) (i : Nat) : Gw :=
  let x := g.gptpAt i
  match g.gptpFollowed i with
  | some best =>
    let root := best.2 / 2 ^ 96
    let steps := best.2 / 2 ^ 80 % 65536
    let mine := gptpVector root (steps + 1) (g.clockId * 65536)
    let roles := (List.range 20).foldl (fun (m : Map Nat) q =>
      let role := if q = best.1 then 2
        else match mget? x.announced q with
          | some v => if v < mine then 3 else 1
          | none => 1
      mset m q role) []
    g.setGptp i { x with roles := roles, gm := root % 2 ^ 64, steps := steps + 1 }
  | none => g.setGptp i { x with roles := [], gm := g.clockId, steps := 0 }

/-! ### Time of an instance (R409, R410) -/

/-- A stamp in 2⁻¹⁶ ns. -/
def fine (t : Stamp) : Int := t * 8192

/-- An interval of DT in instance time, by the instance's rate ratio: 1 + rate × 2⁻⁴¹. -/
def Gptp.scale (x : Gptp) (d : Int) : Int := d + d * x.rate / 2 ^ 41

/-- The time of instance `i` at a stamp of the present segment, in 2⁻¹⁶ ns: DT itself for the instance that the timebase
follows, else by the offset and rate ratio of the instance (R409). -/
def Gw.instTime (g : Gw) (i : Nat) (t : Stamp) : Int :=
  let x := g.gptpAt i
  if g.param Par.tbWorkDom = i && g.tb.src = 1 then fine t else x.offset + x.offAt + x.scale (fine t - x.offAt)

/-- How far instance `i` is ahead of DT at a stamp, in 2⁻¹⁶ ns. -/
def Gw.instOffset (g : Gw) (i : Nat) (t : Stamp) : Int := g.instTime i t - fine t

/-- The instances that the firmware runs on a port. -/
def Gw.gptpOnPort (g : Gw) (port : Nat) : List Nat := [0, 1, 2, 3].filter (fun i => g.gptpOn i && g.gptpRole i port ≠ 0)

/-- The instance that holds the peer delay of a port for instance `i`: the lowest one that the port carries (R407).
[Log 92: PRESUMED] -/
def Gw.pdOwner (g : Gw) (i port : Nat) : Nat := (g.gptpOnPort port).headD i

/-- A port carries more than one instance: its peer delay is that of CMLDS (R407). -/
def Gw.cmlds (g : Gw) (port : Nat) : Bool := 2 ≤ (g.gptpOnPort port).length

/-- The link delay of a port in 2⁻¹⁶ ns (R407, R408). -/
def Gw.linkDelay (g : Gw) (i port : Nat) : Int :=
  if port < 12 then mgetD (g.gptpAt (g.pdOwner i port)).linkDelay port 0
  else 65536 * Int.ofNat (g.param (Par.gptpTisDelay (port - 12)))

/-- The port may carry time: its link is up, its link delay known and below the threshold; an S port always may.
[Log 92: PRESUMED] -/
def Gw.asCapable (g : Gw) (i port : Nat) : Bool :=
  12 ≤ port || ((mgetD g.eth port {}).link && (match mget? (g.gptpAt (g.pdOwner i port)).linkDelay port with
    | some d => decide (d ≤ 65536 * Int.ofNat (g.param Par.gptpPdelayThreshNs))
    | none => false))

/-- The rate ratio of an instance to DT, as an offset in 2⁻⁴¹, from the rate offset that the neighbour on a port sends and
the neighbour's own rate against DT, which is 1 on S ports (R408, R409). [Log 92: PRESUMED] -/
def Gw.rateRatio (g : Gw) (i port : Nat) (tlv : Int) : Int :=
  let r := if port < 12 then mgetD (g.gptpAt (g.pdOwner i port)).ratio port (1, 1) else (1, 1)
  (2 ^ 41 + tlv) * r.1 / r.2 - 2 ^ 41

/-- Origin in ns and correction in 2⁻¹⁶ ns that a Sync sent at stamp `t` carries: residence of the received time as a
bridge, the module's own time as grandmaster (R409, R410). -/
def Gw.syncTime (g : Gw) (i : Nat) (t : Stamp) : Int × Int :=
  let x := g.gptpAt i
  match x.last, g.gptpSlaveOf i with
  | some l, true =>
    let rx := l.rx + fine (g.translate 0 l.seg g.tb.seg)
    (l.origin, l.corr + x.scale (fine t - rx))
  | _, _ => (g.instTime i t / 65536, g.instTime i t % 65536)

/-! ### Messages -/

/-- A gPTP message without FCS. `typ` is the PTP message type; the correction is in 2⁻¹⁶ ns. Peer delay messages of a port
that carries several instances are those of CMLDS. [Log 92: PRESUMED] -/
def Gw.gptpBytes (g : Gw) (i port typ flags seq : Nat) (corr : Int) (interval : Nat) (body : List Byte) : List Byte :=
  let dest := [0x01, 0x80, 0xC2, 0x00, 0x00, 0x0E].map (BitVec.ofNat 8)
  let common := (typ = 2 || typ = 3 || typ = 10) && g.cmlds port
  let head := [BitVec.ofNat 8 ((if common then 32 else 16) + typ), 0x12] ++ beBytes 2 (34 + body.length) ++
    [BitVec.ofNat 8 (if common then 0 else bits (g.gptpCfg i) 54 48), 0] ++ beBytes 2 flags ++ beBytes 8 (stampNat corr) ++ beBytes 4 0 ++
    beBytes 8 g.clockId ++ beBytes 2 (port + 1) ++ beBytes 2 seq ++ [0, BitVec.ofNat 8 interval]
  dest ++ leBytes 6 (g.param (Par.ethSaddr (if port < 12 then port else 0))) ++ beBytes 2 0x88F7 ++ head ++ body

/-- A PTP time stamp: 48-bit seconds and 32-bit nanoseconds. [Log 92: PRESUMED] -/
def ptpStamp (ns : Int) : List Byte := beBytes 6 (ns / 1000000000).toNat ++ beBytes 4 (ns % 1000000000).toNat

/-- A gPTP message sent on a port; on an S port it carries the tag that the aggregator matches (R278).
[Log 92: PRESUMED] -/
def Gw.gptpSend (g : Gw) (port : Nat) (bytes : List Byte) (tag : Option Nat) : Gw :=
  if port < 12 then g.fwSendTag 0 (2 ^ port) 7 bytes tag
  else
    let c := g.param (Par.tisCfg (port - 12))
    let v := bits c 11 0
    g.fwSendTag 0 (2 ^ 12) 7 (if v = 0 then bytes else insertTag bytes (bits c 14 12) v) tag

/-- The tag of a stamp request: what was sent (0 Sync, 1 Pdelay_Req, 2 Pdelay_Resp), instance, port and sequence. -/
def gptpTag (kind i port seq : Nat) : Nat := kind + 4 * (i + 4 * (port + 32 * seq))

/-- Follow_Up information TLV with the rate offset. [Log 92: PRESUMED] -/
def followTlv (rate : Int) : List Byte :=
  beBytes 2 3 ++ beBytes 2 28 ++ [0x00, 0x80, 0xC2, 0x00, 0x00, 0x01] ++
    beBytes 4 (rate % 2 ^ 32).toNat ++ List.replicate 18 0

/-- A frame with a stamp request of the firmware leaves at stamp `t` (R410): the two-step message that carries the stamp
follows, while the firmware still runs the instance (R411). -/
def Gw.fwStamped (g : Gw) (tag : Nat) (t : Stamp) : Gw :=
  let kind := tag % 4
  let i := tag / 4 % 4
  let port := tag / 16 % 32
  let seq := tag / 512 % 65536
  let x := g.gptpAt i
  if !g.gptpOn i then g
  else if kind = 0 then
    let o := g.syncTime i t
    g.gptpSend port (g.gptpBytes i port 8 0x0008 seq o.2 (bits (g.gptpCfg i) 31 24)
      (ptpStamp o.1 ++ followTlv x.rate)) none
  else if kind = 1 then
    let d := mgetD x.pd port {}
    if d.seq = seq then g.setGptp i { x with pd := mset x.pd port { d with t1 := some (fine t) } } else g
  else
    let d := mgetD x.pd port {}
    g.gptpSend port (g.gptpBytes i port 0xA 0x0008 seq 0 0x7F (ptpStamp (t / 8) ++ beBytes 10 d.asker)) none

/-! ### Sources of the servo -/

/-- A sample of a time source, its offset in 2⁻¹⁶ ns (R401). -/
def Gw.sourceSample (g : Gw) (src : Nat) (offset : Int) : Gw :=
  { g with tb := { g.tb with samples := mset g.tb.samples src offset, valid := g.tb.valid ||| 2 ^ src,
                             heard := mset g.tb.heard src g.tb.tick } }

/-- The time an instance receives with its rate ratio: its offset to DT (R409), which is a sample for the servo when the
instance is the working one. -/
def Gw.gotTime (g : Gw) (i : Nat) (l : SyncInfo) (rate : Int) : Gw :=
  let rx := l.rx + fine (g.translate 0 l.seg g.tb.seg)
  let off := l.origin * 65536 + l.corr - rx
  let g := g.setGptp i { g.gptpAt i with last := some l, rate := rate, offset := off, offAt := rx }
  if g.param Par.tbWorkDom = i then g.sourceSample 1 off else g

/-! ### Reception (R407, R408) -/

/-- A complete peer-delay exchange: the neighbour's rate from the exchange before, and the mean link delay with it. -/
def Gw.pdelayDone (g : Gw) (i port : Nat) (d : PeerDelay) (t1 t3 t4 : Int) : Gw :=
  let x := g.gptpAt i
  let ratio : Int × Int := match d.last with
    | some (p3, p4) => if t4 = p4 then (1, 1) else (t3 - p3, t4 - p4)
    | none => (1, 1)
  let delay := ((t4 - t1) * ratio.1 / ratio.2 - (t3 - d.t2)) / 2
  g.setGptp i { x with pd := mset x.pd port { d with t1 := none, t4 := none, last := some (t3, t4) },
                       linkDelay := mset x.linkDelay port delay, ratio := mset x.ratio port ratio }

/-- A received gPTP message of an instance that the firmware runs (R407–R410); S ports take no peer delay message (R408). -/
def Gw.gptpReceive (g : Gw) (i port : Nat) (m : GptpMsg) : Gw :=
  if !g.gptpOn i || 20 ≤ port || g.gptpRole i port = 0 then g
  else
    let x := g.gptpAt i
    let seg := g.tb.seg - m.segBack
    match m.typ with
    | 0 =>
      if g.gptpRole i port ≠ 2 || !g.asCapable i port then g
      else
        let x := { x with syncTick := g.tb.tick }
        let g := g.setGptp i x
        if m.twoStep then g.setGptp i { x with syncPending := mset x.syncPending port (m.seq, fine m.rx, seg) }
        else
          g.gotTime i { origin := m.time, corr := m.corr + g.linkDelay i port, rx := fine m.rx, seg := seg }
            (g.rateRatio i port m.rate)
    | 1 =>
      match mget? x.syncPending port with
      | some (seq, rx, sg) =>
        if seq = m.seq && g.gptpRole i port = 2 then
          (g.setGptp i { x with syncPending := merase x.syncPending port }).gotTime i
            { origin := m.time, corr := m.corr + g.linkDelay i port, rx := rx, seg := sg } (g.rateRatio i port m.rate)
        else g
      | none => g
    | 2 =>
      if 12 ≤ port then g
      else
        let i := g.pdOwner i port
        let x := g.gptpAt i
        let d := mgetD x.pd port {}
        let g := g.setGptp i { x with pd := mset x.pd port { d with asker := m.source, askSeq := m.seq } }
        g.gptpSend port (g.gptpBytes i port 3 0x0208 m.seq 0 0x7F (ptpStamp (m.rx / 8) ++ beBytes 10 m.source))
          (some (gptpTag 2 i port m.seq))
    | 3 =>
      let i := g.pdOwner i port
      let x := g.gptpAt i
      let d := mgetD x.pd port {}
      if d.seq = m.seq then
        g.setGptp i { x with pd := mset x.pd port { d with t2 := m.time * 65536 + m.corr, t4 := some (fine m.rx) } }
      else g
    | 4 =>
      let i := g.pdOwner i port
      let x := g.gptpAt i
      let d := mgetD x.pd port {}
      match d.t1, d.t4 with
      | some t1, some t4 => if d.seq = m.seq then g.pdelayDone i port d t1 (m.time * 65536 + m.corr) t4 else g
      | _, _ => g
    | 5 =>
      let v := gptpVector m.root m.steps m.source
      if m.root % 2 ^ 64 = g.clockId || !g.asCapable i port then g
      else
        let g := g.setGptp i { x with announced := mset x.announced port v,
                                      utcOffset := if g.gptpRole i port = 2 then m.utc else x.utcOffset,
                                      annTick := mset x.annTick port g.tb.tick }
        if g.extCfg i then
          (if g.gptpRole i port = 2 then
            g.setGptp i { g.gptpAt i with gm := m.root % 2 ^ 64, steps := m.steps + 1 } else g)
        else g.gptpSelect i
    | _ => g

/-! ### Transmission -/

/-- The ports of an instance in a role. -/
def Gw.gptpPorts (g : Gw) (i role : Nat) : List Nat := (List.range 20).filter (fun p => g.gptpRole i p = role)

/-- The root system identity that the module announces (R413). [Log 95: DEDUCED] -/
def Gw.shownRoot (g : Gw) (i : Nat) : Nat :=
  match g.gptpFollowed i with
  | some b => b.2 / 2 ^ 96
  | none => g.ownRoot i

/-- The ports on which an instance is master and time may pass. -/
def Gw.gptpMasters (g : Gw) (i : Nat) : List Nat := (g.gptpPorts i 1).filter (fun p => g.asCapable i p)

/-- Two-step Sync on every master port (R407, R409), while the instance has a grandmaster: a root whose priority1 is 255 is
none, and so is this module with GM_CAPABLE 0. [Log 92: PRESUMED] -/
def Gw.gptpSync (g : Gw) (i : Nat) : Gw :=
  if !g.gptpOn i || g.shownRoot i / 2 ^ 104 = 255 then g
  else (g.gptpMasters i).foldl (fun g port =>
    let x := g.gptpAt i
    let seq := mgetD x.seqSync port 0
    let g := g.setGptp i { x with seqSync := mset x.seqSync port ((seq + 1) % 65536) }
    g.gptpSend port (g.gptpBytes i port 0 0x0208 seq 0 (bits (g.gptpCfg i) 31 24) (List.replicate 10 0))
      (some (gptpTag 0 i port seq))) g

def execGptpSyncTransmit (inst : Nat) (s : State) : Host.Outcome State Fault Refusal :=
  answer (onGw (fun g =>
    if g.gptpOn inst then g.every (timerSync inst) (logTicks 1 (bits (g.gptpCfg inst) 31 24)) (fun g => g.gptpSync inst)
    else g)) s

/-- Announce on every master port (R407). -/
def Gw.gptpAnnounce (g : Gw) (i : Nat) : Gw :=
  if !g.gptpOn i then g
  else (g.gptpMasters i).foldl (fun g port =>
    let x := g.gptpAt i
    let seq := mgetD x.seqAnn port 0
    let root := g.shownRoot i
    let body := List.replicate 10 0 ++ beBytes 2 (x.utcOffset % 65536).toNat ++ [0] ++ beBytes 14 root ++
      beBytes 2 x.steps ++ [0xA0] ++ beBytes 2 8 ++ beBytes 2 8 ++ beBytes 8 g.clockId
    let g := g.setGptp i { x with seqAnn := mset x.seqAnn port ((seq + 1) % 65536) }
    g.gptpSend port (g.gptpBytes i port 0xB 0x0008 seq 0 (bits (g.gptpCfg i) 23 16) body) none) g

/-- Vectors on which no Announce came for three intervals are dropped, and the roles chosen anew. The receipt timeout of the
source in use is SOURCE_LOSS (R401). [Log 92: PRESUMED] -/
def Gw.gptpAge (g : Gw) (i : Nat) : Gw :=
  let x := g.gptpAt i
  let fresh := fun (q : Nat × Nat) => g.tb.tick < mgetD x.annTick q.1 0 + logTicks 3 (bits (g.gptpCfg i) 23 16)
  if !g.gptpOn i || g.extCfg i || (i = g.param Par.tbWorkDom && bit g.tb.valid 1) || x.announced.all fresh then g
  else (g.setGptp i { x with announced := x.announced.filter fresh }).gptpSelect i

/-- The receipt timeouts of the present tick. -/
def Gw.gptpAges (g : Gw) : Gw := [0, 1, 2, 3].foldl Gw.gptpAge g

/-- Pdelay_Req on every E port whose peer delay the instance holds; S ports send none (R407, R408). -/
def Gw.gptpPdelay (g : Gw) (i : Nat) : Gw :=
  if !g.gptpOn i then g
  else ((List.range 12).filter (fun p => g.gptpRole i p ≠ 0 && g.pdOwner i p = i)).foldl (fun g port =>
    let x := g.gptpAt i
    let seq := mgetD x.seqPd port 0
    let d : PeerDelay := { mgetD x.pd port {} with seq := seq, t1 := none, t4 := none }
    let g := g.setGptp i { x with seqPd := mset x.seqPd port ((seq + 1) % 65536), pd := mset x.pd port d }
    g.gptpSend port (g.gptpBytes i port 2 0x0008 seq 0 (bits (g.gptpCfg i) 15 8) (List.replicate 20 0))
      (some (gptpTag 1 i port seq))) g

def execGptpPdelayTimer (inst : Nat) (s : State) : Host.Outcome State Fault Refusal :=
  answer (onGw (fun g =>
    if g.gptpOn inst then g.every (timerPdelay inst) (logTicks 1 (bits (g.gptpCfg inst) 15 8)) (fun g => g.gptpPdelay inst)
    else g)) s

end Sys2Proof.Machine
end

