-- ==== Sys2Proof/Machine/LinFlx.lean ====
section
/-! DEFINITION. The LIN controllers and the FlexRay controller (R369–R393): committed buffers, LIN schedules, headers,
responses and errors, FlexRay slots, reception and POC transitions. A command whose event the controller's state does
not allow has no effect. -/

namespace Sys2Proof.Machine

/-! ### Settings -/

def Gw.linAt (g : Gw) (l : Nat) : LinCtl := mgetD g.lin l {}
def Gw.setLin (g : Gw) (l : Nat) (x : LinCtl) : Gw := { g with lin := mset g.lin l x }
def Gw.linCfg (g : Gw) (l : Nat) : Nat := g.param (Par.linCfg l)
def Gw.linLom (g : Gw) (l : Nat) : Bool := bit (g.linCfg l) 61
def Gw.linCmdr (g : Gw) (l : Nat) : Bool := bit (g.linCfg l) 62

/-- The controller is enabled, its island runs and it holds a pair. -/
def Gw.linLive (g : Gw) (l : Nat) : Bool :=
  l < 12 && g.islOn 9 && bit (g.linCfg l) 63 && !(g.linAt l).pairs.isEmpty

def Gw.flxCfg (g : Gw) : Nat := g.param Par.flxCfg
def Gw.flxLom (g : Gw) : Bool := bit g.flxCfg 62
def Gw.flxLive (g : Gw) : Bool := g.islOn 9 && bit g.flxCfg 63 && !g.flx.pairs.isEmpty

/-- Λ_G = H + GTX_LAT_NS, in ST64 units (R369). -/
def Gw.lambdaG8 (g : Gw) : Nat := 8 * (g.hNs + g.param Par.gtxLatNs)

/-! ### Committed buffers (R369–R372) -/

/-- A stamp in the present segment. -/
def Gw.present (g : Gw) (t : Stamp) (seg : Nat) : Stamp := g.translate t seg g.tb.seg

/-- The stamp of a content, in the present segment. -/
def Gw.commitStamp (g : Gw) (x : Committed) : Stamp := g.present x.c x.seg

/-- A content among those of its buffer, newest stamp first; of equal stamps the later commit comes first. Contents are
kept as far back as 1 ms, for a start stamp that lies behind (R370). -/
def Gw.commitOne (g : Gw) (x : Committed) (l : List Committed) : List Committed :=
  let l := l.takeWhile (fun y => decide (g.commitStamp x < g.commitStamp y)) ++
    x :: l.dropWhile (fun y => decide (g.commitStamp x < g.commitStamp y))
  match l.findIdx? (fun y => decide (g.commitStamp y ≤ g.now - 8000000)) with
  | some i => l.take (i + 1)
  | none => l

/-- One commit into its buffer. -/
def Gw.commitInto (g : Gw) (m : Map (List Committed)) (w : CommitWait) : Map (List Committed) :=
  mset m w.buf (g.commitOne { data := w.data, c := w.c, seg := w.seg } (mgetD m w.buf []))

/-- The commits whose stamp is at or before `t`, made in the order they came, and the frames that still wait. -/
def Gw.commitUpTo (g : Gw) (m : Map (List Committed)) (ws : List CommitWait) (t : Stamp) :
    Map (List Committed) × List CommitWait :=
  let due := fun (w : CommitWait) => decide (g.present w.c w.seg ≤ t)
  ((ws.filter due).foldl g.commitInto m, ws.filter (fun w => !due w))

/-- The content of buffer `k` committed last at or before `t` (R370). -/
def Gw.contentAt (g : Gw) (m : Map (List Committed)) (k : Nat) (t : Stamp) : Option Committed :=
  (mgetD m k []).find? (fun x => decide (g.commitStamp x ≤ t))

/-- COMMITTED_BUFFER_COMMIT for the bus of a source index: what has reached its commit stamp commits. -/
def Gw.commitBus (g : Gw) (bus : Nat) : Gw :=
  if 32 ≤ bus && bus ≤ 43 then
    let x := g.linAt (bus - 32)
    let r := g.commitUpTo x.commits x.waits g.nowLast
    g.setLin (bus - 32) { x with commits := r.1, waits := r.2 }
  else if bus = 44 || bus = 45 then
    let r := g.commitUpTo g.flx.commits g.flx.waits g.nowLast
    { g with flx := { g.flx with commits := r.1, waits := r.2 } }
  else g

def execCommittedBufferCommit (bus : Nat) (s : State) : Host.Outcome State Fault Refusal :=
  answer (onGw (fun g => g.commitBus bus)) s

/-- The controller publishes the identifier, or owns the slot. -/
def Gw.publishes (g : Gw) (b : BusFrame) : Bool :=
  if b.bus ≤ 43 then (mgetD (g.linAt (b.bus - 32)).frames (b.ident % 64) {}).dir = 1
  else g.flx.owned.any (fun s => s.slot = b.ident % 2048 && bit s.channels (b.bus - 44))

/-- Buffer key: the identifier, or 2048·channel + slot. -/
def bufKey (b : BusFrame) : Nat := if b.bus ≤ 43 then b.ident % 64 else 2048 * (b.bus - 44) + b.ident % 2048

/-- A frame that F13 egress hands to a LIN or FlexRay controller with event stamp E (R369, R371, R372). -/
def Gw.commitFrame (g : Gw) (b : BusFrame) (e : Stamp) (seg : Nat) : Gw :=
  let lin := decide (b.bus ≤ 43)
  let l := b.bus - 32
  let lom := if lin then g.linLom l else g.flxLom
  if lom || !g.publishes b then g.bump (if lin then Reg.linNopubCnt l else Reg.flxNopubCnt)
  else
    let w : CommitWait := { buf := bufKey b, data := b.data, c := e + Int.ofNat g.lambdaG8, seg := seg }
    let late := g.translate w.c seg g.tb.seg < g.now
    let w := if late then { w with c := g.now, seg := g.tb.seg } else w
    let g := if lin then g.setLin l { g.linAt l with waits := (g.linAt l).waits ++ [w] }
      else { g with flx := { g.flx with waits := g.flx.waits ++ [w] } }
    if late then
      let g := if lin then (g.bump (Reg.linLateCnt l)).flag (Reg.linFlag l) 0x02000000
        else (g.bump Reg.flxLateCnt).flag Reg.flxFlag 0x08000000
      { (g.commitBus b.bus) with undefBus := g.undefBus ||| 2 ^ b.bus }
    else g

/-- The content of a LIN response at its start stamp (R370). Where nothing was committed, or the bus's content has
become undefined, it is a free value. [Log 87: DEDUCED] -/
def Gw.linContent (g : Gw) (l ident : Nat) (t : Stamp) : Gw × List Byte :=
  let x := g.linAt l
  let r := g.commitUpTo x.commits x.waits t
  let len := (mgetD x.frames ident {}).len
  let sent := (mgetD r.1 ident []).map (fun y => if g.commitStamp y ≤ t then { y with fresh := false } else y)
  let g := g.setLin l { x with commits := mput r.1 ident sent [], waits := r.2 }
  match g.contentAt r.1 ident t with
  | some c => if bit g.undefBus (32 + l) then (g.draw, Config.undefinedBytes g.free len) else (g, padTo len c.data)
  | none => (g.draw, Config.undefinedBytes g.free len)

/-! ### LIN schedules (R377–R380) -/

def LinCtl.tableSlots (x : LinCtl) : List LinSlot := mgetD x.tables x.table []

/-- Before a slot starts: a table asked for by command, a resolution table, or the return from one (R379, R380).
[Log 86: DEDUCED] -/
def LinCtl.switch (x : LinCtl) : LinCtl :=
  match x.want with
  | some w =>
    if w = 15 then { x with running := false, nextSlot := none, want := none, resume := [], resolve := none }
    else { x with table := w, slot := 0, want := none, resume := [], resolve := none }
  | none =>
    match x.resolve with
    | some r => { x with resume := (x.table, x.slot) :: x.resume, table := r, slot := 0, resolve := none }
    | none => x

/-- The identifier a slot sends at wire time `t`, none when a sporadic slot stays silent (R377, R379). -/
def Gw.linSends (g : Gw) (s : LinSlot) (commits : Map (List Committed)) (t : Stamp) : Option Nat :=
  if s.typ = 2 then s.idents.find? (fun i =>
    (mgetD commits i []).any (fun y => y.fresh && decide (g.commitStamp y ≤ t)))
  else if s.typ = 3 then some 0x3C
  else if s.typ = 4 then some 0x3D
  else some s.ident

/-- The slot in turn begins at `t` and the next one is set (R377). [Log 86: DEDUCED] -/
def Gw.linSlot (g : Gw) (l : Nat) (t : Stamp) : Gw :=
  let x := (g.linAt l).switch
  if !x.running then g.setLin l x
  else
    match x.tableSlots[x.slot]? with
    | none => g.setLin l { x with running := false, nextSlot := none }
    | some s =>
      let hdr : LinHeader := { slot := s, wire := t + Int.ofNat g.lambdaG8, seg := g.str.relSeg }
      let last := decide (x.tableSlots.length ≤ x.slot + 1)
      let pos := if last then x.resume.headD (x.table, 0) else (x.table, x.slot + 1)
      g.setLin l { x with header := some hdr, curTable := x.table, curSlot := x.slot, nextSlot := some (t + 8000000 * Int.ofNat s.delayMs), table := pos.1, slot := pos.2,
                          resume := if last then x.resume.drop 1 else x.resume }

/-- LIN_SLOT_START: the slot start that is due (R57, R377). -/
def linSlotStart (s : State) : State :=
  match s.gw.readyDue s.dram with
  | some d =>
    match d.ev with
    | .linSlot l => s.withGw (s.gw.linSlot l d.t)
    | _ => s
  | none => s

def execLinSlotStart (s : State) : Host.Outcome State Fault Refusal := answer linSlotStart s

/-- The checksum of R374: inverted sum with carry wrap-around. -/
def linChecksum (pid : Nat) (enhanced : Bool) (data : List Byte) : Nat :=
  let add := fun (a b : Nat) => if 255 < a + b then a + b - 255 else a + b
  255 - data.foldl (fun a b => add a b.toNat) (if enhanced then pid else 0)

/-- The model of an identifier: 0x3C and 0x3D are always classic. -/
def LinCtl.enhanced (x : LinCtl) (ident : Nat) : Bool :=
  ident ≠ 0x3C && ident ≠ 0x3D && (mgetD x.frames ident {}).enhanced

/-- The response of a published identifier goes out, its content that of stamp `t`, with its checksum (R370, R374). -/
def Gw.linAnswer (g : Gw) (l ident : Nat) (t : Stamp) : Gw :=
  let r := g.linContent l ident t
  let check := linChecksum (linPid ident) ((g.linAt l).enhanced ident) r.2
  (r.1.setLin l { r.1.linAt l with sending := some (ident, r.2) }).emit (.linResponse l ident r.2 check)

/-- LIN_HEADER_START: the header of the present slot starts at its wire time, with the response of a published
identifier (R378, R370); what a sporadic slot sends is decided there (R379). -/
def Gw.linHeader (g : Gw) (l : Nat) : Gw :=
  let x := g.linAt l
  match x.header with
  | some h =>
    let wire := g.present h.wire h.seg
    if h.started || !g.linLive l || g.linLom l || !g.linCmdr l || g.nowLast < wire then g
    else
      match g.linSends h.slot (g.commitUpTo x.commits x.waits wire).1 wire with
      | none => g.setLin l { x with header := none }
      | some i =>
        let g := (g.setLin l { x with header := some { h with ident := i, started := true } }).emit (.linHeader l (linPid i))
        if (mgetD x.frames i {}).dir = 1 then g.linAnswer l i wire else g
  | none => g

def execLinHeaderStart (l : Nat) (s : State) : Host.Outcome State Fault Refusal :=
  answer (onGw (fun g => g.linHeader l)) s

/-! ### LIN frames and errors (R374–R376, R381, R382) -/

/-- Flag mask and counter of an error by its row in R382. -/
def linErrMask (e : Nat) : Nat := [0, 0x80000000, 0x40000000, 0x20000000, 0x10000000, 0x08000000, 0x04000000].getD e 0
def linErrCnt (e l : Nat) : Nat :=
  [0, Reg.linBitCnt l, Reg.linChkCnt l, Reg.linNorespCnt l, Reg.linFrmCnt l, Reg.linSyncCnt l, Reg.linParCnt l].getD e 0

/-- An error: counted and flagged, or a collision of an event-triggered slot, which brings its resolution table (R379,
R382). [Log 86: DEDUCED] -/
def Gw.linError (g : Gw) (l e : Nat) : Gw :=
  let x := g.linAt l
  let g := g.capItem (32 + l) 2 e g.canNow 0 []
  let et := match x.header with
    | some h => if h.slot.typ = 1 && h.started then some h.slot.resolve else none
    | none => none
  match et with
  | some r =>
    ((g.setLin l { x with resolve := some r, header := none }).bump (Reg.linEtcollCnt l)).flag (Reg.linFlag l) 0x01000000
  | none => ((g.setLin l { x with header := none, sending := none }).bump (linErrCnt e l)).flag (Reg.linFlag l) (linErrMask e)

/-- The error of a frame by its row in R382, 0 for none: sync at a responder, parity and framing of every frame, a bit that
reads back different in a response that the controller publishes, no whole response and a wrong checksum in one that it
takes. -/
def LinCtl.errorOf (x : LinCtl) (cmdr : Bool) (pid check err : Nat) (data : List Byte) : Nat :=
  let ent := mgetD x.frames (pid % 64) {}
  if err = 5 && !cmdr then 5
  else if pid ≠ linPid (pid % 64) then 6
  else if err = 4 then 4
  else if ent.dir = 0 then 0
  else if ent.dir = 1 then (if err = 1 then 1 else 0)
  else if data.length < ent.len then 3
  else if check ≠ linChecksum pid (x.enhanced (pid % 64)) data then 2
  else 0

/-- A protected identifier that ended at `p` belongs to the frame from `sof` to `eof`. -/
def inFrame (p sof eof : Nat) : Bool := cntDiff p sof ≤ cntDiff eof sof

/-- The frame from `sof` to `eof` has had its response given up already (R382). -/
def LinCtl.givenUp (x : LinCtl) (sof eof : Nat) : Bool := x.noResp.any (fun p => inFrame p sof eof)

/-- LIN_FRAME_RECEIVE: a frame on the bus, with protected identifier, data and checksum as received (R375, R376); one whose
response was given up is discarded. -/
def Gw.linReceive (g : Gw) (l sof eof pid : Nat) (data : List Byte) (check err : Nat) : Gw :=
  let sub := (mgetD (g.linAt l).frames (pid % 64) {}).dir = 2
  if !g.linLive l || (sub && (g.linAt l).givenUp sof eof) then g
  else
    let x := if sub then { g.linAt l with lastFrame := some (sof, eof) } else g.linAt l
    let g := if sub then g.setLin l x else g
    let ident := pid % 64
    let ent := mgetD x.frames ident {}
    let data := data.take ent.len
    let e := x.errorOf (g.linCmdr l) pid check err data
    if e ≠ 0 then g.linError l e
    else if ent.dir = 1 then
      match x.sending with
      | some w =>
        if w.1 = ident then
          ((g.setLin l { x with sending := none, header := none }).bump (Reg.linTxOk l)).capItem (32 + l) 1 0 sof ident w.2
        else g
      | none => g
    else if ent.dir = 2 then
      let g := ((g.setLin l { x with header := none }).bump (Reg.linRxOk l)).capItem (32 + l) 0 0 sof ident data
      let lat := bits (g.linCfg l) 15 0
      match stampOf x.pairs lat sof, stampOf x.pairs lat eof with
      | some i, some a =>
        if bit (g.linCfg l) 60 then
          g.deliver { fport := 13, sub := 32 + l, body := .bus { bus := 32 + l, ident := ident, data := data },
                      ing := i.1, ingSeg := i.2, adm := a.1, seg := a.2 }
        else g
      | _, _ => g
    else g

def execLinFrameReceive (l sof eof pid : Nat) (data : List Byte) (check err : Nat) (s : State) :
    Host.Outcome State Fault Refusal :=
  answer (onGw (fun g => g.linReceive l sof eof pid data check err)) s

/-- LIN_RESPONSE: a responder answers the header of a published identifier (R381). [Log 87: DEDUCED] -/
def Gw.linRespond (g : Gw) (l pidEnd pid : Nat) : Gw :=
  let x := g.linAt l
  if !g.linLive l || g.linLom l || g.linCmdr l then g
  else if pid ≠ linPid (pid % 64) then g.linError l 6
  else if (mgetD x.frames (pid % 64) {}).dir ≠ 1 then g
  else
    match stampOf x.pairs (bits (g.linCfg l) 15 0) pidEnd with
    | some a => g.linAnswer l (pid % 64) (g.translate a.1 a.2 g.tb.seg)
    | none => g

def execLinResponse (l pidEnd pid : Nat) (s : State) : Host.Outcome State Fault Refusal :=
  answer (onGw (fun g => g.linRespond l pidEnd pid)) s

/-- Counts of 80 MHz that `n` bit times of a LIN controller last, rounded up. -/
def Gw.linBits (g : Gw) (l n : Nat) : Nat := ceilDiv (n * 80000000) (max 1 (bits (g.linCfg l) 55 40))

/-- LIN_NO_RESPONSE: a subscribed response is not complete within 1.4 × 10 × (N + 1) bit times after the protected
identifier, whose end the controller's counter saw at `pidEnd`, and has not come since (R382). -/
def Gw.linNoResp (g : Gw) (l ident pidEnd : Nat) : Gw :=
  let x := g.linAt l
  let ent := mgetD x.frames ident {}
  if g.linLive l && ent.dir = 2 && g.linBits l (14 * (ent.len + 1)) ≤ cntDiff g.canNow pidEnd &&
      !(x.noResp = some pidEnd) && !x.lastFrame.any (fun q => inFrame pidEnd q.1 q.2) then
    (g.setLin l { x with noResp := some pidEnd }).linError l 3
  else g

def execLinNoResponse (l : Nat) (h : LinWait) (s : State) : Host.Outcome State Fault Refusal :=
  answer (onGw (fun g => g.linNoResp l h.ident h.pidEnd)) s

/-- A table asked for by command (R380, R610): from the next slot start on, or at once when none runs.
[Log 86: DEDUCED] -/
def Gw.linTable (g : Gw) (l table : Nat) (t : Stamp) : Gw :=
  let x := g.linAt l
  if x.running then g.setLin l { x with want := some table }
  else if table = 15 then g
  else g.setLin l { x with running := true, table := table, slot := 0, nextSlot := some t, want := none, resume := [] }

/-! ### FlexRay (R383–R387) -/

/-- [Log 88: DEDUCED] -/
def FlxSlot.hits (s : FlxSlot) (channel slot cycle : Nat) : Bool :=
  s.slot = slot && bit s.channels channel && cycle % (max 1 s.rep) = s.base

/-- FR0 works on a channel: channel A and B by bits 59 and 60 of FLX_CFG (R383, R393). -/
def Gw.flxOn (g : Gw) (channel : Nat) : Bool := g.flxLive && channel < 2 && bit g.flxCfg (59 + channel)

/-- Minislots that a dynamic frame of `n` bytes takes: TSS, FSS, 8 bytes of header and trailer, ten bits for each byte, FES,
then the slot's idle phase. [Log 90: PRESUMED] -/
def FlxCluster.frameMinis (c : FlxCluster) (rate n : Nat) : Nat :=
  ceilDiv ((c.tssBits + 3 + 10 * (8 + n)) * [100, 200, 400].getD rate 100) (max 1 c.minislotNs) + c.idleMinis

/-- The minislot counter of a channel when it comes to a dynamic slot, none once it is past it (R385). -/
def FlxCtl.miniAt (x : FlxCtl) (channel slot : Nat) : Option Nat :=
  let m := mgetD x.mini channel (x.cluster.statics + 1, 0)
  if slot < m.1 then none else some (m.2 + (slot - m.1))

/-- A frame of `n` bytes in a dynamic slot moves the channel's minislot counter on. -/
def FlxCtl.miniFrame (x : FlxCtl) (rate channel slot n : Nat) : FlxCtl :=
  match x.miniAt channel slot with
  | some k => { x with mini := mset x.mini channel (slot + 1, k + x.cluster.frameMinis rate n) }
  | none => x

/-- A frame of `n` bytes in a dynamic slot ends before the segment does (R385). -/
def FlxCtl.fits (x : FlxCtl) (rate channel slot n : Nat) : Bool :=
  (x.miniAt channel slot).any (fun k => k + x.cluster.frameMinis rate n ≤ x.cluster.minislots)

/-- The rate code of FLX_CFG (R393). -/
def Gw.flxRate (g : Gw) : Nat := bits g.flxCfg 58 57

/-- The content of an owned slot: a free value once the bus's content has become undefined. [Log 5: DESIGN CHOICE] -/
def Gw.flxContent (g : Gw) (channel : Nat) (c : Committed) : List Byte × Gw :=
  if bit g.undefBus (44 + channel) then (Config.undefinedBytes g.free c.data.length, g.draw) else (c.data, g)

/-- FLX_ACTION_POINT: FR0 sends a slot it owns with the content committed at or before the action point, a dynamic one
when the frame fits before the segment ends (R385, R386). Its key slot carries a sync frame with SYNC 1, a startup frame with
COLDSTART 1, and is all that a node leading startup sends, as null frames (R383). [Log 89: PRESUMED] -/
def Gw.flxAction (g : Gw) (channel slot cnt : Nat) : Gw :=
  match g.flx.owned.find? (fun s => s.hits channel slot g.flx.cycle), stampOf g.flx.pairs (bits g.flxCfg 15 0) cnt with
  | some sl, some t =>
    let key := g.flx.cluster.keySlot = slot
    let sync := key && bit g.flxCfg 55
    let startup := key && bit g.flxCfg 56
    let leads := g.flx.poc = 4 && g.flx.coldAllowed && startup
    if !g.flxOn channel || g.flxLom || (g.flx.poc ≠ 5 && !leads) then g
    else
      let r := g.commitUpTo g.flx.commits g.flx.waits (g.present t.1 t.2)
      let g := { g with flx := { g.flx with commits := r.1, waits := r.2 } }
      match (if leads then none else g.contentAt r.1 (2048 * channel + slot) (g.present t.1 t.2)) with
      | some c =>
        if sl.dynamic && !g.flx.fits g.flxRate channel slot c.data.length then g
        else
          let q := g.flxContent channel c
          let x := if sl.dynamic then q.2.flx.miniFrame q.2.flxRate channel slot c.data.length else q.2.flx
          ((({ q.2 with flx := x } : Gw).bump Reg.flxTxOk).capItem (44 + channel) 1 0 cnt (slot + g.flx.cycle * 2048) q.1).emit
            (.flxFrame channel slot g.flx.cycle false sync startup q.1)
      | none =>
        if sl.dynamic then g else (g.bump Reg.flxNullTxCnt).emit (.flxFrame channel slot g.flx.cycle true sync startup [])
  | _, _ => g

def execFlxActionPoint (channel slot : Nat) (point : FlxPoint) (s : State) : Host.Outcome State Fault Refusal :=
  answer (onGw (fun g => g.flxAction channel slot point.cnt)) s

/-- FLX_FRAME_RECEIVE: a frame on a channel, delivered once per sub-source (R387); a dynamic one moves the
minislot counter on (R385). [Log 88: DEDUCED] -/
def Gw.flxReceive (g : Gw) (channel sof eof : Nat) (b : BusFrame) (syntaxError : Bool) : Gw :=
  if !g.flxOn channel then g
  else if syntaxError then
    ((g.bump (if channel = 0 then Reg.flxSyntaxCntA else Reg.flxSyntaxCntB)).flag Reg.flxFlag
      (if channel = 0 then 0x20000000 else 0x10000000)).capItem (44 + channel) 2 1 g.canNow 0 []
  else
    let ident := b.ident % 2048 + b.cycle % 64 * 2048
    let b := { b with bus := 44 + channel, ident := ident, cycle := b.cycle % 64 }
    let slot := ident % 2048
    let x := if g.flx.cluster.statics < slot then g.flx.miniFrame g.flxRate channel slot b.data.length else g.flx
    let g := (({ g with flx := x } : Gw).bump (if channel = 0 then Reg.flxRxOkA else Reg.flxRxOkB)).capItem (44 + channel) 0 0 sof ident b.data
    let lat := bits g.flxCfg 15 0
    match stampOf g.flx.pairs lat sof, stampOf g.flx.pairs lat eof with
    | some i, some a =>
      if bit g.flxCfg 61 && g.flx.rxBufs.any (fun s => s.hits channel (ident % 2048) b.cycle) then
        g.deliver { fport := 13, sub := 44 + channel, body := .bus b, ing := i.1, ingSeg := i.2, adm := a.1, seg := a.2 }
      else g
    | _, _ => g

def execFlxFrameReceive (channel sof eof : Nat) (frame : BusFrame) (syntaxError : Bool) (s : State) :
    Host.Outcome State Fault Refusal :=
  answer (onGw (fun g => g.flxReceive channel sof eof frame syntaxError)) s

/-- FLX_CYCLE_END: clock correction and POC transitions at the end of a cycle: startup completes when integrated, a
cycle without clock correction counts towards passive and halt, a pending HALT acts (R391, R392, R611).
[Log 89: PRESUMED] -/
def Gw.flxCycle (g : Gw) (integrated synced limit : Bool) : Gw :=
  let x := g.flx
  if !g.flxLive || x.poc < 4 || x.poc = 7 then g
  else
    let g := if limit then g.flag Reg.flxFlag 0x40000000 else g
    let x := { x with cycle := (x.cycle + 1) % 64, mini := [] }
    if x.haltPending then { g with flx := { x with poc := 7, haltPending := false } }
    else if x.poc = 4 then { g with flx := { x with poc := if integrated then 5 else 4, noCorr := 0 } }
    else if synced then { g with flx := { x with poc := 5, noCorr := 0 } }
    else
      let n := x.noCorr + 1
      let poc := if x.maxFatal ≤ n then 7 else if x.maxPassive ≤ n then 6 else x.poc
      { g with flx := { x with noCorr := n, poc := poc } }.flag Reg.flxFlag 0x80000000

def execFlxCycleEnd (integrated synced limit : Bool) (s : State) : Host.Outcome State Fault Refusal :=
  answer (onGw (fun g => g.flxCycle integrated synced limit)) s

/-- Ticks that FR0's wakeup pattern lasts: symbols of 6 µs active and 18 µs idle (ISO 17458). [Log 89: PRESUMED] -/
def FlxCtl.wakeTicks (x : FlxCtl) : Nat := x.cluster.wakeSymbols * 12000

/-- The wakeup pattern has been sent: FR0 is ready again (R391, R611). [Log 89: PRESUMED] -/
def Gw.flxWakeEnd (g : Gw) : Gw :=
  if g.flx.poc = 3 && g.flx.wakeEnd ≤ g.tb.tick then { g with flx := { g.flx with poc := 2 } } else g

/-- POC follows EN of FLX_CFG in CONFIG: config with it, default config without (R391). [Log 89: PRESUMED] -/
def Gw.flxEnable (g : Gw) : Gw :=
  let on := bit g.flxCfg 63
  if on && g.flx.poc = 0 then { g with flx := { g.flx with poc := 1 } }
  else if !on then { g with flx := { g.flx with poc := 0 } } else g

/-- Configuration ends: FR0 is ready (R391). [Log 89: PRESUMED] -/
def Gw.flxReady (g : Gw) : Gw := if g.flx.poc = 1 then { g with flx := { g.flx with poc := 2 } } else g

/-- FLX_WAKEUP_RECEIVE: a wakeup pattern on a channel sets WAKEUP (R383, R392). -/
def execFlxWakeupReceive (channel : Nat) (s : State) : Host.Outcome State Fault Refusal :=
  answer (onGw (fun g => if g.flxOn channel then g.flag Reg.flxFlag 0x04000000 else g)) s

end Sys2Proof.Machine
end

