-- ==== Sys2Proof/Machine/MlDsa.lean ====
section
/-! DEFINITION. ML-DSA-87 of FIPS 204 (R493, R517, R534): key generation from a seed, deterministic signing and verification,
with an empty context. A polynomial is the list of its 256 coefficients. -/

namespace Sys2Proof.Machine

namespace MlDsa

/-- The modulus, and γ1 and γ2. -/
def q : Int := 8380417
def gamma1 : Int := 524288
def gamma2 : Int := 261888

abbrev Poly := List Int

/-- x^n modulo q, `k` bits of the exponent. -/
def powMod (x : Int) : Nat → Nat → Int
  | 0, _ => 1
  | k + 1, n => let h := powMod (x * x % q) k (n / 2); if n % 2 = 1 then h * x % q else h

/-- Eight bits reversed. -/
def brv8 (n : Nat) : Nat := (List.range 8).foldl (fun a i => 2 * a + n / 2 ^ i % 2) 0

/-- ζ to the power of the reversed number of a node, and its inverse; ζ = 1753 has order 512. -/
def zeta (k : Nat) : Int := powMod 1753 9 (brv8 k)
def zetaInv (k : Nat) : Int := powMod 1753 9 (512 - brv8 k)

def add (a b : Poly) : Poly := (a.zip b).map (fun x => (x.1 + x.2) % q)
def sub (a b : Poly) : Poly := (a.zip b).map (fun x => (x.1 - x.2) % q)
def mul (a b : Poly) : Poly := (a.zip b).map (fun x => x.1 * x.2 % q)
def scale (c : Int) (a : Poly) : Poly := a.map (fun x => c * x % q)

/-- The number theoretic transform below node `k`, `d` levels. -/
def ntt : Nat → Nat → Poly → Poly
  | 0, _, w => w
  | d + 1, k, w =>
    let lo := w.take (2 ^ d)
    let hi := scale (zeta k) (w.drop (2 ^ d))
    ntt d (2 * k) (add lo hi) ++ ntt d (2 * k + 1) (sub lo hi)

/-- Its inverse but for the factor 256. -/
def unNtt : Nat → Nat → Poly → Poly
  | 0, _, w => w
  | d + 1, k, w =>
    let lo := unNtt d (2 * k) (w.take (2 ^ d))
    let hi := unNtt d (2 * k + 1) (w.drop (2 ^ d))
    add lo hi ++ scale (zetaInv k) (sub lo hi)

def toNtt (w : Poly) : Poly := ntt 8 1 (w.map (· % q))
def ofNtt (w : Poly) : Poly := scale 8347681 (unNtt 8 1 w)

/-- A coefficient as the representative of least magnitude, and the largest magnitude of some polynomials. -/
def centred (m x : Int) : Int := let r := x % m; if m / 2 < r then r - m else r
def norm (ps : List Poly) : Nat := (ps.flatMap (List.map (fun x => (centred q x).natAbs))).foldl max 0

/-! ### Packing -/

/-- Values of `b` bits from the bits of a number, `n` of them. -/
def unpackNat (b : Nat) : Nat → Nat → List Nat
  | 0, _ => []
  | n + 1, v => v % 2 ^ b :: unpackNat b n (v / 2 ^ b)

/-- 256 values of `b` bits from bytes, and back. -/
def unpack (b : Nat) (bs : List Byte) : List Nat :=
  (pieces' (b * 32 / 16) 16 bs).flatMap (fun p => unpackNat b 16 (fromLe p))
where
  pieces' (k : Nat) : Nat → List Byte → List (List Byte)
    | 0, _ => []
    | n + 1, l => l.take k :: pieces' k n (l.drop k)

def packNat (b : Nat) (vs : List Nat) : Nat := vs.foldr (fun v a => v % 2 ^ b + 2 ^ b * a) 0

/-- 256 values of `b` bits as bytes, 16 at a time. -/
def pack (b : Nat) (vs : List Nat) : List Byte :=
  (List.range 16).flatMap (fun i => leBytes (2 * b) (packNat b ((vs.drop (16 * i)).take 16)))

/-! ### Sampling -/

/-- Coefficients below q from three bytes each (RejNTTPoly). The stream is cut off at eight blocks. -/
def rejNtt (seed : List Byte) : Poly :=
  let bs := shake128 seed 1344
  let cs := (List.range 448).map (fun i => fromLe (slice bs (3 * i) 3) % 2 ^ 23)
  ((cs.filter (· < 8380417)).take 256).map Int.ofNat

/-- Coefficients from −2 to 2 (RejBoundedPoly). The stream is cut off at four blocks. -/
def rejBounded (seed : List Byte) : Poly :=
  let zs := (shake256 seed 544).flatMap (fun b => [b.toNat % 16, b.toNat / 16])
  ((zs.filter (· < 15)).take 256).map (fun z => 2 - Int.ofNat (z % 5))

/-- The matrix, 8 rows of 7, in the transform's domain. -/
def expandA (rho : List Byte) : List (List Poly) :=
  (List.range 8).map (fun r => (List.range 7).map (fun s => rejNtt (rho ++ [BitVec.ofNat 8 s, BitVec.ofNat 8 r])))

/-- The challenge polynomial: places from the stream after its first 8 bytes, one for each of 60 coefficients. -/
def ballStep : Nat → Nat → Nat → List Byte → Poly → Poly
  | 0, _, _, _, c => c
  | _ + 1, _, _, [], c => c
  | n + 1, i, signs, b :: bs, c =>
    if i ≥ 256 then c
    else if i < b.toNat then ballStep n i signs bs c
    else
      let c := (c.set i (c.getD b.toNat 0)).set b.toNat (if signs % 2 = 1 then -1 else 1)
      ballStep n (i + 1) (signs / 2) bs c

def sampleInBall (seed : List Byte) : Poly :=
  let bs := shake256 seed 680
  ballStep 672 196 (fromLe (bs.take 8)) (bs.drop 8) (List.replicate 256 0)

/-- The masks of a try (ExpandMask). -/
def expandMask (seed : List Byte) (kappa : Nat) : List Poly :=
  (List.range 7).map (fun r =>
    (unpack 20 (shake256 (seed ++ leBytes 2 (kappa + r)) 640)).map (fun z => gamma1 - Int.ofNat z))

/-! ### Rounding and hints -/

/-- High and low part of a coefficient (Decompose). -/
def decompose (r : Int) : Int × Int :=
  let p := r % q
  let r0 := centred (2 * gamma2) p
  if p - r0 = q - 1 then (0, r0 - 1) else ((p - r0) / (2 * gamma2), r0)

def highBits (w : Poly) : Poly := w.map (fun r => (decompose r).1)
def lowBits (w : Poly) : Poly := w.map (fun r => (decompose r).2)

def useHint (h : Bool) (r : Int) : Int :=
  let d := decompose r
  if !h then d.1 else if 0 < d.2 then (d.1 + 1) % 16 else (d.1 - 1) % 16

/-- High part t1 and low part t0 of a coefficient (Power2Round). -/
def power2Round (r : Int) : Int × Int :=
  let r0 := centred 8192 (r % q)
  ((r % q - r0) / 8192, r0)

/-- Hints as 83 bytes: the places of each polynomial in turn, then where each ends. -/
def packHints (hs : List (List Bool)) : List Byte :=
  let places := hs.map (fun h => (List.range 256).filter (fun i => h.getD i false))
  let ends := (List.range 8).map (fun i => ((places.take (i + 1)).map List.length).sum)
  padTo 75 ((places.flatMap id).map (BitVec.ofNat 8)) ++ ends.map (BitVec.ofNat 8)

/-- Places that rise. -/
def rising : List Nat → Bool
  | a :: b :: r => decide (a < b) && rising (b :: r)
  | _ => true

/-- Hints from 83 bytes, where they are well formed (HintBitUnpack). -/
def unpackHints (bs : List Byte) : Option (List (List Bool)) :=
  let ns := bs.map BitVec.toNat
  let ends := ns.drop 75
  let starts := 0 :: ends
  let part := fun (i : Nat) => (ns.drop (starts.getD i 0)).take (ends.getD i 0 - starts.getD i 0)
  if (List.range 8).all (fun i => starts.getD i 0 ≤ ends.getD i 0 && ends.getD i 0 ≤ 75 && rising (part i)) &&
      ((ns.take 75).drop (ends.getD 7 0)).all (· = 0) then
    some ((List.range 8).map (fun i => (List.range 256).map (fun j => (part i).contains j)))
  else none

/-- The high parts of w as bytes (w1Encode). -/
def encodeW1 (w : List Poly) : List Byte := w.flatMap (fun p => pack 4 (p.map Int.toNat))

/-! ### Keys, signing, verification -/

/-- The product of the matrix and a vector, both in the transform's domain. -/
def matMul (a : List (List Poly)) (v : List Poly) : List Poly :=
  a.map (fun row => ((row.zip v).map (fun x => mul x.1 x.2)).foldl add (List.replicate 256 0))

/-- What key generation gives: ρ, K, the secret vectors and t. -/
structure Keys where
  rho : List Byte
  key : List Byte
  s1 : List Poly
  s2 : List Poly
  t : List Poly

def keyGen (seed : List Byte) : Keys :=
  let h := shake256 (seed ++ [8, 7]) 128
  let rho := h.take 32
  let vec := fun (n off : Nat) => (List.range n).map (fun r => rejBounded (slice h 32 64 ++ leBytes 2 (off + r)))
  let s1 := vec 7 0
  let s2 := vec 8 7
  let t := (((matMul (expandA rho) (s1.map toNtt)).map ofNtt).zip s2).map (fun x => add x.1 x.2)
  { rho := rho, key := h.drop 96, s1 := s1, s2 := s2, t := t }

/-- The public key, 2,592 bytes. -/
def Keys.public (k : Keys) : List Byte :=
  k.rho ++ k.t.flatMap (fun p => pack 10 (p.map (fun r => (power2Round r).1.toNat)))

/-- The message with an empty context. -/
def framed (msg : List Byte) : List Byte := [0, 0] ++ msg

/-- One try of signing from a mask: challenge, response and hints where the bounds hold. -/
def signTry (k : Keys) (a : List (List Poly)) (mu mask : List Byte) (kappa : Nat) : Option (List Byte) :=
  let y := expandMask mask kappa
  let w := (matMul a (y.map toNtt)).map ofNtt
  let c' := shake256 (mu ++ encodeW1 (w.map highBits)) 64
  let c := toNtt (sampleInBall c')
  let times := fun (v : List Poly) => v.map (fun p => ofNtt (mul c (toNtt p)))
  let z := (y.zip (times k.s1)).map (fun x => add x.1 x.2)
  let r := (w.zip (times k.s2)).map (fun x => sub x.1 x.2)
  let t0 := times (k.t.map (List.map (fun x => (power2Round x).2)))
  let hs := (r.zip t0).map (fun x => (x.1.zip x.2).map (fun e =>
    (decompose e.1).1 != (decompose (e.1 + e.2)).1))
  if 524168 ≤ norm z || 261768 ≤ norm (r.map lowBits) || 261888 ≤ norm t0 ||
      75 < ((hs.flatMap id).filter id).length then none
  else some (c' ++ z.flatMap (fun p => pack 20 (p.map (fun e => (gamma1 - centred q e).toNat))) ++ packHints hs)

/-- Tries with rising counters until one holds, `n` at most. -/
def signLoop (k : Keys) (a : List (List Poly)) (mu mask : List Byte) : Nat → Nat → List Byte
  | 0, _ => []
  | n + 1, kappa =>
    match signTry k a mu mask kappa with
    | some s => s
    | none => signLoop k a mu mask n (kappa + 7)

end MlDsa

/-- The public key of a seed (FIPS 204, key generation). [Log 12: PRESUMED] -/
def mldsaPublic (seed : List Byte) : List Byte := (MlDsa.keyGen seed).public

/-- The signature of a message under the key of a seed, in the deterministic variant of FIPS 204. [Log 12: PRESUMED] -/
def mldsaSign (seed msg : List Byte) : List Byte :=
  let k := MlDsa.keyGen seed
  let mu := shake256 (shake256 k.public 64 ++ MlDsa.framed msg) 64
  let mask := shake256 (k.key ++ List.replicate 32 0 ++ mu) 64
  MlDsa.signLoop k (MlDsa.expandA k.rho) mu mask 1000 0

/-- A signature of 4,627 bytes of a message under a public key of 2,592 bytes holds (FIPS 204). [Log 12: PRESUMED] -/
def mldsaVerify (msg sig pub : List Byte) : Bool :=
  match MlDsa.unpackHints (slice sig 4544 83) with
  | none => false
  | some hs =>
    let z := (List.range 7).map (fun i =>
      (MlDsa.unpack 20 (slice sig (64 + 640 * i) 640)).map (fun e => MlDsa.gamma1 - Int.ofNat e))
    let t1 := (List.range 8).map (fun i => (MlDsa.unpack 10 (slice pub (32 + 320 * i) 320)).map (fun e => Int.ofNat e * 8192))
    let c := MlDsa.toNtt (MlDsa.sampleInBall (sig.take 64))
    let az := MlDsa.matMul (MlDsa.expandA (pub.take 32)) (z.map MlDsa.toNtt)
    let w := (az.zip t1).map (fun x => MlDsa.ofNtt (MlDsa.sub x.1 (MlDsa.mul c (MlDsa.toNtt x.2))))
    let w1 := (w.zip hs).map (fun x => (x.1.zip x.2).map (fun e => MlDsa.useHint e.2 e.1))
    let mu := shake256 (shake256 pub 64 ++ MlDsa.framed msg) 64
    MlDsa.norm z < 524168 && sig.length = 4627 && pub.length = 2592 &&
      shake256 (mu ++ MlDsa.encodeW1 w1) 64 = sig.take 64

end Sys2Proof.Machine
end

