-- ==== Sys2Proof/Machine/Crypto.lean ====
section
/-! DEFINITION. The CRY island's work: request queues, dispatch and completions (R493, R494, R513–R523), sealed CAN
frames in both directions (R330, R526–R532), and the commands CRY_Q_TAIL_WRITE, CRY_Q_EN_CLEAR, CRY_REQUEST_FETCH,
CRY_REQUEST_COMPLETE, SEAL_VERIFY, FV_RX_JOURNAL_TIMER, JOURNAL_RECORD_COMMIT, and the commands that change keys:
KEY_PROVISION, KEY_DERIVE, KEY_REVOKE, KEY_PRIV_GO and TAMPER_LOOP_OPEN. -/

namespace Sys2Proof.Machine

/-! ### Queues (R513–R516, R537) -/

def Gw.setCryHead (g : Gw) (q v : Nat) : Gw :=
  if q < 12 then g.setRegN (Reg.cryQHead q) v else g.setCry q { g.cryAt q with head := v }

/-- Entries that the completion ring holds or will hold: written and unread, and in flight. -/
def Gw.cryPending (g : Gw) (q : Nat) : Nat :=
  (if q < 12 then (g.regN (Reg.cryQCtail q) + 256 - g.regN (Reg.cryQChead q) % 256) % 256 else 0) + (g.cryAt q).jobs.length

/-- The descriptor's fields (R516). -/
def parseReq (d src aux : List Byte) : CryJob :=
  let le := fun (o n : Nat) => fromLe (slice d o n)
  { op := le 0 1, flags := le 1 1, slot := le 2 2 % 4096, tag := le 4 2, gen := le 6 2, srcAddr := le 8 8,
    dstAddr := le 16 8, srcLen := le 24 4, aadLen := le 28 4, dstLen := le 32 4, iv := slice d 36 16, tagLen := le 52 1,
    rsv := le 53 1, outSlot := le 54 2, src := src, aux := aux }

/-- Bytes the operation writes to DST. -/
def CryJob.outLen (j : CryJob) : Nat :=
  match j.op with
  | 0x01 => j.srcLen - j.aadLen + j.tagLen
  | 0x02 => j.srcLen - j.aadLen - j.tagLen
  | 0x03 => j.tagLen
  | 0x05 => j.srcLen
  | 0x06 => j.srcLen + 8
  | 0x07 => if j.outSlot = 0xFFFF then j.srcLen - 8 else 0
  | 0x10 => 32
  | 0x11 => 64
  | 0x12 => j.dstLen
  | 0x20 => j.dstLen
  | _ => 0

/-- The lengths and the operation are those R516 and R517 give. [Log 111: DEDUCED] -/
def CryJob.wellFormed (j : CryJob) : Bool :=
  let gcm := 12 ≤ j.tagLen && j.tagLen ≤ 16 && j.aadLen ≤ j.srcLen
  let cmac := 4 ≤ j.tagLen && j.tagLen ≤ 16
  let ok := match j.op with
    | 0x01 => gcm
    | 0x02 => gcm && j.aadLen + j.tagLen ≤ j.srcLen
    | 0x03 => cmac
    | 0x04 => cmac && j.tagLen ≤ j.srcLen
    | 0x05 => true
    | 0x06 => 16 ≤ j.srcLen && j.srcLen ≤ 64 && j.srcLen % 8 = 0
    | 0x07 => 24 ≤ j.srcLen && j.srcLen ≤ 72 && j.srcLen % 8 = 0
    | 0x10 => true
    | 0x11 => true
    | 0x12 => true
    | 0x13 => true
    | 0x20 => true
    | _ => false
  ok && j.srcLen ≤ 16777216 && j.outLen ≤ j.dstLen && j.flags < 4 && j.rsv = 0

/-- The attribute allows the operation (R502, R519). [Log 111: DEDUCED] -/
def CryJob.attrOk (j : CryJob) (attr : Nat) : Bool :=
  match j.op with
  | 0x01 => attr = 0
  | 0x02 => attr = 1
  | 0x03 => attr = 0
  | 0x04 => attr = 1
  | 0x05 => attr = 0 || attr = 1
  | 0x06 => attr = 2
  | 0x07 => attr = 2
  | 0x12 => attr = 0
  | _ => true

/-- Source and destination overlap other than by being equal (R520). -/
def CryJob.overlaps (j : CryJob) : Bool :=
  let n := j.outLen
  0 < n && 0 < j.srcLen && j.srcAddr < j.dstAddr + n && j.dstAddr < j.srcAddr + j.srcLen &&
    !(j.srcAddr = j.dstAddr && j.srcLen = n)

/-! ### Dispatch (R494, R506, R509) -/

/-- 0 AES core, 1 hash engine, 2 TRNG. -/
def CryJob.engine (j : CryJob) : Nat := if j.op ≤ 7 then 0 else if j.op ≤ 0x13 then 1 else 2

/-- Set bits of a mask below `n`. -/
def countBits (n v : Nat) : Nat := (bitList n v).length

/-- Engines of a kind that are in service, and how many are at work. -/
def Gw.engines (g : Gw) (k : Nat) : Nat :=
  if k = 0 then countBits 8 (bits g.cryUp 7 0) else if k = 1 then countBits 2 (bits g.cryUp 9 8) else 1
def Gw.enginesBusy (g : Gw) (k : Nat) : Nat :=
  (g.cryQ.map (fun q => (q.2.jobs.filter (fun j => j.dispatched && j.status.isNone && j.engine = k)).length)).sum

/-- The derived-key cache meets a slot (R506). [Log 111: DEDUCED, 113: DEDUCED] -/
def Gw.cacheKey (g : Gw) (slot : Nat) : Gw :=
  if slot < 64 then g
  else
    let hit := g.cryCache.contains slot
    let g := { g with cryCache := (slot :: g.cryCache.filter (fun i => i != slot)).take 1024 }
    if hit then g else g.bump Reg.cryCacheMissCnt

/-- The status with which a request ends when an engine would take it, none where it runs. Only a privileged slot takes an
unwrapped value (R500, R501). [Log 111: DEDUCED] -/
def Gw.dispatchStatus (g : Gw) (host : Bool) (j : CryJob) : Option Nat :=
  let k := g.keys.at' j.slot
  let named := host && j.outSlot ≠ 0xFFFF
  if !j.wellFormed then some 5
  else if !j.keyed then (if named then some 3 else if j.op = 0x20 && (!g.trngOk || g.flt.trng) then some 6 else none)
  else if k.state = 0 then some 2
  else if k.state = 2 || (bit j.flags 1 && j.gen ≠ k.gen) then some 4
  else if !j.attrOk k.attr || (host && !k.hostUse) || named then some 3
  else if j.op = 0x07 && 64 ≤ j.outSlot && j.outSlot ≠ 0xFFFF then some 5
  else if (g.keys.keyOf j.slot).isNone then some 2
  else none

/-- A request as an engine takes it: checked, and with the key it goes on with. [Log 111: DEDUCED] -/
def Gw.dispatchJob (g : Gw) (host : Bool) (j : CryJob) : Gw × CryJob :=
  match g.dispatchStatus host j with
  | some st => (g, { g.ended j st with dispatched := true })
  | none =>
    if j.keyed then
      (g.cacheKey j.slot, { j with dispatched := true, usedGen := (g.keys.at' j.slot).gen, key := (g.keys.keyOf j.slot).getD [] })
    else (g, { j with dispatched := true })

/-- The first request of a queue that waits for an engine which is free. [Log 112: DEDUCED] -/
def Gw.nextJob (g : Gw) (q : Nat) : Option (Nat × CryJob) :=
  match ((g.cryAt q).jobs.zipIdx).find? (fun j => !j.1.dispatched && j.1.status.isNone) with
  | some (j, i) => if g.enginesBusy j.engine < g.engines j.engine then some (i, j) else none
  | none => none

/-- The queue served next: firmware queues in ascending number, then host queues by the share served (R494).
[Log 112: DEDUCED] -/
def Gw.nextQueue (g : Gw) : Option Nat :=
  match [12, 13, 14, 15].find? (fun q => (g.nextJob q).isSome) with
  | some q => some q
  | none =>
    leastBy (fun a b => (g.cryAt a).served < (g.cryAt b).served) ((List.range 12).filter (fun q => (g.nextJob q).isSome))

/-- [Log 112: DEDUCED] -/
def Gw.dispatchAll (g : Gw) : Nat → Gw
  | 0 => g
  | n + 1 =>
    match g.nextQueue with
    | none => g
    | some q =>
      match g.nextJob q with
      | none => g
      | some (i, j) =>
        let r := g.dispatchJob (q < 12) j
        let w := max 1 (bits (r.1.regN (Reg.cryQCtl q)) 11 8)
        let x := r.1.cryAt q
        (r.1.setCry q { x with jobs := x.jobs.set i r.2, served := x.served + 65536 / w }).dispatchAll n

/-! ### Results (R517, R520) -/

/-- Status and output of a dispatched request. [Log 111: DEDUCED] -/
def CryJob.run (j : CryJob) (free : Nat) : Nat × List Byte :=
  let aad := j.src.take j.aadLen
  let body := j.src.drop j.aadLen
  let iv12 := j.iv.take 12
  let r : Nat × List Byte := match j.op with
    | 0x01 =>
      let c := gcmCrypt j.key iv12 body
      (0, c ++ (gcmTag j.key iv12 aad c).take j.tagLen)
    | 0x02 =>
      let c := body.take (body.length - j.tagLen)
      if (gcmTag j.key iv12 aad c).take j.tagLen = body.drop (body.length - j.tagLen) then
        (0, gcmCrypt j.key iv12 c) else (1, [])
    | 0x03 => (0, (aesCmac j.key j.src).take j.tagLen)
    | 0x04 =>
      let m := j.src.take (j.src.length - j.tagLen)
      if (aesCmac j.key m).take j.tagLen = j.src.drop (j.src.length - j.tagLen) then (0, []) else (1, [])
    | 0x05 => (0, aesCtr j.key j.iv j.src)
    | 0x06 => (0, keyWrap j.key j.src)
    | 0x07 => match keyUnwrap j.key j.src with
      | some v => (0, v)
      | none => (1, [])
    | 0x10 => (0, sha3x256 j.src)
    | 0x11 => (0, sha3x512 j.src)
    | 0x12 => (0, kmac256 j.key j.src j.dstLen [])
    | 0x13 =>
      if mldsaVerify (sha3x512 j.src) (j.aux.take 4627) (slice j.aux 4627 2592) then (0, []) else (1, [])
    | _ => (0, Config.random free j.dstLen)
  if j.overlaps && r.1 = 0 then (0, Config.undefinedBytes free j.outLen) else r

/-- The completion entry (R518). [Log 114: DEDUCED] -/
def CryJob.entry (j : CryJob) (st : Nat) : List Byte :=
  leBytes 2 j.tag ++ leBytes 1 st ++ leBytes 1 j.op ++ leBytes 4 j.output.length ++ leBytes 2 j.usedGen ++
    List.replicate 6 0

/-- The last `n` of a list. -/
def lastOf {α : Type} (n : Nat) (l : List α) : List α := l.drop (l.length - n)

/-- Completions at the front of a queue are written in request order (R514). A firmware queue's ring holds its latest 256
entries, which the firmware reads as they come. [Log 187: DEDUCED] -/
def Gw.writeDone (g : Gw) (q : Nat) : Nat → Gw
  | 0 => g
  | n + 1 =>
    let x := g.cryAt q
    match x.jobs with
    | j :: r =>
      match j.status with
      | some st =>
        if q < 12 then
          let pos := g.regN (Reg.cryQCtail q) % 256
          let base := g.regN (Reg.cryQCbaseLo q) / 16 * 16 + 4294967296 * g.regN (Reg.cryQCbaseHi q)
          let irq := x.irqDone.filter (fun i => i != pos)
          let g := g.setCry q { x with jobs := r, irqDone := if bit j.flags 0 then irq ++ [pos] else irq }
          let g := if j.output.isEmpty then g else g.emit (.hostWrite j.dstAddr j.output)
          ((g.emit (.hostWrite (base + 16 * pos) (j.entry st))).setRegN (Reg.cryQCtail q) ((pos + 1) % 256)).writeDone q n
        else (g.setCry q { x with jobs := r, results := lastOf 256 (x.results ++ [(j.entry st, j.output)]) }).writeDone q n
      | none => g
    | [] => g

/-- What every change of the queues is followed by: free engines take work, completions are written. -/
def Gw.cryTurn (g : Gw) (q : Nat) : Gw := (g.dispatchAll 64).writeDone q 256

/-- The result of a request (R520, R522, R523): `bad` names the core whose check failed. [Log 114: DEDUCED] -/
def Gw.finishJob (g : Gw) (q k : Nat) (bad : Option Nat) (dmaErr : Bool) : Gw :=
  let x := g.cryAt q
  match x.jobs[k]? with
  | some j =>
    if !j.dispatched || j.status.isSome then g
    else
      let put := fun (g : Gw) (j : CryJob) => g.setCry q { g.cryAt q with jobs := (g.cryAt q).jobs.set k j }
      match bad with
      | some core =>
        (put g { j with status := some 6 }).checkFailed core
      | none =>
        if j.op = 0x20 && (!g.trngOk || g.flt.trng) then put g { j with status := some 6 }
        else if dmaErr then
          let g := put g { j with status := some 7 }
          if q < 12 then g.flag (Reg.cryQStat q) 0x40000000 else g
        else
          let r := j.run g.free
          let g := g.draw
          if j.op = 0x07 && j.outSlot ≠ 0xFFFF && r.1 = 0 then
            let k := g.keys.at' j.outSlot
            let k' := { k with state := 1, len256 := 16 < r.2.length, value := r.2 }
            put { g with keys := (g.keys.set j.outSlot k').bumpGen j.outSlot } { j with status := some 0 }
          else put g { j with status := some r.1, output := r.2 }
  | none => g

/-- The CRY island can take queue work. -/
def Gw.cryLive (g : Gw) : Bool := g.islOn 11

/-- A request that stood in its ring when a slot it names, or an ancestor of it, was invalidated (R508). -/
def CryQueue.revoked (x : CryQueue) (j : CryJob) : Bool := j.keyed && x.stale.any (fun y => y.2.contains j.slot)

/-- The marks of R508 once one more request has left the ring. -/
def CryQueue.fetched (x : CryQueue) : List (Nat × List Nat) :=
  (x.stale.filter (fun y => 1 < y.1)).map (fun y => (y.1 - 1, y.2))

/-- CRY_REQUEST_FETCH: the request at HEAD of an enabled queue, while its completion ring has room (R513, R514). -/
def Gw.cryFetch (g : Gw) (q : Nat) (desc src aux : List Byte) : Gw :=
  if 16 ≤ q || !(g.cryLive || g.islFenced 11) || !g.cryEn q || g.cryHead q = g.cryTail q then g
  else if 255 ≤ g.cryPending q then (if q < 12 then g.flag (Reg.cryQStat q) 0x80000000 else g)
  else
    let x := g.cryAt q
    let j := parseReq desc src aux
    let gone := x.revoked j
    let j := if g.islFenced 11 then g.ended j 6 else if gone then g.ended j 4 else j
    let g := if gone && !g.islFenced 11 then g.bump Reg.cryRevFailCnt else g
    let g := (g.setCry q { x with jobs := x.jobs ++ [j], stale := x.fetched }).setCryHead q ((g.cryHead q + 1) % 256)
    g.cryTurn q

def execCryRequestFetch (q : Nat) (desc src aux : List Byte) (s : State) : Host.Outcome State Fault Refusal :=
  answer (onGw (fun g => g.cryFetch q desc src aux)) s

def execCryRequestComplete (q k : Nat) (bad : Option Nat) (dmaErr : Bool) (s : State) :
    Host.Outcome State Fault Refusal :=
  answer (onGw (fun g => if g.cryLive then (g.finishJob q k bad dmaErr).cryTurn q else g)) s

/-- CRY_Q_TAIL_WRITE: the tail advances; requests are then fetched (R514). -/
def execCryQTailWrite (q : Nat) (value : W32) (s : State) : Host.Outcome State Fault Refusal :=
  answer (onGw (fun g =>
    if q < 12 then (if g.islOn 11 then g.setRegN (Reg.cryQTail q) (value.toNat % 256) else g)
    else if q < 16 then g.setCry q { g.cryAt q with tail := value.toNat % 256, en := true } else g)) s

/-- EN 0: requests not dispatched complete with FLUSHED (R515). -/
def Gw.cryFlush (g : Gw) (q : Nat) : Gw :=
  let x := g.cryAt q
  let g := if q < 12 then g.setRegN (Reg.cryQCtl q) (setBits (g.regN (Reg.cryQCtl q)) 31 31 0) else g
  let flush := fun (j : CryJob) => if !j.dispatched && j.status.isNone then g.ended j 8 else j
  (g.setCry q { x with en := false, jobs := x.jobs.map flush }).writeDone q 256

def execCryQEnClear (q : Nat) (s : State) : Host.Outcome State Fault Refusal :=
  answer (onGw (fun g => if q < 16 && g.islOn 11 then g.cryFlush q else g)) s

/-- Completions of every queue that can be written, as after an invalidation (R508, R514). -/
def Gw.writeAll (g : Gw) : Gw := (List.range 16).foldl (fun g q => g.writeDone q 256) g

/-- A key command at its stamp, with the completions of the requests that it ends. -/
def keyChange (m : Nat) (g : Gw) : Gw × Answer :=
  let r := g.keyEffect m
  if r.2.status = stOk then (r.1.writeAll, r.2) else r

/-- A key command that a request in RUN gave, at its stamp `t`: the slots it replaces are kept for frames before it (R511),
and the record of one that is refused now is void. -/
def keyChangeAt (m : Nat) (t : Stamp) (g : Gw) : Gw × Answer :=
  let r := keyChange m g
  if r.2.status = stOk then
    let was := (g.keys.family (g.keyTarget m)).map (fun i => (i, g.keys.at' i))
    ({ r.1 with keys := { r.1.keys with past := (g.str.relSeg, t, was) :: r.1.keys.past } }, r.2)
  else (r.1.voidRecord (g.keyRecord m), r.2)

/-! ### Key commands in mailboxes -/

/-- KEY_PROVISION, KEY_DERIVE and KEY_REVOKE (R510): a change no earlier than 100 µs from now, its record journaled when
accepted; refused at once where it would fail at its stamp; in CONFIG at once. [Log 110: DEDUCED] -/
def keyRow (code m : Nat) (s : State) : State :=
  let g := s.gw
  if !g.holds m code then s
  else if code = 0x0A01 ∧ g.fw.presence = false then s.withGw (g.reply m stPresence 0 [])
  else if g.serving then
    let soon := max g.soonest (g.now + 800000)
    let req : Stamp := Int.ofNat (g.reqApply m)
    if req ≠ 0 ∧ req < soon then s.withGw (g.reply m stBadArg soon [])
    else
      let t := if req = 0 then soon else req
      let st := g.keyStatus m (g.keysAt g.tb.seg t)
      if st ≠ stOk then s.withGw (g.reply m st 0 [])
      else
        let c : Change := { t := t, rank := m, seq := g.str.accepted, act := .mailbox m, seg := g.tb.seg }
        let g := g.journal (some c.seq) (g.keyRecord m)
        s.withGw { (g.setMbx m { g.mbxAt m with taken := false }) with
          str := { g.str with changes := g.str.changes ++ [c], accepted := g.str.accepted + 1 } }
  else
    let r := keyChange m g
    let g' := if r.2.status = stOk then { r.1 with keys := { r.1.keys with journal := r.1.keys.journal ++ [g.keyRecord m] } }
      else r.1
    s.withGw (g'.finish m 0 r.2)

def execKeyProvision (m : Nat) (s : State) : Host.Outcome State Fault Refusal := answer (keyRow 0x0A01 m) s
def execKeyDerive (m : Nat) (s : State) : Host.Outcome State Fault Refusal := answer (keyRow 0x0A02 m) s
def execKeyRevoke (m : Nat) (s : State) : Host.Outcome State Fault Refusal := answer (keyRow 0x0A03 m) s

/-! ### KEY_PRIV_GO, TAMPER_LOOP_OPEN -/

/-- KEY_PRIV_GO: a write of GO that the firmware makes (R500, R543). -/
def execKeyPrivGo (ctl : W32) (data : List Byte) (s : State) : Host.Outcome State Fault Refusal :=
  answer (onGw (fun g => if g.privTakes ctl.toNat data then (g.privGo (bits ctl.toNat 5 0) (privSlot ctl.toNat data)).writeAll else g)) s

/-- TAMPER_LOOP_OPEN: the keys are gone (R536), and the completions of the requests this ends are written.
[Log 114: DEDUCED] -/
def execTamperLoopOpen (vaonOk : Bool) (s : State) : Host.Outcome State Fault Refusal :=
  answer (onGw (fun g => (g.tamper vaonOk).writeAll)) s

/-! ### Sealed CAN frames (R526–R532) -/

/-- FV bytes and MAC bytes of the trailer (R527). -/
def Entry.fvBytes (e : Entry) : Nat := e.f 3 63 62 + 1
def Entry.macBytes (e : Entry) : Nat := e.f 3 61 59 + 3

/-- The message of R527. -/
def sealMessage (ident : Nat) (payload : List Byte) (fv : Nat) : List Byte :=
  beBytes 4 ident ++ beBytes 2 payload.length ++ payload ++ beBytes 8 fv

/-- The candidate freshness value (R528). [Log 116: DEDUCED] -/
def candidateFv (arr f v : Nat) : Nat :=
  let m := 2 ^ (8 * f)
  if arr % m < v then arr / m * m + v else (arr / m + 1) * m + v

/-- The key of a sealing entry at a stamp of a segment: VALID with the given attribute. [Log 115: DEDUCED] -/
def Gw.sealKey (g : Gw) (e : Entry) (attr seg : Nat) (a : Stamp) : Option (List Byte) :=
  let ks := g.keysAt seg a
  let k := ks.at' (e.f 3 11 0)
  if k.state = 1 && k.attr = attr && g.islOn 11 then ks.keyOf (e.f 3 11 0) else none

/-- Verification of a sealed frame against entry `i` with FV_arr: the candidate when it passes (R528).
[Log 115: DEDUCED] -/
def Gw.sealCheck (g : Gw) (e : Entry) (arr : Nat) (b : BusFrame) (seg : Nat) (a : Stamp) : Option Nat :=
  let f := e.fvBytes
  let m := e.macBytes
  if b.data.length < f + m then none
  else
    let n := b.data.length - f - m
    let cand := candidateFv arr f (fromBe (slice b.data n f))
    match g.sealKey e 1 seg a with
    | some key =>
      if (aesCmac key (sealMessage b.ident (b.data.take n) cand)).take m = b.data.drop (n + f) then some cand else none
    | none => none

/-- SEAL_VERIFY: the verification of the oldest held frame ends, and frames behind it that need none follow (R330,
R45). `bad`: the check of R522 failed (R523). -/
def Gw.sealVerify (g : Gw) (c : Nat) (bad : Bool) : Gw :=
  let x := g.canAt c
  match x.held with
  | h :: r =>
    if h.wait then g else
    let g := g.setCan c { x with held := r }
    let g :=
      if bad then g.checkFailed 0
      else
        match h.verify with
        | some (i, e) =>
          match g.sealCheck e (mgetD x.fvArr i e.w4.toNat) h.frame h.seg h.adm with
          | some cand =>
            let g := g.setCan c { g.canAt c with fvArr := mset x.fvArr i cand }
            g.canAccept c { h with frame := { h.frame with sealedOk := true } } (some (cand, i))
          | none => (g.bump (Reg.canSealFailCnt c)).canFlag c 23
        | none => g.canAccept c h none
    g.canFlushHeld c (g.canAt c).held.length
  | [] => g

def execSealVerify (c : Nat) (bad : Bool) (s : State) : Host.Outcome State Fault Refusal :=
  answer (onGw (fun g => g.sealVerify c bad)) s

/-- A valid data length of a format. [Log 115: DEDUCED] -/
def validDlen (b : BusFrame) (n : Nat) : Bool :=
  if b.xlf then 1 ≤ n && n ≤ 2048
  else if b.fdf then n ≤ 8 || [12, 16, 20, 24, 32, 48, 64].contains n else n ≤ 8

/-- The reservation of a KIND 3 entry is renewed past half of it (R531). -/
def Gw.renewFv (g : Gw) (i : Nat) (e : Entry) : Gw :=
  let res := mgetD g.fvRes i 0
  let step := g.param Par.keyFvReserve
  let key := e.key 3
  let asked := g.keys.pending.any (fun r => match r.2 with
    | .freshTx k _ => k = key
    | _ => false)
  if res - step / 2 < mgetD g.fvTx i 0 && !asked then g.journal none (.freshTx key (res + step)) else g

/-- The sealer between F13 egress and the GTQ (R511, R530, R531): the frame as it goes on, or its discard. A frame
unpacked from a tunnel is sent as received (R224). `bad`: the check of R522 fails, and the frame is discarded (R523).
[Log 75: DEDUCED, 115: DEDUCED, 180: DEDUCED] -/
def Gw.sealOut (g : Gw) (x : Frame) (b : BusFrame) (bad : Bool) : Gw × Option BusFrame :=
  if 31 < b.bus || (x.fport ≠ 13 && x.fport ≠ 19 && x.fport ≠ 20) then (g, some b)
  else
    match g.find 6 (t3Key 3 b.bus b.ident) with
    | none => (g, some b)
    | some (i, e) =>
      let n := b.data.length + e.fvBytes + e.macBytes
      match g.sealKey e 0 x.ingSeg x.ing with
      | none => (g.bump Reg.crySealRevCnt, none)
      | some key =>
        let fv := mgetD g.fvTx i e.w4.toNat
        if !validDlen b n then (g.bump Reg.crySealRevCnt, none)
        else if mgetD g.fvRes i 0 ≤ fv then
          ((((g.bump Reg.crySealHoldCnt).flag Reg.cryFlag 0x08000000).canUndef b.bus), none)
        else
          let mac := (aesCmac key (sealMessage b.ident b.data fv)).take e.macBytes
          let g := ({ g with fvTx := mset g.fvTx i (fv + 1) } : Gw).renewFv i e
          if bad then (g.checkFailed 0, none)
          else (g, some { b with data := b.data ++ beBytes e.fvBytes (fv % 2 ^ (8 * e.fvBytes)) ++ mac })

/-- The sealing entries of a kind, with their indices. -/
def Gw.sealEntries (g : Gw) (kind : Nat) : List (Nat × Entry) :=
  g.cat.slots.filter (fun ie => (g.partOf [6] ie.1).isSome && bits ie.2.w1.toNat 1 0 = kind)

/-- FV_RX_JOURNAL_TIMER: every KEY_JRNL_RX_S seconds every FV_last that has changed is journaled (R532). -/
def Gw.journalRx (g : Gw) : Gw :=
  (g.sealEntries 2).foldl (fun g ie =>
    let v := mgetD g.fvLast ie.1 ie.2.w4.toNat
    if v = mgetD g.fvJrnl ie.1 ie.2.w4.toNat then g
    else ({ g with fvJrnl := mset g.fvJrnl ie.1 v } : Gw).journal none (.freshRx (ie.2.key 3) v)) g

def execFvRxJournalTimer (s : State) : Host.Outcome State Fault Refusal :=
  answer (onGw (fun g =>
    if g.fw.running && g.inService then
      g.every timerJournal (1000 * ticksPerMs * g.param Par.keyJrnlRxS) Gw.journalRx
    else g)) s

/-- The index of the T3 entry with a key. -/
def Gw.sealIndex (g : Gw) (key : Nat) : Option Nat := (g.find 6 key).map (·.1)

def execJournalRecordCommit (s : State) : Host.Outcome State Fault Refusal :=
  answer (onGw (fun g => g.commitRecord g.sealIndex)) s

/-- The freshness state of a T3 entry of KIND 2 or 3 as it starts (R532): the larger of FV0 and the journaled value;
`commit` says that the new reservation is journaled and committed at once. -/
def Gw.startFresh (g : Gw) (commit : Bool) (i : Nat) (e : Entry) : Gw :=
  let kind := bits e.w1.toNat 1 0
  let key := e.key 3
  let fv0 := e.w4.toNat
  if kind = 3 then
    let tx := max fv0 ((g.keys.journaled true key).getD 0)
    let res := tx + g.param Par.keyFvReserve
    let g := { g with fvTx := mset g.fvTx i tx }
    if commit then
      { g with fvRes := mset g.fvRes i res, keys := { g.keys with journal := g.keys.journal ++ [.freshTx key res] } }
    else ({ g with fvRes := mset g.fvRes i tx } : Gw).journal none (.freshTx key res)
  else if kind = 2 then
    let v := max fv0 ((g.keys.journaled false key).getD 0)
    let c := bits e.w1.toNat 13 8
    let g := { g with fvLast := mset g.fvLast i v, fvJrnl := mset g.fvJrnl i v }
    g.setCan c { g.canAt c with fvArr := mset (g.canAt c).fvArr i v }
  else g

end Sys2Proof.Machine
end

