-- ==== Sys2Proof/Machine/MacSec.lean ====
section
/-! DEFINITION. MACsec of E0–E11, K0 and K1 (R294–R301, R512, R524): secure associations loaded from the catalogue,
protection on transmit, and the receive checks. Names follow IEEE 802.1AE-2018. -/

namespace Sys2Proof.Machine

/-! ### SecY options (R295) -/

def Gw.sec (g : Gw) (p : Nat) : Nat := g.param (Par.ethSec p)
def Gw.secEn (g : Gw) (p : Nat) : Bool := bit (g.sec p) 63
def Gw.secXpn (g : Gw) (p : Nat) : Bool := bit (g.sec p) 62
/-- validateFrames: 0 Disabled, 1 Check, 2 Strict. -/
def Gw.secValidate (g : Gw) (p : Nat) : Nat := bits (g.sec p) 61 60
def Gw.secConf (g : Gw) (p : Nat) : Bool := bit (g.sec p) 59
def Gw.secOffset (g : Gw) (p : Nat) : Nat := [0, 30, 50].getD (bits (g.sec p) 58 57) 0
def Gw.secSci (g : Gw) (p : Nat) : Bool := bit (g.sec p) 56
def Gw.secReplay (g : Gw) (p : Nat) : Bool := bit (g.sec p) 55
def Gw.secWindow (g : Gw) (p : Nat) : Nat := bits (g.sec p) 29 0

def secTagType : Nat := 0x88E5

/-- The first type field of a frame. -/
def firstType (bs : List Byte) : Nat := fromBe (slice bs 12 2)

/-- Frames of the uncontrolled port, MKPDUs with a VLAN tag among them (R296). -/
def uncontrolled (bs : List Byte) : Bool := etypeOf bs = 0x888E || firstType bs = 0x8808

/-! ### Secure associations from T3 entries (R152, R299, R524) -/

/-- The SA of a T3 entry of KIND 0 or 1. -/
def Entry.assoc (e : Entry) (id : Nat) : SecAssoc :=
  { id := id, rx := e.f 1 1 0 = 0, an := e.f 1 15 14, sci := e.word 2, slot := e.f 3 11 0, pn := e.word 4,
    ssci := e.f 3 63 32, salt := e.word 5 + 2 ^ 64 * e.f 6 31 0 }

/-- A transmit SA that leaves stays on for frames already selected under it (R299). [Log 49: DEDUCED] -/
def EthPort.dropSa (x : EthPort) (rx : Bool) (an sci : Nat) : EthPort :=
  let left := x.sas.filter (fun a => !(a.rx && rx && a.an = an && a.sci = sci))
  let sas := left.map (fun (a : SecAssoc) => if !a.rx && !rx && a.an = an then { a with gone := true } else a)
  let used := x.encoding.bind (fun i => if !rx && x.sas.any (fun a => a.id = i && a.an = an) then none else some i)
  { x with sas := sas, encoding := used }

/-- An SA loaded: a new transmit SA is the one in use from now on, and its PN thresholds start anew (R298).
[Log 49: DEDUCED] -/
def EthPort.loadSa (x : EthPort) (e : Entry) : EthPort :=
  let a := e.assoc x.nextSa
  let y := x.dropSa a.rx a.an a.sci
  { y with sas := y.sas ++ [a], nextSa := x.nextSa + 1, encoding := if a.rx then y.encoding else some a.id }

/-- The SA state of a port follows a T3 entry written or removed. -/
def Gw.loadSa (g : Gw) (e : Entry) : Gw :=
  if e.f 1 1 0 ≤ 1 then g.setEth (e.f 1 13 8) ((g.ethAt (e.f 1 13 8)).loadSa e) else g

def Gw.dropSa (g : Gw) (e : Entry) : Gw :=
  if e.f 1 1 0 ≤ 1 then
    g.setEth (e.f 1 13 8) ((g.ethAt (e.f 1 13 8)).dropSa (e.f 1 1 0 = 0) (e.f 1 15 14) (e.word 2))
  else g

/-- The slot of a T3 entry of KIND 0 or 1 is one that its SA needs (R524). [Log 49: DEDUCED] -/
def Gw.saSlotOk (g : Gw) (e : Entry) : Bool := g.keys.saSlotOk (e.f 3 11 0) (e.f 1 1 0 = 0)

/-- The largest packet number (R298). -/
def Gw.pnMax (g : Gw) (p : Nat) : Nat := if g.secXpn p then 2 ^ 64 - 1 else 2 ^ 32 - 1

/-- The initialisation vector of a frame. -/
def Gw.secIv (g : Gw) (p : Nat) (a : SecAssoc) (pn : Nat) : List Byte :=
  if g.secXpn p then beBytes 12 ((a.ssci * 2 ^ 64 + pn) ^^^ a.salt) else beBytes 8 a.sci ++ beBytes 4 pn

/-! ### Transmit (R296–R298) -/

/-- SecTAG and ICV around a frame without FCS. -/
def Gw.secWrap (g : Gw) (p : Nat) (a : SecAssoc) (key bs : List Byte) : List Byte :=
  let user := bs.drop 12
  let conf := g.secConf p
  let tci := atBit 5 (g.secSci p) + atBit 3 conf + atBit 2 conf + a.an
  let tag := beBytes 2 secTagType ++ [BitVec.ofNat 8 tci, BitVec.ofNat 8 (if user.length < 48 then user.length else 0)] ++
    beBytes 4 (a.pn % 2 ^ 32) ++ (if g.secSci p then beBytes 8 a.sci else [])
  let clear := if conf then user.take (g.secOffset p) else user
  let hidden := if conf then user.drop (g.secOffset p) else []
  let iv := g.secIv p a a.pn
  let cipher := if conf then gcmCrypt key iv hidden else []
  bs.take 12 ++ tag ++ clear ++ cipher ++ (gcmTag key iv (bs.take 12 ++ tag ++ clear) cipher).take 16

/-- The transmit SA in use. -/
def EthPort.txSa (x : EthPort) : Option SecAssoc := x.encoding.bind (fun i => x.sas.find? (fun a => a.id = i))

/-- The PN of the SA in use reaches its threshold, once for each SA (R298). -/
def Gw.pnThreshold (g : Gw) (p id pn : Nat) : Gw :=
  let x := g.ethAt p
  if g.param (Par.ethSecPnth p) ≤ pn && x.txSa.any (fun a => a.id = id && !a.thr) then
    (g.setEth p { x with sas := x.sas.map (fun b => if b.id = id then { b with thr := true } else b) }).flag
      (Reg.ethFlag p) 0x08000000
  else g

/-- Protection of a frame without FCS on its way out; none when it is discarded (R297, R298, R512, R760). `sa` is the
transmit SA in use when the frame was selected, with its key then (R299); `bad`: the check of R522 fails, and the frame is discarded with its
packet number used up (R523). [Log 49: DEDUCED, 183: DESIGN CHOICE] -/
def Gw.secTx (g : Gw) (p : Nat) (sa : Option (Nat × Option (List Byte))) (bs : List Byte) (bad : Bool) : Gw × Option (List Byte) :=
  if !g.secEn p || uncontrolled bs then (g, some bs)
  else if !g.islOn 11 then (g, none)
  else
    let x := g.ethAt p
    match x.sas.find? (fun a => !a.rx && sa.any (fun q => q.1 = a.id)) with
    | none => (g, none)
    | some a =>
      match sa.bind Prod.snd with
      | none => (g.bump Reg.cryInlineRevCnt, none)
      | some key =>
        if g.pnMax p ≤ a.pn then
          ((g.bump (Reg.ethSecPnexh p)).flag (Reg.ethFlag p) 0x04000000, none)
        else
          let g := g.pnThreshold p a.id a.pn
          let y := g.ethAt p
          let g := g.setEth p { y with sas := y.sas.map (fun b => if b.id = a.id then { b with pn := a.pn + 1 } else b) }
          if bad then ((g.checkFailed 0).pnThreshold p a.id (a.pn + 1), none)
          else ((g.bump (Reg.ethSecOutProt p)).pnThreshold p a.id (a.pn + 1), some (g.secWrap p a key bs))

/-! ### Receive (R300, R301) -/

/-- The SecTAG of a received frame. -/
structure SecTag where
  an : Nat
  sc : Bool
  es : Bool
  enc : Bool
  pn : Nat
  sci : Nat
  size : Nat
  valid : Bool
deriving DecidableEq, Repr

/-- Bytes that SecTAG and ICV take in a frame without FCS; 0 without SecTAG. -/
def secOverhead (bs : List Byte) : Nat :=
  if firstType bs = secTagType then (if bit (byteAt bs 14) 5 then 32 else 24) else 0

/-- The SecTAG as read, with the checks that make it invalid. -/
def Gw.readTag (g : Gw) (p : Nat) (bs : List Byte) : SecTag :=
  let tci := byteAt bs 14
  let sl := byteAt bs 15
  let sc := bit tci 5
  let size := if sc then 16 else 8
  let user := bs.length - 12 - size - 16
  let pn := fromBe (slice bs 16 4)
  { an := tci % 4, sc := sc, es := bit tci 6, enc := bit tci 3, pn := pn,
    sci := if sc then fromBe (slice bs 20 8) else fromBe (slice bs 6 6) * 65536 + 1, size := size,
    valid := !bit tci 7 && !(sc && (bit tci 6 || bit tci 4)) && (bit tci 3 = bit tci 2) && sl < 48 &&
      (if sl = 0 then 48 ≤ user else user = sl) && 12 + size + 16 ≤ bs.length && (g.secXpn p || pn ≠ 0) }

/-- The whole packet number from the 32 bits sent: with XPN the high half follows the lowest acceptable PN.
[Log 50: DEDUCED] -/
def Gw.wholePn (g : Gw) (p low pn : Nat) : Nat :=
  if g.secXpn p then
    let hi := low / 2 ^ 32
    (if bit low 31 && !bit pn 31 then hi + 1 else hi) * 2 ^ 32 + pn
  else pn

/-- The frame without SecTAG and ICV, the hidden part made clear with `key`, and whether the ICV is right.
[Log 50: DEDUCED] -/
def Gw.secOpen (g : Gw) (p : Nat) (a : SecAssoc) (t : SecTag) (pn : Nat) (key bs : List Byte) : List Byte × Bool :=
  let body := bs.drop (12 + t.size)
  let user := body.take (body.length - 16)
  let icv := body.drop (body.length - 16)
  let clear := if t.enc then user.take (g.secOffset p) else user
  let cipher := if t.enc then user.drop (g.secOffset p) else []
  let iv := g.secIv p a pn
  let plain := if t.enc then gcmCrypt key iv cipher else []
  (bs.take 12 ++ clear ++ plain,
   decide ((gcmTag key iv (bs.take (12 + t.size) ++ clear) cipher).take 16 = icv))

/-- The receive SA of a frame: by its SCI, or on a point-to-point link without SCI the one receive SC. -/
def EthPort.rxSa (x : EthPort) (t : SecTag) : Option SecAssoc :=
  x.sas.find? (fun a => a.rx && a.an = t.an && (a.sci = t.sci || (!t.sc && !t.es)))

/-- The window follows an accepted PN (R300). [Log 50: DEDUCED] -/
def Gw.moveWindow (g : Gw) (p : Nat) (a : SecAssoc) (pn : Nat) : Gw :=
  let x := g.ethAt p
  let low := max a.pn (pn + 1 - g.secWindow p)
  g.setEth p { x with sas := x.sas.map (fun b => if b.id = a.id then { b with pn := low } else b) }

/-- MACsec receive processing of a frame without FCS: the frame that goes on, or none when it is discarded (R301);
`bad`: the check of R522 fails (R523). [Log 43: DEDUCED] -/
def Gw.secRx (g : Gw) (p : Nat) (bs : List Byte) (bad : Bool) : Gw × Option (List Byte) :=
  if !g.secEn p || uncontrolled bs then (g, some bs)
  else if !g.islOn 11 then (g, none)
  else
    let v := g.secValidate p
    if firstType bs ≠ secTagType then
      (g.bump (Reg.ethSecInNotag p), if v = 0 then some bs else none)
    else
      let t := g.readTag p bs
      let bare := bs.take 12 ++ (bs.drop (12 + t.size)).take (bs.length - 28 - t.size)
      if v = 0 then (g, some bare)
      else if !t.valid then (g.bump (Reg.ethSecInBadtag p), none)
      else
        match (g.ethAt p).rxSa t with
        | none => (g.bump (Reg.ethSecInNosa p), none)
        | some a =>
          match g.keys.saKey a with
          | none => (g.bump (Reg.ethSecInNosa p), none)
          | some key =>
            let pn := g.wholePn p a.pn t.pn
            let r := g.secOpen p a t pn key bs
            if bad then (g.checkFailed 0, none)
            else if g.secReplay p && pn < a.pn then
              (g.bump (Reg.ethSecInLate p), if v = 1 then some r.1 else none)
            else if !r.2 then (g.bump (Reg.ethSecInInval p), if v = 1 then some r.1 else none)
            else ((g.bump (Reg.ethSecInOk p)).moveWindow p a pn, some r.1)

end Sys2Proof.Machine
end

