-- ==== Sys2Proof/Machine/Ports.lean ====
section
/-! DEFINITION. The Ethernet-class ports (R270–R317): receive checks, preemption, pause, launch at the MAC, TX timestamp
queues, and the 10BASE-T1S ports with the aggregator. Commands: ETH_FRAME_RECEIVE to TIS_COLLISION, TSQ_ENT0_READ,
TSQ_ENT3_READ, AGGREGATOR_RESUME and PLCA_BEACON_RECEIVE. A command whose event is not due has no effect. -/

namespace Sys2Proof.Machine

/-! ### Settings -/

def Gw.ethMac (g : Gw) (p : Nat) : Nat := g.param (Par.ethMac p)
/-- [Log 43: DEDUCED] -/
def Gw.maxFrame (g : Gw) (p : Nat) : Nat := bits (g.ethMac p) 31 17
def Gw.pauseRx (g : Gw) (p : Nat) : Bool := p < 12 && bit (g.ethMac p) 16
def Gw.pauseTx (g : Gw) (p : Nat) : Bool := p < 12 && bit (g.ethMac p) 15
def Gw.preEn (g : Gw) (p : Nat) : Bool := bit (g.ethMac p) 14
def Gw.verifyEn (g : Gw) (p : Nat) : Bool := bit (g.ethMac p) 13
def Gw.tagIns (g : Gw) (p : Nat) : Bool := bit (g.ethMac p) 12

def Gw.anEn (g : Gw) (p : Nat) : Bool := p < 12 && bit (g.param (Par.ethMode p)) 27

/-- Line rate in Mb/s: by MODE on E0–E11 (R270), fixed on a chain port (R447). -/
def Gw.lineRate (g : Gw) (p : Nat) : Nat := if p < 12 then modeRate (g.ethMode p) else chainRate

/-- ST64 units of `n` bytes and of `n` bits on the wire. -/
def Gw.byteTime (g : Gw) (p n : Nat) : Nat := if g.lineRate p = 0 then 0 else ceilDiv (n * 64000) (g.lineRate p)
/-- How long `n` bytes that start at stamp `t` occupy the wire of port `p`, in ST64 units. A chain port sends 64 data bits in
each block of 2.56 ns, and every 32nd block counted from link alignment is a side block (R446, R447). -/
def Gw.wireTime (g : Gw) (p : Nat) (t : Stamp) (n : Nat) : Nat :=
  if p < 12 then g.byteTime p n
  else
    let units := 16 * Int.ofNat (g.tb.tick - (mgetD g.chn.ports (p - 12) {}).alignedAt) + (t - g.now)
    let first := (25 * units / 512 % 32).toNat
    let free := 32 - max first 1
    let sides := (if first = 0 then 1 else 0) + (ceilDiv n 8 - free + 30) / 31
    ceilDiv (64 * n + 512 * sides) 25
def Gw.bitTime (g : Gw) (p n : Nat) : Nat := if g.lineRate p = 0 then 0 else ceilDiv (n * 8000) (g.lineRate p)

/-- Latencies of a port (R303, R304). -/
def Gw.rxLat (g : Gw) (p : Nat) : Int :=
  if p < 12 then Int.ofNat (bits (g.param (Par.ethLat p)) 31 16) else Int.ofNat (g.ethAt p).rxCal
def Gw.txLat (g : Gw) (p : Nat) : Int :=
  if p < 12 then Int.ofNat (bits (g.param (Par.ethLat p)) 15 0) else Int.ofNat (g.ethAt p).txCal

/-- The MACGRP island of a MAC: E0–E5, E6–E11, and the chain ports with the S ports. -/
def macIsland (p : Nat) : Nat := if p < 6 then 6 else if p < 12 then 7 else 8

def Gw.ethFlag (g : Gw) (p b : Nat) : Gw := g.flag (Reg.ethFlag p) (2 ^ b)

/-- A chain port carries Ethernet frames while it is UP and its link is not blocked (R459, R464). [Log 103: DEDUCED] -/
def Gw.chainCarries (g : Gw) (k : Nat) : Bool :=
  let x := mgetD g.chn.ports k {}
  x.state = 1 && !x.blocked

/-- The MAC reports link up (R272, R607); never with MODE 0 (R270). -/
def Gw.linkUp (g : Gw) (p : Nat) : Bool :=
  p < 14 && g.islOn (macIsland p) && (g.ethAt p).link && !(g.ethAt p).adminDown && (12 ≤ p || g.ethMode p ≠ 0)

/-- The port carries Ethernet frames: link is up and, on a chain port, the port is UP and not blocked (R272, R459, R464). -/
def Gw.carries (g : Gw) (p : Nat) : Bool := g.linkUp p && (p < 12 || g.chainCarries (p - 12))

/-- VERIFY of R313: verifying while the link is down, 0 with PRE_EN 0 or VERIFY_EN 0 (R285). -/
def Gw.verifyState (g : Gw) (p : Nat) : Nat :=
  if g.preEn p && g.verifyEn p then (if g.linkUp p then (g.ethAt p).verify else 1) else 0

/-- Preemption is active on the link (R285). -/
def Gw.preemptActive (g : Gw) (p : Nat) : Bool :=
  g.linkUp p && g.preEn p && (!g.verifyEn p || (g.ethAt p).verify = 2)

/-- Handover of a received frame to its fabric port: discarded at a fenced pipeline (R760), and while the pipeline or
the fabric is held in reset (R812). -/
def Gw.ingress (g : Gw) (x : Frame) : Gw :=
  let pipe := 1 + pipeOf x.fport
  if g.islFenced pipe then g.bump Reg.lckFenceDrop
  else if !g.islOn pipe || !g.islOn 0 then g.bump Reg.lckRstDrop
  else g.deliver x

/-! ### Receive (R280, R287, R292, R302–R304) -/

/-- A fragment trace: 4 for a start fragment, the fragment count for a continuation (R287).
[Log 45: PRESUMED, 156: PRESUMED] -/
def fragsOk : List Nat → Bool
  | 4 :: r => (r.zipIdx).all (fun x => x.1 = x.2 % 4)
  | _ => false

/-- A received pause frame with its end at stamp `t` (R292, R293). -/
def Gw.pauseReceived (g : Gw) (p q : Nat) (t : Stamp) : Gw :=
  let x := g.ethAt p
  let ignored := match x.ignoreUntil with
    | some u => decide (t < u)
    | none => false
  if !g.pauseRx p || ignored then g
  else if q = 0 then
    match x.pauseUntil with
    | some u => g.setEth p { x with pauseUntil := none, pauseSince := none, wireFree := max x.wireFree (min u t + g.txLat p) }
    | none => g
  else
    let going := match x.pauseUntil with
      | some u => decide (t ≤ u)
      | none => false
    g.setEth p { x with pauseUntil := some (t + Int.ofNat (g.bitTime p (512 * q))),
                        pauseSince := if going then x.pauseSince else some t }

/-- A frame that failed one of checks 1 to 6 (R280, R314). [Log 42: DEDUCED] -/
def Gw.rxDiscard (g : Gw) (p reg : Nat) : Gw := (g.bump reg).ethFlag p 25

/-- MAC control: pause acts, any other opcode is discarded (check 7 of R280). [Log 42: DEDUCED] -/
def Gw.macControl (g : Gw) (p : Nat) (bs : List Byte) (t : Stamp) : Gw :=
  if fromBe (slice bs 14 2) = 1 then (g.bump (Reg.ethRxPause p)).pauseReceived p (fromBe (slice bs 16 2)) t
  else g.bump (Reg.ethRxMacctl p)

/-- The frame of an Ethernet or chain port, its stamps corrected by the port's latency. [Log 42: DEDUCED] -/
def Gw.ethIngress (g : Gw) (p : Nat) (rx : EthRx) (bytes : List Byte) : Frame :=
  { fport := macFabric p, body := .eth bytes, ing := rx.rawIngress - g.rxLat p, ingSeg := g.tb.seg - rx.ingSegBack,
    adm := g.stampIn (macIsland p) rx.phase - g.rxLat p, seg := g.tb.seg, dpcp := bits (g.pcfg (macFabric p)) 11 9 }

/-- A verify frame (SMD-V) or a response (SMD-R): a start of its kind and 60 bytes of zeros (IEEE 802.3br).
[Log 45: PRESUMED] -/
def verifyFrame (response : Bool) : List Byte := (if response then 0x19 else 0x07) :: List.replicate 60 0

/-- A verify frame of the partner is answered by a port that runs the MAC merge sublayer (R283, R285).
[Log 45: PRESUMED] -/
def Gw.verifyReceived (g : Gw) (p : Nat) : Gw :=
  if g.preEn p then g.emit (.ethControl p (verifyFrame true)) else g

/-- A frame received on E0–E11, K0 or K1: the first check that fails decides (R280). [Log 43: DEDUCED] -/
def Gw.ethReceive (g : Gw) (p : Nat) (rx : EthRx) : Gw :=
  if !g.carries p then g
  else if rx.verify then g.verifyReceived p
  else
    let g := if rx.preemptable && g.preEn p then g.bumpN (Reg.ethRxFrag p) rx.fragments.length else g
    let bs := stripFcs rx.bytes
    let extra := if g.secEn p then secOverhead bs else 0
    let len := rx.bytes.length - extra
    if rx.pcsError || (rx.preemptable && !g.preEn p) then g.rxDiscard p (Reg.ethRxPcs p)
    else if rx.preemptable && !fragsOk rx.fragments then g.rxDiscard p (Reg.ethRxReasm p)
    else if rx.mcrcError || rx.bytes.length < 4 || rx.bytes ≠ withFcs bs then g.rxDiscard p (Reg.ethRxFcs p)
    else if len < 64 then g.rxDiscard p (Reg.ethRxRunt p)
    else if g.maxFrame p < len then g.rxDiscard p (Reg.ethRxOver p)
    else
      match g.secRx p bs rx.checkBad with
      | (g, none) => g.ethFlag p 25
      | (g, some bare) =>
        if firstType bare = 0x8808 then g.macControl p bare (g.stampIn (macIsland p) rx.phase)
        else (g.bump (Reg.ethRxOk p)).ingress (g.ethIngress p rx (withFcs bare))

def execEthFrameReceive (p : Nat) (rx : EthRx) (s : State) : Host.Outcome State Fault Refusal :=
  answer (onGw (fun g => g.ethReceive p rx)) s

/-! ### TX timestamp queues (R305–R310) -/

/-- The four words of an entry; all 0 without one (R310). -/
def tsWords (q : Nat) : Option TsEntry → List Nat
  | some e => [stampLo e.stamp, stampHi e.stamp, e.tag % 65536 * 65536 + e.seq % 65536,
      2 ^ 31 + atBit 30 e.disc + q * 65536 + e.seg % 65536]
  | none => [0, 0, 0, 0]

/-- A read of TSQ_ENT0_q latches the oldest entry (R309). -/
def Gw.tsqRead0 (g : Gw) (q : Nat) : Gw :=
  let x := g.ethAt q
  let ws := tsWords q x.tsq.head?
  (g.setEth q { x with tsLatched := ws, tsArmed := !x.tsq.isEmpty }).emit (.readData (Reg.tsqEnt0 q) (w32 (ws.getD 0 0)))

/-- A read of TSQ_ENT3_q after one of TSQ_ENT0_q removes the latched entry (R309). -/
def Gw.tsqRead3 (g : Gw) (q : Nat) : Gw :=
  let x := g.ethAt q
  (g.setEth q { x with tsArmed := false, tsq := if x.tsArmed then x.tsq.drop 1 else x.tsq }).emit
    (.readData (Reg.tsqEnt3 q) (w32 (x.tsLatched.getD 3 0)))

def execTsqEnt0Read (q : Nat) (s : State) : Host.Outcome State Fault Refusal :=
  answer (onGw (fun g => if q < 14 && g.islOn (macIsland q) then g.tsqRead0 q
    else g.emit (.readData (Reg.tsqEnt0 q) 0))) s

def execTsqEnt3Read (q : Nat) (s : State) : Host.Outcome State Fault Refusal :=
  answer (onGw (fun g => if q < 14 && g.islOn (macIsland q) then g.tsqRead3 q
    else g.emit (.readData (Reg.tsqEnt3 q) 0))) s

/-! ### Launch (R243, R260, R281, R282) -/

/-- The frame of a copy as the MAC sends it, without FCS: tag inserted, then padded to 60 bytes (R281). -/
def Gw.txBytes (g : Gw) (p : Nat) (bytes : List Byte) : List Byte :=
  let bs := stripFcs bytes
  let t := g.param (Par.ethTag p)
  let tagged := if g.tagIns p && !hasTag bs then insertTag bs (bits t 15 13) (bits t 11 0) else bs
  tagged ++ List.replicate (60 - tagged.length) 0

/-- The planned launch of a selection in the present segment. -/
def Gw.planned (g : Gw) (x : Sel) : Stamp := g.translate x.launch x.seg g.tb.seg

/-- The first stamp from `t` on at which IEEE 802.3br lets a reserved frame preempt the frame on the wire: the wire is not
with an earlier preempting frame, at least 60 bytes have been sent and at least 64 remain (R260, R284, R286). The wire has
sent 8 bytes before the first of the frame, and none of it in the time given to preempting frames. [Log 46: DEDUCED] -/
def Gw.preemptAt (g : Gw) (p : Nat) (t : Stamp) : Option Stamp :=
  let x := g.ethAt p
  match x.onWire with
  | some w =>
    let given : Stamp := w.launch + Int.ofNat ((w.ext.map Prod.snd).sum)
    let u := max (max t (given + Int.ofNat (g.byteTime p 68))) (((w.ext.map Prod.fst).getLast?).getD t)
    let sent : Int := (u - given) * g.lineRate p / 64000 - 8
    if g.preemptActive p && !w.reserved && g.preemptable (macFabric p) w.copy.cls && 64 ≤ x.wireLen - sent then some u
    else none
  | none => none

/-- The stamp at which the next data frame can start at the medium, and whether it preempts (R243, R260). -/
def Gw.launchAt (g : Gw) (p : Nat) (j : MacJob) : Stamp × Bool :=
  let x := g.ethAt p
  let t := max (g.planned j.sel) (j.staged + g.txLat p)
  if x.wireFree ≤ t then (t, false)
  else match (if j.sel.reserved then g.preemptAt p t else none) with
    | some u => (u, true)
    | none => (x.wireFree, false)

/-- Received pause forbids a start at stamp `t` (R292). -/
def Gw.pauseHolds (g : Gw) (p : Nat) (t : Stamp) : Bool :=
  match (g.ethAt p).pauseUntil, (g.ethAt p).pauseSince with
  | some u, some b => b + Int.ofNat (g.bitTime p 512) < t - g.txLat p && t - g.txLat p < u
  | _, _ => false

/-- The delay sample of R262. -/
def Gw.sampleDelay (g : Gw) (p : Nat) (x : Sel) (t : Stamp) : Gw :=
  let d := (t - g.translate x.copy.frame.ing x.copy.frame.ingSeg g.tb.seg).toNat / 1024
  g.bump (Reg.egrHdelay (16 * (8 * macFabric p + x.copy.cls) + histBin d))

/-- Slip and physical miss of a start at `t` (R243, R260, R261). -/
def Gw.noteLaunch (g : Gw) (p : Nat) (x : Sel) (t : Stamp) : Gw :=
  let f := macFabric p
  let late : Bool := g.planned x + 1 < t
  let g := if x.reserved then g.bump (Reg.egrCrTxCnt f) else g
  let g := if late then (g.bump (Reg.egrSlipCnt f)).flag Reg.egrFlag 0x08000000 else g
  if late && x.reserved then
    { ((g.bump (Reg.egrCrPmissCnt f)).flag Reg.egrFlag 0x20000000) with undefLaunch := true }
  else g

/-- A constant-residence launch stamp once it has become undefined (R164, R261). [Log 5: DESIGN CHOICE] -/
def Gw.shownLaunch (g : Gw) (x : Sel) (t : Stamp) : Stamp × Gw :=
  if x.reserved && g.undefLaunch then (Config.undefinedStamp g.free, g.draw) else (t, g)

/-- The content of a port's egress once it has become undefined. [Log 5: DESIGN CHOICE] -/
def Gw.shownBytes (g : Gw) (bitNo : Nat) (bs : List Byte) : List Byte × Gw :=
  if bit g.undefEgress bitNo then (Config.undefinedBytes g.free bs.length, g.draw) else (bs, g)

/-- The frame `bs`, whole with FCS, goes out on the wire at `t`. -/
def Gw.sendAt (g : Gw) (p : Nat) (x : Sel) (t : Stamp) (preempts : Bool) (bs : List Byte) : Gw :=
  let f := macFabric p
  let b := g.shownBytes f bs
  let l := ((b.2.noteLaunch p x t).sampleDelay p x t).shownLaunch x t
  let g := l.2
  let e := g.ethAt p
  let occupied := g.wireTime p t (bs.length + 20)
  let more := occupied + g.byteTime p 24
  let e' : EthPort :=
    if preempts then
      { e with wireFree := e.wireFree + Int.ofNat more,
               onWire := e.onWire.map (fun (w : Sel) => { w with ext := w.ext ++ [(t + Int.ofNat occupied, more)] }) }
    else { e with wireFree := t + Int.ofNat occupied, onWire := some { x with launch := t, ext := [] }, wireLen := bs.length }
  let again := match e.onWire with
    | some w => !w.ext.isEmpty
    | none => false
  let g := if preempts && !again then g.bump (Reg.ethTxPreempt p) else g
  let g := (g.setEth p e').bump (Reg.ethTxOk p)
  let g := match x.copy.frame.tsTag with
    | some tag => g.pushTs p l.1 tag g.tb.seg false
    | none => g
  let g := match x.copy.frame.fwTag with
    | some tag => g.fwStamped tag t
    | none => g
  g.emit (.ethFrame p l.1 b.1)

/-- The next handed-over frame starts, or is discarded by the MAC (R243, R272, R282, R297, R298).
[Log 15: DESIGN CHOICE, 40: DEDUCED, 46: DEDUCED] -/
def Gw.macStart (g : Gw) (p : Nat) (bad : Bool) : Gw :=
  let x := g.ethAt p
  match x.jobs with
  | [] => g
  | j :: rest =>
    let l := g.launchAt p j
    if p ≥ 14 || !g.islOn (macIsland p) || g.nowLast < l.1 - g.txLat p then g
    else
      let out := g.setEth p { x with jobs := rest }
      if !g.carries p then
        (((out.bump (Reg.ethTxLinkdn p)).ethFlag p 30).discTs (macFabric p) j.sel.copy.frame).unclaim j.sel.copy.fid
      else if !x.xoffQueue.isEmpty || g.pauseHolds p l.1 then g
      else
        let bs := g.txBytes p j.sel.copy.frame.body.bytes
        if g.maxFrame p < bs.length + 4 then
          ((out.bump (Reg.ethTxOver p)).discTs (macFabric p) j.sel.copy.frame).unclaim j.sel.copy.fid
        else
          match out.secTx p j.sel.sa bs bad with
          | (g, some w) => (g.sendAt p j.sel l.1 l.2 (withFcs w)).unclaim j.sel.copy.fid
          | (g, none) => (g.discTs (macFabric p) j.sel.copy.frame).unclaim j.sel.copy.fid

/-! ### Pause (R291–R293) -/

/-- A pause frame without FCS (R291). [Log 44: DEDUCED] -/
def Gw.pauseFrame (g : Gw) (p q : Nat) : List Byte :=
  let bs := [0x01, 0x80, 0xC2, 0x00, 0x00, 0x01].map (BitVec.ofNat 8) ++ leBytes 6 (g.param (Par.ethSaddr p)) ++
    beBytes 2 0x8808 ++ beBytes 2 1 ++ beBytes 2 q
  bs ++ List.replicate (60 - bs.length) 0

/-- The oldest XOFF or XON decision goes out as a pause frame from stamp `from'` of the MAC on, once the wire is free; its
repeat is due REFRESH quanta after it (R291). [Log 44: DEDUCED] -/
def Gw.pauseFrom (g : Gw) (p : Nat) (from' : Stamp) : Gw :=
  let x := g.ethAt p
  match x.xoffQueue with
  | [] => g
  | off :: rest =>
    let t := max x.wireFree (from' + g.txLat p)
    if !g.pauseTx p || !g.islOn (macIsland p) || g.nowLast < t - g.txLat p then g
    else
      let par := g.param (Par.ethPause p)
      let again : Option Stamp := if off then some (t - g.txLat p + Int.ofNat (g.bitTime p (512 * bits par 15 0))) else none
      if !g.linkUp p then
        ((g.setEth p { x with xoffQueue := rest, refreshAt := again }).bump (Reg.ethTxLinkdn p)).ethFlag p 30
      else
        let g := g.setEth p { x with xoffQueue := rest, refreshAt := again,
                                     wireFree := t + Int.ofNat (g.wireTime p t 84) }
        (g.bump (Reg.ethTxPause p)).emit (.ethControl p (withFcs (g.pauseFrame p (if off then bits par 31 16 else 0))))

/-- The oldest decision goes out at the present tick. -/
def Gw.pauseSend (g : Gw) (p : Nat) : Gw := g.pauseFrom p g.now

def execPauseFrameSend (p : Nat) (s : State) : Host.Outcome State Fault Refusal :=
  answer (onGw (fun g => g.pauseSend p)) s

/-- The repeat of a pause frame while the port stays in XOFF (R291). -/
def Gw.pauseRefresh (g : Gw) (p : Nat) : Gw :=
  let x := g.ethAt p
  match x.refreshAt with
  | some t =>
    if g.nowLast < t || !bit g.cal.xoff p then g
    else (g.setEth p { x with refreshAt := none, xoffQueue := true :: x.xoffQueue }).pauseFrom p (max g.now t)
  | none => g

def execPauseRefresh (p : Nat) (s : State) : Host.Outcome State Fault Refusal :=
  answer (onGw (fun g => g.pauseRefresh p)) s

/-- The stop ends at stamp `u`: no data frame starts before it. -/
def Gw.endStop (g : Gw) (p : Nat) (u : Stamp) : Gw :=
  let x := g.ethAt p
  g.setEth p { x with pauseUntil := none, pauseSince := none, wireFree := max x.wireFree (u + g.txLat p) }

def Gw.pauseExpiry (g : Gw) (p : Nat) : Gw :=
  match (g.ethAt p).pauseUntil with
  | some u => if u ≤ g.nowLast then g.endStop p u else g
  | none => g

def execPauseStopExpiry (p : Nat) (s : State) : Host.Outcome State Fault Refusal :=
  answer (onGw (fun g => g.pauseExpiry p)) s

/-- The watchdog ends an uninterrupted stop of WD_US and starts HOLD_US (R293). -/
def Gw.pauseWatchdog (g : Gw) (p : Nat) : Gw :=
  let x := g.ethAt p
  let w := g.param (Par.ethPwd p)
  match x.pauseUntil, x.pauseSince with
  | some u, some b =>
    let t := b + 8000 * Int.ofNat (bits w 25 16)
    if t ≤ g.nowLast && t ≤ u then
      let g := ((g.endStop p t).bump (Reg.ethPauseWd p)).ethFlag p 29
      g.setEth p { g.ethAt p with ignoreUntil := some (t + 8000 * Int.ofNat (bits w 15 0)) }
    else g
  | _, _ => g

def execPauseWatchdog (p : Nat) (s : State) : Host.Outcome State Fault Refusal :=
  answer (onGw (fun g => g.pauseWatchdog p)) s

def Gw.pauseHoldEnd (g : Gw) (p : Nat) : Gw :=
  let x := g.ethAt p
  match x.ignoreUntil with
  | some u => if u ≤ g.nowLast then g.setEth p { x with ignoreUntil := none } else g
  | none => g

def execPauseHoldEnd (p : Nat) (s : State) : Host.Outcome State Fault Refusal :=
  answer (onGw (fun g => g.pauseHoldEnd p)) s

/-! ### Link and verify (R271–R273, R285) -/

/-- Link comes up on a port whose link was down: verify starts anew, its three frames counted from now (R285).
[Log 45: PRESUMED] -/
def Gw.linkRises (g : Gw) (p : Nat) : Gw :=
  g.setEth p { g.ethAt p with link := true, rateErr := false, verify := if g.preEn p && g.verifyEn p then 1 else 0,
                              verifySent := 0, verifyAt := g.tb.tick }

/-- Verify starts with its settings: on a port with link that has not yet run it since link-up (R285).
[Log 45: PRESUMED] -/
def Gw.verifyStart (g : Gw) (p : Nat) : Gw :=
  let x := g.ethAt p
  if x.link && g.preEn p && g.verifyEn p && x.verify = 0 then
    g.setEth p { x with verify := 1, verifySent := 0, verifyAt := g.tb.tick }
  else g

/-- Link down: verify starts anew at the next link-up, and egress content of a port that loses link in a run is
undefined (R272, R273, R285). -/
def Gw.linkGoesDown (g : Gw) (p : Nat) : Gw :=
  let x := g.ethAt p
  if !x.link then g.setEth p { x with rateErr := false }
  else
    let g := (g.setEth p { x with link := false, verifySent := 0, onWire := none,
                                  pauseUntil := none, pauseSince := none }).ethFlag p 30
    if g.str.run then { g with undefEgress := g.undefEgress ||| 2 ^ macFabric p } else g

/-- The PCS is synchronised and the partner reports link at `rate` Mb/s: another rate than that of MODE holds the port down,
or brings it down (R271, R272). -/
def Gw.linkComesUp (g : Gw) (p rate : Nat) : Gw :=
  let x := g.ethAt p
  if p ≥ 12 || !g.islOn (macIsland p) || x.adminDown || g.ethMode p = 0 then g
  else if g.anEn p && rate ≠ g.lineRate p then
    let g := if x.link then g.linkGoesDown p else g
    (g.setEth p { g.ethAt p with rateErr := true }).ethFlag p 31
  else if x.link then g
  else g.linkRises p

def execLinkUp (p rate : Nat) (s : State) : Host.Outcome State Fault Refusal :=
  answer (onGw (fun g => g.linkComesUp p rate)) s

/-- A chain port has been without synchronisation for 2 ms (R272, R448); on E0–E11 the command says so. -/
def Gw.unsynced (g : Gw) (p : Nat) : Bool :=
  let x := mgetD g.chn.ports (p - 12) {}
  p < 12 || (!x.aligned && x.lackSince + 2 * ticksPerMs ≤ g.tb.tick)

def execLinkDownTimeout (p : Nat) (s : State) : Host.Outcome State Fault Refusal :=
  answer (onGw (fun g => if p < 14 && g.islOn (macIsland p) && g.unsynced p then g.linkGoesDown p else g)) s

/-- Block lock and side-block alignment of a chain port bring its link up unless ADMIN_DOWN holds it (R272, R448, R607). -/
def Gw.chainLink (g : Gw) (p : Nat) : Gw :=
  let x := g.ethAt p
  if 12 ≤ p && (mgetD g.chn.ports (p - 12) {}).aligned && !x.adminDown && !x.link then g.linkRises p else g

/-- The verify timer: a response ends it with success; every VERIFY_MS a verify frame goes out, and three unanswered ones
are a failure (R285). The first goes out at link-up. [Log 45: PRESUMED] -/
def Gw.verifyTimer (g : Gw) (p : Nat) (answered : Bool) : Gw :=
  let x := g.ethAt p
  if !g.linkUp p || !g.preEn p || !g.verifyEn p || x.verify ≠ 1 then g
  else if answered && 1 ≤ x.verifySent then g.setEth p { x with verify := 2 }
  else if g.tb.tick < x.verifyAt then g
  else if 3 ≤ x.verifySent then (g.setEth p { x with verify := 3 }).ethFlag p 28
  else
    (g.setEth p { x with verifySent := x.verifySent + 1,
                         verifyAt := g.tb.tick + g.param (Par.ethVerify p) * ticksPerMs }).emit
      (.ethControl p (verifyFrame false))

def execVerifyFrameTimer (p : Nat) (answered : Bool) (s : State) : Host.Outcome State Fault Refusal :=
  answer (onGw (fun g => g.verifyTimer p answered)) s

/-! ### 10BASE-T1S ports (R274–R279) -/

def Gw.tisAt (g : Gw) (t : Nat) : TisPort := mgetD g.tis t {}
def Gw.setTis (g : Gw) (t : Nat) (x : TisPort) : Gw := { g with tis := mset g.tis t x }
def Gw.tisCfg (g : Gw) (t : Nat) : Nat := g.param (Par.tisCfg t)
def Gw.tisOn (g : Gw) (t : Nat) : Bool := t < 8 && g.islOn 8 && bit (g.tisCfg t) 63
def Gw.tisVid (g : Gw) (t : Nat) : Nat := bits (g.tisCfg t) 11 0
def Gw.tisPcp (g : Gw) (t : Nat) : Nat := bits (g.tisCfg t) 14 12
def Gw.plcaEn (g : Gw) (t : Nat) : Bool := bit (g.tisCfg t) 62
/-- A PLCA follower (R274). -/
def Gw.plcaFollower (g : Gw) (t : Nat) : Bool := g.plcaEn t && bits (g.tisCfg t) 61 57 ≠ 0
/-- The PLCA coordinator (R274). -/
def Gw.plcaCoordinator (g : Gw) (t : Nat) : Bool := g.tisOn t && g.plcaEn t && bits (g.tisCfg t) 61 57 = 0

/-- The port is in PLCA: it is coordinator, or a follower that has not fallen back (R274, R275). -/
def Gw.plcaOn (g : Gw) (t : Nat) : Bool := g.tisOn t && g.plcaEn t && !(g.plcaFollower t && (g.tisAt t).fallback)

/-- An S port starts in its role: a follower has 4 ms from now for its first BEACON (R275), a coordinator sends one. -/
def Gw.tisRole (g : Gw) (t : Nat) : Gw :=
  g.setTis t { g.tisAt t with fallback := false, beacon := false, lastBeacon := g.tb.tick, nextBeacon := g.tb.tick, sent := 0 }

/-- Ticks of `n` bit times of a 10BASE-T1S segment: 100 ns each. -/
def tisBits (n : Nat) : Nat := 50 * n

/-- A frame of `n` bytes on a segment puts off the coordinator's next BEACON: the opportunity of TO_TIMER bit times that it
uses grows to preamble, frame and, where the node may go on with its burst, BURST_TMR. [Log 168: PRESUMED] -/
def Gw.tisBusy (g : Gw) (t n : Nat) (more : Bool) : Gw :=
  let x := g.tisAt t
  let c := g.tisCfg t
  let burst := if more then bits c 31 24 else 0
  g.setTis t { x with nextBeacon := max x.nextBeacon g.tb.tick + tisBits (8 * (n + 8) + burst - bits c 47 40) }

/-- A coordinator sends the BEACON at the start of every PLCA cycle: 20 bit times, then an opportunity of TO_TIMER bit times
for each of the NODE_COUNT nodes (R274). [Log 168: PRESUMED] -/
def Gw.sendBeacon (g : Gw) (t : Nat) : Gw :=
  let x := g.tisAt t
  let c := g.tisCfg t
  if g.plcaCoordinator t && x.nextBeacon ≤ g.tb.tick then
    (g.setTis t { x with beacon := true, sent := 0, nextBeacon := g.tb.tick + tisBits (20 + bits c 56 51 * bits c 47 40) }).emit
      (.beacon t)
  else g

/-- The BEACONs due at the present tick. -/
def Gw.beacons (g : Gw) : Gw := (List.range 8).foldl (fun (g : Gw) t => g.sendBeacon t) g

/-- A frame received on an S port (R277, R280). -/
def Gw.tisReceive (g : Gw) (t : Nat) (rx : EthRx) : Gw :=
  if !g.tisOn t then g
  else
    let g := g.tisBusy t rx.bytes.length false
    let bs := stripFcs rx.bytes
    if rx.pcsError || rx.mcrcError || rx.bytes.length < 64 || 1518 < rx.bytes.length || rx.bytes ≠ withFcs bs then
      g.bump (Reg.tisRxErr t)
    else if firstType bs = 0x8808 then g
    else if hasTag bs then g.bump (Reg.tisTagDropCnt t)
    else
      let v := g.tisVid t
      let bytes := if v = 0 then rx.bytes else withFcs (insertTag bs (g.tisPcp t) v)
      (g.bump (Reg.tisRxOk t)).ingress
        { fport := 12, sub := t, body := .eth bytes, ing := rx.rawIngress, ingSeg := g.tb.seg - rx.ingSegBack,
          adm := g.stampIn 8 rx.phase, seg := g.tb.seg, dpcp := g.tisPcp t }

def execTisFrameReceive (p : Nat) (rx : EthRx) (s : State) : Host.Outcome State Fault Refusal :=
  answer (onGw (fun g => g.tisReceive p rx)) s

/-- Enabled S ports that a copy goes to: those of its VID (R278). [Log 47: DEDUCED] -/
def Gw.tisTargets (g : Gw) (bytes : List Byte) : List Nat :=
  (List.range 8).filter (fun t => g.tisOn t && g.tisVid t = vidOf bytes)

/-- Every named port's transmit buffer of 16 KiB has room for a copy (R279). [Log 48: DEDUCED] -/
def Gw.tisRoom (g : Gw) (bytes : List Byte) : Bool :=
  (g.tisTargets bytes).all (fun t => (((g.tisAt t).buffer.map (fun b => b.1.length)).sum + bytes.length ≤ 16384 : Bool))

/-- The aggregator takes a copy (R278): without its tag on a port with a VID, and sent padded with a fresh FCS.
[Log 41: DESIGN CHOICE, 47: DEDUCED] -/
def Gw.tisTake (g : Gw) (bytes : List Byte) (tag : Option Nat) : Gw :=
  match g.tisTargets bytes with
  | [] => g.bump Reg.tisNoportCnt
  | ts => ts.foldl (fun g t =>
      let bs := if g.tisVid t = 0 then stripFcs bytes else removeTag (stripFcs bytes)
      let out := withFcs (bs ++ List.replicate (60 - bs.length) 0)
      g.setTis t { g.tisAt t with buffer := (g.tisAt t).buffer ++ [(out, tag)] }) g

/-- An S port may send: in PLCA one frame and MAX_BC more in its opportunity of each cycle (R274).
[Log 168: PRESUMED] -/
def Gw.tisMaySend (g : Gw) (t : Nat) : Bool := g.tisOn t && (!g.plcaOn t || (g.tisAt t).sent ≤ bits (g.tisCfg t) 39 32)

/-- The oldest frame of an S port has been sent. [Log 41: DESIGN CHOICE, 47: DEDUCED] -/
def Gw.tisSent (g : Gw) (t : Nat) : Gw :=
  let x := g.tisAt t
  match x.buffer with
  | [] => g
  | b :: r =>
    if !g.tisMaySend t then g
    else
      let n := x.sent + 1
      let y := g.shownBytes (32 + t) b.1
      let z := y.2.shownBytes 12 y.1
      let g := (((z.2.setTis t { x with buffer := r, attempts := 0, sent := n }).tisBusy t b.1.length (n ≤ bits (g.tisCfg t) 39 32)).bump (Reg.tisTxOk t)).emit
        (.tisFrame t z.1)
      match b.2 with
      | some tag => g.fwStamped tag g.now
      | none => g

/-- MAC_FRAME_START: the MACs of E0–E11, K0 and K1 are 0 to 13, those of S0–S7 are 14 to 21. An S port sends when the
segment lets it, which the command says. [Log 41: DESIGN CHOICE] -/
def execMacFrameStart (x : MacStart) (s : State) : Host.Outcome State Fault Refusal :=
  answer (onGw (fun g => if 14 ≤ x.port then g.tisSent (x.port - 14) else g.macStart x.port x.bad)) s

/-- A transmit attempt ended in collision (R276). -/
def Gw.tisCollision (g : Gw) (t : Nat) : Gw :=
  let x := g.tisAt t
  match x.buffer with
  | [] => g
  | _ :: r =>
    if !g.tisOn t then g
    else
      let g := g.bump (Reg.tisColCnt t)
      if bits (g.tisCfg t) 20 16 ≤ x.attempts + 1 then
        let g := (g.setTis t { x with buffer := r, attempts := 0 }).bump (Reg.tisExcolCnt t)
        if g.str.run then { g with undefEgress := g.undefEgress ||| 2 ^ (32 + t) } else g
      else g.setTis t { x with attempts := x.attempts + 1 }

def execTisCollision (p : Nat) (s : State) : Host.Outcome State Fault Refusal :=
  answer (onGw (fun g => g.tisCollision p)) s

/-- A follower without a BEACON for 4 ms falls back to CSMA/CD (R275). -/
def Gw.beaconLoss (g : Gw) (t : Nat) : Gw :=
  let x := g.tisAt t
  if g.tisOn t && g.plcaFollower t && !x.fallback && x.lastBeacon + 4 * ticksPerMs ≤ g.tb.tick then
    (g.setTis t { x with fallback := true, beacon := false }).bump (Reg.tisBcnLossCnt t)
  else g

def execPlcaBeaconLoss (p : Nat) (s : State) : Host.Outcome State Fault Refusal :=
  answer (onGw (fun g => g.beaconLoss p)) s

/-- A BEACON is seen: a follower is in PLCA (R275). -/
def Gw.beaconSeen (g : Gw) (t : Nat) : Gw :=
  if g.tisOn t && g.plcaFollower t then
    g.setTis t { g.tisAt t with fallback := false, beacon := true, lastBeacon := g.tb.tick, sent := 0 }
  else g

def execPlcaBeaconReceive (p : Nat) (s : State) : Host.Outcome State Fault Refusal :=
  answer (onGw (fun g => g.beaconSeen p)) s

end Sys2Proof.Machine
end

