-- ==== Sys2Proof/Machine/Mka.lean ====
section
/-! DEFINITION. MKA key agreement (R525): MKA_PDU_RECEIVE and MKA_TIMER. What an MKPDU holds, its integrity check, the
derivation of ICK and KEK and the life of a peer are those of IEEE 802.1X-2020. -/

namespace Sys2Proof.Machine

def Gw.mkaAt (g : Gw) (p : Nat) : Mka := mgetD g.mka p {}
def Gw.setMka (g : Gw) (p : Nat) (x : Mka) : Gw := { g with mka := mset g.mka p x }

/-- The CAK of a port (R525, R645): the value of a VALID DERIVE slot whose label has USE MKA_CAK. -/
def Gw.mkaCak (g : Gw) (p : Nat) : Option (List Byte) :=
  let k := g.keys.at' (g.param (Par.mkaCak p))
  if g.param (Par.mkaCak p) < 4096 && k.attr = 3 && byteAt k.label 1 = 3 then g.keys.keyOf (g.param (Par.mkaCak p)) else none

/-- MKA runs on a port: a CAK is configured and pair 0 runs (R525, R760). -/
def Gw.mkaOn (g : Gw) (p : Nat) : Bool := p < 14 && g.inService && g.pairRuns 0 && (g.mkaCak p).isSome

/-- The key derivation function of IEEE 802.1X-2020 with AES-CMAC, a key as long as the CAK. [Log 117: PRESUMED] -/
def mkaKdf (cak label context : List Byte) : List Byte :=
  ((List.range (cak.length / 16)).flatMap (fun i =>
    aesCmac cak ([BitVec.ofNat 8 (i + 1)] ++ label ++ [0] ++ context ++ beBytes 2 (8 * cak.length))))

/-- "IEEE8021 ICK" and "IEEE8021 KEK". -/
def mkaIckLabel : List Byte := [0x49, 0x45, 0x45, 0x45, 0x38, 0x30, 0x32, 0x31, 0x20, 0x49, 0x43, 0x4B]
def mkaKekLabel : List Byte := [0x49, 0x45, 0x45, 0x45, 0x38, 0x30, 0x32, 0x31, 0x20, 0x4B, 0x45, 0x4B]

/-- ICK and KEK derived from a port's CAK into the two slots that only the firmware can name (R525). -/
def Gw.mkaDerive (g : Gw) (p : Nat) : Gw :=
  match g.mkaCak p with
  | some cak =>
    let id := padTo 16 (Config.mkaCkn p)
    { g with keys := { g.keys with
        fw := mset (mset g.keys.fw (2 * p) (mkaKdf cak mkaIckLabel id)) (2 * p + 1) (mkaKdf cak mkaKekLabel id) } }
  | none => g

/-- The ICK and the KEK of a port. -/
def Gw.mkaIck (g : Gw) (p : Nat) : List Byte := mgetD g.keys.fw (2 * p) []
def Gw.mkaKek (g : Gw) (p : Nat) : List Byte := mgetD g.keys.fw (2 * p + 1) []

/-- The port's own SCI: its station address and port number 1. -/
def Gw.ownSci (g : Gw) (p : Nat) : Nat := fromBe (leBytes 6 (g.param (Par.ethSaddr p))) * 65536 + 1

/-- Peers that have not expired, and of them those that list this module. [Log 117: PRESUMED] -/
def Gw.mkaHeard (g : Gw) (p : Nat) : Map MkaPeer := (g.mkaAt p).peers.filter (fun q => g.tb.tick < q.2.till)
def Gw.mkaLive (g : Gw) (p : Nat) : Map MkaPeer := (g.mkaHeard p).filter (·.2.live)

/-- The module is key server of a port: no live peer has a better priority, the lower SCI deciding ties. -/
def Gw.keyServer (g : Gw) (p : Nat) : Bool :=
  (g.mkaLive p).all (fun q => Config.mkaPriority < q.2.prio || (Config.mkaPriority = q.2.prio && g.ownSci p < q.1))

/-- The peer that is key server of a port. -/
def Gw.serverPeer (g : Gw) (p sci : Nat) : Bool :=
  !g.keyServer p &&
    (match leastBy (fun (a b : Nat × MkaPeer) => a.2.prio < b.2.prio || (a.2.prio = b.2.prio && a.1 < b.1)) (g.mkaLive p) with
      | some q => decide (q.1 = sci)
      | none => false)

/-- The peers of a list. -/
def mkaList (l : List (Nat × Nat)) : List Byte := l.flatMap (fun q => beBytes 12 q.1 ++ beBytes 4 q.2)

/-- The bytes that the ICV of an MKPDU covers: addresses, EtherType and EAPOL header, the basic parameter set, the peer
lists and the distributed SAK. [Log 117: PRESUMED] -/
def mkpduBytes (p sci prio : Nat) (x : Mkpdu) : List Byte :=
  let ckn := Config.mkaCkn p
  let basic := beBytes 8 sci ++ beBytes 12 x.mi ++ beBytes 4 x.mn ++ [0x00, 0x80, 0xC2, 0x01] ++ ckn
  let pad := List.replicate ((4 - ckn.length % 4) % 4) 0
  let head := [3, BitVec.ofNat 8 prio] ++ beBytes 2 (atBit 15 x.server + 0x6000 + basic.length) ++ basic ++ pad
  let peers := fun (typ : Nat) (l : List (Nat × Nat)) =>
    if l.isEmpty then [] else [BitVec.ofNat 8 typ, 0] ++ beBytes 2 (16 * l.length) ++ mkaList l
  let dist : List Byte := match x.dist with
    | some (an, kn, w) => [4, BitVec.ofNat 8 (an % 4 * 64 + 16)] ++ beBytes 2 (12 + w.length) ++ beBytes 4 kn ++
        [0x00, 0x80, 0xC2, 0x00, 0x01, 0x00, 0x00, 0x02] ++ w
    | none => []
  let body := head ++ peers 1 x.live ++ peers 2 x.potential ++ dist
  [0x01, 0x80, 0xC2, 0x00, 0x00, 0x03] ++ (beBytes 8 sci).take 6 ++ [0x88, 0x8E, 3, 5] ++ beBytes 2 (body.length + 16) ++ body

/-- The ICV of an MKPDU under a port's ICK. [Log 117: PRESUMED] -/
def Gw.mkpduIcv (g : Gw) (p sci prio : Nat) (x : Mkpdu) : List Byte :=
  aesCmac (g.mkaIck p) (mkpduBytes p sci prio x)

/-- Two SAK slots for a port: free ones of KEY_MKA_SLOTS, or the port's own when none is free. -/
def Gw.sakSlots (g : Gw) (p : Nat) : Option (Nat × Nat) :=
  let held : List Nat := g.mka.flatMap (fun (q : Nat × Mka) => q.2.encSlot.toList ++ q.2.decSlot.toList)
  match (bitList 64 (g.param Par.keyMkaSlots)).filter (fun i => !held.contains i) with
  | a :: b :: _ => some (a, b)
  | _ =>
    match (g.mkaAt p).encSlot, (g.mkaAt p).decSlot with
    | some a, some b => some (a, b)
    | _, _ => none

/-- A SAK written into an ENC slot and a DEC slot through the KEY_PRIV_ registers (R525, R543), the slots' HOST_USE 0.
[Log 117: PRESUMED] -/
def Gw.putSak (g : Gw) (a b : Nat) (sak : List Byte) : Gw :=
  let k := fun (attr : Nat) => ({ state := 1, attr := attr, len256 := true, value := sak } : KeySlot)
  ((g.privGo a (k 0)).privGo b (k 1)).writeAll

/-- A SAK put to use on a port: the firmware installs its transmit SA and one receive SA for every live peer through T3
at a stamp of its choice (R525). `drawn`: the module has drawn it as key server. -/
def Gw.useSak (g : Gw) (p an kn : Nat) (sak : List Byte) (drawn : Bool) : Gw :=
  match g.sakSlots p with
  | none => g.note "no SAK slot" [p]
  | some (a, b) =>
    let g := g.putSak a b sak
    let x := g.mkaAt p
    let g := g.setMka p { x with an := an, encSlot := some a, decSlot := some b, keyNum := kn, want := false,
                                 sak := if drawn then sak else [] }
    let g := (g.mkaLive p).foldl (fun g (q : Nat × MkaPeer) => g.fwChange (.mkaInstall p true an q.1 b)) g
    g.fwChange (.mkaInstall p false an (g.ownSci p) a)

/-- The peers of a port after an MKPDU that passed its check: the sender is live when it lists the module's member
identifier; a new live peer, or one with a new identifier, asks for a SAK. [Log 117: PRESUMED] -/
def Mka.hear (x : Mka) (sci prio : Nat) (pdu : Mkpdu) (tick : Nat) : Mka :=
  let live := x.mi ≠ 0 && (pdu.live ++ pdu.potential).any (fun q => q.1 = x.mi)
  let fresh := match mget? x.peers sci with
    | some y => !y.live || y.mi ≠ pdu.mi || y.till ≤ tick
    | none => true
  { x with peers := mset x.peers sci { prio := prio, mi := pdu.mi, mn := pdu.mn, live := live, till := tick + 6000 * ticksPerMs },
           want := x.want || (live && fresh) }

/-- An MKPDU repeats a message number of its sender. -/
def Mka.stale (x : Mka) (sci : Nat) (pdu : Mkpdu) : Bool :=
  match mget? x.peers sci with
  | some y => y.mi = pdu.mi && pdu.mn ≤ y.mn
  | none => false

/-- A received MKPDU: one with a wrong ICV, or a repeated message number, is dropped; otherwise its sender is heard, and a
SAK that the key server distributes is installed (R525). [Log 117: PRESUMED] -/
def Gw.mkaReceive (g : Gw) (p sci prio : Nat) (pdu : Mkpdu) : Gw :=
  if !g.mkaOn p then g
  else
    let g := g.mkaDerive p
    if pdu.icv ≠ g.mkpduIcv p sci prio pdu || (g.mkaAt p).stale sci pdu then g
    else
      let g := g.setMka p ((g.mkaAt p).hear sci prio pdu g.tb.tick)
      match pdu.dist with
      | some (an, kn, wrapped) =>
        if g.serverPeer p sci then
          match keyUnwrap (g.mkaKek p) wrapped with
          | some sak => g.useSak p (an % 4) kn sak false
          | none => g
        else g
      | none => g

def execMkaPduReceive (p sci prio : Nat) (pdu : Mkpdu) (s : State) :
    Host.Outcome State Fault Refusal := answer (onGw (fun g => g.mkaReceive p sci prio pdu)) s

/-- An installation of SAs on a port waits for its stamp. -/
def Gw.mkaWaits (g : Gw) (p : Nat) : Bool :=
  g.str.changes.any (fun c => match c.act with
    | .firmware (.mkaInstall q _ _ _ _) => q = p
    | _ => false)

/-- The module's member identifier on a port, drawn when MKA starts there. [Log 117: PRESUMED] -/
def Gw.mkaStart (g : Gw) (p : Nat) : Gw :=
  if (g.mkaAt p).mi ≠ 0 then g
  else g.draw.setMka p { g.mkaAt p with mi := fromBe (padTo 12 (Config.random g.free 12)) ||| 1 }

/-- A new SAK is due on a port: the module is key server, and a peer has come or a PN is near its end.
[Log 117: PRESUMED] -/
def Gw.sakDue (g : Gw) (p : Nat) : Bool :=
  g.keyServer p && !(g.mkaLive p).isEmpty && ((g.mkaAt p).want || (g.ethAt p).txSa.any SecAssoc.thr) && g.trngOk && !g.mkaWaits p

/-- The MKPDU that a port sends next. -/
def Gw.mkpduNext (g : Gw) (p : Nat) (dist : Option (Nat × Nat × List Byte)) : Mkpdu :=
  let list := fun (live : Bool) => ((g.mkaHeard p).filter (fun q => q.2.live = live)).map (fun q => (q.2.mi, q.2.mn))
  { server := g.keyServer p, mi := (g.mkaAt p).mi, mn := (g.mkaAt p).msg, live := list true, potential := list false, dist := dist }

/-- The periodic MKPDU; as key server, a new SAK is drawn when a peer has come or a PN is near its end, and goes out
wrapped under the KEK (R525). [Log 117: PRESUMED] -/
def Gw.mkaTimer (g : Gw) (p : Nat) : Gw :=
  if !g.mkaOn p then g
  else
    let g := (g.mkaDerive p).mkaStart p
    let x := g.mkaAt p
    let g := g.setMka p { x with msg := x.msg + 1 }
    let due := g.sakDue p
    let sak := padTo 32 (Config.random g.free 32)
    let an := if x.keyNum = 0 then 0 else (x.an + 1) % 4
    let g := if due then g.draw.useSak p an (x.keyNum + 1) sak true else g
    let dist := if due then some (an, x.keyNum + 1, keyWrap (g.mkaKek p) sak) else none
    let pdu := g.mkpduNext p dist
    g.fwSend 0 (2 ^ macFabric p) 7 (mkpduBytes p (g.ownSci p) Config.mkaPriority pdu ++
      g.mkpduIcv p (g.ownSci p) Config.mkaPriority pdu)

def execMkaTimer (p : Nat) (s : State) : Host.Outcome State Fault Refusal :=
  answer (onGw (fun g => g.mkaTimer p)) s

end Sys2Proof.Machine
end

