-- ==== Sys2Proof/Machine/Time.lean ====
section
/-! DEFINITION. The timebase (R394–R405): ticks, INCR, steps, the servo and its sources. Commands: TB_EPOCH,
DISTRIBUTION_ERROR, INCR_APPLY, STEP_APPLY, SERVO_SAMPLE, HOLDOVER_QUALITY_UPDATE, PPS_IN_EDGE, REF10_EDGE, PPS_OUT_PULSE and
the time-event commands TEV_; SOURCE_LOSS stands with the chain. -/

namespace Sys2Proof.Machine

/-! ### INCR (R395, R396) -/

/-- 1.999 ns and 2.001 ns in the 8.40 format. -/
def incrMin : Nat := 2197923743925
def incrMax : Nat := 2200122767179

/-- The number of the present tick, counted from TB island start (R324). -/
def Gw.tickNo (g : Gw) : Nat := g.tb.tick - g.tb.start

/-- The first tick at or after `t` whose number is a multiple of 16 (R396, R398). -/
def Gw.boundary (g : Gw) (t : Nat) : Nat := g.tb.start + ceilDiv (t - g.tb.start) 16 * 16

/-- The firmware writes INCR (R395–R397). -/
def Gw.writeIncr (g : Gw) (v : Nat) : Gw :=
  let c := max incrMin (min incrMax v)
  let g := if c = v then g else (g.bump Reg.tbClampCnt).flag Reg.tbFlag 0x08000000
  { g with tb := { g.tb with incrNext := g.tb.incrNext ++ [(g.boundary (g.tb.tick + 16), c)] } }

/-- A new INCR takes effect at its tick; of several written, each at its own (R396). The span of REF10_IN edges begins anew
with it (R437). -/
def Gw.applyIncr (g : Gw) : Gw :=
  match g.tb.incrNext.filter (fun q => q.1 ≤ g.tb.tick) with
  | [] => g
  | q :: r =>
    { g with tb := { g.tb with incr := ((q :: r).getLastD q).2, refEdges := 0,
                               incrNext := g.tb.incrNext.filter (fun q => g.tb.tick < q.1) } }

def execIncrApply (s : State) : Host.Outcome State Fault Refusal :=
  answer (onGw (fun g => if g.islOn 12 then g.applyIncr else g)) s

/-! ### Time-event outputs (R426–R432) -/

def Gw.tevAt (g : Gw) (n : Nat) : TevOut := mgetD g.tevOut n {}
def Gw.setTev (g : Gw) (n : Nat) (x : TevOut) : Gw := { g with tevOut := mset g.tevOut n x }

/-- MODE and POL of an output. -/
def Gw.tevMode (g : Gw) (n : Nat) : Nat := bits (g.regN (Reg.tevOutCfg n)) 29 28
def Gw.tevPol (g : Gw) (n : Nat) : Bool := bit (g.regN (Reg.tevOutCfg n)) 27

/-- t_k of the active set, the product exact (R426). -/
def Gw.tevTime (g : Gw) (n : Nat) (x : TevOut) (k : Nat) : Stamp :=
  x.start + Int.ofNat (k * x.per / 65536) + g.paramI (Par.tevAdj n)

/-- The time of an output's next event; 0 before a set was copied (R442). -/
def Gw.tevNext (g : Gw) (n : Nat) : Stamp := let x := g.tevAt n; if x.armed then g.tevTime n x x.k else 0

/-- Events of the active set: one when PER is 0, else COUNT, or none named when COUNT is 0. -/
def TevOut.events (x : TevOut) : Option Nat := if x.per = 0 then some 1 else if x.count = 0 then none else some x.count

/-- How many events of the active set fall before stamp `b`. -/
def Gw.tevBefore (g : Gw) (n : Nat) (x : TevOut) (b : Stamp) : Nat :=
  let d := (b - x.start - g.paramI (Par.tevAdj n)).toNat
  let all := if d = 0 then 0 else if x.per = 0 then 1 else ceilDiv (d * 65536) x.per
  match x.events with
  | some c => min all c
  | none => all

/-- The level of an output's ball. -/
def Gw.tevDrive (g : Gw) (n : Nat) (level : Bool) (t : Stamp) : Gw :=
  g.emit (.pin "TEV_OUT" n (level != g.tevPol n) t)

/-- Events missed up to `k`: counted, and the output stops after its last event (R429, R431). -/
def Gw.tevMiss (g : Gw) (n k : Nat) : Gw :=
  let x := g.tevAt n
  if k ≤ x.k then g
  else
    let g := (g.bumpN (Reg.tevOutMiss n) (k - x.k)).flag Reg.tbFlag 0x02000000
    g.setTev n { x with k := k, active := x.active && x.events != some k }

/-- The staged set of an output (R429, R442). -/
def Gw.tevStaged (g : Gw) (n : Nat) : TevOut :=
  let r := fun (o : Nat) => g.regN o
  { start := Int.ofNat (r (Reg.tevOutStartLo n) + 4294967296 * r (Reg.tevOutStartHi n)),
    per := r (Reg.tevOutPerFrac n) % 65536 + 65536 * (r (Reg.tevOutPerLo n) + 4294967296 * (r (Reg.tevOutPerHi n) % 65536)),
    width := r (Reg.tevOutWidth n), count := r (Reg.tevOutCount n), active := true, armed := true }

/-- A host write to TEV_OUT_CFG: no effect on an output of the firmware (R432); ARM asks for the copy at the next 16-tick
boundary (R429); MODE 0 stops the output after a pulse in progress, and an output that is not active drives its inactive
level, as POL now has it (R427, R430). [Log 98: DEDUCED] -/
def Gw.tevCfgWrite (g : Gw) (n : Nat) (v : W32) : Gw :=
  if bit (g.param Par.tevOwn) n then g
  else
    let ball := (g.tevAt n).level != g.tevPol n
    let g := g.plainWrite (Reg.tevOutCfg n) v
    let x := g.tevAt n
    let x := if bit v.toNat 31 then { x with armTick := some (g.boundary (g.tb.tick + 1)) } else x
    let x := if bits v.toNat 29 28 % 3 = 0 && x.pulseEnd.isNone then { x with active := false, level := false } else x
    let g := g.setTev n x
    if (x.level != g.tevPol n) = ball then g else g.tevDrive n x.level g.now

def execTevOutArm (n : Nat) (value : W32) (s : State) : Host.Outcome State Fault Refusal :=
  answer (onGw (fun g => if n < 16 && g.islOn 12 then g.tevCfgWrite n (value ||| 0x80000000) else g)) s

def execTevOutModeOff (n : Nat) (value : W32) (s : State) : Host.Outcome State Fault Refusal :=
  answer (onGw (fun g => if n < 16 && g.islOn 12 then g.tevCfgWrite n (value &&& 0xCFFFFFFF) else g)) s

/-- The staged set becomes the active set at its boundary; events less than 32 ns after it, or before the end of a pulse
in progress, are missed (R429, R430). [Log 98: DEDUCED] -/
def Gw.tevCopy (g : Gw) (n : Nat) : Gw :=
  let x := g.tevAt n
  match x.armTick with
  | some t =>
    if g.tb.tick < t then g
    else
      let g := g.setRegN (Reg.tevOutCfg n) (setBits (g.regN (Reg.tevOutCfg n)) 31 31 0)
      let y : TevOut := { g.tevStaged n with level := x.level, pulseEnd := x.pulseEnd }
      let floor : Stamp := max (g.now + 256) (x.pulseEnd.getD 0)
      (g.setTev n y).tevMiss n (g.tevBefore n y floor)
  | none => g

def execTevOutSetCopy (n : Nat) (s : State) : Host.Outcome State Fault Refusal :=
  answer (onGw (fun g => if n < 16 && g.islOn 12 then g.tevCopy n else g)) s

/-- The copies that fall at the present tick (R429). [Log 98: DEDUCED] -/
def Gw.tevCopies (g : Gw) : Gw := (List.range 16).foldl Gw.tevCopy g

/-- The pulse of output `n` ends (R427, R430). -/
def Gw.tevPulseEnd (g : Gw) (n : Nat) : Gw :=
  let x := g.tevAt n
  match x.pulseEnd with
  | some t =>
    if g.nowLast < t then g
    else
      let stop := g.tevMode n % 3 = 0
      (g.setTev n { x with level := false, pulseEnd := none, active := x.active && !stop }).tevDrive n false t
  | none => g

/-- The next event of an output falls (R426, R427), after the end of the pulse before it. -/
def Gw.tevEvent (g : Gw) (n : Nat) : Gw :=
  let y := g.tevAt n
  let t := g.tevTime n y y.k
  let mode := g.tevMode n
  if !y.active || g.nowLast < t || (mode ≠ 1 && mode ≠ 2) then g
  else
    let g := if y.pulseEnd.any (fun e => decide (e ≤ t)) then g.tevPulseEnd n else g
    let x := g.tevAt n
    let pulse := mode = 1
    let level := if pulse then true else !x.level
    let ending : Option Stamp := if pulse then some (t + Int.ofNat x.width) else none
    let y := { x with k := x.k + 1, level := level, pulseEnd := ending, active := x.events != some (x.k + 1) }
    (g.setTev n y).tevDrive n level t

def execTevOutEvent (n : Nat) (s : State) : Host.Outcome State Fault Refusal :=
  answer (onGw (fun g => if n < 16 && g.islOn 12 then g.tevEvent n else g)) s

/-! ### PPS_OUT (R435) -/

def Gw.ppsCfg (g : Gw) : Nat := g.param Par.tbPps

/-- The first DT at or after stamp `t` at which DT less OFS_NS is a whole second, in ST64 units. -/
def Gw.ppsAfter (g : Gw) (t : Stamp) : Stamp :=
  let o := 8 * asI32 (bits g.ppsCfg 31 0)
  o - (-(t - o) / 8000000000) * 8000000000

/-- The next whole second is that at or after the present stamp: TB_PPS was set. -/
def Gw.ppsArm (g : Gw) : Gw := { g with tb := { g.tb with ppsNext := some (g.ppsAfter g.now) } }

/-- OUT_GATE lets PPS_OUT pulse only while LOCKED or in HOLDOVER. -/
def Gw.ppsOpen (g : Gw) : Bool := bit g.ppsCfg 63 && (!bit g.ppsCfg 60 || g.tb.servo = .locked || g.tb.servo = .holdover)

/-- A whole second comes. -/
def Gw.ppsPulse (g : Gw) : Gw :=
  let t := g.tb.ppsNext.getD (g.ppsAfter g.now)
  if g.nowLast < t then { g with tb := { g.tb with ppsNext := some t } }
  else
    let g := { g with tb := { g.tb with ppsNext := some (t + 8000000000) } }
    if g.ppsOpen then
      { g with tb := { g.tb with ppsOn := true, ppsEnd := some (t + 8000 * Int.ofNat (bits g.ppsCfg 51 32)) } }.emit
        (.pin "PPS_OUT" 0 true t)
    else g

def execPpsOutPulse (s : State) : Host.Outcome State Fault Refusal :=
  answer (onGw (fun g => if g.islOn 12 then g.ppsPulse else g)) s

/-- A pulse ends: of output `n`, or of PPS_OUT for 16 (R427, R430, R435). -/
def Gw.pulseEnds (g : Gw) (n : Nat) : Gw :=
  if n = 16 then
    match g.tb.ppsEnd with
    | some t =>
      if g.nowLast < t then g
      else { g with tb := { g.tb with ppsOn := false, ppsEnd := none } }.emit (.pin "PPS_OUT" 0 false t)
    | none => g
  else g.tevPulseEnd n

def execTevOutPulseEnd (n : Nat) (s : State) : Host.Outcome State Fault Refusal :=
  answer (onGw (fun g => if n ≤ 16 && g.islOn 12 then g.pulseEnds n else g)) s

/-- Outputs at a step tick: pulses end, events passed over are missed, none is produced twice (R431).
[Log 97: DEDUCED] -/
def Gw.tevStep (g : Gw) : Gw :=
  let g := (List.range 16).foldl (fun g n =>
    let x := g.tevAt n
    let g := if x.pulseEnd.isSome then
        (g.setTev n { x with level := false, pulseEnd := none, active := x.active && g.tevMode n % 3 ≠ 0 }).tevDrive n false
          g.now
      else g
    if (g.tevAt n).active then g.tevMiss n (g.tevBefore n x g.now) else g) g
  let g := if g.tb.ppsEnd.isSome then
      { g with tb := { g.tb with ppsOn := false, ppsEnd := none } }.emit (.pin "PPS_OUT" 0 false g.now)
    else g
  match g.tb.ppsNext with
  | some t =>
    if t < g.now then
      let g := if g.ppsOpen then g.flag Reg.tbFlag 0x02000000 else g
      { g with tb := { g.tb with ppsNext := some (g.ppsAfter g.now) } }
    else g
  | none => g

/-! ### Time-event inputs (R433, R434) -/

def Gw.tevInAt (g : Gw) (n : Nat) : TevIn := mgetD g.tevIn n {}
def Gw.setTevIn (g : Gw) (n : Nat) (x : TevIn) : Gw := { g with tevIn := mset g.tevIn n x }

def Gw.tevEdge (g : Gw) (n : Nat) (rise : Bool) (phase : Nat) : Gw :=
  let cfg := g.regN (Reg.tevInCfg n)
  let x := g.tevInAt n
  let t := g.tb.stamp phase
  if !bit cfg 31 || !bit cfg (if rise then 29 else 30) then g
  else if (match x.last with
      | some l => decide (t - l < 32)
      | none => false) then
    (g.bump (Reg.tevInFastcnt n)).flag (Reg.tevInStat n) 0x40000000
  else
    let e : TevEntry := { stamp := t, rise := rise, seg := g.tb.seg, seq := x.seq }
    let full := 32 ≤ x.queue.length
    let g := g.setTevIn n { x with last := some t, seq := (x.seq + 1) % 65536, queue := if full then x.queue else x.queue ++ [e] }
    if full then (g.flag (Reg.tevInStat n) 0x80000000).bump (Reg.tevInLost n) else g

def execTevInEdge (n : Nat) (rise : Bool) (phase : Nat) (s : State) : Host.Outcome State Fault Refusal :=
  answer (onGw (fun g => if n < 16 && g.islOn 12 then g.tevEdge n rise phase else g)) s

/-- The words of an input entry (R443). -/
def tevWords : Option TevEntry → List Nat
  | some e => [stampLo e.stamp, stampHi e.stamp, e.seq % 65536 * 65536 + e.seg % 65536, 2 ^ 31 + atBit 30 e.rise]
  | none => [0, 0, 0, 0]

def Gw.tevInRead0 (g : Gw) (n : Nat) : Gw :=
  let x := g.tevInAt n
  let ws := tevWords x.queue.head?
  (g.setTevIn n { x with latched := ws, armed := !x.queue.isEmpty }).emit (.readData (Reg.tevInEnt0 n) (w32 (ws.getD 0 0)))

def Gw.tevInRead3 (g : Gw) (n : Nat) : Gw :=
  let x := g.tevInAt n
  (g.setTevIn n { x with armed := false, queue := if x.armed then x.queue.drop 1 else x.queue }).emit
    (.readData (Reg.tevInEnt3 n) (w32 (x.latched.getD 3 0)))

def execTevInEnt0Read (n : Nat) (s : State) : Host.Outcome State Fault Refusal :=
  answer (onGw (fun g => if n < 16 && g.islOn 12 then g.tevInRead0 n else g.emit (.readData (Reg.tevInEnt0 n) 0))) s

def execTevInEnt3Read (n : Nat) (s : State) : Host.Outcome State Fault Refusal :=
  answer (onGw (fun g => if n < 16 && g.islOn 12 then g.tevInRead3 n else g.emit (.readData (Reg.tevInEnt3 n) 0))) s

/-! ### Epochs, distribution errors (R25, R324) -/

/-- Every 65,536th tick each controller records a pair (R324). -/
def Gw.doEpoch (g : Gw) : Gw :=
  let n := g.tickNo
  if n % 65536 = 0 && g.tb.epoch < n / 65536 then
    { g with tb := { g.tb with epoch := n / 65536 } }.recordPairs addEpoch
  else g

def execTbEpoch (s : State) : Host.Outcome State Fault Refusal :=
  answer (onGw (fun g => if g.islOn 12 then g.doEpoch else g)) s

/-- A stamp unit reports a missed or doubled tick and reloads its replica at the next tick; until then it is a tick behind or
ahead (R25). The firmware treats the report as a detected error. -/
def Gw.distError (g : Gw) (island : Nat) (doubled : Bool) : Gw :=
  let g : Gw := { g with tb := { g.tb with replica := mset g.tb.replica island (if doubled then 1 else -1) } }
  ((g.bump Reg.tbDistErrCnt).flag Reg.tbFlag 0x80000000).detect 6 (island % 16) (island % 16) (island % 16)

def execDistributionError (miss : DistMiss) (s : State) : Host.Outcome State Fault Refusal :=
  answer (onGw (fun g => if g.islOn 12 && g.islOn miss.island then g.distError miss.island miss.doubled else g)) s

/-! ### Steps (R398, R399, R417, R418) -/

/-- A step is refused while one is pending or an old segment closes (R399). -/
def Gw.stepBusy (g : Gw) : Bool := g.str.closing.isSome || g.tb.step.isSome || !g.tb.stepQueue.isEmpty

/-- A step request: no earlier than 256 ticks on, at a 16-tick boundary (R398). `delta` is in 2⁻¹⁶ ns. -/
def Gw.askStep (g : Gw) (delta : Int) (instant : Option Stamp) (mbx : Option Nat) : Gw :=
  let first := if instant.isSome then g.boundary g.tb.tick else g.boundary (g.tb.tick + 256)
  let r : StepReq := { delta := delta, notBefore := first, instant := instant, mbx := mbx }
  { g with tb := { g.tb with step := some r } }

/-- An announced step: pending when none is, else queued (R417, R418). [Log 99: DEDUCED] -/
def Gw.announced (g : Gw) (delta : Int) (instant : Stamp) : Gw :=
  if g.stepBusy then
    let r : StepReq := { delta := delta, notBefore := 0, instant := some instant }
    { g with tb := { g.tb with stepQueue := g.tb.stepQueue ++ [r] } }
  else g.askStep delta (some instant) none

/-- A handover has come to its epoch and not ended: no INCR is written and no step made (R790). -/
def Gw.handing (g : Gw) : Bool := g.ho.any (fun h => h.started)

/-- The step that falls at the present tick. [Log 99: DEDUCED] -/
def Gw.dueStep (g : Gw) : Option (StepReq × List StepReq) :=
  let ready := fun (r : StepReq) => !g.handing && g.tickNo % 16 = 0 && r.notBefore ≤ g.tb.tick &&
    (match r.instant with
      | some t => decide (t ≤ g.now)
      | none => true)
  match g.tb.step with
  | some r => if ready r then some (r, g.tb.stepQueue) else none
  | none =>
    match g.tb.stepQueue with
    | r :: rest => if ready r && g.str.closing.isNone then some (r, rest) else none
    | [] => none

/-- Stamps that the ports, controllers and inputs still have to reach or to compare with move with the step (R859).
[Log 30: DEDUCED, 97: DEDUCED] -/
def Gw.shiftStamps (g : Gw) (d : Int) : Gw :=
  let eth := fun (x : EthPort) =>
    { x with pauseUntil := x.pauseUntil.map (· + d), pauseSince := x.pauseSince.map (· + d),
             ignoreUntil := x.ignoreUntil.map (· + d), refreshAt := x.refreshAt.map (· + d), wireFree := x.wireFree + d,
             jobs := x.jobs.map (fun (j : MacJob) => { j with staged := j.staged + d }),
             onWire := x.onWire.map (fun (w : Sel) =>
               { w with launch := w.launch + d, ext := w.ext.map (fun r => (r.1 + d, r.2)) }) }
  let can := fun (x : CanCtl) =>
    { x with reqTime := x.reqTime.map (fun (q : Nat × Stamp) => (q.1, q.2 + d)),
             coll := x.coll.map (fun (e : CollEntry) => { e with times := e.times.map (· + d) }) }
  let before := g.str.run && g.now - d < g.str.startStamp
  let str := if before then { g.str with startStamp := g.str.startStamp + d, startSeg := g.tb.seg } else g.str
  { g with eth := g.eth.map (fun (q : Nat × EthPort) => (q.1, eth q.2)),
           can := g.can.map (fun (q : Nat × CanCtl) => (q.1, can q.2)),
           tevIn := g.tevIn.map (fun (q : Nat × TevIn) => (q.1, { q.2 with last := q.2.last.map (· + d) })),
           tb := { g.tb with lossStamp := g.tb.lossStamp + d, samples := [], lastOffs := none, refEdges := 0,
                             ppsInLast := g.tb.ppsInLast.map (· + d) }, str := str }

/-- Instances keep their own time across a step (R409). -/
def Gw.stepGptp (g : Gw) (delta : Int) : Gw :=
  { g with gptp := g.gptp.map (fun (q : Nat × Gptp) =>
      (q.1, { q.2 with offset := q.2.offset - delta, offAt := q.2.offAt + delta })) }

/-- The step tick (R398): DT80 takes the value it would have had plus the delta, the segment advances, and Strata goes on
with the old segment until it closes (R75). [Log 97: DEDUCED] -/
def Gw.takeStep (g : Gw) (r : StepReq) (rest : List StepReq) : Gw :=
  let old := g.tb.dt40
  let d := r.delta * 8 / 65536
  let late := match r.instant with
    | some t => g.now - t
    | none => 0
  let tb := { g.tb with acc := g.tb.acc + BitVec.ofInt 104 (r.delta * 16777216), seg := g.tb.seg + 1,
                        lastDelta := r.delta, step := none, stepQueue := rest }
  let str := { g.str with shift := mset g.str.shift tb.seg d,
                          closing := if g.str.run then some { delta := r.delta, oldDt := old } else g.str.closing,
                          relSeg := if g.str.run then g.str.relSeg else tb.seg }
  let g : Gw := { g with tb := tb, str := str }
  let g := if g.str.run then g else g.freshFrontier
  let g := ((g.bump Reg.tbStepCnt).flag Reg.tbFlag 0x40000000).recordPairs addStep
  let g := ((g.shiftStamps d).stepGptp r.delta).tevStep
  let g := if r.instant.isSome && 0 < late then g.note "late step" [late] else g
  match r.mbx with
  | some m => g.reply m stOk 0 [stampLo (g.tb.dt40 / 2 ^ 40), stampHi (g.tb.dt40 / 2 ^ 40), g.tb.seg % 65536]
  | none => g

def Gw.applyStep (g : Gw) : Gw :=
  match g.dueStep with
  | some (r, rest) => g.takeStep r rest
  | none => g

def execStepApply (s : State) : Host.Outcome State Fault Refusal :=
  answer (onGw (fun g => if g.islOn 12 then g.applyStep else g)) s

/-! ### The tick (R394, R47) -/

/-- The frontier follows device time at each tick, in a run or not, and never moves backward (R47); while an old segment
closes it follows the continuation of the old time (R75). -/
def Gw.moveFrontier (g : Gw) : Gw :=
  let t := g.orderNow - 8 * Int.ofNat g.hNs
  { g with str := { g.str with frontier := max g.str.frontier t } }

/-- One tick of the timebase: what falls at the present tick is done, then the accumulator advances by INCR. The tick
number, which also measures the firmware's delays, goes on while the TB island is in reset. [Log 3: DESIGN CHOICE] -/
def Gw.tick (g : Gw) : Gw :=
  if g.islOn 12 then
    let g := ((g.applyIncr.applyStep).doEpoch).tevCopies
    let g := { g with tb := { g.tb with tick := g.tb.tick + 1, acc := g.tb.acc + BitVec.ofNat 104 g.tb.incr, replica := [] } }
    if g.islOn 0 then g.moveFrontier else g
  else { g with tb := { g.tb with tick := g.tb.tick + 1 } }

/-! ### Servo and sources (R400–R405) -/

def Gw.setServo (g : Gw) (sv : Servo) : Gw :=
  if g.tb.servo = sv then g
  else
    let g := { g with tb := { g.tb with servo := sv } }
    let g := if sv = .locked then g.flag Reg.tbFlag 0x04000000
      else if sv = .holdover then g.flag Reg.tbFlag 0x10000000 else g
    g.note "servo" [match sv with
      | .freerun => 0
      | .acquiring => 1
      | .locked => 2
      | .holdover => 3]

/-- The configured source to use among the valid ones: the primary first (R401, R404). -/
def Gw.wanted (g : Gw) : Nat :=
  let pri := g.param Par.tbSrcPri
  let sec := g.param Par.tbSrcSec
  if pri ≠ 0 && bit g.tb.valid pri then pri else if sec ≠ 0 && bit g.tb.valid sec then sec else 0

/-- A change of source (R404, R405): counted, flagged, ACQUIRING, and the next sample is the first. The first source after
none is such a change too. [Log 94: DEDUCED] -/
def Gw.sourceChange (g : Gw) (src : Nat) : Gw :=
  let g := { g with tb := { g.tb with src := src, firstSample := true, lockRun := 0, lastOffs := none } }
  (((g.bump Reg.tbSrcLossCnt).flag Reg.tbFlag 0x20000000).note "source" [src]).setServo .acquiring

/-- The square root of a number below 2^128, rounded down. -/
def isqrt (n : Nat) : Nat :=
  (List.range 64).foldr (fun b r => if (r + 2 ^ b) * (r + 2 ^ b) ≤ n then r + 2 ^ b else r) 0

/-- The servo's rms frequency error of the 60 s up to the present tick, in 0.001 ppb (R403). [Log 94: DEDUCED] -/
def Gw.servoError (g : Gw) : Nat :=
  let es := (g.tb.freqHist.filter (fun q => g.tb.tick < q.1 + 30000000000)).map (fun q => q.2.natAbs * q.2.natAbs)
  isqrt (es.sum / max 1 es.length)

/-- E(t) of R403 in ns: the fraction is cut off, and the value stops at all ones. [Log 94: DEDUCED] -/
def Gw.holdError (g : Gw) : Nat :=
  let u := (g.now - g.tb.lossStamp).toNat
  min 0xFFFFFFFF ((g.tb.holdE0 + g.tb.holdY * u * (16 * 10 ^ 9) + g.param Par.tbHoldAging * u * u) / (128 * 10 ^ 21))

/-- Entry into HOLDOVER: E0 from the last 16 samples, the servo's rms frequency error, and E(0) (R403). The 10 ms of TB_QUAL
count from here. [Log 94: DEDUCED] -/
def Gw.enterHoldover (g : Gw) : Gw :=
  let n := max 1 g.tb.offsHist.length
  let e0 := (g.tb.offsHist.map Int.natAbs).sum * (16 * 10 ^ 21) / n
  let g : Gw := { g with tb := { g.tb with holdE0 := e0, holdY := g.servoError, lossStamp := g.now },
                         timers := mset g.timers timerHoldover g.tb.tick }
  ({ g with tb := { g.tb with qual := g.holdError } } : Gw).setServo .holdover

/-- No configured source is left: HOLDOVER, or FREERUN when the servo has never been LOCKED (R402). [Log 94: DEDUCED] -/
def Gw.noSource (g : Gw) : Gw :=
  let g := ({ g with tb := { g.tb with src := 0, lockRun := 0 } } : Gw).note "source" [0]
  if g.tb.everLocked then g.enterHoldover else g.setServo .freerun

/-- A source becomes valid or a better one does (R402, R404). [Log 94: DEDUCED] -/
def Gw.reselect (g : Gw) : Gw :=
  let w := g.wanted
  if w = 0 || w = g.tb.src then g else g.sourceChange w

/-- The source in use is left: the servo goes on with the other one or without (R402, R404). -/
def Gw.leaveSource (g : Gw) : Gw := if g.wanted ≠ 0 then g.sourceChange g.wanted else g.noSource

/-- TB_SRC_PRI or TB_SRC_SEC was written: a source no longer configured is left, and with both at 0 the servo is in
FREERUN (R402). [Log 94: DEDUCED] -/
def Gw.sourcesSet (g : Gw) : Gw :=
  let pri := g.param Par.tbSrcPri
  let sec := g.param Par.tbSrcSec
  let g := if g.tb.src ≠ 0 && g.tb.src ≠ pri && g.tb.src ≠ sec then g.flag Reg.tbFlag 0x20000000 else g
  if pri = 0 && sec = 0 then
    let g := if g.tb.src = 0 then g else ({ g with tb := { g.tb with src := 0, lockRun := 0 } } : Gw).note "source" [0]
    g.setServo .freerun
  else if g.tb.src = 0 || g.tb.src = pri || g.tb.src = sec then g.reselect
  else g.leaveSource

/-- INCR at which 10^7 edges of REF10_IN span 10^9 ns of DT, from the frequency error in 0.001 ppb of a span of edges
(R437). -/
def refIncr (incr : Nat) (err : Int) : Nat := (Int.ofNat incr * 1000000000000 / (1000000000000 - err)).toNat

/-- The frequency error that a sample shows, in 0.001 ppb: for REF10_IN the sample itself, else the drift since the sample
before (R403). [Log 94: DEDUCED] -/
def Gw.freqError (g : Gw) (offs : Int) : Option Int :=
  if g.tb.src = 4 then some offs
  else g.tb.lastOffs.bind (fun l =>
    if g.now ≤ l.1 then none else some ((offs - l.2) * 1000000000000 / fine (g.now - l.1)))

/-- The servo's output limited to nominal INCR ± TB_SLEW_MAX_PPB (R400). [Log 93: DESIGN CHOICE] -/
def Gw.slew (g : Gw) (offs : Int) : Gw :=
  let bw := if g.tb.src = 2 then g.param Par.chnServoBwMhz else g.param Par.tbServoBwMhz
  let out := if g.tb.src = 4 then refIncr g.tb.incr offs else Config.servoOutput offs g.tb.incr bw g.free
  let lim := 2 ^ 41 * g.param Par.tbSlewMaxPpb / 1000000000
  g.draw.writeIncr (max (2 ^ 41 - lim) (min (2 ^ 41 + lim) out))

/-- One sample of the source in use: a step or a slew, then lock (R400, R402). For REF10_IN the sample is a frequency
error in 0.001 ppb. [Log 93: DESIGN CHOICE] -/
def Gw.useSample (g : Gw) (offs : Int) : Gw :=
  let freq := g.tb.src = 4
  let st := offs * 8 / 65536
  let mode := g.param Par.tbStepMode
  let far := !freq && 65536 * Int.ofNat (g.param Par.tbStepThreshNs) < (offs.natAbs : Int)
  let may := (mode = 2 || (mode = 1 && g.tb.firstSample)) && !g.stepBusy
  let inside : Bool := if freq then offs.natAbs ≤ 10000 else offs.natAbs ≤ 65536 * g.param Par.tbLockNs
  let tb := { g.tb with offs := if freq then g.tb.offs else st,
                        offsHist := if freq then g.tb.offsHist else (st :: g.tb.offsHist).take 16,
                        lastOffs := if freq then none else some (g.now, offs),
                        freqHist := ((g.freqError offs).map (fun e => (g.tb.tick, e))).toList ++
                          g.tb.freqHist.filter (fun q => g.tb.tick < q.1 + 30000000000),
                        lockRun := if inside then g.tb.lockRun + 1 else 0, firstSample := false,
                        samples := merase g.tb.samples g.tb.src }
  let g : Gw := { g with tb := tb }
  let g := if far && may then g.askStep offs none none else g.slew offs
  if g.tb.servo = .acquiring && g.param Par.tbLockCnt ≤ g.tb.lockRun then
    { g with tb := { g.tb with everLocked := true } }.setServo .locked
  else g

/-- A servo sample, when the source in use has one (R400). -/
def Gw.servoSample (g : Gw) : Gw :=
  if !g.islOn 12 || !g.pairRuns 0 || g.handing then g
  else
    let g := g.reselect
    match mget? g.tb.samples g.tb.src with
    | some o => g.useSample o
    | none => g

def execServoSample (s : State) : Host.Outcome State Fault Refusal := answer (onGw Gw.servoSample) s

/-- Every 10 ms of HOLDOVER TB_QUAL takes E(t) (R403). -/
def Gw.holdUpdate (g : Gw) : Gw :=
  if g.islOn 12 && g.pairRuns 0 && g.tb.servo = .holdover then
    g.every timerHoldover (10 * ticksPerMs) (fun g => { g with tb := { g.tb with qual := g.holdError } })
  else g

def execHoldoverQualityUpdate (s : State) : Host.Outcome State Fault Refusal := answer (onGw Gw.holdUpdate) s

/-- The grandmaster of the instance that the timebase follows has changed: a change of source (R404). -/
def Gw.gmWatch (g before : Gw) : Gw :=
  let w := g.param Par.tbWorkDom
  let was := (before.gptpAt w).gm
  if g.tb.src = 1 && was ≠ 0 && (g.gptpAt w).gm ≠ was then g.sourceChange 1 else g

/-- A source is no longer valid: SRC_LOSS for a configured one, and the servo leaves it (R402, R404).
[Log 94: DEDUCED] -/
def Gw.sourceOut (g : Gw) (src : Nat) : Gw :=
  let g := { g with tb := { g.tb with valid := setBits g.tb.valid src src 0, samples := merase g.tb.samples src } }
  let g := if src = g.param Par.tbSrcPri || src = g.param Par.tbSrcSec then g.flag Reg.tbFlag 0x20000000 else g
  if g.tb.src ≠ src then g else g.leaveSource

/-- A source is lost (R401): PPS_IN_LOSS for PPS_IN; for gPTP the vectors of slave ports go with it.
[Log 94: DEDUCED] -/
def Gw.sourceLost (g : Gw) (src : Nat) : Gw :=
  let g := if src = 3 then g.flag Reg.tbFlag 0x01000000 else g
  let g := if src = 1 then
      let w := g.param Par.tbWorkDom
      let x := g.gptpAt w
      let left := x.announced.filter (fun (q : Nat × Nat) => g.gptpRole w q.1 ≠ 2)
      (g.setGptp w { x with announced := left, last := none }).gptpSelect w
    else g
  g.sourceOut src

/-- TB_WORK_DOM or a GPTP_DOM is about to change or has changed: source 1 goes when its instance is another one, is off, or is
run by host software (R411). -/
def Gw.gptpSourceCheck (g : Gw) (other : Bool) : Gw :=
  let c := g.gptpCfg (g.param Par.tbWorkDom)
  if bit g.tb.valid 1 && (other || !bit c 63 || bit c 62) then g.sourceOut 1 else g

/-! ### PPS_IN and REF10_IN (R436, R437) -/

/-- The whole seconds, in 2⁻¹⁶ ns, that the secondary source adds to a phase of PPS_IN: its latest offset to the nearest second
(R436). [Log 94: DEDUCED] -/
def Gw.wholeSeconds (g : Gw) (p : Int) : Int :=
  let sec := g.param Par.tbSrcSec
  let second : Int := 65536000000000
  match (if sec = 1 || sec = 2 then mget? g.tb.samples sec else none) with
  | some o => (o - p + second / 2) / second * second
  | none => 0

/-- A PPS_IN edge: stamped, counted, and as a source the offset from the nearest whole second; one less than 4 ns after the
last stamped edge is not stamped (R433, R436). -/
def Gw.ppsEdge (g : Gw) (rise : Bool) (phase : Nat) : Gw :=
  let c := g.ppsCfg
  if !bit c 62 || rise = bit c 61 then g
  else
    let t := g.tb.stamp phase
    if g.tb.ppsInLast.any (fun l => decide (t - l < 32)) then g
    else
      let g := ({ g with tb := { g.tb with ppsIn := t, ppsInLast := some t } } : Gw).bump Reg.tbPpsInCnt
      let p := -(fine ((t + 4000000000) % 8000000000 - 4000000000))
      g.sourceSample 3 (p + g.wholeSeconds p)

def execPpsInEdge (rise : Bool) (phase : Nat) (s : State) : Host.Outcome State Fault Refusal :=
  answer (onGw (fun g => if g.islOn 12 then g.ppsEdge rise phase else g)) s

/-- A REF10_IN edge: over the edges since the first of a run, the frequency error against 100 ns each, in 0.001 ppb. -/
def Gw.refEdge (g : Gw) (phase : Nat) : Gw :=
  let t := g.tb.stamp phase
  if g.tb.refEdges = 0 || !bit g.tb.valid 4 then
    { g with tb := { g.tb with refEdges := 1, refFirst := t, valid := g.tb.valid ||| 16,
                               heard := mset g.tb.heard 4 g.tb.tick } }
  else
    let n := g.tb.refEdges
    let nominal : Int := 800 * Int.ofNat n
    let err := (nominal - (t - g.tb.refFirst)) * 1000000000000 / nominal
    let again := 10000000 ≤ n
    { g with tb := { g.tb with refEdges := if again then 1 else n + 1, refFirst := if again then t else g.tb.refFirst } }.sourceSample
      4 err

def execRef10Edge (phase : Nat) (s : State) : Host.Outcome State Fault Refusal :=
  answer (onGw (fun g => if g.islOn 12 then g.refEdge phase else g)) s

end Sys2Proof.Machine
end

