-- ==== Sys2Proof/Machine/Btm.lean ====
section
/-! DEFINITION. The bus time message (R419–R425): BTM_SYNC_TIMER and BTM_FOLLOW_WRITE. The firmware writes SYNC into
MB_62, and FOLLOW and EPOCH into MB_63. -/

namespace Sys2Proof.Machine

def Gw.btmCfg (g : Gw) (c : Nat) : Nat := g.param (Par.btmCfg c)
def Gw.btmDom (g : Gw) (c : Nat) : Nat := bits (g.btmCfg c) 62 61
def Gw.btmSrc (g : Gw) (c : Nat) : Nat := bits (g.btmCfg c) 60 58
def Gw.btmIdent (g : Gw) (c : Nat) : Nat := bits (g.btmCfg c) 31 0

/-- A controller sends bus time messages (R419), while pair 0 runs (R760). -/
def Gw.btmOn (g : Gw) (c : Nat) : Bool :=
  c < 32 && bit (g.btmCfg c) 63 && !(g.canAt c).host && !g.canLom c && g.islOn 9 && g.pairRuns 0 && g.inService

/-- The data unit of MB_62 or MB_63: the first and the second, from the top of the pool down, that no other buffer covers
(R332). [Log 186: DESIGN CHOICE] -/
def CanCtl.btmUnit (x : CanCtl) (n : Nat) : Nat :=
  let covers := fun (u b : Nat) => x.doff b ≤ u && u ≤ x.doff b + bits (x.hdr b 3) 23 19
  let free := (List.range 160).reverse.filter (fun u => !(List.range 62).any (covers u))
  free.getD (n - 62) (221 - n)

/-- A classical frame written into a buffer with CODE TX_PENDING and an age limit in ms (R332). [Log 85: DEDUCED] -/
def Gw.btmWrite (g : Gw) (c n ident age : Nat) (data : List Byte) : Gw :=
  let x := g.canAt c
  let x := x.setWord (8 * n + 3) (x.btmUnit n * 2 ^ 24)
  let x := ((x.setWord (8 * n + 1) ident).setWord (8 * n + 7) (age * 65536)).putData (x.dataWord n) (wordsOf data)
  (g.setCan c x).mbHdrWrite c n (9 * 2 ^ 28 + atBit 19 (bit ident 31) + data.length)

/-- SYNC (R420). -/
def Gw.syncBytes (g : Gw) (c seq : Nat) : List Byte :=
  [BitVec.ofNat 8 (16 + 4 * g.btmDom c), BitVec.ofNat 8 seq] ++ beBytes 2 (g.param Par.chnAddr % 4096)

/-- Every PERIOD: SYNC into MB_62 with an age limit of half the period (R423). [Log 85: DEDUCED] -/
def Gw.btmSync (g : Gw) (c : Nat) : Gw :=
  if !g.btmOn c then g
  else
    let x := g.canAt c
    let g := g.setCan c { x with btmSyncSeq := x.btmSeq, btmSeq := (x.btmSeq + 1) % 256, btmStage := 1 }
    g.btmWrite c 62 (g.btmIdent c) (5 * bits (g.btmCfg c) 57 48) (g.syncBytes c x.btmSeq)

def execBtmSyncTimer (c : Nat) (s : State) : Host.Outcome State Fault Refusal :=
  answer (onGw (fun g =>
    if g.btmOn c then
      g.every (timerBtm c) (10 * ticksPerMs * bits (g.btmCfg c) 57 48) (fun g => g.btmSync c)
    else g)) s

/-- The time that FOLLOW carries, in ns: the stamp of SYNC's SOF in the time that SRC names, plus TX_LAT_NS (R424). -/
def Gw.btmTime (g : Gw) (c : Nat) (st : Stamp) (seg : Nat) : Int :=
  let t := st / 8 + Int.ofNat (bits (g.btmCfg c) 47 32)
  let src := g.btmSrc c
  if src = 0 then t
  else
    let i := src - 1
    let now := g.translate st seg g.tb.seg
    g.instTime i now / 65536 + Int.ofNat (bits (g.btmCfg c) 47 32)

/-- UTC_OFS of the time that SRC names (R422). -/
def Gw.btmUtc (g : Gw) (c : Nat) : Int :=
  let src := g.btmSrc c
  if src = 0 then (if g.tb.src = 1 then (g.gptpAt (g.param Par.tbWorkDom)).utcOffset else 0)
  else (g.gptpAt (src - 1)).utcOffset

/-- SYNCED of FOLLOW (R421). -/
def Gw.btmSynced (g : Gw) : Bool :=
  g.tb.servo = .locked || (g.param Par.tbTimeRoot = 1 && g.tb.servo ≠ .freerun)

/-- FOLLOW (R421). [Log 85: DEDUCED] -/
def Gw.followBytes (g : Gw) (c : Nat) (t : Int) (step : Bool) : List Byte :=
  let sec := (t / 1000000000).toNat
  [BitVec.ofNat 8 (32 + 4 * g.btmDom c + atBit 1 step + atBit 0 g.btmSynced), BitVec.ofNat 8 (g.canAt c).btmSyncSeq] ++
    beBytes 6 (sec % 2 ^ 18 * 2 ^ 30 + (t % 1000000000).toNat)

/-- EPOCH after the FOLLOW of a SEQ, of the same instant (R422). [Log 85: DEDUCED] -/
def Gw.epochBytes (g : Gw) (c seq : Nat) (t : Int) : List Byte :=
  [BitVec.ofNat 8 (48 + 4 * g.btmDom c), BitVec.ofNat 8 seq] ++
    beBytes 4 ((t / 1000000000).toNat / 2 ^ 18 % 2 ^ 30) ++ beBytes 2 (g.btmUtc c % 65536).toNat

/-- EPOCH into MB_63, once the FOLLOW that it comes after was sent (R423). [Log 85: DEDUCED] -/
def Gw.btmEpochWrite (g : Gw) (c seq : Nat) (t : Int) : Gw :=
  let g := g.btmWrite c 63 (g.btmIdent c) 0 (g.epochBytes c seq t)
  g.setCan c { g.canAt c with btmEpoch := none }

/-- FOLLOW into MB_63, for a SYNC whose SOF was stamped `st` in a segment; EPOCH is due after it when its SEQ says so (R423,
R424). [Log 85: DEDUCED] -/
def Gw.btmFollowSend (g : Gw) (c : Nat) (st : Stamp) (seg : Nat) : Gw :=
  let x := g.canAt c
  let t := g.btmTime c st seg
  let due := x.btmSyncSeq % g.param Par.btmEpochEvery = 0
  let g := g.btmWrite c 63 (g.btmIdent c) 0 (g.followBytes c t (x.btmFollowSeg.any (fun sg => sg != seg)))
  g.setCan c { g.canAt c with btmFollowSeg := some seg, btmStage := 0,
                              btmEpoch := if due then some (x.btmSyncSeq, t) else none }

/-- The firmware's next write after SYNC: EPOCH where it is due; else FOLLOW when SYNC was sent and MB_63 is free, and none
when SYNC ended otherwise (R423). [Log 85: DEDUCED] -/
def Gw.btmFollow (g : Gw) (c : Nat) : Gw :=
  let x := g.canAt c
  if !g.btmOn c then g
  else match x.btmEpoch, x.code 63 with
    | some (seq, t), 0xC => g.btmEpochWrite c seq t
    | _, _ =>
      if x.btmStage ≠ 1 then g
      else if x.code 62 = 0xB || x.code 62 = 0xD then g.setCan c { x with btmStage := 0 }
      else if x.code 62 ≠ 0xC || x.code 63 = 9 then g
      else match stampOf x.pairs 0 (x.hdr 62 6) with
        | some (st, seg) => g.btmFollowSend c st seg
        | none => g

def execBtmFollowWrite (c : Nat) (s : State) : Host.Outcome State Fault Refusal :=
  answer (onGw (fun g => g.btmFollow c)) s

end Sys2Proof.Machine
end

