-- ==== Sys2Proof/Machine/Chain.lean ====
section
/-! DEFINITION. Chain ports K0 and K1 (R445–R467): alignment, the side channel, hellos, topology, time words, chain-wide
steps and rings. Message types within a class are numbered here: TIME 0 time word, 1 echo; CTRL 0 hello, 1 topology
announcement, 2 ring fault, 3 ring restore, 4 step announcement, 5 a gPTP instance
that spans the chain (R413); RMT 0 request, 1 response, 2 error report, 3 broadcast
write; UPD 0 message, 1 reply. -/

namespace Sys2Proof.Machine

/-! ### Ports and addresses -/

def Gw.chainAt (g : Gw) (k : Nat) : ChainPort := mgetD g.chn.ports k {}
def Gw.setChain (g : Gw) (k : Nat) (x : ChainPort) : Gw := { g with chn := { g.chn with ports := mset g.chn.ports k x } }
def Gw.chnAddr (g : Gw) : Nat := g.param Par.chnAddr

/-- A port is used in the module's role (R458). -/
def Gw.chainUsed (g : Gw) (k : Nat) : Bool := k < 2 && g.islOn 8 && (k = 0 || g.chn.role ≠ 0)

def Gw.ringMember (g : Gw) : Bool := g.chn.role = 3
def Gw.ringOwner (g : Gw) : Bool := g.ringMember && g.param Par.chnRingOwner = 1

/-- The module's 64-bit identity (R459). [Log 11: DESIGN CHOICE] -/
def moduleIdentity : Nat := Config.identWord 0 + 4294967296 * Config.identWord 1

/-- The slot of the image that pair 0 runs: the new one once it has restarted into it in a handover (R789). -/
def Gw.imageSlot (g : Gw) : Nat :=
  match g.ho with
  | some h => if bit h.pairsNew 0 then h.slot else g.boot.slot
  | none => g.boot.slot

/-- The chain protocol version of the firmware that runs (R459, R486, R778); 1 for the delivered image. -/
def Gw.chainVersion (g : Gw) : Nat :=
  match mgetD g.flash.slots g.imageSlot .blank with
  | .image bs => byteAt bs 8
  | _ => 1

/-- Ticks of a microsecond at the nominal rate. -/
def ticksPerUs : Nat := 500

/-- 3 × CHN_HELLO_MS in ticks (R459, R460). [Log 104: DEDUCED] -/
def Gw.helloLimit (g : Gw) : Nat := 3 * g.param Par.chnHelloMs * ticksPerMs

/-! ### Sending (R450–R453) -/

/-- A port may carry a message: CTRL and UPD also in CTRL_ONLY, and over a blocked link only hellos and ring messages
(R459, R464). [Log 103: DEDUCED] -/
def Gw.mayCarry (g : Gw) (k : Nat) (m : SideMsg) : Bool :=
  let x := g.chainAt k
  let hello := m.cls = 1 && m.typ = 0
  let ring := m.cls = 1 && (m.typ = 2 || m.typ = 3)
  g.chainUsed k && x.aligned && (hello || x.state = 1 || (x.state = 2 && (m.cls = 1 || m.cls = 3))) &&
    (!x.blocked || hello || ring)

/-- The payload length that R470 gives a remote access message: a request by its operation, a response by its data words, a
broadcast write. -/
def rmtLength (m : SideMsg) : Option Nat :=
  let op := m.body.getD 1 0
  if m.cls ≠ 2 then none
  else if m.typ = 0 then
    some (if op = 2 then 20 else if op = 4 then 12 + 16 * ((m.body.length - 5) / 4) else 16)
  else if m.typ = 1 then some (12 + 4 * (m.body.length - 3))
  else if m.typ = 3 then some 22 else none

/-- The payload of a message: a time word carries DT80 and the low 16 bits of the segment (R454); remote access messages have
the lengths of R470; the layout of the others is not given. [Log 101: DESIGN CHOICE] -/
def sidePayload (m : SideMsg) : List Byte :=
  if m.cls = 0 && m.typ = 0 then beBytes 10 (m.body.getD 1 0).toNat ++ beBytes 2 (m.body.getD 2 0).toNat
  else
    let p := (Config.sidePayload m.cls m.typ m.body).take 4160
    match rmtLength m with
    | some n => padTo n (p.take n)
    | none => p

/-- A message as it travels: header, payload, and the CRC-16 over both (R450). -/
def sideBytes (m : SideMsg) : List Byte :=
  let p := sidePayload m
  let bs := beBytes 2 (m.typ % 16 * 4096 + m.dst % 4096) ++ beBytes 2 (m.src % 4096) ++ beBytes 2 (m.hops % 4096) ++
    beBytes 2 p.length ++ p
  bs ++ beBytes 2 (bs.foldl crc16Byte 0xFFFF)

/-- Chunk `i` of a message of `n` chunks: CLASS, SOM and EOM, then six of its bytes, zeros after the last (R449, R450). -/
def chunkOf (cls n i : Nat) (bs : List Byte) : List Byte :=
  BitVec.ofNat 8 (cls % 8 * 32 + atBit 4 (i = 0) + atBit 3 (i + 1 = n)) :: padTo 6 (slice bs (6 * i) 6)

/-- The chunks of a message, from the one marked SOM to the one marked EOM (R450). -/
def sideChunks (m : SideMsg) : List (List Byte) :=
  let n := ceilDiv (sideBytes m).length 6
  (List.range n).map (fun i => chunkOf m.cls n i (sideBytes m))

/-- A message sent on a port: queued, to go out in side blocks (R453). [Log 101: DESIGN CHOICE] -/
def Gw.sideSend (g : Gw) (k : Nat) (m : SideMsg) : Gw :=
  if g.mayCarry k m then
    let x := g.chainAt k
    ((g.setChain k { x with sendQ := x.sendQ ++ [(m.cls, sideChunks m)] }).bump (Reg.chnScTx k)).emit (.side k m)
  else g

/-- The number of the next side block at or after a tick: every 32nd block of 2.56 ns, counted from link alignment (R445,
R446). [Log 100: DEDUCED] -/
def ChainPort.nextSide (x : ChainPort) (tick : Nat) : Nat := max 1 (ceilDiv (25 * (tick - x.alignedAt)) 1024)

/-- A side block of port `k` begins within the present tick. -/
def Gw.sideBlockDue (g : Gw) (k : Nat) : Bool :=
  let x := g.chainAt k
  g.chainUsed k && x.aligned && x.nextSide g.tb.tick ≠ x.nextSide (g.tb.tick + 1)

/-- At a side block the port sends a chunk of the oldest message of the lowest class that waits (R453). -/
def Gw.sendChunk (g : Gw) (k : Nat) : Gw :=
  let x := g.chainAt k
  if !g.sideBlockDue k then g
  else match leastBy (fun (a b : Nat) => a < b) (x.sendQ.map Prod.fst) with
    | none => g
    | some cls =>
      match takeFirst (fun (q : Nat × List (List Byte)) => q.1 = cls) x.sendQ with
      | some ((_, b :: bs), rest) =>
        let before := x.sendQ.takeWhile (fun q => q.1 ≠ cls)
        let q := if bs.isEmpty then rest else before ++ (cls, bs) :: rest.drop before.length
        (g.setChain k { x with sendQ := q }).emit (.sideBlock k b)
      | some ((_, []), rest) => g.setChain k { x with sendQ := rest }
      | none => g

/-- The side blocks of the present tick. -/
def Gw.sideBlocks (g : Gw) : Gw := (g.sendChunk 0).sendChunk 1

/-- A message of the module's own flooded on every port (R460). -/
def Gw.floodOwn (g : Gw) (typ : Nat) (body : List Int) : Gw :=
  let m : SideMsg := { cls := 1, typ := typ, dst := 0xFFF, src := g.chnAddr, hops := 4094, body := body }
  (g.sideSend 0 m).sideSend 1 m

/-- A message passed on: HOPS decremented; at 0, or when the port on the way cannot carry it, it is discarded and counted (R451,
R455). [Log 105: DEDUCED] -/
def Gw.passOn (g : Gw) (inPort outPort : Nat) (m : SideMsg) : Gw :=
  if m.hops ≤ 1 || !g.mayCarry outPort m then g.bump (Reg.chnScDrop inPort)
  else g.sideSend outPort { m with hops := m.hops - 1 }

/-- The hop count and port of a reach entry: fewer hops win, K0 wins a tie (R460). [Log 106: DEDUCED] -/
def Reach.best (r : Reach) : Option (Nat × Nat) :=
  match r.hops0, r.hops1 with
  | some a, some b => if b.1 < a.1 then some (1, b.1) else some (0, a.1)
  | some a, none => some (0, a.1)
  | none, some b => some (1, b.1)
  | none, none => none

/-- The port that leads to an address (R455, R461). [Log 106: DEDUCED] -/
def Gw.routeTo (g : Gw) (a : Nat) : Option Nat :=
  match mget? g.chn.reach a with
  | some r => if r.dup then none else r.best.map (·.1)
  | none => none

/-- The port followed for chain time: toward the reachable time root of lowest address, none when that is the module itself
(R463). -/
def Gw.upstream (g : Gw) : Option Nat :=
  (g.chn.reach.find? (fun q => q.2.root && !q.2.dup && q.2.best.isSome)).bind (fun q =>
    if g.param Par.tbTimeRoot = 1 && g.chnAddr ≠ 0 && g.chnAddr < q.1 then none else g.routeTo q.1)

/-- A new upstream port while the chain is the source in use is a change of source (R404, R465). [Log 94: DEDUCED] -/
def Gw.upstreamWatch (g : Gw) : Gw :=
  if g.upstream.isNone || g.upstream = g.chn.timePort then g
  else
    let moved := g.tb.src = 2 && g.chn.timePort.isSome
    let g := { g with chn := { g.chn with timePort := g.upstream } }
    if moved then g.sourceChange 2 else g

/-! ### Reception (R451–R455) -/

/-- A message that ends here waits to be handled. -/
def Gw.terminate (g : Gw) (k : Nat) (mark : Int) (m : SideMsg) : Gw :=
  { g with chn := { g.chn with inbox := g.chn.inbox ++ [{ port := k, mark := mark, msg := m }] } }

/-- The first waiting message of a type, and the module without it. [Log 101: DESIGN CHOICE] -/
def Gw.takeMsg (g : Gw) (cls typ : Nat) : Option (Inbound × Gw) :=
  (takeFirst (fun (x : Inbound) => x.msg.cls = cls && x.msg.typ = typ) g.chn.inbox).map (fun r =>
    (r.1, { g with chn := { g.chn with inbox := r.2 } }))

/-- Requests that the far bridge holds (R481). -/
def Gw.requestsHeld (g : Gw) : Nat := (g.chn.inbox.filter (fun x => x.msg.cls = 2 && x.msg.typ = 0)).length

/-- An answer to a remote request with an error code and no data (R481). -/
def Gw.refuse (g : Gw) (k : Nat) (m : SideMsg) (code : Int) : Gw :=
  g.sideSend k { cls := 2, typ := 1, dst := m.src, src := g.chnAddr, hops := 4094, body := [m.body.getD 0 0, code, 0] }

/-- The bytes of the message of class `cls` whose chunks have arrived. -/
def ChainPort.partOf (x : ChainPort) (cls : Nat) : List Byte := mgetD x.part cls []

/-- Class of a chunk, and whether it starts or ends a message (R449). -/
def chunkCls (c : List Byte) : Nat := (c.headD 0).toNat / 32
def chunkSom (c : List Byte) : Bool := bit (c.headD 0).toNat 4
def chunkEom (c : List Byte) : Bool := bit (c.headD 0).toNat 3

/-- A chunk arrives: its six bytes join the unfinished message of its class (R449, R453). Class 7 carries nothing (R452). -/
def ChainPort.takeChunk (x : ChainPort) (c : List Byte) : ChainPort :=
  if chunkCls c = 7 then x
  else { x with part := mset x.part (chunkCls c) ((if chunkSom c then [] else x.partOf (chunkCls c)) ++ c.drop 1) }

/-- The CRC-16 over header and payload is the one that follows them (R450). -/
def sideCrcOk (bs : List Byte) : Bool :=
  let n := 8 + fromBe (slice bs 6 2)
  n + 2 ≤ bs.length && (bs.take n).foldl crc16Byte 0xFFFF = fromBe (slice bs n 2)

/-- The bytes of a message as its chunks carry them. [Log 101: DESIGN CHOICE] -/
def sideWire (m : SideMsg) : List Byte := (sideChunks m).flatMap (List.drop 1)

/-- A message whose check sum is right (R455). An update block for another module waits for its check here (R785).
[Log 101: DESIGN CHOICE] -/
def Gw.sideTake (g : Gw) (k : Nat) (m : SideMsg) : Gw :=
  let mark := (g.chainAt k).mark
  if 4 ≤ m.cls || !g.mayCarry k m then g.bump (Reg.chnScDrop k)
  else if m.cls ≤ 1 then g.terminate k mark m
  else if m.dst = g.chnAddr && g.chnAddr ≠ 0 then
    if m.cls = 2 && m.typ = 0 && !g.islOn 10 then g.refuse k m 2
    else if m.cls = 2 && m.typ = 0 && 64 ≤ g.requestsHeld then g.refuse k m 7
    else g.terminate k mark m
  else if m.dst = 0xFFF then g.terminate k mark m
  else
    match g.routeTo m.dst with
    | some out => if m.cls = 3 && m.typ = 2 then g.terminate k mark m else g.passOn k out m
    | none => if m.cls = 2 && m.typ = 0 then g.refuse k m 6 else g.bump (Reg.chnScDrop k)

/-- Chunks arrive on port `k`, the last of them at the present tick; `ago` counts, in units of 8 ps, from the boundary at which
their first one began to that tick (R414). A chunk marked EOM completes the message of its class, which is received whole: its
check sum is tested (R455), and `m` says what its bytes carry; with another `m` the command names no message, and nothing comes
of it. [Log 101: DESIGN CHOICE] -/
def Gw.sideReceive (g : Gw) (k : Nat) (m : SideMsg) (chunks : List (List Byte)) (ago : Nat) : Gw :=
  let x := g.chainAt k
  if !g.chainUsed k || !x.aligned then g
  else
    let y := chunks.foldl ChainPort.takeChunk x
    let mark := Int.ofNat (g.tb.acc.toNat / 16777216) - Int.ofNat (ago * g.tb.incr / (250 * 16777216))
    let y := if (chunks.headD []).length = 7 && chunkSom (chunks.headD []) then { y with mark := mark } else y
    let last := chunks.getLastD []
    let cls := chunkCls last
    let bs := y.partOf cls
    if !chunkEom last || cls = 7 then g.setChain k y
    else
      let h := (g.setChain k { y with part := merase y.part cls }).bump (Reg.chnScRx k)
      if !sideCrcOk bs then h.bump (Reg.chnScCrc k)
      else if m.cls = cls && bs = sideWire m then h.sideTake k m
      else g

def execSideMessageReceive (k : Nat) (m : SideMsg) (chunks : List (List Byte)) (ago : Nat) (s : State) :
    Host.Outcome State Fault Refusal := answer (onGw (fun g => g.sideReceive k m chunks ago)) s

/-- A flooded message goes on through the other port, unless it is the module's own (R460). -/
def Gw.floodOn (g : Gw) (x : Inbound) : Gw :=
  if x.msg.src = g.chnAddr && g.chnAddr ≠ 0 then g else g.passOn x.port (1 - x.port) x.msg

/-! ### Time words (R414, R415, R454, R463) -/

/-- From the present tick to the start of the side block that takes the next TIME chunk of port `k`, in 2⁻¹⁶ ns: one side block
every 81.92 ns from link alignment, behind the TIME chunks that wait (R446, R453). -/
def Gw.wordWait (g : Gw) (k : Nat) : Int :=
  let x := g.chainAt k
  let n := g.tb.tick - x.alignedAt
  let ahead := ((x.sendQ.filter (fun q => q.1 = 0)).map (fun q => q.2.length)).sum
  let block := x.nextSide g.tb.tick + ahead
  Int.ofNat ((1024 * block - 25 * n) * g.tb.incr / (25 * 2 ^ 24))

/-- Device time in 2⁻¹⁶ ns of the start of that side block at the balls (R415, R454). [Log 100: DEDUCED] -/
def Gw.wordTime (g : Gw) (k : Nat) : Int :=
  Int.ofNat (g.tb.acc.toNat / 16777216) + g.wordWait k + Int.ofNat ((g.ethAt (12 + k)).txCal * 8192)

/-- An arrival mark referred to the balls, in 2⁻¹⁶ ns (R415). -/
def Gw.markAt (g : Gw) (x : Inbound) : Int := x.mark - Int.ofNat ((g.ethAt (12 + x.port)).rxCal * 8192)

/-- A time word goes out in the first side block at or after a TB epoch tick, once for each epoch: the epoch, DT80 in 2⁻¹⁶ ns
and the segment (R454). [Log 100: DEDUCED] -/
def Gw.wordSend (g : Gw) (k : Nat) : Gw :=
  let x := g.chainAt k
  let e := g.tickNo / 65536
  let first := x.nextSide g.tb.tick = x.nextSide (g.tb.start + 65536 * e)
  if !g.islOn 12 || !first || x.lastWord = some e then g
  else
    let t := g.wordTime k
    let m : SideMsg := { cls := 0, typ := 0, src := g.chnAddr, body := [Int.ofNat e, t, Int.ofNat (g.tb.seg % 65536)] }
    if g.mayCarry k m then (g.setChain k { x with wordSent := some (e, t), lastWord := some e }).sideSend k m else g

def execChainTimeWordSend (k : Nat) (s : State) : Host.Outcome State Fault Refusal :=
  answer (onGw (fun g => g.wordSend k)) s

/-- d_ud of a port in 2⁻¹⁶ ns (R415). [Log 100: DEDUCED] -/
def Gw.delayDown (g : Gw) (k : Nat) : Int := (g.chainAt k).delay + g.paramI (Par.chnAsym k) * 65536 / 2000

/-- A received time word: echoed with its turnaround in ST64 units; on the upstream port the offset O = T_up + d_ud −
T_local is formed for the servo (R414, R454). [Log 100: DEDUCED] -/
def Gw.wordReceive (g : Gw) : Gw :=
  match g.takeMsg 0 0 with
  | none => g
  | some (x, g) =>
    let turn := (g.wordTime x.port - g.markAt x) / 8192
    let g := g.sideSend x.port { cls := 0, typ := 1, src := g.chnAddr, body := [x.msg.body.getD 0 0, turn] }
    if g.upstream = some x.port then g.sourceSample 2 (x.msg.body.getD 1 0 + g.delayDown x.port - g.markAt x) else g

def execChainTimeWordReceive (s : State) : Host.Outcome State Fault Refusal := answer (onGw Gw.wordReceive) s

/-- A returned echo gives the mean link delay: half of the round trip less the turnaround (R415). [Log 100: DEDUCED] -/
def Gw.echoReceive (g : Gw) : Gw :=
  match g.takeMsg 0 1 with
  | none => g
  | some (x, g) =>
    let p := g.chainAt x.port
    match p.wordSent with
    | some (e, t) =>
      if x.msg.body.getD 0 0 = Int.ofNat e then
        g.setChain x.port { p with delay := (g.markAt x - t - x.msg.body.getD 1 0 * 8192) / 2, wordSent := none }
      else g
    | none => g

def execTimeWordEcho (s : State) : Host.Outcome State Fault Refusal := answer (onGw Gw.echoReceive) s

/-- The loss condition of a source holds (R401): a receipt timeout of three intervals, of Announce on slave port `port`; no way up
the chain, or no time word for 4 TB epochs; no edge for 1.5 s or 1 µs. [Log 94: DEDUCED] -/
def Gw.sourceGone (g : Gw) (src port : Nat) : Bool :=
  let since := fun (n : Nat) => mgetD g.tb.heard src 0 + n ≤ g.tb.tick
  if src = 1 then
    let w := g.param Par.tbWorkDom
    let x := g.gptpAt w
    x.syncTick + logTicks 3 (bits (g.gptpCfg w) 31 24) ≤ g.tb.tick ||
      (g.gptpRole w port = 2 && (mget? x.annTick port).any (fun t => t + logTicks 3 (bits (g.gptpCfg w) 23 16) ≤ g.tb.tick))
  else if src = 2 then !(g.upstream.any (fun k => (g.chainAt k).state = 1)) || since 262144
  else if src = 3 then since 750000000
  else since 500

/-- SOURCE_LOSS: a source that was valid meets its loss condition, gPTP by what its slave port `port` hears (R401). -/
def execSourceLoss (src port : Nat) (s : State) : Host.Outcome State Fault Refusal :=
  answer (onGw (fun g =>
    if 1 ≤ src && src ≤ 4 && g.islOn 12 && g.pairRuns 0 && bit g.tb.valid src && g.sourceGone src port then g.sourceLost src
    else g)) s

/-- A chain port measures its latencies by internal loopback, in ST64 units, at link start and every CHN_CAL_PERIOD_MS (R304,
R415). -/
def execChainCalibration (k rxLat txLat : Nat) (s : State) : Host.Outcome State Fault Refusal :=
  answer (onGw (fun g =>
    if g.chainUsed k then
      g.every (timerCal k) (g.param Par.chnCalPeriodMs * ticksPerMs) (fun g => g.setEth (12 + k) { g.ethAt (12 + k) with rxCal := rxLat, txCal := txLat })
    else g)) s

/-! ### Chain-wide steps (R417, R418) -/

/-- A step announcement: the delta in 2⁻¹⁶ ns and T_s in ns. It is passed on and scheduled. [Log 99: DEDUCED] -/
def Gw.stepAnnounce (g : Gw) : Gw :=
  match g.takeMsg 1 4 with
  | none => g
  | some (x, g) =>
    let g := g.floodOn x
    if x.msg.src = g.chnAddr then g else g.announced (x.msg.body.getD 0 0) (8 * x.msg.body.getD 1 0)

def execChainStepAnnounce (s : State) : Host.Outcome State Fault Refusal :=
  answer (onGw (fun g => if g.pairRuns 0 then g.stepAnnounce else g)) s

/-! ### Rings (R464–R466) -/

/-- A change of the firmware's own at a stamp given by the chain, or the earliest it can meet (R58, R465).
[Log 102: DEDUCED] -/
def Gw.fwChangeAt (g : Gw) (c : FwChange) (t : Stamp) : Gw :=
  let t' := if t ≤ g.requestFrontier || t < g.str.startStamp then g.soonest else t
  let x : Change := { t := t', rank := 64, seq := g.str.fwCount, act := .firmware c, seg := g.tb.seg }
  { g with str := { g.str with changes := g.str.changes ++ [x], fwCount := g.str.fwCount + 1 } }

/-- The dynamic T0 entries that name F14 or F15 are flushed in all four partitions (R465). The flush counts as one of the
four that may be pending (R183); with four pending it is carried out at once. [Log 163: DESIGN CHOICE] -/
def Gw.ringFlush (g : Gw) : Gw :=
  let sel := fun (_ : Nat) (e : Entry) => !e.static && (bit (e.word 2) 14 || bit (e.word 2) 15)
  if g.cat.flushes.length < 4 then g.flush none [0, 1, 2, 3] sel
  else (g.matching [0, 1, 2, 3] sel).foldl (fun (g : Gw) h => g.dropEntry h.1 h.2.1 h.2.2) g

/-- The owner blocks its K1 in normal operation (R464). -/
def Gw.ringBlock (g : Gw) : Gw :=
  if g.ringOwner && !g.chn.failedOver then g.setChain 1 { g.chainAt 1 with blocked := true } else g

/-- A module that stops being the owner no longer blocks K1 for it. -/
def Gw.ringUnowned (g : Gw) : Gw :=
  if g.ringOwner && !g.chn.failedOver then g.setChain 1 { g.chainAt 1 with blocked := false } else g

/-- What a failover and a restore have in common at their stamp: flush, count, flag, log (R465, R466); a new upstream port is a
change of source. -/
def Gw.ringChange (g : Gw) (t : Stamp) (name : String) (flagBit : Nat) : Gw :=
  (((g.ringFlush.bump Reg.chnFailoverCnt).flag Reg.chnFlag (2 ^ flagBit)).noteAt name [] t).upstreamWatch

/-- The failover at its stamp (R465). -/
def Gw.ringFailover (g : Gw) (t : Stamp) : Gw :=
  let g := if g.ringOwner then g.setChain 1 { g.chainAt 1 with blocked := false } else g
  { g with chn := { g.chn with failedOver := true } }.ringChange t "ring failover" 29

/-- The restore at its stamp: the owner blocks K1, the restored link unblocks (R466). -/
def Gw.ringRestore (g : Gw) (t : Stamp) : Gw :=
  let g := g.setChain 0 { g.chainAt 0 with blocked := false }
  let g := g.setChain 1 { g.chainAt 1 with blocked := g.ringOwner }
  { g with chn := { g.chn with failedOver := false, faultBy := none } }.ringChange t "ring restore" 28

/-- The owner takes the failover at stamp `t` and floods it (R465). -/
def Gw.floodFailover (g : Gw) (t : Stamp) : Gw := (g.floodOwn 2 [1, t]).fwChangeAt .ringFailover t

/-- The owner's automatic failover, once for a fault. -/
def Gw.autoFailover (g : Gw) : Gw :=
  let waits := g.str.changes.any (fun c => c.act = .firmware .ringFailover)
  if g.ringOwner && g.param Par.chnRingAuto = 1 && !g.chn.failedOver && !waits && g.fw.state ≠ .handover then g.floodFailover g.soonest else g

/-- A member finds its port `k` failed or down: it sends RING_FAULT through its other port (R465). -/
def Gw.ringFaultFound (g : Gw) (k : Nat) : Gw :=
  if !g.ringMember || !g.pairRuns 0 then g
  else
    let g := { g with chn := { g.chn with faultBy := some g.chnAddr } }
    let g := g.sideSend (1 - k) { cls := 1, typ := 2, dst := 0xFFF, src := g.chnAddr, hops := 4094, body := [0] }
    g.autoFailover

/-- A received RING_FAULT or RING_RESTORE: a report of a fault, or an apply-at stamp flooded by the owner (R465, R466).
[Log 102: DEDUCED] -/
def Gw.ringMessage (g : Gw) (x : Inbound) : Gw :=
  let g := g.floodOn x
  if x.msg.src = g.chnAddr || !g.ringMember then g
  else if x.msg.typ = 2 && x.msg.body.getD 0 0 = 0 then
    { g with chn := { g.chn with faultBy := some x.msg.src } }.autoFailover
  else g.fwChangeAt (if x.msg.typ = 2 then .ringFailover else .ringRestore) (x.msg.body.getD 1 0)

/-- RING_FAULT: the oldest ring message is handled; without one, a failed or down port of a member that is not yet
reported. -/
def Gw.ringFault (g : Gw) : Gw :=
  if !g.pairRuns 0 then g
  else
    match g.takeMsg 1 2 with
    | some (x, g) => g.ringMessage x
    | none =>
      match g.takeMsg 1 3 with
      | some (x, g) => g.ringMessage x
      | none =>
        match [0, 1].find? (fun k => (g.chainAt k).failed && g.chn.faultBy.isNone) with
        | some k => g.ringFaultFound k
        | none => g

def execRingFault (s : State) : Host.Outcome State Fault Refusal := answer (onGw Gw.ringFault) s

/-- Both ports of the owner are UP, and so are those of the member that reported the fault (R466). [Log 102: DEDUCED] -/
def Gw.ringBack (g : Gw) : Bool :=
  (g.chainAt 0).state = 1 && (g.chainAt 1).state = 1 &&
    (match g.chn.faultBy with
      | some a => a = g.chnAddr || (match mget? g.chn.reach a with
        | some r => 2 ≤ (r.nbrs.filter (· ≠ 0)).length
        | none => false)
      | none => true)

/-- The owner floods RING_RESTORE with its stamp (R466). [Log 102: DEDUCED] -/
def Gw.floodRestore (g : Gw) (t : Stamp) : Gw := (g.floodOwn 3 [1, t]).fwChangeAt .ringRestore t

/-- The tick since which every link of the ring is back, as the module sees it at each tick. -/
def Gw.ringWatch (g : Gw) : Gw :=
  let since := if g.ringBack then some (g.chn.backSince.getD g.tb.tick) else none
  if since = g.chn.backSince then g else { g with chn := { g.chn with backSince := since } }

/-- The links have stayed UP for CHN_RING_WTR_MS after a failover or a fault: the owner floods RING_RESTORE (R466).
[Log 102: DEDUCED] -/
def Gw.wtrExpiry (g : Gw) : Gw :=
  let wait := g.param Par.chnRingWtrMs * ticksPerMs
  let since := max (g.chn.backSince.getD g.tb.tick) (max (g.chainAt 0).upSince (g.chainAt 1).upSince)
  let waits := g.str.changes.any (fun c => c.act = .firmware .ringRestore)
  if g.ringOwner && g.pairRuns 0 && (g.chn.failedOver || g.chn.faultBy.isSome) && g.ringBack && !waits &&
      g.fw.state ≠ .handover && since + wait ≤ g.tb.tick then g.floodRestore g.soonest else g

def execRingWtrExpiry (s : State) : Host.Outcome State Fault Refusal := answer (onGw Gw.wtrExpiry) s

/-! ### Alignment and port state (R448, R459) -/

/-- A port leaves UP or CTRL_ONLY: its topology goes, and a ring member reports it. -/
def Gw.chainDown (g : Gw) (k : Nat) : Gw :=
  let x := g.chainAt k
  if x.state = 0 then g
  else
    let reach := g.chn.reach.map (fun (q : Nat × Reach) =>
      (q.1, if k = 0 then { q.2 with hops0 := none } else { q.2 with hops1 := none }))
    let g := g.setChain k { x with state := 0 }
    let g := { g with chn := { g.chn with reach := reach.filter (fun q => q.2.best.isSome) } }
    let g := if g.str.run then { g with undefEgress := g.undefEgress ||| 2 ^ (14 + k) } else g
    g.ringFaultFound k

def execBlockAlignment (k : Nat) (s : State) : Host.Outcome State Fault Refusal :=
  answer (onGw (fun g =>
    let x := g.chainAt k
    if !g.chainUsed k || x.aligned then g
    else
      ({ g with timers := merase g.timers (timerCal k) }.setChain k
        { x with aligned := true, failed := false, alignedAt := g.tb.tick }).chainLink (12 + k))) s

def execAlignmentLost (k : Nat) (s : State) : Host.Outcome State Fault Refusal :=
  answer (onGw (fun g =>
    let x := g.chainAt k
    if g.chainUsed k && x.aligned then g.setChain k { x with aligned := false, lackSince := g.tb.tick, sendQ := [] } else g)) s

/-- A port that has lacked alignment for CHN_FAIL_US is failed (R448). -/
def Gw.portFail (g : Gw) (k : Nat) : Gw :=
  let x := g.chainAt k
  if !g.chainUsed k || x.aligned || x.failed || g.tb.tick < x.lackSince + g.param Par.chnFailUs * ticksPerUs then g
  else
    let g := ((g.setChain k { x with failed := true }).bump (Reg.chnFail k)).flag Reg.chnFlag 0x04000000
    let known := g.chn.faultBy.isSome
    let g := g.chainDown k
    if known || g.chn.faultBy.isSome then g else g.ringFaultFound k

def execChainPortFail (k : Nat) (s : State) : Host.Outcome State Fault Refusal := answer (onGw (fun g => g.portFail k)) s

/-- A port without a hello for 3 × CHN_HELLO_MS goes down (R459). [Log 104: DEDUCED] -/
def execHelloTimeout (k : Nat) (s : State) : Host.Outcome State Fault Refusal :=
  answer (onGw (fun g =>
    if k < 2 && (g.chainAt k).state ≠ 0 && (g.chainAt k).helloTick + g.helloLimit ≤ g.tb.tick then g.chainDown k else g)) s

/-- Hellos on every port every CHN_HELLO_MS: address, role, identity, version (R459). -/
def execHelloTimer (s : State) : Host.Outcome State Fault Refusal :=
  answer (onGw (fun g =>
    if !g.pairRuns 0 then g
    else g.every timerHello (g.param Par.chnHelloMs * ticksPerMs) (fun g =>
      let body := [g.chnAddr, g.chn.role, moduleIdentity, g.chainVersion].map Int.ofNat
      let m : SideMsg := { cls := 1, typ := 0, src := g.chnAddr, body := body }
      (g.sideSend 0 m).sideSend 1 m))) s

/-- A hello on a port whose link is up: the port is UP when the versions differ by at most one, else CTRL_ONLY (R459). A link of a failed-over ring
that comes back stays blocked (R466). -/
def Gw.helloReceive (g : Gw) : Gw :=
  match g.takeMsg 1 0 with
  | none => g
  | some (m, g) =>
    let k := m.port
    let x := g.chainAt k
    if !x.aligned || !g.linkUp (12 + k) then g
    else
      let ver := (m.msg.body.getD 3 0).toNat
      let near := ver ≤ g.chainVersion + 1 && g.chainVersion ≤ ver + 1
      let g := if near then g else g.flag Reg.chnFlag 0x40000000
      let back := x.state = 0 && g.ringMember && (g.chn.failedOver || g.chn.faultBy.isSome)
      let st := if near then 1 else 2
      let g := { g with ho := g.ho.map (fun (h : Handover) =>
        if bit h.pairsNew 0 then { h with ports := h.ports.filter (fun q => q ≠ k) } else h) }
      g.setChain k { x with state := st, helloTick := g.tb.tick, nbrVer := ver % 256, nbrAddr := (m.msg.body.getD 0 0).toNat,
                            upSince := if x.state = st then x.upSince else g.tb.tick, blocked := x.blocked || back }

def execHelloReceive (s : State) : Host.Outcome State Fault Refusal :=
  answer (onGw (fun g => if g.pairRuns 0 then g.helloReceive else g)) s

/-! ### Topology (R460–R462) -/

/-- Every module's announcement: address, identity, role, ring-owner bit, time-root bit, version and neighbours (R460). -/
def execTopologyAnnounceTimer (s : State) : Host.Outcome State Fault Refusal :=
  answer (onGw (fun g =>
    if !g.pairRuns 0 then g
    else g.every timerTopology (g.param Par.chnHelloMs * ticksPerMs) (fun g =>
      let nbr := fun (k : Nat) => if (g.chainAt k).state = 1 then (g.chainAt k).nbrAddr else 0
      g.floodOwn 1 ([g.chnAddr, moduleIdentity, g.chn.role, (g.ringOwner).toNat, g.param Par.tbTimeRoot, g.chainVersion,
        nbr 0, nbr 1].map Int.ofNat)))) s

/-- One announcement: the reach entry of its address and port, duplicates and loops (R460–R462). Every announcement but the
module's own is passed on; address 0 has no reach entry. [Log 105: DEDUCED] -/
def Gw.topology (g : Gw) : Gw :=
  match g.takeMsg 1 1 with
  | none => g
  | some (x, g) =>
    let n := fun (i : Nat) => (x.msg.body.getD i 0).toNat
    let a := n 0
    let on := fun (g : Gw) => g.passOn x.port (1 - x.port) x.msg
    if (g.chainAt x.port).blocked then g
    else if a = g.chnAddr && n 1 = moduleIdentity then
      (if g.ringMember then g else (g.setChain 1 { g.chainAt 1 with blocked := true }).flag Reg.chnFlag 0x08000000)
    else if a = 0 then on g
    else if a = g.chnAddr then on ((g.flag Reg.chnFlag 0x80000000).note "duplicate address" [a])
    else
      let old : Reach := mgetD g.chn.reach a { ident := n 1 }
      let clash := old.ident ≠ n 1
      let h := some (4095 - x.msg.hops, g.tb.tick)
      let r : Reach := { old with ver := n 5, role := n 2, owner := n 3 = 1, root := n 4 = 1, nbrs := [n 6, n 7],
                                  hops0 := if x.port = 0 then h else old.hops0,
                                  hops1 := if x.port = 0 then old.hops1 else h, dup := old.dup || clash }
      let g := { g with chn := { g.chn with reach := mset g.chn.reach a r } }
      on (if clash then (g.flag Reg.chnFlag 0x80000000).note "duplicate address" [a] else g)

def execTopologyAnnounceReceive (s : State) : Host.Outcome State Fault Refusal :=
  answer (onGw (fun g => if g.pairRuns 0 then g.topology else g)) s

/-- An entry is removed after 3 × CHN_HELLO_MS without an announcement (R460). [Log 104: DEDUCED] -/
def Gw.reachTimeout (g : Gw) (a : Nat) : Gw :=
  match mget? g.chn.reach a with
  | none => g
  | some r =>
    let live := fun (h : Option (Nat × Nat)) => h.bind (fun x => if x.2 + g.helloLimit ≤ g.tb.tick then none else some x)
    let r' := { r with hops0 := live r.hops0, hops1 := live r.hops1 }
    { g with chn := { g.chn with reach := if r'.best.isNone then merase g.chn.reach a else mset g.chn.reach a r' } }

def execReachEntryTimeout (addr : Nat) (s : State) : Host.Outcome State Fault Refusal :=
  answer (onGw (fun g => g.reachTimeout addr)) s

end Sys2Proof.Machine
end

