-- ==== Sys2Proof/Machine/Spans.lean ====
section
/-! DEFINITION. gPTP instances that span several modules of a chain (R413), with the commands GPTP_MESSAGE and
GPTP_ANNOUNCE_TIMER. The spec names no message that carries an instance over the chain; a CTRL message of type 5 does here:
domain number, root system identity, stepsRemoved, source port identity, offset to DT, rate offset and UTC offset. -/

namespace Sys2Proof.Machine

/-- domainNumber of an instance. -/
def Gw.gptpDomain (g : Gw) (i : Nat) : Nat := bits (g.gptpCfg i) 54 48

/-- The module that takes an instance's time from Ethernet tells the chain. [Log 169: DESIGN CHOICE] -/
def Gw.spanSend (g : Gw) (i : Nat) : Gw :=
  let x := g.gptpAt i
  match g.gptpFollowed i with
  | some (port, v) =>
    if g.gptpOn i && g.gptpSlaveOf i && port < 20 then
      g.floodOwn 5 [g.gptpDomain i, Int.ofNat (v / 2 ^ 96), x.steps, Int.ofNat (v % 2 ^ 80), g.instOffset i g.now,
        x.rate, x.utcOffset]
    else g
  | none => g

/-- What the chain says of instance `i`: its values are presented from the shared chain time, unless the module hears a
better clock itself. [Log 169: DESIGN CHOICE] -/
def Gw.spanHeard (g : Gw) (i depth : Nat) (m : SideMsg) : Gw :=
  let n := fun (k : Nat) => m.body.getD k 0
  let s : SpanInfo := { src := m.src, depth := depth, root := (n 1).toNat, steps := (n 2).toNat, source := (n 3).toNat,
                        utc := n 6 }
  let g := g.setGptp i { g.gptpAt i with span := some s }
  let g := if g.extCfg i then g.gptpPresent i else g.gptpSelect i
  match g.gptpFollowed i with
  | some (20, _) => g.setGptp i { g.gptpAt i with offset := n 4, offAt := fine g.now, rate := n 5, utcOffset := n 6 }
  | _ => g

/-- The oldest waiting message of a spanning instance, passed on and taken by the instance of its domain.
[Log 169: DESIGN CHOICE] -/
def Gw.spanReceive (g : Gw) : Gw :=
  match g.takeMsg 1 5 with
  | none => g
  | some (x, g) =>
    let g := g.floodOn x
    let mine := (List.range 4).find? (fun i => g.gptpOn i && Int.ofNat (g.gptpDomain i) = x.msg.body.getD 0 (-1))
    match mine with
    | some i => if x.msg.src = g.chnAddr then g else g.spanHeard i (4095 - x.msg.hops) x.msg
    | none => g

/-- GPTP_MESSAGE: ports 0–19 as GPTP_ROLE numbers them; 20 is the chain, whose oldest waiting message is taken. A new
grandmaster of the instance that the timebase follows is a change of source (R404). [Log 169: DESIGN CHOICE] -/
def execGptpMessage (inst port : Nat) (m : GptpMsg) (s : State) : Host.Outcome State Fault Refusal :=
  answer (onGw (fun g =>
    (if port = 20 then (if g.pairRuns 0 then g.spanReceive else g) else g.gptpReceive inst port m).gmWatch g)) s

/-- GPTP_ANNOUNCE_TIMER: Announce on the master ports, and over the chain (R407, R413). -/
def execGptpAnnounceTimer (inst : Nat) (s : State) : Host.Outcome State Fault Refusal :=
  answer (onGw (fun g =>
    if g.gptpOn inst then
      g.every (timerAnnounce inst) (logTicks 1 (bits (g.gptpCfg inst) 23 16)) (fun g => (g.gptpAnnounce inst).spanSend inst)
    else g)) s

end Sys2Proof.Machine
end

