-- ==== Sys2Proof/Machine/Rmt.lean ====
section
/-! DEFINITION. The remote access bridge as initiator (R468–R484): slots, operations, responses, claims, expiries and the
far error log. Execution of far requests stands in Remote.lean. -/

namespace Sys2Proof.Machine

def Gw.rmtAt (g : Gw) (i : Nat) : RmtSlot := mgetD g.rmt.slots i {}
def Gw.setRmt (g : Gw) (i : Nat) (x : RmtSlot) : Gw := { g with rmt := { g.rmt with slots := mset g.rmt.slots i x } }

/-- A far address whose read has a side effect (R475). -/
def farSensitive (a : Nat) : Bool := 0x40000 ≤ a && a ≤ 0xFFFFFF

/-- The addresses whose data an operation returns, in order. -/
def RmtSlot.reads (x : RmtSlot) : List Nat :=
  if x.op = 1 then [x.addr] else if x.op = 4 then x.seq.filterMap (fun o => if o.1 = 1 then some o.2.1 else none) else []

/-- The read-sensitive addresses that a READ or SEQ reads or otherwise accesses. -/
def RmtSlot.touches (x : RmtSlot) : List Nat :=
  (if x.op = 1 then [x.addr] else if x.op = 4 then x.seq.map (·.2.1) else []).filter farSensitive

/-- A slot whose read of a read-sensitive address is in flight, an RMW or CMPW of a sequence included, or unclaimed (R477). -/
def RmtSlot.holdsRead (x : RmtSlot) (tgt a : Nat) : Bool :=
  let flying := if x.op = 1 then [x.addr] else if x.op = 4 then x.seq.filterMap (fun o => if o.1 = 2 then none else some o.2.1) else []
  x.tgt = tgt && farSensitive a && ((x.state = 1 && x.sent && flying.contains a) || (x.held.isSome && x.reads.contains a))

/-- A READ or SEQ that must wait behind an earlier read-sensitive read (R477). -/
def Gw.mustWait (g : Gw) (i : Nat) (x : RmtSlot) : Bool :=
  x.touches.any (fun a => (List.range 32).any (fun j => j ≠ i && (g.rmtAt j).holdsRead x.tgt a))

/-- The numbers a request carries (R470): tag, operation, address, data, flags, and a sequence's operations. What the flags are
is open. [Log 107: DEDUCED] -/
def RmtSlot.body (x : RmtSlot) : List Int :=
  ([x.tag, x.op, x.addr, x.wdata, Config.requestFlags x.op] ++
    x.seq.flatMap (fun o => [o.1, o.2.1, o.2.2.1, o.2.2.2])).map Int.ofNat

/-- A lost read is logged (R476). -/
def Gw.lostRead (g : Gw) (tgt a : Nat) : Gw :=
  (((g.bump Reg.rmtLostCnt).setRegN Reg.rmtLostLast tgt).setRegN Reg.rmtLostAddr a).flag Reg.rmtFlag 0x80000000

/-- Unclaimed data is discarded, and the slot is idle (R474, R476). -/
def Gw.discardData (g : Gw) (i : Nat) : Gw :=
  let x := g.rmtAt i
  if x.held.isNone then g
  else
    let g := (g.setRmt i { x with state := 0, held := none }).bump Reg.rmtDiscardCnt
    (x.reads.filter farSensitive).foldl (fun g a => g.lostRead x.tgt a) g

/-- The reply of RMT_EXEC once its slot has ended (R620). -/
def Gw.rmtReply (g : Gw) (i : Nat) : Gw :=
  let x := g.rmtAt i
  match x.mbx with
  | some m =>
    let w0 := x.err * 2 ^ 26 + x.doneOps * 2 ^ 22 + x.bseq
    let g := g.setRmt i { x with state := 0, held := none, mbx := none }
    g.reply m (if x.state = 3 then stRemoteFail else stOk) 0
      (w0 :: (List.range 8).map (fun k => x.rdata.getD k 0))
  | none => g

/-- A slot ends in ERROR. -/
def Gw.rmtError (g : Gw) (i code doneOps : Nat) : Gw :=
  (g.setRmt i { g.rmtAt i with state := 3, err := code, doneOps := doneOps, held := none }).rmtReply i

/-- A request is sent once (R472); with no route it ends in NOROUTE (R455). To the module's own address it ends here. -/
def Gw.rmtSend (g : Gw) (i : Nat) : Gw :=
  let x := g.rmtAt i
  let m : SideMsg := { cls := 2, typ := 0, dst := x.tgt, src := g.chnAddr, hops := 4094, body := x.body }
  let g := g.setRmt i { x with sent := true }
  if x.tgt = g.chnAddr && x.tgt ≠ 0 then g.terminate 2 0 m
  else
    match g.routeTo x.tgt with
    | some k => g.sideSend k m
    | none => g.rmtError i 6 0

/-- A BCAST write is posted: sent with the next BSEQ, and the slot reads DONE (R479). -/
def Gw.rmtBcast (g : Gw) (i : Nat) : Gw :=
  let x := g.rmtAt i
  let b := g.rmt.bseq
  let m : SideMsg := { cls := 2, typ := 3, dst := 0xFFF, src := g.chnAddr, hops := x.hops,
                       body := [b, x.addr, x.wdata].map Int.ofNat }
  let g := { g with rmt := { g.rmt with bseq := (b + 1) % 65536 } }
  let g := (g.sideSend 0 m).sideSend 1 m
  (g.setRmt i { x with state := 2, bseq := b }).rmtReply i

/-- An operation starts in slot `i` (R471). [Log 107: DEDUCED] -/
def Gw.rmtStart (g : Gw) (i : Nat) (x : RmtSlot) : Gw :=
  if (g.rmtAt i).state = 1 then g
  else
    let g := g.discardData i
    let y : RmtSlot := { x with state := 1, tag := g.rmt.nextTag, start := g.tb.tick, bseq := (g.rmtAt i).bseq }
    let g := { g with rmt := { g.rmt with nextTag := (g.rmt.nextTag + 1) % 65536 } }
    let g := g.setRmt i y
    if y.op = 5 then g.rmtBcast i else if g.mustWait i y then g else g.rmtSend i

/-- The operations of a sequence buffer: they end at the first operation word with code 0 (R490). -/
def Gw.seqOps (g : Gw) (i : Nat) : List (Nat × Nat × Nat × Nat) :=
  let w := fun (j k : Nat) => g.regN (Reg.rmtSeqbuf (64 * i + 4 * j + k))
  ((List.range 8).map (fun j => (w j 0 % 16, w j 1, w j 2, w j 3))).takeWhile (fun o => o.1 ≠ 0)

/-- A write of OP to RMT_CMD_s (R471). -/
def Gw.rmtCmd (g : Gw) (i op : Nat) : Gw :=
  if 16 ≤ i || !g.islOn 10 || op = 0 || 5 < op then g
  else
    let t := g.regN (Reg.rmtTgt i)
    g.rmtStart i { op := op, tgt := bits t 11 0, hops := bits t 27 16, addr := g.regN (Reg.rmtAddr i),
                   wdata := g.regN (Reg.rmtWdata i), seq := if op = 4 then g.seqOps i else [] }

def execRmtCmdRead (i : Nat) (s : State) : Host.Outcome State Fault Refusal := answer (onGw (fun g => g.rmtCmd i 1)) s
def execRmtCmdWrite (i : Nat) (s : State) : Host.Outcome State Fault Refusal := answer (onGw (fun g => g.rmtCmd i 2)) s
def execRmtCmdReadLine (i : Nat) (s : State) : Host.Outcome State Fault Refusal := answer (onGw (fun g => g.rmtCmd i 3)) s
def execRmtCmdSeq (i : Nat) (s : State) : Host.Outcome State Fault Refusal := answer (onGw (fun g => g.rmtCmd i 4)) s
def execRmtCmdBcast (i : Nat) (s : State) : Host.Outcome State Fault Refusal := answer (onGw (fun g => g.rmtCmd i 5)) s

/-- A read held back is sent once the earlier data is claimed or discarded (R477). -/
def Gw.rmtDeferred (g : Gw) (i : Nat) : Gw :=
  let x := g.rmtAt i
  if x.state = 1 && !x.sent && !g.mustWait i x && g.islOn 10 then g.rmtSend i else g

def execRmtDeferredSend (i : Nat) (s : State) : Host.Outcome State Fault Refusal :=
  answer (onGw (fun g => g.rmtDeferred i)) s

/-! ### Far error log (R483) -/

/-- An entry of the far error log; a full log stores nothing more. -/
def Gw.farError (g : Gw) (addr code module bseq : Nat) (posted : Bool) : Gw :=
  let e : FarEntry := { w0 := addr, w1 := code * 2 ^ 28 + module % 4096 * 65536 + bseq % 65536,
                        w2 := 2 ^ 31 + atBit 30 posted }
  let g := g.flag Reg.rmtFlag 0x40000000
  if 32 ≤ g.farLog.length then (g.flag Reg.rmtFlag 0x20000000).bump Reg.rmtFerrLost
  else { g with farLog := g.farLog ++ [e] }

/-- FAR_ERROR_REPORT: the oldest error report is entered (R483). -/
def Gw.farReport (g : Gw) : Gw :=
  match g.takeMsg 2 2 with
  | none => g
  | some (x, g) =>
    let n := fun (i : Nat) => (x.msg.body.getD i 0).toNat
    g.farError (n 1) (n 0) x.msg.src (n 2) (n 3 = 1)

def execFarErrorReport (s : State) : Host.Outcome State Fault Refusal :=
  answer (onGw (fun g => if g.islOn 10 then g.farReport else g)) s

def Gw.ferrRead0 (g : Gw) : Gw :=
  let ws := match g.farLog.head? with
    | some e => [e.w0, e.w1, e.w2]
    | none => [0, 0, 0]
  { g with rmt := { g.rmt with ferrLatched := ws, ferrArmed := !g.farLog.isEmpty } }.emit
    (.readData Reg.rmtFerrEnt0 (w32 (ws.getD 0 0)))

def Gw.ferrRead2 (g : Gw) : Gw :=
  let v := g.rmt.ferrLatched.getD 2 0
  { g with farLog := if g.rmt.ferrArmed then g.farLog.drop 1 else g.farLog,
           rmt := { g.rmt with ferrArmed := false } }.emit (.readData Reg.rmtFerrEnt2 (w32 v))

def execRmtFerrEnt0Read (s : State) : Host.Outcome State Fault Refusal :=
  answer (onGw (fun g => if g.islOn 10 then g.ferrRead0 else g.emit (.readData Reg.rmtFerrEnt0 0))) s

def execRmtFerrEnt2Read (s : State) : Host.Outcome State Fault Refusal :=
  answer (onGw (fun g => if g.islOn 10 then g.ferrRead2 else g.emit (.readData Reg.rmtFerrEnt2 0))) s

/-! ### Responses, claims, expiries (R472–R474, R480) -/

/-- The values that a sequence read, each at the index of its READ (R489). -/
def spreadReads : List (Nat × Nat × Nat × Nat) → List Nat → List Nat
  | [], _ => []
  | o :: r, data => if o.1 = 1 then data.headD 0 :: spreadReads r (data.drop 1) else 0 :: spreadReads r data

/-- A response to an open operation: DONE with its data, or ERROR (R472, R478, R481, R482). The firmware claims its data
at once (R620). [Log 107: DEDUCED] -/
def Gw.rmtAnswered (g : Gw) (i code doneOps : Nat) (data : List Nat) : Gw :=
  let x := g.rmtAt i
  let data := if x.op = 4 then spreadReads x.seq data else data
  if code ≠ 0 then
    (g.setRmt i { x with state := 3, err := code, doneOps := doneOps, rdata := data, held := none }).rmtReply i
  else
    let reading := x.op = 1 || x.op = 3 || (x.op = 4 && x.seq.any (fun o => o.1 = 1))
    (g.setRmt i { x with state := 2, err := 0, doneOps := doneOps, rdata := data,
                         held := if reading then some g.tb.tick else none }).rmtReply i

/-- A response later than its time limit, with `n` data words: discarded and counted; a late error is logged, and each read of a
read-sensitive address whose data it brings is a lost read (R476, R480). [Log 107: DEDUCED] -/
def Gw.rmtLate (g : Gw) (tag code src n : Nat) : Gw :=
  match g.rmt.late.find? (fun l => l.1 = tag) with
  | some (_, tgt, addr, reads) =>
    let g := { g with rmt := { g.rmt with late := g.rmt.late.filter (fun l => l.1 != tag) } }
    let g := (g.bump Reg.rmtLateCnt).flag Reg.rmtFlag 0x10000000
    let g := if code ≠ 0 then g.farError addr code src tag false else g
    ((reads.take n).filter farSensitive).foldl (fun g a => g.lostRead tgt a) g
  | none => g

/-- [Log 107: DEDUCED] -/
def Gw.rmtResponse (g : Gw) : Gw :=
  match g.takeMsg 2 1 with
  | none => g
  | some (x, g) =>
    let n := fun (i : Nat) => (x.msg.body.getD i 0).toNat
    match (List.range 32).find? (fun i => (g.rmtAt i).state = 1 && (g.rmtAt i).sent && (g.rmtAt i).tag = n 0) with
    | some i => g.rmtAnswered i (n 1) (n 2) ((x.msg.body.drop 3).map Int.toNat)
    | none => g.rmtLate (n 0) (n 1) x.msg.src (x.msg.body.length - 3)

def execRmtResponseArrival (s : State) : Host.Outcome State Fault Refusal :=
  answer (onGw (fun g => if g.islOn 10 then g.rmtResponse else g)) s

/-- A read of RMT_RDATA0_s claims the data (R473). -/
def Gw.rmtClaim (g : Gw) (i : Nat) : Gw :=
  let x := g.rmtAt i
  if x.held.isSome then g.setRmt i { x with state := 0, held := none } else g

def execRmtRdata0Read (i : Nat) (s : State) : Host.Outcome State Fault Refusal :=
  answer (onGw (fun g =>
    if i < 16 && g.islOn 10 then (g.rmtClaim i).emit (.readData (Reg.rmtRdata0 i) (w32 ((g.rmtAt i).rdata.getD 0 0)))
    else g.emit (.readData (Reg.rmtRdata0 i) 0))) s

def Gw.rmtHoldExpiry (g : Gw) (i : Nat) : Gw :=
  match (g.rmtAt i).held with
  | some t => if t + max 1 (g.param Par.rmtHoldMs) * ticksPerMs ≤ g.tb.tick then g.discardData i else g
  | none => g

def execRmtHoldExpiry (i : Nat) (s : State) : Host.Outcome State Fault Refusal :=
  answer (onGw (fun g => if i < 32 && g.islOn 10 then g.rmtHoldExpiry i else g)) s

/-- No response in time: ERROR TIMEOUT (R480). [Log 2: DESIGN CHOICE] -/
def Gw.rmtTimeout (g : Gw) (i : Nat) : Gw :=
  let x := g.rmtAt i
  if x.state = 1 && x.start + g.param Par.rmtTmoUs * ticksPerUs ≤ g.tb.tick then
    let g := if x.sent then { g with rmt := { g.rmt with late := g.rmt.late ++ [(x.tag, x.tgt, x.addr, x.reads)] } } else g
    g.rmtError i 8 0
  else g

def execRmtTimeout (i : Nat) (s : State) : Host.Outcome State Fault Refusal :=
  answer (onGw (fun g => if i < 32 && g.islOn 10 then g.rmtTimeout i else g)) s

end Sys2Proof.Machine
end

