-- ==== Sys2Proof/Machine/Power.lean ====
section
/-! DEFINITION. The protected load channels (R647–R678) and the die link (R31, R628): DIE_LINK_MESSAGE to
PWM_PERIOD_START, DIE_LINK_ACK, DIE_LINK_ACK_TIMEOUT, and the mailbox commands PWR_SET, PWR_RESTART, PWR_PROFILE and
PWR_STATUS. The power die counts its own time, so a command of the power die carries the reading `us` of its counter of
microseconds; one that names an earlier reading, or whose event is not due, has no effect. On the Z96N nothing of this
exists. -/

namespace Sys2Proof.Machine

/-! ### Channels -/

/-- Rated current and highest current limit in mA (R647). -/
def ratedMa (n : Nat) : Nat := if n < 4 then 10000 else 5000
def highestMa (n : Nat) : Nat := if n < 4 then 60000 else 30000

/-- A channel after a power-die reset (R654). -/
def pdDefault (n : Nat) : PdChan := { prof := { ilim := ratedMa n / 10 } }

def Pdie.chan (p : Pdie) (n : Nat) : PdChan := mgetD p.chans n (pdDefault n)

def Pdie.setChan (p : Pdie) (n : Nat) (c : PdChan) : Pdie := { p with chans := mput p.chans n c (pdDefault n) }

def Pdie.all (p : Pdie) : List (Nat × PdChan) := (List.range 16).map (fun n => (n, p.chan n))

/-- The commanded state asks for a conducting output: ON, PWM, or SAFE with safe state on or limp (R649, R670). -/
def PdChan.wants (c : PdChan) : Bool := c.cmd = 1 || c.cmd = 2 || (c.cmd = 3 && c.prof.safe ≠ 0)

/-- The channel is compensated (R664). -/
def Pdie.comp (p : Pdie) (n : Nat) : Bool := bit p.compEn n

/-- The output conducts without switching: ON, or SAFE on, and not compensated. -/
def Pdie.constant (p : Pdie) (n : Nat) (c : PdChan) : Bool :=
  (c.cmd = 1 || (c.cmd = 3 && c.prof.safe = 1)) && !p.comp n

/-- Commanded duty in 0.1 % and frequency of a switching channel (R650, R664, R670). [Log 123: DEDUCED] -/
def PdChan.target (c : PdChan) : Nat × Nat :=
  if c.cmd = 2 then (c.duty, c.freq)
  else if c.cmd = 3 && c.prof.safe = 2 then (10 * c.prof.limp, 200)
  else (1000, c.freq)

/-- The effective duty: min(1,000, round(D × F)) for a compensated channel (R664). [Log 120: DEDUCED] -/
def Pdie.effDuty (p : Pdie) (n d : Nat) : Nat :=
  if p.comp n then min 1000 ((2 * d * (p.fNum * p.fNum) + p.fDen * p.fDen) / (2 * (p.fDen * p.fDen))) else d

/-- The steps of a stored or custom profile: (time in µs, peak in mA) (R652, R653). -/
def PdProfile.steps (f : PdProfile) (n : Nat) : List (Nat × Nat) :=
  let r := ratedMa n
  match f.typ with
  | 0 => [(1000, 6 * r), (5000, 4 * r), (20000, 5 * r / 2)]
  | 1 => [(2000, 2 * r)]
  | 2 => [(50000, 4 * r), (300000, 5 * r / 2)]
  | 3 => [(100000, 3 * r), (1000000, 3 * r / 2)]
  | 4 => [(10000, 3 * r)]
  | 5 => [(50000, 2 * r)]
  | _ => f.points.map (fun x => (1000 * x.1, 10 * x.2))

/-- The blanking time in µs. -/
def PdProfile.blanking (f : PdProfile) : Nat :=
  match f.typ with
  | 0 => 20000
  | 1 => 2000
  | 2 => 300000
  | 3 => 1000000
  | 4 => 10000
  | 5 => 50000
  | _ => f.blankUs

/-- The current limit in force in mA at time `us`: the profile's peak in blanking, I_LIM after it (R652, R655). -/
def PdChan.limitMa (c : PdChan) (n us : Nat) : Nat :=
  match c.blankFrom with
  | some b =>
    let st := c.prof.steps n
    let peak := match st.find? (fun x => us - b ≤ x.1) with
      | some x => x.2
      | none => (st.getLast?.map (fun x => x.2)).getD (10 * c.prof.ilim)
    min peak (highestMa n)
  | none => min (10 * c.prof.ilim) (highestMa n)

/-- A channel begins to conduct: inrush blanking starts (R651). -/
def Pdie.turnOn (p : Pdie) (n : Nat) (c : PdChan) : PdChan :=
  { c with out := true, onFrom := some p.us, pwmFrom := none
           blankFrom := if c.prof.blanking = 0 then none else some p.us
           actDuty := if p.constant n c then 1000 else 0
           actFreq := c.target.2 }

/-- A channel stops conducting; a limit event ends with it (R655). -/
def PdChan.turnOff (c : PdChan) : PdChan :=
  { c with out := false, onFrom := none, pwmFrom := none, blankFrom := none, limit := false, limitEv := false,
           actDuty := 0 }

/-- The end of a limit event noted for the freeze (R665). -/
def Pdie.noteLimitEnd (p : Pdie) (was : PdChan) : Pdie := if was.limitEv then { p with limitEnded := p.us } else p

/-- The commanded state of a channel changed, the output following unless protection or the supply holds it off
(R649, R651). -/
def Pdie.command (p : Pdie) (n : Nat) (f : PdChan → PdChan) : Pdie :=
  let c0 := p.chan n
  let c := f c0
  if c.latched || p.supply ≠ 0 then p.setChan n c
  else if !c0.out && c.wants then p.setChan n (p.turnOn n c)
  else if c0.out && !c.wants then (p.noteLimitEnd c0).setChan n c.turnOff
  else if c.out && p.constant n c then p.setChan n { c with actDuty := 1000 }
  else p.setChan n c

/-! ### Messages to the gateway die -/

/-- The firmware of pair 1 receives the die link's messages. -/
def Gw.hears (g : Gw) : Bool := g.pairRuns 1

/-- The outputs whose state a change of the power die alters, on the pins, timed by the power die's counter.
[Log 160: DESIGN CHOICE] -/
def pdPins (old new : Pdie) : List Out :=
  (List.range 16).filterMap (fun n =>
    if (old.chan n).out = (new.chan n).out then none else some (.pin "P" n (new.chan n).out (Int.ofNat new.us)))

/-- The power die replaced, its pins following. -/
def Gw.withPd (g : Gw) (p : Pdie) : Gw := { g with pdie := p }.emitAll (pdPins g.pdie p)

/-- An event message (R668): the state of channel `n` and the module-wide conditions reach the gateway die; `f` adds
flags and counts. -/
def Gw.pdEvent (g : Gw) (n : Option Nat) (f : Gw → Gw) : Gw :=
  if g.hears then
    let p := g.pdie
    let s := { g.die.seen with hold := p.hold, supply := p.supply, frozen := p.frozen }
    let s := match n with
      | some k => s.setChan k (p.chan k)
      | none => { s with chans := p.chans }
    f { g with die := { g.die with seen := s } }
  else g

/-- The flag and counter of a latch-off cause: 1 SHORT, 2 THERMAL, 3 I2T (R658). -/
def pdCount (n cause : Nat) (g : Gw) : Gw :=
  if cause = 1 then (g.bump (Reg.pwrScCnt n)).flag Reg.pwrFlag 0x80000000
  else if cause = 2 then (g.bump (Reg.pwrTsdCnt n)).flag Reg.pwrFlag 0x20000000
  else (g.bump (Reg.pwrI2tCnt n)).flag Reg.pwrFlag 0x40000000

/-- A channel latches off (R656–R659, R662). A channel that is latched already keeps its cause. [Log 122: DEDUCED] -/
def Gw.pdLatch (g : Gw) (n cause : Nat) : Gw :=
  let p := g.pdie
  let c := p.chan n
  if c.latched then g
  else
    let c' := { c.turnOff with latched := true, cause := cause, latchAt := p.us }
    let g := g.withPd ((p.noteLimitEnd c).setChan n c')
    let exh := c.prof.policy = 1 && c.retriesLeft = 0
    g.pdEvent (some n) (fun g => let g := pdCount n cause g
                                 if exh then g.flag Reg.pwrFlag 0x00400000 else g)

/-- A command of the power die at its time `us`. [Log 120: DEDUCED] -/
def Gw.pdAt (g : Gw) (us : Nat) (f : Gw → Gw) : Gw :=
  if g.partN || us < g.pdie.us then g else f { g with pdie := { g.pdie with us := us } }

/-! ### Settings (R31, R628, R629) -/

/-- The restart condition of a latched channel's cause (R661), `tj` the junction temperature in 0.1 °C. -/
def PdChan.mayRestart (c : PdChan) (us : Nat) (tj : Int) : Bool :=
  match c.cause with
  | 1 => c.latchAt + 100000 ≤ us && tj ≤ 1500
  | 2 => tj ≤ 1500
  | _ => c.w ≤ 1 / 2

/-- A restart: the latch released, the commanded state resumed with blanking (R663). [Log 124: DEDUCED] -/
def Pdie.release (p : Pdie) (n : Nat) : Pdie := p.command n (fun c => { c with latched := false, cause := 0 })

/-- A latched channel restarted, counted unless its commanded state keeps it off. [Log 124: DEDUCED] -/
def Gw.pdRestart (g : Gw) (n : Nat) : Gw :=
  let wants := (g.pdie.chan n).wants
  (g.withPd (g.pdie.release n)).pdEvent (some n) (fun g => if wants then g.bump (Reg.pwrRestartCnt n) else g)

/-- PWR_RESTART on one channel at junction temperature `tj`; its retries are reloaded, released or not (R662). -/
def Gw.pdRestartBy (g : Gw) (n : Nat) (tj : Int) : Gw × Bool :=
  let c := g.pdie.chan n
  let g := { g with pdie := g.pdie.setChan n { c with retriesLeft := if c.prof.policy = 1 then c.prof.retries else 0 } }
  if c.latched && c.mayRestart g.pdie.us tj then (g.pdRestart n, true) else (g, false)

/-- A checked setting applied by the power die, and the channel mask of its acknowledgement. -/
def Gw.pdApply (g : Gw) (tj : List Int) : DieMsg → Gw × Option (Nat × Nat)
  | .set op mask duty freq mbx =>
    let chans := bitList 16 mask
    let refused := (chans.filter (fun n => (g.pdie.chan n).latched)).foldl (fun a n => a + 2 ^ n) 0
    let p := chans.foldl (fun (p : Pdie) n => p.command n (fun c =>
      if op = 2 then { c with cmd := 2, duty := duty, freq := freq } else { c with cmd := op })) g.pdie
    (g.withPd p, mbx.map (fun m => (m, refused)))
  | .restart mask mbx =>
    let r := (bitList 16 mask).foldl (fun (x : Gw × Nat) n =>
      let y := x.1.pdRestartBy n (tj.getD n 0)
      (y.1, x.2 + if y.2 then 2 ^ n else 0)) (g, 0)
    (r.1, mbx.map (fun m => (m, r.2)))
  | .profile n f =>
    let c := g.pdie.chan n
    if c.wants || c.out then (g, none)
    else ({ g with pdie := g.pdie.setChan n { c with prof := f, retriesLeft := if f.policy = 1 then f.retries else 0 } },
      none)
  | .keep v => ({ g with pdie := { g.pdie with keep := v } }, none)
  | .setting id v =>
    let p := g.pdie
    if id = Par.pwrHoldTMs then ({ g with pdie := { p with holdMs := v } }, none)
    else if id = Par.pwrHbMs then ({ g with pdie := { p with hbMs := v } }, none)
    else if id = Par.pwrVnomMv then ({ g with pdie := { p with vnom := v } }, none)
    else
      let p := { p with compEn := v }
      let p := p.all.foldl (fun (p : Pdie) x =>
        if x.2.out && p.constant x.1 x.2 then p.setChan x.1 { x.2 with actDuty := 1000 } else p) p
      (g.withPd p, none)

/-- A setting message ends at the power die: applied when its check holds, else discarded and reported later (R31).
[Log 125: DEDUCED] -/
def Gw.dieMessage (g : Gw) (ok : Bool) (tj : List Int) : Gw :=
  match g.die.toDie with
  | [] => g
  | x :: rest =>
    let g := { g with die := { g.die with toDie := rest } }
    if ok then
      let r := g.pdApply tj x
      match r.2 with
      | some a => { r.1 with die := { r.1.die with acks := r.1.die.acks ++ [a] } }
      | none => r.1
    else { g with pdie := { g.pdie with disc := true } }

def execDieLinkMessage (ok : Bool) (us : Nat) (tj : List Int) (s : State) : Host.Outcome State Fault Refusal :=
  answer (onGw (fun g => g.pdAt us (fun g => g.dieMessage ok tj))) s

/-- A setting sent over the die link, which the Z96N never starts. -/
def Gw.toDie (g : Gw) (x : DieMsg) : Gw :=
  if g.partN then g else { g with die := { g.die with toDie := g.die.toDie ++ [x] } }

/-- The firmware passes a load-channel parameter on to the power die. -/
def Gw.passSetting (g : Gw) (id : Nat) : Gw := g.toDie (.setting id (g.param id))

/-- The acknowledgement of a channel command reaches the firmware (R628). [Log 125: DEDUCED] -/
def Gw.dieAck (g : Gw) : Gw :=
  match g.die.acks with
  | [] => g
  | (m, w) :: rest =>
    let g := { g with die := { g.die with acks := rest } }
    if (mget? g.die.sent m).isSome then
      ({ g with die := { g.die with sent := merase g.die.sent m } }).reply m stOk 0 [65536 * w]
    else g

def execDieLinkAck (s : State) : Host.Outcome State Fault Refusal :=
  answer (onGw (fun g => if g.hears then g.dieAck else g)) s

/-- No acknowledgement within 5 ms (R628). -/
def Gw.dieAckTimeout (g : Gw) (m : Nat) : Gw :=
  match mget? g.die.sent m with
  | some t =>
    if t + 5 * ticksPerMs ≤ g.tb.tick then
      ({ g with die := { g.die with sent := merase g.die.sent m } }).reply m stTimeout 0 []
    else g
  | none => g

def execDieLinkAckTimeout (m : Nat) (s : State) : Host.Outcome State Fault Refusal :=
  answer (onGw (fun g => if g.hears then g.dieAckTimeout m else g)) s

/-! ### Heartbeat and hold (R669–R671) -/

/-- Pair 1 sends a heartbeat every PWR_HB_MS. -/
def Gw.heartbeat (g : Gw) : Gw :=
  let due := match g.die.hbTick with
    | some t => t + g.param Par.pwrHbMs * ticksPerMs ≤ g.tb.tick
    | none => true
  if g.hears && due then
    let p := g.pdie
    let g := { g with die := { g.die with hbTick := some g.tb.tick }, pdie := { p with lastHb := p.us, hbBack := p.hold, keeper := false } }
    let g := { g with ho := g.ho.map (fun (h : Handover) => if bit h.pairsNew 1 then { h with heartbeat := true } else h) }
    g.emit (.dieLink 0 [])
  else g

def execHeartbeatSend (us : Nat) (s : State) : Host.Outcome State Fault Refusal :=
  answer (onGw (fun g => g.pdAt us Gw.heartbeat)) s

/-- Every channel takes its safe state (R670). -/
def Gw.safeStates (g : Gw) : Gw :=
  let p := (List.range 16).foldl (fun (p : Pdie) n => p.command n (fun c => { c with cmd := 3 })) g.pdie
  (g.withPd { p with safeDone := true }).pdEvent none (fun g => g.flag Reg.pwrFlag 0x01000000)

/-- 3 × PWR_HB_MS without a heartbeat: hold (R669), but not in keeper mode (R689). [Log 2: DESIGN CHOICE] -/
def Gw.heartbeatLoss (g : Gw) : Gw :=
  let p := g.pdie
  if !p.hold && !p.keeper && p.lastHb + 3000 * p.hbMs ≤ p.us then
    let g := { g with pdie := { p with hold := true, holdFrom := p.us, hbBack := false, safeDone := false } }
    let g := g.pdEvent none (fun g => g.flag Reg.pwrFlag 0x02000000)
    if p.holdMs = 0 then g.safeStates else g
  else g

def execHeartbeatLoss (us : Nat) (s : State) : Host.Outcome State Fault Refusal :=
  answer (onGw (fun g => g.pdAt us Gw.heartbeatLoss)) s

/-- [Log 2: DESIGN CHOICE] -/
def Gw.holdTimeout (g : Gw) : Gw :=
  let p := g.pdie
  if p.hold && !p.safeDone && p.holdFrom + 1000 * p.holdMs ≤ p.us then g.safeStates else g

def execHoldTimeout (us : Nat) (s : State) : Host.Outcome State Fault Refusal :=
  answer (onGw (fun g => g.pdAt us Gw.holdTimeout)) s

/-- The heartbeat is back: hold ends, and the next status message is adopted (R671). [Log 147: DEDUCED] -/
def Gw.heartbeatReturn (g : Gw) : Gw :=
  let p := g.pdie
  if p.hold && p.hbBack then
    { g with pdie := { p with hold := false, hbBack := false, adopt := true } }.pdEvent none id
  else g

def execHeartbeatReturn (us : Nat) (s : State) : Host.Outcome State Fault Refusal :=
  answer (onGw (fun g => g.pdAt us Gw.heartbeatReturn)) s

/-! ### Telemetry (R667) -/

/-- The telemetry LSB in mA (R647). [Log 120: DEDUCED] -/
def telemetryLsb (n : Nat) : Nat := if n < 4 then 16 else 8

/-- A status message: the means `cur` of the window in mA become codes in the LSB of R647; temperatures and VBAT as measured.
[Log 120: DEDUCED, 126: DEDUCED] -/
def Gw.statusMessage (g : Gw) (cur : List Nat) (tj : List Int) (vbat : Nat) (temp : Int) : Gw :=
  let p := g.pdie
  if p.lastStatus + 500 ≤ p.us then
    let q := (List.range 16).foldl (fun (q : Pdie) n =>
      let c := q.chan n
      q.setChan n { c with cur := min 4095 (cur.getD n 0 / telemetryLsb n), tj := tj.getD n c.tj }) p
    let q := { q with vbat := vbat, temp := temp, seq := (p.seq + 1) % 65536, lastStatus := p.us }
    let g := { g with pdie := { q with disc := false, adopt := q.adopt && !g.hears } }
    if g.hears then
      let g := { g with die := { g.die with seen := q, link := true, sample := (g.now / 8).toNat } }
      let g := if q.disc then g.flag Reg.pwrFlag 0x00800000 else g
      if q.adopt then g.note "power states adopted" (q.all.map (fun x => Int.ofNat x.2.cmd)) else g
    else g
  else g

def execStatusMessage (us : Nat) (cur : List Nat) (tj : List Int) (vbat : Nat) (temp : Int) (s : State) :
    Host.Outcome State Fault Refusal :=
  answer (onGw (fun g => g.pdAt us (fun g => g.statusMessage cur tj vbat temp))) s

/-! ### Supply (R648, R654) -/

/-- The supply leaves its range: every channel off. [Log 124: DEDUCED] -/
def Gw.supplyOff (g : Gw) (code : Nat) : Gw :=
  let p := g.pdie
  if p.supply = code then g
  else
    let q := p.all.foldl (fun (q : Pdie) x => if x.2.out then (q.noteLimitEnd x.2).setChan x.1 x.2.turnOff else q) p
    let q := if code = 1 then { q with supply := 1, uvChanges := q.uvChanges + 1 }
      else { q with supply := 2, ovChanges := q.ovChanges + 1 }
    (g.withPd q).pdEvent none (fun g => g.flag Reg.pwrFlag (if code = 1 then 0x08000000 else 0x04000000))

def execVbatUndervoltage (us : Nat) (s : State) : Host.Outcome State Fault Refusal :=
  answer (onGw (fun g => g.pdAt us (fun g => g.supplyOff 1))) s

def execVbatOvervoltage (us : Nat) (s : State) : Host.Outcome State Fault Refusal :=
  answer (onGw (fun g => g.pdAt us (fun g => g.supplyOff 2))) s

/-- The supply is back: the channels return to their commanded states, each starting with blanking. -/
def Gw.supplyBack (g : Gw) : Gw :=
  let p := g.pdie
  if p.supply = 0 then g
  else
    let q := if p.supply = 1 then { p with supply := 0, uvChanges := p.uvChanges + 1 }
      else { p with supply := 0, ovChanges := p.ovChanges + 1 }
    let q := q.all.foldl (fun (q : Pdie) x => q.command x.1 id) q
    (g.withPd q).pdEvent none id

def execVbatReturn (us : Nat) (s : State) : Host.Outcome State Fault Refusal :=
  answer (onGw (fun g => g.pdAt us Gw.supplyBack)) s

/-- The power die resets: every channel off, every setting lost (R648, R654, R672). [Log 147: DEDUCED] -/
def Gw.pdReset (g : Gw) : Gw :=
  if g.partN then g
  else
    let us := g.pdie.us
    g.withPd { us := us, lastHb := us, lastStatus := us, lastFuse := us, lastComp := us }

def execPowerDieReset (us : Nat) (s : State) : Host.Outcome State Fault Refusal :=
  answer (onGw (fun g => g.pdAt us Gw.pdReset)) s

/-! ### Protection (R655–R659) -/

/-- A limit event begins: counted, and F frozen (R655, R665). [Log 122: DEDUCED] -/
def Gw.limitEvent (g : Gw) (n : Nat) : Gw :=
  let p := g.pdie
  let g := { g with pdie := { p.setChan n { p.chan n with limitEv := true } with frozen := true } }
  g.pdEvent (some n) (fun g => g.bump (Reg.pwrLimevCnt n))

/-- The current of a conducting channel reaches the limit in force. -/
def Gw.currentLimit (g : Gw) (n cur : Nat) : Gw :=
  let p := g.pdie
  let c := p.chan n
  if c.out && !c.limit && c.limitMa n p.us ≤ cur then
    let g := { g with pdie := p.setChan n { c with limit := true, limitFrom := p.us } }
    if c.blankFrom.isNone && !c.limitEv then g.limitEvent n else g
  else g

def execCurrentLimitReached (n us cur : Nat) (s : State) : Host.Outcome State Fault Refusal :=
  answer (onGw (fun g => g.pdAt us (fun g => if n < 16 then g.currentLimit n cur else g))) s

/-- 10 µs in limit with the output below 2.0 V (R656); TYPE 4 waits for the end of blanking. -/
def Gw.shortDetect (g : Gw) (n : Nat) : Gw :=
  let c := g.pdie.chan n
  if c.limit && c.limitFrom + 10 ≤ g.pdie.us && !(c.prof.typ = 4 && c.blankFrom.isSome) then g.pdLatch n 1 else g

def execShortDetect (n us : Nat) (s : State) : Host.Outcome State Fault Refusal :=
  answer (onGw (fun g => g.pdAt us (fun g => if n < 16 then g.shortDetect n else g))) s

def execThermalShutdown (n us : Nat) (s : State) : Host.Outcome State Fault Refusal :=
  answer (onGw (fun g => g.pdAt us (fun g => if n < 16 then g.pdLatch n 2 else g))) s

/-- I_0 in mA and τ in s for the largest tabulated cross-section not above WIRE (R660). -/
def wireData (wire : Nat) : Nat × Nat :=
  if wire < 50 then (7500, 10) else if wire < 75 then (9500, 14) else if wire < 100 then (12000, 20)
  else if wire < 150 then (14500, 26) else if wire < 250 then (18500, 38) else if wire < 400 then (25000, 60)
  else if wire < 600 then (33000, 90) else (42000, 130)

/-- I_n² in mA² (R660). -/
def PdProfile.ratedSq (f : PdProfile) (n : Nat) : Rat :=
  let i0 := (wireData f.wire).1
  min ((ratedMa n * ratedMa n : Nat) : Rat) ((((i0 * i0 : Nat) : Int) * (150 - f.amb) : Int) / 125)

/-- The next fuse state from the mean squared current of the step in mA² (R659). [Log 121: DESIGN CHOICE] -/
def PdChan.nextW (c : PdChan) (n sq : Nat) : Rat :=
  let a := Config.fuseAlpha (wireData c.prof.wire).2
  a * c.w + (1 - a) * ((sq : Rat) / c.prof.ratedSq n)

/-- A fuse step of every channel; a channel whose W reaches 1 latches off.
[Log 2: DESIGN CHOICE, 120: DEDUCED, 121: DESIGN CHOICE] -/
def Gw.fuseStep (g : Gw) (sq : List Nat) : Gw :=
  if g.pdie.lastFuse + 100 ≤ g.pdie.us then
    let g := { g with pdie := { g.pdie with lastFuse := g.pdie.us } }
    (List.range 16).foldl (fun (g : Gw) n =>
      let c := g.pdie.chan n
      let w := c.nextW n (sq.getD n 0)
      let g := { g with pdie := g.pdie.setChan n { c with w := w } }
      if 1 ≤ w then g.pdLatch n 3 else g) g
  else g

def execFuseStep (us : Nat) (sq : List Nat) (s : State) : Host.Outcome State Fault Refusal :=
  answer (onGw (fun g => g.pdAt us (fun g => g.fuseStep sq))) s

/-- Blanking ends. A TYPE 4 channel still in limit below 2.0 V latches off; another channel in limit begins a limit event
(R652, R655, R656). -/
def Gw.blankingEnd (g : Gw) (n : Nat) (low : Bool) : Gw :=
  let p := g.pdie
  let c := p.chan n
  match c.blankFrom with
  | some b =>
    if b + c.prof.blanking ≤ p.us then
      let g := { g with pdie := p.setChan n { c with blankFrom := none } }
      if c.limit && low && c.prof.typ = 4 then g.pdLatch n 1
      else if c.limit then g.limitEvent n else g
    else g
  | none => g

def execBlankingEnd (n us : Nat) (low : Bool) (s : State) : Host.Outcome State Fault Refusal :=
  answer (onGw (fun g => g.pdAt us (fun g => if n < 16 then g.blankingEnd n low else g))) s

/-- The current has stayed below the limit for 100 µs. -/
def Gw.limitEventEnd (g : Gw) (n : Nat) : Gw :=
  let p := g.pdie
  let c := p.chan n
  if c.limit && c.limitFrom + 100 ≤ p.us then
    { g with pdie := (p.noteLimitEnd c).setChan n { c with limit := false, limitEv := false } }.pdEvent (some n) id
  else g

def execLimitEventEnd (n us : Nat) (s : State) : Host.Outcome State Fault Refusal :=
  answer (onGw (fun g => g.pdAt us (fun g => if n < 16 then g.limitEventEnd n else g))) s

/-! ### Restart policies (R661–R663) -/

/-- A latched channel restarts by its policy, at least 1 s after the latch-off. -/
def Gw.restartTimer (g : Gw) (n : Nat) (tj : Int) : Gw :=
  let p := g.pdie
  let c := p.chan n
  let allowed := c.prof.policy = 2 || (c.prof.policy = 1 && 0 < c.retriesLeft)
  if c.latched && allowed && c.latchAt + 1000000 ≤ p.us && c.mayRestart p.us tj then
    let left := if c.prof.policy = 1 then c.retriesLeft - 1 else c.retriesLeft
    { g with pdie := p.setChan n { c with retriesLeft := left } }.pdRestart n
  else g

def execRestartTimer (n us : Nat) (tj : Int) (s : State) : Host.Outcome State Fault Refusal :=
  answer (onGw (fun g => g.pdAt us (fun g => if n < 16 then g.restartTimer n tj else g))) s

/-- 60 s on without a latch-off reloads the retries. -/
def Gw.retriesReload (g : Gw) (n : Nat) : Gw :=
  let p := g.pdie
  let c := p.chan n
  match c.onFrom with
  | some t =>
    if c.prof.policy = 1 && !c.latched && t + 60000000 ≤ p.us then
      { g with pdie := p.setChan n { c with retriesLeft := c.prof.retries } }
    else g
  | none => g

def execRetriesReload (n us : Nat) (s : State) : Host.Outcome State Fault Refusal :=
  answer (onGw (fun g => g.pdAt us (fun g => if n < 16 then g.retriesReload n else g))) s

/-! ### Open load (R666) -/

/-- The commanded states in which open load is evaluated: ON, PWM and SAFE on. -/
def PdChan.evaluates (c : PdChan) : Bool := (c.cmd = 1 || c.cmd = 2 || (c.cmd = 3 && c.prof.safe = 1)) && c.prof.olMa ≠ 0

/-- The time from which samples of a channel can count at the earliest: the end of its blanking while it conducts, and the
last change of its report. -/
def PdChan.olStart (c : PdChan) : Nat := max c.olFrom ((c.onFrom.map (· + c.prof.blanking)).getD 0)

/-- The current has stayed below OL_MA for OL_MS (`low`), or at or above it: the report changes. The instant cannot lie within
OL_MS of the first sample that counts. -/
def Gw.openLoad (g : Gw) (n : Nat) (low : Bool) : Gw :=
  let p := g.pdie
  let c := p.chan n
  if p.us < c.olStart + 1000 * c.prof.olMs then g
  else if low && !c.openLoad && c.evaluates then
    { g with pdie := p.setChan n { c with openLoad := true, olFrom := p.us } }.pdEvent (some n)
      (fun g => (g.bump (Reg.pwrOlCnt n)).flag Reg.pwrFlag 0x10000000)
  else if !low && c.openLoad then
    { g with pdie := p.setChan n { c with openLoad := false, olFrom := p.us } }.pdEvent (some n) id
  else g

def execOpenLoadTimer (n us : Nat) (low : Bool) (s : State) : Host.Outcome State Fault Refusal :=
  answer (onGw (fun g => g.pdAt us (fun g => if n < 16 then g.openLoad n low else g))) s

/-! ### Compensation and PWM (R650, R664, R665) -/

/-- F is recomputed from the mean of VBAT in mV unless it is frozen. [Log 120: DEDUCED] -/
def Gw.compUpdate (g : Gw) (vbat : Nat) : Gw :=
  let p := g.pdie
  if p.lastComp + 1000 ≤ p.us && !p.frozen && vbat ≠ 0 then
    { g with pdie := { p with fNum := p.vnom, fDen := vbat, lastComp := p.us } }
  else g

def execCompUpdate (us vbat : Nat) (s : State) : Host.Outcome State Fault Refusal :=
  answer (onGw (fun g => g.pdAt us (fun g => g.compUpdate vbat))) s

/-- 2 ms after the last limit event has ended. -/
def Gw.freezeEnd (g : Gw) : Gw :=
  let p := g.pdie
  if p.frozen && p.all.all (fun x => !x.2.limitEv) && p.limitEnded + 2000 ≤ p.us then
    { g with pdie := { p with frozen := false } }
  else g

def execFreezeEnd (us : Nat) (s : State) : Host.Outcome State Fault Refusal :=
  answer (onGw (fun g => g.pdAt us Gw.freezeEnd)) s

/-- The first period start of channel `n` at frequency `f` after a time: periods start at offsets of n/16 of the
period (R650), counted from the zero of the power die's counter. [Log 123: DEDUCED] -/
def periodStart (n f after : Nat) : Nat :=
  let k := after * 16 * f / 16000000
  let at' := fun (k : Nat) => ceilDiv ((16 * k + n) * 1000000) (16 * f)
  if after < at' (k - 1) then at' (k - 1) else if after < at' k then at' k else at' (k + 1)

/-- A period of a switching channel starts, and any new duty or frequency takes effect. -/
def Gw.pwmPeriod (g : Gw) (n : Nat) : Gw :=
  let p := g.pdie
  let c := p.chan n
  let t := c.target
  let next := match c.pwmFrom with
    | some b => periodStart n (max 1 c.actFreq) b
    | none => periodStart n (max 1 t.2) ((c.onFrom.getD 0) - 1)
  if c.out && !p.constant n c && next ≤ p.us then
    { g with pdie := p.setChan n { c with actDuty := p.effDuty n t.1, actFreq := t.2, pwmFrom := some next } }
  else g

def execPwmPeriodStart (n us : Nat) (s : State) : Host.Outcome State Fault Refusal :=
  answer (onGw (fun g => g.pdAt us (fun g => if n < 16 then g.pwmPeriod n else g))) s

/-! ### Mailbox commands of area 0x0B -/

/-- A channel command sent to the power die; its reply comes with the acknowledgement. -/
def Gw.sendChannels (g : Gw) (m : Nat) (x : DieMsg) : Gw × Answer :=
  ({ g with die := { g.die with toDie := g.die.toDie ++ [x], sent := mset g.die.sent m g.tb.tick } }, { later := true })

/-- PWR_SET with one OP; OP 3 and PWM values outside their ranges return BAD_ARG. -/
def pwrSet (op m : Nat) (g : Gw) : Gw × Answer :=
  let mask := bits (g.arg m 0) 31 16
  let duty := bits (g.arg m 1) 25 16
  let freq := bits (g.arg m 1) 8 0
  let o := bits (g.arg m 0) 1 0
  if o = 3 || (o = 2 && (1000 < duty || freq < 100 || 400 < freq)) then (g, failWith stBadArg)
  else g.sendChannels m (.set op mask duty freq (some m))

/-- The row of PWR_SET for one OP: it acts on requests with that OP, and every row refuses OP 3.
[Log 22: DESIGN CHOICE] -/
def pwrSetRow (op m : Nat) (s : State) : State :=
  let o := bits (s.gw.arg m 0) 1 0
  if o = op || o = 3 then directRow 0x0B01 (effGw (pwrSet op)) m s else s

def execPwrSetOff (m : Nat) (s : State) : Host.Outcome State Fault Refusal := answer (pwrSetRow 0 m) s
def execPwrSetOn (m : Nat) (s : State) : Host.Outcome State Fault Refusal := answer (pwrSetRow 1 m) s
def execPwrSetPwm (m : Nat) (s : State) : Host.Outcome State Fault Refusal := answer (pwrSetRow 2 m) s

def pwrRestart (m : Nat) (g : Gw) : Gw × Answer :=
  g.sendChannels m (.restart (bits (g.arg m 0) 31 16) (some m))

def execPwrRestart (m : Nat) (s : State) : Host.Outcome State Fault Refusal :=
  answer (directRow 0x0B02 (effGw pwrRestart) m) s

/-- A signed 8-bit field. -/
def asI8 (v : Nat) : Int := (BitVec.ofNat 8 v).toInt

/-- The profile that fourteen words give (R629); `w i` is word i. [Log 125: DEDUCED] -/
def profileOf (w : Nat → Nat) : PdProfile :=
  let typ := bits (w 0) 10 8
  { typ := typ, amb := asI8 (bits (w 1) 31 24), wire := bits (w 1) 15 0, policy := bits (w 2) 31 24
    retries := bits (w 2) 23 16, ilim := bits (w 2) 15 0, limp := bits (w 3) 15 8, safe := bits (w 3) 1 0
    olMs := bits (w 4) 31 16, olMa := bits (w 4) 15 0
    blankUs := if typ = 6 then w 5 else 0
    points := if typ = 6 then (List.range 8).map (fun i => (bits (w (6 + i)) 31 16, bits (w (6 + i)) 15 0)) else [] }

/-- Every field lies in its range, and the times of custom points ascend (R629). [Log 127: DEDUCED] -/
def PdProfile.ok (f : PdProfile) (n : Nat) : Bool :=
  f.typ ≤ 6 && -40 ≤ f.amb && f.amb ≤ 125 && 35 ≤ f.wire && f.wire ≤ 600 && f.policy ≤ 2 &&
    (f.policy ≠ 1 || 1 ≤ f.retries) && f.ilim ≤ highestMa n / 10 && 1 ≤ f.limp && f.limp ≤ 100 && f.safe ≤ 2 &&
    1 ≤ f.olMs && (f.points.zip (f.points.drop 1)).all (fun x => x.1.1 < x.2.1)

/-- PWR_PROFILE: only while the channel is off (R629). [Log 125: DEDUCED] -/
def pwrProfile (m : Nat) (g : Gw) : Gw × Answer :=
  let n := bits (g.arg m 0) 3 0
  let f := profileOf (g.arg m)
  let c := g.die.seen.chan n
  if !f.ok n then (g, failWith stBadArg)
  else if c.wants || c.out then (g, failWith stLocked)
  else (g.toDie (.profile n f), {})

def execPwrProfile (m : Nat) (s : State) : Host.Outcome State Fault Refusal :=
  answer (directRow 0x0B03 (effGw pwrProfile) m) s

/-- The mask of channels with a property. -/
def Pdie.mask (p : Pdie) (f : PdChan → Bool) : Nat := p.all.foldl (fun a x => a + if f x.2 then 2 ^ x.1 else 0) 0

/-- PWR_STATUS: the last telemetry (R630). -/
def pwrStatus (_m : Nat) (g : Gw) : Gw × Answer :=
  let p := g.die.seen
  let pair := fun (k : Nat) => (p.chan (2 * k + 1)).cur * 65536 + (p.chan (2 * k)).cur
  (g, { words := [p.mask PdChan.out * 65536 + p.mask PdChan.latched, p.mask PdChan.openLoad * 65536 + p.mask PdChan.limitEv]
          ++ (List.range 8).map pair ++ [p.vbat, (p.temp % 65536).toNat, g.die.sample % 4294967296] })

def execPwrStatus (m : Nat) (s : State) : Host.Outcome State Fault Refusal :=
  answer (directRow 0x0B04 (effGw pwrStatus) m) s

end Sys2Proof.Machine
end

