-- ==== Sys2Proof/Machine/Sleep.lean ====
section
/-! DEFINITION. Network sleep and wake (R679–R699): keep-alives, the collective sleep decision, the commit point, wake
sources and the insomnia log, and the NM_ commands. -/

namespace Sys2Proof.Machine

/-! ### Quiet buses and the own need (R683, R684) -/

/-- A bus is quiet once DT has reached its deadline. -/
def Gw.quiet (g : Gw) (b : Nat) : Bool :=
  match mget? g.nm.deadlines b with
  | some (d, seg) => g.translate d seg g.tb.seg ≤ g.now
  | none => true

def Gw.allQuiet (g : Gw) : Bool := g.nmBuses.all g.quiet

/-- The WAKE pins at their active level among those enabled (R683, R692). -/
def activePins (cfg levels : Nat) : Nat := (bits cfg 7 0) &&& ((levels ^^^ bits cfg 15 8) % 256)

/-- The module's own need (R683). -/
def Gw.ownNeed (g : Gw) : Bool :=
  g.nm.awake || g.fw.presence || activePins (g.param Par.nmWakePins) g.aon.pins ≠ 0

/-! ### The sleep decision (R685, R686) -/

/-- A decoder follows nominal rates up to 500 kb/s (R691), a bit time of 160 periods of 12.5 ns. [Log 129: DEDUCED] -/
def Gw.wdecRate (g : Gw) (c : Nat) : Bool := 160 ≤ nominalBit (g.param (Par.canBt c))

/-- SLEEP_PREP is entered and the AON wake inputs are armed; a decoder whose controller runs faster than it can follow
matches nothing. [Log 129: DEDUCED] -/
def Gw.enterPrep (g : Gw) : Gw :=
  let a := { g.aon with
    armed := true
    decoders := (List.range 8).foldl (fun (m : Map Nat) i => let v := g.param (Par.nmWdec i)
      if g.wdecRate (v % 32) then mput m i v 0 else m) []
    wakePins := g.param Par.nmWakePins
    wakeOther := g.param Par.nmWakeOther
    events := [] }
  let fw := { g.fw with back := g.fw.state }
  ({ g with aon := a, nm := { g.nm with prepTick := g.tb.tick }, fw := fw }).setFw .sleepPrep

/-- The collective decision, when its conditions hold. Pair 1 takes it (R760). [Log 128: DEDUCED] -/
def Gw.sleepDecide (g : Gw) : Gw :=
  if g.serving && g.pairRuns 1 && !g.nmBuses.isEmpty && g.allQuiet && !g.ownNeed then
    ((g.bump Reg.nmSleepCnt).note "sleep decision" [g.now / 8]).enterPrep
  else g

/-- A bus's deadline passes. -/
def execNmDeadlineExpiry (b : Nat) (s : State) : Host.Outcome State Fault Refusal :=
  answer (onGw (fun g => if g.nmBuses.contains b && g.quiet b then g.sleepDecide else g)) s

/-- The sleep is aborted before the commit point (R688): back to the state it came from, deadlines afresh.
[Log 130: DEDUCED] -/
def Gw.abortSleep (g : Gw) : Gw :=
  if g.fw.state = .sleepPrep then
    let g := ((g.bump Reg.nmAbortCnt).flag Reg.nmFlag 0x80000000).setFw g.fw.back
    { g with aon := { g.aon with armed := false, events := [] } }
  else g

/-! ### Keep-alives (R680–R684) -/

/-- The oldest keep-alive recognised is handled: NEED 1 moves its bus's deadline, and aborts a sleep (R684, R688). -/
def Gw.keepalive (g : Gw) : Gw :=
  match g.nm.inbox with
  | [] => g
  | k :: rest =>
    let g := { g with nm := { g.nm with inbox := rest } }
    if byteAt k.bytes 0 / 16 ≠ 1 then g
    else
      let g := g.bump Reg.nmKaRxCnt
      if byteAt k.bytes 1 % 2 = 0 then g
      else
        let node := fromBe (slice k.bytes 2 2)
        let d := k.stamp + g.nmTimeout
        let later : Bool := match mget? g.nm.deadlines k.bus with
          | some (o, s) => decide (g.translate o s g.tb.seg < g.translate d k.seg g.tb.seg)
          | none => true
        let n : NmNode := { bus := k.bus, node := node, stamp := k.stamp, seg := k.seg }
        let nm := { g.nm with
          deadlines := if later then mset g.nm.deadlines k.bus (d, k.seg) else g.nm.deadlines
          heard := (g.nm.heard.filter (fun x => !(x.bus = k.bus && x.node = node))) ++ [n] }
        { g with nm := nm }.abortSleep

def execKeepaliveReceive (s : State) : Host.Outcome State Fault Refusal :=
  answer (onGw (fun g => if g.inService && g.pairRuns 1 then g.keepalive else g)) s

/-- The eight bytes of a keep-alive of the module (R680, R683). -/
def Gw.kaBytes (g : Gw) (seq : Nat) : List Byte :=
  let woke := match g.nm.wokeUntil with
    | some t => g.tb.tick < t
    | none => false
  [BitVec.ofNat 8 0x10, BitVec.ofNat 8 (atBit 1 woke + atBit 0 g.ownNeed)] ++ beBytes 2 g.chnAddr ++ [0, 0] ++ beBytes 2 seq

/-- One keep-alive on a bus (R681–R683): class 7, as for the firmware's other frames. [Log 128: DEDUCED] -/
def Gw.sendKeepalive (g : Gw) (b : Nat) : Gw :=
  let seq := mgetD g.nm.seqTx b 0
  let bytes := g.kaBytes seq
  let g := ({ g with nm := { g.nm with seqTx := mset g.nm.seqTx b ((seq + 1) % 65536) } }).bump Reg.nmKaTxCnt
  if b < 32 then
    let id := g.param Par.nmKaIdent / 256 * 256 + g.chnAddr % 256
    g.deliverInternal { fport := 19, sub := 1, body := .bus { bus := b, ident := id, data := bytes }, ing := g.now,
                        ingSeg := g.tb.seg, adm := g.now, seg := g.tb.seg, named := some (2 ^ 13, 7) }
  else
    let f := b - 32
    let p := if f = 12 then 0 else macIndex f
    let frame := leBytes 6 0x4D4E36395A03 ++ leBytes 6 (g.param (Par.ethSaddr p)) ++ beBytes 2 0x88B5 ++ bytes ++
      List.replicate 38 0
    g.fwSend 1 (2 ^ f) 7 frame

/-- Every NM_KA_PERIOD_MS while the own need is 1, or WOKE after a wake (R683, R694). -/
def Gw.keepaliveTimer (g : Gw) : Gw :=
  let due := match g.nm.kaTick with
    | some t => t + g.param Par.nmKaPeriodMs * ticksPerMs ≤ g.tb.tick
    | none => true
  let woke := match g.nm.wokeUntil with
    | some t => g.tb.tick < t
    | none => false
  if g.inService && g.pairRuns 1 && due && (g.ownNeed || woke) then
    g.nmBuses.foldl (fun g b => g.sendKeepalive b) { g with nm := { g.nm with kaTick := some g.tb.tick } }
  else g

def execKeepaliveTimer (s : State) : Host.Outcome State Fault Refusal := answer (onGw Gw.keepaliveTimer) s

/-! ### The insomnia log (R696) -/

/-- A node logged: its entry renewed, a new entry, or one in place of the entry with the oldest LAST. -/
def logNode (l : List Insomniac) (b node : Nat) (last : Int) : List Insomniac :=
  match l.find? (fun e => e.bus = b && e.node = node) with
  | some _ => l.map (fun e => if e.bus = b && e.node = node then { e with last := last, cnt := satAdd e.cnt 1 } else e)
  | none =>
    let e : Insomniac := { bus := b, node := node, last := last, cnt := 1 }
    if l.length < 32 then l ++ [e]
    else match leastBy (fun x y => x.last < y.last) l with
      | some o => (l.filter (fun x => !(x.bus = o.bus && x.node = o.node))) ++ [e]
      | none => [e]

/-- Own need 0: a check that finds a bus not quiet is a prevented decision, and logs every node heard lately.
[Log 128: DEDUCED] -/
def Gw.insomniaCheck (g : Gw) : Gw :=
  if g.serving && g.pairRuns 1 && !g.ownNeed && g.nm.checkTick + g.param Par.nmKaPeriodMs * ticksPerMs ≤ g.tb.tick then
    let g := { g with nm := { g.nm with checkTick := g.tb.tick } }
    if g.allQuiet then g
    else
      let recent := g.nm.heard.filter (fun n => g.now < g.translate n.stamp n.seg g.tb.seg + g.nmTimeout)
      let log := recent.foldl (fun l n => logNode l n.bus n.node (n.stamp / 8)) g.aon.insomnia
      let g := { g with aon := { g.aon with insomnia := log } }
      if recent.isEmpty then g else g.flag Reg.nmFlag 0x40000000
  else g

def execInsomniaCheck (s : State) : Host.Outcome State Fault Refusal := answer (onGw Gw.insomniaCheck) s

/-! ### Wake sources (R688–R694) -/

/-- Wakes sampled at one AON tick: before the commit tick they abort the sleep; after it the lowest SRC and index is
latched and the module will wake (R688, R690, R694). -/
def Gw.wake (g : Gw) (l : List WakeEvent) : Gw :=
  match leastBy (fun (x y : WakeEvent) => x.src < y.src || (x.src = y.src && x.index < y.index)) l with
  | none => g
  | some e =>
    if g.aon.asleep then
      let r : WakeRecord := { ev := e, latched := true, ticks := g.aon.tick - g.aon.sleepTick }
      let first : Bool := match g.aon.waking with
        | some w => w.ticks = r.ticks && (e.src < w.ev.src || (e.src = w.ev.src && e.index < w.ev.index))
        | none => true
      if first then { g with aon := { g.aon with waking := some r } } else g
    else if g.aon.armed then g.abortSleep else g

/-- The AON island listens for wakes. -/
def Gw.listening (g : Gw) : Bool := g.aon.armed || g.aon.asleep

/-- An event that the next sample finds. -/
def Gw.wakeEvent (g : Gw) (e : WakeEvent) : Gw :=
  if g.listening then { g with aon := { g.aon with events := g.aon.events ++ [e] } } else g

/-- One tick of the AON clock: the pins are sampled, the events since the last tick act, and PWR_EN is tried again when its
second has passed (R802); a pin that is no longer active may end the module's need (R685). [Log 130: DEDUCED] -/
def Gw.wakeSample (g : Gw) (pins phys : Nat) : Gw :=
  let a := g.aon
  let retry : Bool := match a.retryAt with
    | some t => decide (t ≤ a.tick + 1)
    | none => false
  let g := { g with aon := { a with tick := a.tick + 1, pinsBefore := a.pins, pins := pins, physBefore := a.phys,
                                    phys := phys, events := [], pwrEn := a.pwrEn || retry
                                    retryAt := if retry then none else a.retryAt
                                    pwrTick := if retry then a.tick + 1 else a.pwrTick } }
  (g.wake a.events).sleepDecide

def execWakeSample (pins phys : Nat) (s : State) : Host.Outcome State Fault Refusal :=
  answer (onGw (fun g => g.wakeSample pins phys)) s

/-- Bytes 0–7 of a decoder field, byte 0 in the lowest bits. -/
def wdecField (v off n : Nat) : Nat := bits v (8 * (off + n) - 1) (8 * off)

/-- A frame on a watched controller matches a decoder (R691). -/
def wdecMatches (v : Nat) (b : BusFrame) (crcOk : Bool) : Bool :=
  let data := fromLe (padTo 8 b.data)
  bit v 7 && v % 32 = b.bus && crcOk && !b.fdf && !b.xlf &&
    (b.ident ^^^ wdecField v 4 4) &&& wdecField v 8 4 = 0 && (data ^^^ wdecField v 12 8) &&& wdecField v 20 8 = 0

def execWakeDecoderMatch (d : Nat) (frame : BusFrame) (crcOk : Bool) (s : State) : Host.Outcome State Fault Refusal :=
  answer (onGw (fun g =>
    if d < 8 && wdecMatches (mgetD g.aon.decoders d 0) frame crcOk then
      g.wakeEvent { src := 1, index := d, ident := frame.ident } else g)) s

/-- An enabled WAKE pin at its active level on two consecutive samples (R692). -/
def execWakePin (n : Nat) (s : State) : Host.Outcome State Fault Refusal :=
  answer (onGw (fun g =>
    let a := g.aon
    if n < 8 && g.listening && bit (activePins a.wakePins a.pins &&& activePins a.wakePins a.pinsBefore) n then
      g.wake [{ src := 2, index := n }] else g)) s

/-- Activity of at least 100 µs on an enabled S port (R693). -/
def execT1sActivityWake (n us : Nat) (s : State) : Host.Outcome State Fault Refusal :=
  answer (onGw (fun g =>
    if n < 8 && bit g.aon.wakeOther n && 100 ≤ us then g.wakeEvent { src := 3, index := n } else g)) s

/-- PHYp_INT_N low on two consecutive samples with its wake enabled (R693). -/
def execPhyInterruptWake (n : Nat) (s : State) : Host.Outcome State Fault Refusal :=
  answer (onGw (fun g =>
    let a := g.aon
    if n < 12 && g.listening && bit a.wakeOther (8 + n) && !bit a.phys n && !bit a.physBefore n then
      g.wake [{ src := 4, index := n }] else g)) s

/-! ### Commands of area 0x0C -/

/-- NM_SLEEP replies OK and enters SLEEP_PREP (R631). [Log 128: DEDUCED] -/
def nmSleep (_m : Nat) (g : Gw) : Gw × Answer := (g.enterPrep, {})

def execNmSleep (m : Nat) (s : State) : Host.Outcome State Fault Refusal :=
  answer (directRow 0x0C01 (effGw nmSleep) m) s

/-- NM_STAY sets AWAKE; AWAKE 1 in SLEEP_PREP counts as a wake before the commit point (R632, R688). -/
def nmStay (m : Nat) (g : Gw) : Gw × Answer :=
  let on := bit (g.arg m 0) 0
  let g := { g with nm := { g.nm with awake := on } }
  (if on then g.abortSleep else g.sleepDecide, {})

def execNmStay (m : Nat) (s : State) : Host.Outcome State Fault Refusal :=
  answer (directRow 0x0C02 (effGw nmStay) m) s

/-- NM_INSOMNIA: the log, oldest LAST first. [Log 128: DEDUCED] -/
def nmInsomnia (m : Nat) (g : Gw) : Gw × Answer :=
  let l := g.aon.insomnia.foldr (insertBy (fun (x y : Insomniac) => x.last < y.last)) []
  let words := l.flatMap (fun e =>
    (atBit 31 (32 ≤ e.bus) + (e.bus % 32) * 65536 + e.node) :: splitWords 2 (stampNat e.last) ++ [e.cnt])
  let g := if bit (g.arg m 0) 0 then { g with aon := { g.aon with insomnia := [] } } else g
  (g, { words := l.length :: words })

def execNmInsomnia (m : Nat) (s : State) : Host.Outcome State Fault Refusal :=
  answer (directRow 0x0C03 (effGw nmInsomnia) m) s

/-- NM_WAKE_CAUSE: the last wake's record. -/
def nmWakeCause (_m : Nat) (g : Gw) : Gw × Answer :=
  let r := g.aon.record
  (g, { words := [r.ev.src * 2 ^ 28 + atBit 27 r.latched + r.ev.index * 65536,
                  if r.ev.src = 1 then r.ev.ident else 0, r.ticks % 4294967296] })

def execNmWakeCause (m : Nat) (s : State) : Host.Outcome State Fault Refusal :=
  answer (directRow 0x0C04 (effGw nmWakeCause) m) s

end Sys2Proof.Machine
end

