-- ==== Sys2Proof/Machine/Params.lean ====
section
/-! DEFINITION. Parameters as commands see them (R569–R572, R588–R590): the words of a value, ranges that lie in fields
or name another parameter, what a live write brings about, and CFG_PARAM_READ and CFG_PARAM_WRITE. -/

namespace Sys2Proof.Machine

/-- The words of a value (R569). -/
def ParamRow.words (r : ParamRow) : Nat := if r.bytes ≤ 4 then 1 else r.bytes / 4

/-- A value within the row's range. -/
def ParamRow.inRange (r : ParamRow) (v : Nat) : Bool :=
  let x : Int := if r.signed then asI32 v else Int.ofNat v
  r.lo ≤ x && x ≤ r.hi

/-- A unicast address: the group bit is bit 0 of the first wire byte (R857). -/
def unicast (v : Nat) : Bool := v % 2 = 0

/-- Field `[hi:lo]` of a value lies between two bounds. -/
def fieldIn (v hi lo a b : Nat) : Bool := a ≤ bits v hi lo && bits v hi lo ≤ b

/-- A signed byte of a value lies between two bounds. -/
def logIn (v hi lo : Nat) (a b : Int) : Bool :=
  let x := bits v hi lo
  let s : Int := if x < 128 then Int.ofNat x else Int.ofNat x - 256
  a ≤ s && s ≤ b

/-- Ranges that lie in fields of a value, by the area of the parameter (R29, R193, R269, R317, R368, R393, R444,
R645). [Log 25: DEDUCED] -/
def fieldsOk (id v : Nat) : Bool :=
  let within := fun (a b : Nat) => a ≤ id && id ≤ b
  if within 0x0101 0x0102 then v % 64 = 0
  else if within 0x0103 0x0104 then v % 16 = 0
  else if within 0x0300 0x030B then fieldIn v 15 0 0 32768 && bits v 30 29 ≠ 3
  else if within 0x0330 0x0345 then (bits v 30 28 ≤ 2 || bits v 30 28 = 7) && fieldIn v 25 0 0 33554432
  else if id = 0x0402 then unicast v
  else if within 0x0500 0x0515 then fieldIn v 30 20 125 2000
  else if within 0x0600 0x060B then fieldIn v 31 28 0 12
  else if within 0x0610 0x061D then fieldIn v 31 17 64 16384
  else if within 0x0620 0x062B then fieldIn v 15 0 1 65535
  else if within 0x0630 0x063B then fieldIn v 25 16 1 1000
  else if within 0x0660 0x066D then fieldIn v 11 0 1 4094
  else if within 0x0670 0x067D then unicast v
  else if within 0x0680 0x068D then bits v 61 60 ≠ 3 && bits v 58 57 ≠ 3
  else if within 0x06A0 0x06A7 then fieldIn v 56 51 1 32 && fieldIn v 47 40 1 255 && fieldIn v 20 16 1 16 && fieldIn v 11 0 0 4094
  else if within 0x0760 0x077F then v = 0 || (fieldIn v 58 56 0 6 && fieldIn v 55 48 1 255)
  else if within 0x0780 0x078B then fieldIn v 55 40 1000 20000
  else if id = 0x07A0 then bits v 60 59 ≠ 0 && bits v 58 57 ≠ 3 && (!bit v 56 || bit v 55)
  else if within 0x0810 0x0813 then
    logIn v 31 24 (-5) 1 && logIn v 23 16 (-3) 3 && logIn v 15 8 (-3) 3
  else if within 0x0840 0x085F then fieldIn v 60 58 0 4 && fieldIn v 57 48 1 1000
  else if id = 0x0881 then
    fieldIn v 51 32 1 500000 && -500000000 ≤ asI32 (bits v 31 0) && asI32 (bits v 31 0) ≤ 500000000
  else if within 0x0A10 0x0A1D then v ≤ 4095 || v = 0xFFFF
  else if within 0x0D00 0x0D03 then fieldIn v 47 32 0 64
  else true

/-- Ranges that name another parameter, judged against the values `get` that the whole write or image leaves; `given`
says which parameters it carries (R90, R322, R317, R571, R645). When a write carries both parameters of such a pair, the
one whose range names the other is the one that fails. [Log 25: DEDUCED] -/
def crossOk (get : Nat → Nat) (given : Nat → Bool) (id : Nat) : Bool :=
  let can := fun (c : Nat) =>
    bits (get (Par.canCfg c)) 63 62 ≠ 3 &&
      timingOk (bits (get (Par.canCfg c)) 63 62) (get (Par.canBt c)) (get (Par.canXbt c))
  let pnOk := fun (p : Nat) => bit (get (Par.ethSec p)) 62 || get (Par.ethSecPnth p) ≤ 0xFFFFFFFF
  if id = Par.strHxNs then get Par.strHxNs ≤ get Par.strHNs
  else if id = Par.strHNs then given Par.strHxNs || get Par.strHxNs ≤ get Par.strHNs
  else if id = Par.nmKaPeriodMs then get Par.nmKaPeriodMs < get Par.nmTimeoutMs
  else if id = Par.nmTimeoutMs then given Par.nmKaPeriodMs || get Par.nmKaPeriodMs < get Par.nmTimeoutMs
  else if 0x0690 ≤ id && id ≤ 0x069D then pnOk (id - 0x0690)
  else if 0x0680 ≤ id && id ≤ 0x068D then given (Par.ethSecPnth (id - 0x0680)) || pnOk (id - 0x0680)
  else if 0x0700 ≤ id && id ≤ 0x075F then can (id % 32)
  else true

/-- A value of a known parameter lies in its range. [Log 25: DEDUCED] -/
def valueOk (get : Nat → Nat) (given : Nat → Bool) (r : ParamRow) (id v : Nat) : Bool :=
  r.inRange v && fieldsOk id v && crossOk get given id

/-! ### What a live write brings about -/

/-- What goes with a new value of a parameter: the sweep origins of R193, the sources of R402, the whole-second phase of
PPS_OUT, the settings passed to the power die (R645), verify (R285), the role of an S port (R274),
the wait for a first reference message (R352), the state of FR0 (R391), and the sleep decision,
whose buses and need may be others now (R685). -/
def Gw.paramHook (g : Gw) (id : Nat) (t : Stamp) : Gw :=
  if id = Par.catAgePeriodS || id = Par.catAgeEn then { g with cat := { g.cat with ageOrigin := t, agePos := (t, 0) } }
  else if id = Par.catVitPeriodMs then { g with cat := { g.cat with vitOrigin := t, vitPos := (t, 0) } }
  else if id = Par.tbSrcPri || id = Par.tbSrcSec then g.sourcesSet
  else if id = Par.tbPps then g.ppsArm
  else if Par.gptpDom 0 ≤ id && id ≤ Par.gptpDom 3 then g.gptpSourceCheck false
  else if id = Par.chnRingOwner then g.ringBlock
  else if 0x0B00 ≤ id && id ≤ 0x0B03 then g.passSetting id
  else if Par.ethMac 0 ≤ id && id ≤ Par.ethMac 13 then g.verifyStart (id - Par.ethMac 0)
  else if Par.tisCfg 0 ≤ id && id ≤ Par.tisCfg 7 then g.tisRole (id - Par.tisCfg 0)
  else if Par.canCfg 0 ≤ id && id ≤ Par.canCfg 31 then g.ttAwait (id - Par.canCfg 0)
  else if id = Par.flxCfg then g.flxEnable
  else if id = Par.nmCanMask || id = Par.nmEthMask || id = Par.nmWakePins then g.sleepDecide
  else g

/-- AGE_PERIOD, AGE_EN and VIT_PERIOD. -/
def sweepParam (id : Nat) : Bool := id = Par.catAgePeriodS || id = Par.catAgeEn || id = Par.catVitPeriodMs

/-- Before a write takes effect: credits are brought to stamp `t` when their shaper changes (R250), and another working
instance ends source 1 (R409). -/
def Gw.beforeParam (g : Gw) (id value : Nat) (t : Stamp) : Gw :=
  if Par.egrCbs 0 ≤ id && id < Par.egrCbs 112 then
    let i := (id - Par.egrCbs 0) / 8
    g.changeCbs (if i < 12 then i else i + 2) (id % 8) value t
  else if id = Par.tbWorkDom then g.gptpSourceCheck (g.param id ≠ value)
  else if id = Par.chnRingOwner && value = 0 then g.ringUnowned
  else g

/-- Parameters set, then what goes with each. A sweep's origin moves only by a change of value (R193). -/
def Gw.setParams (g : Gw) (ps : List (Nat × Nat)) (t : Stamp) : Gw :=
  let changed := ps.filter (fun p => !sweepParam p.1 || g.param p.1 ≠ p.2)
  let g := ps.foldl (fun (g : Gw) p => g.beforeParam p.1 p.2 t) g
  let g := ps.foldl (fun (g : Gw) p => g.setParam p.1 p.2) g
  changed.foldl (fun (g : Gw) p => g.paramHook p.1 t) g

/-! ### The groups of a write -/

/-- One group of a write: identifier, NW and value. -/
structure ParamSet where
  id : Nat
  nw : Nat
  value : Nat
deriving DecidableEq, Repr

/-- `n` groups of a write from payload word `i` on; reserved bits of a value are ignored (R581). -/
def Gw.writeGroups (g : Gw) (m : Nat) : Nat → Nat → List ParamSet
  | 0, _ => []
  | n + 1, i =>
    let w := g.arg m i
    let nw := bits w 3 0
    let v := ((List.range nw).map (fun k => g.arg m (i + 1 + k) * 2 ^ (32 * k))).sum
    { id := bits w 31 16, nw := nw, value := v &&& paramMask (bits w 31 16) } :: g.writeGroups m n (i + 1 + nw)

def Gw.paramSets (g : Gw) (m : Nat) : List ParamSet := g.writeGroups m (bits (g.arg m 0) 5 0) 1

/-- The value a parameter has after a write: that of its last group, or the one in force. -/
def valueAfter (g : Gw) (ps : List ParamSet) (id : Nat) : Nat :=
  match (ps.filter (fun p => p.id = id)).getLast? with
  | some p => p.value
  | none => g.param id

/-! ### CFG_PARAM_READ -/

/-- The identifiers that a read names. -/
def Gw.readIds (g : Gw) (m : Nat) : List Nat :=
  (List.range (bits (g.arg m 0) 5 0)).map (fun i => bits (g.arg m (1 + i)) 15 0)

/-- The value of a parameter as last accepted (R570): that of the latest accepted write which still waits for its stamp, or
the one in force. -/
def Gw.acceptedParam (g : Gw) (id : Nat) : Nat :=
  g.str.changes.foldl (fun v c => match c.act with
    | .mailbox m => if g.reqCode m = 0x0202 then
        (((g.paramSets m).filter (fun p => p.id = id)).getLast?.map (·.value)).getD v else v
    | .firmware _ => v) (g.param id)

/-- The reply group of a parameter. -/
def Gw.paramGroup (g : Gw) (id : Nat) : List Nat :=
  match findParam id with
  | some r => (id * 65536 + r.words) :: splitWords r.words (g.acceptedParam id)
  | none => []

/-- [Log 25: DEDUCED] -/
def cfgParamRead (m : Nat) (g : Gw) : Gw × Answer :=
  let n := bits (g.arg m 0) 5 0
  let ids := g.readIds m
  if n = 0 || 32 < n then (g, failWith stBadArg)
  else if ids.any (fun i => (findParam i).isNone) then (g, failWith stNotFound)
  else
    let words := ids.flatMap g.paramGroup
    if 252 < words.length then (g, failWith stBadArg) else (g, { words := words })

def execCfgParamRead (m : Nat) (s : State) : Host.Outcome State Fault Refusal :=
  answer (directRow 0x0201 (effGw cfgParamRead) m) s

/-! ### CFG_PARAM_WRITE -/

/-- A parameter class is accepted in a firmware state (R570). -/
def classAccepted (c : ParamClass) (st : FwState) : Bool :=
  match c with
  | .config => st = .config
  | .imageOnly => false
  | _ => st = .config || st = .run || st = .degraded

/-- A value of CAN_TT_c leaves the time marks of the loaded matrix below CYCLE_NTU (R349). [Log 27: DEDUCED] -/
def Gw.marksFit (g : Gw) (id v : Nat) : Bool :=
  !(Par.canTt 0 ≤ id && id ≤ Par.canTt 31) ||
    ((g.canAt (id - Par.canTt 0)).columns.all (fun q => q.2 < bits v 47 32))

/-- The status of one group (R589): known, right size, accepted in this state, in range. -/
def Gw.groupStatus (g : Gw) (ps : List ParamSet) (p : ParamSet) : Nat :=
  match findParam p.id with
  | none => stNotFound
  | some r =>
    if p.nw ≠ r.words then stBadArg
    else if !classAccepted r.cls g.fw.state then stState
    else if valueOk (valueAfter g ps) (fun i => ps.any (fun q => q.id = i)) r p.id p.value && g.marksFit p.id p.value then stOk
    else stBadArg

/-- The acceptance class of a group's parameter. -/
def ParamSet.cls (p : ParamSet) : Option ParamClass := (findParam p.id).map (·.cls)

/-- FAIL_ID and FAIL_POS of the group at a position. -/
def failWord (ps : List ParamSet) (i : Nat) : Nat :=
  match ps[i]? with
  | some p => p.id * 65536 + i
  | none => 0xFFFF

/-- The status of a write, with the position that failed (R589, R590). -/
def Gw.writeStatus (g : Gw) (ps : List ParamSet) : Nat × Nat :=
  match ps.findIdx? (fun p => g.groupStatus ps p ≠ stOk) with
  | some i => ((ps[i]?).elim stOk (g.groupStatus ps), i)
  | none =>
    if g.fw.state = .config then (stOk, ps.length)
    else match ps with
      | [] => (stOk, 0)
      | p :: _ =>
        match ps.findIdx? (fun q => q.cls ≠ p.cls) with
        | some i => (stBadArg, i)
        | none => (stOk, ps.length)

/-- The write's checks and, when they pass, its values at stamp `t`. [Log 25: DEDUCED] -/
def cfgParamWrite (m : Nat) (t : Stamp) (g : Gw) : Gw × Answer :=
  let n := bits (g.arg m 0) 5 0
  let ps := g.paramSets m
  let r := g.writeStatus ps
  if n = 0 || 32 < n then (g, { status := stBadArg, words := [0xFFFF] })
  else if r.1 = stOk then (g.setParams (ps.map (fun p => (p.id, p.value))) t, { words := [0xFFFF] })
  else (g, { status := r.1, words := [failWord ps r.2] })

/-- The parameters of a write are all of the apply-at class, and the module serves: a mailbox-driven change (R590). -/
def Gw.writeIsChange (g : Gw) (m : Nat) : Bool :=
  let ps := g.paramSets m
  g.serving && (g.writeStatus ps).1 = stOk && ps.any (fun p => p.cls = some .applyAt)

def cfgParamWriteRow (m : Nat) (s : State) : State :=
  if s.gw.holds m 0x0202 then
    if s.gw.writeIsChange m then s.withGw (s.gw.queueChange m)
    else let r := cfgParamWrite m s.gw.now s.gw; s.withGw (r.1.finish m 0 r.2)
  else s

def execCfgParamWrite (m : Nat) (s : State) : Host.Outcome State Fault Refusal := answer (cfgParamWriteRow m) s

end Sys2Proof.Machine
end

