-- ==== Sys2Proof/Machine/Archive.lean ====
section
/-! DEFINITION. The archive (R729–R738, R646): where its rings lie, what one selection at F20 writes into them, the
rewind mark, playback, and the ARC_ commands. -/

namespace Sys2Proof.Machine

/-! ### Ring geometry (R645, R646) -/

def Gw.arcCfg (g : Gw) (k : Nat) : Nat := g.param (Par.arcRing k)
def Gw.arcEn (g : Gw) (k : Nat) : Bool := bit (g.arcCfg k) 63
def Gw.arcRoll (g : Gw) (k : Nat) : Bool := bit (g.arcCfg k) 62
/-- Pre-trigger depth in bytes. -/
def Gw.arcDepth (g : Gw) (k : Nat) : Nat := 1024 * bits (g.arcCfg k) 31 0
/-- The size a ring names, in MiB; a disabled ring claims nothing. -/
def Gw.arcNamed (g : Gw) (k : Nat) : Nat := if g.arcEn k then 64 * bits (g.arcCfg k) 47 32 else 0
/-- Size of a ring in MiB: what it names, or for size 0 what the other enabled rings leave of the region. -/
def Gw.arcMib (g : Gw) (k : Nat) : Nat :=
  if !g.arcEn k then 0
  else if g.arcNamed k = 0 then g.regionMib 2 - ((List.range 4).map g.arcNamed).sum
  else g.arcNamed k
/-- First MiB of a ring: the rings lie one after another from the start of the region. -/
def Gw.arcBaseMib (g : Gw) (k : Nat) : Nat := g.regionBase 2 + ((List.range k).map g.arcMib).sum
def Gw.arcSize (g : Gw) (k : Nat) : Nat := g.arcMib k * mib

def Gw.arcAt (g : Gw) (k : Nat) : ArcRing := mgetD g.arc.rings k {}
def Gw.setArc (g : Gw) (k : Nat) (x : ArcRing) : Gw := { g with arc := { g.arc with rings := mset g.arc.rings k x } }

/-- The ring offset of a position counted from the start of the run. -/
def Gw.arcOff (g : Gw) (k pos : Nat) : Nat := if g.arcSize k = 0 then 0 else pos % g.arcSize k

/-! ### Records (R731, R732) -/

/-- The 32-byte header of a record. -/
def recHeader (len kind flags seq : Nat) (ingress order : Stamp) (sequence port segment : Nat) : List Byte :=
  leBytes 2 len ++ leBytes 1 kind ++ leBytes 1 flags ++ leBytes 4 seq ++ leBytes 8 (stampNat ingress) ++
    leBytes 8 (stampNat order) ++ leBytes 4 sequence ++ leBytes 1 port ++ leBytes 1 0 ++ leBytes 2 segment

/-- Bytes a record of `len` captured bytes occupies. [Log 133: DEDUCED] -/
def recSize (len : Nat) : Nat := 32 * ceilDiv (32 + len) 32

/-- The record of a captured copy with its sequence number in a ring; both stamps are in the segment it names (R859). -/
def Gw.recBytes (g : Gw) (c : Copy) (info : CapInfo) (seq : Nat) : List Byte :=
  let x := c.frame
  let data := x.body.bytes
  padTo (recSize data.length)
    (recHeader data.length 1 info.flags seq (g.shownIngress x) info.o info.seq x.fport (x.seg % 65536) ++ data)

/-- Bytes that a record adds to a ring: its own, and the PAD record that it needs before the ring's end.
[Log 133: DEDUCED] -/
def Gw.padBefore (g : Gw) (k n : Nat) : Nat :=
  let room := g.arcSize k - g.arcOff k (g.arcAt k).wr
  if room < n then room else 0

/-- A record start noted, and starts that are overwritten forgotten. -/
def ArcRing.noteRec (x : ArcRing) (size n : Nat) : ArcRing :=
  let wr := x.wr + n
  { x with recs := (x.recs ++ [(x.wr, n)]).filter (fun r => wr ≤ r.1 + size), wr := wr }

/-- Bytes from the mark's W forward to M (R734). -/
def markRoom (size : Nat) (mark : Nat × Nat) : Nat :=
  let d := (mark.1 + size - mark.2 % size) % size
  if mark.1 % size = mark.2 % size then size else d

/-- What a record meets in a ring: 0 it is written, 1 it is dropped under HOLD, 2 it overtakes the mark under ROLL
(R734). A record longer than its ring is not written. [Log 133: DEDUCED] -/
def Gw.arcVerdict (g : Gw) (k n : Nat) : Nat :=
  let x := g.arcAt k
  let size := g.arcSize k
  let total := n + g.padBefore k n
  if x.held || size < n then 1
  else match x.mark with
    | some m => if markRoom size m < x.wr - m.2 + total then (if g.arcRoll k then 2 else 1) else 0
    | none => 0

/-- A drop under HOLD: counted, and the first one stops the ring. -/
def Gw.arcDrop (g : Gw) (k : Nat) : Gw :=
  let x := g.arcAt k
  let g := if x.held then g else g.flag Reg.arcFlag (2 ^ k)
  (g.setArc k { x with held := true, dropped := x.dropped + 1 }).bump (Reg.arcHoldDrop k)

/-- The mark is lost under ROLL. -/
def Gw.arcMarkLost (g : Gw) (k : Nat) : Gw :=
  ((g.setArc k { g.arcAt k with mark := none, markLost := true }).flag Reg.arcFlag (2 ^ (4 + k))).bump (Reg.arcMlostCnt k)

/-- Bytes of a ring written at its write offset. -/
def arcPut (s : State) (k : Nat) (bs : List Byte) : State :=
  let g := s.gw
  let x := g.arcAt k
  let a := g.arcBaseMib k * mib + g.arcOff k x.wr
  { s with dram := dramWrite s.dram a bs, gw := (g.mend a bs.length).setArc k (x.noteRec (g.arcSize k) bs.length) }

/-- One record written into ring `k`, after the PAD record it needs (R732). [Log 133: DEDUCED] -/
def arcWrite (s : State) (k : Nat) (c : Copy) (info : CapInfo) : State :=
  let seq := (s.gw.arcAt k).seq
  let bytes := s.gw.recBytes c info seq
  let pad := s.gw.padBefore k bytes.length
  let s := if pad = 0 then s
    else arcPut s k (padTo pad (recHeader (pad - 32) 2 0 seq 0 0 0 0 0))
  let s := arcPut s k bytes
  s.withGw ((s.gw.setArc k { s.gw.arcAt k with seq := seq + 1 }).bump (Reg.arcRecCnt k))

/-- What one selection at F20 does in one ring that captured the frame. -/
def arcRecord (c : Copy) (info : CapInfo) (s : State) (k : Nat) : State :=
  let n := recSize c.frame.body.bytes.length
  match s.gw.arcVerdict k n with
  | 0 => arcWrite s k c info
  | 1 => s.withGw (s.gw.arcDrop k)
  | _ => arcWrite (s.withGw (s.gw.arcMarkLost k)) k c info

/-- The enabled rings that captured a copy. -/
def Gw.arcRings (g : Gw) (info : CapInfo) : List Nat := (bitList 4 info.rings).filter g.arcEn

/-- A capture copy selected at F20: a record in every ring that captured its frame (R730). -/
def arcSelect (c : Copy) (s : State) : State :=
  match c.cap with
  | some info => (s.gw.arcRings info).foldl (arcRecord c info) s
  | none => s

/-- Every ring of the copy drops it under HOLD: it takes no accounted time (R734). [Log 133: DEDUCED] -/
def Gw.arcDropsAll (g : Gw) (c : Copy) : Bool :=
  match c.cap with
  | some info => (g.arcRings info).all (fun k => g.arcVerdict k (recSize c.frame.body.bytes.length) = 1)
  | none => false

/-- Every ring empty at the start of a run (R730). -/
def Gw.startArchive (g : Gw) : Gw := { g with arc := { g.arc with rings := [], play := none } }

/-! ### Trigger and acknowledgement (R733–R735, R634) -/

/-- The mark set by a trigger: the first record start at or after W − D, never before the oldest record kept. -/
def Gw.arcMark (g : Gw) (k : Nat) : Nat :=
  let x := g.arcAt k
  ((x.recs.find? (fun r => x.wr - g.arcDepth k ≤ r.1)).map (·.1)).getD x.wr

def arcTrigger (m : Nat) (_t : Stamp) (g : Gw) : Gw × Answer :=
  let k := bits (g.arg m 0) 1 0
  let x := g.arcAt k
  if !g.arcEn k then (g, failWith stBadArg)
  else if x.mark.isSome then (g, failWith stLocked)
  else
    let mk := g.arcMark k
    (g.setArc k { x with mark := some (mk, x.wr), markLost := false }, { words := splitWords 2 (g.arcOff k mk) })

def execArcTrigger (m : Nat) (s : State) : Host.Outcome State Fault Refusal :=
  answer (changeRow 0x0D01 (effAt arcTrigger) m) s

def arcAck (m : Nat) (_t : Stamp) (g : Gw) : Gw × Answer :=
  let k := bits (g.arg m 0) 1 0
  let x := g.arcAt k
  if !g.arcEn k || x.mark.isNone then (g, failWith stBadArg)
  else (g.setArc k { x with mark := none, held := false, dropped := 0 }, {})

def execArcAck (m : Nat) (s : State) : Host.Outcome State Fault Refusal :=
  answer (changeRow 0x0D02 (effAt arcAck) m) s

/-- ARC_STATUS (R634). -/
def arcStatus (m : Nat) (g : Gw) : Gw × Answer :=
  let k := bits (g.arg m 0) 1 0
  let x := g.arcAt k
  let w0 := atBit 31 (g.arcEn k) + atBit 30 (g.arcRoll k) + atBit 29 x.mark.isSome + atBit 28 x.held + atBit 27 x.markLost
  let mark := (x.mark.map (fun y => g.arcOff k y.1)).getD 0
  (g, { words := [w0] ++ splitWords 2 (g.arcOff k x.wr) ++ splitWords 2 mark ++ [min 0xFFFFFFFF x.dropped] ++
                   splitWords 2 (g.arcSize k) })

def execArcStatus (m : Nat) (s : State) : Host.Outcome State Fault Refusal :=
  answer (directRow 0x0D04 (effGw arcStatus) m) s

/-! ### Playback (R635, R736–R738) -/

/-- The position of the record that starts at a ring offset, if one does. -/
def Gw.arcPos (g : Gw) (k off : Nat) : Option Nat :=
  ((g.arcAt k).recs.find? (fun r => g.arcOff k r.1 = off)).map (·.1)

/-- ARC_PLAY starts a session at a record start (R635). -/
def arcPlay (m : Nat) (_t : Stamp) (g : Gw) : Gw × Answer :=
  let k := bits (g.arg m 0) 1 0
  if bit (g.arg m 0) 31 then (g, { later := true })
  else if g.arc.play.isSome then (g, failWith stLocked)
  else if !g.arcEn k || g.arg64 m 4 < 500 then (g, failWith stBadArg)
  else
    match g.arcPos k (g.arg64 m 1) with
    | none => (g, failWith stBadArg)
    | some pos =>
      let n := g.arg m 3
      let p : Playback := { ring := k, pos := pos, left := if n = 0 then none else some n, bytes := (g.arcAt k).wr,
                            pass := g.arg64 m 4 }
      ({ g with arc := { g.arc with play := some p, playRing := k, playCnt := 0 } }, {})

/-- A session ends, with PLAY_END [8] or PLAY_BREAK [9] of ARC_FLAG. [Log 134: DEDUCED] -/
def Gw.playEnds (g : Gw) (b : Nat) : Gw := { g with arc := { g.arc with play := none } }.flag Reg.arcFlag (2 ^ b)

/-- [Log 134: DEDUCED] -/
def arcPlayStop (m : Nat) (_t : Stamp) (g : Gw) : Gw × Answer :=
  if !bit (g.arg m 0) 31 then (g, { later := true })
  else if g.arc.play.isNone then (g, failWith stBadArg) else (g.playEnds 8, {})

/-- The row of ARC_PLAY that its STOP bit names acts; the other has no effect. -/
def arcPlayRow (stop : Bool) (eff : Nat → Stamp → Gw → Gw × Answer) (m : Nat) (s : State) : State :=
  if bit (s.gw.arg m 0) 31 = stop then changeRow 0x0D03 (effAt eff) m s else s

def execArcPlay (m : Nat) (s : State) : Host.Outcome State Fault Refusal := answer (arcPlayRow false arcPlay m) s

def execArcPlayStop (m : Nat) (s : State) : Host.Outcome State Fault Refusal :=
  answer (arcPlayRow true arcPlayStop m) s

/-- The internal form of a bus frame read back from its bytes (R194). -/
def busOfBytes (bs : List Byte) : BusFrame :=
  let f := byteAt bs 1
  { bus := byteAt bs 0, xlf := bit f 7, fdf := bit f 6, brs := bit f 5, esi := bit f 4, rtr := bit f 3,
    sealedOk := bit f 2, ident := fromLe (slice bs 4 4), sdt := byteAt bs 8, vcid := byteAt bs 9,
    sec := bit (byteAt bs 10) 0, cycle := byteAt bs 11, af := fromLe (slice bs 12 4),
    data := slice bs 16 (fromLe (slice bs 2 2)) }

/-- The default PCP that the parent of a played frame took (R858): of the S port for F12, of the ingress port else. A record of
a frame re-injected at F18 or F21 does not say what its own parent took, which is a free value.
[Log 177: DESIGN CHOICE] -/
def Gw.parentPcp (g : Gw) (port sub : Nat) : Nat :=
  if port = 12 then bits (g.param (Par.tisCfg sub)) 14 12
  else if port = 18 ∨ port = 21 then (Config.freeWord g.free).toNat % 8
  else bits (g.param (Par.strPcfg port)) 11 9

/-- The frame that a record injects (R736, R738): ordered in the segment in force at its fetch, which also gives its
admission stamp. [Log 164: DEDUCED] -/
def Gw.playFrame (g : Gw) (p : Playback) (h data : List Byte) : Frame :=
  let flags := byteAt h 3
  let pass := 8 * Int.ofNat p.pass
  let sequence := fromLe (slice h 24 4)
  let port := byteAt h 28
  let sub := sequence / 16777216
  let par : Parent := { o := asI64 (fromLe (slice h 16 8)) + pass, seg := g.tb.seg, seq := [port, sub, sequence % 16777216] }
  { fport := 20, sub := 0,
    body := if bit flags 3 then .bus { busOfBytes data with bus := sub, sealedOk := bit flags 4 } else .eth data,
    dpcp := g.parentPcp port sub,
    ing := asI64 (fromLe (slice h 8 8)) + pass, ingSeg := g.tb.seg, adm := g.now, seg := g.tb.seg, parent := some par }

/-- The playback engine fetches the next record: PAD records are skipped, a gap in SEQ breaks the session (R736,
R737). [Log 134: DEDUCED, 177: DESIGN CHOICE] -/
def playFetch (s : State) : State :=
  let g := s.gw
  match g.arc.play with
  | none => s
  | some p =>
    let at' := fun (n : Nat) (q : Nat) => dramRead s.dram (g.arcBaseMib p.ring * mib + g.arcOff p.ring q) n
    let h := at' 32 p.pos
    let len := fromLe (slice h 0 2)
    let ended := p.left = some 0 || (p.left = none && p.bytes ≤ p.pos)
    if ended then s.withGw (g.playEnds 8)
    else if byteAt h 2 = 2 then
      s.withGw { g with arc := { g.arc with play := some { p with pos := p.pos + 32 + len } } }
    else
      let seq := fromLe (slice h 4 4)
      let broken : Bool := match p.lastSeq with
        | some q => decide (seq ≠ (q + 1) % 4294967296)
        | none => false
      let a := g.arcBaseMib p.ring * mib + g.arcOff p.ring p.pos
      let next := { p with pos := p.pos + recSize len, left := p.left.map (· - 1), lastSeq := some seq }
      if g.spoilt a 32 || broken || byteAt h 2 ≠ 1 || 16384 < len then s.withGw (g.playEnds 9)
      else if g.spoilt a (32 + len) then
        s.withGw ({ g with arc := { g.arc with play := some next } }.bump Reg.lckItemDrop)
      else
        let x := g.playFrame p h ((at' (32 + len) p.pos).drop 32)
        let due : Bool := match x.parent with
          | some q => decide (q.o - 8000000 ≤ g.now)
          | none => true
        if !due || g.str.cellWait.any (fun y => y.fport = 20) then s
        else
          let ends := next.left = some 0 || (next.left = none && next.bytes ≤ next.pos)
          let g := { g with arc := { g.arc with play := some next, playCnt := g.arc.playCnt + 1 } }.deliverInternal x
          let g := if byteAt h 28 = 18 ∨ byteAt h 28 = 21 then g.draw else g
          s.withGw (if ends then g.playEnds 8 else g)

def execPlaybackRecordFetch (s : State) : Host.Outcome State Fault Refusal :=
  answer (fun s => if s.gw.str.run && s.gw.islOn 14 then playFetch s else s) s

end Sys2Proof.Machine
end

