-- ==== Sys2Proof/Machine/Image.lean ====
section
/-! DEFINITION. Firmware images, configuration packages and configuration copies in flash: layout, validity and versions
(R765, R778–R780, R794). -/

namespace Sys2Proof.Machine

/-! ### Packages (R778) -/

def pkgVersion (bs : List Byte) : Nat := fromLe (slice bs 4 4)
def pkgChain (bs : List Byte) : Nat := byteAt bs 8
def pkgKind (bs : List Byte) : Nat := byteAt bs 9
def pkgBodyLen (bs : List Byte) : Nat := fromLe (slice bs 12 4)
def pkgKey (bs : List Byte) : List Byte := slice bs 16 2592
def pkgBody (bs : List Byte) : List Byte := slice bs 2624 (pkgBodyLen bs)
def pkgSig (bs : List Byte) : List Byte := slice bs (2624 + pkgBodyLen bs) 4627

/-- The MAGIC of a kind: firmware, or configuration. -/
def pkgMagic (kind : Nat) : List Byte := [0x5A, 0x39, 0x36, if kind = 0 then 0x46 else 0x43]

/-- The header, body and signature of a package of a kind lie within its bytes. -/
def pkgFormed (kind : Nat) (bs : List Byte) : Bool :=
  bs.take 4 = pkgMagic kind && pkgKind bs = kind && 2624 + pkgBodyLen bs + 4627 ≤ bs.length

/-- SIG verifies under a public key. -/
def pkgSigned (key bs : List Byte) : Bool :=
  mldsaVerify (sha3x512 (bs.take (2624 + pkgBodyLen bs))) (pkgSig bs) key

/-- Why a firmware image fails: 0 it is valid, 1 the key hash, 2 the signature, 3 its length (R779, R798). -/
def imageCause (bs : List Byte) : Nat :=
  if !pkgFormed 0 bs then 3
  else if sha3x256 (pkgKey bs) ≠ Config.vendorKeyHash then 1
  else if !pkgSigned (pkgKey bs) bs then 2 else 0

/-! ### Boot image slots (R779, R794, R798) -/

/-- The firmware version of R1, in the form of SYS_INFO w1. -/
def firmwareVersion : Nat := 0x01040000 + Config.fwBuild % 65536

/-- [Log 8: PRESUMED] -/
def FwSlot.bytes : FwSlot → List Byte
  | .blank => []
  | .delivered => Config.shippedImage
  | .image bs => bs

/-- A slot passes R779. The image the module was delivered with does. [Log 8: PRESUMED] -/
def FwSlot.valid : FwSlot → Bool
  | .blank => false
  | .delivered => true
  | .image bs => imageCause bs = 0

def FwSlot.version : FwSlot → Nat
  | .blank => 0
  | .delivered => firmwareVersion
  | .image bs => pkgVersion bs

def Gw.slotAt (g : Gw) (i : Nat) : FwSlot := mgetD g.flash.slots i .blank

/-- The version of the image in use. -/
def Gw.fwVersion (g : Gw) : Nat := (g.slotAt g.boot.slot).version

/-- The slot not in use. -/
def Gw.spareSlot (g : Gw) : Nat := 1 - g.boot.slot

/-! ### Configuration copies (R765, R591) -/

/-- The check word over the bytes of a copy. -/
def copyCheck (bs : List Byte) : Nat := fromLe ((sha3x256 (bs.take (bs.length - 8))).take 8)

/-- What the body of a configuration copy says. The spec gives no layout for it, so this is a function of its bytes that
no proof can see through. -/
opaque cfgContent : List Byte → CfgContent

/-- A copy as its bytes give it: VERSION and CHECK of the trailer, whether the check word matches, and its content.
[Log 26: DEDUCED] -/
def copyOf (bs header sig : List Byte) : CfgCopy :=
  let l := fromLe (bs.take 4)
  let v := fromLe (slice bs (l - 16) 2)
  let c := fromLe (slice bs (l - 8) 8)
  { version := v, check := c, content := cfgContent bs, bytes := bs, header := header, sig := sig,
    checkOk := l = bs.length && l % 16 = 0 && 64 ≤ l && v ≠ 0 && c = copyCheck bs }

/-- [Log 26: DEDUCED] -/
def Gw.copyAt (g : Gw) (i : Nat) : Option CfgCopy := mget? g.flash.cfg i

/-- CFG_VER: the version of the copy in use, 0 under factory defaults (R584). -/
def Gw.cfgVersion (g : Gw) : Nat :=
  if g.fw.cfgDefaults then 0 else ((g.copyAt g.fw.cfgCopy).map (·.version)).getD 0

end Sys2Proof.Machine
end

