-- ==== Sys2Proof/Machine/Views.lean ====
section
/-! DEFINITION. What a read of a BAR0 register returns, apart from its side effect: status registers are views of the
state, the others return the value they hold with their WO bits 0 (R7, R9, R14). -/

namespace Sys2Proof.Machine

/-- A mask of the indices below `n` that have a property. -/
def maskOf (n : Nat) (f : Nat → Bool) : Nat := (List.range n).foldl (fun a i => a + atBit i (f i)) 0

/-- The latched companion of a latching read (R83, R439), or the reset value before any such read. -/
def Gw.latched (g : Gw) (off : Nat) : Nat := (mgetD g.latches off (regReset off)).toNat

/-- The latched companions whose offsets have no live value of their own. -/
def latchedRegs : List Nat :=
  [Reg.fabStrFrontHi, Reg.fabStrOvrLastALo, Reg.fabStrOvrLastAHi, Reg.tbDtHi, Reg.tbDtFrac, Reg.tbIncrHi,
   Reg.tbStepLastHi, Reg.tbStepLastFrac, Reg.tbPpsInHi, Reg.tevOutNextHi 0, Reg.arcWrHi 0, Reg.arcMarkHi 0,
   Reg.updEpochHi, Reg.lckLastDetail, Reg.egrLateLastDly, Reg.canEpCntp 0, Reg.canEpStLo 0, Reg.canEpStHi 0,
   Reg.canEpStpLo 0, Reg.canEpStpHi 0, Reg.pwrSampleHi]

/-- A state code placed in the field of width `w` at index `i`. -/
def fieldAt (w i v : Nat) : Nat := v % 2 ^ w * 2 ^ (w * i)

/-! ### Module, interrupts, mailboxes, host rings -/

/-- In recovery the map shows update staging after the Curator region and no other region (R795). -/
def Gw.dramMap (g : Gw) (k : Nat) : Nat :=
  if g.boot.stage = 4 then
    (if k = 0 then 512 * 65536 else if k = 4 then 128 * 65536 + 512 else 0)
  else g.regionMib k * 65536 + g.regionBase k

def MbxState.code : MbxState → Nat
  | .idle => 0
  | .busy => 1
  | .done => 2

/-- Milliseconds since the firmware started (R579). -/
def Gw.heartbeatMs (g : Gw) : Nat :=
  if g.fw.running then (g.tb.tick - g.fw.startTick) / ticksPerMs % 4294967296 else 0

/-- The field of island `k` in SYS_ISL_STAT: 0b11 while any unit of it is under test (R21, R753). HOST reads 0b01 at every
read that can reach the register. -/
def Gw.islField (g : Gw) (k : Nat) : Nat :=
  if k ≠ 14 && g.flt.tests.any (fun t => t.running && t.rep.island = k) then 3 else mgetD g.isl k 0

/-- [Log 17: DEDUCED, 70: DEDUCED] -/
def Gw.viewTop (g : Gw) (b i : Nat) : Option Nat :=
  if b = Reg.sysId then some (0x5A96B000 + atBit 0 (!g.partN))
  else if b = Reg.sysIslStat then some (((List.range 16).map (fun k => fieldAt 2 k (g.islField k))).sum)
  else if b = Reg.sysMacLo then some (macBase % 4294967296)
  else if b = Reg.sysMacHi then some (macBase / 4294967296 % 65536)
  else if b = Reg.sysDramMap 0 then some (g.dramMap i)
  else if b = Reg.intRaw 0 then some (maskOf 32 (fun k => g.raised (32 * i + k)))
  else if b = Reg.intPend 0 then some (maskOf 32 (fun k => g.pendingVectors.contains (32 * i + k)))
  else if b = Reg.mbxState 0 then some (((List.range 16).map (fun k => fieldAt 2 k (g.mbxAt (16 * i + k)).st.code)).sum)
  else if b = Reg.mbxFwStat then
    some (g.fw.state.code * 2 ^ 28 + atBit 27 g.fw.presence + atBit 26 g.fw.cfgDefaults + atBit 25 (g.fw.cfgCopy = 1))
  else if b = Reg.mbxFwHb then some g.heartbeatMs
  else if b = Reg.hdmaRxCtl 0 then
    some (setBits (g.regN (Reg.hdmaRxCtl i)) 30 30 (atBit 0 (mgetD g.rxRing i {}).waitFrom.isSome))
  else none

/-! ### Timebase, time events, timestamp queues -/

def Servo.code : Servo → Nat
  | .freerun => 0
  | .acquiring => 1
  | .locked => 2
  | .holdover => 3

/-- QCLASS of TB_STAT (R403). -/
def Gw.qClass (g : Gw) : Nat :=
  match g.tb.servo with
  | .locked => 0
  | .holdover => if g.tb.qual ≤ 1000 then 1 else if g.tb.qual ≤ 100000 then 2 else if g.tb.qual ≤ 10000000 then 3 else 4
  | _ => 4

/-- The low half of a 64-bit or wider number, its upper words read as companions. -/
def word32 (v k : Nat) : Nat := v / 2 ^ (32 * k) % 4294967296

/-- The last step delta split as TIME_STEP splits it: floor(δ) as 64 bits, and the fraction. -/
def Gw.lastStepNs (g : Gw) : Nat := (g.tb.lastDelta / 65536 % 18446744073709551616).toNat
def Gw.lastStepFrac (g : Gw) : Nat := (g.tb.lastDelta % 65536).toNat

/-- The fraction and segment word of TB_DT_FRAC. -/
def Gw.dtFrac (g : Gw) : Nat := g.tb.seg % 65536 * 65536 + g.tb.dt40 / 2 ^ 24 % 65536

/-- [Log 17: DEDUCED] -/
def Gw.viewTime (g : Gw) (b i : Nat) : Option Nat :=
  if b = Reg.tbStat then
    some (g.tb.src * 2 ^ 29 + g.tb.servo.code * 2 ^ 27 + g.param Par.tbWorkDom % 4 * 2 ^ 25 + atBit 24 (g.tb.step.isSome || !g.tb.stepQueue.isEmpty) +
      atBit 23 (g.param Par.tbTimeRoot = 1) + g.qClass * 2 ^ 20 + g.tb.seg % 65536)
  else if b = Reg.tbDtLo then some (word32 (g.tb.dt40 / 2 ^ 40) 0)
  else if b = Reg.tbIncrLo then some (word32 g.tb.incr 0)
  else if b = Reg.tbQual then some (min g.tb.qual 0xFFFFFFFF)
  else if b = Reg.tbOffs then some ((max (-2147483648) (min 2147483647 g.tb.offs) % 4294967296).toNat)
  else if b = Reg.tbStepLastLo then some (word32 g.lastStepNs 0)
  else if b = Reg.tbEpoch then some (word32 g.tb.epoch 0)
  else if b = Reg.tbPpsInLo then some (stampLo g.tb.ppsIn)
  else if b = Reg.tevOutCfg 0 then
    let x := g.tevAt i
    some (g.regN (Reg.tevOutCfg i) + atBit 30 x.active + atBit 26 (bit (g.param Par.tevOwn) i) + atBit 25 x.level)
  else if b = Reg.tevOutDone 0 then some (min 0xFFFFFFFF (g.tevAt i).k)
  else if b = Reg.tevOutNextLo 0 then some (stampLo (g.tevNext i))
  else if b = Reg.tevInStat 0 then some (g.regN (Reg.tevInStat i) + (g.tevInAt i).queue.length)
  else if b = Reg.tevInEnt0 0 then some ((tevWords (g.tevInAt i).queue.head?).getD 0 0)
  else if b = Reg.tevInEnt1 0 then some ((g.tevInAt i).latched.getD 1 0)
  else if b = Reg.tevInEnt2 0 then some ((g.tevInAt i).latched.getD 2 0)
  else if b = Reg.tevInEnt3 0 then some ((g.tevInAt i).latched.getD 3 0)
  else if b = Reg.tsqStat 0 then some (g.regN (Reg.tsqStat i) + (g.ethAt i).tsq.length)
  else if b = Reg.tsqEnt0 0 then some ((tsWords i (g.ethAt i).tsq.head?).getD 0 0)
  else if b = Reg.tsqEnt1 0 then some ((g.ethAt i).tsLatched.getD 1 0)
  else if b = Reg.tsqEnt2 0 then some ((g.ethAt i).tsLatched.getD 2 0)
  else if b = Reg.tsqEnt3 0 then some ((g.ethAt i).tsLatched.getD 3 0)
  else none

/-! ### Archive and capture -/

/-- [Log 17: DEDUCED] -/
def Gw.viewArc (g : Gw) (b i : Nat) : Option Nat :=
  let x := g.arcAt i
  if b = Reg.arcRstat 0 then
    some (atBit 31 (g.arcEn i) + atBit 30 (g.arcRoll i) + atBit 29 x.mark.isSome + atBit 28 x.held)
  else if b = Reg.arcRgeo 0 then some (if g.arcEn i then g.arcMib i * 65536 + g.arcBaseMib i else 0)
  else if b = Reg.arcWrLo 0 then some (word32 (g.arcOff i x.wr) 0)
  else if b = Reg.arcMarkLo 0 then some (word32 ((x.mark.map (fun m => g.arcOff i m.1)).getD 0) 0)
  else if b = Reg.arcSeq 0 then some (word32 x.seq 0)
  else if b = Reg.arcPlayStat then some (atBit 31 g.arc.play.isSome + g.arc.playRing % 4)
  else if b = Reg.arcPlayCnt then some (word32 g.arc.playCnt 0)
  else if b = Reg.arcCapStat 0 then some (g.regN (Reg.arcCapStat i) + (g.fifo i).bytes.length)
  else none

/-! ### Crypto, keys, update, faults -/

/-- Parity replaces the second computation: also while a targeted self-test of any unit runs (R522, R754). -/
def Gw.parity (g : Gw) : Bool := !g.inService || g.flt.tests.any (·.running)

/-- The units in service, less the fenced ones (R538, R760). -/
def Gw.fenceMap (g : Gw) : Nat :=
  atBit 31 g.flt.trng + g.flt.hash % 4 * 2 ^ 29 + g.flt.aes % 256 * 2 ^ 21 +
    (maskOf 2 (fun k => (mgetD g.pairs k {}).state = 4)) * 2 ^ 16 + maskOf 16 g.islFenced

/-- At least one unit is fenced. -/
def Gw.anyFenced (g : Gw) : Bool := g.fenceMap ≠ 0 || g.flt.calBanks ≠ 0 || g.flt.hotBanks ≠ 0

def Gw.keySel (g : Gw) : KeySlot := g.keys.at' (g.regN Reg.keyInfoSel % 4096)

/-- The words of KEY_INFO and KEY_INFO_PARENT for a slot (R542). -/
def KeySlot.infoWord (k : KeySlot) : Nat :=
  k.state * 2 ^ 30 + k.attr * 2 ^ 28 + atBit 27 k.len256 + atBit 26 k.hostUse + k.depth % 8 * 2 ^ 23 + k.gen % 65536
def KeySlot.parentWord (k : KeySlot) : Nat := if k.state = 0 then 0x1FFF else k.parent % 8192

/-- [Log 17: DEDUCED] -/
def Gw.viewKeys (g : Gw) (b i : Nat) : Option Nat :=
  if b = Reg.cryStat then
    some (g.cryUp % 256 * 2 ^ 24 + g.cryUp / 256 % 4 * 2 ^ 22 + atBit 21 g.parity + atBit 20 g.trngOk)
  else if b = Reg.keyStat then
    some (g.keys.rootStat * 2 ^ 30 + (g.keys.bank.getD 0) * 2 ^ 28 + g.keys.banksFree * 2 ^ 25 +
      atBit 24 g.keys.loopOpen + atBit 23 g.fw.presence + g.keys.validCount)
  else if b = Reg.keyInfo then some g.keySel.infoWord
  else if b = Reg.keyInfoParent then some g.keySel.parentWord
  else if b = Reg.updStat then
    let v := match g.upd.session with
      | some u => atBit 31 true + u.phase % 4 * 2 ^ 29 + u.kind % 2 * 2 ^ 28 + u.num % 256 * 256
      | none => 0
    some (v + g.boot.slot % 2 * 2 ^ 27 + atBit 26 g.boot.fallback + atBit 25 (g.boot.stage = 4) +
      atBit 24 (g.fw.state = .handover))
  else if b = Reg.updBlocks then
    some ((g.upd.session.map (fun u => u.blocks % 65536 * 65536 + u.received.length % 65536)).getD 0)
  else if b = Reg.updEpochLo then some (stampLo g.boot.hoEpoch)
  else if b = Reg.updPrevFw then
    some (if (g.slotAt g.spareSlot).valid then (g.slotAt g.spareSlot).version % 4294967296 else 0)
  else if b = Reg.updRomStat then some g.boot.romStat
  else if b = Reg.lckStat then
    some (atBit 31 g.anyFenced + atBit 30 (g.flt.tests.any (fun t => t.running)) +
      (maskOf 2 g.pairRuns) * 2 ^ 28 + min 256 g.flt.retired.length * 2 ^ 12)
  else if b = Reg.lckFence then some g.fenceMap
  else if b = Reg.lckFenceBank then some (g.flt.calBanks % 65536 + g.flt.hotBanks % 256 * 65536)
  else if b = Reg.lckLast then
    some ((g.flt.last.map (fun e => e.kind % 256 * 2 ^ 24 + e.island % 16 * 2 ^ 20 + e.cls % 4 * 2 ^ 18 +
      e.seq % 65536)).getD 0)
  else if b = Reg.lckIslRst then some (maskOf 16 (fun k => (mget? g.islRst k).isSome))
  else if b = Reg.lckInjStat 0 then some (mgetD g.flt.inj i 0)
  else none

/-! ### Fabric, catalogue, router, egress, policing -/

/-- The active entry of a bank at a wire time: the first whose part of the cycle has not ended. [Log 39: DEDUCED] -/
def GateBank.entryAt (k : GateBank) (w : Stamp) : Nat :=
  let rec go : List Nat → Nat → Nat → Nat
    | [], _, n => n - 1
    | [_], _, n => n
    | e :: r, x, n => if x < 64 * bits e 23 0 then n else go r (x - 64 * bits e 23 0) (n + 1)
  go k.entries (k.phase w) 0

/-- EGR_PSTAT_f (R265). -/
def Gw.egrStat (g : Gw) (f : Nat) : Nat :=
  let e := g.egrAt f
  let w : Stamp := g.str.frontier + g.lambda8 f
  let k := match e.commit with
    | some x => if x.at' ≤ w then e.gatesNext x else e.gates
    | none => e.gates
  let open' := maskOf 8 (fun c => match dropSegs k.segs (k.phase w) with
    | (_, v) :: _ => bit v c
    | [] => true)
  atBit 31 (g.hier f) + atBit 30 e.gateEn + e.bank % 2 * 2 ^ 29 + open' * 2 ^ 16 +
    (if k.entries.isEmpty then 0 else k.entryAt w % 256 * 256) +
    maskOf 8 (fun c => g.idleKbps f c ≠ 0 && decide (g.creditNow f c g.str.frontier < 0))

/-- [Log 17: DEDUCED, 171: DEDUCED] -/
def Gw.viewFab (g : Gw) (b i : Nat) : Option Nat :=
  if b = Reg.fabStrStat then some (atBit 31 g.str.run + atBit 30 g.str.closing.isSome + min 8192 g.str.pend.length)
  else if b = Reg.fabStrH then some (g.hxNs * 65536 + g.hNs)
  else if b = Reg.fabStrFrontLo then some (stampLo g.str.frontier)
  else if b = Reg.fabStrSeg then some (g.tb.seg % 65536)
  else if b = Reg.fabStrPcfg 0 then some (g.param (Par.strPcfg i) &&& 0x00FF0F01)
  else if b = Reg.fabStrXsrcLo then some (word32 (g.param Par.strXsrcF13) 0)
  else if b = Reg.fabStrXsrcHi then some (word32 (g.param Par.strXsrcF13) 1)
  else if b = Reg.fabCalStat then some g.usedCells
  else if b = Reg.fabCalShfree then some g.sFree
  else if b = Reg.fabCalSlackUsed then some g.slackUsed
  else if b = Reg.fabCalHoldUsed then some g.holdCells
  else if b = Reg.fabCalPauseStat then some (g.cal.xoff % 4096)
  else if b = Reg.fabQOcc 0 then some (g.occ (i / 8) (i % 8))
  else if b = Reg.fabPPend 0 then some (if i = 16 || i = 17 then 0 else g.pendCells i)
  else if b = Reg.fabPIocc 0 then some (mgetD g.cal.iocc i 0)
  else if b = Reg.catStat then
    some (atBit 31 (!g.cat.flushes.isEmpty) + g.cat.flushes.length % 8 * 2 ^ 28 +
      atBit 27 (g.str.run && g.param Par.catAgeEn = 1) + g.param Par.catVitRepair % 2 * 2 ^ 26)
  else if b = Reg.catPartBase 0 then some (g.partBase i)
  else if b = Reg.catPartCfg 0 then
    some (atBit 31 (g.partSize i ≠ 0 && g.partBase i + g.partSize i ≤ 131072) + g.partDeacc i * 2 ^ 29 +
      atBit 28 (g.vitOff i).isSome + g.partSize i / 1024)
  else if b = Reg.catPartUsed 0 then
    some ((g.cat.slots.filter (fun (e : Nat × Entry) => !g.hidden e.1 && g.partBase i ≤ e.1 &&
      e.1 < g.partBase i + g.partSize i)).length)
  else if b = Reg.catPortLrn 0 then some (mgetD g.cat.learned i 0)
  else if b = Reg.sigStat then
    some (atBit 31 g.rtr.run + atBit 30 (g.rtr.rerouted ≠ 0) + (g.rtr.pdus.filter (fun p => p.2.en)).length)
  else if b = Reg.sigAltMapLo then some (word32 g.rtr.rerouted 0)
  else if b = Reg.sigAltMapHi then some (word32 g.rtr.rerouted 1)
  else if b = Reg.sigTmoMap 0 then
    some (maskOf 32 (fun k => ((mget? g.rtr.slots (32 * i + k)).map TimeoutSlot.timedOut).getD false))
  else if b = Reg.egrPstat 0 then some (g.egrStat i)
  else if b = Reg.polBlockMap 0 then some (maskOf 32 (fun k => (g.filterAt (32 * i + k)).blocked))
  else none

/-! ### Ports and buses -/

/-- FCS of CAN_STAT (R353, R364). -/
def CanCtl.fcs (x : CanCtl) : Nat :=
  if x.recovering then 3 else if x.busOff then 2 else if 127 < x.tec || 127 < x.rec' then 1 else 0

def Gw.canStat (g : Gw) (c : Nat) : Nat :=
  let x := g.canAt c
  x.fcs * 2 ^ 30 + g.canMode c % 4 * 2 ^ 28 + atBit 27 (g.canLom c) + atBit 26 x.host + atBit 25 x.ttRun +
    atBit 24 x.ttMaster + x.cycle % 64 * 2 ^ 18 + x.gtq.length * 128

/-- [Log 17: DEDUCED] -/
def Gw.viewBus (g : Gw) (b i : Nat) : Option Nat :=
  if b = Reg.canStat 0 then some (g.canStat i)
  else if b = Reg.canErr 0 then
    some ((g.canAt i).tec % 512 * 65536 + (g.canAt i).rec' % 256 * 256 + (g.canAt i).lec % 8)
  else if b = Reg.canCollLast 0 then some (g.canAt i).collLast
  else if b = Reg.canEpCnt 0 then some (((g.canAt i).epochs.head?.map CanPair.cnt).getD 0)
  else if b = Reg.canCntNow 0 then some g.canNow
  else if b = Reg.linStat 0 then
    let x := g.linAt i
    some (atBit 31 (bit (g.linCfg i) 63) + atBit 30 (g.linCmdr i) + atBit 29 (g.linLom i) +
      (if x.running then x.curTable % 4 * 2 ^ 27 + x.curSlot % 64 * 2 ^ 21 else 0))
  else if b = Reg.flxStat then
    some (g.flx.poc % 8 * 2 ^ 29 + g.flx.cycle % 64 * 2 ^ 23 + atBit 22 (bit g.flxCfg 55) + atBit 21 (bit g.flxCfg 56) +
      atBit 20 g.flxLom)
  else if b = Reg.ethStat 0 then
    let x := g.ethAt i
    some (atBit 31 (g.linkUp i) + atBit 30 x.rateErr + g.ethMode i % 16 * 2 ^ 26 + atBit 25 x.pauseUntil.isSome +
      atBit 24 x.ignoreUntil.isSome + g.verifyState i % 4 * 2 ^ 22 + atBit 21 (g.preemptActive i) + atBit 20 (g.secEn i))
  else if b = Reg.tisStat 0 then
    some (atBit 31 (g.tisOn i) + atBit 30 (g.plcaOn i) + atBit 29 (g.plcaOn i && (g.tisAt i).beacon))
  else none

/-! ### Chain, remote access, power, network management -/

def Gw.chainStat (g : Gw) (k : Nat) : Nat :=
  let x := g.chainAt k
  atBit 31 x.aligned + x.state % 4 * 2 ^ 29 + atBit 28 x.blocked + atBit 27 (g.tb.src = 2 && g.upstream = some k) +
    x.nbrVer % 256 * 65536 + x.nbrAddr % 4096

def PdChan.fuseByte (c : PdChan) : Nat := min 255 (c.w * 200).floor.toNat

/-- [Log 123: DEDUCED, 126: DEDUCED] -/
def Gw.pwrChan (g : Gw) (n : Nat) : Nat :=
  let c := g.die.seen.chan n
  c.cmd % 4 * 2 ^ 30 + atBit 29 c.out + atBit 28 c.blankFrom.isSome + atBit 27 c.limit + atBit 26 c.latched +
    c.cause % 4 * 2 ^ 24 + atBit 23 c.openLoad + atBit 22 (c.cmd = 3) + c.prof.typ % 8 * 2 ^ 19 + c.fuseByte * 256 +
    c.retriesLeft % 256

/-- The effective duty of a channel as telemetry shows it (R650, R664). [Log 123: DEDUCED] -/
def Gw.pwrDuty (g : Gw) (n : Nat) : Nat :=
  let c := g.die.seen.chan n
  if c.out then c.actDuty % 1024 else 0

def Gw.quietMask (g : Gw) (base : Nat) : Nat := maskOf 32 (fun k => g.nmBuses.contains (base + k) && g.quiet (base + k))

/-- [Log 17: DEDUCED, 126: DEDUCED] -/
def Gw.viewLink (g : Gw) (b i : Nat) : Option Nat :=
  let p := g.die.seen
  if b = Reg.chnStat then
    some (g.chn.role % 4 * 2 ^ 30 + g.chnAddr % 4096 * 2 ^ 18 + atBit 17 g.ringOwner + atBit 16 (g.chainAt 1).blocked +
      min 4094 g.chn.reach.length)
  else if b = Reg.chnVer then some g.chainVersion
  else if b = Reg.chnPstat 0 then some (g.chainStat i)
  else if b = Reg.pwrStat then
    some (atBit 31 g.die.link + atBit 30 p.hold + atBit 29 (p.all.any (fun x => x.2.cmd = 3)) + atBit 28 (p.supply = 1) +
      atBit 27 (p.supply = 2) + atBit 26 p.frozen + p.vbat % 65536)
  else if b = Reg.pwrComp then some (min 65535 (4096 * p.fNum * p.fNum / (p.fDen * p.fDen)))
  else if b = Reg.pwrTemp then some ((p.temp % 65536).toNat)
  else if b = Reg.pwrSampleLo then some (word32 g.die.sample 0)
  else if b = Reg.pwrSeq then some (p.seq % 65536)
  else if b = Reg.pwrChStat 0 then some (g.pwrChan i)
  else if b = Reg.pwrCur 0 then some (g.pwrDuty i * 65536 + (p.chan i).cur % 4096)
  else if b = Reg.pwrTj 0 then some (((p.chan i).tj % 65536).toNat)
  else if b = Reg.nmStat then
    let r := g.aon.record
    some (atBit 31 g.ownNeed + atBit 30 (g.fw.state = .sleepPrep) + atBit 29 (g.fw.applied && g.allQuiet) + atBit 28 r.latched +
      r.ev.src % 16 * 2 ^ 24 + r.ev.index % 256 * 65536 + min 32 g.aon.insomnia.length)
  else if b = Reg.nmCanQuiet then some (g.quietMask 0)
  else if b = Reg.nmEthQuiet then some (g.quietMask 32)
  else if b = Reg.nmWakeIdent then some (g.aon.record.ev.ident % 4294967296)
  else if b = Reg.nmWakeAont then some (g.aon.record.ticks % 4294967296)
  else none

/-- [Log 17: DEDUCED] -/
def Gw.viewRmt (g : Gw) (b i : Nat) : Option Nat :=
  let x := g.rmtAt i
  if b = Reg.rmtStat 0 then some (x.state % 4 * 2 ^ 30 + x.err % 16 * 2 ^ 26 + x.doneOps % 16 * 2 ^ 22 + x.bseq % 65536)
  else if Reg.rmtRdata0 0 ≤ b && b ≤ Reg.rmtRdata7 0 then some (x.rdata.getD ((b - Reg.rmtRdata0 0) / 4) 0 % 4294967296)
  else if b = Reg.rmtFerrStat then some (min 32 g.farLog.length)
  else if b = Reg.rmtFerrEnt0 then some ((g.farLog.head?.map FarEntry.w0).getD 0 % 4294967296)
  else if b = Reg.rmtFerrEnt1 then some (g.rmt.ferrLatched.getD 1 0 % 4294967296)
  else if b = Reg.rmtFerrEnt2 then some (g.rmt.ferrLatched.getD 2 0 % 4294967296)
  else none

/-- The registers at base offset `b` show the configuration, and their reset values until the firmware has applied one (R7):
fabric, catalogue, ports, buses, archive rings and the DRAM map, but what time alone moves. [Log 17: DEDUCED] -/
def Gw.awaitsConfig (g : Gw) (b : Nat) : Bool :=
  !g.fw.applied &&
    ((Reg.fabStrStat ≤ b && b < Reg.chnStat && !([Reg.fabStrFrontLo, Reg.fabStrSeg, Reg.canCntNow 0, Reg.canEpCnt 0].contains b)) ||
      b = Reg.arcRstat 0 || b = Reg.arcRgeo 0 || (b = Reg.sysDramMap 0 && g.boot.stage ≠ 4))

/-- The live value of register `i` of the group at base offset `b`, where it is a view of the state.
[Log 17: DEDUCED, 62: DEDUCED] -/
def Gw.live (g : Gw) (b i : Nat) : Option Nat :=
  if g.awaitsConfig b then none
  else if b < Reg.tbStat then g.viewTop b i
  else if b < Reg.arcRstat 0 then g.viewTime b i
  else if b < Reg.cryQRbaseLo 0 then g.viewArc b i
  else if b < Reg.fabStrStat then g.viewKeys b i
  else if b < Reg.ethStat 0 then g.viewFab b i
  else if b < Reg.chnStat then g.viewBus b i
  else if b < Reg.keyStat then g.viewLink b i
  else if b < Reg.pwrStat then g.viewKeys b i
  else if b < Reg.polFltMatch 0 then g.viewLink b i
  else if b < Reg.rmtTgt 0 then none
  else g.viewRmt b i

/-- A PWR_ register on a Z96N: it reads 0 and takes no write (R4). -/
def Gw.noPwr (g : Gw) (off : Nat) : Bool := g.partN && 0x1E0000 ≤ off && off < 0x1F0000

/-- What a read of a BAR0 word returns. An offset that names no register reads 0 (R13), and so does a PWR_ register on a
Z96N (R4). [Log 17: DEDUCED] -/
def Gw.view (g : Gw) (off : Nat) : W32 :=
  if g.noPwr off then 0
  else match findReg off with
  | none => 0
  | some (r, i) =>
    if latchedRegs.contains r.base then w32 (g.latched off)
    else match g.live r.base i with
      | some v => w32 v
      | none => r.readable (g.reg off)

end Sys2Proof.Machine
end

