-- ==== Sys2Proof/Machine/Tables.lean ====
section
/-! DEFINITION. The commands of areas 0x03, 0x04 and 0x05: catalogue entries (R592–R597 with R178–R184), PDUs and
rerouting (R598–R601), gate lists, leaf maps, weights, filters and meters (R602–R606). -/

namespace Sys2Proof.Machine

/-! ### Entry words -/

/-- The named fields of an entry word, by table and word; reserved bits are ignored (R146–R154, R200, R524, R526,
R581). For T3, `sealed` picks the bodies of KIND 2 and 3. [Log 64: DEDUCED] -/
def entryMask (table i : Nat) (sealed : Bool) : Nat :=
  let all : Nat := 0xFFFFFFFFFFFFFFFF
  let l : List Nat := match table with
    | 0 => [0x0FFFFFFFFFFFFFFF, 0x00000387003FFFFF, 0, 0, 0, 0]
    | 1 => [all, 0xFF, 0x003F7FFFFFFFFFFF, 0x1FFFF, 0x7FFFFF, 0]
    | 2 => [0x0000FFFFFFFFFF3F, 0xFFFFFFF000000001, all, 0xFFFFFFFFC0000000, all, 0xFFFFFFFFFFC01FFF]
    | 3 =>
      if sealed then [0xFF03, 0xFFFFFFFF, 0xF800000000000FFF, all, 0xFFFFFFFF, 0]
      else [0xFF03, all, 0xFFFFFFFF00000FFF, all, all, 0xFFFFFFFF]
    | 4 => [0x000000FFFFFFFF7F, all, 0x7FFFFFFFFFFFFFFF, all, 0x3FFFFF, 0]
    | _ => [0x7FFFFFFFFFFFFFFF, all, 0xFFFFFFFF00FF001F, all, 0x000000FF3FFFFF3F, 0]
  l.getD (i - 1) 0

/-- Word `i` (1 to 6) of a request whose body starts at payload word 1, reserved bits cleared, a T5 key also ANDed with
its stage's mask (R155). [Log 64: DEDUCED] -/
def Gw.bodyWord (g : Gw) (m p i : Nat) : W64 :=
  let t := tableOf p
  let sealed := t = 3 && 2 ≤ g.arg m 1 % 4
  let v := g.arg64 m (2 * i - 1) &&& entryMask t i sealed
  let v := if t = 5 && i ≤ 4 then v &&& (g.param (Par.catT5Mask (p - 8)) / 2 ^ (64 * (i - 1)) % 2 ^ 64) else v
  BitVec.ofNat 64 v

/-- The entry that a request's words give: USER in w0, W1 to W6 from w1 on. [Log 64: DEDUCED] -/
def Gw.bodyEntry (g : Gw) (m p : Nat) (static : Bool) : Entry :=
  let w := g.bodyWord m p
  { static := static, user := bits (g.arg m 0) 31 16, w1 := w 1, w2 := w 2, w3 := w 3, w4 := w 4, w5 := w 5, w6 := w 6 }

/-- The key that a request's words w1 to w8 give, bytes beyond K ignored. -/
def Gw.keyArg (g : Gw) (m p : Nat) : Nat :=
  let w := g.bodyWord m p
  ({ w1 := w 1, w2 := w 2, w3 := w 3, w4 := w 4 } : Entry).key (tableOf p)

/-- W0 to W7 of an entry as payload words; `index` stands in bits [24:0] of W0 where it is given. -/
def Entry.words (e : Entry) (p index : Nat) : List Nat :=
  splitWords 2 (e.word0 p + index) ++ ([1, 2, 3, 4, 5, 6].flatMap (fun i => splitWords 2 (e.word i))) ++
    splitWords 2 e.accSeq

/-! ### What goes with an entry of T2 and T3 (R152, R212, R329, R526, R532) -/

/-- An entry leaves its slot: its timeout slot ends, its SA leaves the port, its freshness state is forgotten.
[Log 181: DESIGN CHOICE] -/
def Gw.entryGone (g : Gw) (p i : Nat) (e : Entry) : Gw :=
  if p = 5 then
    let r := routeOf e
    match mget? g.rtr.slots r.tslot with
    | some t => if t.route = i then { g with rtr := { g.rtr with slots := merase g.rtr.slots r.tslot } } else g
    | none => g
  else if p = 6 then
    if e.f 1 1 0 ≤ 1 then g.dropSa e
    else
      let can := if e.f 1 1 0 = 2 then
          let c := e.f 1 13 8
          mset g.can c { g.canAt c with fvArr := merase (g.canAt c).fvArr i, filter := merase (g.canAt c).filter (e.word 2) }
        else g.can
      { g with fvLast := merase g.fvLast i, fvJrnl := merase g.fvJrnl i, fvTx := merase g.fvTx i,
               fvRes := merase g.fvRes i, can := can }
  else g

/-- The seal filter of a controller follows a T3 entry of KIND 2 (R329). -/
def Gw.loadFilter (g : Gw) (i : Nat) (e : Entry) : Gw :=
  let c := e.f 1 13 8
  if e.f 1 1 0 = 2 then g.setCan c { g.canAt c with filter := mset (g.canAt c).filter (e.word 2) (i, e) } else g

/-- An entry enters its slot at stamp `t`: a timed route's deadline, a port's SA, a seal entry's freshness and its place in
the seal filter. -/
def Gw.entryCame (g : Gw) (p i : Nat) (e : Entry) (t : Stamp) : Gw :=
  if p = 5 then (if g.rtr.run then g.armTimeout i (routeOf e) t else g)
  else if p = 6 then
    (if e.f 1 1 0 ≤ 1 then g.loadSa e else (if g.str.run then g.startFresh false i e else g).loadFilter i e)
  else g

/-! ### The checks of an insertion (R179, R595) -/

/-- The visible entries of a partition with their indices. -/
def Gw.partEntries (g : Gw) (p : Nat) : List (Nat × Entry) :=
  g.cat.slots.filter (fun (e : Nat × Entry) => !g.hidden e.1 && g.partBase p ≤ e.1 && e.1 < g.partBase p + g.partSize p)

/-- The destinations of a route with their start bits (R201). -/
def Route.dests (r : Route) : List (Nat × Nat) := (r.dpdu, r.dstart) :: (if r.alt then [(r.altPdu, r.altStart)] else [])

/-- The destination bits at `start` lie within `len` bytes. -/
def Route.within (r : Route) (start len : Nat) : Bool := (sigBits start r.dlen r.dbig).all (fun b => b < 8 * len)

/-- The rules of a T2 entry (R150, R201, R212). [Log 65: DEDUCED, 181: DESIGN CHOICE] -/
def Gw.routeOk (g : Gw) (e : Entry) : Bool :=
  let r := routeOf e
  let shared := g.partEntries 5 |>.any (fun (x : Nat × Entry) =>
    let q := routeOf x.2
    q.tmoMode ≠ 0 && q.tslot = r.tslot && x.2.key 2 ≠ e.key 2)
  r.policy ≠ 3 && r.tmoMode ≠ 3 && (r.tmoMode = 0 || r.tmoMs ≠ 0) && e.f 1 5 0 ≤ 45 &&
    r.dests.all (fun d => match mget? g.rtr.pdus d.1 with
      | some p => r.within d.2 p.desc.len
      | none => false) &&
    !(r.tmoMode ≠ 0 && shared)

/-- Controller `c` receives in the express class (R51, R90). -/
def Gw.expressCan (g : Gw) (c : Nat) : Bool := bit (g.pcfg 13) 0 && bit (g.param Par.strXsrcF13) c

/-- The receive (kind 2) or transmit (kind 3) sealing entries of controller `c`, apart from an entry with key `key`
(R329, R506). [Log 65: DEDUCED] -/
def Gw.sealFilter (g : Gw) (kind c key : Nat) : List (Nat × Entry) :=
  (g.partEntries 6).filter (fun (x : Nat × Entry) => x.2.f 1 1 0 = kind && x.2.f 1 13 8 = c && x.2.key 3 ≠ key)

/-- The rules of a T3 entry (R54, R151, R524, R526). -/
def Gw.assocOk (g : Gw) (e : Entry) : Bool :=
  let kind := e.f 1 1 0
  let k := g.keys.at' (e.f 3 11 0)
  let c := e.f 1 13 8
  if kind ≤ 1 then c ≤ 13 && g.saSlotOk e
  else
    c ≤ 31 && e.f 1 15 14 = 0 && e.f 3 61 59 ≤ 5 && k.state = 1 && k.attr = (if kind = 2 then 1 else 0) &&
      (kind = 3 || e.f 5 31 0 ≠ 0) &&
      !(kind = 2 && g.expressCan c && g.hxNs < 650 && (g.sealFilter 2 c (2 ^ 200)).isEmpty)

/-- The outgoing stream IDs of T4, apart from an entry with key `key` (R219). -/
def Gw.streamsOut (g : Gw) (key : Nat) : List Nat :=
  ((g.partEntries 7).filterMap (fun (x : Nat × Entry) =>
    if bit (x.2.word 1) 0 || x.2.key 4 = key then none else some (x.2.word 4))).eraseDups

/-- The rules an entry must meet as the insertion would leave it (R595). [Log 65: DEDUCED] -/
def Gw.entryOk (g : Gw) (p : Nat) (e : Entry) : Bool :=
  match tableOf p with
  | 0 => e.static || (((bitList 22 (e.f 2 21 0)).length = 1) && e.f 2 41 39 = 0)
  | 1 =>
    e.f 1 63 60 ≤ 2 && (e.f 2 4 0 ≤ 21 || e.f 2 4 0 = 31) &&
      (e.f 3 52 52 = 0 || (g.hNs + 1500 ≤ 8 * e.f 4 16 0 && 8 * e.f 4 16 0 ≤ 1000000))
  | 2 => g.routeOk e
  | 3 => g.assocOk e
  | 4 =>
    if bit (e.word 1) 0 then e.f 1 39 1 = 0 && e.f 4 63 46 = 0 else e.word 2 = 0 && e.f 1 6 1 ≤ 45
  | _ => e.f 3 4 0 ≤ 21

/-- An SA of one secure channel more than a port has: one transmit SC, eight receive SCs (R294). "NO_ROOM" is the answer by
analogy with R329. [Log 167: DESIGN CHOICE] -/
def Gw.scFull (g : Gw) (e : Entry) : Bool :=
  let rx : Bool := e.f 1 1 0 = 0
  let same := (g.partEntries 6).filter (fun (x : Nat × Entry) => x.2.f 1 1 0 = e.f 1 1 0 && x.2.f 1 13 8 = e.f 1 13 8 &&
    x.2.key 3 ≠ e.key 3)
  let scs := (same.map (fun (x : Nat × Entry) => x.2.word 2)).eraseDups
  !scs.contains (e.word 2) && (if rx then 8 else 1) ≤ scs.length

/-- An entry more would exceed the stream IDs of R219, the secure channels of R294 or a seal filter of R329. -/
def Gw.tableFull (g : Gw) (p : Nat) (e : Entry) : Bool :=
  if tableOf p = 4 then
    let l := g.streamsOut (e.key 4)
    !bit (e.word 1) 0 && !l.contains (e.word 4) && 4096 ≤ l.length
  else if tableOf p = 3 then
    (if e.f 1 1 0 ≤ 1 then g.scFull e else 256 ≤ (g.sealFilter (e.f 1 1 0) (e.f 1 13 8) (e.key 3)).length)
  else false

/-- The port's count is at its cap and the insertion would add to it (R179). -/
def Gw.capReached (g : Gw) (p : Nat) (old : Option Entry) (e : Entry) : Bool :=
  let adds : Bool := match old with
    | some o => o.static || decide (o.port ≠ e.port)
    | none => true
  tableOf p = 0 && !e.static && adds && g.learnCap e.port ≤ mgetD g.cat.learned e.port 0

/-! ### CAT_INSERT and CAT_DELETE -/

/-- An entry that the firmware writes takes its port's count (R169). -/
def Gw.takeCap (g : Gw) (p : Nat) (e : Entry) : Gw := if tableOf p = 0 && !e.static then g.learn e.port else g

/-- An entry present under the key is replaced in place (R179). -/
def Gw.updateEntry (g : Gw) (p i : Nat) (old e : Entry) (t : Stamp) : Gw :=
  let g := if tableOf p = 0 && !old.static then g.unlearn old.port else g
  let e := { e with accSeq := old.accSeq, hit := old.hit, strike := old.strike }
  ((((g.entryGone p i old).putEntry i e).takeCap p e).entryCame p i e t)

/-- A new entry written into slot `i` with the next serial (R141, R179). -/
def Gw.newEntry (g : Gw) (p i : Nat) (e : Entry) (t : Stamp) : Gw :=
  let s := g.takeSerial p
  let e := { e with accSeq := s.1 }
  (((s.2.putEntry i e).takeCap p e).entryCame p i e t)

/-- Where an insertion goes: the module after it, the slot and RESULT, or the status of a refusal. The insertion's lookup
has been made (`Gw.probe`). -/
def Gw.insert (g : Gw) (p : Nat) (e : Entry) (replace : Bool) (t : Stamp) : Except Nat (Gw × Nat × Nat) :=
  let found := g.find p (e.key (tableOf p))
  if !g.entryOk p e then .error stBadArg
  else if g.tableFull p e || g.capReached p (found.map (·.2)) e then .error stNoRoom
  else
    match found with
    | some (i, old) => .ok (g.updateEntry p i old e t, i, 1)
    | none =>
      let slots := g.bucketSlots p (e.key (tableOf p))
      match g.freeSlot slots with
      | some i => .ok (g.newEntry p i e t, i, 0)
      | none =>
        let policy := if g.partDeacc p = 0 then 1 else g.partDeacc p
        match (if replace then g.chooseVictim p policy slots else none) with
        | some v => .ok ((g.evict p v).newEntry p v.1.1 e t, v.1.1, 2)
        | none => .error stNoRoom

/-- The address of the vitrine copy of slot `i` of a partition that has a vitrine. -/
def Gw.vitCopy (g : Gw) (p i : Nat) : Option Nat := (g.vitOff p).map (fun o => g.vitAddr o (i - g.partBase p))

def catInsert (m : Nat) (t : Stamp) (s : State) : State × Answer :=
  let g := s.gw
  let w := g.arg m 0
  let p := bits w 3 0
  let e := g.bodyEntry m p (4 ≤ p || bit w 10)
  let vit := bit w 9 && e.static
  if 11 < p || (bit w 9 && (g.vitOff p).isNone) then (s, failWith stBadArg)
  else
    let g := (g.probe p (e.key (tableOf p))).1
    match g.insert p e (bit w 8) t with
    | .error st => (s.withGw g, failWith st)
    | .ok (g, i, result) =>
      let dram := match (if vit then g.vitCopy p i else none) with
        | some a => dramWrite s.dram a ((mgetD g.cat.slots i {}).bytes p)
        | none => s.dram
      ({ s with gw := g, dram := dram }, { words := [i, result] })

def execCatInsert (m : Nat) (s : State) : Host.Outcome State Fault Refusal := answer (changeRow 0x0303 catInsert m) s

def catDelete (m : Nat) (_t : Stamp) (s : State) : State × Answer :=
  let g := s.gw
  let p := bits (g.arg m 0) 3 0
  if 11 < p then (s, failWith stBadArg)
  else
    match g.probe p (g.keyArg m p) with
    | (g, none) => (s.withGw g, failWith stNotFound)
    | (g, some (i, e)) =>
      let g := (g.entryGone p i e).dropEntry p i e
      let dram := match g.vitCopy p i with
        | some a => dramWrite s.dram a (List.replicate 64 0)
        | none => s.dram
      ({ s with gw := g, dram := dram }, { words := [i] })

def execCatDelete (m : Nat) (s : State) : Host.Outcome State Fault Refusal := answer (changeRow 0x0304 catDelete m) s

/-! ### CAT_SEARCH and CAT_NEXT -/

def catSearch (m : Nat) (_t : Stamp) (g : Gw) : Gw × Answer :=
  let p := bits (g.arg m 0) 3 0
  if 11 < p then (g, failWith stBadArg)
  else
    match g.probe p (g.keyArg m p) with
    | (g, some (i, e)) => (g, { words := i :: e.words p 0 })
    | (g, none) => (g, failWith stNotFound)

def execCatSearch (m : Nat) (s : State) : Host.Outcome State Fault Refusal :=
  answer (changeRow 0x0301 (effAt catSearch) m) s

/-- The entries and the last index of one call: at most 65,536 slots above the cursor and at most 15 entries.
[Log 70: DEDUCED, 172: DEDUCED] -/
def Gw.nextEntries (g : Gw) (p first : Nat) : List (Nat × Entry) × Nat :=
  let stop := min (g.partBase p + g.partSize p) (first + 65536)
  let hits := ((g.partEntries p).filter (fun (x : Nat × Entry) =>
    first ≤ x.1 && x.1 < stop && !g.hotFenced x.1 && !g.cat.eccBad.contains x.1)).take 15
  (hits, if hits.length = 15 then (hits.getLast?.map (·.1)).getD 0 else stop - 1)

/-- [Log 70: DEDUCED] -/
def catNext (m : Nat) (_t : Stamp) (g : Gw) : Gw × Answer :=
  let p := bits (g.arg m 0) 3 0
  let cur := g.arg m 1
  let base := g.partBase p
  let top := base + g.partSize p
  if 11 < p || (cur ≠ 0xFFFFFFFF && !(base ≤ cur && cur < top)) then (g, failWith stBadArg)
  else
    let first := if cur = 0xFFFFFFFF then base else cur + 1
    if top ≤ first then (g, { words := [2 ^ 31, cur] })
    else
      let r := g.nextEntries p first
      (g, { words := [atBit 31 (r.2 + 1 = top) + r.1.length, r.2] ++ r.1.flatMap (fun x => x.2.words p x.1) })

def execCatNext (m : Nat) (s : State) : Host.Outcome State Fault Refusal :=
  answer (changeRow 0x0302 (effAt catNext) m) s

/-! ### Flushes (R181–R183, R597) -/

/-- A flush takes logical effect and its reply waits for the physical removal; what goes with T2 and T3 entries goes
with them. -/
def Gw.startFlush (g : Gw) (m : Nat) (t : Stamp) (parts : List Nat) (sel : Nat → Entry → Bool) : Gw × Answer :=
  if 4 ≤ g.cat.flushes.length then (g, failWith stBusy)
  else
    let gone := parts.flatMap (fun p => ((g.partEntries p).filter (fun x => sel p x.2)).map (fun x => (p, x)))
    let g := gone.foldl (fun (g : Gw) (h : Nat × Nat × Entry) => g.entryGone h.1 h.2.1 h.2.2) g
    let g := g.flush (some m) parts sel
    let flushes := g.cat.flushes.mapIdx (fun i f => if i + 1 = g.cat.flushes.length then { f with at' := t } else f)
    ({ g with cat := { g.cat with flushes := flushes } }, { later := true })

def catFlushPort (m : Nat) (t : Stamp) (g : Gw) : Gw × Answer :=
  let w := g.arg m 0
  let p := bits w 3 0
  let f := bits w 12 8
  if 21 < f || (3 < p && p ≠ 15) then (g, failWith stBadArg)
  else
    g.startFlush m t (if p = 15 then [0, 1, 2, 3] else [p]) (fun _ e =>
      if e.static then bit w 16 && e.f 2 21 0 = 2 ^ f else e.port = f)

def execCatFlushPort (m : Nat) (s : State) : Host.Outcome State Fault Refusal :=
  answer (changeRow 0x0305 (effAt catFlushPort) m) s

def catFlushPart (m : Nat) (t : Stamp) (g : Gw) : Gw × Answer :=
  let w := g.arg m 0
  let p := bits w 3 0
  if 11 < p then (g, failWith stBadArg) else g.startFlush m t [p] (fun _ e => !e.static || bit w 16)

def execCatFlushPart (m : Nat) (s : State) : Host.Outcome State Fault Refusal :=
  answer (changeRow 0x0306 (effAt catFlushPart) m) s

/-- Flush `i` is physically complete: its entries are gone, and the request is answered with the matches (R182). -/
def Gw.flushDone (g : Gw) (i : Nat) : Gw :=
  match g.cat.flushes[i]? with
  | none => g
  | some f =>
    let slots := f.hidden.foldl merase g.cat.slots
    let g := { g with cat := { g.cat with slots := slots, flushes := g.cat.flushes.eraseIdx i,
                                          eccBad := g.cat.eccBad.filter (fun j => !f.hidden.contains j) } }
    match f.mbx with
    | some m => g.reply m stOk f.at' [f.matched]
    | none => g

def execFlushRemovalDone (i : Nat) (s : State) : Host.Outcome State Fault Refusal :=
  answer (onGw (fun g => g.flushDone i)) s

/-! ### PDUs (R598–R600) -/

/-- The descriptor that a request gives. -/
def Gw.pduArg (g : Gw) (m : Nat) : PduDesc :=
  let w := g.arg m
  { len := bits (w 1) 27 16, fmt := bits (w 1) 13 12, cls := bits (w 1) 10 8, bus := bits (w 1) 5 0, ident := w 2,
    periodMs := bits (w 3) 31 16, phaseMs := bits (w 3) 15 0, sdt := bits (w 4) 31 24, vcid := bits (w 4) 23 16,
    minGapMs := bits (w 4) 15 0, af := w 5, sec := bit (w 6) 0, init := g.argBytes m 8 (bits (w 7) 9 0) }

/-- The largest data length of a destination and format (R204). -/
def PduDesc.maxLen (d : PduDesc) : Nat :=
  if d.bus ≤ 31 then [8, 64, 64, 2048].getD d.fmt 8 else if d.bus ≤ 43 then 8 else 254

/-- The ranges of R204. [Log 72: DEDUCED] -/
def PduDesc.ok (d : PduDesc) : Bool :=
  d.bus ≤ 45 && 1 ≤ d.len && d.len ≤ d.maxLen && d.phaseMs < max 1 d.periodMs

/-- A sealed destination gives a valid data length (R530). -/
def Gw.sealedLenOk (g : Gw) (d : PduDesc) : Bool :=
  match g.find 6 (t3Key 3 d.bus d.ident) with
  | some (_, e) =>
    let b : BusFrame := { xlf := d.fmt = 3, fdf := d.fmt = 1 || d.fmt = 2 }
    31 < d.bus || validDlen b (d.len + e.fvBytes + e.macBytes)
  | none => true

/-- No route reaches beyond a new length of PDU `k` (R599). -/
def Gw.routesFit (g : Gw) (k len : Nat) : Bool :=
  (g.partEntries 5).all (fun (x : Nat × Entry) =>
    (routeOf x.2).dests.all (fun d => d.1 ≠ k || (routeOf x.2).within d.2 len))

/-- Bytes of the composer's data RAM that all PDUs but `k` take (R204). -/
def Gw.pduRam (g : Gw) (k : Nat) : Nat :=
  (g.rtr.pdus.map (fun (p : Nat × Pdu) => if p.1 = k then 0 else 8 * ceilDiv p.2.desc.len 8)).sum

/-- [Log 72: DEDUCED, 91: DEDUCED] -/
def sigPduSet (m : Nat) (t : Stamp) (g : Gw) : Gw × Answer :=
  let k := bits (g.arg m 0) 11 0
  let d := g.pduArg m
  if !d.ok || 976 < bits (g.arg m 7) 9 0 || !g.sealedLenOk d || !g.routesFit k d.len then (g, failWith stBadArg)
  else if 262144 < g.pduRam k + 8 * ceilDiv d.len 8 then (g, failWith stNoRoom)
  else
    let p : Pdu := { desc := d, en := bit (g.arg m 0) 31, content := [], enable := t, gapRef := t }
    (g.setPdu k (p.startAt t), {})

def execSigPduSet (m : Nat) (s : State) : Host.Outcome State Fault Refusal :=
  answer (changeRow 0x0401 (effAt sigPduSet) m) s

def PduDesc.words (d : PduDesc) (k : Nat) (en : Bool) : List Nat :=
  [atBit 31 en + k, d.len * 65536 + d.fmt * 4096 + d.cls * 256 + d.bus, d.ident, d.periodMs * 65536 + d.phaseMs,
   d.sdt * 2 ^ 24 + d.vcid * 65536 + d.minGapMs, d.af, atBit 0 d.sec]

def sigPduGet (m : Nat) (_t : Stamp) (g : Gw) : Gw × Answer :=
  let k := bits (g.arg m 0) 11 0
  let off := bits (g.arg m 1) 10 0
  match mget? g.rtr.pdus k with
  | none => (g, failWith stNotFound)
  | some p =>
    if p.desc.len ≤ off then (g, failWith stBadArg)
    else
      let n := min 976 (p.desc.len - off)
      (g, { words := p.desc.words k p.en ++ [n] ++ byteWords (slice p.content off n) })

def execSigPduGet (m : Nat) (s : State) : Host.Outcome State Fault Refusal :=
  answer (changeRow 0x0402 (effAt sigPduGet) m) s

/-- SIG_ALT_SET: the masked flags change (R601, R215, R216). -/
def sigAltSet (m : Nat) (t : Stamp) (g : Gw) : Gw × Answer :=
  let mask := g.arg64 m 0
  let val := g.arg64 m 2
  let g := (bitList 46 mask).foldl (fun (g : Gw) b => g.setRerouted b (bit val b) t) g
  (g, { words := splitWords 2 g.rtr.rerouted })

def execSigAltSet (m : Nat) (s : State) : Host.Outcome State Fault Refusal :=
  answer (changeRow 0x0403 (effAt sigAltSet) m) s

/-! ### Gate lists (R251, R602, R603) -/

/-- The change that commits a port's gates has not come to its stamp. [Log 21: DEDUCED] -/
def Gw.commitQueued (g : Gw) (f : Nat) : Bool :=
  g.str.changes.any (fun c => match c.act with
    | .mailbox m => g.reqCode m = 0x0502 && bits (g.arg m 0) 4 0 = f
    | .firmware _ => false)

/-- A commit of port `f` has been accepted and its arrangement is not in effect. -/
def Gw.commitPending (g : Gw) (f : Nat) : Bool :=
  (g.egrAt f).commit.isSome || (g.egrAt f).later.isSome || g.commitQueued f

def egrGateLoad (m : Nat) (g : Gw) : Gw × Answer :=
  let w := g.arg m 0
  let n := bits w 24 16
  let off := bits w 15 8
  let f := bits w 4 0
  let new := (List.range n).map (fun i => g.arg m (1 + i))
  if !wirePort f || n = 0 || 251 < n || 256 < off + n || new.any (fun e => bits e 23 0 = 0) then (g, failWith stBadArg)
  else if g.commitPending f then (g, failWith stLocked)
  else
    let e := g.egrAt f
    let b := e.bankAt (1 - e.bank)
    let old := b.entries ++ b.rest
    let old := old ++ List.replicate (off + n - old.length) 0
    let all := old.take off ++ new ++ old.drop (off + n)
    let k := b.entries.length
    let b := { b with entries := all.take k, rest := all.drop k }
    (g.setEgr f { e with banks := mset e.banks (1 - e.bank) b }, {})

def execEgrGateLoad (m : Nat) (s : State) : Host.Outcome State Fault Refusal :=
  answer (directRow 0x0501 (effGw egrGateLoad) m) s

/-- The first start of a cycle of a bank whose wire time is at or after `t` (R255). -/
def GateBank.firstStart (b : GateBank) (t : Stamp) : Stamp :=
  8 * b.base + -((8 * b.base - t) / (8 * Int.ofNat b.cycle)) * (8 * Int.ofNat b.cycle)

/-- The arrangement of a commit comes into effect. [Log 39: DEDUCED] -/
def EgrPort.switch (e : EgrPort) : EgrPort :=
  match e.commit with
  | some k =>
    match k.bank with
    | some i => { e with bank := i, gateEn := true, commit := none }
    | none => { e with bank := 1 - e.bank, gateEn := false, commit := none }
  | none => e

/-- EGR_GATE_COMMIT names a wire port and, with GATE_EN 1, a bank within the limits of R251. [Log 39: DEDUCED] -/
def Gw.commitOk (g : Gw) (m : Nat) : Bool :=
  let w := g.arg m
  let cycle := bits (w 3) 29 0
  wirePort (bits (w 0) 4 0) && (!bit (w 0) 31 || (asI64 (g.arg64 m 1) % 8 = 0 && cycle % 8 = 0 && 1000 ≤ cycle &&
    cycle ≤ 1000000000 && bits (w 4) 8 0 ≤ 256))

/-- The port with the commit of mailbox `m` pending for stamp `t`. [Log 39: DEDUCED] -/
def Gw.withCommit (g : Gw) (m : Nat) (t : Stamp) : EgrPort :=
  let w := g.arg m
  let e := g.egrAt (bits (w 0) 4 0)
  if bit (w 0) 31 then
    let i := 1 - e.bank
    let b := e.bankAt i
    let all := b.entries ++ b.rest
    let count := bits (w 4) 8 0
    let all := all ++ List.replicate (count - all.length) 0
    let b : GateBank := { entries := all.take count, rest := all.drop count, base := asI64 (g.arg64 m 1),
                          cycle := bits (w 3) 29 0 }
    { e with banks := mset e.banks i b, commit := some { bank := some i, at' := b.firstStart t } }
  else { e with commit := some { bank := none, at' := t } }

/-- At its stamp a commit that the port still holds pending takes its place in the order anew, and so moves with a
change carried into a new segment (R78, R255). In CONFIG it acts at once. [Log 39: DEDUCED] -/
def egrGateCommit (m : Nat) (t : Stamp) (g : Gw) : Gw × Answer :=
  let f := bits (g.arg m 0) 4 0
  if !g.commitOk m then (g, failWith stBadArg)
  else if g.str.run then (g.setEgr f (g.withCommit m t), {})
  else (g.setEgr f (g.withCommit m t).switch, {})

/-- EGR_GATE_COMMIT: a commit while another of the port is pending is refused (R603). An accepted one is known from then
on to every decision whose planned wire time reaches it (R255), while an old segment closes to those of the new one only.
[Log 21: DEDUCED] -/
def gateCommitRow (m : Nat) (s : State) : State :=
  let g := s.gw
  let f := bits (g.arg m 0) 4 0
  if !(g.holds m 0x0502 && g.serving) then changeRow 0x0502 (effAt egrGateCommit) m s
  else if g.commitPending f then s.withGw (g.reply m stBusy 0 [])
  else
    let g := g.queueChange m
    match g.str.changes.getLast?.filter (fun c => c.act = .mailbox m) with
    | some c =>
      let e := g.withCommit m c.t
      let e : EgrPort := if g.str.closing.isSome then { e with commit := none, later := e.commit } else e
      s.withGw (if g.commitOk m then g.setEgr f e else g)
    | none => s.withGw g

def execEgrGateCommit (m : Nat) (s : State) : Host.Outcome State Fault Refusal := answer (gateCommitRow m) s

/-- The device time that a commit is measured against: while an old segment closes, one that had not taken effect at the step
tick waits for the new segment (R255). -/
def Gw.commitNow (g : Gw) : Stamp :=
  match g.str.closing with
  | some c => c.oldDt * 8 / 2 ^ 40
  | none => g.now

/-- GATE_BANK_SWITCH: the arrangement's wire time is there and every decision before it has been taken; the new bank is
the active one (R255, R603). -/
def gateBankSwitch (f : Nat) (s : State) : State :=
  let g := s.gw
  match (g.egrAt f).commit with
  | some k =>
    let t := k.at' - Int.ofNat (g.lambda8 f)
    if k.at' ≤ g.commitNow && !g.commitQueued f && t ≤ g.txLimit s.dram && (g.nextTx f (t - 1)).isNone then
      let g := g.settleCredits f t
      s.withGw ((g.setEgr f (g.egrAt f).switch).settle f t)
    else s
  | none => s

def execGateBankSwitch (f : Nat) (s : State) : Host.Outcome State Fault Refusal := answer (gateBankSwitch f) s

/-! ### Leaf maps and weights (R246, R247, R604) -/

/-- Two classes share a leaf of a map given as 176 bytes, byte 8g + c. -/
def leafClash (bs : List Byte) : Bool :=
  (List.range 256).any (fun leaf =>
    ((List.range 8).filter (fun c => (List.range 22).any (fun p => byteAt bs (8 * p + c) = leaf))).length > 1)

def egrLeafMap (m : Nat) (_t : Stamp) (g : Gw) : Gw × Answer :=
  let f := bits (g.arg m 0) 4 0
  let bs := g.argBytes m 1 176
  if 21 < f || !g.hier f || leafClash bs then (g, failWith stBadArg)
  else
    let map := (List.range 176).foldl (fun (a : Map Nat) i => mput a i (byteAt bs i) 0) []
    (g.setEgr f { g.egrAt f with leafMap := map }, {})

def execEgrLeafMap (m : Nat) (s : State) : Host.Outcome State Fault Refusal :=
  answer (changeRow 0x0503 (effAt egrLeafMap) m) s

def egrNodeWeight (m : Nat) (_t : Stamp) (g : Gw) : Gw × Answer :=
  let f := bits (g.arg m 0) 4 0
  let dw := g.argBytes m 1 16
  let sw := g.argBytes m 5 256
  if 21 < f || !g.hier f then (g, failWith stBadArg)
  else
    let w := (List.range 16).foldl (fun (a : Map Nat) d => mput a (1000 + d) (byteAt dw d) 0) []
    let w := (List.range 256).foldl (fun (a : Map Nat) i => mput a (2000 + i) (byteAt sw i) 0) w
    (g.setEgr f { g.egrAt f with weights := w }, {})

def execEgrNodeWeight (m : Nat) (s : State) : Host.Outcome State Fault Refusal :=
  answer (changeRow 0x0504 (effAt egrNodeWeight) m) s

/-! ### Filters and meters (R233–R238, R605, R606) -/

def polFilterSet (m : Nat) (_t : Stamp) (g : Gw) : Gw × Answer :=
  let w := g.arg m
  let first := bits (w 0) 15 0
  let n := bits (w 1) 16 0
  let c := w 2
  if n = 0 || 65536 < first + n || 16384 < bits c 14 0 || (bit c 18 && bit c 17) then (g, failWith stBadArg)
  else
    let set := fun (f : Filter) => { f with
      maxSdu := bits c 14 0, blockEn := bit c 16, blocked := bit c 18 || (f.blocked && !bit c 17) }
    ((List.range n).foldl (fun (g : Gw) i => g.setFilter (first + i) (set (g.filterAt (first + i)))) g, {})

def execPolFilterSet (m : Nat) (s : State) : Host.Outcome State Fault Refusal :=
  answer (changeRow 0x0505 (effAt polFilterSet) m) s

/-- A meter's settings changed at stamp `t` (R236). Before the run its level only follows the burst. -/
def Gw.changeMeter (g : Gw) (i rate burst : Nat) (t : Stamp) : Gw :=
  let x := g.meterAt i
  let x := if g.str.run then g.refill x t g.str.relSeg else x
  let level := if g.str.run then min x.level (burst * 64000000) else burst * 64000000
  g.setMeter i { x with rate := rate, burst := burst, level := level }

def polMeterSet (m : Nat) (t : Stamp) (g : Gw) : Gw × Answer :=
  let w := g.arg m
  let first := bits (w 0) 13 0
  let n := bits (w 1) 14 0
  let rate := bits (w 2) 24 0
  let burst := bits (w 3) 23 0
  if n = 0 || 16384 < first + n || 25000000 < rate then (g, failWith stBadArg)
  else ((List.range n).foldl (fun (g : Gw) i => g.changeMeter (first + i) rate burst t) g, {})

def execPolMeterSet (m : Nat) (s : State) : Host.Outcome State Fault Refusal :=
  answer (changeRow 0x0506 (effAt polMeterSet) m) s

def polGet (m : Nat) (t : Stamp) (g : Gw) : Gw × Answer :=
  let w := g.arg m 0
  let i := bits w 15 0
  if bit w 31 then
    if 16384 ≤ i then (g, failWith stBadArg)
    else
      let x := g.meterAt i
      let x := if g.str.run then g.refill x t g.str.relSeg else x
      (g, { words := [x.rate, x.burst] ++ splitWords 2 x.level })
  else
    let f := g.filterAt i
    (g, { words := [atBit 18 f.blocked + atBit 16 f.blockEn + f.maxSdu, 0, 0, 0] })

def execPolGet (m : Nat) (s : State) : Host.Outcome State Fault Refusal :=
  answer (changeRow 0x0507 (effAt polGet) m) s

end Sys2Proof.Machine
end

