-- ==== Sys2Proof/Machine/Network.lean ====
section
/-! DEFINITION. The start of a run (R585) and the commands of areas 0x01, 0x02, 0x06 and 0x07 that are not parameter
writes: SYS_INFO, SYS_RUN, SYS_RESET, CFG_IMAGE_INFO, ETH_PORT_CTL, CAN_RECOVER, CAN_OWN, LIN_TABLE and FLX_CMD
(R584–R587, R591, R607–R611). -/

namespace Sys2Proof.Machine

/-- The row of a code that two operations share: it acts when the request names its own operation, or one that no row
has. -/
def pickRow (mine : Gw → Bool) (row : Nat → State → State) (m : Nat) (s : State) : State :=
  if mine s.gw then row m s else s

/-! ### SYS_INFO and CFG_IMAGE_INFO -/

def sysInfo (_m : Nat) (g : Gw) : Gw × Answer :=
  (g, { words := [(g.view Reg.sysId).toNat, g.fwVersion % 4294967296,
                  g.cfgVersion % 65536 * 65536 + g.chainVersion * 256 + g.boot.slot % 2,
                  (g.view Reg.sysIslStat).toNat, g.fenceMap, g.heartbeatMs] })

def execSysInfo (m : Nat) (s : State) : Host.Outcome State Fault Refusal :=
  answer (directRow 0x0101 (effGw sysInfo) m) s

/-- VERSION of a copy, 0 when unreadable. [Log 28: DEDUCED] -/
def Gw.copyVersion (g : Gw) (i : Nat) : Nat :=
  match g.copyAt i with
  | some c => if c.checkOk then c.version % 65536 else 0
  | none => 0

/-- [Log 28: DEDUCED] -/
def cfgImageInfo (_m : Nat) (g : Gw) : Gw × Answer :=
  let cause := fun (i : Nat) => g.boot.causes.getD i 2 % 4
  let check := fun (i : Nat) => splitWords 2 (((g.copyAt i).map (·.check)).getD 0)
  (g, { words := [g.copyVersion 0 * 65536 + g.copyVersion 1,
                  cause 0 * 64 + cause 1 * 16 + atBit 1 (g.fw.cfgCopy = 1) + atBit 0 g.fw.cfgDefaults,
                  g.boot.rejArea % 65536 * 65536 + g.boot.rejItem % 65536] ++ check 0 ++ check 1 ++ [0] })

def execCfgImageInfo (m : Nat) (s : State) : Host.Outcome State Fault Refusal :=
  answer (directRow 0x0203 (effGw cfgImageInfo) m) s

/-! ### The start of a run (R38, R236, R320, R532, R585) -/

/-- START for a run asked for at stamp `t`: the smallest multiple of 2²⁰ above it. -/
def startAfter (t : Stamp) : Stamp := (t / 1048576 + 1) * 1048576

/-- Every egress port empty and idle from START; banks, maps and weights stay. -/
def EgrPort.fresh (e : EgrPort) (start : Stamp) : EgrPort :=
  { e with queued := [], selected := [], resv := [], cur := none, idleFrom := start, settled := start, lastResv := none,
           nextTag := 0, vtime := [], tags := [], credits := [], creditFrom := start, reserved := 0, staged := []
           commit := e.commit.or e.later, later := none }

/-- The parts of a run's starting state that the ports and buses hold: every controller with the gateway, running
schedule tables starting at START, queues and meters as at the start of a run. [Log 29: DEDUCED] -/
def Gw.startPorts (g : Gw) (start : Stamp) : Gw :=
  let g := (List.range 32).foldl (fun (g : Gw) c => if (g.canAt c).host then g.canGive c else g) g
  let g := { g with can := g.can.map (fun (q : Nat × CanCtl) => (q.1, { q.2 with owners := [], later := [] })) }
  let lin := g.lin.map (fun (q : Nat × LinCtl) => (q.1, { q.2 with
    nextSlot := if q.2.running then some start else none, slot := 0, want := none, resume := [], resolve := none,
    commits := [], waits := [] }))
  let meters := g.meters.map (fun (q : Nat × Meter) =>
    (q.1, { q.2 with level := q.2.burst * 64000000, t := start, seg := g.tb.seg }))
  { g with lin := lin, meters := meters, egr := (List.range 22).map (fun f => (f, (g.egrAt f).fresh start)),
           flx := { g.flx with commits := [], waits := [] }, cal := { nextFid := g.cal.nextFid, inFree := g.cal.inFree, start := g.cal.start },
           undefEgress := 0, undefLaunch := false, undefBus := 0 }

/-- Host frames that wait in Caldera for their stamps stay there across the start of a run (R61). -/
def Gw.restoreHeld (g : Gw) : Gw :=
  g.txRing.foldl (fun (g : Gw) (q : Nat × TxRing) =>
    match q.2.send with
    | some d =>
      let r := d.held.foldl (fun (acc : Gw × List (TxSeg × Stamp × Nat × Nat)) h =>
        match acc.1.storeFrame { fport := 16 + bits (g.regN (Reg.hdmaTxCtl q.1)) 0 0, body := .eth (withFcs h.1.bytes) } with
        | some (g, x) => (g, acc.2 ++ [(h.1, h.2.1, h.2.2.1, x.fid)])
        | none => acc) (g, [])
      { r.1 with txRing := mset r.1.txRing q.1 { q.2 with send := some { d with held := r.2 } } }
    | none => g) g

/-- A send without the frames that it holds in Caldera. -/
def TxRing.noneHeld (x : TxRing) : TxRing := { x with send := x.send.map (fun (d : TxSend) => { d with held := [] }) }

/-- The frames that ring `r` holds in Caldera for their stamps give up their cells. -/
def Gw.dropHeld (g : Gw) (r : Nat) : Gw :=
  match mget? g.txRing r with
  | some x =>
    let fids := (x.send.map (fun (d : TxSend) => d.held.map (fun h => h.2.2.2))).getD []
    fids.foldl Gw.unclaim { g with txRing := mset g.txRing r x.noneHeld }
  | none => g

/-- A run starts at START in the present segment (R585): empty order, the starting state of every table. Changes accepted
before an island's reset ended the last run stay accepted. [Log 29: DEDUCED] -/
def Gw.startRun (g : Gw) (start : Stamp) : Gw :=
  let str : Strata := { run := true, startStamp := start, startSeg := g.tb.seg, relSeg := g.tb.seg,
                        frontier := max g.str.frontier (g.now - 8 * Int.ofNat g.hNs), shift := g.str.shift, accepted := g.str.accepted,
                        changes := g.str.changes }
  let g := ({ g with str := str, keys := { g.keys with past := [] } } : Gw).startPorts start
  let g := ((g.restoreHeld.startCatalogue start).startRouter start).startArchive
  let seals := g.sealEntries 2 ++ g.sealEntries 3
  seals.foldl (fun (g : Gw) ie => g.startFresh true ie.1 ie.2) g

/-- CONFIG is left, or BOOT under factory defaults, for RUN, or for DEGRADED with a unit fenced (R562). Deadlines of
the NM buses start anew (R684). [Log 29: DEDUCED] -/
def Gw.enterRun (g : Gw) (mbx : Option Nat) : Gw :=
  let start := startAfter g.now
  let g := g.startRun start
  let st : FwState := if g.anyFenced then .degraded else .run
  ({ g with fw := { g.fw with runMbx := mbx } }.setFw st).flxReady

def sysRun (m : Nat) (g : Gw) : Gw × Answer := (g.enterRun (some m), { later := true })

def execSysRun (m : Nat) (s : State) : Host.Outcome State Fault Refusal :=
  answer (directRow 0x0102 (effGw sysRun) m) s

/-- The reply of SYS_RUN, once the frontier has reached START (R585). [Log 3: DESIGN CHOICE] -/
def Gw.runReply (g : Gw) : Gw :=
  match g.fw.runMbx with
  | some m =>
    if g.str.run && g.str.startStamp ≤ g.str.frontier then
      { g with fw := { g.fw with runMbx := none } }.reply m stOk 0 (splitWords 2 (stampNat g.str.startStamp))
    else g
  | none => g

/-! ### SYS_RESET (R586, R587) -/

/-- The firmware reset 1 ms after the reply. -/
def Gw.askReset (g : Gw) : Gw := { g with fw := { g.fw with resetAt := some (g.tb.tick + ticksPerMs) } }

def resetKind (g : Gw) (m : Nat) : Nat := bits (g.arg m 0) 1 0

def sysResetFirmware (m : Nat) (g : Gw) : Gw × Answer :=
  if 2 ≤ resetKind g m then (g, failWith stBadArg) else (g.askReset, {})

/-- [Log 22: DESIGN CHOICE] -/
def execSysResetFirmware (m : Nat) (s : State) : Host.Outcome State Fault Refusal :=
  answer (pickRow (fun g => resetKind g m ≠ 1) (directRow 0x0103 (effGw sysResetFirmware)) m) s

/-- The factory reset, presence held before its first side effect (R565): configuration copies, last-gasp area and, with KEYS 1, the key-store journal are erased; the root
is kept. -/
def sysResetFactory (m : Nat) (g : Gw) : Gw × Answer :=
  if 2 ≤ resetKind g m then (g, failWith stBadArg)
  else if !g.fw.presence then (g, failWith stPresence)
  else
    let g := { g with flash := { g.flash with cfg := [], gasp := [] } }
    let g := if bit (g.arg m 0) 8 then { g with keys := { g.keys with journal := [], pending := [] } } else g
    (g.askReset, {})

/-- [Log 22: DESIGN CHOICE] -/
def execSysResetFactory (m : Nat) (s : State) : Host.Outcome State Fault Refusal :=
  answer (pickRow (fun g => resetKind g m ≠ 0) (directRow 0x0103 (effGw sysResetFactory)) m) s

/-! ### ETH_PORT_CTL (R607) -/

/-- Interfaces with in-band auto-negotiation: SGMII, 1000BASE-X and USXGMII (R271). [Log 52: DEDUCED] -/
def anMode (mode : Nat) : Bool := (1 ≤ mode && mode ≤ 4) || (8 ≤ mode && mode ≤ 12)

/-- ADMIN_DOWN set or released: set, the link is down as under R272. -/
def Gw.setAdmin (g : Gw) (p : Nat) (down : Bool) : Gw :=
  let g := if down then g.linkGoesDown p else g
  let g := g.setEth p { g.ethAt p with adminDown := down }
  if down then g else g.chainLink p

def Gw.portStat (g : Gw) (p : Nat) : Nat := (g.view (Reg.ethStat p)).toNat

def ethPortCtl (m : Nat) (g : Gw) : Gw × Answer :=
  let w := g.arg m 0
  let p := bits w 3 0
  if 13 < p then (g, failWith stBadArg)
  else
    let g := g.setAdmin p (bit w 8)
    (g, { words := [g.portStat p] })

/-- [Log 52: DEDUCED] -/
def ethRestartAn (m : Nat) (g : Gw) : Gw × Answer :=
  let w := g.arg m 0
  let p := bits w 3 0
  if 11 < p || !anMode (g.ethMode p) then (g, failWith stBadArg)
  else
    let g := (g.setAdmin p (bit w 8)).emit (.anRestart p)
    (g, { words := [g.portStat p] })

def execEthPortCtlAdmin (m : Nat) (s : State) : Host.Outcome State Fault Refusal :=
  answer (pickRow (fun g => !bit (g.arg m 0) 9) (directRow 0x0601 (effGw ethPortCtl)) m) s

/-- [Log 52: DEDUCED] -/
def execEthPortCtlAnRestart (m : Nat) (s : State) : Host.Outcome State Fault Refusal :=
  answer (pickRow (fun g => bit (g.arg m 0) 9) (directRow 0x0601 (effGw ethRestartAn)) m) s

/-! ### CAN_RECOVER and CAN_OWN (R608, R609) -/

/-- [Log 84: DEDUCED] -/
def canRecover (m : Nat) (g : Gw) : Gw × Answer :=
  let c := bits (g.arg m 0) 4 0
  if !(g.canAt c).busOff then (g, failWith stBadArg)
  else if (g.canAt c).host then (g, failWith stLocked)
  else (g.beginRecovery c, {})

def execCanRecover (m : Nat) (s : State) : Host.Outcome State Fault Refusal :=
  answer (directRow 0x0701 (effGw canRecover) m) s

/-- The owner changes at stamp `t`: the frames ordered from there on come under the new one (R320). -/
def Gw.ownFrom (g : Gw) (c : Nat) (t : Stamp) : Gw :=
  let x := g.canAt c
  g.setCan c { x with owners := (g.str.relSeg, t, x.host) :: x.owners }

def canOwnTake (m : Nat) (t : Stamp) (g : Gw) : Gw × Answer :=
  let c := bits (g.arg m 0) 4 0
  if (g.canAt c).host then (g.offerLater c, failWith stLocked)
  else
    match g.freeSlotDw with
    | some k => (((g.canTake c k).ownFrom c t).offerLater c, { words := [2 ^ 31 + k] })
    | none => (g.offerLater c, failWith stNoRoom)

def execCanOwnTake (m : Nat) (s : State) : Host.Outcome State Fault Refusal :=
  answer (pickRow (fun g => bit (g.arg m 0) 31) (changeRow 0x0708 (effAt canOwnTake)) m) s

def canOwnGive (m : Nat) (t : Stamp) (g : Gw) : Gw × Answer :=
  let c := bits (g.arg m 0) 4 0
  if (g.canAt c).host then (((g.canGive c).ownFrom c t).offerLater c, { words := [0] })
  else (g.offerLater c, failWith stBadArg)

def execCanOwnGive (m : Nat) (s : State) : Host.Outcome State Fault Refusal :=
  answer (pickRow (fun g => !bit (g.arg m 0) 31) (changeRow 0x0708 (effAt canOwnGive)) m) s

/-! ### LIN_TABLE (R610) -/

/-- The controller is a commander on a bus it may drive, and the table exists. -/
def Gw.linTableOk (g : Gw) (l table : Nat) : Bool :=
  l ≤ 11 && g.linCmdr l && !g.linLom l && (table ≤ 3 || table = 15)

/-- [Log 86: DEDUCED] -/
def linTableCmd (m : Nat) (t : Stamp) (g : Gw) : Gw × Answer :=
  let l := bits (g.arg m 0) 3 0
  let table := bits (g.arg m 0) 11 8
  if g.linTableOk l table then (g.linTable l table t, {}) else (g, failWith stBadArg)

def linTableStart (m : Nat) (t : Stamp) (g : Gw) : Gw × Answer := linTableCmd m t g

def linTableStop (m : Nat) (t : Stamp) (g : Gw) : Gw × Answer := linTableCmd m t g

/-- [Log 22: DESIGN CHOICE] -/
def execLinTableStart (m : Nat) (s : State) : Host.Outcome State Fault Refusal :=
  answer (pickRow (fun g => bits (g.arg m 0) 11 8 ≠ 15) (changeRow 0x0710 (effAt linTableStart)) m) s

/-- [Log 22: DESIGN CHOICE] -/
def execLinTableStop (m : Nat) (s : State) : Host.Outcome State Fault Refusal :=
  answer (pickRow (fun g => bits (g.arg m 0) 11 8 = 15) (changeRow 0x0710 (effAt linTableStop)) m) s

/-! ### FLX_CMD (R611) -/

/-- [Log 89: PRESUMED] -/
def Gw.flxOp (g : Gw) (m : Nat) : Nat := bits (g.arg m 0) 2 0

/-- A FLX_CMD row: the operation where ISO 17458 allows it, with the POC state in the reply either way. -/
def flxCmd (op : Nat) (allowed : Gw → Bool) (act : Gw → Gw) (m : Nat) (g : Gw) : Gw × Answer :=
  if g.flxOp m = op && allowed g then
    let g := act g
    (g, { words := [g.flx.poc] })
  else (g, { status := stBadArg, words := [g.flx.poc] })

/-- The row of operation `op`; an OP that no row has is refused by each. [Log 22: DESIGN CHOICE] -/
def flxRow (op : Nat) (allowed : Nat → Gw → Bool) (act : Nat → Gw → Gw) (m : Nat) (s : State) : State :=
  let o := s.gw.flxOp m
  if o = op || o = 0 || 5 < o then directRow 0x0720 (effGw (fun m => flxCmd op (allowed m) (act m) m)) m s else s

def execFlxRun (m : Nat) (s : State) : Host.Outcome State Fault Refusal :=
  answer (flxRow 1 (fun _ g => g.flx.poc = 2) (fun _ g => { g with flx := { g.flx with poc := 4, noCorr := 0 } }) m) s

def execFlxAllowColdstart (m : Nat) (s : State) : Host.Outcome State Fault Refusal :=
  answer (flxRow 2 (fun _ g => 2 ≤ g.flx.poc && g.flx.poc ≠ 7 && !g.flxLom && bit g.flxCfg 56)
    (fun _ g => { g with flx := { g.flx with coldAllowed := true } }) m) s

/-- [Log 89: PRESUMED] -/
def execFlxWakeup (m : Nat) (s : State) : Host.Outcome State Fault Refusal :=
  answer (flxRow 3 (fun m g => g.flx.poc = 2 && !g.flxLom && (bits (g.arg m 0) 9 8 = 1 || bits (g.arg m 0) 9 8 = 2))
    (fun m g => ({ g with flx := { g.flx with poc := 3, wakeEnd := g.tb.tick + g.flx.wakeTicks } } : Gw).emit
      (.flxWakeup (bits (g.arg m 0) 9 8 - 1))) m) s

def execFlxHalt (m : Nat) (s : State) : Host.Outcome State Fault Refusal :=
  answer (flxRow 4 (fun _ g => g.flx.poc = 5 || g.flx.poc = 6)
    (fun _ g => { g with flx := { g.flx with haltPending := true } }) m) s

def execFlxFreeze (m : Nat) (s : State) : Host.Outcome State Fault Refusal :=
  answer (flxRow 5 (fun _ _ => true) (fun _ g => { g with flx := { g.flx with poc := 7, haltPending := false } }) m) s

end Sys2Proof.Machine
end

