-- ==== Sys2Proof/Machine/Services.lean ====
section
/-! DEFINITION. Commands of areas 0x08 to 0x0A and of diagnostics that only read (R613–R627, R642–R644): TIME_STATUS,
TIME_STEP, CHN_TOPO, CHN_RING, RMT_EXEC, KEY_ROOT_NEW, KEY_INFO, KEY_ATTEST, DIAG_ERRLOG, DIAG_DEBUG, DIAG_LASTGASP,
the automatic debug lock and the debugger (R749). -/

namespace Sys2Proof.Machine

/-! ### Time (R615–R617) -/

/-- The grandmaster identity of an instance with its most significant byte in bits [7:0]. [Log 95: DEDUCED] -/
def gmWords (gm : Nat) : List Nat := splitWords 2 (fromLe (beBytes 8 gm))

/-- [Log 95: DEDUCED] -/
def timeStatus (m : Nat) (g : Gw) : Gw × Answer :=
  let i := bits (g.arg m 0) 1 0
  let x := g.gptpAt i
  let en := bit (g.gptpCfg i) 63
  let host := bit (g.gptpCfg i) 62
  let own := en && !host
  let gm := own && !g.gptpSlaveOf i
  let w3 := atBit 31 en + atBit 30 host + atBit 29 gm + (if own then x.steps % 65536 else 0)
  let iofs := if i = g.param Par.tbWorkDom then 0 else stampNat (g.instOffset i g.now / 65536)
  let rest := if own then gmWords (if x.gm = 0 then g.clockId else x.gm) ++ splitWords 2 iofs else [0, 0, 0, 0]
  (g, { words := [(g.view Reg.tbStat).toNat, (g.view Reg.tbOffs).toNat, (g.view Reg.tbQual).toNat, w3] ++ rest })

def execTimeStatus (m : Nat) (s : State) : Host.Outcome State Fault Refusal :=
  answer (directRow 0x0801 (effGw timeStatus) m) s

/-- The delta of a TIME_STEP request in 2⁻¹⁶ ns. -/
def stepDelta (g : Gw) (m : Nat) : Int := asI64 (g.arg64 m 0) * 65536 + Int.ofNat (bits (g.arg m 2) 15 0)

/-- What turns a TIME_STEP away (R399, R616): the servo owns the phase, no step at all, or a step under way.
[Log 96: DEDUCED] -/
def stepRefusal (g : Gw) (m : Nat) : Nat :=
  if stepDelta g m = 0 then stBadArg
  else if g.tb.servo = .acquiring || g.tb.servo = .locked then stLocked
  else if g.stepBusy then stBusy else stOk

/-- [Log 96: DEDUCED] -/
def timeStep (m : Nat) (g : Gw) : Gw × Answer :=
  let st := stepRefusal g m
  if st ≠ stOk then (g, failWith st) else (g.askStep (stepDelta g m) none (some m), { later := true })

def execTimeStep (m : Nat) (s : State) : Host.Outcome State Fault Refusal :=
  answer (pickRow (fun g => !bit (g.arg m 3) 0) (directRow 0x0803 (effGw timeStep)) m) s

/-- The chain-wide step: the root announces its delta and T_s in ns, and steps itself at T_s (R417, R617). -/
def timeStepChain (m : Nat) (g : Gw) : Gw × Answer :=
  let st := if g.param Par.tbTimeRoot ≠ 1 then stBadArg else stepRefusal g m
  if st ≠ stOk then (g, failWith st)
  else
    let ts : Int := Int.ofNat (g.tb.dt40 / 2 ^ 40) + 1000 * Int.ofNat (g.param Par.tbChainStepLeadUs)
    ((g.floodOwn 4 [stepDelta g m, ts]).askStep (stepDelta g m) (some (8 * ts)) (some m), { later := true })

def execTimeStepChain (m : Nat) (s : State) : Host.Outcome State Fault Refusal :=
  answer (pickRow (fun g => bit (g.arg m 3) 0) (directRow 0x0803 (effGw timeStepChain)) m) s

/-! ### Chain and remote access (R618–R620) -/

/-- The four words of a reach entry. -/
def Reach.words (r : Reach) (addr : Nat) : List Nat :=
  let b := r.best.getD (0, 0)
  [addr % 4096 * 65536 + b.1 % 2 * 4096 + b.2 % 4096] ++ splitWords 2 r.ident ++
    [r.ver % 256 * 2 ^ 24 + r.role % 4 * 2 ^ 22 + atBit 21 r.owner + atBit 20 r.root]

def chnTopo (m : Nat) (g : Gw) : Gw × Answer :=
  let cursor := bits (g.arg m 0) 11 0
  let above := g.chn.reach.filter (fun (q : Nat × Reach) => cursor < q.1 && q.1 != g.chnAddr && q.2.best.isSome)
  let take := above.take 62
  (g, { words := (atBit 31 (above.length ≤ 62) + take.length) :: take.flatMap (fun (q : Nat × Reach) => q.2.words q.1) })

def execChnTopo (m : Nat) (s : State) : Host.Outcome State Fault Refusal :=
  answer (directRow 0x0901 (effGw chnTopo) m) s

/-- A ring link is failed or down as far as the owner knows (R619). -/
def Gw.ringBroken (g : Gw) : Bool :=
  g.chn.faultBy.isSome || (g.chainAt 0).failed || (g.chainAt 1).failed || (g.chainAt 0).state = 0 || (g.chainAt 1).state = 0

/-- What turns CHN_RING away: not the ring owner with CHN_RING_AUTO 0, another OP, or nothing to fail over or restore. -/
def ringRefusal (g : Gw) (op : Nat) : Nat :=
  if !g.ringOwner || g.param Par.chnRingAuto ≠ 0 || op = 0 || op = 3 then stBadArg
  else if op = 1 && (!g.ringBroken || g.chn.failedOver) then stBusy
  else if op = 2 && !g.ringBack then stBusy else stOk

/-- A CHN_RING row: the accepted request queues its change, and the owner floods the apply-at stamp it got.
[Log 21: DEDUCED] -/
def ringRow (op typ m : Nat) (s : State) : State :=
  if !s.gw.holds m 0x0902 then s
  else
    let st := ringRefusal s.gw (bits (s.gw.arg m 0) 1 0)
    if st ≠ stOk then s.withGw (s.gw.reply m st 0 [])
    else
      let g := s.gw.queueChange m
      match (g.str.changes.drop s.gw.str.changes.length).head? with
      | some c => s.withGw (if op = bits (s.gw.arg m 0) 1 0 then g.floodOwn typ [1, c.t] else g)
      | none => s.withGw g

def execChnRingFailover (m : Nat) (s : State) : Host.Outcome State Fault Refusal :=
  answer (pickRow (fun g => bits (g.arg m 0) 1 0 ≠ 2) (ringRow 1 2) m) s

def execChnRingRestore (m : Nat) (s : State) : Host.Outcome State Fault Refusal :=
  answer (pickRow (fun g => bits (g.arg m 0) 1 0 ≠ 1) (ringRow 2 3) m) s

/-- The operations of an RMT_EXEC request. [Log 22: DESIGN CHOICE] -/
def execOps (g : Gw) (m : Nat) : List (Nat × Nat × Nat × Nat) :=
  (List.range ((g.reqLen m - 3) / 4)).map (fun j =>
    (g.arg m (3 + 4 * j) % 16, g.arg m (4 + 4 * j), g.arg m (5 + 4 * j), g.arg m (6 + 4 * j)))

/-- OP is one of R470, and the operation words of a sequence are as many as N says. [Log 22: DESIGN CHOICE] -/
def execOpsOk (g : Gw) (m : Nat) : Bool :=
  let op := bits (g.arg m 0) 31 28
  let n := g.reqLen m - 3
  if op = 4 then n % 4 = 0 && 1 ≤ n / 4 && n / 4 ≤ 8 && (execOps g m).all (fun o => o.1 ≠ 0)
  else 1 ≤ op && op ≤ 5 && n = 0

def Gw.freeBridgeSlot (g : Gw) : Option Nat :=
  ((List.range 16).map (· + 16)).find? (fun i => (g.rmtAt i).state ≠ 1 && (g.rmtAt i).mbx.isNone)

/-- [Log 109: DEDUCED] -/
def rmtExec (m : Nat) (g : Gw) : Gw × Answer :=
  if !execOpsOk g m then (g, failWith stBadArg)
  else
    match g.freeBridgeSlot with
    | none => (g, failWith stBusy)
    | some i =>
      let w := g.arg m 0
      let op := bits w 31 28
      let x : RmtSlot := { op := op, tgt := bits w 11 0, hops := bits w 27 16, addr := g.arg m 1, wdata := g.arg m 2,
                           seq := if op = 4 then execOps g m else [], mbx := some m }
      (g.rmtStart i x, { later := true })

/-- [Log 109: DEDUCED] -/
def execRmtExec (m : Nat) (s : State) : Host.Outcome State Fault Refusal :=
  answer (directRow 0x0903 (effGw rmtExec) m) s

/-! ### Keys (R625–R627) -/

/-- KEY_ROOT_NEW: the root comes into being at the BOOT that the reset brings about. -/
def keyRootNew (_m : Nat) (g : Gw) : Gw × Answer :=
  if !g.fw.presence then (g, failWith stPresence)
  else if g.keys.rootStat ≠ 2 then (g, failWith stBadArg)
  else
    match (List.range 4).find? (fun b => match g.keys.banks[b]? with
      | some x => x.root.isNone && !x.revoked
      | none => false) with
    | none => (g, failWith stNoRoom)
    | some b =>
      if !g.trngOk then (g, failWith stDegraded)
      else ({ g with boot := { g.boot with rootNew := true } }.askReset, { words := [b] })

def execKeyRootNew (m : Nat) (s : State) : Host.Outcome State Fault Refusal :=
  answer (directRow 0x0A04 (effGw keyRootNew) m) s

def keyInfo (m : Nat) (g : Gw) : Gw × Answer :=
  let i := bits (g.arg m 0) 11 0
  let k := g.keys.at' i
  let label := if 64 ≤ i && k.state ≠ 0 then byteWords (padTo 32 k.label) else List.replicate 8 0
  (g, { words := [k.infoWord, k.parentWord] ++ label })

def execKeyInfo (m : Nat) (s : State) : Host.Outcome State Fault Refusal :=
  answer (directRow 0x0A05 (effGw keyInfo) m) s

/-- The seed of the attestation key (R534): a key of USE ATTEST derived from the root. [Log 118: DESIGN CHOICE] -/
def attestSeed (root : Nat) : List Byte :=
  kmac256 (Config.rootValue root) ([0x01, 0x08, 0x20] ++ padTo 29 Config.attestLabel) 32 kdfString

/-- The 128-byte header of an attestation report. -/
def Gw.attestHeader (g : Gw) (nonce : List Byte) : List Byte :=
  let check := if g.fw.cfgDefaults then 0 else ((g.copyAt g.fw.cfgCopy).map (·.check)).getD 0
  [0x5A, 0x39, 0x36, 0x41] ++ leBytes 4 (g.view Reg.sysId).toNat ++ leBytes 4 g.fwVersion ++ leBytes 8 check ++
    padTo 32 nonce ++ padTo 64 (sha3x512 (g.slotAt g.boot.slot).bytes) ++
    leBytes 1 (g.keys.rootStat * 64 + g.keys.bank.getD 0 * 16) ++ leBytes 1 g.fw.state.code ++ leBytes 2 0 ++
    leBytes 8 (g.tb.dt40 / 2 ^ 40)

/-- [Log 119: DEDUCED] -/
def keyAttest (m : Nat) (s : State) : State × Answer :=
  let g := s.gw
  let off := g.arg m 8
  let pub := bit (g.arg m 9) 0
  let len := if pub then 2592 else 4755
  if off % 64 ≠ 0 || g.regionMib 5 * mib < off + len then (s, failWith stBadArg)
  else
    match g.keys.root with
    | none => (s, failWith stNotFound)
    | some r =>
      let h := g.attestHeader (g.argBytes m 0 32)
      let out := if pub then padTo 2592 (mldsaPublic (attestSeed r))
        else h ++ padTo 4627 (mldsaSign (attestSeed r) (sha3x512 h))
      ({ s with dram := dramWrite s.dram (g.regionBase 5 * mib + off) out }, { words := [len] })

def execKeyAttest (m : Nat) (s : State) : Host.Outcome State Fault Refusal := answer (directRow 0x0A06 keyAttest m) s

/-! ### Diagnostics (R643, R644, R749, R752) -/

/-- The four words of an error-log record. -/
def ErrRec.words (r : ErrRec) : List Nat :=
  splitWords 2 (stampNat r.dt) ++
    [r.kind % 256 * 2 ^ 24 + r.island % 16 * 2 ^ 20 + r.cls % 4 * 2 ^ 18 + r.seq % 65536, r.detail % 4294967296]

/-- The records after a SEQ: those behind it in the log, or with a higher SEQ when it is not in the log.
[Log 136: DEDUCED] -/
def Gw.errAfter (g : Gw) (cursor : Nat) : List ErrRec :=
  if cursor = 0xFFFF then g.flt.log
  else if g.flt.log.any (fun r => r.seq = cursor) then (g.flt.log.dropWhile (fun r => r.seq ≠ cursor)).drop 1
  else g.flt.log.filter (fun r => cursor < r.seq)

/-- [Log 136: DEDUCED] -/
def diagErrlog (m : Nat) (g : Gw) : Gw × Answer :=
  let later := g.errAfter (bits (g.arg m 0) 15 0)
  let take := later.take 62
  (g, { words := (atBit 31 (later.length ≤ 62) + take.length) :: take.flatMap ErrRec.words })

def execDiagErrlog (m : Nat) (s : State) : Host.Outcome State Fault Refusal :=
  answer (directRow 0x0F02 (effGw diagErrlog) m) s

/-- [Log 145: DEDUCED] -/
def setDebug (g : Gw) (t : Option Int) : Gw := { g with flt := { g.flt with dbg := t } }

def debugUnlock (_m : Nat) (g : Gw) : Gw × Answer :=
  if g.fw.presence then (setDebug g (some (Int.ofNat g.tb.tick)), {}) else (g, failWith stPresence)

/-- [Log 22: DESIGN CHOICE] -/
def execDiagDebugUnlock (m : Nat) (s : State) : Host.Outcome State Fault Refusal :=
  answer (pickRow (fun g => bit (g.arg m 0) 0) (directRow 0x0F03 (effGw debugUnlock)) m) s

/-- [Log 22: DESIGN CHOICE] -/
def execDiagDebugLock (m : Nat) (s : State) : Host.Outcome State Fault Refusal :=
  answer (pickRow (fun g => !bit (g.arg m 0) 0) (directRow 0x0F03 (effGw (fun _ g => (setDebug g none, {})))) m) s

/-- The lock DIAG_DEBUG_AUTOLOCK_S seconds after the unlock; 0 for never. [Log 145: DEDUCED] -/
def Gw.debugAutolock (g : Gw) : Gw :=
  let limit := g.param Par.diagDebugAutolockS
  match g.flt.dbg with
  | some t => if limit ≠ 0 && t + Int.ofNat (limit * 1000 * ticksPerMs) ≤ Int.ofNat g.tb.tick then setDebug g none else g
  | none => g

def execDebugAutolock (s : State) : Host.Outcome State Fault Refusal := answer (onGw Gw.debugAutolock) s

/-- A debugger's access to pair `k` while debug is unlocked: 0 halts both copies, 1 resumes them, 2 steps and 3 writes,
which leave the pair halted or running as it was (R749). [Log 159: DESIGN CHOICE] -/
def Gw.debugger (g : Gw) (k op : Nat) : Gw :=
  if 2 ≤ k || g.flt.dbg.isNone || !g.islOn 10 then g
  else
    let x := mgetD g.pairs k {}
    let halted := if op = 0 then true else if op = 1 then false else x.halted
    { g with pairs := mset g.pairs k { x with halted := halted } }

/-- [Log 159: DESIGN CHOICE] -/
def execDebuggerAccess (k op : Nat) (s : State) : Host.Outcome State Fault Refusal :=
  answer (onGw (fun g => g.debugger k op)) s

/-! ### Last-gasp records (R769, R770) -/

/-- The marker of a record checks. -/
def gaspValid (bs : List Byte) : Bool :=
  bs.length = 4096 && bs.drop 4088 = (sha3x256 (bs.take 4088)).take 8

/-- The newest record whose marker checks, as (slot, order, bytes). -/
def Gw.newestGasp (g : Gw) : Option (Nat × Nat × List Byte) :=
  leastBy (fun (a b : Nat × Nat × List Byte) => b.2.1 < a.2.1)
    (g.flash.gasp.filter (fun (q : Nat × Nat × List Byte) => gaspValid q.2.2))

def diagLastgasp (m : Nat) (g : Gw) : Gw × Answer :=
  let off := bits (g.arg m 0) 11 0
  if off % 4 ≠ 0 then (g, failWith stBadArg)
  else
    let cnt := min 960 (4096 - off)
    let rec' := g.newestGasp
    let bs := slice (padTo 4096 ((rec'.map (fun r => r.2.2)).getD [])) off cnt
    (g, { words := (atBit 31 rec'.isSome + cnt) :: byteWords bs })

def execDiagLastgasp (m : Nat) (s : State) : Host.Outcome State Fault Refusal :=
  answer (directRow 0x0F04 (effGw diagLastgasp) m) s

end Sys2Proof.Machine
end

