-- ==== Sys2Proof/Machine/Changes.lean ====
section
/-! DEFINITION. APPLY_AT_CHANGE (R36, R57–R60, R78): the change that Strata releases at its apply-at stamp takes effect,
whether a mailbox holds its request or the firmware originated it. -/

namespace Sys2Proof.Machine

/-- The T3 entry of an SA that MKA installs (R151, R525). -/
def mkaEntry (port : Nat) (rx : Bool) (an sci keySlot : Nat) : Entry :=
  { static := true, w1 := BitVec.ofNat 64 (an % 4 * 2 ^ 14 + port % 64 * 256 + atBit 0 (!rx)), w2 := BitVec.ofNat 64 sci,
    w3 := BitVec.ofNat 64 (keySlot % 4096), w4 := 1 }

/-- A change of the firmware's own at stamp `t` (R216, R465, R466, R525). -/
def Gw.fwEffect (g : Gw) (t : Stamp) : FwChange → Gw
  | .altFlag bus v => g.setRerouted bus v t
  | .ringFailover => g.ringFailover t
  | .ringRestore => g.ringRestore t
  | .mkaInstall port rx an sci slot =>
    let e := mkaEntry port rx an sci slot
    let g := (g.probe 6 (e.key 3)).1
    match g.insert 6 e false t with
    | .ok r => r.1
    | .error st => g.note "MKA SA not installed" [port, st]

/-- What the request in mailbox `m` does at its apply-at stamp, by its code (R583, R613). -/
def changeEffect (m : Nat) (t : Stamp) (s : State) : State × Answer :=
  let c := s.gw.reqCode m
  let w := s.gw.arg m 0
  let at' := fun (f : Nat → Stamp → Gw → Gw × Answer) => effAt f m t s
  if c = 0x0202 then at' cfgParamWrite
  else if c = 0x0301 then at' catSearch
  else if c = 0x0302 then at' catNext
  else if c = 0x0303 then catInsert m t s
  else if c = 0x0304 then catDelete m t s
  else if c = 0x0305 then at' catFlushPort
  else if c = 0x0306 then at' catFlushPart
  else if c = 0x0401 then at' sigPduSet
  else if c = 0x0402 then at' sigPduGet
  else if c = 0x0403 then at' sigAltSet
  else if c = 0x0502 then at' egrGateCommit
  else if c = 0x0503 then at' egrLeafMap
  else if c = 0x0504 then at' egrNodeWeight
  else if c = 0x0505 then at' polFilterSet
  else if c = 0x0506 then at' polMeterSet
  else if c = 0x0507 then at' polGet
  else if c = 0x0708 then at' (if bit w 31 then canOwnTake else canOwnGive)
  else if c = 0x0710 then at' (if bits w 11 8 = 15 then linTableStop else linTableStart)
  else if c = 0x0902 then at' (fun _ t g => (if bits w 1 0 = 1 then g.ringFailover t else g.ringRestore t, {}))
  else if 0x0A01 ≤ c && c ≤ 0x0A03 then at' keyChangeAt
  else if c = 0x0D01 then at' arcTrigger
  else if c = 0x0D02 then at' arcAck
  else if c = 0x0D03 then at' (if bit w 31 then arcPlayStop else arcPlay)
  else (s, {})

/-- A change leaves the queue. -/
def Gw.dropChange (g : Gw) (c : Change) : Gw :=
  { g with str := { g.str with changes := g.str.changes.filter (fun d => d ≠ c) } }

/-- The change that is due takes effect. A key change whose journal record is not committed holds the order back
(R510). -/
def applyChange (s : State) : State :=
  match (s.gw.readyDue s.dram).map Due.ev with
  | some (.change c) =>
    if s.gw.recordWaits c then s
    else
      let t := s.gw.changeStamp c
      let g := ((((s.gw.dropChange c).passTo t 1).settleAll t).returnsUpTo t)
      match c.act with
      | .firmware f => s.withGw (g.fwEffect t f)
      | .mailbox m =>
        let r := changeEffect m t (s.withGw g)
        r.1.withGw (r.1.gw.finish m t r.2).heldDecided
  | _ => s

/-- [Log 21: DEDUCED] -/
def execApplyAtChange (s : State) : Host.Outcome State Fault Refusal := answer applyChange s

end Sys2Proof.Machine
end

