-- ==== Sys2Proof/Machine/Islands.lean ====
section
/-! DEFINITION. The configuration in force as the firmware loads it (R572, R811, R814), and per-island resets (R806,
R809–R812): LCK_ISL_RST and ISLAND_START. -/

namespace Sys2Proof.Machine

/-! ### The island of a register (R707, R809) -/

/-- The island that holds the register at an offset. The spec names the blocks and not always their islands: mailboxes,
remote access, update, error handling, power and network management lie in CUR, the catalogue, the signal router and
policing count with FAB (a design choice). [Log 62: DEDUCED, 63: DESIGN CHOICE] -/
def regIsland (off : Nat) : Nat :=
  let port := match findReg off with
    | some (_, i) => macIsland i
    | none => 8
  if off < 0x20000 then 14
  else if off < 0x40000 then 10
  else if off < 0x60000 then 14
  else if off < 0x70000 then 12
  else if off < 0x80000 then port
  else if off < 0xA0000 then 14
  else if off < 0xC0000 then 11
  else if off < 0x100000 then 9
  else if off < 0x120000 then 10
  else if off < 0x150000 then 0
  else if off < 0x160000 then 5
  else if off < 0x170000 then 0
  else if off < 0x180000 then port
  else if off < 0x190000 then 8
  else if off < 0x1C0000 then 9
  else if off < 0x1D0000 then 8
  else if off < 0x1E0000 then 11
  else if off < 0x200000 then 10
  else if off < 0x400000 then 0
  else if off < 0x1000000 then 9
  else 10

/-! ### The configuration in force -/

/-- The content of the copy in use; nothing under factory defaults (R766). -/
def Gw.content (g : Gw) : CfgContent :=
  if g.fw.cfgDefaults then {} else ((g.copyAt g.fw.cfgCopy).map (·.content)).getD {}

/-- The rules that an entry of an image must meet. A T3 entry loads while its key slot is EMPTY or REVOKED, as keys may come
and go later (R507, R535); a VALID slot must fit it (R524, R526). -/
def Gw.loadOk (g : Gw) (p : Nat) (e : Entry) : Bool :=
  let k := g.keys.at' (e.f 3 11 0)
  if tableOf p = 3 then
    (k.state ≠ 1 || (if e.f 1 1 0 ≤ 1 then g.saSlotOk e else k.attr = (if e.f 1 1 0 = 2 then 1 else 0))) &&
    e.f 1 13 8 ≤ (if e.f 1 1 0 ≤ 1 then 13 else 31) && (e.f 1 1 0 ≤ 1 || e.f 3 61 59 ≤ 5) &&
      (e.f 1 1 0 ≠ 2 || e.f 5 31 0 ≠ 0)
  else g.entryOk p e

/-- An entry of the image as the firmware writes it: STATIC 1 in T1–T5 (R140), a T5 key under its stage's mask (R155). -/
def Gw.imageEntry (g : Gw) (p : Nat) (e : Entry) : Entry :=
  let e := { e with static := e.static || 4 ≤ p }
  if tableOf p = 5 then
    let m := g.param (Par.catT5Mask (p - 8))
    let f := fun (i : Nat) (w : W64) => w &&& BitVec.ofNat 64 (m / 2 ^ (64 * i))
    { e with w1 := f 0 e.w1, w2 := f 1 e.w2, w3 := f 2 e.w3, w4 := f 3 e.w4 }
  else e

/-- An entry of the image loaded into its partition; none when it is refused or finds no slot. -/
def Gw.loadEntry (g : Gw) (p : Nat) (e : Entry) : Option Gw :=
  let e := g.imageEntry p e
  if 11 < p || !g.loadOk p e || g.tableFull p e then none
  else
    match g.find p (e.key (tableOf p)) with
    | some (i, old) => some (g.updateEntry p i old e 0)
    | none => (g.freeSlot (g.bucketSlots p (e.key (tableOf p)))).map (fun i => g.newEntry p i e 0)

/-- The area of the chapter whose rule refuses an entry of an image (R862): scheduling for a reservation, the signal
router for routes and streams, security for secure associations and channels, CAN for a full seal filter, else the catalogue.
[Log 27: DEDUCED] -/
def Gw.brokenArea (g : Gw) (p : Nat) (e : Entry) : Nat :=
  let t := tableOf p
  if 11 < p then 3
  else if !g.loadOk p e then
    if t = 1 && e.f 1 63 60 ≤ 2 && (e.f 2 4 0 ≤ 21 || e.f 2 4 0 = 31) then 5
    else if t = 2 && e.f 1 5 0 ≤ 45 && (routeOf e).policy ≠ 3 && (routeOf e).tmoMode ≠ 3 then 4
    else if t = 3 then 0x0A else 3
  else if g.tableFull p e then (if t = 4 then 4 else if e.f 1 1 0 ≤ 1 then 0x0A else 7)
  else 3

/-- Entries loaded in order; what a refused one leaves is the module before it, its area and its partition. -/
def Gw.loadEntries (g : Gw) : List (Nat × Entry) → Gw × Option (Nat × Nat)
  | [] => (g, none)
  | (p, e) :: r => match g.loadEntry p e with
    | some g => g.loadEntries r
    | none => (g, some (g.brokenArea p e, p))

def Gw.loadPdus (g : Gw) (x : CfgContent) : Gw :=
  x.pdus.foldl (fun (g : Gw) q =>
    let p : Pdu := { desc := q.2, en := !x.pdusOff.contains q.1, content := [], enable := 0, gapRef := 0 }
    g.setPdu q.1 (p.startAt 0)) g

/-- Buffers, shared lists, frame and schedule tables, and the FlexRay node. -/
def Gw.loadBuses (g : Gw) (x : CfgContent) : Gw :=
  let can := (List.range 32).foldl (fun (m : Map CanCtl) c =>
    let ram := imageRam (mgetD x.canBuffers c [])
    mset m c { mgetD m c {} with ram := ram, image := ram, shared := mgetD x.canShared c [], refTick := g.tb.tick }) g.can
  { g with can := can, lin := x.lin, flx := { x.flx with poc := 0, commits := [], waits := [], mini := [], pairs := g.flx.pairs } }.flxEnable

/-- Filters, meters, gate banks, leaf maps, node weights and mirror sessions. -/
def Gw.loadSettings (g : Gw) (x : CfgContent) : Gw :=
  let meters := x.meters.foldl (fun (m : Map Meter) q =>
    mset m q.1 { rate := q.2.1, burst := q.2.2, level := q.2.2 * 64000000 }) []
  let g : Gw := { g with filters := x.filters, meters := meters, mirrors := x.mirrors }
  let g := x.gates.foldl (fun (g : Gw) q =>
    g.setEgr (q.1 / 2) { g.egrAt (q.1 / 2) with banks := mset (g.egrAt (q.1 / 2)).banks (q.1 % 2) q.2 }) g
  let g := x.gatesOn.foldl (fun (g : Gw) q => g.setEgr q.1 { g.egrAt q.1 with bank := q.2, gateEn := true }) g
  let g := x.leafMaps.foldl (fun (g : Gw) q => g.setEgr q.1 { g.egrAt q.1 with leafMap := q.2 }) g
  x.weights.foldl (fun (g : Gw) q => g.setEgr q.1 { g.egrAt q.1 with weights := q.2 }) g

/-! ### Outputs that a reset drives low (R815) -/

/-- Time-event outputs and PPS_OUT go low, an idle output of reversed polarity too. [Log 160: DESIGN CHOICE] -/
def Gw.outputsLow (g : Gw) : Gw :=
  let high := (List.range 16).filter (fun n => (mgetD g.tevOut n {}).level != g.tevPol n)
  let pins := high.map (fun n => Out.pin "TEV_OUT" n false g.now)
  let g : Gw := { g with tevOut := [] }.emitAll pins
  if g.tb.ppsOn then g.emit (.pin "PPS_OUT" 0 false g.now) else g

/-! ### Per-island reset (R810, R811) -/

/-- The run ends (R38, R811): nothing is ordered until the next one, and the frames on their way to it are lost. Accepted
changes wait for it; the frontier goes on with device time (R47). -/
def Gw.endRun (g : Gw) : Gw :=
  let g := (g.str.inbound ++ g.str.pend.map Pend.frame).foldl (fun (g : Gw) (x : Frame) => g.unclaim x.fid) g
  let g := if g.str.closing.isSome then g.freshFrontier else g
  { g with str := { shift := g.str.shift, changes := g.str.changes, accepted := g.str.accepted,
                    fwCount := g.str.fwCount, frontier := g.str.frontier, relSeg := g.tb.seg },
           rtr := { g.rtr with run := false } }

/-- The ports of a MACGRP island. -/
def islandPorts (i : Nat) : List Nat := (List.range 14).filter (fun p => macIsland p = i)

/-- A port after its island's reset: no link, nothing on its way. Its SAs are loaded again from T3.
[Log 143: DEDUCED] -/
def Gw.portReset (g : Gw) (p : Nat) : Gw :=
  let g := (g.ethAt p).jobs.foldl (fun (g : Gw) (j : MacJob) => g.unclaim j.sel.copy.fid) g
  g.setEth p {}

/-- SAs of the ports of an island loaded from the T3 entries (R152). [Log 143: DEDUCED] -/
def Gw.reloadSas (g : Gw) (ports : List Nat) : Gw :=
  (g.partEntries 6).foldl (fun (g : Gw) q =>
    if q.2.f 1 1 0 ≤ 1 && ports.contains (q.2.f 1 13 8) then g.loadSa q.2 else g) g

/-- Seal filters loaded from the T3 entries (R329). [Log 143: DEDUCED] -/
def Gw.reloadFilters (g : Gw) : Gw := (g.partEntries 6).foldl (fun (g : Gw) q => g.loadFilter q.1 q.2) g

/-- What an island holds is lost. [Log 143: DEDUCED] -/
def Gw.clearIsland (g : Gw) (i : Nat) : Gw :=
  let g := if i = 12 then g.outputsLow else g
  let g : Gw := { g with regs := g.regs.filter (fun (e : Nat × W32) => regIsland e.1 ≠ i),
                         latches := g.latches.filter (fun (e : Nat × W32) => regIsland e.1 ≠ i) }
  if i = 0 then
    { g with cal := { nextFid := g.cal.nextFid, start := g.cal.start }, rtr := {}, str := { g.str with frontier := 0 }, txRing := g.txRing.map (fun (q : Nat × TxRing) => (q.1, q.2.noneHeld)),
             rxRing := g.rxRing.map (fun (q : Nat × RxRing) =>
        (q.1, { q.2 with queue := [], filled := [], left := none, waitFrom := none })) }
  else if 1 ≤ i && i ≤ 4 then
    (g.partEntries (i - 1)).foldl (fun (g : Gw) q => g.dropEntry (i - 1) q.1 q.2) g
  else if 6 ≤ i && i ≤ 8 then
    let g := (islandPorts i).foldl Gw.portReset g
    if i = 8 then { g with tis := (List.range 8).map (fun t => (t, { lastBeacon := g.tb.tick })), chn := { g.chn with ports := [], inbox := [] } } else g
  else if i = 9 then { g with can := [], lin := [], flx := {}, undefBus := 0, canStart := g.tb.tick }
  else if i = 11 then { g with cryQ := [], cryCache := [], cryUp := 0, keys := { g.keys with slots := [], past := [], fw := [] } }
  else if i = 12 then
    let can := g.can.map (fun (q : Nat × CanCtl) => (q.1, { q.2 with pairs := [] }))
    let lin := g.lin.map (fun (q : Nat × LinCtl) => (q.1, { q.2 with pairs := [] }))
    { g with tb := { tick := g.tb.tick, start := g.tb.tick }, tevIn := [], gptp := [], can := can, lin := lin,
             flx := { g.flx with pairs := [] },
             str := { g.str with shift := [], frontier := 0, relSeg := 0, changes := g.str.changes.map (fun (c : Change) => { c with first := true }) } }
  else if i = 14 then
    let held := g.rxRing.flatMap (fun (q : Nat × RxRing) => q.2.queue)
    let g := held.foldl (fun (g : Gw) (q : Nat × Sel) =>
      (g.giveBack q.1 q.2.copy.cls q.2.copy.cells q.2.copy.frame.fport).unclaim q.2.copy.fid) g
    let g := (g.txRing.map (·.1)).foldl Gw.dropHeld g
    { g with rxRing := [], txRing := [] }
  else g

/-- Ticks for which a per-island reset holds its island: 10 µs. -/
def islandHold : Nat := 10 * ticksPerUs

/-- Island `i` goes into reset: its contents are lost and the run ends. [Log 143: DEDUCED] -/
def Gw.resetIsland (g : Gw) (i : Nat) : Gw :=
  let g := (g.endRun.clearIsland i).setIsl i 0
  { g with islRst := mset g.islRst i (g.tb.tick + islandHold) }.note "island reset" [i]

/-- A write to LCK_ISL_RST. CUR, HOST, AON, fenced islands and islands in reset do not react. -/
def Gw.islandResets (g : Gw) (v : Nat) : Gw :=
  let mask := (bitList 16 v).filter (fun i => i ≠ 10 && i ≠ 14 && i ≠ 15 && g.islOn i)
  mask.foldl Gw.resetIsland g

def execLckIslRst (value : W32) (s : State) : Host.Outcome State Fault Refusal :=
  answer (onGw (fun g => if g.islOn 10 then g.islandResets value.toNat else g)) s

/-- Engines of the CRY island that are not fenced. -/
def Gw.enginesFit (g : Gw) : Nat := maskOf 8 (fun k => !bit g.flt.aes k) + 256 * maskOf 2 (fun k => !bit g.flt.hash k)

/-- The firmware applies the configuration in force to an island that has started (R811). [Log 143: DEDUCED] -/
def Gw.reapply (g : Gw) (i : Nat) : Gw :=
  if i = 0 then { g with cal := { g.cal with start := g.tb.tick } }.loadPdus g.content
  else if 1 ≤ i && i ≤ 4 then
    (g.loadEntries (g.content.entries.filter (fun (q : Nat × Entry) => q.1 = i - 1))).1
  else if 6 ≤ i && i ≤ 8 then
    let g := g.reloadSas (islandPorts i)
    if i = 8 then
      let fresh : ChainPort := { lackSince := g.tb.tick }
      ({ (List.range 8).foldl Gw.tisRole g with chn := { g.chn with ports := [(0, fresh), (1, fresh)] } } : Gw).ringBlock
    else g
  else if i = 9 then (g.loadBuses g.content).reloadFilters.flxReady
  else if i = 11 then { g with cryUp := g.enginesFit, keys := g.keys.replay }
  else if i = 12 then ({ g with tb := { g.tb with start := g.tb.tick } } : Gw).ppsArm
  else g

/-- An island runs again; a new run starts once every island that can runs (R585, R811). [Log 143: DEDUCED] -/
def Gw.startIsland (g : Gw) (i : Nat) : Gw :=
  let g := { g with islRst := merase g.islRst i }.setIsl i 1
  let g := g.reapply i
  if g.inService && g.islRst.isEmpty then g.startRun (startAfter g.now) else g

def Gw.islandStart (g : Gw) (i : Nat) : Gw :=
  match mget? g.islRst i with
  | some t => if t ≤ g.tb.tick && !g.islFenced i && !g.aon.testMode then g.startIsland i else g
  | none => g

def execIslandStart (i : Nat) (s : State) : Host.Outcome State Fault Refusal := answer (onGw (fun g => g.islandStart i)) s

end Sys2Proof.Machine
end

