-- ==== Sys2Proof/Machine/Resets.lean ====
section
/-! DEFINITION. Resets of the gateway die and what powers it (R16, R564, R689, R694, R799–R809, R826): PORST_N, SRST_N,
PCIE_PERST_N, FIRMWARE_RESET, RAILS_GOOD_RELEASE, RAILS_TIMEOUT, SWITCHED_RAIL_LOSS, COMMIT_TICK, AON_WAKE_START,
AON_CRYSTAL_TAKEOVER, TEST_MODE_CHANGE, PRESENCE_ACQUIRED and PRESENCE_LOST. -/

namespace Sys2Proof.Machine

/-- The gateway die in reset: every island but AON starts anew, and what lies outside those islands stays: flash, OTP and
the committed journal, AON, the power die, the straps, presence and the debug unlock. Outputs and
OSPI_RST_N go low (R815, R825). -/
def Gw.cleared (g : Gw) : Gw :=
  let g := g.outputsLow
  let g := if g.ospiRun then g.emit (.pin "OSPI_RST_N" 0 false g.now) else g
  { isl := [(15, 1)], fw := { presence := g.fw.presence }, out := g.out, free := g.free,
    keys := { banks := g.keys.banks, loopOpen := g.keys.loopOpen, fusePending := g.keys.fusePending,
              roots := g.keys.roots, journal := g.keys.journal },
    hostSpi := g.hostSpi, chn := { role := g.chn.role }, pdie := g.pdie, partN := g.partN, aon := g.aon,
    flt := { dbg := g.flt.dbg.map (fun t => t - Int.ofNat g.tb.tick), powerFail := g.flt.powerFail },
    flash := g.flash, boot := { rootNew := g.boot.rootNew } }

/-- The gateway die leaves reset: HOST and CUR run, the boot ROM may start. -/
def Gw.released (g : Gw) : Gw :=
  { (g.setIsl 14 1).setIsl 10 1 with aon := { g.aon with released := true }, boot := { g.boot with stage := 1 } }

/-- A reset that keeps AON: the die goes on to the boot ROM when its rails are good and TEST_MODE is low.
[Log 7: DESIGN CHOICE, 145: DEDUCED] -/
def Gw.warmReset (g : Gw) : Gw :=
  let g := g.cleared
  if g.aon.released && !g.aon.testMode then g.released else g

/-- The straps sampled at the release of PORST_N: BOOT_SEL in [1:0], HOST_SEL in [2], CHAIN_ROLE in [4:3] and
PDIE_KEEP in [5] of the operand (R803). [Log 9: DESIGN CHOICE] -/
def Gw.sampleStraps (g : Gw) (v : Nat) : Gw :=
  { g with aon := { g.aon with bootSel := bits v 1 0, pdieKeep := bit v 5 }, hostSpi := bit v 2,
           chn := { g.chn with role := bits v 4 3 } }

/-- PORST_N low for `ns`: AON and, unless it was told to keep, the power die start anew too.
[Log 7: DESIGN CHOICE, 146: DEDUCED, 147: DEDUCED] -/
def Gw.porst (g : Gw) (ns straps : Nat) : Gw :=
  if ns < 1000 then g
  else
    let g := g.cleared
    let g := if g.pdie.keep then { g with pdie := { g.pdie with keeper := false } } else g.pdReset
    let g : Gw := { g with aon := { testMode := g.aon.testMode },
                           fw := { g.fw with presence := false }, flt := {}, boot := {} }
    g.sampleStraps straps

/-- DRAM is not kept through PORST_N (R768). [Log 9: DESIGN CHOICE] -/
def execPorstN (ns straps : Nat) (s : State) : Host.Outcome State Fault Refusal :=
  answer (fun s => { s with gw := s.gw.porst ns straps, dram := if ns < 1000 then s.dram else [] }) s

/-- [Log 7: DESIGN CHOICE] -/
def execSrstN (ns : Nat) (s : State) : Host.Outcome State Fault Refusal :=
  answer (onGw (fun g => if ns < 100 then g else g.warmReset)) s

/-- The MSI-X table and PBA lie in the PCIe endpoint core (R701, R806). -/
def inEndpoint (off : Nat) : Bool := 0x2000 ≤ off && off < 0x4000

/-- PCIE_PERST_N resets the endpoint core alone: its MSI-X table, and the link, configuration space and BAR settings,
which lie outside this model. Host rings and registers keep their state (R806). -/
def execPciePerstN (ns : Nat) (s : State) : Host.Outcome State Fault Refusal :=
  answer (onGw (fun g =>
    if ns < 100 then g else { g with regs := g.regs.filter (fun (e : Nat × W32) => !inEndpoint e.1) })) s

/-- The firmware reset that a command asked for (R586, R625, R759): the PCIe endpoint core keeps what it holds.
[Log 7: DESIGN CHOICE] -/
def Gw.fwReset (g : Gw) : Gw :=
  match g.fw.resetAt with
  | some t => if t ≤ g.tb.tick then
      { g.warmReset with regs := g.regs.filter (fun (e : Nat × W32) => inEndpoint e.1) }
    else g
  | none => g

def execFirmwareReset (s : State) : Host.Outcome State Fault Refusal := answer (onGw Gw.fwReset) s

/-! ### Rails (R802, R805) -/

def execRailsGoodRelease (s : State) : Host.Outcome State Fault Refusal :=
  answer (onGw (fun g => if g.aon.pwrEn && !g.aon.released && !g.aon.testMode then g.released else g)) s

/-- 1 s in AON ticks. -/
def aonSecond : Nat := 32768

/-- 100 ms in AON ticks. -/
def railLimit : Nat := 3277

/-- Without good rails for 100 ms PWR_EN falls and is tried again 1 s later (R802). -/
def execRailsTimeout (s : State) : Host.Outcome State Fault Refusal :=
  answer (onGw (fun g =>
    if g.aon.pwrEn && !g.aon.released && g.aon.pwrTick + railLimit ≤ g.aon.tick then
      { g with aon := { g.aon with pwrEn := false, retryAt := some (g.aon.tick + aonSecond) } }
    else g)) s

/-- The switched rails fall outside SLEEP: the gateway die stops, and its DRAM with it. [Log 7: DESIGN CHOICE] -/
def execSwitchedRailLoss (s : State) : Host.Outcome State Fault Refusal :=
  answer (fun s =>
    if s.gw.aon.released && !s.gw.aon.asleep then
      let g := s.gw.cleared
      { s with gw := { g with aon := { g.aon with released := false } }, dram := [] }
    else s) s

/-! ### Sleep and wake (R687–R690, R694) -/

/-- The commit point: SLEEP_PREP has lasted NM_COMMIT_MS. [Log 130: DEDUCED] -/
def Gw.commitDue (g : Gw) : Bool :=
  g.fw.state = .sleepPrep && g.nm.prepTick + g.param Par.nmCommitMs * ticksPerMs ≤ g.tb.tick

/-- The commit: the run ends, the power die goes into keeper mode, and the gateway die and the memory dies power down.
The commit stamp goes out in the log. [Log 7: DESIGN CHOICE, 131: DEDUCED] -/
def Gw.commitSleep (g : Gw) : Gw :=
  let stamp := g.now
  let g := g.emit (.dieLink 9 [])
  let g := { g with pdie := { g.pdie with keeper := true, hold := false, hbBack := false } }.cleared
  let a := { g.aon with asleep := true, armed := true, sleepTick := g.aon.tick, pwrEn := false, released := false }
  { g with aon := a, log := [{ what := "sleep commit", at' := stamp }] }

def execCommitTick (s : State) : Host.Outcome State Fault Refusal :=
  answer (fun s => if s.gw.commitDue then { s with gw := s.gw.commitSleep, dram := [] } else s) s

/-- The wake that waits is recorded and the gateway die is powered again. -/
def Gw.wakeStart (g : Gw) : Gw :=
  match g.aon.waking with
  | some r =>
    { g with aon := { g.aon with record := r, waking := none, asleep := false, armed := false, pwrEn := true, pwrTick := g.aon.tick },
             boot := { g.boot with wake := true } }
  | none => g

def execAonWakeStart (s : State) : Host.Outcome State Fault Refusal :=
  answer (onGw (fun g => if g.aon.asleep then g.wakeStart else g)) s

def execAonCrystalTakeover (s : State) : Host.Outcome State Fault Refusal :=
  answer (onGw (fun g => { g with aon := { g.aon with crystal := true } })) s

/-- TEST_MODE high holds every island except AON in reset; low, the die starts as after SRST_N (R826). -/
def Gw.testMode (g : Gw) (level : Bool) : Gw :=
  if g.aon.testMode = level then g
  else ({ g with aon := { g.aon with testMode := level } } : Gw).warmReset

def execTestModeChange (level : Bool) (s : State) : Host.Outcome State Fault Refusal :=
  answer (onGw (fun g => g.testMode level)) s

/-! ### Presence (R564) -/

/-- SVC_PRESENT_N has been low for 10 ms and the loop is intact: presence is held. A loop that was open has been closed
(R536). [Log 146: DEDUCED] -/
def execPresenceAcquired (s : State) : Host.Outcome State Fault Refusal :=
  answer (onGw (fun g => { g with fw := { g.fw with presence := true }, keys := { g.keys with loopOpen := false } })) s

def execPresenceLost (s : State) : Host.Outcome State Fault Refusal :=
  answer (onGw (fun g => ({ g with fw := { g.fw with presence := false } } : Gw).sleepDecide)) s

end Sys2Proof.Machine
end

