-- ==== Sys2Proof/Machine/Faults.lean ====
section
/-! DEFINITION. Detected hardware errors, targeted tests, fences and pair restarts (R642, R744–R764), and the last-gasp
record (R769, R770): LOCKSTEP_MISMATCH, INPUT_SKEW, DETECTED_ERROR_HANDLING, TARGETED_TEST_COMPLETE, PAIR_RESTART,
PWR_FAIL_N_FALL, PWR_FAIL_N_RISE and DIAG_SELFTEST. -/

namespace Sys2Proof.Machine

/-! ### Units -/

/-- The unit that an error is about (R752): one kind of unit, its island, and its number. Caldera banks are numbered
from 0x100 and hot-catalogue banks from 0x200, for SRAM and cell errors alike. -/
def ErrReport.key (r : ErrReport) : Nat × Nat × Nat :=
  if r.kind = 2 ∨ r.kind = 4 then (2, if 0x100 ≤ r.unit then 0 else r.island, r.unit)
  else if r.kind = 6 then (6, r.island, 0)
  else if r.kind = 7 then (7, 11, 9)
  else (r.kind, r.island, r.unit)

def Gw.setPair (g : Gw) (k : Nat) (st : Nat) : Gw :=
  { g with pairs := mset g.pairs k { mgetD g.pairs k {} with state := st } }

def Gw.pairState (g : Gw) (k : Nat) : Nat := (mgetD g.pairs k {}).state

/-! ### The error log -/

/-- A record at the end of the log; it also becomes the most recent error. [Log 136: DEDUCED] -/
def Gw.logError (g : Gw) (r : ErrReport) (cls : Nat) : Gw :=
  let e : ErrRec := { dt := Int.ofNat (g.tb.dt40 / 2 ^ 40), kind := r.kind, island := r.island, cls := cls,
                      seq := g.flt.nextSeq % 65536, detail := r.detail }
  { g with flt := { g.flt with log := g.flt.log ++ [e], last := some e, nextSeq := g.flt.nextSeq + 1 } }

/-- CLASS of the record with a SEQ. -/
def Gw.setErrClass (g : Gw) (seq cls : Nat) : Gw :=
  let f := fun (e : ErrRec) => if e.seq = seq then { e with cls := cls } else e
  { g with flt := { g.flt with log := g.flt.log.map f, last := g.flt.last.map f } }

/-! ### Fences (R755, R760, R761, R763) -/

/-- Islands whose lasting fault cannot be run around. [Log 137: DEDUCED] -/
def vitalIsland (i : Nat) : Bool := i = 0 || i = 5 || i = 10 || 12 ≤ i

def Gw.fenceIsland (g : Gw) (i : Nat) : Gw :=
  let g := if 6 ≤ i && i ≤ 8 then (islandPorts i).foldl Gw.linkGoesDown g else g
  let g := { g with islRst := merase g.islRst i }
  g.setIsl i 2

/-- Pair 0 no longer writes INCR: a LOCKED servo enters HOLDOVER (R760). -/
def Gw.losePair0 (g : Gw) : Gw :=
  if g.tb.servo = .locked then g.enterHoldover else g

def Gw.fencePair (g : Gw) (k : Nat) : Gw :=
  let g := g.setPair k 4
  if k = 0 then g.losePair0 else g

/-- The unit of an error is fenced, or its page retired. -/
def Gw.fenceUnit (g : Gw) (r : ErrReport) : Gw :=
  if r.kind = 1 then g.fencePair r.unit
  else if r.kind = 2 ∨ r.kind = 4 then
    if 0x200 ≤ r.unit then { g with flt := { g.flt with hotBanks := g.flt.hotBanks ||| 2 ^ (r.unit % 256 % 8) } }
    else if 0x100 ≤ r.unit then { g with flt := { g.flt with calBanks := g.flt.calBanks ||| 2 ^ (r.unit % 256 % 16) } }
    else g.fenceIsland r.island
  else if r.kind = 3 then
    let g := if 8 ≤ r.unit then { g with flt := { g.flt with hash := g.flt.hash ||| 2 ^ (r.unit % 8 % 2) } }
      else { g with flt := { g.flt with aes := g.flt.aes ||| 2 ^ r.unit } }
    if g.flt.aes % 256 = 255 then g.fenceIsland 11 else g
  else if r.kind = 5 then
    if g.flt.retired.contains r.unit || 256 ≤ g.flt.retired.length then g
    else { g with flt := { g.flt with retired := g.flt.retired ++ [r.unit] } }
  else if r.kind = 6 then g.fenceIsland r.island
  else { g with flt := { g.flt with trng := true } }

/-- A fault that the module cannot run around: the reset of R761 is requested. -/
def Gw.mustReset (g : Gw) : Bool :=
  (List.range 16).any (fun i => vitalIsland i && g.islFenced i) || (g.pairState 0 = 4 && g.pairState 1 = 4)

/-- A lasting fault (R755, R764): counted, recorded in the fault slot, its unit fenced. [Log 137: DEDUCED] -/
def Gw.lasting (g : Gw) (r : ErrReport) : Gw :=
  let g := (g.bump (Reg.lckLastCnt (r.kind - 1))).flag Reg.lckFlag 0x01000000
  let g := { g with flash := { g.flash with faultSlot := g.flash.faultSlot ++ [r] } }
  let g := (g.fenceUnit r).degrade
  if g.mustReset then g.warmReset else g

/-! ### LOCKSTEP_MISMATCH and INPUT_SKEW -/

/-- Both copies of pair `k` stop. Of the only pair that runs firmware the error is lasting at once (R753). -/
def Gw.mismatch (g : Gw) (k lane : Nat) : Gw :=
  if 2 ≤ k || g.pairState k ≠ 1 || !g.islOn 10 then g
  else
    let r : ErrReport := { kind := 1, detail := 16 * k + lane % 8, island := 10, unit := k }
    let alone := g.pairState (1 - k) ≠ 1 && !g.handing
    let g := (g.setPair k 2).bump (Reg.lckMisCnt k)
    if alone then
      let g := (g.flag Reg.lckFlag 0x80000000).logError r 2
      ((g.bump (Reg.lckLastCnt 0)).flag Reg.lckFlag 0x01000000).warmReset
    else g.detect 1 r.detail 10 k

def execLockstepMismatch (k lane : Nat) (s : State) : Host.Outcome State Fault Refusal :=
  answer (onGw (fun g => g.mismatch k lane)) s

/-- A skew that the next sample resolves is counted and nothing else; one that persists in a lane is a mismatch. -/
def Gw.inputSkew (g : Gw) (k : Nat) (persists : Option Nat) : Gw :=
  if 2 ≤ k || g.pairState k ≠ 1 || !g.islOn 10 then g
  else
    match persists with
    | none => g.bump (Reg.lckSkewCnt k)
    | some lane => g.mismatch k lane

def execInputSkew (k : Nat) (persists : Option Nat) (s : State) : Host.Outcome State Fault Refusal :=
  answer (onGw (fun g => g.inputSkew k persists)) s

/-! ### DETECTED_ERROR_HANDLING (R753, R754, R757, R759) -/

/-- The pair that handles an error. -/
def Gw.handler (g : Gw) (r : ErrReport) : Nat := if (r.kind = 1 && r.unit = 1) || g.pairState 1 = 4 then 0 else 1

/-- The unit does no work while it is tested. A stamp unit's LBIST slice takes its whole island, but for CUR, HOST and
AON, which run on. [Log 137: DEDUCED] -/
def Gw.takeOut (g : Gw) (r : ErrReport) : Gw :=
  if r.kind = 1 then g.setPair r.unit 2
  else if r.kind = 3 then { g with cryUp := setBits g.cryUp (r.unit % 10) (r.unit % 10) 0 }
  else if r.kind = 6 then
    if r.island = 10 || 14 ≤ r.island || !g.islOn r.island then g
    else (g.endRun.clearIsland r.island).setIsl r.island 3
  else if r.kind = 7 then { g with trngOk := false }
  else g

/-- The error is logged as pending, its unit taken out of service, and its test started or put in line.
[Log 136: DEDUCED] -/
def Gw.handleError (g : Gw) (r : ErrReport) : Gw :=
  if g.flt.tests.any (fun t => t.rep.key = r.key) then
    let g := g.logError r 2
    { g with flt := { g.flt with tests := g.flt.tests.map (fun (t : FaultTest) =>
        if t.rep.key = r.key then { t with mustFail := true } else t) } }
  else
    let seq := g.flt.nextSeq % 65536
    let busy := g.flt.tests.any (fun t => t.running && t.rep.island = r.island)
    let g := (g.logError r 0).takeOut r
    { g with flt := { g.flt with tests := g.flt.tests ++ [{ rep := r, seq := seq, running := !busy }] } }

/-- The entry of the store room in an uncorrectable word is discarded, and counted as its chapter has it (R145, R759).
[Log 136: DEDUCED] -/
def Gw.dropItem (g : Gw) (w : Nat) : Gw :=
  match g.storeSlot (64 * w) with
  | some (i, p) => match mget? g.cat.slots i with
    | some e => ((g.dropEntry p i e).bump Reg.catEccCnt).flag Reg.catFlag 0x10000000
    | none => g.bump Reg.lckItemDrop
  | none => g.bump Reg.lckItemDrop

/-- What an uncorrectable word leads to where it is read (R759): the item is discarded, and the word stays bad until it
is written; in the Curator region a code page is loaded again and a data word starts a firmware reset. The region's
512 MiB begin at DRAM offset 0 (R29). [Log 136: DEDUCED] -/
def Gw.badWord (g : Gw) (r : ErrReport) (code : Bool) : Gw :=
  if r.kind = 5 && r.unit < 131072 then
    if code then g.note "code page reloaded" [r.unit] else { g with fw := { g.fw with resetAt := some g.tb.tick } }
  else if r.kind = 5 then (g.spoil r.detail).dropItem r.detail
  else if r.kind = 2 then g.bump Reg.lckItemDrop
  else g

/-- The oldest detected error, for KIND 0, or an error that is found now. It waits while its handling pair does not
run, and for the end of a handover (R793). -/
def Gw.errorEvent (g : Gw) (kind detail island unit : Nat) (code : Bool) : Gw :=
  let g := if 2 ≤ kind && kind ≤ 7 then
      (g.detect kind detail (island % 16) unit).badWord { kind := kind, detail := detail, island := island % 16, unit := unit } code
    else g
  match takeFirst (fun r => !g.handing && g.pairRuns (g.handler r)) g.detected with
  | some (r, rest) => ({ g with detected := rest } : Gw).handleError r
  | none => g

def execDetectedErrorHandling (kind detail island unit : Nat) (code : Bool) (s : State) :
    Host.Outcome State Fault Refusal :=
  answer (onGw (fun g => g.errorEvent kind detail island unit code)) s

/-! ### TARGETED_TEST_COMPLETE (R755–R757) -/

/-- The unit goes back to work: a pair restarts, an island starts as after its reset. [Log 137: DEDUCED] -/
def Gw.putBack (g : Gw) (r : ErrReport) : Gw :=
  if r.kind = 1 then g.setPair r.unit 3
  else if r.kind = 3 then { g with cryUp := setBits g.cryUp (r.unit % 10) (r.unit % 10) 1 }
  else if r.kind = 6 then if mgetD g.isl r.island 0 = 3 then g.startIsland r.island else g
  else if r.kind = 7 then { g with trngOk := true }
  else g

/-- Transient classifications of a unit within the last 3,600 s of MBX_FW_HB. -/
def Gw.recentTransients (g : Gw) (k : Nat × Nat × Nat) : Nat :=
  (g.flt.transients.filter (fun (t : Nat × Nat × Nat × Nat) =>
    t.1 = k.1 && t.2.1 = k.2.1 && t.2.2.1 = k.2.2 &&
      (g.heartbeatMs + 4294967296 - t.2.2.2) % 4294967296 ≤ 3600000)).length

/-- The next test that waits for island `i` starts. [Log 136: DEDUCED] -/
def startNextTest (i : Nat) : List FaultTest → List FaultTest
  | [] => []
  | t :: r => if t.rep.island = i && !t.running then { t with running := true } :: r else t :: startNextTest i r

/-- [Log 15: DESIGN CHOICE, 137: DEDUCED] -/
def Gw.testComplete (g : Gw) (i : Nat) (pass : Bool) : Gw :=
  match takeFirst (fun (t : FaultTest) => t.running && t.rep.island = i) g.flt.tests with
  | none => g
  | some (t, rest) =>
    let r := t.rep
    let k := r.key
    let g : Gw := { g with flt := { g.flt with tests := startNextTest i rest } }
    if pass && !t.mustFail && g.recentTransients k < 3 then
      let g := (g.setErrClass t.seq 1).bump (Reg.lckTransCnt (r.kind - 1))
      let g := { g with flt := { g.flt with transients := g.flt.transients ++ [(k.1, k.2.1, k.2.2, g.heartbeatMs)] } }
      g.putBack r
    else (g.setErrClass t.seq 2).lasting r

/-- The uncorrectable words of a page that is retired now are copied to its spare page as zeros (R763). -/
def retireWords (old : Gw) (s : State) : State :=
  let gone := s.gw.flt.badWords.filter (fun w => s.gw.flt.retired.contains (w / 64) && !old.flt.retired.contains (w / 64))
  let left := s.gw.flt.badWords.filter (fun w => !gone.contains w)
  { s with gw := { s.gw with flt := { s.gw.flt with badWords := left } },
           dram := gone.foldl (fun d w => dramWrite d (64 * w) (List.replicate 64 0)) s.dram }

def execTargetedTestComplete (i : Nat) (pass : Bool) (s : State) : Host.Outcome State Fault Refusal :=
  answer (fun s => retireWords s.gw (onGw (fun g => g.testComplete i pass) s)) s

/-! ### PAIR_RESTART (R748, R758) -/

/-- The pair that executes commands of a code (R760). -/
def pairOfCode (code : Nat) : Nat :=
  let a := code / 256
  if (2 ≤ a && a ≤ 0x0A) || a = 0x0D then 0 else 1

/-- Nothing replies to mailbox `m` any more. [Log 139: DEDUCED] -/
def Gw.forgetMbx (g : Gw) (m : Nat) : Gw :=
  let drop := fun (o : Option Nat) => if o = some m then none else o
  let step := fun (r : StepReq) => { r with mbx := drop r.mbx }
  { (g.setMbx m { g.mbxAt m with st := .idle, taken := false }) with
    cat := { g.cat with flushes := g.cat.flushes.map (fun (f : Flush) => { f with mbx := drop f.mbx }) }
    tb := { g.tb with step := g.tb.step.map step, stepQueue := g.tb.stepQueue.map step }
    rmt := { g.rmt with slots := g.rmt.slots.map (fun (q : Nat × RmtSlot) => (q.1, { q.2 with mbx := drop q.2.mbx })) }
    die := { g.die with sent := merase g.die.sent m }
    upd := { g.upd with waits := g.upd.waits.filter (fun (w : UpdWait) => w.mbx ≠ m) }
    ho := g.ho.map (fun (h : Handover) => { h with mbx := drop h.mbx })
    fw := { g.fw with runMbx := drop g.fw.runMbx } }

/-- The change accepted for mailbox `m`, if one waits. -/
def Gw.changeOf (g : Gw) (m : Nat) : Option Change :=
  g.str.changes.find? (fun (c : Change) => match c.act with
    | .mailbox k => k = m
    | .firmware _ => false)

/-- A command that the pair had taken up and not answered is lost. What it would have changed is undefined: a change
that waits for its stamp takes effect or does not, by a free value. [Log 139: DEDUCED] -/
def loseCommand (s : State) (m : Nat) : State :=
  let s := match s.gw.changeOf m with
    | some c =>
      let go := (Config.freeWord s.gw.free).toNat % 2 = 1
      let s := s.withGw (s.gw.draw.dropChange c)
      if go then (changeEffect m (s.gw.changeStamp c) s).1 else s
    | none => s
  s.withGw (s.gw.forgetMbx m)

/-- Mailboxes whose command pair `k` has taken up and not answered. [Log 139: DEDUCED] -/
def Gw.openCommands (g : Gw) (k : Nat) : List Nat :=
  (List.range 64).filter (fun m => (g.mbxAt m).st = .busy && !g.rung.contains m && pairOfCode (g.reqCode m) = k)

/-- Pair `k` reruns its injection test and, with every lane reported, starts its firmware. [Log 139: DEDUCED] -/
def pairRestart (k lanes : Nat) (s : State) : State :=
  let g := s.gw
  if 2 ≤ k || g.pairState k ≠ 3 || !g.islOn 10 || g.handing then s
  else
    let ok := lanes % 256 = 255
    let g := { g with flt := { g.flt with inj := mset g.flt.inj k (atBit 31 true + atBit 30 ok + lanes % 256) } }
    if ok then
      let s := (g.openCommands k).foldl loseCommand (s.withGw g)
      s.withGw ((s.gw.setPair k 1).flag Reg.mbxFlag 0x20000000)
    else
      let r : ErrReport := { kind := 1, detail := 16 * k, island := 10, unit := k }
      s.withGw (((g.flag Reg.lckFlag 0x00800000).logError r 2).lasting r)

def execPairRestart (k lanes : Nat) (s : State) : Host.Outcome State Fault Refusal := answer (pairRestart k lanes) s

/-! ### PWR_FAIL_N (R769, R770) -/

/-- Registers of a block as bytes, as a read without its clearing effect gives them. -/
def Gw.regBytes (g : Gw) (offs : List Nat) : List Byte := offs.flatMap (fun o => leBytes 4 (g.view o).toNat)

/-- The 4,088 bytes in front of the marker. [Log 141: DEDUCED] -/
def Gw.gaspBody (g : Gw) : List Byte :=
  let pairs := fun (n : Nat) (a b : Nat → Nat) => (List.range n).flatMap (fun i => [a i, b i])
  let logs := (g.flt.log.drop (g.flt.log.length - 32)).flatMap (fun (e : ErrRec) => e.words.flatMap (leBytes 4))
  let head := [0x5A, 0x39, 0x36, 0x4C, 1, 0, 0, 0] ++ leBytes 8 (g.tb.dt40 / 2 ^ 40) ++
    g.regBytes [Reg.sysIslStat, Reg.lckFence] ++ leBytes 1 g.fw.state.code ++
    leBytes 1 (atBit 1 g.fw.cfgDefaults + atBit 0 (g.fw.cfgCopy = 1)) ++ leBytes 2 g.tb.seg ++ leBytes 4 g.heartbeatMs
  let flags := (List.range 15).map (fun k => blockFlag (k + 1)) ++ [Reg.mbxFlag]
  let body := head ++ g.regBytes ((List.range 16).map Reg.pwrChStat) ++ g.regBytes flags ++ padTo 512 logs ++
    g.regBytes ((List.range 22).map Reg.fabStrOvrCnt) ++ g.regBytes (pairs 14 Reg.ethRxOk Reg.ethTxOk) ++
    g.regBytes (pairs 32 Reg.canRxOk Reg.canTxOk) ++ g.regBytes ((List.range 176).map Reg.fabQDrop)
  padTo 4088 (body ++ padTo 2256 (Config.logTail g.log.length))

/-- [Log 141: DEDUCED] -/
def Gw.gaspRecord (g : Gw) : List Byte := let b := g.gaspBody; b ++ (sha3x256 b).take 8

/-- The slot that is erased; of two written ones, the older. [Log 141: DEDUCED] -/
def Gw.gaspSlot (g : Gw) : Nat :=
  match mget? g.flash.gasp 0, mget? g.flash.gasp 1 with
  | none, _ => 0
  | _, none => 1
  | some a, some b => if a.1 < b.1 then 0 else 1

/-- Only the newer slot stays. [Log 141: DEDUCED] -/
def Gw.eraseOldGasp (g : Gw) : Gw :=
  match mget? g.flash.gasp 0, mget? g.flash.gasp 1 with
  | some _, some _ => { g with flash := { g.flash with gasp := merase g.flash.gasp g.gaspSlot } }
  | _, _ => g

def Gw.powerFails (g : Gw) : Gw :=
  if g.flt.powerFail then g
  else
    let writes := g.pairRuns 1 && g.fw.state ≠ .boot && g.fw.state ≠ .sleep
    let g := if writes then
        { g with flash := { g.flash with gasp := mset g.flash.gasp g.gaspSlot (g.flash.gaspSeq + 1, g.gaspRecord),
                                         gaspSeq := g.flash.gaspSeq + 1 } }
      else g
    { g with flt := { g.flt with powerFail := true, gaspWritten := writes } }

def execPwrFailNFall (s : State) : Host.Outcome State Fault Refusal := answer (onGw Gw.powerFails) s

def Gw.powerReturns (g : Gw) : Gw :=
  if !g.flt.powerFail then g
  else
    let wrote := g.flt.gaspWritten
    let g := { g with flt := { g.flt with powerFail := false, gaspWritten := false } }
    if wrote then (g.flag Reg.lckFlag 0x00400000).eraseOldGasp else g

def execPwrFailNRise (s : State) : Host.Outcome State Fault Refusal := answer (onGw Gw.powerReturns) s

/-! ### DIAG_SELFTEST (R642) -/

/-- [Log 138: DEDUCED] -/
def diagSelftest (pass : Bool) (us m : Nat) (g : Gw) : Gw × Answer :=
  let i := bits (g.arg m 0) 3 0
  let a : Answer := { words := [atBit 0 (!pass), min us 5000] }
  if i = 10 || 14 ≤ i then (g, failWith stBadArg)
  else if g.fw.state = .config then
    if !pass then (g.fenceIsland i, a)
    else if g.islFenced i then (g, a)
    else ((g.clearIsland i).startIsland i, a)
  else if g.islFenced i then (g, a) else (g, failWith stBadArg)

def execDiagSelftest (m : Nat) (pass : Bool) (us : Nat) (s : State) : Host.Outcome State Fault Refusal :=
  answer (directRow 0x0F01 (effGw (diagSelftest pass us)) m) s

end Sys2Proof.Machine
end

