-- ==== Sys2Proof/Machine/Update.lean ====
section
/-! DEFINITION. Firmware and configuration update (R636–R641, R778–R798): the UPD_ commands, UPD_MESSAGE_RECEIVE,
UPD_REMOTE_TIMEOUT, HANDOVER_EPOCH, PAIR_NEW_IMAGE_RUN, HEALTHY_REPORT, HEALTH_TIMEOUT and UPD_ROM_CTL_GO. -/

namespace Sys2Proof.Machine

/-! ### Delta streams (R781–R783) -/

/-- A complete block of 4,128 bytes passes its check (R782). [Log 149: DEDUCED] -/
def blockOk (i : Nat) (bs : List Byte) : Bool :=
  bs.length = 4128 && bs.drop 4096 = sha3x256 (leBytes 4 i ++ bs.take 4096)

/-- The instructions of a stream, run from the package bytes written so far: the package, or nothing when the stream
fails. `run` is the running package, `alt` the image in the other slot, `len` is NEW_LEN. [Log 149: DEDUCED] -/
def deltaRun (run alt : List Byte) (fw : Bool) (len : Nat) : Nat → List Byte → List Byte → Option (List Byte)
  | 0, _, _ => none
  | fuel + 1, st, out =>
    let op := byteAt st 0
    let a := fromLe (slice st 1 4)
    let b := fromLe (slice st 5 4)
    let go := fun (new : List Byte) (used n : Nat) =>
      if new.length ≠ n || len < out.length + n || st.length < used then none
      else deltaRun run alt fw len fuel (st.drop used) (out ++ new)
    match st with
    | [] => none
    | _ :: _ =>
      if op = 0 then if out.length = len then some out else none
      else if op = 1 then go (slice run a b) 9 b
      else if op = 2 then go (slice st 5 a) (5 + a) a
      else if op = 3 then if len < a then none else go (List.replicate a (st.getD 5 0)) 6 a
      else if op = 4 && fw then go (slice alt a b) 9 b
      else none

/-- The running package of a kind. -/
def Gw.runningPackage (g : Gw) (kind : Nat) : List Byte :=
  if kind = 0 then (g.slotAt g.boot.slot).bytes
  else if g.fw.cfgDefaults then []
  else ((g.copyAt g.fw.cfgCopy).map (fun (c : CfgCopy) => c.header ++ c.bytes ++ c.sig)).getD []

/-- The public key that a configuration package must be signed with (R780). -/
def Gw.trustedKey (g : Gw) (pkg : List Byte) : List Byte :=
  let stored := if g.fw.cfgDefaults then [] else ((g.copyAt g.fw.cfgCopy).map (·.header)).getD []
  if stored.isEmpty then pkgKey pkg else pkgKey stored

/-- A package passes R779 or R780. -/
def Gw.packageOk (g : Gw) (kind : Nat) (pkg : List Byte) : Bool :=
  if kind = 0 then imageCause pkg = 0 else pkgFormed 1 pkg && pkgSigned (g.trustedKey pkg) pkg

/-- The package that a session's blocks make, when it verifies (R783). [Log 149: DEDUCED] -/
def Gw.reconstruct (g : Gw) (u : UpdSession) : Option (List Byte) :=
  let all := (List.range u.blocks).flatMap (fun i => (mgetD u.received i []).take 4096)
  let newLen := fromLe (slice all 16 4)
  let deltaLen := fromLe (slice all 20 4)
  let st := (all.take deltaLen).drop 32
  if all.take 4 ≠ [0x5A, 0x39, 0x36, 0x44] || byteAt all 4 ≠ u.kind || fromLe (slice all 8 4) ≠ u.base ||
      fromLe (slice all 12 4) ≠ u.new || (u.kind = 0 && 16777216 < newLen) || all.length < deltaLen then none
  else
    let fw : Bool := u.kind = 0
    match deltaRun (g.runningPackage u.kind) (g.slotAt g.spareSlot).bytes fw newLen (st.length + 1) st [] with
    | some pkg => if g.packageOk u.kind pkg then some pkg else none
    | none => none

/-! ### A session at its target (R636–R641) -/

def Gw.setSession (g : Gw) (u : Option UpdSession) : Gw := { g with upd := { g.upd with session := u } }

/-- The open session with a number. -/
def Gw.sessionAt (g : Gw) (n : Nat) : Option UpdSession := g.upd.session.filter (fun u => u.num = n)

def Gw.beginSession (g : Gw) (w0 base new blocks : Nat) (presence : Bool) : Gw × Answer :=
  let kind := w0 % 2
  let v := fun (x : Nat) => if kind = 0 then x else x % 65536
  let inUse := if kind = 0 then g.fwVersion % 4294967296 else g.cfgVersion % 65536
  if blocks = 0 || 32768 < blocks then (g, failWith stBadArg)
  else if g.upd.session.isSome then (g, failWith stBusy)
  else if v base ≠ inUse then (g, failWith stIncompatible)
  else if v new < v base && !presence then (g, failWith stPresence)
  else if g.regionMib 4 * mib < blocks * 4128 then (g, failWith stNoRoom)
  else
    let n := g.upd.lastNum % 255 + 1
    let u : UpdSession := { num := n, kind := kind, base := base, new := new, blocks := blocks, target := bits w0 27 16 }
    ({ g with upd := { g.upd with session := some u, lastNum := n } }, { words := [n] })

/-- A complete block at its target: stored, or discarded when its check fails. -/
def Gw.storeBlock (g : Gw) (u : UpdSession) (i : Nat) (bs : List Byte) : Gw × Answer :=
  let u := { u with parts := merase u.parts i }
  if blockOk i bs then (g.setSession (some { u with received := mset u.received i bs }), { words := [1] })
  else ((g.setSession (some u)).bump Reg.updBlkfailCnt, failWith stVerifyFail)

/-- A chunk of UPD_BLOCK: OFFSET, LEN and the layout hold, with `have'` bytes of the block received before.
[Log 148: DEDUCED] -/
def Gw.chunkOk (g : Gw) (m have' : Nat) : Bool :=
  let off := bits (g.arg m 1) 12 0
  let len := bits (g.arg m 2) 9 0
  4 ≤ len && len ≤ 960 && len % 4 = 0 && g.reqLen m = 3 + len / 4 && off = have' && off + len ≤ 4128

/-- The bytes a chunk carries. [Log 148: DEDUCED] -/
def Gw.chunk (g : Gw) (m : Nat) : List Byte := g.argBytes m 3 (bits (g.arg m 2) 9 0)

def Gw.localBlock (g : Gw) (u : UpdSession) (m : Nat) : Gw × Answer :=
  let i := bits (g.arg m 0) 22 8
  let part := mgetD u.parts i []
  let have' := if (mget? u.received i).isSome then 4128 else part.length
  if u.blocks ≤ i || !g.chunkOk m have' then (g, failWith stBadArg)
  else
    let part := part ++ g.chunk m
    if part.length = 4128 then g.storeBlock u i part
    else (g.setSession (some { u with parts := mset u.parts i part }), { words := [0] })

def Gw.verifySession (g : Gw) (u : UpdSession) : Gw × Answer :=
  match (List.range u.blocks).find? (fun i => (mget? u.received i).isNone) with
  | some i => (g, { status := stBadArg, words := [i] })
  | none =>
    match g.reconstruct u with
    | some pkg => (g.setSession (some { u with phase := 1, image := pkg }), { words := [0xFFFF] })
    | none => (g, failWith stVerifyFail)

def Gw.abortSession (g : Gw) (u : UpdSession) : Gw × Answer :=
  if u.phase = 2 then (g, failWith stLocked) else (g.setSession none, {})

def sessionStatus (u : UpdSession) : List Nat := [u.phase % 4 * 4 + u.kind % 2, u.received.length, u.blocks, u.target]

/-! ### Activation (R640, R641, R787) -/

/-- The words of a reply to UPD_ACTIVATE. -/
def Gw.activeWords (g : Gw) : List Nat := [g.fwVersion % 4294967296, g.boot.slot % 2]

/-- A configuration package written into copy B and then copy A. The session is closed. [Log 151: DEDUCED] -/
def Gw.writeCopies (g : Gw) (pkg : List Byte) : Gw :=
  let c := copyOf (pkgBody pkg) (pkg.take 2624) (pkgSig pkg)
  { g with flash := { g.flash with cfg := mset (mset g.flash.cfg 1 c) 0 c } }.setSession none

/-- The handover epoch: the first epoch boundary at least 1 ms ahead and after every accepted stamp of the next 100 ms.
[Log 150: DEDUCED] -/
def Gw.chooseEpoch (g : Gw) : Stamp :=
  let near := (g.str.changes.map (fun (c : Change) => c.t)).filter (fun t => t ≤ g.now + 800000000)
  near.foldl (fun (e : Stamp) t => max e (startAfter t)) (startAfter (g.now + 8000000 - 1))

/-- A neighbour whose port is UP speaks a version too far from the image's. -/
def Gw.farNeighbour (g : Gw) (ver : Nat) : Bool :=
  [0, 1].any (fun k => (g.chainAt k).state = 1 &&
    ((g.chainAt k).nbrVer + 1 < ver || ver + 1 < (g.chainAt k).nbrVer))

/-- The image is written into the spare slot and HANDOVER entered; the reply comes when it ends. -/
def Gw.enterHandover (g : Gw) (u : UpdSession) (mbx asker : Option Nat) : Gw :=
  let slot := g.spareSlot
  let e := g.chooseEpoch
  let g := g.setSession (some { u with phase := 2 })
  let h : Handover := { epoch := e, mbx := mbx, asker := asker, slot := slot }
  let g := { g with
    flash := { g.flash with slots := mset g.flash.slots slot (.image u.image) }
    ho := some h
    boot := { g.boot with hoEpoch := e }
    fw := { g.fw with back := g.fw.state } }
  g.setFw .handover

/-- [Log 151: DEDUCED] -/
def Gw.activate (g : Gw) (u : UpdSession) (mbx asker : Option Nat) : Gw × Answer :=
  if u.phase ≠ 1 then (g, failWith stBadArg)
  else if u.kind = 1 then let g := g.writeCopies u.image; (g, { words := g.activeWords })
  else if g.farNeighbour (pkgChain u.image) then (g, failWith stIncompatible)
  else (g.enterHandover u mbx asker, { later := true })

/-! ### Sessions at other modules (R784, R786) -/

/-- A request passed to another module; no route is a bridge error. [Log 148: DEDUCED] -/
def Gw.updForward (g : Gw) (m target typ : Nat) (body : List Int) : Gw × Answer :=
  match g.routeTo target with
  | none => (g, { status := stRemoteFail, words := [6 * 2 ^ 26] })
  | some k =>
    let msg : SideMsg := { cls := 3, typ := typ, dst := target, src := g.chnAddr, hops := 4094, body := body }
    let w : UpdWait := { mbx := m, target := target, typ := typ, tick := g.tb.tick }
    ({ g with upd := { g.upd with waits := g.upd.waits ++ [w] } }.sideSend k msg, { later := true })

def Gw.reqWords (g : Gw) (m : Nat) : List Int := (List.range (g.reqLen m)).map (fun i => Int.ofNat (g.arg m i))

/-- A session begun here at another module: its target and the blocks under way. -/
def Gw.remoteAt (g : Gw) (n : Nat) : Option (Nat × Map (List Byte)) :=
  (g.upd.remote.find? (fun (r : Nat × Nat × Map (List Byte)) => r.1 = n)).map (·.2)

def Gw.setRemote (g : Gw) (n target : Nat) (parts : Map (List Byte)) : Gw :=
  let others := g.upd.remote.filter (fun (r : Nat × Nat × Map (List Byte)) => r.1 ≠ n)
  { g with upd := { g.upd with remote := others ++ [(n, target, parts)] } }

/-- The chunks of a block for another module are collected, and the block is checked and sent once whole. -/
def Gw.remoteBlock (g : Gw) (m n target : Nat) (parts : Map (List Byte)) : Gw × Answer :=
  let i := bits (g.arg m 0) 22 8
  let part := mgetD parts i []
  if !g.chunkOk m part.length then (g, failWith stBadArg)
  else
    let part := part ++ g.chunk m
    if part.length < 4128 then (g.setRemote n target (mset parts i part), { words := [0] })
    else
      let g := g.setRemote n target (merase parts i)
      if blockOk i part then g.updForward m target 2 ([Int.ofNat n, Int.ofNat i] ++ part.map (fun b => Int.ofNat b.toNat))
      else (g.bump Reg.updBlkfailCnt, failWith stVerifyFail)

/-! ### The command rows -/

/-- A command with a session number: at the session here, or passed to the module where it runs. [Log 148: DEDUCED] -/
def updSession (typ : Nat) (here : Nat → Gw → UpdSession → Gw × Answer) (m : Nat) (g : Gw) : Gw × Answer :=
  let n := bits (g.arg m 0) 7 0
  match g.sessionAt n with
  | some u => here m g u
  | none =>
    match g.remoteAt n with
    | some (t, parts) => if typ = 2 then g.remoteBlock m n t parts else g.updForward m t typ (g.reqWords m)
    | none => (g, failWith stNotFound)

def updBegin (m : Nat) (g : Gw) : Gw × Answer :=
  let t := bits (g.arg m 0) 27 16
  if t = 0 || t = g.chnAddr then
    let presence := g.fw.presence && m < 4
    g.beginSession (g.arg m 0) (g.arg m 1) (g.arg m 2) (bits (g.arg m 3) 15 0) presence
  else g.updForward m t 1 (g.reqWords m)

def execUpdBegin (m : Nat) (s : State) : Host.Outcome State Fault Refusal :=
  answer (directRow 0x0E01 (effGw updBegin) m) s

def execUpdBlock (m : Nat) (s : State) : Host.Outcome State Fault Refusal :=
  answer (directRow 0x0E02 (effGw (updSession 2 (fun m g u => g.localBlock u m))) m) s

def execUpdVerify (m : Nat) (s : State) : Host.Outcome State Fault Refusal :=
  answer (directRow 0x0E03 (effGw (updSession 3 (fun _ g u => g.verifySession u))) m) s

def updActivate : Nat → Gw → Gw × Answer := updSession 4 (fun m g u => g.activate u (some m) none)

/-- The session that UPD_ACTIVATE names is a configuration session of this module. -/
def Gw.activatesConfig (g : Gw) (m : Nat) : Bool := (g.sessionAt (bits (g.arg m 0) 7 0)).any (fun u => u.kind = 1)

def execUpdActivate (m : Nat) (s : State) : Host.Outcome State Fault Refusal :=
  answer (pickRow (fun g => !g.activatesConfig m) (directRow 0x0E04 (effGw updActivate)) m) s

def execUpdActivateConfig (m : Nat) (s : State) : Host.Outcome State Fault Refusal :=
  answer (pickRow (fun g => g.activatesConfig m) (directRow 0x0E04 (effGw updActivate)) m) s

def execUpdAbort (m : Nat) (s : State) : Host.Outcome State Fault Refusal :=
  answer (directRow 0x0E05 (effGw (updSession 5 (fun _ g u => g.abortSession u))) m) s

def execUpdStatus (m : Nat) (s : State) : Host.Outcome State Fault Refusal :=
  answer (directRow 0x0E06 (effGw (updSession 6 (fun _ g u => (g, { words := sessionStatus u })))) m) s

/-! ### UPD messages (R784–R786) -/

/-- A reply to the module that asked. -/
def Gw.updReply (g : Gw) (dst : Nat) (a : Answer) : Gw :=
  match g.routeTo dst with
  | some k =>
    g.sideSend k { cls := 3, typ := 8, dst := dst, src := g.chnAddr, hops := 4094,
                   body := Int.ofNat a.status :: a.words.map Int.ofNat }
  | none => g

/-- The states in which a request of a type is legal at its target. -/
def Gw.updLegal (g : Gw) (typ : Nat) : Bool :=
  g.serving || (typ ≠ 4 && g.fw.state = .config) || (typ = 6 && g.inService)

/-- A request of another module, carried out here (R636). [Log 148: DEDUCED] -/
def Gw.updServe (g : Gw) (src typ : Nat) (body : List Int) : Gw × Answer :=
  let w := fun (i : Nat) => (body.getD i 0).toNat
  let named := fun (f : UpdSession → Gw × Answer) => match g.sessionAt (w 0 % 256) with
    | some u => f u
    | none => (g, failWith stNotFound)
  if !g.updLegal typ then (g, failWith stState)
  else if typ = 1 then g.beginSession (w 0) (w 1) (w 2) (w 3 % 65536) false
  else if typ = 2 then
    named (fun u => if u.blocks ≤ w 1 then (g, failWith stBadArg)
      else g.storeBlock u (w 1) ((body.drop 2).map (fun b => BitVec.ofNat 8 b.toNat)))
  else if typ = 3 then named g.verifySession
  else if typ = 4 then named (fun u => g.activate u none (some src))
  else if typ = 5 then named g.abortSession
  else named (fun u => (g, { words := sessionStatus u }))

/-- What the initiator remembers of a target's answer: a session begun, or one that has ended. -/
def Gw.noteRemote (g : Gw) (w : UpdWait) (status : Nat) (words : List Nat) : Gw :=
  if status ≠ 0 then g
  else if w.typ = 1 then g.setRemote (words.getD 0 0 % 256) w.target []
  else if w.typ = 4 || w.typ = 5 then
    let n := bits (g.arg w.mbx 0) 7 0
    let others := g.upd.remote.filter (fun (r : Nat × Nat × Map (List Byte)) => r.1 ≠ n)
    { g with upd := { g.upd with remote := others } }
  else g

/-- A reply from a target answers the oldest request passed to it. [Log 148: DEDUCED] -/
def Gw.updAnswered (g : Gw) (src : Nat) (body : List Int) : Gw :=
  match takeFirst (fun (w : UpdWait) => w.target = src) g.upd.waits with
  | none => g
  | some (w, rest) =>
    let st := (body.headD 0).toNat
    let words := (body.drop 1).map Int.toNat
    let g := { g with upd := { g.upd with waits := rest } }
    (g.noteRemote w st words).reply w.mbx st 0 words

/-- A block for another module: checked and passed on, or discarded and answered with VERIFY_FAIL (R785). -/
def Gw.relayBlock (g : Gw) (k : Nat) (m : SideMsg) : Gw :=
  let i := (m.body.getD 1 0).toNat
  if blockOk i ((m.body.drop 2).map (fun b => BitVec.ofNat 8 b.toNat)) then
    match g.routeTo m.dst with
    | some out => (g.bump Reg.updRelayCnt).passOn k out m
    | none => g.bump (Reg.chnScDrop k)
  else (g.bump Reg.updBlkfailCnt).updReply m.src (failWith stVerifyFail)

/-- The oldest UPD message that waits; a request to this module also waits for the end of a handover. -/
def Gw.updMessage (g : Gw) : Gw :=
  let mine := fun (x : Inbound) => x.msg.dst = g.chnAddr
  let ready := fun (x : Inbound) => x.msg.cls = 3 && (x.msg.typ = 8 || !mine x || g.fw.state ≠ .handover)
  match takeFirst ready g.chn.inbox with
  | none => g
  | some (x, rest) =>
    let g := { g with chn := { g.chn with inbox := rest } }
    if !mine x then g.relayBlock x.port x.msg
    else if x.msg.typ = 8 then g.updAnswered x.msg.src x.msg.body
    else if 1 ≤ x.msg.typ && x.msg.typ ≤ 6 then
      let r := g.updServe x.msg.src x.msg.typ x.msg.body
      if r.2.later then r.1 else r.1.updReply x.msg.src r.2
    else g.bump (Reg.chnScDrop x.port)

def execUpdMessageReceive (s : State) : Host.Outcome State Fault Refusal :=
  answer (onGw (fun g => if g.pairRuns 1 then g.updMessage else g)) s

/-- How long a target may take, in ticks (R786). -/
def Gw.updLimit (g : Gw) (typ : Nat) : Nat :=
  (if typ = 4 then g.param Par.updHealthMs + 120000 else 2000) * ticksPerMs

def Gw.updTimeout (g : Gw) (m : Nat) : Gw :=
  match takeFirst (fun (w : UpdWait) => w.mbx = m && w.tick + g.updLimit w.typ ≤ g.tb.tick) g.upd.waits with
  | some (_, rest) => ({ g with upd := { g.upd with waits := rest } } : Gw).reply m stTimeout 0 []
  | none => g

def execUpdRemoteTimeout (m : Nat) (s : State) : Host.Outcome State Fault Refusal :=
  answer (onGw (fun g => if g.pairRuns 1 then g.updTimeout m else g)) s

/-! ### Handover (R788–R793) -/

/-- FV_res of every KIND 3 entry is advanced and journaled. -/
def Gw.advanceFresh (g : Gw) : Gw :=
  (g.sealEntries 3).foldl (fun (g : Gw) ie =>
    g.journal none (.freshTx (ie.2.key 3) (mgetD g.fvRes ie.1 0 + g.param Par.keyFvReserve))) g

/-- At E the old firmware journals, and pair 0 restarts into the new image. [Log 150: DEDUCED] -/
def Gw.handoverEpoch (g : Gw) : Gw :=
  match g.ho with
  | none => g
  | some h =>
    if h.started || g.now < h.epoch || g.fw.state ≠ .handover then g
    else
      let up := [0, 1].filter (fun k => (g.chainAt k).state = 1)
      let h := { h with started := true, tick := g.tb.tick, ports := up, errors := g.detected.length }
      let g : Gw := { g.advanceFresh with ho := some h }
      if g.pairState 0 = 1 then g.setPair 0 3 else g

def execHandoverEpoch (s : State) : Host.Outcome State Fault Refusal := answer (onGw Gw.handoverEpoch) s

/-- Pair `k` has restarted: it runs the new image, or its injection test failed. [Log 150: DEDUCED] -/
def Gw.newImage (g : Gw) (k : Nat) (good : Bool) : Gw :=
  match g.ho with
  | none => g
  | some h =>
    if 2 ≤ k || !h.started || g.pairState k ≠ 3 then g
    else if good then
      let g := { g with
        pairs := mset g.pairs k { state := 1, newImage := true }
        flt := { g.flt with inj := mset g.flt.inj k 0xC00000FF }
        ho := some { h with pairsNew := h.pairsNew ||| 2 ^ k } }
      if k = 0 && g.pairState 1 = 1 then g.setPair 1 3 else g
    else
      let lanes := (Config.freeWord g.free).toNat % 255
      { g.draw with
        flt := { g.flt with inj := mset g.flt.inj k (2 ^ 31 + lanes) }
        ho := some { h with failed := true } }.flag Reg.lckFlag 0x00800000

def execPairNewImageRun (k : Nat) (good : Bool) (s : State) : Host.Outcome State Fault Refusal :=
  answer (onGw (fun g => g.newImage k good)) s

/-- HANDOVER ends: the state it came from, the deferred decisions, and the reply. [Log 150: DEDUCED] -/
def Gw.endHandover (g : Gw) (h : Handover) (a : Answer) : Gw :=
  let old := fun (q : Nat × Pair) => (q.1, { q.2 with newImage := false })
  let g := ({ g with ho := none, pairs := g.pairs.map old } : Gw).setFw g.fw.back
  let g := match h.mbx, h.asker with
    | some m, _ => g.reply m a.status 0 a.words
    | none, some src => g.updReply src a
    | none, none => g
  let waiting := g.deferred
  let g := waiting.foldl Gw.fwDecide { g with deferred := [] }
  let g := if g.chn.faultBy.isSome then g.autoFailover else g
  (if g.keys.loopOpen then g.degrade else g).sleepDecide

/-- A check of R791 has failed. -/
def Gw.healthFailed (g : Gw) (h : Handover) : Bool := h.failed || h.errors < g.detected.length || g.keys.loopOpen

/-- Every check of R791 has passed. [Log 150: DEDUCED] -/
def Gw.healthy (g : Gw) (h : Handover) : Bool :=
  h.started && h.pairsNew = 3 && g.pairRuns 0 && g.pairRuns 1 && (h.heartbeat || g.partN) && h.ports.isEmpty &&
    !g.healthFailed h

/-- The boot selector's record is written over the older one (R794). -/
def Gw.writeSelector (g : Gw) (slot : Nat) : Gw :=
  let seq := fun (i : Nat) => ((mget? g.flash.selector i).map (·.2)).getD 0
  let i := if seq 1 < seq 0 then 1 else 0
  { g with flash := { g.flash with selector := mset g.flash.selector i (slot, max (seq 0) (seq 1) + 1) } }

/-- The new firmware reports healthy: the commit, the reply and the end of HANDOVER. -/
def Gw.healthyReport (g : Gw) : Gw :=
  match g.ho with
  | none => g
  | some h =>
    if !g.healthy h then g
    else
      let g := (g.writeSelector h.slot).bump Reg.updHoCnt
      let g := { g with boot := { g.boot with slot := h.slot, fallback := false } }.setSession none
      g.endHandover h { words := g.activeWords }

def execHealthyReport (s : State) : Host.Outcome State Fault Refusal := answer (onGw Gw.healthyReport) s

/-- The attempt ends without healthy: both pairs run the old image again. [Log 150: DEDUCED] -/
def Gw.rollBack (g : Gw) : Gw :=
  match g.ho with
  | none => g
  | some h =>
    let late := h.tick + g.param Par.updHealthMs * ticksPerMs ≤ g.tb.tick
    if !h.started || !(late || g.healthFailed h) then g
    else
      let back := fun (q : Nat × Pair) => (q.1, if q.2.state = 4 then q.2 else { q.2 with state := 1 })
      let g := { g with pairs := g.pairs.map back }.bump Reg.updRbCnt
      let g := g.setSession (g.upd.session.map (fun u => { u with phase := 1 }))
      g.endHandover h (failWith stTimeout)

def execHealthTimeout (s : State) : Host.Outcome State Fault Refusal := answer (onGw Gw.rollBack) s

/-! ### Recovery (R795, R798) -/

/-- Update staging in recovery: directly behind the Curator region. [Log 152: DEDUCED] -/
def recoveryBase : Nat := 512 * mib

/-- UPD_ROM_CTL written: with GO in recovery the staged image is checked and written into slot A. [Log 152: DEDUCED] -/
def romGo (v : Nat) (s : State) : State :=
  let g := s.gw
  let n := bits v 15 0
  if g.boot.stage ≠ 4 || !bit v 31 then s
  else
    let bs := dramRead s.dram recoveryBase (n * 4096)
    let bs := bs.take (2624 + pkgBodyLen bs + 4627)
    let cause := if n = 0 || 4096 < n then 3 else imageCause bs
    if cause = 0 then
      let g := { g with flash := { g.flash with slots := mset g.flash.slots 0 (.image bs) } }.writeSelector 0
      s.withGw g.warmReset
    else s.withGw { g with boot := { g.boot with romStat := 2 ^ 31 + cause } }

def execUpdRomCtlGo (value : W32) (s : State) : Host.Outcome State Fault Refusal := answer (romGo value.toNat) s

end Sys2Proof.Machine
end

