-- ==== Sys2Proof/Machine/Boot.lean ====
section
/-! DEFINITION. Start-up (R591, R764–R767, R794, R795, R803, R813, R814, R862): BOOT_ROM_START and FIRMWARE_BOOT. -/

namespace Sys2Proof.Machine

/-! ### The boot ROM (R813) -/

/-- One failed start-up test. For a pair (KIND 1) the middle number is LANES_OK of its injection test.
[Log 142: DEDUCED] -/
def Gw.bootFail (g : Gw) (f : Nat × Nat × Nat) : Gw :=
  let r : ErrReport := { kind := f.1, detail := 0, island := if f.1 = 1 then 10 else f.2.1 % 16, unit := f.2.2 }
  let g := if f.1 = 1 && f.2.2 < 2 then
      let lanes := f.2.1 % 256
      let g := { g with flt := { g.flt with inj := mset g.flt.inj f.2.2 (2 ^ 31 + atBit 30 (lanes = 255) + lanes) } }
      if lanes = 255 then g else g.flag Reg.lckFlag 0x00800000
    else g
  if f.1 = 0 || 7 < f.1 || (f.1 = 1 && 2 ≤ f.2.2) || (f.1 = 6 && r.island = 10) then g
  else (g.fenceUnit r).flag Reg.lckFlag 0x01000000

/-- A new root in bank `b` (R496). [Log 13: DESIGN CHOICE] -/
def KeyStore.makeRoot (ks : KeyStore) (b : Nat) : KeyStore :=
  { ks with banks := ks.banks.modify b (fun x => { x with root := some ks.roots }), bank := some b, roots := ks.roots + 1 }

/-- The fuse that R536 requires, the bank of R497, the first root, and a new root that KEY_ROOT_NEW asked for (R498). -/
def Gw.bootRoot (g : Gw) (trngGood : Bool) : Gw :=
  let ks := { g.keys with bank := g.keys.lowestBank }
  let ks := if !ks.fusePending then ks else if ks.loopOpen then ks.burn else { ks with fusePending := false }
  let ks := { ks with bank := ks.lowestBank }
  let blank := ks.banks.all (fun (b : RootBank) => b.root.isNone && !b.revoked)
  let free := ks.banks.findIdx? (fun (b : RootBank) => b.root.isNone && !b.revoked)
  let ks := match ks.bank, free with
    | none, some b =>
      if trngGood && (blank || (g.boot.rootNew && g.fw.presence && !ks.loopOpen)) then ks.makeRoot b else ks
    | _, _ => ks
  { g with keys := ks, boot := { g.boot with rootNew := false }, trngOk := trngGood && !g.flt.trng }

/-- The slot that the selector names: that of the record with the higher sequence, or A (R794). -/
def Gw.selectedSlot (g : Gw) : Nat :=
  match mget? g.flash.selector 0, mget? g.flash.selector 1 with
  | some a, some b => if a.2 < b.2 then b.1 else a.1
  | some a, none => a.1
  | none, some b => b.1
  | none, none => 0

/-- The slot that boots, and whether it is the other one; none when neither passes R779 (R794, R803). -/
def Gw.bootChoice (g : Gw) : Option (Nat × Bool) :=
  let s := if g.aon.bootSel = 1 then 0 else if g.aon.bootSel = 2 then 1 else g.selectedSlot % 2
  if (g.slotAt s).valid then some (s, false)
  else if (g.slotAt (1 - s)).valid then some (1 - s, true) else none

/-- Every mailbox IDLE with all words 0 and its DONE bit 0 (R563). -/
def Gw.freshMailboxes (g : Gw) : Gw :=
  let words := fun (e : Nat × W32) => !(mbxOff 0 0 ≤ e.1 && e.1 < mbxOff 64 0)
  ((({ g with mbx := [], rung := [], regs := g.regs.filter words } : Gw).setRegN (Reg.mbxDone 0) 0).setRegN (Reg.mbxDone 1) 0)

/-- Both pairs start in the firmware: every island that is not fenced runs, and the mailboxes are as at a firmware
start. -/
def Gw.startFirmware (g : Gw) (slot : Nat) (fallback : Bool) : Gw :=
  let g := g.freshMailboxes
  let g := (List.range 16).foldl (fun (g : Gw) i => if g.islFenced i then g else g.setIsl i 1) g
  let g := [0, 1].foldl (fun (g : Gw) k => if g.pairState k = 4 then g else g.setPair k 1) g
  let inj := fun (k : Nat) => mgetD g.flt.inj k 0xC00000FF
  let g := { g with
    flt := { g.flt with inj := [(0, inj 0), (1, inj 1)] }
    fw := { g.fw with state := .boot, running := true, startTick := g.tb.tick }
    boot := { g.boot with stage := 2, slot := slot, fallback := fallback }
    cryUp := g.enginesFit
    tb := { g.tb with start := g.tb.tick }
    cal := { g.cal with start := g.tb.tick }
    canStart := g.tb.tick }
  g.flag Reg.mbxFlag 0x30000000

/-- The boot ROM releases OSPI_RST_N before its first flash access (R825). -/
def Gw.ospiRelease (g : Gw) : Gw :=
  if g.ospiRun then g else { g with ospiRun := true }.emit (.pin "OSPI_RST_N" 0 true g.now)

/-- The boot ROM's steps. A vital unit that failed keeps the module in BOOT; without a valid image it goes into recovery
when presence is held, and waits otherwise. [Log 142: DEDUCED] -/
def Gw.bootRom (g : Gw) (fails : List (Nat × Nat × Nat)) (trngGood : Bool) : Gw :=
  if g.boot.stage ≠ 1 || !g.aon.released || g.aon.testMode then g
  else
    let g := fails.foldl Gw.bootFail g
    if g.mustReset then { g with boot := { g.boot with stage := 5 } }
    else
      let g := ((g.bootRoot trngGood).setIsl 13 1).ospiRelease
      let recover := { g with boot := { g.boot with stage := 4 } }
      if g.aon.bootSel = 3 && g.fw.presence then recover
      else
        match g.bootChoice with
        | some (slot, fallback) => g.startFirmware slot fallback
        | none => if g.fw.presence then recover else g

/-- [Log 152: DEDUCED] -/
def execBootRomStart (fails : List (Nat × Nat × Nat)) (trngGood : Bool) (s : State) :
    Host.Outcome State Fault Refusal :=
  answer (onGw (fun g => g.bootRom fails trngGood)) s

/-! ### What a configuration copy must meet (R862) -/

/-- The parameters of a copy, without the reserved bits of their values. [Log 25: DEDUCED] -/
def CfgContent.values (x : CfgContent) : List (Nat × Nat) :=
  x.params.map (fun (p : Nat × Nat) => (p.1, p.2 &&& paramMask p.1))

/-- The parameters that a copy leaves. -/
def Gw.withParams (g : Gw) (x : CfgContent) : Gw :=
  x.values.foldl (fun (g : Gw) p => g.setParam p.1 p.2) { g with params := [] }

/-- The least number of a list. -/
def least (l : List Nat) : Option Nat := leastBy (fun a b => decide (a < b)) l

/-- An area with the first of the items that break its rule. [Log 27: DEDUCED] -/
def rejectAt (area : Nat) (items : List Nat) : List (Nat × Nat) := (least items).elim [] (fun i => [(area, i)])

/-- Unknown identifiers, then values out of range. [Log 27: DEDUCED] -/
def Gw.rejectParams (g : Gw) (x : CfgContent) : List (Nat × Nat) :=
  let unknown := (x.params.filter (fun (p : Nat × Nat) => (findParam p.1).isNone)).map (·.1)
  let given := fun (i : Nat) => x.params.any (fun p => p.1 = i)
  let bad := (x.values.filter (fun (p : Nat × Nat) => match findParam p.1 with
    | some r => !valueOk g.param given r p.1 p.2
    | none => false)).map (·.1)
  let at' := fun (l : List Nat) => (least l).elim [] (fun i => [(i / 256, i)])
  at' unknown ++ at' bad

/-- R29: the region at which the running total exceeds 7,168 MiB; only the last can. [Log 27: DEDUCED] -/
def Gw.rejectRegions (g : Gw) : List (Nat × Nat) :=
  if 7168 < ((List.range 6).map g.regionMib).sum then [(1, Par.sysDramHostshMib)] else []

/-- R27: F22 or F23 in the port set of a mirror session or an entry. [Log 27: DEDUCED] -/
def rejectPorts (x : CfgContent) : List (Nat × Nat) :=
  let bad := fun (p : Nat) (e : Entry) =>
    let t := tableOf p
    if t = 0 then e.f 2 23 22 ≠ 0
    else if t = 1 then e.f 5 22 22 = 1 && e.f 5 24 23 ≠ 0
    else if t = 4 then !bit (e.word 1) 0 && e.f 5 23 22 ≠ 0
    else if t = 5 then e.f 5 1 0 = 2 && e.f 5 31 30 ≠ 0
    else false
  rejectAt 3 ((x.entries.filter (fun (q : Nat × Entry) => bad q.1 q.2)).map (fun q => 0x8000 + q.1)) ++
    (if x.mirrors.any (fun (q : Nat × Nat) => bits q.2 23 22 ≠ 0) then [(3, 0)] else [])

/-- R54: an express controller with a seal filter while H_X is below 650 ns. [Log 27: DEDUCED] -/
def Gw.rejectExpress (g : Gw) (x : CfgContent) : List (Nat × Nat) :=
  let sealed := fun (c : Nat) => x.entries.any (fun (q : Nat × Entry) => q.1 = 6 && q.2.f 1 1 0 = 2 && q.2.f 1 13 8 = c)
  if bit (g.pcfg 13) 0 && g.hxNs < 650 then
    rejectAt 1 (((List.range 32).filter (fun c => bit (g.param Par.strXsrcF13) c && sealed c)).map (0xA000 + ·))
  else []

/-- R94 and R114. [Log 27: DEDUCED] -/
def Gw.rejectCaldera (g : Gw) : List (Nat × Nat) :=
  let pool := g.param Par.calHostHold + g.param Par.calSlack + 24576 + g.guarSum
  (if 262144 < pool then [(1, 0)] else []) ++
    rejectAt 1 (((List.range 12).filter (fun p =>
      bits (g.param (Par.calPause p)) 31 16 ≤ bits (g.param (Par.calPause p)) 15 0)).map Par.calPause)

/-- R136: a partition that straddles the two stores, overlaps another, or reaches beyond the store room or the 25-bit index
space of R134. [Log 27: DEDUCED] -/
def Gw.rejectPartitions (g : Gw) : List (Nat × Nat) :=
  let stop := min 33554432 (131072 + 16384 * g.param Par.sysDramStoreMib)
  let lo := g.partBase
  let hi := fun (p : Nat) => g.partBase p + g.partSize p
  let bad := fun (p : Nat) => g.partSize p ≠ 0 &&
    (lo p % 1024 ≠ 0 || (lo p < 131072 && 131072 < hi p) || stop < hi p ||
      (List.range 12).any (fun q => q ≠ p && g.partSize q ≠ 0 && lo p < hi q && lo q < hi p))
  rejectAt 3 (((List.range 12).filter bad).map (0x8000 + ·))

/-- R646. [Log 27: DEDUCED] -/
def Gw.rejectArchive (g : Gw) : List (Nat × Nat) :=
  let on := (List.range 4).filter g.arcEn
  let rest := on.filter (fun k => g.arcNamed k = 0)
  let sum := (on.map g.arcNamed).sum
  let excess := if g.regionMib 2 < sum then on else []
  let lack := if 1 < rest.length || (rest ≠ [] && g.regionMib 2 ≤ sum) then rest else []
  let deep := on.filter (fun k => g.arcMib k * mib < g.arcDepth k)
  rejectAt 0x0D ((excess ++ lack ++ deep).map Par.arcRing)

/-- Buffers of a controller that its image uses: any header word is set. [Log 154: DEDUCED] -/
def CanCtl.used (x : CanCtl) (n : Nat) : Bool := (List.range 8).any (fun i => x.hdr n i ≠ 0)

/-- R332, R349, R359 and R419: data areas, the matrix, shared lists, and the buffers of bus time messages.
[Log 27: DEDUCED] -/
def Gw.rejectCan (g : Gw) (x : CfgContent) : List (Nat × Nat) :=
  let ctl := fun (c : Nat) => ({ ram := imageRam (mgetD x.canBuffers c []) } : CanCtl)
  let first := fun (k : CanCtl) (n : Nat) => k.doff n
  let last := fun (k : CanCtl) (n : Nat) => k.doff n + bits (k.hdr n 3) 23 19
  let clash := fun (c : Nat) =>
    let k := ctl c
    let l := (List.range 64).filter k.used
    l.any (fun n => 159 < last k n || l.any (fun m => m < n && first k m ≤ last k n && first k n ≤ last k m))
  let marks := fun (c : Nat) => (ctl c).columns.map (fun (q : Nat × Nat) => q.2)
  let rising := fun (l : List Nat) => (l.zip (l.drop 1)).all (fun (q : Nat × Nat) => decide (q.1 < q.2))
  let matrix := fun (c : Nat) =>
    !(rising (marks c) && (marks c).all (fun t => t < g.cycleNtu c)) ||
      (List.range 64).any (fun r => (List.range 32).any (fun k => 192 ≤ (ctl c).cell r k))
  let btm := fun (c : Nat) => bit (g.btmCfg c) 63 && !g.canLom c && ((ctl c).used 62 || (ctl c).used 63)
  let any := fun (p : Nat → Bool) => (List.range 32).any p
  (if any clash || any matrix || any (fun c => 16 < (mgetD x.canShared c []).length) then [(7, 0)] else []) ++
    rejectAt 8 (((List.range 32).filter btm).map Par.btmCfg)

/-- R375 and R377: LIN frame and schedule tables within their limits. -/
def LinCtl.tablesOk (x : LinCtl) : Bool :=
  x.frames.all (fun (q : Nat × LinEntry) => q.1 < 64 && q.2.dir ≤ 2 && 1 ≤ q.2.len && q.2.len ≤ 8) &&
  x.tables.all (fun (q : Nat × List LinSlot) => q.1 < 4 && q.2.length ≤ 64 &&
    q.2.all (fun s => s.typ ≤ 4 && s.ident < 64 && 1 ≤ s.delayMs && s.delayMs ≤ 1023 && s.resolve < 4 &&
      s.idents.all (fun i => i < 64)))

/-- R204, R530 and R599: PDUs, their RAM, and destinations that are sealed; R246: leaf maps; R375, R377, R383, R384: LIN and FlexRay.
[Log 27: DEDUCED] -/
def Gw.rejectRest (g : Gw) (x : CfgContent) : List (Nat × Nat) :=
  let ram := (x.pdus.map (fun (q : Nat × PduDesc) => 8 * ceilDiv q.2.len 8)).sum
  let leaf := fun (m : Map Nat) => leafClash ((List.range 176).map (fun i => BitVec.ofNat 8 (mgetD m i 0)))
  let c := x.flx.cluster
  let flxOk := 10 ≤ c.cycleUs && c.cycleUs ≤ 16000 && 2 ≤ c.statics && c.statics ≤ 1023 && c.staticWords ≤ 127 &&
    c.minislots ≤ 7986 && c.dynWords ≤ 127 && x.flx.owned.length ≤ 128 && x.flx.rxBufs.length ≤ 128
  (if 262144 < ram || x.pdus.any (fun (q : Nat × PduDesc) => !q.2.ok) then [(4, 0)] else []) ++
    (if x.leafMaps.any (fun (q : Nat × Map Nat) => leaf q.2) then [(5, 0)] else []) ++
    (if flxOk && x.lin.all (fun (q : Nat × LinCtl) => q.1 < 12 && q.2.tablesOk) then [] else [(7, 0)]) ++
    (if g.chn.role = 2 && (g.param Par.tbSrcPri = 2 || g.param Par.tbSrcSec = 2) then [(9, 0)] else [])

/-! ### Loading (R814) -/

/-- PDUs, then table entries, then what the image sets otherwise; area and partition of the first entry refused. -/
def Gw.loadTables (g : Gw) (x : CfgContent) : Gw × Option (Nat × Nat) :=
  let r := (g.loadPdus x).loadEntries x.entries
  ((r.1.loadSettings x).loadBuses x, r.2)

/-- Why a copy is rejected: REJ_AREA and REJ_ITEM. [Log 27: DEDUCED] -/
def Gw.copyReject (g : Gw) (x : CfgContent) : Option (Nat × Nat) :=
  let w := g.withParams x
  let rules := w.rejectParams x ++ w.rejectRegions ++ rejectPorts x ++ w.rejectExpress x ++ w.rejectCaldera ++
    w.rejectPartitions ++ w.rejectArchive ++ w.rejectCan x ++ w.rejectRest x
  match rules.head? with
  | some r => some r
  | none =>
    let r := w.loadTables x
    match r.2 with
    | some (a, p) => some (a, 0x8000 + p)
    | none => if x.pdus.any (fun (q : Nat × PduDesc) => !r.1.sealedLenOk q.2) then some (0x0A, 0) else none

/-- CAUSE of a copy (R765: a VERSION of 0 fails like a wrong check word), with the item that a rule rejects.
[Log 155: DEDUCED] -/
def Gw.copyCause (g : Gw) (i : Nat) : Nat × Option (Nat × Nat) :=
  match g.copyAt i with
  | none => (2, none)
  | some c =>
    if c.bytes.take 4 = List.replicate 4 0xFF then (2, none)
    else if !c.checkOk || c.version = 0 then (1, none)
    else match g.copyReject c.content with
      | some r => (3, some r)
      | none => (0, none)

/-- Copy A when it passes, else copy B, else factory defaults (R591). [Log 155: DEDUCED] -/
def Gw.selectCopy (g : Gw) : Gw :=
  let a := g.copyCause 0
  let b := g.copyCause 1
  let item := (match a.2 with
    | some r => some r
    | none => b.2).getD (0, 0)
  let boot := { g.boot with causes := [a.1, b.1], rejArea := item.1, rejItem := item.2 }
  let fw := { g.fw with cfgDefaults := a.1 ≠ 0 && b.1 ≠ 0, cfgCopy := if a.1 = 0 then 0 else if b.1 = 0 then 1 else 0 }
  { g with boot := boot, fw := fw }

/-- The units that the fault slot names: fenced, and tested. A pass lifts the fence and the entry (R764).
[Log 142: DEDUCED] -/
def Gw.bootFaults (g : Gw) (passes : List Bool) : Gw :=
  let left := (g.flash.faultSlot.zipIdx.filter (fun (q : ErrReport × Nat) => !(passes.getD q.2 false))).map (·.1)
  left.foldl Gw.fenceUnit { g with flash := { g.flash with faultSlot := left } }

/-- The die link starts: PDIE_KEEP, the settings and the profiles go to the power die, and its channel states are adopted
(R671, R804). Under factory defaults every channel is then commanded OFF (R767). -/
def Gw.startDieLink (g : Gw) : Gw :=
  let g := g.toDie (.keep g.aon.pdieKeep)
  let g := [0x0B00, 0x0B01, 0x0B02, 0x0B03].foldl (fun (g : Gw) i => g.passSetting i) g
  let g := g.content.profiles.foldl (fun (g : Gw) q => g.toDie (.profile q.1 q.2)) g
  let g := if g.partN then g else { g with pdie := { g.pdie with adopt := true } }
  if g.fw.cfgDefaults then g.toDie (.set 0 0xFFFF 0 0 none) else g

/-- The copy in use takes effect: parameters, tables, PHY registers, and what follows from them. [Log 26: DEDUCED] -/
def Gw.loadConfiguration (g : Gw) : Gw :=
  let x := g.content
  let g := (({ g with fw := { g.fw with applied := true } }.withParams x).loadTables x).1
  let g := g.emitAll (x.phy.map (fun (q : Nat × Nat × Nat) => Out.mdio q.1 q.2.1 q.2.2))
  let g := (List.range 14).foldl Gw.verifyStart ((List.range 8).foldl Gw.tisRole g)
  g.ppsArm.ringBlock

/-- What follows a wake: keep-alives with WOKE for NM_TIMEOUT_MS (R694). [Log 131: DEDUCED] -/
def Gw.wokeUp (g : Gw) : Gw :=
  let until' := g.tb.tick + g.param Par.nmTimeoutMs * ticksPerMs
  if g.boot.wake then { g with nm := { g.nm with wokeUntil := some until' } }.flag Reg.nmFlag 0x20000000 else g

/-- BOOT is left (R562). [Log 153: DEDUCED] -/
def Gw.leaveBoot (g : Gw) : Gw :=
  let wake := g.boot.wake
  let g := { g with boot := { g.boot with stage := 3, wake := false } }
  if g.fw.cfgDefaults then g.enterRun none
  else
    let g := g.setFw .config
    if g.param Par.sysAutorun = 1 || wake then g.enterRun none else g

/-- The firmware's steps in BOOT. [Log 153: DEDUCED] -/
def Gw.firmwareBoot (g : Gw) (passes : List Bool) : Gw :=
  if g.boot.stage ≠ 2 || !g.fw.running then g
  else
    let g := ({ g with keys := g.keys.replay } : Gw).bootFaults passes
    if g.mustReset then { g with boot := { g.boot with stage := 5 } }
    else
      let g := { g with cryUp := g.enginesFit, trngOk := g.trngOk && !g.flt.trng }
      let g := (g.selectCopy.loadConfiguration).startDieLink
      let g := { g with nm := { g.nm with awake := g.param Par.nmSelfNeed = 1 } }
      (g.wokeUp.eraseOldGasp).leaveBoot

/-- [Log 142: DEDUCED] -/
def execFirmwareBoot (passes : List Bool) (s : State) : Host.Outcome State Fault Refusal :=
  answer (onGw (fun g => g.firmwareBoot passes)) s

end Sys2Proof.Machine
end

