-- ==== Sys2Proof/Machine/Mailbox.lean ====
section
/-! DEFINITION. Doorbells and the take-up of mailbox commands (R549–R560, R566, R582, R583, R613, R760, R762):
MBX_DB_RING and MAILBOX_TAKE_UP. -/

namespace Sys2Proof.Machine

/-! ### The command table (R583, R613) -/

/-- A command: its code, the firmware states in which it is legal, and its request length in words; none where its own
count fields imply the length. -/
structure CmdRow where
  code : Nat
  states : List FwState
  words : Option Nat
deriving DecidableEq, Repr

/-- Lists of legal states as the tables print them. -/
def stAll : List FwState := [.config, .run, .degraded, .sleepPrep, .handover]
def stCrdp : List FwState := [.config, .run, .degraded, .sleepPrep]
def stCrd : List FwState := [.config, .run, .degraded]
def stRdp : List FwState := [.run, .degraded, .sleepPrep]
def stRd : List FwState := [.run, .degraded]

/-- Areas 0x01 to 0x07. -/
def cmdRowsNetwork : List CmdRow := [
  ⟨0x0101, stAll, some 0⟩, ⟨0x0102, [.config], some 0⟩, ⟨0x0103, stCrdp, some 1⟩, ⟨0x0201, stAll, none⟩,
  ⟨0x0202, stCrd, none⟩, ⟨0x0203, stAll, some 0⟩, ⟨0x0301, stCrd, some 9⟩, ⟨0x0302, stCrd, some 2⟩,
  ⟨0x0303, stCrd, some 13⟩, ⟨0x0304, stCrd, some 9⟩, ⟨0x0305, stCrd, some 1⟩, ⟨0x0306, stCrd, some 1⟩,
  ⟨0x0401, stCrd, none⟩, ⟨0x0402, stCrd, some 2⟩, ⟨0x0403, stCrd, some 4⟩, ⟨0x0501, stCrd, none⟩,
  ⟨0x0502, stCrd, some 5⟩, ⟨0x0503, stCrd, some 45⟩, ⟨0x0504, stCrd, some 69⟩, ⟨0x0505, stCrd, some 3⟩,
  ⟨0x0506, stCrd, some 4⟩, ⟨0x0507, stCrd, some 1⟩, ⟨0x0601, stCrd, some 1⟩, ⟨0x0701, stRd, some 1⟩,
  ⟨0x0708, stCrd, some 1⟩, ⟨0x0710, stCrd, some 1⟩, ⟨0x0720, stCrd, some 1⟩]

/-- Areas 0x08 to 0x0F. -/
def cmdRowsServices : List CmdRow := [
  ⟨0x0801, stAll, some 1⟩, ⟨0x0803, stCrd, some 4⟩, ⟨0x0901, stAll, some 1⟩, ⟨0x0902, stRd, some 1⟩,
  ⟨0x0903, stCrd, none⟩, ⟨0x0A01, stCrd, some 9⟩, ⟨0x0A02, stCrd, some 9⟩, ⟨0x0A03, stCrd, some 1⟩,
  ⟨0x0A04, [.config], some 0⟩, ⟨0x0A05, stAll, some 1⟩, ⟨0x0A06, stRd, some 10⟩, ⟨0x0B01, stCrdp, some 2⟩,
  ⟨0x0B02, stCrdp, some 1⟩, ⟨0x0B03, stCrd, some 14⟩, ⟨0x0B04, stAll, some 0⟩, ⟨0x0C01, stRd, some 0⟩,
  ⟨0x0C02, stRdp, some 1⟩, ⟨0x0C03, stAll, some 1⟩, ⟨0x0C04, stAll, some 0⟩, ⟨0x0D01, stRd, some 1⟩,
  ⟨0x0D02, stRd, some 1⟩, ⟨0x0D03, stRd, some 6⟩, ⟨0x0D04, stAll, some 1⟩, ⟨0x0E01, stCrd, some 4⟩,
  ⟨0x0E02, stCrd, none⟩, ⟨0x0E03, stCrd, some 1⟩, ⟨0x0E04, stRd, some 1⟩, ⟨0x0E05, stCrd, some 1⟩,
  ⟨0x0E06, stAll, some 1⟩, ⟨0x0F01, [.config, .degraded], some 1⟩, ⟨0x0F02, stAll, some 1⟩, ⟨0x0F03, stCrd, some 1⟩,
  ⟨0x0F04, stAll, some 1⟩]

def findCmd (code : Nat) : Option CmdRow := (cmdRowsNetwork ++ cmdRowsServices).find? (fun r => r.code = code)

/-- The request length that a command's own count fields imply (R582). RMT_EXEC and UPD_BLOCK judge theirs
themselves. -/
def Gw.impliedLen (g : Gw) (m code : Nat) : Nat :=
  let count := bits (g.arg m 0) 5 0
  if code = 0x0201 then 1 + count
  else if code = 0x0202 then 1 + ((g.writeGroups m count 1).map (fun p => 1 + p.nw)).sum
  else if code = 0x0401 then 8 + ceilDiv (bits (g.arg m 7) 9 0) 4
  else if code = 0x0501 then 1 + bits (g.arg m 0) 24 16
  else g.reqLen m

/-- The request needs physical presence (R566). The update service judges a downgrade itself. -/
def Gw.needsPresence (g : Gw) (m code : Nat) : Bool :=
  code = 0x0A01 || code = 0x0A04 || (code = 0x0F03 && bit (g.arg m 0) 0) || (code = 0x0103 && bits (g.arg m 0) 1 0 = 1)

/-- Commands that the pair left executes while the other is fenced (R762). [Log 140: DEDUCED] -/
def pairFree (code : Nat) : Bool := [0x0101, 0x0103, 0x0203, 0x0201, 0x0801, 0x0F02, 0x0F04].contains code

/-- A block that the command needs is fenced: the pair of its area, the island that it acts on, and for KEY_ATTEST pair 1,
which signs, and the hash engines (R534). [Log 140: DEDUCED] -/
def Gw.blockFenced (g : Gw) (m code : Nat) : Bool :=
  let area := code / 256
  (g.pairState (pairOfCode code) = 4 && !pairFree code) ||
    (code = 0x0A06 && (g.pairState 1 = 4 || g.flt.hash % 4 = 3)) || (area = 7 && g.islFenced 9) || (area = 0x0A && code ≠ 0x0A05 && g.islFenced 11) ||
    (area = 6 && g.islFenced (macIsland (bits (g.arg m 0) 3 0)))

/-- The checks of R559 that come before the command's own, in their order. [Log 18: DESIGN CHOICE] -/
def Gw.requestStatus (g : Gw) (m : Nat) : Nat :=
  let code := g.reqCode m
  let len := g.reqLen m
  match findCmd code with
  | none => stBadCmd
  | some r =>
    if g.reqDir m then stBadCmd
    else if g.partN && code / 256 = 0x0B then stNotPresent
    else if 252 < len || len ≠ r.words.getD (g.impliedLen m code) then stBadArg
    else if !r.states.contains g.fw.state then stState
    else if g.needsPresence m code && (3 < m || !g.fw.presence) then stPresence
    else if g.blockFenced m code then stDegraded
    else stOk

/-! ### MBX_DB_RING (R549) -/

def Gw.ring (g : Gw) (m : Nat) : Gw :=
  if (g.mbxAt m).st = .busy then g.flag Reg.mbxFlag 0x80000000
  else
    let done := Reg.mbxDone (m / 32)
    let g := (g.setMbx m { g.mbxAt m with st := .busy, taken := false }).setRegN done (setBits (g.regN done) (m % 32) (m % 32) 0)
    { g with rung := g.rung ++ [m] }

def execMbxDbRing (m : Nat) (value : W32) (s : State) : Host.Outcome State Fault Refusal :=
  answer (onGw (fun g => if m < 64 && g.islOn 10 && value.toNat % 2 = 1 then g.ring m else g)) s

/-! ### MAILBOX_TAKE_UP (R553–R555, R559) -/

/-- The pair that would take up mailbox `m` runs: the one of its area, or the other while that one is fenced; for
KEY_ATTEST pair 1 too, which signs (R534). [Log 140: DEDUCED] -/
def Gw.takerRuns (g : Gw) (m : Nat) : Bool :=
  let p := pairOfCode (g.reqCode m)
  if g.pairState p = 4 then g.pairRuns (1 - p)
  else g.pairRuns p && (g.reqCode m ≠ 0x0A06 || g.pairState 1 = 4 || g.pairRuns 1)

/-- The mailbox that is taken up next: service mailboxes first, each group in the order of its doorbells.
[Log 18: DESIGN CHOICE] -/
def Gw.nextMailbox (g : Gw) : Option Nat :=
  let l := g.rung.filter g.takerRuns
  match l.find? (fun m => decide (m < 4)) with
  | some m => some m
  | none => l.head?

/-- A repeat of the last executed request. [Log 19: DEDUCED] -/
def Gw.repeats (g : Gw) (m : Nat) : Option MbxRecord :=
  (g.mbxAt m).last.filter (fun r => r.code = g.reqCode m && r.seq = g.reqSeq m)

/-- Request `m` is taken up: answered as a repeat, answered with the status of the first check that fails, or left for
its command to execute. [Log 18: DESIGN CHOICE, 19: DEDUCED] -/
def Gw.takeUp (g : Gw) (m : Nat) : Gw :=
  let g : Gw := { g with rung := g.rung.filter (fun k => k ≠ m) }
  let st := g.requestStatus m
  if st = stBadCmd then g.reply m st 0 []
  else
    match g.repeats m with
    | some r => g.replyRaw m r.status r.apply [] true
    | none => if st = stOk then g.setMbx m { g.mbxAt m with taken := true } else g.reply m st 0 []

def Gw.takeNext (g : Gw) : Gw :=
  if g.boot.stage ≠ 3 || g.fw.state = .handover then g
  else
    match g.nextMailbox with
    | some m => g.takeUp m
    | none => g

/-- [Log 15: DESIGN CHOICE, 18: DESIGN CHOICE] -/
def execMailboxTakeUp (s : State) : Host.Outcome State Fault Refusal := answer (onGw Gw.takeNext) s

end Sys2Proof.Machine
end

