-- ==== Sys2Proof/Machine/Host.lean ====
section
/-! DEFINITION. Host DMA rings, interrupt re-arming and BAR2 (R30, R61, R62, R98, R288–R290, R712, R714–R724):
HDMA_TX_TAIL_WRITE, HDMA_TX_FETCH, HOST_INJECTION, HDMA_RX_TAIL_WRITE, HDMA_RX_WAIT_EXPIRY, HDMA_RING_EN_WRITE,
PCIE_DMA_ERROR, INT_VACK_WRITE and BAR2_WRITE. -/

namespace Sys2Proof.Machine

/-! ### Segmentation (R288–R290) -/

/-- The one's-complement sum of 16-bit words, complemented. -/
def inetSum : List Byte → Nat
  | a :: b :: r => 256 * a.toNat + b.toNat + inetSum r
  | [a] => 256 * a.toNat
  | [] => 0

def inetChecksum (bs : List Byte) : Nat :=
  let s := inetSum bs
  let s := s % 65536 + s / 65536
  let s := s % 65536 + s / 65536
  65535 - s

/-- What a segmentable send's headers are: the offset of the IP header, IPv6 or IPv4, TCP or UDP, and the length of all
headers; none when the send is outside R288. [Log 55: DEDUCED] -/
def tsoHeaders (bs : List Byte) : Option (Nat × Bool × Bool × Nat) :=
  let l3 := payloadOff bs
  let v4 := etypeOf bs = 0x0800 && byteAt bs l3 = 0x45
  let v6 := etypeOf bs = 0x86DD && byteAt bs l3 / 16 = 6
  let proto := if v6 then byteAt bs (l3 + 6) else byteAt bs (l3 + 9)
  let l4 := l3 + (if v6 then 40 else 20)
  let n := l4 + (if proto = 6 then 4 * (byteAt bs (l4 + 12) / 16) else 8)
  let tcpOk := proto ≠ 6 || 5 ≤ byteAt bs (l4 + 12) / 16
  if (v4 || v6) && (proto = 6 || proto = 17) && tcpOk && n ≤ 192 && n ≤ bs.length then some (l3, v6, proto = 6, n)
  else none

/-- Headers of segment `k` with their fields rewritten, the payload following (R289). [Log 55: DEDUCED] -/
def tsoSegment (hdr : List Byte) (l3 : Nat) (v6 tcp : Bool) (k mss ipid seq : Nat) (last : Bool) (pay : List Byte) :
    List Byte :=
  let l4 := l3 + (if v6 then 40 else 20)
  let after := hdr.length - l4 + pay.length
  let h := if v6 then overlay hdr (l3 + 4) (beBytes 2 after)
    else
      let h := overlay hdr (l3 + 2) (beBytes 2 (20 + after))
      let h := overlay h (l3 + 4) (beBytes 2 ((ipid + k) % 65536))
      let h := overlay h (l3 + 10) [0, 0]
      overlay h (l3 + 10) (beBytes 2 (inetChecksum (slice h l3 20)))
  let flags := byteAt h (l4 + 13)
  let flags := if last then flags else flags - bits flags 3 3 * 8 - flags % 2
  let flags := if k = 0 then flags else flags - bits flags 7 7 * 128
  let h := if tcp then overlay (overlay h (l4 + 4) (beBytes 4 ((seq + k * mss) % 4294967296))) (l4 + 13) (beBytes 1 flags)
    else overlay h (l4 + 4) (beBytes 2 after)
  let at' := if tcp then l4 + 16 else l4 + 6
  let h := overlay h at' [0, 0]
  let addrs := if v6 then slice h (l3 + 8) 32 else slice h (l3 + 12) 8
  let proto := if tcp then 6 else 17
  let pseudo := addrs ++ (if v6 then beBytes 4 after ++ [0, 0, 0] ++ beBytes 1 proto
    else [0] ++ beBytes 1 proto ++ beBytes 2 after)
  let c := inetChecksum (pseudo ++ h.drop l4 ++ pay)
  let c := if !tcp && !v6 && c = 0 then 0xFFFF else c
  overlay h at' (beBytes 2 c) ++ pay

/-! ### Transmit descriptors (R714, R715, R717) -/

/-- A descriptor's control bits, by their place in bytes 10–11. -/
def dBit (d : List Byte) (i : Nat) : Bool := bit (fromLe (slice d 10 2)) i
def dLen (d : List Byte) : Nat := fromLe (slice d 8 2)

/-- Fabric ports a DIRECT send may name. [Log 55: DEDUCED] -/
def directOk (p : Nat) : Bool := p ≤ 12 || p = 14 || p = 15

/-- The frames a send makes, with the stamps they ask for, or the ERR code it completes with.
[Log 55: DEDUCED, 182: DESIGN CHOICE] -/
def sendFrames (sop : List Byte) (data : List Byte) (descs : Nat) (lens : List Nat) : Except Nat (List TxSeg) :=
  let at' := fromLe (slice sop 16 8)
  let t := fun (k : Nat) => if at' = 0 then 0 else (at' + k) % 2 ^ 64
  if 64 < descs || lens.any (fun n => n = 0 || 16384 < n) then .error 3
  else if dBit sop 10 && !directOk (bits (fromLe (slice sop 10 2)) 9 5) then .error 4
  else if dBit sop 11 then
    let mss := fromLe (slice sop 14 2)
    let hl := byteAt sop 30
    match tsoHeaders data with
    | some (l3, v6, tcp, n) =>
      if n ≠ hl || mss < 64 || 16000 < mss then .error 1
      else
        let pay := data.drop n
        let count := max 1 (ceilDiv pay.length mss)
        .ok ((List.range count).map (fun k =>
          { bytes := tsoSegment (data.take n) l3 v6 tcp k mss (fromLe (slice sop 28 2)) (fromLe (slice sop 24 4))
              (decide (k + 1 = count)) (slice pay (k * mss) mss),
            at' := t k, last := decide (k + 1 = count) }))
    | none => .error 1
  else if data.length < 14 || 16380 < data.length then .error 3
  else .ok [{ bytes := data, at' := t 0, last := true }]

/-! ### Transmit rings -/

def Gw.txAt' (g : Gw) (r : Nat) : TxRing := mgetD g.txRing r {}
def Gw.setTx (g : Gw) (r : Nat) (x : TxRing) : Gw := { g with txRing := mset g.txRing r x }

/-- Descriptors in a ring with a given control word. [Log 135: DEDUCED] -/
def ringSize (ctl : Nat) : Nat := 2 ^ (max 3 (min 12 (bits ctl 29 26)))

/-- [Log 135: DEDUCED] -/
def Gw.txSize (g : Gw) (r : Nat) : Nat := ringSize (g.regN (Reg.hdmaTxCtl r))
/-- [Log 60: DEDUCED] -/
def Gw.txEn (g : Gw) (r : Nat) : Bool := bit (g.regN (Reg.hdmaTxCtl r)) 31
def Gw.txBase (g : Gw) (r : Nat) : Nat :=
  g.regN (Reg.hdmaTxBaseLo r) / 32 * 32 + 4294967296 * g.regN (Reg.hdmaTxBaseHi r)

/-- Descriptors posted and not yet completed. -/
def Gw.txPosted (g : Gw) (r : Nat) : Nat :=
  (g.regN (Reg.hdmaTxTail r) + g.txSize r - g.regN (Reg.hdmaTxHead r) % g.txSize r) % g.txSize r

/-- The host rings reach host memory over PCIe, which HOST_SEL at SPI leaves down (R703). [Log 60: DEDUCED] -/
def Gw.hostOn (g : Gw) : Bool := g.islOn 14 && !g.hostSpi

def execHdmaTxTailWrite (r : Nat) (value : W32) (s : State) : Host.Outcome State Fault Refusal :=
  answer (onGw (fun g => if r < 32 && g.islOn 14 then g.plainWrite (Reg.hdmaTxTail r) value else g)) s

/-- A frame of `n` descriptors completes: STATUS goes into its EOP descriptor, HEAD moves past it, and IRQ counts the
completion. [Log 53: DEDUCED] -/
def Gw.completeTx (g : Gw) (r n : Nat) (irq late : Bool) (err : Nat) : Gw :=
  let size := g.txSize r
  let head := g.regN (Reg.hdmaTxHead r)
  let pos := (head + n - 1) % size
  let g := g.emit (.hostWrite (g.txBase r + 32 * pos + 31) (leBytes 1 (128 + atBit 6 late + err)))
  let g := g.setRegN (Reg.hdmaTxHead r) ((head + n) % size)
  let g := if err = 0 then g else g.bump (Reg.hdmaTxErr r)
  let g := if err = 1 then (g.bump Reg.hdmaTsoRejCnt).flag Reg.hdmaFlag 0x40000000 else g
  let x := g.txAt' r
  g.setTx r { x with send := none, irqDone := if irq then x.irqDone.filter (fun i => i ≠ pos) ++ [pos] else x.irqDone }

/-- The fabric port of ring `r`: F16 or F17. -/
def Gw.ringPort (g : Gw) (r : Nat) : Nat := 16 + bits (g.regN (Reg.hdmaTxCtl r)) 0 0

/-- A frame of ring `r`, stored under `fid`, is injected at F16 or F17 with stamp `t`. [Log 51: DEDUCED] -/
def Gw.inject (g : Gw) (r : Nat) (d : TxSend) (x : TxSeg) (fid : Nat) (t : Stamp) (late : Bool) : Gw :=
  let f := g.ringPort r
  let fr : Frame := { fport := f, sub := r, body := .eth (withFcs x.bytes), ing := t, ingSeg := g.tb.seg, adm := t,
                      seg := g.tb.seg, dpcp := bits (g.pcfg f) 11 9, named := d.direct.map (fun p => (2 ^ p, 8)),
                      tsTag := if x.last then d.tag else none, ring := some r, fid := fid }
  let g := { g with str := { g.str with inbound := g.str.inbound ++ [fr] } }.bump (Reg.hdmaTxFrm r)
  if late then (g.bump (Reg.hdmaTxLate r)).flag Reg.hdmaFlag 0x08000000 else g

/-- Ring `r` with its send under way. -/
def Gw.setSend (g : Gw) (r : Nat) (d : TxSend) : Gw := g.setTx r { g.txAt' r with send := some d }

/-- The send goes on: each further frame is fetched into Caldera when the host hold has room, and injected at once, or held
for the stamp it asks for when that lies ahead by at most 1 s; it completes once nothing of it waits (R61, R62, R98,
R290). A frame that finds no physical cell is lost (R108). [Log 53: DEDUCED] -/
def Gw.sendOn (g : Gw) (r : Nat) (d : TxSend) : List TxSeg → Gw
  | [] => if d.held.isEmpty then g.completeTx r d.descs d.irq d.late 0 else g.setSend r { d with segs := [] }
  | x :: rest =>
    let at' : Stamp := Int.ofNat x.at'
    if g.param Par.calHostHold < (g.setSend r d).holdCells + cellsOf (x.bytes.length + 4) then
      g.setSend r { d with segs := x :: rest }
    else
      match g.storeFrame { fport := g.ringPort r, body := .eth (withFcs x.bytes) } with
      | none => g.noCell.sendOn r d rest
      | some (g, y) =>
        if x.at' ≠ 0 && g.now < at' && at' ≤ g.now + 8000000000 then
          g.sendOn r { d with held := d.held ++ [(x, at', g.tb.seg, y.fid)] } rest
        else
          let late := x.at' ≠ 0
          (g.inject r d x y.fid g.now late).sendOn r { d with late := d.late || late } rest

/-- The descriptors of the next frame: those up to the first EOP, when that one is posted. -/
def frameDescs (posted : Nat) (descs : List (List Byte)) : Option (List (List Byte)) :=
  match descs.findIdx? (fun d => dBit d 14) with
  | some i => if i < posted then some (descs.take (i + 1)) else none
  | none => none

/-- Ring `r` fetches: the send under way goes on, or the next complete frame is read from its descriptors and
buffers. [Log 53: DEDUCED, 54: DEDUCED] -/
def Gw.txFetch (g : Gw) (r : Nat) (descs bufs : List (List Byte)) : Gw :=
  if 32 ≤ r || !g.hostOn || !g.txEn r then g
  else
    match (g.txAt' r).send with
    | some d => g.sendOn r d d.segs
    | none =>
      match frameDescs (g.txPosted r) descs with
      | none => g
      | some ds =>
        let sop := ds.headD []
        let lens := ds.map dLen
        let data := (lens.zip bufs).flatMap (fun (q : Nat × List Byte) => padTo q.1 q.2)
        let irq := dBit sop 13
        match sendFrames sop data ds.length lens with
        | .error e => g.completeTx r ds.length irq false e
        | .ok segs =>
          let d : TxSend := { segs := segs, descs := ds.length, irq := irq,
                              tag := if dBit sop 12 then some (fromLe (slice sop 12 2)) else none,
                              direct := if dBit sop 10 then some (bits (fromLe (slice sop 10 2)) 9 5) else none }
          g.sendOn r d segs

def execHdmaTxFetch (r : Nat) (descs bufs : List (List Byte)) (s : State) : Host.Outcome State Fault Refusal :=
  answer (onGw (fun g => g.txFetch r descs bufs)) s

/-- HOST_INJECTION: the oldest held frame of ring `r` is injected with exactly its stamp, once that has come; a step in
between has translated it (R61, R859). The translation of a step may put it more than 1 s ahead: it then goes out at once,
late (R62). [Log 53: DEDUCED] -/
def Gw.hostInjection (g : Gw) (r : Nat) : Gw :=
  match (g.txAt' r).send with
  | some d =>
    match d.held with
    | (x, t, seg, fid) :: rest =>
      let t := g.translate t seg g.tb.seg
      let early : Bool := g.now + 8000000000 < t
      if t ≤ g.now || early then
        let d := { d with held := rest, late := d.late || early }
        (g.inject r d x fid (if early then g.now else t) early).sendOn r d d.segs
      else g
    | [] => g
  | none => g

def execHostInjection (r : Nat) (s : State) : Host.Outcome State Fault Refusal :=
  answer (onGw (fun g => if r < 32 && g.islOn 14 then g.hostInjection r else g)) s

/-! ### Receive rings (R720–R724) -/

def Gw.rxAt (g : Gw) (r : Nat) : RxRing := mgetD g.rxRing r {}
def Gw.setRx (g : Gw) (r : Nat) (x : RxRing) : Gw := { g with rxRing := mset g.rxRing r x }

/-- [Log 135: DEDUCED] -/
def Gw.rxSize (g : Gw) (r : Nat) : Nat := ringSize (g.regN (Reg.hdmaRxCtl r))
def Gw.rxEn (g : Gw) (r : Nat) : Bool := bit (g.regN (Reg.hdmaRxCtl r)) 31
def Gw.rxWaitUs (g : Gw) (r : Nat) : Nat := bits (g.regN (Reg.hdmaRxCtl r)) 9 0
def Gw.rxBase (g : Gw) (r : Nat) : Nat :=
  g.regN (Reg.hdmaRxBaseLo r) / 32 * 32 + 4294967296 * g.regN (Reg.hdmaRxBaseHi r)

/-- A buffer size that a receive descriptor may have. [Log 57: DEDUCED] -/
def bufSizeOk (n : Nat) : Bool := 64 ≤ n && n ≤ 16384 && n % 64 = 0

/-- The cells of a copy for host memory come back as it leaves (R106). -/
def Gw.leaveHost (g : Gw) (w : Sel) (f : Nat) : Gw :=
  (g.giveBack f w.copy.cls w.copy.cells w.copy.frame.fport).unclaim w.copy.fid

/-- Bytes 10–31 of a written descriptor. -/
def Gw.rxDescBytes (g : Gw) (w : Sel) (len : Nat) (sop eop cut : Bool) : List Byte :=
  let x := w.copy.frame
  leBytes 2 len ++
    leBytes 2 (atBit 15 true + atBit 14 sop + atBit 13 eop + atBit 12 cut + w.copy.cls % 8 * 256 + x.fport % 32) ++ [0, 0] ++
    leBytes 8 (stampNat (g.shownIngress x)) ++ leBytes 4 (seqWord x.seq) ++ leBytes 2 x.seg ++ [0, 0]

/-- The filled buffers and their descriptors go out, and HEAD moves past them. [Log 54: DEDUCED] -/
def Gw.writeBack (g : Gw) (r : Nat) (w : Sel) (filled : List (Nat × Nat × List Byte)) (whole : Bool) : Gw :=
  let n := filled.length
  let outs := filled.zipIdx.flatMap (fun (q : (Nat × Nat × List Byte) × Nat) =>
    let last := q.2 + 1 = n
    [Out.hostWrite q.1.2.1 q.1.2.2,
     Out.hostWrite (g.rxBase r + 32 * q.1.1 + 10) (g.rxDescBytes w q.1.2.2.length (q.2 = 0) (last && whole) (last && !whole))])
  (g.emitAll outs).setRegN (Reg.hdmaRxHead r) ((g.regN (Reg.hdmaRxHead r) + n) % g.rxSize r)

/-- The frame at the head of ring `r` is cut or dropped (R722, R723): filled buffers go out as incomplete.
[Log 57: DEDUCED] -/
def Gw.cutFrame (g : Gw) (r : Nat) : Gw :=
  let x := g.rxAt r
  match x.queue with
  | [] => g
  | (f, w) :: rest =>
    let g := if x.filled.isEmpty then (g.bump (Reg.hdmaRxNobuf r)).flag Reg.hdmaFlag 0x10000000
      else ((g.writeBack r w x.filled false).bump (Reg.hdmaRxTrunc r)).flag Reg.hdmaFlag 0x20000000
    (g.leaveHost w f).setRx r { x with queue := rest, filled := [], left := none, waitFrom := none }

/-- The ring stops with a DMA error (R721, R724). -/
def Gw.stopRing (g : Gw) (tx : Bool) (r addr info : Nat) : Gw :=
  let ctl := if tx then Reg.hdmaTxCtl r else Reg.hdmaRxCtl r
  let g := (g.setRegN ctl (setBits (g.regN ctl) 31 31 0)).flag Reg.hdmaFlag 0x80000000
  let g := (g.setRegN Reg.hdmaErrAddrLo (addr % 4294967296)).setRegN Reg.hdmaErrAddrHi (addr / 4294967296 % 4294967296)
  g.setRegN Reg.hdmaErrInfo (atBit 31 tx + info + r % 32)


/-- The ring takes frames: it is enabled and the host reachable. [Log 60: DEDUCED] -/
def Gw.rxLive (g : Gw) (r : Nat) : Bool := g.rxEn r && g.hostOn

/-- Buffers filled with what is left of a frame, from descriptor index `i` on: the filled ones, those still posted, what
is left, and the index of a descriptor whose BUF_SIZE may not be used (R721). [Log 57: DEDUCED] -/
def fillBufs (size : Nat) : List (Nat × Nat) → Nat → List Byte →
    List (Nat × Nat × List Byte) × List (Nat × Nat) × List Byte × Option Nat
  | [], _, left => ([], [], left, none)
  | (a, n) :: posted, i, left =>
    if left.isEmpty then ([], (a, n) :: posted, left, none)
    else if !bufSizeOk n then ([], (a, n) :: posted, left, some i)
    else
      let rest := fillBufs size posted ((i + 1) % size) (left.drop n)
      ((i, a, left.take n) :: rest.1, rest.2)

/-- The frame at the head of ring `r`: delivered, held for a buffer, or dropped (R721–R723). The result says whether
the next frame follows. -/
def Gw.rxOne (g : Gw) (r : Nat) : Gw × Bool :=
  let x := g.rxAt r
  match x.queue with
  | [] => (g, false)
  | (f, w) :: rest =>
    if !g.rxLive r then (g.cutFrame r, true)
    else
      let left := x.left.getD w.copy.frame.body.bytes
      let size := g.rxSize r
      let q := fillBufs size x.posted ((g.regN (Reg.hdmaRxHead r) + x.filled.length) % size) left
      let filled := x.filled ++ q.1
      let g := g.setRx r { x with posted := q.2.1, filled := filled, left := some q.2.2.1, waitFrom := none }
      match q.2.2.2 with
      | some i => ((g.stopRing false r (g.rxBase r + 32 * i) 0x40000000).cutFrame r, true)
      | none =>
        if q.2.2.1.isEmpty then
          let g := (g.writeBack r w filled true).bump (Reg.hdmaRxFrm r)
          ((g.leaveHost w f).setRx r { g.rxAt r with queue := rest, filled := [], left := none }, true)
        else if g.rxWaitUs r = 0 then (g.cutFrame r, true)
        else (g.setRx r { g.rxAt r with waitFrom := some (x.waitFrom.getD g.tb.tick) }, false)

/-- The frames of ring `r`, in the order of selection, as far as its buffers go. -/
def Gw.rxRun (g : Gw) (r : Nat) : Nat → Gw
  | 0 => g
  | n + 1 =>
    let q := g.rxOne r
    if q.2 then q.1.rxRun r n else q.1

/-- The ring works on everything that waits for it. -/
def Gw.rxWork (g : Gw) (r : Nat) : Gw := g.rxRun r ((g.rxAt r).queue.length + 1)

/-- A copy selected for F16 or F17 goes to the ring that its class names (R720). -/
def Gw.toRing (g : Gw) (f : Nat) (w : Sel) : Gw :=
  let r := bits (g.regN (Reg.hdmaRxmap (8 * (f - 16) + w.copy.cls % 8))) 4 0
  let x := g.rxAt r
  (g.setRx r { x with queue := x.queue ++ [(f, w)] }).rxWork r

/-- WAIT_US of the ring is over, by `strict` only after its last tick (R722). [Log 56: DEDUCED] -/
def Gw.waitOver (g : Gw) (r : Nat) (strict : Bool) : Bool :=
  match (g.rxAt r).waitFrom with
  | some t =>
    let stop := t + ticksPerUs * min 1000 (g.rxWaitUs r)
    if strict then decide (stop < g.tb.tick) else decide (stop ≤ g.tb.tick)
  | none => false

/-- HDMA_RX_TAIL_WRITE: the descriptors from the old tail up to the new one are posted, with the buffers `bufs` that host
software wrote in them. [Log 54: DEDUCED, 56: DEDUCED] -/
def Gw.rxTail (g : Gw) (r : Nat) (value : W32) (bufs : List (Nat × Nat)) : Gw :=
  let g := if g.waitOver r true then (g.cutFrame r).rxWork r else g
  let size := g.rxSize r
  let old := g.regN (Reg.hdmaRxTail r)
  let g := g.plainWrite (Reg.hdmaRxTail r) value
  let n := (g.regN (Reg.hdmaRxTail r) + size - old % size) % size
  let x := g.rxAt r
  (g.setRx r { x with posted := x.posted ++ bufs.take n }).rxWork r

def execHdmaRxTailWrite (r : Nat) (value : W32) (bufs : List (Nat × Nat)) (s : State) :
    Host.Outcome State Fault Refusal :=
  answer (onGw (fun g => if r < 32 && g.islOn 14 then g.rxTail r value bufs else g)) s

def execHdmaRxWaitExpiry (r : Nat) (s : State) : Host.Outcome State Fault Refusal :=
  answer (onGw (fun g => if g.waitOver r false then (g.cutFrame r).rxWork r else g)) s

/-- HDMA_RING_EN_WRITE: a write of the ring's control register (R723, R724, R740). -/
def execHdmaRingEnWrite (tx : Bool) (r : Nat) (value : W32) (s : State) : Host.Outcome State Fault Refusal :=
  answer (onGw (fun g =>
    if 32 ≤ r || !g.islOn 14 then g
    else if tx then g.plainWrite (Reg.hdmaTxCtl r) value
    else (g.plainWrite (Reg.hdmaRxCtl r) value).rxWork r)) s

/-- PCIE_DMA_ERROR on ring `r` at address `addr` (R724). [Log 58: DEDUCED] -/
def Gw.dmaError (g : Gw) (tx : Bool) (r addr : Nat) (frame : Option Nat) : Gw :=
  let g := g.stopRing tx r addr 0
  let g := if tx then g.dropHeld r else g
  if !tx then g.rxWork r
  else match frame, (g.txAt' r).send with
    | some _, some d => g.completeTx r d.descs d.irq d.late 2
    | some n, none => g.completeTx r n false false 2
    | none, _ => g.setTx r { g.txAt' r with send := none }

/-- [Log 58: DEDUCED] -/
def execPcieDmaError (tx : Bool) (r addr : Nat) (frame : Option Nat) (s : State) : Host.Outcome State Fault Refusal :=
  answer (onGw (fun g => if r < 32 && g.hostOn then g.dmaError tx r addr frame else g)) s

/-! ### Re-arming and BAR2 -/

/-- INT_VACK_WRITE: the message of a vector that is pending is sent again (R712). -/
def Gw.vack (g : Gw) (value : W32) : Gw :=
  let v := bits value.toNat 5 0
  if bit value.toNat 31 && g.pendingVectors.contains v then g.message v else g

def execIntVackWrite (value : W32) (s : State) : Host.Outcome State Fault Refusal :=
  answer (onGw (fun g => if g.islOn 14 then g.vack value else g)) s

/-- A byte of DRAM as it is read: of an entry in the store room at its place; a slot without an entry reads VALID 0, other
bytes as they were written. -/
def State.dramAt (s : State) (addr : Nat) : Byte :=
  match s.gw.storeSlot addr with
  | some (i, p) =>
    let k := (addr - s.gw.regionBase 1 * mib) % 64
    (match mget? s.gw.cat.slots i with
      | some e => (e.bytes p).getD k 0
      | none => if k = 7 then dramByte s.dram addr &&& 0x7F else dramByte s.dram addr)
  | none => dramByte s.dram addr

/-- A byte as a read through BAR2 returns it: all ones above usable DRAM, in the Curator region while debug is locked, and of an
uncorrectable word (R702, R759). -/
def State.bar2Byte (s : State) (addr : Nat) : Byte :=
  if dramSize ≤ addr || (addr < s.gw.regionMib 0 * mib && s.gw.flt.dbg.isNone) || s.gw.flt.badWords.contains (addr / 64) then 0xFF
  else s.dramAt addr

/-- What a read of `n` bytes through BAR2 returns: presence is not asked for, and nothing changes (R30). -/
def bar2Read (addr n : Nat) (s : State) : List Byte := (List.range n).map (fun k => s.bar2Byte (addr + k))

/-- The slot whose bytes hold address `a`, after BAR2 has written bytes from `addr` on: it holds the entry that its 64 bytes
now are, or none (R134, R139). [Log 170: DESIGN CHOICE] -/
def State.slotWritten (s : State) (addr : Nat) (bytes : List Byte) (slots : Map Entry) (a : Nat) : Map Entry :=
  match s.gw.storeSlot a with
  | some (i, p) =>
    let new := (List.range 64).map (fun k =>
      let b := a / 64 * 64 + k
      if addr ≤ b && b < addr + bytes.length then bytes.getD (b - addr) 0 else s.dramAt b)
    (match entryOfBytes p new with
      | some e => mset slots i e
      | none => merase slots i)
  | none => slots

/-- The catalogue after BAR2 has written over store-room bytes. -/
def State.slotsWritten (s : State) (addr : Nat) (bytes : List Byte) : Map Entry :=
  let n := if bytes.isEmpty then 0 else (addr + bytes.length - 1) / 64 + 1 - addr / 64
  (List.range n).foldl (fun m k => s.slotWritten addr bytes m (64 * (addr / 64 + k))) s.gw.cat.slots

/-- BAR2_WRITE: DRAM below 7,168 MiB written while presence is held, discarded without (R30, R702, R703). -/
def bar2Write (addr : Nat) (bytes : List Byte) (s : State) : State :=
  if s.gw.hostOn && s.gw.islOn 13 && s.gw.fw.presence then
    let bytes := bytes.take (dramSize - addr)
    let g := (s.gw.visitsPast s.dram).mend addr bytes.length
    { s with dram := dramWrite s.dram addr bytes,
             gw := { g with cat := { g.cat with slots := s.slotsWritten addr bytes } } }
  else s

def execBar2Write (addr : Nat) (bytes : List Byte) (s : State) : Host.Outcome State Fault Refusal :=
  answer (bar2Write addr bytes) s

end Sys2Proof.Machine
end

