-- ==== Sys2Proof/Machine/Selection.lean ====
section
/-! DEFINITION. What a transmitter's decision does (R239–R242, R730, R734) and how selected frames leave the staging
buffers (R97, R106, R121, R123, R244, R278, R279, R342): ACCOUNTED_SELECTION, STAGED_HANDOVER and AGGREGATOR_RESUME. -/

namespace Sys2Proof.Machine

/-! ### Accounted selection -/

/-- The copy that the transmitter of port `f` selects at stamp `t`. -/
def Gw.picked (g : Gw) (f : Nat) (t : Stamp) : Option Copy :=
  (g.select f ((g.heads f t).filter (fun c => (g.candidate f c t).isSome))).map (·.1)

/-- A decision of the transmitter of F20 at stamp `t` (R730, R734): a copy that all its rings drop under HOLD takes no
accounted time; any other leaves a record in each of its rings. -/
def archiveStep (t : Stamp) (a : TxAct) (s : State) : State :=
  let g := s.gw
  match a, g.picked 20 t with
  | .pick, some c =>
    if g.aged 20 c (t + g.tau 20 c.len) then s.withGw (g.txStep 20 t a)
    else if g.arcDropsAll c then arcSelect c (s.withGw (g.discardCopy 20 c t))
    else arcSelect c (s.withGw (g.txStep 20 t a))
  | _, _ => s.withGw (g.txStep 20 t a)

/-- The next decision of the transmitter of port `f` that is due (R239, R241). -/
def selection (f : Nat) (s : State) : State :=
  if f < 22 && s.gw.str.run && s.gw.islOn 5 then
    match s.gw.nextTx f (s.gw.txLimit s.dram) with
    | some (t, a) => if f = 20 then archiveStep t a s else s.withGw (s.gw.txStep f t a)
    | none => s
  else s

def execAccountedSelection (f : Nat) (s : State) : Host.Outcome State Fault Refusal := answer (selection f) s

/-! ### Handover -/

/-- A frame re-injected at port `f` with the stamps of the frame it derives from and the order key of its release (R37,
R63). Its sub-source index is 0. [Log 166: DESIGN CHOICE] -/
def Gw.reinject (g : Gw) (f : Nat) (b : Body) (x : Frame) : Gw :=
  g.deliverInternal { x with fport := f, sub := 0, body := b, tsTag := none, ring := none, fwTag := none, named := none,
                             fv := none, fid := 0, parent := some { o := x.o, seg := x.oSeg, seq := x.fport :: x.seq } }

/-- A frame for the crypto engine (R37, R64). What its processing makes of the frame is not stated: a free value of the
frame's length, the same for the same frame, as R39 asks. [Log 71: DEDUCED] -/
def Gw.toCrypto (g : Gw) (c : Copy) : Gw :=
  match c.frame.body with
  | .eth bs => g.reinject 18 (.eth (padTo bs.length (Config.inlineCrypto bs))) { c.frame with mirror := none }
  | .bus _ => g

/-- A frame for a bus: sealed where its controller seals, then handed to the controller (R342, R369, R530).
[Log 75: DEDUCED] -/
def Gw.toBus (g : Gw) (w : Sel) (bad : Bool) : Gw :=
  let x := w.copy.frame
  match x.body with
  | .bus b =>
    match g.sealOut x b bad with
    | (g, some b) =>
      if b.bus ≤ 31 then
        g.canPush { frame := b, ing := x.ing, ingSeg := x.ingSeg, sel := w.start, fid := w.copy.fid }
          x.oSeg x.o
      else if b.bus ≤ 45 then g.commitFrame b x.ing x.ingSeg else g
    | (g, none) => g
  | .eth _ => g

/-- A frame for the Curator (R679, R682): a keep-alive is kept for the firmware. -/
def Gw.toCurator (g : Gw) (x : Frame) : Gw :=
  match x.body with
  | .eth bs =>
    if g.nmFrame x bs then
      let n : NmHeard := { bus := 32 + x.fport, bytes := slice bs 14 8, stamp := x.ing, seg := x.ingSeg }
      { g with nm := { g.nm with inbox := g.nm.inbox ++ [n] } }
    else g
  | .bus _ => g

/-- The taker of output `f` is an island in reset, which holds its senders back (R20). -/
def Gw.takerHolds (g : Gw) (f : Nat) : Bool :=
  f ≠ 16 && f ≠ 17 && !g.islOn (stampIsland f) && !g.islFenced (stampIsland f)

/-- A frame taken by the MAC, controllers or engine of output `f`. A fenced island takes nothing; the ports of a fenced
MACGRP have link down (R760, R272). The MAC holds the frame's cells until the frame has gone out or is discarded (R105);
everyone else has taken the frame over. -/
def Gw.handTo (g : Gw) (f : Nat) (w : Sel) (bad : Bool) : Gw :=
  let c := w.copy
  if wirePort f && g.islOn (stampIsland f) then
    let p := macIndex f
    let e := g.ethAt p
    g.setEth p { e with jobs := e.jobs ++ [{ sel := w, staged := g.now }] }
  else if f = 16 || f = 17 then g.toRing f w
  else
    let g := g.unclaim c.fid
    if wirePort f then ((g.bump (Reg.ethTxLinkdn (macIndex f))).flag (Reg.ethFlag (macIndex f)) (2 ^ 30)).discTs f c.frame
    else if !g.islOn (stampIsland f) then g
    else if f = 12 then
      match c.frame.body with
      | .eth bs => g.tisTake bs c.frame.fwTag
      | .bus _ => g
    else if f = 13 then g.toBus w bad
    else if f = 18 then g.toCrypto c
    else if f = 19 then g.toCurator c.frame
    else if f = 21 then g.reinject 21 c.frame.body c.frame
    else g

/-- The aggregator has room for the frame (R279); every other output takes a frame once it is staged. -/
def Gw.hasRoom (g : Gw) (f : Nat) (w : Sel) : Bool :=
  match w.copy.frame.body with
  | .eth bs => f ≠ 12 || g.tisRoom bs
  | .bus _ => true

/-- Bytes with one bit inverted, counted from the least significant bit of byte 0. -/
def flipBit (bs : List Byte) (b : Nat) : List Byte := bs.set (b / 8) (BitVec.ofNat 8 (byteAt bs (b / 8) ^^^ 2 ^ (b % 8)))

/-- The first cell of a staged frame whose stage-two read fails its CRC check: its intermediate and number (R93, R123).
`flip` is a bit that the read of a cell got wrong, as (cell index, bit). [Log 34: DESIGN CHOICE] -/
def Gw.badCell (g : Gw) (fid : Nat) (flip : Option (Nat × Nat)) : Option (Nat × Nat) :=
  (((mget? g.cal.store fid).map Store.cells).getD []).findSome? (fun id =>
    (mget? g.cal.cells id).bind (fun c =>
      let read := match flip with
        | some (j, b) => if j = c.index then flipBit c.data b else c.data
        | none => c.data
      if cellCrc read c.index = c.crc then none else some (c.inter, id)))

/-- A failed cell CRC is counted and recorded, and the firmware hears of it (R123, R128). -/
def Gw.crcFailed (g : Gw) (f inter cell : Nat) (w : Sel) : Gw :=
  let g := (g.bump Reg.fabCalCrcCnt).flag Reg.fabCalFlag 0x80000000
  let last := f * 2 ^ 23 + inter % 32 * 2 ^ 18 + cell % 262144
  let g := g.setRegN Reg.fabCalCrcLast last
  (g.discTs f w.copy.frame).detect 4 last 0 (0x100 + cell % 262144 / 16384)

/-- STAGED_HANDOVER: the oldest selected frame of output `f`, all its cells staged, leaves in selection order; one with a
cell that failed its CRC check is discarded before any of it is handed over (R121, R123). `bad`: the check of its sealing fails
(R523). [Log 34: DESIGN CHOICE] -/
def Gw.handover (g : Gw) (f : Nat) (flip : Option (Nat × Nat)) (bad : Bool) : Gw :=
  let e := g.egrAt f
  match e.selected with
  | [] => g
  | w :: _ =>
    if !e.headStaged then g
    else
      match g.badCell w.copy.fid flip with
      | some (i, cell) =>
        let g := (g.setEgr f e.leaveStage).crcFailed f i cell w
        if f = 16 ∨ f = 17 then g.leaveHost w f else g.unclaim w.copy.fid
      | none => if g.takerHolds f || !g.hasRoom f w then g else (g.setEgr f e.leaveStage).handTo f w bad

def execStagedHandover (f : Nat) (fault : HandFault) (s : State) : Host.Outcome State Fault Refusal :=
  answer (onGw (fun g => if f < 22 && g.islOn 0 then g.handover f fault.flip fault.bad else g)) s

/-- AGGREGATOR_RESUME: room is free for S port `p`, and the aggregator takes the next copy from F12 (R279).
[Log 48: DEDUCED] -/
def Gw.aggregatorResume (g : Gw) (p : Nat) : Gw :=
  match (g.egrAt 12).selected with
  | w :: _ =>
    match w.copy.frame.body with
    | .eth bs => if (g.tisTargets bs).contains p then g.handover 12 none false else g
    | .bus _ => g
  | [] => g

def execAggregatorResume (p : Nat) (s : State) : Host.Outcome State Fault Refusal :=
  answer (onGw (fun g => if g.islOn 0 then g.aggregatorResume p else g)) s

end Sys2Proof.Machine
end

