-- ==== Sys2Proof/Machine/Bar0.lean ====
section
/-! DEFINITION. BAR0 as an initiator on the register bus sees it (R9–R14, R83, R361, R362, R432, R439, R469, R550,
R704–R709, R809): the side effects of reads and writes, and SPI_TRANSACTION, REGISTER_WRITE, RC_READ and
LATCHING_LO_READ. A write to a register that has a row of its own acts as that row's command does. -/

namespace Sys2Proof.Machine

/-! ### The CAN window and the CAN RAM (R331, R337–R339, R361, R362) -/

/-- The controller bound to a slot of the direct CAN window. -/
def Gw.boundTo (g : Gw) (slot : Nat) : Option Nat :=
  (List.range 32).find? (fun c => (g.canAt c).host && (g.canAt c).slot = some slot)

/-- The word of a controller's CAN RAM at a byte offset of its region, as read. -/
def Gw.ramWord (g : Gw) (c off : Nat) : Nat :=
  let x := g.canAt c
  if off < 0x800 && off % 32 = 0 then x.hdrRead (off / 32) else x.word (off / 4)

/-- A read by the controller's owner: a header read takes the lock, the read of the locked buffer's last word releases
it. -/
def Gw.ramRead (g : Gw) (c off : Nat) : Gw × Nat :=
  let x := g.canAt c
  if off < 0x800 && off % 32 = 0 then g.mbHdrRead c (off / 32)
  else
    let last : Bool := match x.lock with
      | some l => decide (x.lastWord l.1 l.2 = off / 4)
      | none => false
    (if last then g.releaseLock c else g, x.word (off / 4))

/-- A write by the controller's owner. Reserved words keep nothing. -/
def Gw.ramWrite (g : Gw) (c off v : Nat) : Gw :=
  if off < 0x800 && off % 32 = 0 then g.mbHdrWrite c (off / 32) v
  else if 0x1080 ≤ off && off < 0x1800 then g
  else
    let v := if off < 0x800 then v &&& hdrMask (off / 4 % 8) else v
    g.setCan c ((g.canAt c).setWord (off / 4) v)

/-! ### Reads -/

/-- The companions that a read of register `i` of the group at `b` latches (R83, R86, R264, R365, R439, R442, R676, R742,
R775, R798). -/
def Gw.companions (g : Gw) (b i : Nat) : List (Nat × Nat) :=
  if b = Reg.fabStrFrontLo then [(Reg.fabStrFrontHi, stampHi g.str.frontier)]
  else if b = Reg.fabStrOvrLast then
    [(Reg.fabStrOvrLastALo, g.regN Reg.fabStrOvrLastALo), (Reg.fabStrOvrLastAHi, g.regN Reg.fabStrOvrLastAHi)]
  else if b = Reg.egrLateLast then [(Reg.egrLateLastDly, g.regN Reg.egrLateLastDly)]
  else if b = Reg.tbDtLo then [(Reg.tbDtHi, word32 (g.tb.dt40 / 2 ^ 40) 1), (Reg.tbDtFrac, g.dtFrac)]
  else if b = Reg.tbIncrLo then [(Reg.tbIncrHi, g.tb.incr / 4294967296 % 65536)]
  else if b = Reg.tbStepLastLo then [(Reg.tbStepLastHi, word32 g.lastStepNs 1), (Reg.tbStepLastFrac, g.lastStepFrac)]
  else if b = Reg.tbPpsInLo then [(Reg.tbPpsInHi, stampHi g.tb.ppsIn)]
  else if b = Reg.tevOutNextLo 0 then [(Reg.tevOutNextHi i, stampHi (g.tevNext i))]
  else if b = Reg.arcWrLo 0 then [(Reg.arcWrHi i, word32 (g.arcOff i (g.arcAt i).wr) 1)]
  else if b = Reg.arcMarkLo 0 then
    [(Reg.arcMarkHi i, word32 (((g.arcAt i).mark.map (fun m => g.arcOff i m.1)).getD 0) 1)]
  else if b = Reg.updEpochLo then [(Reg.updEpochHi, stampHi g.boot.hoEpoch)]
  else if b = Reg.lckLast then [(Reg.lckLastDetail, (g.flt.last.map (fun e => e.detail)).getD 0)]
  else if b = Reg.pwrSampleLo then [(Reg.pwrSampleHi, word32 g.die.sample 1)]
  else if b = Reg.canEpCnt 0 then
    let ps := (g.canAt i).epochs
    let st := fun (k : Nat) => (ps[k]?.map CanPair.st).getD 0
    [(Reg.canEpCntp i, (ps[1]?.map CanPair.cnt).getD 0), (Reg.canEpStLo i, stampLo (st 0)), (Reg.canEpStHi i, stampHi (st 0)),
     (Reg.canEpStpLo i, stampLo (st 1)), (Reg.canEpStpHi i, stampHi (st 1))]
  else []

/-- Registers whose read moves a queue, releases a slot or drains a FIFO (R309, R434, R473, R483, R727). -/
def Gw.queueRead (g : Gw) (b i : Nat) : Gw :=
  if b = Reg.tsqEnt0 0 then g.tsqRead0 i
  else if b = Reg.tsqEnt3 0 then g.tsqRead3 i
  else if b = Reg.tevInEnt0 0 then g.tevInRead0 i
  else if b = Reg.tevInEnt3 0 then g.tevInRead3 i
  else if b = Reg.rmtRdata0 0 then g.rmtClaim i
  else if b = Reg.rmtFerrEnt0 then g.ferrRead0
  else if b = Reg.rmtFerrEnt2 then g.ferrRead2
  else g

/-- A read of a register that the map lists: its value, then every side effect of the read. -/
def Gw.mapRead (g : Gw) (off : Nat) : Gw × Nat :=
  if g.noPwr off then (g, 0)
  else match findReg off with
  | none => (g, 0)
  | some (r, i) =>
    if r.base = Reg.arcCapD0 0 then
      let q := g.readCap i
      (q.1, q.2.toNat)
    else
      let v := (g.view off).toNat
      let out := g.out
      let g := (g.companions r.base i).foldl (fun (g : Gw) (q : Nat × Nat) => g.latch q.1 (w32 q.2)) g
      (({ g.queueRead r.base i with out := out } : Gw).readClear off, v)

/-- A read by any initiator. A register whose island is in reset or fenced reads 0 (R809); an offset that holds no
register reads 0 (R13). -/
def Gw.busRead (g : Gw) (off : Nat) : Gw × W32 :=
  if off = Reg.sysId || off = Reg.sysIslStat then (g, g.view off)
  else if !g.islOn (regIsland off) then (g, 0)
  else if 0xC0000 ≤ off && off < 0xE0000 then
    match g.boundTo ((off - 0xC0000) / 0x4000) with
    | some c =>
      let q := g.ramRead c (off % 0x4000)
      (q.1, w32 q.2)
    | none => (g, 0)
  else if 0xE0000 ≤ off && off < 0xE2000 then
    match g.boundTo ((off - 0xE0000) / 0x400) with
    | some c =>
      let q := g.mapRead (Reg.canStat c + off % 0x400)
      (q.1, w32 q.2)
    | none => (g, 0)
  else if 0x400000 ≤ off && off < 0x480000 then
    let c := (off - 0x400000) / 0x4000
    (g, w32 (g.ramWord c (off % 0x4000)))
  else
    let q := g.mapRead off
    (q.1, w32 q.2)

/-! ### Writes -/

/-- CAN_HCTL written through a slot (R365): INIT and LOM_H are set, REC begins recovery and stays set meanwhile. -/
def Gw.hctlWrite (g : Gw) (c : Nat) (v : W32) : Gw :=
  let g := g.setRegN (Reg.canHctl c) (v.toNat / 2 ^ 30 * 2 ^ 30 + atBit 29 (bit (g.regN (Reg.canHctl c)) 29))
  if bit v.toNat 29 then g.recWrite c else g

/-- The registers of a controller written through a slot, or in the expert window, where CAN_HCTL is read-only (R362,
R365). -/
def Gw.canRegWrite (g : Gw) (c off : Nat) (v : W32) (slot : Bool) : Gw :=
  if off = Reg.canHctl c then (if slot then g.hctlWrite c v else g) else g.plainWrite off v

/-- Buffers that a tail write posts when host memory is not at hand: addresses and sizes are free values.
[Log 54: DEDUCED] -/
def Gw.unknownBufs (g : Gw) (r : Nat) : List (Nat × Nat) :=
  (List.range (g.rxSize r)).map (fun k =>
    let bs := Config.undefinedBytes (g.free + k) 10
    (fromLe (slice bs 0 8), fromLe (slice bs 8 2)))

/-- A write to a register of the map. -/
def Gw.mapWrite (g : Gw) (off : Nat) (v : W32) : Gw :=
  if g.noPwr off then g
  else match findReg off with
  | none => g
  | some (r, i) =>
    let b := r.base
    if b = Reg.mbxWord 0 then
      (if (g.mbxAt (i / 256)).st = .busy then g.flag Reg.mbxFlag 0x40000000 else g.plainWrite off v)
    else if b = Reg.mbxDb 0 then (if bit v.toNat 0 then g.ring i else g)
    else if b = Reg.msixCtl 0 then (g.plainWrite off v).unmasked i
    else if b = Reg.intVack then g.vack v
    else if b = Reg.hdmaRxCtl 0 then (g.plainWrite off v).rxWork i
    else if b = Reg.hdmaRxTail 0 then
      let bufs := g.unknownBufs i
      ({ g with free := g.free + bufs.length } : Gw).rxTail i v bufs
    else if b = Reg.tevOutCfg 0 then g.tevCfgWrite i v
    else if Reg.tevOutCfg 0 < b && b ≤ Reg.tevOutCount 0 then
      (if bit (g.param Par.tevOwn) i then g else g.plainWrite off v)
    else if b = Reg.cryQCtl 0 then
      let g := g.plainWrite off v
      if bit v.toNat 31 then g else g.cryFlush i
    else if b = Reg.lckIslRst then g.islandResets v.toNat
    else if b = Reg.rmtCmd 0 then g.rmtCmd i (v.toNat % 16)
    else g.plainWrite off v

/-- A write by any initiator. -/
def busWrite (off : Nat) (v : W32) (s : State) : State :=
  let g := s.gw
  if !g.islOn (regIsland off) then s
  else if 0xC0000 ≤ off && off < 0xE0000 then
    match g.boundTo ((off - 0xC0000) / 0x4000) with
    | some c => s.withGw (g.ramWrite c (off % 0x4000) v.toNat)
    | none => s
  else if 0xE0000 ≤ off && off < 0xE2000 then
    match g.boundTo ((off - 0xE0000) / 0x400) with
    | some c => s.withGw (g.canRegWrite c (Reg.canStat c + off % 0x400) v true)
    | none => s
  else if 0x190000 ≤ off && off < 0x198000 then
    s.withGw (g.canRegWrite ((off - 0x190000) / 0x400) off v false)
  else if off = Reg.updRomCtl then romGo v.toNat s
  else s.withGw (g.mapWrite off v)

/-! ### Accesses of the host (R14, R709) -/

/-- INIT of a host access: PCIe, or SPI when the endpoint is held in reset (R703, R709). -/
def Gw.hostInit (g : Gw) : Nat := if g.hostSpi then 1 else 0

/-- An access rejected under R14 is recorded (R709). [Log 62: DEDUCED] -/
def Gw.badAccess (g : Gw) (write : Bool) (init off : Nat) : Gw :=
  ((g.setRegN Reg.sysBadaccAddr off).setRegN Reg.sysBadaccInfo (atBit 31 write + init * 2 ^ 29)).flag
    Reg.sysFlag 0x80000000

/-- Only naturally aligned 32-bit accesses are carried out (R14). [Log 62: DEDUCED] -/
def wordAccess (off size : Nat) : Bool := size = 4 && off % 4 = 0

/-- An offset holds a register, or a word of a controller's CAN RAM, whose island is in reset (R809). SYS_ID and
SYS_ISL_STAT stay readable. -/
def Gw.regInReset (g : Gw) (off : Nat) : Bool :=
  let ram := (0xC0000 ≤ off && off < 0xE2000) || (0x400000 ≤ off && off < 0x480000)
  ((findReg off).isSome || ram) && off ≠ Reg.sysId && off ≠ Reg.sysIslStat && mgetD g.isl (regIsland off) 0 = 0

/-- A read and its data: all ones for an access rejected. The access of a register whose island is in reset is not
recorded (R809). -/
def Gw.readBy (g : Gw) (init off size : Nat) : Gw × W32 :=
  if wordAccess off size then g.busRead off
  else if g.regInReset (off / 4 * 4) then (g, 0)
  else (g.badAccess false init off, 0xFFFFFFFF)

def writeBy (init off size : Nat) (v : W32) (s : State) : State :=
  if wordAccess off size then busWrite off v s
  else if s.gw.regInReset (off / 4 * 4) then s
  else s.withGw (s.gw.badAccess true init off)

def execRegisterWrite (off size : Nat) (value : W32) (s : State) : Host.Outcome State Fault Refusal :=
  answer (fun s => if s.gw.islOn 14 then writeBy s.gw.hostInit off size value s else s) s

/-- A host read with its data. -/
def Gw.hostRead (g : Gw) (off size : Nat) : Gw :=
  if !g.islOn 14 then g
  else
    let q := g.readBy g.hostInit off size
    q.1.emit (.readData off q.2)

def execRcRead (off size : Nat) (s : State) : Host.Outcome State Fault Refusal :=
  answer (onGw (fun g => g.hostRead off size)) s

def execLatchingLoRead (off : Nat) (s : State) : Host.Outcome State Fault Refusal :=
  answer (onGw (fun g => g.hostRead off 4)) s

/-! ### The SPI port (R704–R706) -/

/-- Words written from an address upward; an incomplete last word is discarded (R705). [Log 61: DEDUCED] -/
def spiWrite (s : State) (addr : Nat) : List Byte → State
  | a :: b :: c :: d :: r => spiWrite (writeBy 1 addr 4 (w32 (fromLe [a, b, c, d])) s) (addr + 4) r
  | _ => s

/-- Words read for `n` bytes clocked after the dummy phase: the first always, further ones only in the mailbox words
(R706). [Log 61: DEDUCED] -/
def spiRead (g : Gw) (addr : Nat) : Nat → Gw × List Byte
  | 0 => (g, [])
  | n + 1 =>
    let q := g.readBy 1 addr 4
    let inMbx := 0x20000 ≤ addr && addr + 4 ≤ 0x2FFFF
    let rest := if inMbx then spiRead q.1 (addr + 4) n else (q.1, List.replicate (4 * n) 0xFF)
    (rest.1, leBytes 4 q.2.toNat ++ rest.2)

/-- SPI_TRANSACTION: the bytes on MOSI between the two edges of CS_N; MISO drives 0xFF in the dummy phase (R704).
[Log 61: DEDUCED] -/
def spiTransaction (mosi : List Byte) (s : State) : State :=
  let addr := fromBe (slice mosi 1 4)
  if !s.gw.islOn 14 || mosi.length < 5 then s
  else if byteAt mosi 0 = 0x02 then spiWrite s addr (mosi.drop 5)
  else if byteAt mosi 0 = 0x0B then
    let dummy := List.replicate (min 8 (mosi.length - 5)) 0xFF
    if mosi.length < 13 then s.withGw (s.gw.emit (.miso dummy))
    else
      let n := mosi.length - 13
      let q := spiRead s.gw addr (max 1 (ceilDiv n 4))
      s.withGw (q.1.emit (.miso (dummy ++ q.2.take n)))
  else s

def execSpiTransaction (mosi : List Byte) (s : State) : Host.Outcome State Fault Refusal :=
  answer (spiTransaction mosi) s

end Sys2Proof.Machine
end

