-- ==== Sys2Proof/Machine/Remote.lean ====
section
/-! DEFINITION. The remote access bridge as target (R468–R470, R475, R478–R484): RMT_REQUEST_EXECUTE and
BCAST_RECEIVE. -/

namespace Sys2Proof.Machine

/-- What stops an access before it is made: ADDR outside the reachable range or not aligned (R468), ISLAND for an island
in reset or fenced (R481). -/
def Gw.farCheck (g : Gw) (a : Nat) : Nat :=
  if 0xFFFFFF < a || a % 4 ≠ 0 then 1
  else if !g.islOn (regIsland a) then 2
  else 0

/-- Where a sequence stands on the register bus: the module, the time in ns since the lock was taken, and the durations of the
accesses to come. -/
structure SeqAt where
  s : State
  t : Nat
  ns : List Nat

/-- One access inside a sequence: none starts later than 1,800 ns after the lock, so that the lock goes within 2,000 ns; BUS when
it takes more than 200 ns (R481, R482). -/
def SeqAt.access (x : SeqAt) (f : State → State × Nat) : SeqAt × Nat × Nat :=
  let d := x.ns.headD 0
  let y : SeqAt := { x with t := x.t + d, ns := x.ns.drop 1 }
  if 1800 < x.t then (x, 4, 0)
  else if 200 < d then (y, 3, 0)
  else
    let q := f x.s
    ({ y with s := q.1 }, 0, q.2)

def farRead (a : Nat) (s : State) : State × Nat :=
  let q := s.gw.busRead a
  (s.withGw q.1, q.2.toNat)

def farWrite (a v : Nat) (s : State) : State × Nat := (busWrite a (w32 v) s, 0)

/-- One operation of a sequence: 1 READ, 2 WRITE, 3 RMW, 4 CMPW, none of which starts later than 1,800 ns after the lock (R482).
The answer is an error code and the value read. [Log 108: DEDUCED] -/
def seqOp (o : Nat × Nat × Nat × Nat) (x : SeqAt) : SeqAt × Nat × Nat :=
  let a := o.2.1
  let code := x.s.gw.farCheck a
  if 1800 < x.t then (x, 4, 0)
  else if code ≠ 0 then (x, code, 0)
  else if o.1 = 2 then x.access (farWrite a o.2.2.1)
  else
    let r := x.access (farRead a)
    if r.2.1 ≠ 0 then r
    else if o.1 = 3 then r.1.access (farWrite a ((r.2.2 &&& o.2.2.1) ||| o.2.2.2))
    else if o.1 = 4 then
      if r.2.2 = o.2.2.1 then r.1.access (farWrite a o.2.2.2) else (r.1, 5, 0)
    else r

/-- The operations of a sequence in order, until one fails: the code, how many were completed, and the values of its READs.
[Log 108: DEDUCED] -/
def seqRun : List (Nat × Nat × Nat × Nat) → SeqAt → State × Nat × Nat × List Nat
  | [], x => (x.s, 0, 0, [])
  | o :: r, x =>
    let q := seqOp o x
    if q.2.1 ≠ 0 then (q.1.s, q.2.1, 0, [])
    else
      let rest := seqRun r q.1
      (rest.1, rest.2.1, rest.2.2.1 + 1, if o.1 = 1 then q.2.2 :: rest.2.2.2 else rest.2.2.2)

/-- The operations in a request's numbers, after its first five. -/
def seqOfBody : List Int → List (Nat × Nat × Nat × Nat)
  | a :: b :: c :: d :: r => (a.toNat, b.toNat, c.toNat, d.toNat) :: seqOfBody r
  | _ => []

/-- An access has not completed within 1 µs (R481). -/
def slowAccess (ns : List Nat) : Bool := ns.any (fun d => 1000 < d)

/-- What a request does on the register bus of the target: code, operations completed, data (R470, R475, R478, R482). `ns`: the
durations of its accesses (R481). [Log 108: DEDUCED] -/
def farExecute (ns : List Nat) (b : List Int) (s : State) : State × Nat × Nat × List Nat :=
  let n := fun (i : Nat) => (b.getD i 0).toNat
  let op := n 1
  let a := n 2
  let code := s.gw.farCheck a
  if s.gw.param Par.rmtServe = 0 then (s, 9, 0, [])
  else if op = 4 then seqRun (seqOfBody (b.drop 5)) { s := s, t := 0, ns := ns }
  else if code ≠ 0 then (s, code, 0, [])
  else if op = 3 && farSensitive a then (s, 1, 0, [])
  else if slowAccess ns then (s, 3, 0, [])
  else if op = 2 then (busWrite a (w32 (n 3)) s, 0, 0, [])
  else if op = 1 then
    let q := s.gw.busRead a
    (s.withGw q.1, 0, 0, [q.2.toNat])
  else if op = 3 then
    (s, 0, 0, (List.range 8).map (fun k => (s.gw.busRead (a / 32 * 32 + 4 * k)).2.toNat))
  else (s, 0, 0, [])

/-- An answer or report for the module a message came from: by the reach table, else by the port it came in on; to the
module itself it ends here. [Log 106: DEDUCED] -/
def Gw.sendBack (g : Gw) (x : Inbound) (typ : Nat) (body : List Int) : Gw :=
  let m : SideMsg := { cls := 2, typ := typ, dst := x.msg.src, src := g.chnAddr, hops := 4094, body := body }
  if x.msg.src = g.chnAddr then g.terminate x.port 0 m else g.sideSend ((g.routeTo x.msg.src).getD x.port) m

/-- The first waiting request (0) or broadcast (3) that has no earlier one of either kind from its initiator before it (R479). -/
def firstRmt (typ : Nat) (seen : List Nat) : List Inbound → Option (Inbound × List Inbound)
  | [] => none
  | x :: r =>
    let ours := x.msg.cls = 2 && (x.msg.typ = 0 || x.msg.typ = 3)
    if ours && x.msg.typ = typ && !seen.contains x.msg.src then some (x, r)
    else (firstRmt typ (if ours then x.msg.src :: seen else seen) r).map (fun q => (q.1, x :: q.2))

/-- That message, and the module without it. -/
def Gw.takeRmt (g : Gw) (typ : Nat) : Option (Inbound × Gw) :=
  (firstRmt typ [] g.chn.inbox).map (fun r => (r.1, { g with chn := { g.chn with inbox := r.2 } }))

/-- RMT_REQUEST_EXECUTE: the oldest request held is executed and answered (R469, R472, R478, R484). One that is refused before any
access does not count as executed. [Log 108: DEDUCED] -/
def farRequest (ns : List Nat) (s : State) : State :=
  match s.gw.takeRmt 0 with
  | none => s
  | some (x, g) =>
    let s := s.withGw g
    let b := x.msg.body
    let q := if s.gw.islOn 10 then farExecute ns b s else (s, 2, 0, [])
    let executed := q.2.1 ≠ 1 && q.2.1 ≠ 2 && q.2.1 ≠ 9 || q.2.2.1 ≠ 0
    let g := if executed then q.1.gw.bump Reg.rmtServedCnt else q.1.gw
    q.1.withGw (g.sendBack x 1 ([b.getD 0 0, Int.ofNat q.2.1, Int.ofNat q.2.2.1] ++ q.2.2.2.map Int.ofNat))

def execRmtRequestExecute (ns : List Nat) (s : State) : Host.Outcome State Fault Refusal :=
  answer (farRequest ns) s

/-- BCAST_RECEIVE: the oldest broadcast write is passed on through the other port and executed; what fails is reported
to the initiator's module (R451, R479, R483, R484). How long the access takes is a free value (R484). The module's own message
ends here. [Log 105: DEDUCED, 108: DEDUCED] -/
def bcastReceive (s : State) : State :=
  match s.gw.takeRmt 3 with
  | none => s
  | some (x, g) =>
    if x.msg.src = g.chnAddr && g.chnAddr ≠ 0 then s.withGw g
    else
      let ns := Config.accessTime g.free
      let g := g.draw.passOn x.port (1 - x.port) x.msg
      let n := fun (i : Nat) => (x.msg.body.getD i 0).toNat
      let code := if !g.islOn 10 then 2 else if g.param Par.rmtServe = 0 then 9
        else if g.farCheck (n 1) ≠ 0 then g.farCheck (n 1) else if 1000 < ns then 3 else 0
      if code ≠ 0 then
        s.withGw (g.sendBack x 2 [Int.ofNat code, Int.ofNat (n 1), Int.ofNat (n 0), 1])
      else
        let t := busWrite (n 1) (w32 (n 2)) (s.withGw g)
        t.withGw (t.gw.bump Reg.rmtServedCnt)

def execBcastReceive (s : State) : Host.Outcome State Fault Refusal := answer bcastReceive s

end Sys2Proof.Machine
end

