-- ==== Sys2Proof/Machine/Strata.lean ====
section
/-! DEFINITION. The commands of ordered admission, the sweeps, the composer and the accounted transmitter:
PENDING_CELLS_AVAILABLE, STRATA_ARRIVAL, FRAME_RELEASE, SEGMENT_CLOSE, AGEING_VISIT, VITRINE_VISIT,
COMPOSER_CYCLIC_EXPIRY, PDU_TRANSMISSION_EVENT, SIGNAL_TIMEOUT, ACCOUNTED_SELECTION, AGEING_SCRUB_VISIT. A command whose
event is not due has no effect. -/

namespace Sys2Proof.Machine

def execPendingCellsAvailable (f : Nat) (s : State) : Host.Outcome State Fault Refusal :=
  answer (onGw (fun g => g.resumeEngine f)) s

/-- The oldest delivered frame of a sub-source reaches Strata (R45). -/
def Gw.strataArrival (g : Gw) (f sub : Nat) : Gw :=
  match takeFirst (fun (x : Frame) => x.fport = f && x.sub = sub) g.str.inbound with
  | some (x, rest) => ({ g with str := { g.str with inbound := rest } }).arrive x
  | none => g

def execStrataArrival (f sub : Nat) (s : State) : Host.Outcome State Fault Refusal :=
  answer (onGw (fun g => g.strataArrival f sub)) s

/-- The release of the next frame, `ecc` naming entries found in error by its reads (R48, R145).
[Log 2: DESIGN CHOICE] -/
def frameRelease (ecc : List Nat) (s : State) : State :=
  match s.gw.readyPend s.dram with
  | some p => s.withGw (s.gw.release p ecc)
  | none => s

def execFrameRelease (ecc : List Nat) (s : State) : Host.Outcome State Fault Refusal := answer (frameRelease ecc) s

/-! ### The close of an old segment (R75–R78, R859) -/

/-- The old segment may close: H has elapsed since the step tick and everything of it up to the frontier, frames, events
and transmitters' decisions, has been dealt with (R75). -/
def Gw.mayClose (g : Gw) (dram : List Host.Cell) : Bool :=
  match g.str.closing with
  | some c =>
    (g.hNs * 2 ^ 40 : Int) ≤ Int.ofNat g.tb.dt40 - c.delta * 16777216 - c.oldDt &&
      g.str.pend.all (fun p => g.str.relSeg < p.key.seg || g.str.frontier < p.key.o) && (g.readyDue dram).isNone &&
      g.txSettled (g.str.frontier + 1)
  | none => false

/-- [Log 30: DEDUCED] -/
def Pdu.shift (p : Pdu) (d : Int) : Pdu :=
  { p with enable := p.enable + d, gapRef := p.gapRef + d, nextCyc := p.nextCyc.map (· + d), event := p.event.map (· + d) }

/-- A selection's stamps moved into segment `seg` (R859). -/
def Sel.shift (x : Sel) (d : Int) (seg : Nat) : Sel :=
  { x with start := x.start + d, dep := x.dep + d, launch := x.launch + d, seg := seg, ext := x.ext.map (fun r => (r.1 + d, r.2)) }

/-- [Log 30: DEDUCED] -/
def EgrPort.shift (e : EgrPort) (d : Int) (seg : Nat) (edge : Stamp) : EgrPort :=
  { e with idleFrom := e.idleFrom + d
           settled := e.settled + d
           lastResv := e.lastResv.map (fun r => (r.1 + d, r.2 + d))
           queued := e.queued.map (fun c => { c with admO := c.admO + d, cr := c.cr.map (· + d) })
           resv := e.resv.map (fun r => { r with start := r.start + d,
                                                 copy := { r.copy with admO := r.copy.admO + d, cr := r.copy.cr.map (· + d) } })
           cur := e.cur.map (fun x => x.shift d seg)
           credits := e.credits.map (fun k => (k.1, { k.2 with t := k.2.t + d }))
           creditFrom := e.creditFrom + d
           commit := (e.commit.map (fun k =>
             if edge ≤ k.at' + d then
               { k with at' := match k.bank with
                   | some i =>
                     let b := mgetD e.banks i {}
                     let n := -((8 * b.base - edge) / (8 * Int.ofNat b.cycle))
                     8 * b.base + n * (8 * Int.ofNat b.cycle)
                   | none => edge }
             else { k with at' := k.at' + d })).or e.later
           later := none }

/-- A frame that still waits when its segment closes: its order stamp lies ahead of the close, which only a re-injected
frame's can (R63), or it took F + 1 just before (R72). It moves with the step. [Log 31: DEDUCED] -/
def Pend.shift (p : Pend) (d : Int) (old : Nat) : Pend :=
  if p.key.seg ≤ old then { p with key := { p.key with o := p.key.o + d, seg := old + 1 } } else p

/-- Strata closes the old segment and goes on with the new one. Waiting internal events move by floor(8 × δ); changes
of the old segment become the first events of the new one (R78, R859). A gate commit not yet in effect takes effect at the first
start of its own cycles from the step tick on (R255). [Log 30: DEDUCED, 31: DEDUCED] -/
def Gw.closeSegment (g : Gw) (c : Closing) : Gw :=
  let seg := g.str.relSeg + 1
  let d := mgetD g.str.shift seg 0
  let edge : Stamp := (c.oldDt + c.delta * 16777216) * 8 / 2 ^ 40
  let str := { g.str with closing := none, relSeg := seg, frontier := g.now - 8 * Int.ofNat g.hNs,
                          pend := g.str.pend.map (fun p => p.shift d g.str.relSeg),
                          changes := g.str.changes.map (fun x => if x.seg ≤ g.str.relSeg then { x with first := true } else x) }
  let cat := { g.cat with ageOrigin := g.cat.ageOrigin + d, agePos := (g.cat.agePos.1 + d, g.cat.agePos.2),
                          vitOrigin := g.cat.vitOrigin + d, vitPos := (g.cat.vitPos.1 + d, g.cat.vitPos.2) }
  let rtr := { g.rtr with pdus := g.rtr.pdus.map (fun k => (k.1, k.2.shift d)),
                          slots := g.rtr.slots.map (fun k => (k.1, { k.2 with deadline := k.2.deadline.map (· + d) })) }
  { g with str := str, cat := cat, rtr := rtr,
           lin := g.lin.map (fun k => (k.1, { k.2 with nextSlot := k.2.nextSlot.map (· + d) }))
           egr := g.egr.map (fun k => (k.1, k.2.shift d seg edge))
           cal := { g.cal with rets := g.cal.rets.map (fun r => { r with dep := r.dep + d }) } }

def segmentClose (s : State) : State :=
  match s.gw.str.closing with
  | some c =>
    if s.gw.mayClose s.dram then
      let g := s.gw.settleAll (s.gw.str.frontier + 1)
      s.withGw (((List.range 16).foldl (fun (g : Gw) f => g.settleCredits f g.str.frontier) g).closeSegment c)
    else s
  | none => s

def execSegmentClose (s : State) : Host.Outcome State Fault Refusal := answer segmentClose s

/-! ### Internal events -/

/-- The ageing visit that is due (R173, R174). [Log 2: DESIGN CHOICE] -/
def ageingVisit (s : State) : State :=
  match (s.gw.readyDue s.dram).map Due.ev with
  | some (.ageing p i pos) =>
    let g := s.gw.ageEntry p i
    s.withGw { g with cat := { g.cat with agePos := (pos.1, pos.2 + 1) } }
  | _ => s

def execAgeingVisit (s : State) : Host.Outcome State Fault Refusal := answer ageingVisit s

/-- The vitrine visit that is due (R185, R186). [Log 2: DESIGN CHOICE] -/
def vitrineVisit (s : State) : State :=
  match (s.gw.readyDue s.dram).map Due.ev with
  | some (.vitrine p i pos) =>
    let g := s.gw.vitVisit s.dram p i
    s.withGw { g with cat := { g.cat with vitPos := (pos.1, pos.2 + 1) } }
  | _ => s

def execVitrineVisit (s : State) : Host.Outcome State Fault Refusal := answer vitrineVisit s

/-- The cyclic expiry that is due (R205). [Log 2: DESIGN CHOICE] -/
def composerCyclic (s : State) : State :=
  match s.gw.readyDue s.dram with
  | some d =>
    match d.ev with
    | .composer k =>
      match mget? s.gw.rtr.pdus k with
      | some p => s.withGw (s.gw.cyclicExpiry k p d.t)
      | none => s
    | _ => s
  | none => s

def execComposerCyclicExpiry (s : State) : Host.Outcome State Fault Refusal := answer composerCyclic s

/-- The transmission event that is due (R207, R208). [Log 2: DESIGN CHOICE] -/
def pduEvent (s : State) : State :=
  match s.gw.readyDue s.dram with
  | some d =>
    match d.ev with
    | .pduEvent k =>
      match mget? s.gw.rtr.pdus k with
      | some p => s.withGw (s.gw.transmitPdu k p d.t)
      | none => s
    | _ => s
  | none => s

def execPduTransmissionEvent (s : State) : Host.Outcome State Fault Refusal := answer pduEvent s

/-- The timeout that is due (R213). [Log 2: DESIGN CHOICE] -/
def signalTimeout (s : State) : State :=
  match s.gw.readyDue s.dram with
  | some d =>
    match d.ev with
    | .timeout n =>
      match mget? s.gw.rtr.slots n with
      | some ts => s.withGw (s.gw.expireTimeout n ts d.t)
      | none => s
    | _ => s
  | none => s

def execSignalTimeout (s : State) : Host.Outcome State Fault Refusal := answer signalTimeout s

/-! ### The accounted transmitter -/

/-- A visit of the scrubber to a queued copy whose fate is fixed: its age limit has passed at the frontier, and no decision
up to there is left that could still select it (R111). -/
def Gw.scrub (g : Gw) (f tag : Nat) : Gw :=
  let e := g.egrAt f
  match e.queued.find? (fun c => c.tag = tag) with
  | some c =>
    let lim := g.ageLimitUs f c.cls
    if lim ≠ 0 && !c.scrubbed &&
        g.translate c.frame.ing c.frame.ingSeg g.str.relSeg + Int.ofNat (8000 * lim) < g.str.frontier && g.txSettled (g.str.frontier + 1) then
      let g := g.setEgr f { e with queued := e.queued.map (fun x => if x.tag = tag then { x with scrubbed := true } else x) }
      (g.dropRefs f tag).unclaim c.fid
    else g
  | none => g

def execAgeingScrubVisit (f tag : Nat) (s : State) : Host.Outcome State Fault Refusal :=
  answer (onGw (fun g => g.scrub f tag)) s

end Sys2Proof.Machine
end

