-- ==== Sys2Proof/Machine/Dispatch.lean ====
section
/-! DEFINITION. The dispatch: one arm for each command, each a call of its meaning or a rejection by name. -/

namespace Sys2Proof.Machine

def exec (i : Instr) (s : State) : Host.Outcome State Fault Refusal :=
  match i with
  | .spiTransaction mosi => Sys2Proof.Machine.execSpiTransaction mosi s
  | .registerWrite off size value => Sys2Proof.Machine.execRegisterWrite off size value s
  | .rcRead off size => Sys2Proof.Machine.execRcRead off size s
  | .latchingLoRead off => Sys2Proof.Machine.execLatchingLoRead off s
  | .mbxDbRing m value => Sys2Proof.Machine.execMbxDbRing m value s
  | .mailboxTakeUp => Sys2Proof.Machine.execMailboxTakeUp s
  | .applyAtChange => Sys2Proof.Machine.execApplyAtChange s
  | .sysInfo m => Sys2Proof.Machine.execSysInfo m s
  | .sysRun m => Sys2Proof.Machine.execSysRun m s
  | .sysResetFirmware m => Sys2Proof.Machine.execSysResetFirmware m s
  | .sysResetFactory m => Sys2Proof.Machine.execSysResetFactory m s
  | .cfgParamRead m => Sys2Proof.Machine.execCfgParamRead m s
  | .cfgParamWrite m => Sys2Proof.Machine.execCfgParamWrite m s
  | .cfgImageInfo m => Sys2Proof.Machine.execCfgImageInfo m s
  | .catSearch m => Sys2Proof.Machine.execCatSearch m s
  | .catNext m => Sys2Proof.Machine.execCatNext m s
  | .catInsert m => Sys2Proof.Machine.execCatInsert m s
  | .catDelete m => Sys2Proof.Machine.execCatDelete m s
  | .catFlushPort m => Sys2Proof.Machine.execCatFlushPort m s
  | .catFlushPart m => Sys2Proof.Machine.execCatFlushPart m s
  | .flushRemovalDone n => Sys2Proof.Machine.execFlushRemovalDone n s
  | .sigPduSet m => Sys2Proof.Machine.execSigPduSet m s
  | .sigPduGet m => Sys2Proof.Machine.execSigPduGet m s
  | .sigAltSet m => Sys2Proof.Machine.execSigAltSet m s
  | .egrGateLoad m => Sys2Proof.Machine.execEgrGateLoad m s
  | .egrGateCommit m => Sys2Proof.Machine.execEgrGateCommit m s
  | .egrLeafMap m => Sys2Proof.Machine.execEgrLeafMap m s
  | .egrNodeWeight m => Sys2Proof.Machine.execEgrNodeWeight m s
  | .polFilterSet m => Sys2Proof.Machine.execPolFilterSet m s
  | .polMeterSet m => Sys2Proof.Machine.execPolMeterSet m s
  | .polGet m => Sys2Proof.Machine.execPolGet m s
  | .ethPortCtlAdmin m => Sys2Proof.Machine.execEthPortCtlAdmin m s
  | .ethPortCtlAnRestart m => Sys2Proof.Machine.execEthPortCtlAnRestart m s
  | .canRecover m => Sys2Proof.Machine.execCanRecover m s
  | .canOwnTake m => Sys2Proof.Machine.execCanOwnTake m s
  | .canOwnGive m => Sys2Proof.Machine.execCanOwnGive m s
  | .linTableStart m => Sys2Proof.Machine.execLinTableStart m s
  | .linTableStop m => Sys2Proof.Machine.execLinTableStop m s
  | .flxRun m => Sys2Proof.Machine.execFlxRun m s
  | .flxAllowColdstart m => Sys2Proof.Machine.execFlxAllowColdstart m s
  | .flxWakeup m => Sys2Proof.Machine.execFlxWakeup m s
  | .flxHalt m => Sys2Proof.Machine.execFlxHalt m s
  | .flxFreeze m => Sys2Proof.Machine.execFlxFreeze m s
  | .timeStatus m => Sys2Proof.Machine.execTimeStatus m s
  | .timeStep m => Sys2Proof.Machine.execTimeStep m s
  | .timeStepChain m => Sys2Proof.Machine.execTimeStepChain m s
  | .chnTopo m => Sys2Proof.Machine.execChnTopo m s
  | .chnRingFailover m => Sys2Proof.Machine.execChnRingFailover m s
  | .chnRingRestore m => Sys2Proof.Machine.execChnRingRestore m s
  | .rmtExec m => Sys2Proof.Machine.execRmtExec m s
  | .keyProvision m => Sys2Proof.Machine.execKeyProvision m s
  | .keyDerive m => Sys2Proof.Machine.execKeyDerive m s
  | .keyRevoke m => Sys2Proof.Machine.execKeyRevoke m s
  | .keyRootNew m => Sys2Proof.Machine.execKeyRootNew m s
  | .keyInfo m => Sys2Proof.Machine.execKeyInfo m s
  | .keyAttest m => Sys2Proof.Machine.execKeyAttest m s
  | .pwrSetOff m => Sys2Proof.Machine.execPwrSetOff m s
  | .pwrSetOn m => Sys2Proof.Machine.execPwrSetOn m s
  | .pwrSetPwm m => Sys2Proof.Machine.execPwrSetPwm m s
  | .pwrRestart m => Sys2Proof.Machine.execPwrRestart m s
  | .pwrProfile m => Sys2Proof.Machine.execPwrProfile m s
  | .pwrStatus m => Sys2Proof.Machine.execPwrStatus m s
  | .nmSleep m => Sys2Proof.Machine.execNmSleep m s
  | .nmStay m => Sys2Proof.Machine.execNmStay m s
  | .nmInsomnia m => Sys2Proof.Machine.execNmInsomnia m s
  | .nmWakeCause m => Sys2Proof.Machine.execNmWakeCause m s
  | .arcTrigger m => Sys2Proof.Machine.execArcTrigger m s
  | .arcAck m => Sys2Proof.Machine.execArcAck m s
  | .arcPlay m => Sys2Proof.Machine.execArcPlay m s
  | .arcPlayStop m => Sys2Proof.Machine.execArcPlayStop m s
  | .arcStatus m => Sys2Proof.Machine.execArcStatus m s
  | .updBegin m => Sys2Proof.Machine.execUpdBegin m s
  | .updBlock m => Sys2Proof.Machine.execUpdBlock m s
  | .updVerify m => Sys2Proof.Machine.execUpdVerify m s
  | .updActivate m => Sys2Proof.Machine.execUpdActivate m s
  | .updActivateConfig m => Sys2Proof.Machine.execUpdActivateConfig m s
  | .updAbort m => Sys2Proof.Machine.execUpdAbort m s
  | .updStatus m => Sys2Proof.Machine.execUpdStatus m s
  | .diagSelftest m pass us => Sys2Proof.Machine.execDiagSelftest m pass us s
  | .diagErrlog m => Sys2Proof.Machine.execDiagErrlog m s
  | .diagDebugUnlock m => Sys2Proof.Machine.execDiagDebugUnlock m s
  | .diagDebugLock m => Sys2Proof.Machine.execDiagDebugLock m s
  | .debugAutolock => Sys2Proof.Machine.execDebugAutolock s
  | .diagLastgasp m => Sys2Proof.Machine.execDiagLastgasp m s
  | .ethFrameReceive p rx => Sys2Proof.Machine.execEthFrameReceive p rx s
  | .tisFrameReceive p rx => Sys2Proof.Machine.execTisFrameReceive p rx s
  | .pendingCellsAvailable f => Sys2Proof.Machine.execPendingCellsAvailable f s
  | .strataArrival f sub => Sys2Proof.Machine.execStrataArrival f sub s
  | .frameRelease ecc => Sys2Proof.Machine.execFrameRelease ecc s
  | .segmentClose => Sys2Proof.Machine.execSegmentClose s
  | .ageingVisit => Sys2Proof.Machine.execAgeingVisit s
  | .vitrineVisit => Sys2Proof.Machine.execVitrineVisit s
  | .composerCyclicExpiry => Sys2Proof.Machine.execComposerCyclicExpiry s
  | .pduTransmissionEvent => Sys2Proof.Machine.execPduTransmissionEvent s
  | .signalTimeout => Sys2Proof.Machine.execSignalTimeout s
  | .accountedSelection f => Sys2Proof.Machine.execAccountedSelection f s
  | .ageingScrubVisit f tag => Sys2Proof.Machine.execAgeingScrubVisit f tag s
  | .stagedHandover f fault => Sys2Proof.Machine.execStagedHandover f fault s
  | .committedBufferCommit bus => Sys2Proof.Machine.execCommittedBufferCommit bus s
  | .aggregatorResume p => Sys2Proof.Machine.execAggregatorResume p s
  | .hdmaRxWaitExpiry r => Sys2Proof.Machine.execHdmaRxWaitExpiry r s
  | .macFrameStart x => Sys2Proof.Machine.execMacFrameStart x s
  | .pauseFrameSend p => Sys2Proof.Machine.execPauseFrameSend p s
  | .pauseRefresh p => Sys2Proof.Machine.execPauseRefresh p s
  | .pauseStopExpiry p => Sys2Proof.Machine.execPauseStopExpiry p s
  | .pauseWatchdog p => Sys2Proof.Machine.execPauseWatchdog p s
  | .pauseHoldEnd p => Sys2Proof.Machine.execPauseHoldEnd p s
  | .linkUp p rate => Sys2Proof.Machine.execLinkUp p rate s
  | .linkDownTimeout p => Sys2Proof.Machine.execLinkDownTimeout p s
  | .verifyFrameTimer p answered => Sys2Proof.Machine.execVerifyFrameTimer p answered s
  | .plcaBeaconLoss p => Sys2Proof.Machine.execPlcaBeaconLoss p s
  | .tisCollision p => Sys2Proof.Machine.execTisCollision p s
  | .hdmaTxTailWrite r value => Sys2Proof.Machine.execHdmaTxTailWrite r value s
  | .hdmaTxFetch r descs bufs => Sys2Proof.Machine.execHdmaTxFetch r descs bufs s
  | .hostInjection r => Sys2Proof.Machine.execHostInjection r s
  | .hdmaRxTailWrite r value bufs => Sys2Proof.Machine.execHdmaRxTailWrite r value bufs s
  | .hdmaRingEnWrite tx r value => Sys2Proof.Machine.execHdmaRingEnWrite tx r value s
  | .pcieDmaError tx r addr frame => Sys2Proof.Machine.execPcieDmaError tx r addr frame s
  | .intVackWrite value => Sys2Proof.Machine.execIntVackWrite value s
  | .tsqEnt0Read q => Sys2Proof.Machine.execTsqEnt0Read q s
  | .tsqEnt3Read q => Sys2Proof.Machine.execTsqEnt3Read q s
  | .canMbHdrRead c n host => Sys2Proof.Machine.execCanMbHdrRead c n host s
  | .canMbLastWordRead c n host => Sys2Proof.Machine.execCanMbLastWordRead c n host s
  | .canMbHdrWrite c n host value => Sys2Proof.Machine.execCanMbHdrWrite c n host value s
  | .canTxPendingWrite c n host value => Sys2Proof.Machine.execCanTxPendingWrite c n host value s
  | .canTxAbortReq c n host => Sys2Proof.Machine.execCanTxAbortReq c n host s
  | .canTxTtWrite c n host value => Sys2Proof.Machine.execCanTxTtWrite c n host value s
  | .canHctlRecWrite c => Sys2Proof.Machine.execCanHctlRecWrite c s
  | .canFrameReceive c sof eof frame => Sys2Proof.Machine.execCanFrameReceive c sof eof frame s
  | .sealVerify c bad => Sys2Proof.Machine.execSealVerify c bad s
  | .canTxStart c idle => Sys2Proof.Machine.execCanTxStart c idle s
  | .canTxDone c outcome => Sys2Proof.Machine.execCanTxDone c outcome s
  | .canErrorDetected c err => Sys2Proof.Machine.execCanErrorDetected c err s
  | .canRecoveryComplete c => Sys2Proof.Machine.execCanRecoveryComplete c s
  | .canCollision c => Sys2Proof.Machine.execCanCollision c s
  | .canTtColumn c k idle => Sys2Proof.Machine.execCanTtColumn c k idle s
  | .canTtReference c sent sof ref => Sys2Proof.Machine.execCanTtReference c sent sof ref s
  | .canTtRefTimeout c => Sys2Proof.Machine.execCanTtRefTimeout c s
  | .btmSyncTimer c => Sys2Proof.Machine.execBtmSyncTimer c s
  | .btmFollowWrite c => Sys2Proof.Machine.execBtmFollowWrite c s
  | .linSlotStart => Sys2Proof.Machine.execLinSlotStart s
  | .linHeaderStart l => Sys2Proof.Machine.execLinHeaderStart l s
  | .linFrameReceive l sof eof pid data check err => Sys2Proof.Machine.execLinFrameReceive l sof eof pid data check err s
  | .linResponse l pidEnd pid => Sys2Proof.Machine.execLinResponse l pidEnd pid s
  | .linNoResponse l h => Sys2Proof.Machine.execLinNoResponse l h s
  | .flxActionPoint channel slot point => Sys2Proof.Machine.execFlxActionPoint channel slot point s
  | .flxFrameReceive channel sof eof frame syntaxError => Sys2Proof.Machine.execFlxFrameReceive channel sof eof frame syntaxError s
  | .tbEpoch => Sys2Proof.Machine.execTbEpoch s
  | .distributionError miss => Sys2Proof.Machine.execDistributionError miss s
  | .incrApply => Sys2Proof.Machine.execIncrApply s
  | .stepApply => Sys2Proof.Machine.execStepApply s
  | .servoSample => Sys2Proof.Machine.execServoSample s
  | .holdoverQualityUpdate => Sys2Proof.Machine.execHoldoverQualityUpdate s
  | .sourceLoss src port => Sys2Proof.Machine.execSourceLoss src port s
  | .gptpMessage inst port m => Sys2Proof.Machine.execGptpMessage inst port m s
  | .gptpSyncTransmit inst => Sys2Proof.Machine.execGptpSyncTransmit inst s
  | .tevOutArm n value => Sys2Proof.Machine.execTevOutArm n value s
  | .tevOutSetCopy n => Sys2Proof.Machine.execTevOutSetCopy n s
  | .tevOutModeOff n value => Sys2Proof.Machine.execTevOutModeOff n value s
  | .tevOutEvent n => Sys2Proof.Machine.execTevOutEvent n s
  | .tevInEdge n rise phase => Sys2Proof.Machine.execTevInEdge n rise phase s
  | .tevInEnt0Read n => Sys2Proof.Machine.execTevInEnt0Read n s
  | .tevInEnt3Read n => Sys2Proof.Machine.execTevInEnt3Read n s
  | .ppsOutPulse => Sys2Proof.Machine.execPpsOutPulse s
  | .ppsInEdge rise phase => Sys2Proof.Machine.execPpsInEdge rise phase s
  | .ref10Edge phase => Sys2Proof.Machine.execRef10Edge phase s
  | .sideMessageReceive k m chunks ago => Sys2Proof.Machine.execSideMessageReceive k m chunks ago s
  | .chainTimeWordSend k => Sys2Proof.Machine.execChainTimeWordSend k s
  | .chainTimeWordReceive => Sys2Proof.Machine.execChainTimeWordReceive s
  | .timeWordEcho => Sys2Proof.Machine.execTimeWordEcho s
  | .chainCalibration k rxLat txLat => Sys2Proof.Machine.execChainCalibration k rxLat txLat s
  | .chainStepAnnounce => Sys2Proof.Machine.execChainStepAnnounce s
  | .blockAlignment k => Sys2Proof.Machine.execBlockAlignment k s
  | .alignmentLost k => Sys2Proof.Machine.execAlignmentLost k s
  | .chainPortFail k => Sys2Proof.Machine.execChainPortFail k s
  | .helloTimer => Sys2Proof.Machine.execHelloTimer s
  | .helloReceive => Sys2Proof.Machine.execHelloReceive s
  | .helloTimeout k => Sys2Proof.Machine.execHelloTimeout k s
  | .topologyAnnounceTimer => Sys2Proof.Machine.execTopologyAnnounceTimer s
  | .topologyAnnounceReceive => Sys2Proof.Machine.execTopologyAnnounceReceive s
  | .reachEntryTimeout addr => Sys2Proof.Machine.execReachEntryTimeout addr s
  | .ringFault => Sys2Proof.Machine.execRingFault s
  | .ringWtrExpiry => Sys2Proof.Machine.execRingWtrExpiry s
  | .rmtCmdRead n => Sys2Proof.Machine.execRmtCmdRead n s
  | .rmtCmdWrite n => Sys2Proof.Machine.execRmtCmdWrite n s
  | .rmtCmdReadLine n => Sys2Proof.Machine.execRmtCmdReadLine n s
  | .rmtCmdSeq n => Sys2Proof.Machine.execRmtCmdSeq n s
  | .rmtCmdBcast n => Sys2Proof.Machine.execRmtCmdBcast n s
  | .rmtDeferredSend n => Sys2Proof.Machine.execRmtDeferredSend n s
  | .rmtRequestExecute ns => Sys2Proof.Machine.execRmtRequestExecute ns s
  | .rmtResponseArrival => Sys2Proof.Machine.execRmtResponseArrival s
  | .rmtRdata0Read n => Sys2Proof.Machine.execRmtRdata0Read n s
  | .rmtHoldExpiry n => Sys2Proof.Machine.execRmtHoldExpiry n s
  | .rmtTimeout n => Sys2Proof.Machine.execRmtTimeout n s
  | .bcastReceive => Sys2Proof.Machine.execBcastReceive s
  | .farErrorReport => Sys2Proof.Machine.execFarErrorReport s
  | .rmtFerrEnt0Read => Sys2Proof.Machine.execRmtFerrEnt0Read s
  | .rmtFerrEnt2Read => Sys2Proof.Machine.execRmtFerrEnt2Read s
  | .updMessageReceive => Sys2Proof.Machine.execUpdMessageReceive s
  | .updRemoteTimeout m => Sys2Proof.Machine.execUpdRemoteTimeout m s
  | .cryQTailWrite q value => Sys2Proof.Machine.execCryQTailWrite q value s
  | .cryQEnClear q => Sys2Proof.Machine.execCryQEnClear q s
  | .cryRequestFetch q desc src aux => Sys2Proof.Machine.execCryRequestFetch q desc src aux s
  | .cryRequestComplete q k bad dmaErr => Sys2Proof.Machine.execCryRequestComplete q k bad dmaErr s
  | .keyPrivGo ctl data => Sys2Proof.Machine.execKeyPrivGo ctl data s
  | .trngHealthFail => Sys2Proof.Machine.execTrngHealthFail s
  | .tamperLoopOpen vaonOk => Sys2Proof.Machine.execTamperLoopOpen vaonOk s
  | .fvRxJournalTimer => Sys2Proof.Machine.execFvRxJournalTimer s
  | .playbackRecordFetch => Sys2Proof.Machine.execPlaybackRecordFetch s
  | .captureLostItem n => Sys2Proof.Machine.execCaptureLostItem n s
  | .arcCapD0Read n => Sys2Proof.Machine.execArcCapD0Read n s
  | .lockstepMismatch k lane => Sys2Proof.Machine.execLockstepMismatch k lane s
  | .inputSkew k persists => Sys2Proof.Machine.execInputSkew k persists s
  | .detectedErrorHandling kind detail island unit code => Sys2Proof.Machine.execDetectedErrorHandling kind detail island unit code s
  | .targetedTestComplete n pass => Sys2Proof.Machine.execTargetedTestComplete n pass s
  | .pairRestart k lanes => Sys2Proof.Machine.execPairRestart k lanes s
  | .pwrFailNFall => Sys2Proof.Machine.execPwrFailNFall s
  | .pwrFailNRise => Sys2Proof.Machine.execPwrFailNRise s
  | .dieLinkMessage ok us tj => Sys2Proof.Machine.execDieLinkMessage ok us tj s
  | .heartbeatSend us => Sys2Proof.Machine.execHeartbeatSend us s
  | .heartbeatLoss us => Sys2Proof.Machine.execHeartbeatLoss us s
  | .holdTimeout us => Sys2Proof.Machine.execHoldTimeout us s
  | .heartbeatReturn us => Sys2Proof.Machine.execHeartbeatReturn us s
  | .statusMessage us cur tj vbat temp => Sys2Proof.Machine.execStatusMessage us cur tj vbat temp s
  | .vbatUndervoltage us => Sys2Proof.Machine.execVbatUndervoltage us s
  | .vbatOvervoltage us => Sys2Proof.Machine.execVbatOvervoltage us s
  | .vbatReturn us => Sys2Proof.Machine.execVbatReturn us s
  | .powerDieReset us => Sys2Proof.Machine.execPowerDieReset us s
  | .currentLimitReached n us cur => Sys2Proof.Machine.execCurrentLimitReached n us cur s
  | .shortDetect n us => Sys2Proof.Machine.execShortDetect n us s
  | .thermalShutdown n us => Sys2Proof.Machine.execThermalShutdown n us s
  | .fuseStep us sq => Sys2Proof.Machine.execFuseStep us sq s
  | .blankingEnd n us low => Sys2Proof.Machine.execBlankingEnd n us low s
  | .limitEventEnd n us => Sys2Proof.Machine.execLimitEventEnd n us s
  | .restartTimer n us tj => Sys2Proof.Machine.execRestartTimer n us tj s
  | .retriesReload n us => Sys2Proof.Machine.execRetriesReload n us s
  | .openLoadTimer n us low => Sys2Proof.Machine.execOpenLoadTimer n us low s
  | .compUpdate us vbat => Sys2Proof.Machine.execCompUpdate us vbat s
  | .freezeEnd us => Sys2Proof.Machine.execFreezeEnd us s
  | .pwmPeriodStart n us => Sys2Proof.Machine.execPwmPeriodStart n us s
  | .keepaliveReceive => Sys2Proof.Machine.execKeepaliveReceive s
  | .keepaliveTimer => Sys2Proof.Machine.execKeepaliveTimer s
  | .nmDeadlineExpiry b => Sys2Proof.Machine.execNmDeadlineExpiry b s
  | .insomniaCheck => Sys2Proof.Machine.execInsomniaCheck s
  | .commitTick => Sys2Proof.Machine.execCommitTick s
  | .wakeSample pins phys => Sys2Proof.Machine.execWakeSample pins phys s
  | .wakeDecoderMatch d frame crcOk => Sys2Proof.Machine.execWakeDecoderMatch d frame crcOk s
  | .wakePin n => Sys2Proof.Machine.execWakePin n s
  | .t1sActivityWake n us => Sys2Proof.Machine.execT1sActivityWake n us s
  | .phyInterruptWake n => Sys2Proof.Machine.execPhyInterruptWake n s
  | .aonWakeStart => Sys2Proof.Machine.execAonWakeStart s
  | .porstN ns straps => Sys2Proof.Machine.execPorstN ns straps s
  | .srstN ns => Sys2Proof.Machine.execSrstN ns s
  | .pciePerstN ns => Sys2Proof.Machine.execPciePerstN ns s
  | .firmwareReset => Sys2Proof.Machine.execFirmwareReset s
  | .lckIslRst value => Sys2Proof.Machine.execLckIslRst value s
  | .islandStart n => Sys2Proof.Machine.execIslandStart n s
  | .railsGoodRelease => Sys2Proof.Machine.execRailsGoodRelease s
  | .railsTimeout => Sys2Proof.Machine.execRailsTimeout s
  | .bootRomStart fails trngGood => Sys2Proof.Machine.execBootRomStart fails trngGood s
  | .firmwareBoot passes => Sys2Proof.Machine.execFirmwareBoot passes s
  | .presenceAcquired => Sys2Proof.Machine.execPresenceAcquired s
  | .presenceLost => Sys2Proof.Machine.execPresenceLost s
  | .handoverEpoch => Sys2Proof.Machine.execHandoverEpoch s
  | .pairNewImageRun k good => Sys2Proof.Machine.execPairNewImageRun k good s
  | .healthyReport => Sys2Proof.Machine.execHealthyReport s
  | .healthTimeout => Sys2Proof.Machine.execHealthTimeout s
  | .updRomCtlGo value => Sys2Proof.Machine.execUpdRomCtlGo value s
  | .plcaBeaconReceive p => Sys2Proof.Machine.execPlcaBeaconReceive p s
  | .dieLinkAck => Sys2Proof.Machine.execDieLinkAck s
  | .dieLinkAckTimeout m => Sys2Proof.Machine.execDieLinkAckTimeout m s
  | .mkaPduReceive p sci prio pdu => Sys2Proof.Machine.execMkaPduReceive p sci prio pdu s
  | .mkaTimer p => Sys2Proof.Machine.execMkaTimer p s
  | .gptpAnnounceTimer inst => Sys2Proof.Machine.execGptpAnnounceTimer inst s
  | .gptpPdelayTimer inst => Sys2Proof.Machine.execGptpPdelayTimer inst s
  | .tevOutPulseEnd n => Sys2Proof.Machine.execTevOutPulseEnd n s
  | .switchedRailLoss => Sys2Proof.Machine.execSwitchedRailLoss s
  | .gateBankSwitch f => Sys2Proof.Machine.execGateBankSwitch f s
  | .aonCrystalTakeover => Sys2Proof.Machine.execAonCrystalTakeover s
  | .debuggerAccess k op => Sys2Proof.Machine.execDebuggerAccess k op s
  | .testModeChange level => Sys2Proof.Machine.execTestModeChange level s
  | .flxCycleEnd integrated synced limit => Sys2Proof.Machine.execFlxCycleEnd integrated synced limit s
  | .flxWakeupReceive channel => Sys2Proof.Machine.execFlxWakeupReceive channel s
  | .bar2Write addr bytes => Sys2Proof.Machine.execBar2Write addr bytes s
  | .journalRecordCommit => Sys2Proof.Machine.execJournalRecordCommit s

end Sys2Proof.Machine
end

