-- ==== Sys2Proof/Machine/Tick.lean ====
section
/-! DEFINITION. What the block does when no command waits: one tick of the timebase passes (R22, R23), the frontier
advances with it (R48), stage two of the fabric reads a cell for every output in its slot (R118, R120), PLCA coordinators send their BEACONs
(R274), FR0 ends its wakeup pattern, chain ports a chunk in each side block (R453), SYS_RUN is answered once the frontier has reached START (R585), and cells come back at the departure stamps that
the frontier has reached (R100). -/

namespace Sys2Proof.Machine

/-- Cells whose departure stamps the frontier has reached come back, once every transmitter's decision up to there has
been taken. [Log 3: DESIGN CHOICE] -/
def dueReturns (s : State) : State :=
  let g := s.gw
  let lim := g.txLimit s.dram
  if g.str.run && g.cal.rets.any (fun r => r.dep ≤ lim) && g.txSettled (lim + 1) then s.withGw (g.returnsUpTo lim) else s

/-- One tick of 2 ns. [Log 3: DESIGN CHOICE] -/
def tickStep (s : State) : State := dueReturns (s.withGw (s.gw.sideBlocks.tick.fabricSlot.beacons.flxWakeEnd.gptpAges.upstreamWatch.runReply))

/-- The step on an empty queue. [Log 3: DESIGN CHOICE] -/
def idle (s : State) : Host.Outcome State Fault Refusal := answer tickStep s

end Sys2Proof.Machine
end

