-- ==== Sys2Proof/Safety.lean ====
section
/-! DEFINITION. The terms in which statements about the Z96 are made: the state after an answer, what a reply leaves in
a mailbox, and what it means that registers, ports or islands are as they were. -/

namespace Sys2Proof.Machine

/-- The state after a command whose effect on the module is `g`: memory and queue as before, and the interrupt messages
and the INT_N change that `g` brings (R712, R713). -/
def State.after (s : State) (g : Gw) : State := { s with gw := s.gw.interrupts g }

/-- Mailbox `m` of `t` holds the reply to the request that stood in it in `s`: D 1, the request's CMD and SEQ, LEN, R, the
status, the payload words, state DONE and its bit of MBX_DONE (R545, R551, R552). -/
def replied (s t : State) (m status : Nat) (words : List Nat) (isRepeat : Bool) : Prop :=
  (t.gw.mbxAt m).st = .done ∧ t.gw.reqCode m = s.gw.reqCode m ∧ t.gw.reqSeq m = s.gw.reqSeq m ∧ t.gw.reqDir m = true ∧
    bit (t.gw.mbxWord m 0) 6 = isRepeat ∧ t.gw.reqLen m = words.length ∧ bits (t.gw.mbxWord m 1) 15 8 = status ∧
    bit (t.gw.regN (Reg.mbxDone (m / 32))) (m % 32) = true

/-- Every register outside a list reads as it did. -/
def regsKept (g h : Gw) (offs : List Nat) : Prop := ∀ o, o ∉ offs → h.reg o = g.reg o

/-- The registers that MSI-X messages of masked vectors change by themselves (R712). -/
def pba : List Nat := [Reg.msixPba 0, Reg.msixPba 1]

/-- Every register has its reset value. -/
def regsReset (g : Gw) : Prop := ∀ o, g.reg o = regReset o

/-- A whole received frame without a code, fragment or FCS error, of at least 64 bytes (checks 1 to 4 of R280). -/
def soundFrame (rx : EthRx) : Prop :=
  rx.pcsError = false ∧ rx.mcrcError = false ∧ rx.preemptable = false ∧ rx.bytes = withFcs (stripFcs rx.bytes) ∧
    64 ≤ rx.bytes.length

/-- Fabric port `f` can take a frame of `len` bytes towards Strata: its pipeline and the fabric run, and physical cells
and room in the port's allotment are free (R95, R108, R165, R760). -/
def Gw.roomFor (g : Gw) (f len : Nat) : Prop :=
  g.islOn (1 + pipeOf f) = true ∧ g.islOn 0 = true ∧ (g.freeCells (cellsOf len)).isSome = true ∧
    g.pendCells f + cellsOf len ≤ g.allotment f

end Sys2Proof.Machine
end

