-- ==== Sys2Proof/Certificates/Slice0/Obligations.lean ====
section
/-! DEFINITION. The statements for the provers. -/

open Sys2Proof Sys2Proof.Machine

/-- Commands that are mailbox-driven changes whatever their arguments, with their codes (R36). -/
def changeCommands (m : Nat) : List (Instr × Nat) :=
  [(.catSearch m, 0x0301), (.catNext m, 0x0302), (.catInsert m, 0x0303), (.catDelete m, 0x0304), (.catFlushPort m, 0x0305),
   (.catFlushPart m, 0x0306), (.sigPduSet m, 0x0401), (.sigPduGet m, 0x0402), (.sigAltSet m, 0x0403),
   (.egrLeafMap m, 0x0503), (.egrNodeWeight m, 0x0504), (.polFilterSet m, 0x0505), (.polMeterSet m, 0x0506),
   (.polGet m, 0x0507)]

/-- Registers whose write is a command of its own (doorbells, ring tails and enables, output set-up, key and crypto
queues, resets, remote slots); a write to any other register of the map acts by its access codes. -/
def plainBase (b : Nat) : Prop :=
  b ≠ Reg.mbxWord 0 ∧ b ≠ Reg.mbxDb 0 ∧ b ≠ Reg.msixCtl 0 ∧ b ≠ Reg.intVack ∧ b ≠ Reg.hdmaRxCtl 0 ∧
    b ≠ Reg.hdmaRxTail 0 ∧ ¬(Reg.tevOutCfg 0 ≤ b ∧ b ≤ Reg.tevOutCount 0) ∧ b ≠ Reg.cryQCtl 0 ∧ b ≠ Reg.lckIslRst ∧
    b ≠ Reg.rmtCmd 0 ∧ b ≠ Reg.updRomCtl

/-- A BAR0 offset outside the CAN windows and the CAN RAM. -/
def offWindows (off : Nat) : Prop :=
  ¬(0xC0000 ≤ off ∧ off < 0xE2000) ∧ ¬(0x190000 ≤ off ∧ off < 0x198000) ∧ ¬(0x400000 ≤ off ∧ off < 0x480000)

/-- A controller takes part in its bus with an idle transmitter and stamps for the two counter values. -/
def canReady (g : Gw) (c sof eof : Nat) (i a : Stamp × Nat) : Prop :=
  g.canLive c = true ∧ g.canStamp c sof = some i ∧ g.canStamp c eof = some a

/-- Caldera and the allotment of F13 take one more frame. -/
def roomAt13 (g : Gw) (x : Frame) : Prop :=
  (g.freeCells (cellsOf x.len)).isSome = true ∧ g.pendCells 13 + cellsOf x.len ≤ g.allotment 13

/-- A step runs the command at the front of the queue on the state with the queue's rest. (R34, R35) The model's own
choices in it: log entry 1. -/
def Obligations.StepRunsFrontCommand : Prop :=
  ∀ (c : Instr) (rest : List Instr) (s : State),
    Machine.step { s with pending := c :: rest } = Machine.exec c { s with pending := rest }

/-- On an empty queue a step lets one timebase tick pass (the model's choice, log entry 3). (R22, R394) -/
def Obligations.IdleStepIsOneTick : Prop :=
  ∀ (s : State), s.pending = [] → s.gw.islOn 12 = true → s.gw.tb.step = none → s.gw.tb.stepQueue = [] →
    s.gw.tb.incrNext = [] →
    ∃ t, Machine.step s = .next t ∧ t.pending = [] ∧ t.gw.tb.tick = s.gw.tb.tick + 1 ∧
      t.gw.tb.acc = s.gw.tb.acc + BitVec.ofNat 104 s.gw.tb.incr

/-- No command changes the queue of waiting commands. (R34) The model's own choices in it: log entry 1. -/
def Obligations.CommandsKeepTheQueue : Prop :=
  ∀ (c : Instr) (s t : State), Machine.exec c s = .next t → t.pending = s.pending

/-- Every command and every idle step answers a next state; nothing faults and nothing is refused. (R15, R34) The
model's own choices in it: log entries 2, 5. -/
def Obligations.NoCommandStopsTheModule : Prop :=
  ∀ (s : State), ∃ t, Machine.step s = .next t

/-- The DRAM list has its canonical form at reset. (R29, R702) The model's own choices in it: log entry 6. -/
def Obligations.DramFormAtReset : Prop :=
  dramWf State.reset.dram = true ∧ ∀ a, dramByte State.reset.dram a = 0

/-- Every step keeps the canonical form of DRAM. (R29, R702) The model's own choices in it: log entries 6, 7. -/
def Obligations.EveryStepKeepsDramForm : Prop :=
  ∀ (s t : State), dramWf s.dram = true → Machine.step s = .next t → dramWf t.dram = true

/-- A byte written to DRAM reads back, every other byte stays, and nothing is kept outside usable DRAM. (R29, R702)
The model's own choices in it: log entry 6. -/
def Obligations.DramReadAfterWrite : Prop :=
  ∀ (d : List Host.Cell) (a : Nat) (bs : List Byte),
    (∀ i, i < bs.length → a + i < dramSize → dramByte (dramWrite d a bs) (a + i) = bs.getD i 0) ∧
    (∀ b, b < a ∨ a + bs.length ≤ b ∨ dramSize ≤ b → dramByte (dramWrite d a bs) b = dramByte d b)

/-- The state at the release of PORST_N. (R21, R549, R800, R806) The model's own choices in it: log entries 6, 8, 10.
-/
def Obligations.ResetState : Prop :=
  regsReset State.reset.gw ∧ (∀ i, State.reset.gw.islOn i = decide (i = 15)) ∧
    (∀ m, State.reset.gw.mbxAt m = { st := .idle, taken := false, last := none }) ∧
    State.reset.gw.fw.state = .boot ∧ State.reset.gw.str.pend = [] ∧ State.reset.gw.str.changes = [] ∧
    State.reset.pending = [] ∧ State.reset.dram = [] ∧ State.reset.gw.aon.crystal = false ∧
    State.reset.gw.aon.pwrEn = true ∧ State.reset.gw.aon.released = false

/-- PORST_N acts from 1 µs, SRST_N and PCIE_PERST_N from 100 ns of low level; shorter pulses change nothing. (R807) -/
def Obligations.ShortResetPulsesIgnored : Prop :=
  (∀ (s : State) (ns straps : Nat), 1000 ≤ ns →
    ∃ t, Machine.exec (.porstN ns straps) s = .next t ∧ regsReset t.gw ∧ t.gw.fw.state = .boot) ∧
  (∀ (s : State) (ns straps : Nat), ns < 1000 → Machine.exec (.porstN ns straps) s = .next s) ∧
  (∀ (s : State) (ns : Nat), 100 ≤ ns →
    ∃ t, Machine.exec (.srstN ns) s = .next t ∧ regsReset t.gw ∧ t.gw.fw.state = .boot) ∧
  (∀ (s : State) (ns : Nat), ns < 100 → Machine.exec (.srstN ns) s = .next s) ∧
  (∀ (s : State) (ns : Nat), 100 ≤ ns →
    ∃ t, Machine.exec (.pciePerstN ns) s = .next t ∧
      ∀ o, inEndpoint o = true → o ∉ pba → t.gw.reg o = regReset o) ∧
  (∀ (s : State) (ns : Nat), ns < 100 → Machine.exec (.pciePerstN ns) s = .next s)

/-- What PORST_N, SRST_N, PCIE_PERST_N, a firmware reset and TEST_MODE reset and what they keep. (R564, R768, R802,
R803, R805, R806, R826) The model's own choices in it: log entries 7, 9, 145, 146. -/
def Obligations.ResetsKeepWhatTheyMust : Prop :=
  (∀ (s : State) (ns straps : Nat), 1000 ≤ ns →
    ∃ t, Machine.exec (.porstN ns straps) s = .next t ∧ (∀ i, t.gw.islOn i = decide (i = 15)) ∧ t.dram = [] ∧
      t.gw.flash = s.gw.flash ∧ t.gw.keys.banks = s.gw.keys.banks ∧ t.gw.keys.journal = s.gw.keys.journal ∧
      t.gw.aon.bootSel = straps % 4 ∧ t.gw.hostSpi = straps.testBit 2 ∧ t.gw.chn.role = straps / 8 % 4 ∧
      t.gw.aon.pdieKeep = straps.testBit 5 ∧ t.gw.fw.presence = false ∧
      (s.gw.pdie.keep = false → s.gw.partN = false → t.gw.pdie.chans = []) ∧ (s.gw.pdie.keep = true → t.gw.pdie.chans = s.gw.pdie.chans)) ∧
  (∀ (s : State) (ns : Nat), 100 ≤ ns →
    ∃ t, Machine.exec (.srstN ns) s = .next t ∧
      (∀ i, t.gw.islOn i = (decide (i = 15) ||
        (s.gw.aon.released && !s.gw.aon.testMode && (decide (i = 14) || decide (i = 10))))) ∧
      t.gw.flash = s.gw.flash ∧ t.gw.keys.banks = s.gw.keys.banks ∧ t.gw.keys.journal = s.gw.keys.journal ∧
      t.gw.aon = s.gw.aon ∧ t.gw.pdie = s.gw.pdie ∧ t.gw.hostSpi = s.gw.hostSpi ∧ t.gw.chn.role = s.gw.chn.role) ∧
  (∀ (s : State) (level : Bool), s.gw.aon.testMode ≠ level →
    ∃ t, Machine.exec (.testModeChange level) s = .next t ∧ regsReset t.gw ∧
      (∀ i, t.gw.islOn i = (decide (i = 15) ||
        (s.gw.aon.released && !level && (decide (i = 14) || decide (i = 10))))) ∧
      t.gw.aon = { s.gw.aon with testMode := level } ∧ t.gw.flash = s.gw.flash ∧ t.gw.pdie = s.gw.pdie) ∧
  (∀ (s : State) (k : Nat), s.gw.fw.resetAt = some k → k ≤ s.gw.tb.tick →
    ∃ t, Machine.exec .firmwareReset s = .next t ∧
      (∀ o, o ∉ pba → t.gw.reg o = if inEndpoint o then s.gw.reg o else regReset o) ∧
      (∀ i, t.gw.islOn i = (decide (i = 15) ||
        (s.gw.aon.released && !s.gw.aon.testMode && (decide (i = 14) || decide (i = 10))))) ∧
      t.gw.fw.state = .boot ∧ t.gw.flash = s.gw.flash ∧ t.gw.keys.journal = s.gw.keys.journal ∧
      t.gw.aon = s.gw.aon ∧ t.gw.pdie = s.gw.pdie) ∧
  (∀ (s : State) (ns : Nat), 100 ≤ ns →
    ∃ t os rs, Machine.exec (.pciePerstN ns) s = .next t ∧ t.gw = { s.gw with out := os, regs := rs } ∧
      (∀ o, inEndpoint o = false → t.gw.reg o = s.gw.reg o)) ∧
  (∀ (s : State), s.gw.aon.pwrEn = true → s.gw.aon.released = false → s.gw.aon.testMode = false →
    ∃ t, Machine.exec .railsGoodRelease s = .next t ∧ t.gw.aon.released = true ∧ t.gw.islOn 14 = true ∧ t.gw.islOn 10 = true) ∧
  (∀ (s : State), s.gw.aon.pwrEn = true → s.gw.aon.released = false → s.gw.aon.pwrTick + 3277 ≤ s.gw.aon.tick →
    ∃ t, Machine.exec .railsTimeout s = .next t ∧ t.gw.aon.pwrEn = false ∧ t.gw.aon.retryAt = some (s.gw.aon.tick + 32768)) ∧
  (∀ (s : State), s.gw.aon.released = true → s.gw.aon.asleep = false →
    ∃ t, Machine.exec .switchedRailLoss s = .next t ∧ t.gw.aon.released = false ∧ t.dram = [] ∧
      (∀ i, t.gw.islOn i = decide (i = 15)))

/-- Rails good or late or lost, the commit of sleep, the start after a wake, the crystal, and presence. (R564, R689,
R694, R768, R800, R802, R805) The model's own choices in it: log entries 7, 130, 147. -/
def Obligations.RailsSleepAndPresence : Prop :=
  (∀ (s : State), s.gw.aon.pwrEn = true → s.gw.aon.released = false → s.gw.aon.testMode = false →
    ∃ t, Machine.exec .railsGoodRelease s = .next t ∧ t.gw.aon = { s.gw.aon with released := true } ∧
      t.gw.islOn 14 = true ∧ t.gw.islOn 10 = true ∧ t.gw.boot = { s.gw.boot with stage := 1 } ∧
      (∀ i, i ≠ 14 → i ≠ 10 → t.gw.islOn i = s.gw.islOn i)) ∧
  (∀ (s : State), s.gw.aon.pwrEn = true → s.gw.aon.released = false → s.gw.aon.pwrTick + 3277 ≤ s.gw.aon.tick →
    Machine.exec .railsTimeout s = .next (s.after
      { s.gw with aon := { s.gw.aon with pwrEn := false, retryAt := some (s.gw.aon.tick + 32768) } })) ∧
  (∀ (s : State), s.gw.aon.released = true → s.gw.aon.asleep = false →
    ∃ t, Machine.exec .switchedRailLoss s = .next t ∧ t.dram = [] ∧ (∀ i, t.gw.islOn i = decide (i = 15)) ∧
      t.gw.aon = { s.gw.aon with released := false } ∧ t.gw.pdie = s.gw.pdie ∧ regsReset t.gw ∧
      t.gw.flash = s.gw.flash) ∧
  (∀ (s : State), s.gw.commitDue = true →
    ∃ t, Machine.exec .commitTick s = .next t ∧ t.dram = [] ∧ (∀ i, t.gw.islOn i = decide (i = 15)) ∧
      t.gw.pdie = { s.gw.pdie with keeper := true, hold := false, hbBack := false } ∧ .dieLink 9 [] ∈ t.gw.out ∧
      t.gw.log = [{ what := "sleep commit", at' := s.gw.now }] ∧ t.gw.aon.asleep = true ∧ t.gw.aon.armed = true ∧
      t.gw.aon.pwrEn = false ∧ t.gw.aon.released = false ∧ t.gw.aon.sleepTick = s.gw.aon.tick ∧
      t.gw.str.pend = [] ∧ t.gw.upd.session = none ∧ ∀ m, (t.gw.mbxAt m).st = .idle) ∧
  (∀ (s : State) (r : WakeRecord), s.gw.aon.asleep = true → s.gw.aon.waking = some r →
    Machine.exec .aonWakeStart s = .next (s.after
      { s.gw with
        aon := { s.gw.aon with
          record := r, waking := none, asleep := false, armed := false, pwrEn := true,
          pwrTick := s.gw.aon.tick }
        boot := { s.gw.boot with wake := true } })) ∧
  (∀ (s : State), Machine.exec .aonCrystalTakeover s =
    .next (s.after { s.gw with aon := { s.gw.aon with crystal := true } })) ∧
  (∀ (s : State), Machine.exec .presenceAcquired s =
    .next (s.after { s.gw with fw := { s.gw.fw with presence := true }, keys := { s.gw.keys with loopOpen := false } })) ∧
  (∀ (s : State), ∃ t, Machine.exec .presenceLost s = .next t ∧ t.gw.fw.presence = false ∧
    (s.gw.serving = false → t = s.after { s.gw with fw := { s.gw.fw with presence := false } }))

/-- A received Ethernet frame is checked in order, stamped, counted and delivered towards Strata. (R108, R194, R280,
R303, R314, R858) The model's own choices in it: log entries 15, 42. -/
def Obligations.EthernetReceive : Prop :=
  (∀ (s : State) (p : Nat) (rx : EthRx), s.gw.carries p = true → rx.verify = false → soundFrame rx → s.gw.secEn p = false →
    rx.bytes.length ≤ s.gw.maxFrame p → firstType (stripFcs rx.bytes) ≠ 0x8808 →
    s.gw.roomFor (macFabric p) rx.bytes.length →
    ∃ (x : Frame) (g : Gw),
      x = { fport := macFabric p, body := .eth rx.bytes, ing := rx.rawIngress - s.gw.rxLat p,
            ingSeg := s.gw.tb.seg - rx.ingSegBack, adm := s.gw.stampIn (macIsland p) rx.phase - s.gw.rxLat p,
            seg := s.gw.tb.seg, dpcp := bits (s.gw.pcfg (macFabric p)) 11 9 } ∧
      (s.gw.bump (Reg.ethRxOk p)).storeFrame x = some (g, { x with fid := s.gw.cal.nextFid }) ∧
      Machine.exec (.ethFrameReceive p rx) s = .next (s.after
        { g with str := { g.str with inbound := s.gw.str.inbound ++ [{ x with fid := s.gw.cal.nextFid }] } })) ∧
  (∀ (s : State) (p : Nat) (rx : EthRx), s.gw.carries p = true → rx.verify = false → rx.preemptable = false → rx.pcsError = true →
    Machine.exec (.ethFrameReceive p rx) s =
      .next (s.after ((s.gw.bump (Reg.ethRxPcs p)).flag (Reg.ethFlag p) 0x02000000))) ∧
  (∀ (s : State) (p : Nat) (rx : EthRx), s.gw.carries p = true → rx.verify = false → rx.preemptable = false → rx.pcsError = false →
    rx.bytes ≠ withFcs (stripFcs rx.bytes) →
    Machine.exec (.ethFrameReceive p rx) s =
      .next (s.after ((s.gw.bump (Reg.ethRxFcs p)).flag (Reg.ethFlag p) 0x02000000))) ∧
  (∀ (s : State) (p : Nat) (rx : EthRx), s.gw.carries p = true → rx.verify = false → s.gw.secEn p = false → rx.preemptable = false →
    rx.pcsError = false → rx.mcrcError = false → rx.bytes = withFcs (stripFcs rx.bytes) → 4 ≤ rx.bytes.length →
    rx.bytes.length < 64 →
    Machine.exec (.ethFrameReceive p rx) s =
      .next (s.after ((s.gw.bump (Reg.ethRxRunt p)).flag (Reg.ethFlag p) 0x02000000))) ∧
  (∀ (s : State) (p : Nat) (rx : EthRx), s.gw.carries p = true → rx.verify = false → s.gw.secEn p = false → soundFrame rx →
    s.gw.maxFrame p < rx.bytes.length →
    Machine.exec (.ethFrameReceive p rx) s =
      .next (s.after ((s.gw.bump (Reg.ethRxOver p)).flag (Reg.ethFlag p) 0x02000000))) ∧
  (∀ (s : State) (p : Nat) (rx : EthRx), s.gw.carries p = true → rx.verify = false → soundFrame rx → s.gw.secEn p = false →
    rx.bytes.length ≤ s.gw.maxFrame p → firstType (stripFcs rx.bytes) ≠ 0x8808 →
    s.gw.islOn (1 + pipeOf (macFabric p)) = true → s.gw.islOn 0 = true →
    (s.gw.freeCells (cellsOf rx.bytes.length)).isSome = true →
    s.gw.allotment (macFabric p) < s.gw.pendCells (macFabric p) + cellsOf rx.bytes.length →
    Machine.exec (.ethFrameReceive p rx) s = .next (s.after
      { ((s.gw.bump (Reg.ethRxOk p)).bump Reg.catLagdropCnt).flag Reg.catFlag 0x40000000 with
        undefEgress := 0xFF003FFFFF }))

/-- S ports: frames received, tagged frames dropped, collisions, beacons, copies taken and sent. (R274, R275, R276,
R277, R278, R279) The model's own choices in it: log entries 34, 41, 47, 168. -/
def Obligations.TisReceiveAndPlca : Prop :=
  (∀ (s : State) (p : Nat) (rx : EthRx), s.gw.tisOn p = true → soundFrame rx → rx.bytes.length ≤ 1518 →
    firstType (stripFcs rx.bytes) ≠ 0x8808 → hasTag (stripFcs rx.bytes) = false →
    ∀ bytes, bytes = (if s.gw.tisVid p = 0 then rx.bytes
        else withFcs (insertTag (stripFcs rx.bytes) (s.gw.tisPcp p) (s.gw.tisVid p))) →
      s.gw.roomFor 12 bytes.length →
      ∃ (x : Frame) (g : Gw),
        x = { fport := 12, sub := p, body := .eth bytes, ing := rx.rawIngress, ingSeg := s.gw.tb.seg - rx.ingSegBack,
              adm := s.gw.stampIn 8 rx.phase, seg := s.gw.tb.seg, dpcp := s.gw.tisPcp p } ∧
        ((s.gw.tisBusy p rx.bytes.length false).bump (Reg.tisRxOk p)).storeFrame x =
          some (g, { x with fid := s.gw.cal.nextFid }) ∧
        Machine.exec (.tisFrameReceive p rx) s = .next (s.after
          { g with str := { g.str with inbound := s.gw.str.inbound ++ [{ x with fid := s.gw.cal.nextFid }] } })) ∧
  (∀ (s : State) (p : Nat) (rx : EthRx), s.gw.tisOn p = true → soundFrame rx → rx.bytes.length ≤ 1518 →
    firstType (stripFcs rx.bytes) ≠ 0x8808 → hasTag (stripFcs rx.bytes) = true →
    Machine.exec (.tisFrameReceive p rx) s = .next (s.after ((s.gw.tisBusy p rx.bytes.length false).bump (Reg.tisTagDropCnt p)))) ∧
  (∀ (s : State) (p : Nat) (rx : EthRx), s.gw.tisOn p = true → rx.bytes ≠ withFcs (stripFcs rx.bytes) →
    Machine.exec (.tisFrameReceive p rx) s = .next (s.after ((s.gw.tisBusy p rx.bytes.length false).bump (Reg.tisRxErr p)))) ∧
  (∀ (s : State) (p : Nat) (b : List Byte × Option Nat) (r : List (List Byte × Option Nat)), s.gw.tisOn p = true →
    (s.gw.tisAt p).buffer = b :: r → (s.gw.tisAt p).attempts + 1 < bits (s.gw.tisCfg p) 20 16 →
    Machine.exec (.tisCollision p) s = .next (s.after ((s.gw.bump (Reg.tisColCnt p)).setTis p
      { s.gw.tisAt p with attempts := (s.gw.tisAt p).attempts + 1 }))) ∧
  (∀ (s : State) (p : Nat) (b : List Byte × Option Nat) (r : List (List Byte × Option Nat)), s.gw.tisOn p = true →
    (s.gw.tisAt p).buffer = b :: r → bits (s.gw.tisCfg p) 20 16 ≤ (s.gw.tisAt p).attempts + 1 →
    ∃ t, Machine.exec (.tisCollision p) s = .next t ∧
      t.gw.tisAt p = { s.gw.tisAt p with buffer := r, attempts := 0 } ∧
      t.gw.regN (Reg.tisExcolCnt p) = satAdd (s.gw.regN (Reg.tisExcolCnt p)) 1 ∧
      (s.gw.str.run = true → bit t.gw.undefEgress (32 + p) = true)) ∧
  (∀ (s : State) (p : Nat), s.gw.tisOn p = true → s.gw.plcaFollower p = true → (s.gw.tisAt p).fallback = false →
    (s.gw.tisAt p).lastBeacon + 4 * ticksPerMs ≤ s.gw.tb.tick →
    Machine.exec (.plcaBeaconLoss p) s = .next (s.after ((s.gw.setTis p
      { s.gw.tisAt p with fallback := true, beacon := false }).bump (Reg.tisBcnLossCnt p)))) ∧
  (∀ (s : State) (p : Nat), s.gw.tisOn p = true → s.gw.plcaFollower p = true →
    Machine.exec (.plcaBeaconReceive p) s = .next (s.after (s.gw.setTis p
      { s.gw.tisAt p with fallback := false, beacon := true, lastBeacon := s.gw.tb.tick, sent := 0 }))) ∧
  (∀ (s : State) (p : Nat) (w : Sel) (rest : List Sel) (bs : List Byte), s.gw.islOn 0 = true →
    s.gw.islOn (stampIsland 12) = true → (s.gw.egrAt 12).selected = w :: rest → w.copy.frame.body = .eth bs →
    (s.gw.egrAt 12).headStaged = true → s.gw.badCell w.copy.fid none = none →
    s.gw.tisTargets bs = [p] → s.gw.tisRoom bs = true →
    ∃ out, out = (if s.gw.tisVid p = 0 then stripFcs bs else removeTag (stripFcs bs)) ∧
      Machine.exec (.aggregatorResume p) s = .next (s.after
        (((s.gw.setEgr 12 (s.gw.egrAt 12).leaveStage).unclaim w.copy.fid).setTis p
          { s.gw.tisAt p with
            buffer := (s.gw.tisAt p).buffer ++
              [(withFcs (out ++ List.replicate (60 - out.length) 0), w.copy.frame.fwTag)] }))) ∧
  (∀ (s : State) (p : Nat) (bs : List Byte) (r : List (List Byte × Option Nat)), s.gw.tisMaySend p = true →
    (s.gw.tisAt p).buffer = (bs, none) :: r → bit s.gw.undefEgress 12 = false →
    bit s.gw.undefEgress (32 + p) = false →
    ∀ bad, Machine.exec (.macFrameStart ⟨14 + p, bad⟩) s = .next (s.after ((((s.gw.setTis p
      { s.gw.tisAt p with buffer := r, attempts := 0, sent := (s.gw.tisAt p).sent + 1 }).tisBusy p bs.length
        ((s.gw.tisAt p).sent + 1 ≤ bits (s.gw.tisCfg p) 39 32)).bump (Reg.tisTxOk p)).emit
        (.tisFrame p bs))))

/-- Pause control, link changes and preemption verification act on their port and nothing else. (R291, R292, R293,
R271, R272, R273, R285) The model's own choices in it: log entries 2, 44, 45. -/
def Obligations.PauseLinkAndVerify : Prop :=
  (∀ (s : State) (p : Nat) (off : Bool) (rest : List Bool) (t : Stamp), (s.gw.ethAt p).xoffQueue = off :: rest →
    s.gw.pauseTx p = true → s.gw.linkUp p = true →
    t = max (s.gw.ethAt p).wireFree (s.gw.now + s.gw.txLat p) → t - s.gw.txLat p ≤ s.gw.nowLast →
    Machine.exec (.pauseFrameSend p) s = .next (s.after (((s.gw.setEth p
      { s.gw.ethAt p with
        xoffQueue := rest
        refreshAt := if off then some (t - s.gw.txLat p + Int.ofNat (s.gw.bitTime p (512 * bits (s.gw.param (Par.ethPause p)) 15 0)))
          else none
        wireFree := t + Int.ofNat (s.gw.wireTime p t 84) }).bump (Reg.ethTxPause p)).emit
        (.ethControl p (withFcs (s.gw.pauseFrame p (if off then bits (s.gw.param (Par.ethPause p)) 31 16 else 0))))))) ∧
  (∀ (s : State) (p : Nat) (r t : Stamp), (s.gw.ethAt p).refreshAt = some r → r ≤ s.gw.nowLast →
    bit s.gw.cal.xoff p = true → s.gw.pauseTx p = true → s.gw.linkUp p = true →
    t = max (s.gw.ethAt p).wireFree (max s.gw.now r + s.gw.txLat p) → t - s.gw.txLat p ≤ s.gw.nowLast →
    ∃ u, Machine.exec (.pauseRefresh p) s = .next u ∧
      .ethControl p (withFcs (s.gw.pauseFrame p (bits (s.gw.param (Par.ethPause p)) 31 16))) ∈ u.gw.out ∧
      u.gw.ethAt p = { s.gw.ethAt p with
        refreshAt := some (t - s.gw.txLat p + Int.ofNat (s.gw.bitTime p (512 * bits (s.gw.param (Par.ethPause p)) 15 0)))
        wireFree := t + Int.ofNat (s.gw.wireTime p t 84) }) ∧
  (∀ (s : State) (p : Nat) (u : Stamp), (s.gw.ethAt p).pauseUntil = some u → u ≤ s.gw.nowLast →
    Machine.exec (.pauseStopExpiry p) s = .next (s.after (s.gw.setEth p
      { s.gw.ethAt p with
        pauseUntil := none
        pauseSince := none
        wireFree := max (s.gw.ethAt p).wireFree (u + s.gw.txLat p) }))) ∧
  (∀ (s : State) (p : Nat) (u b t : Stamp), (s.gw.ethAt p).pauseUntil = some u → (s.gw.ethAt p).pauseSince = some b →
    t = b + 8000 * Int.ofNat (bits (s.gw.param (Par.ethPwd p)) 25 16) → t ≤ s.gw.nowLast → t ≤ u →
    ∃ v, Machine.exec (.pauseWatchdog p) s = .next v ∧
      v.gw.ethAt p = { s.gw.ethAt p with
        pauseUntil := none
        pauseSince := none
        wireFree := max (s.gw.ethAt p).wireFree (t + s.gw.txLat p)
        ignoreUntil := some (t + 8000 * Int.ofNat (bits (s.gw.param (Par.ethPwd p)) 15 0)) } ∧
      (p < 12 → v.gw.regN (Reg.ethPauseWd p) = satAdd (s.gw.regN (Reg.ethPauseWd p)) 1 ∧
        bit (v.gw.regN (Reg.ethFlag p)) 29 = true)) ∧
  (∀ (s : State) (p : Nat) (u : Stamp), (s.gw.ethAt p).ignoreUntil = some u → u ≤ s.gw.nowLast →
    Machine.exec (.pauseHoldEnd p) s = .next (s.after (s.gw.setEth p { s.gw.ethAt p with ignoreUntil := none }))) ∧
  (∀ (s : State) (p rate : Nat), p < 12 → s.gw.islOn (macIsland p) = true → (s.gw.ethAt p).adminDown = false →
    (s.gw.ethAt p).link = false → s.gw.ethMode p ≠ 0 → (s.gw.anEn p = false ∨ rate = s.gw.lineRate p) →
    Machine.exec (.linkUp p rate) s = .next (s.after (s.gw.setEth p
      { s.gw.ethAt p with
        link := true
        rateErr := false
        verify := if s.gw.preEn p && s.gw.verifyEn p then 1 else 0
        verifySent := 0
        verifyAt := s.gw.tb.tick }))) ∧
  (∀ (s : State) (p rate : Nat), p < 12 → s.gw.islOn (macIsland p) = true → (s.gw.ethAt p).adminDown = false →
    s.gw.ethMode p ≠ 0 → s.gw.anEn p = true → rate ≠ s.gw.lineRate p →
    ∃ t, Machine.exec (.linkUp p rate) s = .next t ∧ (t.gw.ethAt p).link = false ∧ (t.gw.ethAt p).rateErr = true ∧
      bit (t.gw.regN (Reg.ethFlag p)) 31 = true) ∧
  (∀ (s : State) (p : Nat), p < 12 → s.gw.islOn (macIsland p) = true → (s.gw.ethAt p).link = true →
    ∃ t, Machine.exec (.linkDownTimeout p) s = .next t ∧
      t.gw.ethAt p = { s.gw.ethAt p with
        link := false
        verifySent := 0
        onWire := none
        pauseUntil := none
        pauseSince := none } ∧
      bit (t.gw.regN (Reg.ethFlag p)) 30 = true ∧ (s.gw.str.run = true → bit t.gw.undefEgress p = true) ∧
      (s.gw.str.run = false → t.gw.undefEgress = s.gw.undefEgress) ∧ (∀ q, q ≠ p → t.gw.ethAt q = s.gw.ethAt q)) ∧
  (∀ (s : State) (p : Nat) (answered : Bool), s.gw.linkUp p = true → s.gw.preEn p = true → s.gw.verifyEn p = true →
    (s.gw.ethAt p).verify = 1 → (answered = false ∨ (s.gw.ethAt p).verifySent = 0) → (s.gw.ethAt p).verifySent < 3 →
    (s.gw.ethAt p).verifyAt ≤ s.gw.tb.tick →
    Machine.exec (.verifyFrameTimer p answered) s = .next (s.after ((s.gw.setEth p
      { s.gw.ethAt p with
        verifySent := (s.gw.ethAt p).verifySent + 1
        verifyAt := s.gw.tb.tick + s.gw.param (Par.ethVerify p) * ticksPerMs }).emit
      (.ethControl p (verifyFrame false))))) ∧
  (∀ (s : State) (p : Nat), s.gw.linkUp p = true → s.gw.preEn p = true → s.gw.verifyEn p = true →
    (s.gw.ethAt p).verify = 1 → 1 ≤ (s.gw.ethAt p).verifySent →
    Machine.exec (.verifyFrameTimer p true) s = .next (s.after (s.gw.setEth p { s.gw.ethAt p with verify := 2 }))) ∧
  (∀ (s : State) (p : Nat), s.gw.linkUp p = true → s.gw.preEn p = true → s.gw.verifyEn p = true →
    (s.gw.ethAt p).verify = 1 → 3 ≤ (s.gw.ethAt p).verifySent → (s.gw.ethAt p).verifyAt ≤ s.gw.tb.tick →
    Machine.exec (.verifyFrameTimer p false) s = .next (s.after ((s.gw.setEth p
      { s.gw.ethAt p with verify := 3 }).flag (Reg.ethFlag p) 0x10000000))) ∧
  (∀ (s : State) (p : Nat) (rx : EthRx), s.gw.carries p = true → rx.verify = true →
    Machine.exec (.ethFrameReceive p rx) s = .next (s.after
      (if s.gw.preEn p then s.gw.emit (.ethControl p (verifyFrame true)) else s.gw)))

/-- Frames leave their staging buffer in order, start on the wire, and their timestamps are read. (R121, R123, R243,
R281, R282, R305, R309, R310, R317) The model's own choices in it: log entries 2, 34, 40, 46. -/
def Obligations.LaunchAndTimestamps : Prop :=
  (∀ (s : State) (f : Nat) (w : Sel) (rest : List Sel), f < 22 → s.gw.islOn 0 = true →
    s.gw.islOn (stampIsland f) = true → wirePort f = true → (s.gw.egrAt f).selected = w :: rest →
    (s.gw.egrAt f).headStaged = true → ∀ flip bad, s.gw.badCell w.copy.fid flip = none →
    (s.gw.egrAt f).leaveStage.selected = rest ∧
    Machine.exec (.stagedHandover f ⟨flip, bad⟩) s = .next (s.after
      ((s.gw.setEgr f (s.gw.egrAt f).leaveStage).setEth (macIndex f)
        { s.gw.ethAt (macIndex f) with jobs := (s.gw.ethAt (macIndex f)).jobs ++ [{ sel := w, staged := s.gw.now }] }))) ∧
  (∀ (s : State) (f i cell : Nat) (w : Sel) (rest : List Sel), f < 16 → s.gw.islOn 0 = true →
    (s.gw.egrAt f).selected = w :: rest → (s.gw.egrAt f).headStaged = true → w.copy.frame.tsTag = none →
    ∀ flip bad, s.gw.badCell w.copy.fid flip = some (i, cell) →
    ∃ t, Machine.exec (.stagedHandover f ⟨flip, bad⟩) s = .next t ∧ (t.gw.egrAt f).selected = rest ∧
      t.gw.regN Reg.fabCalCrcCnt = satAdd (s.gw.regN Reg.fabCalCrcCnt) 1 ∧
      bit (t.gw.regN Reg.fabCalFlag) 31 = true ∧ t.gw.eth = s.gw.eth ∧
      t.gw.detected = s.gw.detected ++
        [{ kind := 4, detail := f * 2 ^ 23 + i % 32 * 2 ^ 18 + cell % 262144, island := 0,
           unit := 0x100 + cell % 262144 / 16384 }]) ∧
  (∀ (s : State) (p : Nat) (j : MacJob) (rest : List MacJob) (t : Stamp) (bs : List Byte), p < 14 →
    (s.gw.ethAt p).jobs = j :: rest → s.gw.carries p = true → (s.gw.ethAt p).xoffQueue = [] → s.gw.secEn p = false →
    t = max (s.gw.planned j.sel) (j.staged + s.gw.txLat p) → (s.gw.ethAt p).wireFree ≤ t →
    t - s.gw.txLat p ≤ s.gw.nowLast → s.gw.pauseHolds p t = false →
    bs = s.gw.txBytes p j.sel.copy.frame.body.bytes → bs.length + 4 ≤ s.gw.maxFrame p → j.sel.reserved = false →
    j.sel.copy.frame.tsTag = none → j.sel.copy.frame.fwTag = none → bit s.gw.undefEgress (macFabric p) = false →
    ∀ bad, ∃ u, Machine.exec (.macFrameStart ⟨p, bad⟩) s = .next u ∧ .ethFrame p t (withFcs bs) ∈ u.gw.out ∧
      u.gw.ethAt p = { s.gw.ethAt p with
        jobs := rest
        wireFree := t + Int.ofNat (s.gw.wireTime p t ((withFcs bs).length + 20))
        onWire := some { j.sel with launch := t, ext := [] }
        wireLen := (withFcs bs).length } ∧
      u.gw.cal = (s.gw.unclaim j.sel.copy.fid).cal ∧
      (∀ q, q ≠ p → u.gw.ethAt q = s.gw.ethAt q) ∧ u.gw.egr = s.gw.egr ∧ u.gw.str = s.gw.str) ∧
  (∀ (s : State) (p : Nat) (j : MacJob) (rest : List MacJob), p < 14 → s.gw.islOn (macIsland p) = true →
    (s.gw.ethAt p).jobs = j :: rest → s.gw.carries p = false → (s.gw.launchAt p j).1 - s.gw.txLat p ≤ s.gw.nowLast →
    j.sel.copy.frame.tsTag = none →
    ∀ bad, Machine.exec (.macFrameStart ⟨p, bad⟩) s = .next (s.after ((((s.gw.setEth p
      { s.gw.ethAt p with jobs := rest }).bump (Reg.ethTxLinkdn p)).flag (Reg.ethFlag p) 0x40000000).unclaim
        j.sel.copy.fid))) ∧
  (∀ (s : State) (p : Nat) (j : MacJob) (rest : List MacJob), p < 14 → s.gw.carries p = true →
    (s.gw.ethAt p).xoffQueue = [] → (s.gw.ethAt p).jobs = j :: rest →
    (s.gw.launchAt p j).1 - s.gw.txLat p ≤ s.gw.nowLast → s.gw.pauseHolds p (s.gw.launchAt p j).1 = false →
    s.gw.maxFrame p < (s.gw.txBytes p j.sel.copy.frame.body.bytes).length + 4 → j.sel.copy.frame.tsTag = none →
    ∀ bad, Machine.exec (.macFrameStart ⟨p, bad⟩) s = .next (s.after (((s.gw.setEth p
      { s.gw.ethAt p with jobs := rest }).bump (Reg.ethTxOver p)).unclaim j.sel.copy.fid))) ∧
  (∀ (s : State) (q : Nat), q < 14 → s.gw.islOn (macIsland q) = true →
    Machine.exec (.tsqEnt0Read q) s = .next (s.after ((s.gw.setEth q
      { s.gw.ethAt q with
        tsLatched := tsWords q (s.gw.ethAt q).tsq.head?
        tsArmed := !(s.gw.ethAt q).tsq.isEmpty }).emit
        (.readData (Reg.tsqEnt0 q) (w32 ((tsWords q (s.gw.ethAt q).tsq.head?).getD 0 0)))))) ∧
  (∀ (s : State) (q : Nat), q < 14 → s.gw.islOn (macIsland q) = true → (s.gw.ethAt q).tsArmed = true →
    Machine.exec (.tsqEnt3Read q) s = .next (s.after ((s.gw.setEth q
      { s.gw.ethAt q with tsArmed := false, tsq := (s.gw.ethAt q).tsq.drop 1 }).emit
        (.readData (Reg.tsqEnt3 q) (w32 ((s.gw.ethAt q).tsLatched.getD 3 0))))))

/-- A frame reaches Strata with its order key and count, in time or as an overrun; an engine resumes once it has room.
(R43, R45, R71, R72, R97, R585) The model's own choices in it: log entries 31, 164, 166. -/
def Obligations.ArrivalAtStrata : Prop :=
  (∀ (s : State) (f sub : Nat) (x : Frame) (rest : List Frame),
    takeFirst (fun (y : Frame) => y.fport = f && y.sub = sub) s.gw.str.inbound = some (x, rest) →
    s.gw.str.run = true → x.parent = none → s.gw.isExpress x = false → x.seg = s.gw.str.relSeg →
    s.gw.str.startSeg ≤ x.seg → s.gw.str.startStamp ≤ x.adm → x.adm ≤ s.gw.now + 8000000 →
    s.gw.orderNow ≤ x.adm + 8 * Int.ofNat s.gw.hNs →
    Machine.exec (.strataArrival f sub) s = .next (s.after { s.gw with str := { s.gw.str with
      inbound := rest
      counts := mput s.gw.str.counts (64 * x.fport + x.sub)
        ((mgetD s.gw.str.counts (64 * x.fport + x.sub) 0 + 1) % 16777216) 0
      pend := s.gw.str.pend ++ [{ frame := x, key := ⟨x.seg, x.adm, x.fport,
        [x.sub, mgetD s.gw.str.counts (64 * x.fport + x.sub) 0]⟩ }] } })) ∧
  (∀ (s : State) (f sub : Nat) (x : Frame) (rest : List Frame),
    takeFirst (fun (y : Frame) => y.fport = f && y.sub = sub) s.gw.str.inbound = some (x, rest) →
    s.gw.str.run = true → x.parent = none → s.gw.isExpress x = false → x.seg = s.gw.str.relSeg →
    s.gw.str.startSeg ≤ x.seg → s.gw.str.startStamp ≤ x.adm → x.adm ≤ s.gw.now + 8000000 →
    x.adm + 8 * Int.ofNat s.gw.hNs < s.gw.orderNow → bit (s.gw.pcfg x.fport) 8 = false →
    ∃ t, Machine.exec (.strataArrival f sub) s = .next t ∧
      t.gw.str.pend = s.gw.str.pend ++ [{ frame := x, overrun := true, key := ⟨x.seg, s.gw.str.frontier + 1, x.fport,
        [x.sub, mgetD s.gw.str.counts (64 * x.fport + x.sub) 0]⟩ }] ∧
      (x.fport < 22 → t.gw.regN (Reg.fabStrOvrCnt x.fport) = satAdd (s.gw.regN (Reg.fabStrOvrCnt x.fport)) 1 ∧
        bit (t.gw.regN Reg.fabStrOvrFlag) x.fport = true ∧
        t.gw.regN Reg.fabStrOvrLastALo = stampLo x.adm ∧ t.gw.regN Reg.fabStrOvrLastAHi = stampHi x.adm)) ∧
  (∀ (s : State) (f : Nat) (x : Frame) (rest : List Frame),
    takeFirst (fun (y : Frame) => y.fport = f) s.gw.str.cellWait = some (x, rest) →
    s.gw.pendCells f + cellsOf x.len ≤ s.gw.allotment f → (s.gw.freeCells (cellsOf x.len)).isSome = true →
    ∃ g, ({ s.gw with str := { s.gw.str with cellWait := rest } } : Gw).storeFrame x =
        some (g, { x with fid := s.gw.cal.nextFid }) ∧
      Machine.exec (.pendingCellsAvailable f) s = .next (s.after { g with str := { s.gw.str with
        cellWait := rest, inbound := s.gw.str.inbound ++ [{ x with fid := s.gw.cal.nextFid }] } }))

/-- The released frame leaves Strata, and its copy is admitted whole or dropped and counted. (R48, R55, R57, R67, R91,
R99, R102, R104, R105) The model's own choices in it: log entries 2, 31, 33. -/
def Obligations.FrameRelease : Prop :=
  (∀ (s : State) (ecc : List Nat) (p : Pend), s.gw.readyPend s.dram = some p →
    p ∈ s.gw.str.pend ∧ p.key.o ≤ s.gw.str.frontier ∧
    ∃ t, Machine.exec (.frameRelease ecc) s = .next t ∧
      t.gw.str = { s.gw.str with pend := s.gw.str.pend.filter (fun q => q.key != p.key) }) ∧
  (∀ (s : State) (ecc : List Nat) (p : Pend) (f c : Nat) (bs : List Byte), s.gw.readyPend s.dram = some p →
    p.frame.body = .eth bs → p.frame.named = some (2 ^ f, c) → f < 22 → c < 8 → s.gw.cal.rets = [] →
    s.gw.captureRings p.frame = 0 → s.gw.admits f c (cellsOf p.frame.len) = true →
    ∃ t, Machine.exec (.frameRelease ecc) s = .next t ∧
      (t.gw.egrAt f).queued = (s.gw.egrAt f).queued ++
        [{ fid := p.frame.fid, tag := (s.gw.egrAt f).nextTag,
           frame := { p.frame with seq := p.key.seq, o := p.key.o, oSeg := s.gw.str.relSeg }, cls := c,
           leaf := s.gw.leafOf f p.frame.fport c, len := p.frame.len, cells := cellsOf p.frame.len,
           admO := p.key.o }] ∧
      t.gw.occ f c = s.gw.occ f c + cellsOf p.frame.len ∧ (∀ k, k ≠ f → t.gw.egrAt k = s.gw.egrAt k)) ∧
  (∀ (s : State) (ecc : List Nat) (p : Pend) (f c : Nat) (bs : List Byte), s.gw.readyPend s.dram = some p →
    p.frame.body = .eth bs → p.frame.named = some (2 ^ f, c) → f < 22 → c < 8 → s.gw.cal.rets = [] →
    s.gw.captureRings p.frame = 0 → s.gw.admits f c (cellsOf p.frame.len) = false →
    (∀ r, p.frame.ring = some r → r < 32) →
    ∃ t, Machine.exec (.frameRelease ecc) s = .next t ∧ t.gw.egr = s.gw.egr ∧ t.gw.cal.occ = s.gw.cal.occ ∧
      t.gw.regN (Reg.fabQDrop (8 * f + c)) = satAdd (s.gw.regN (Reg.fabQDrop (8 * f + c))) 1)

/-- The ageing sweeper's visit, the vitrine's visit, and the close of an old segment. (R75, R78, R173, R174, R185,
R186, R759, R859) The model's own choices in it: log entries 2, 30, 69, 161. -/
def Obligations.SweepsAndSegmentClose : Prop :=
  (∀ (s : State) (d : Due) (p i : Nat) (pos : Stamp × Nat) (e : Entry), s.gw.readyDue s.dram = some d →
    d.ev = .ageing p i pos → mget? s.gw.cat.slots i = some e → e.hit = true →
    Machine.exec .ageingVisit s = .next (s.after { s.gw with cat := { s.gw.cat with
      slots := mset s.gw.cat.slots i { e with hit := false, strike := false }, agePos := (pos.1, pos.2 + 1) } })) ∧
  (∀ (s : State) (d : Due) (p i : Nat) (pos : Stamp × Nat) (e : Entry), s.gw.readyDue s.dram = some d →
    d.ev = .ageing p i pos → mget? s.gw.cat.slots i = some e → e.hit = false → e.strike = false →
    Machine.exec .ageingVisit s = .next (s.after { s.gw with cat := { s.gw.cat with
      slots := mset s.gw.cat.slots i { e with strike := true }, agePos := (pos.1, pos.2 + 1) } })) ∧
  (∀ (s : State) (d : Due) (p i : Nat) (pos : Stamp × Nat) (e : Entry), s.gw.readyDue s.dram = some d →
    d.ev = .ageing p i pos → mget? s.gw.cat.slots i = some e → e.hit = false → e.strike = true →
    ∃ t, Machine.exec .ageingVisit s = .next t ∧ t.gw.cat.slots = merase s.gw.cat.slots i ∧
      t.gw.cat.agePos = (pos.1, pos.2 + 1) ∧ t.gw.regN (Reg.catAgedCnt p) = satAdd (s.gw.regN (Reg.catAgedCnt p)) 1) ∧
  (∀ (s : State) (d : Due) (p i : Nat) (pos : Stamp × Nat), s.gw.readyDue s.dram = some d → d.ev = .vitrine p i pos →
    s.gw.spoilt (s.gw.vitAddr ((s.gw.vitOff p).getD 0) (i - s.gw.partBase p)) 64 = false →
    vitCompare (s.gw.slot i) (copyOfBytes p (dramRead s.dram
      (s.gw.vitAddr ((s.gw.vitOff p).getD 0) (i - s.gw.partBase p)) 64)) = 0 →
    Machine.exec .vitrineVisit s = .next (s.after { s.gw with cat := { s.gw.cat with vitPos := (pos.1, pos.2 + 1) } })) ∧
  (∀ (s : State) (d : Due) (p i k : Nat) (pos : Stamp × Nat), s.gw.readyDue s.dram = some d → d.ev = .vitrine p i pos →
    k = vitCompare (s.gw.slot i) (copyOfBytes p (dramRead s.dram
      (s.gw.vitAddr ((s.gw.vitOff p).getD 0) (i - s.gw.partBase p)) 64)) → k ≠ 0 →
    s.gw.param Par.catVitRepair = 0 → s.gw.spoilt (s.gw.vitAddr ((s.gw.vitOff p).getD 0) (i - s.gw.partBase p)) 64 = false →
    ∃ t, Machine.exec .vitrineVisit s = .next t ∧ t.gw.cat.slots = s.gw.cat.slots ∧
      t.gw.cat.vitPos = (pos.1, pos.2 + 1) ∧ t.gw.regN Reg.catVitMisCnt = satAdd (s.gw.regN Reg.catVitMisCnt) 1 ∧
      bit (t.gw.regN Reg.catFlag) 29 = true ∧ t.gw.reg Reg.catVitLast = w32 (k * 2 ^ 30 + p * 2 ^ 25 + i)) ∧
  (∀ (s : State) (d : Due) (p i : Nat) (pos : Stamp × Nat), s.gw.readyDue s.dram = some d → d.ev = .vitrine p i pos →
    s.gw.spoilt (s.gw.vitAddr ((s.gw.vitOff p).getD 0) (i - s.gw.partBase p)) 64 = true →
    ∃ t, Machine.exec .vitrineVisit s = .next t ∧ t.gw.cat.slots = s.gw.cat.slots ∧
      t.gw.cat.vitPos = (pos.1, pos.2 + 1) ∧ t.gw.regN Reg.lckItemDrop = satAdd (s.gw.regN Reg.lckItemDrop) 1 ∧
      t.gw.regN Reg.catVitMisCnt = s.gw.regN Reg.catVitMisCnt) ∧
  (∀ (s : State) (c : Closing), s.gw.str.closing = some c → s.gw.mayClose s.dram = true →
    ∃ t, Machine.exec .segmentClose s = .next t ∧
      t.gw.str = { s.gw.str with
        closing := none
        relSeg := s.gw.str.relSeg + 1
        frontier := s.gw.now - 8 * Int.ofNat s.gw.hNs
        pend := s.gw.str.pend.map (fun p => p.shift (mgetD s.gw.str.shift (s.gw.str.relSeg + 1) 0) s.gw.str.relSeg)
        changes := s.gw.str.changes.map (fun x => if x.seg ≤ s.gw.str.relSeg then { x with first := true } else x) } ∧
      t.gw.rtr.pdus = s.gw.rtr.pdus.map (fun k => (k.1, k.2.shift (mgetD s.gw.str.shift (s.gw.str.relSeg + 1) 0))))

/-- Cyclic expiries, transmission events and timeouts of the signal router. (R205, R207, R208, R209, R212, R213, R215)
The model's own choices in it: log entries 2, 32. -/
def Obligations.ComposerAndTimeouts : Prop :=
  (∀ (s : State) (d : Due) (k : Nat) (p : Pdu), s.gw.readyDue s.dram = some d → d.ev = .composer k →
    mget? s.gw.rtr.pdus k = some p → p.event = none →
    Machine.exec .composerCyclicExpiry s = .next (s.after
      (((s.gw.setPdu k { p with nextCyc := some (d.t + 8000000 * Int.ofNat p.desc.periodMs), gapRef := d.t }).admitNew
        (pduFrame p d.t s.gw.str.relSeg) [{ port := 13, cls := p.desc.cls }] d.t).1.bump Reg.sigPduTxCnt))) ∧
  (∀ (s : State) (d : Due) (k : Nat) (p : Pdu) (e : Stamp), s.gw.readyDue s.dram = some d → d.ev = .pduEvent k →
    mget? s.gw.rtr.pdus k = some p → p.event = some e → e ≤ d.t →
    Machine.exec .pduTransmissionEvent s = .next (s.after
      (((s.gw.setPdu k { p with event := none, gapRef := d.t }).admitNew
        (pduFrame p d.t s.gw.str.relSeg) [{ port := 13, cls := p.desc.cls }] d.t).1.bump Reg.sigPduTxCnt))) ∧
  (∀ (s : State) (d : Due) (n : Nat) (ts : TimeoutSlot) (e : Entry), s.gw.readyDue s.dram = some d → d.ev = .timeout n →
    mget? s.gw.rtr.slots n = some ts → mget? s.gw.cat.slots ts.route = some e → (routeOf e).tmoMode ≠ 1 →
    Machine.exec .signalTimeout s = .next (s.after
      (((s.gw.setTmo n { ts with deadline := none, timedOut := true }).bump Reg.sigTmoCnt).flag
        Reg.sigFlag 0x20000000))) ∧
  (∀ (s : State) (d : Due) (n : Nat) (ts : TimeoutSlot) (e : Entry), s.gw.readyDue s.dram = some d → d.ev = .timeout n →
    mget? s.gw.rtr.slots n = some ts → mget? s.gw.cat.slots ts.route = some e → (routeOf e).tmoMode = 1 →
    Machine.exec .signalTimeout s = .next (s.after
      ((((s.gw.setTmo n { ts with deadline := none, timedOut := true }).bump Reg.sigTmoCnt).flag
        Reg.sigFlag 0x20000000).routeWrite (routeOf e) ((routeOf e).subst % 2 ^ (routeOf e).dlen) d.t)))

/-- The accounted transmitter selects, serves reservations, discards what no gate window can carry; the scrubber
frees. (R239, R241, R242, R254, R257, R259) The model's own choices in it: log entries 2, 35, 36. -/
def Obligations.AccountedTransmitter : Prop :=
  (∀ (s : State) (f : Nat) (t : Stamp) (r : Resv), f < 22 → f ≠ 20 → s.gw.str.run = true → s.gw.islOn 5 = true →
    s.gw.nextTx f (s.gw.txLimit s.dram) = some (t, .serve r) → s.gw.aged f r.copy (r.start + r.tau) = false →
    ∃ u, Machine.exec (.accountedSelection f) s = .next u ∧
      (u.gw.egrAt f).selected = (s.gw.egrAt f).selected ++
        [{ copy := r.copy, start := r.start, dep := r.start + r.tau, launch := r.start + s.gw.lambda8 f, reserved := true,
           ext := [], seg := s.gw.str.relSeg,
           sa := s.gw.saInUse f }] ∧
      (u.gw.egrAt f).queued = (s.gw.egrAt f).queued.filter (fun x => x.tag != r.copy.tag) ∧
      u.gw.regN (Reg.egrSelCnt f) = satAdd (s.gw.regN (Reg.egrSelCnt f)) 1) ∧
  (∀ (s : State) (f : Nat) (x : List (Stamp × Nat)) (t d : Stamp) (c : Copy) (g' : Gw), f < 22 → f ≠ 20 → s.gw.str.run = true →
    s.gw.islOn 5 = true → s.gw.nextTx f (s.gw.txLimit s.dram) = some (t, .pick) →
    s.gw.select f ((s.gw.heads f t).filter (fun c => (s.gw.candidate f c t).isSome)) = some (c, g') →
    s.gw.candidate f c t = some (d, x) → s.gw.aged f c (t + s.gw.tau f c.len) = false →
    ∃ u, Machine.exec (.accountedSelection f) s = .next u ∧
      (u.gw.egrAt f).selected = (s.gw.egrAt f).selected ++
        [{ copy := c, start := t, dep := d, launch := t + s.gw.lambda8 f, reserved := false, ext := x,
           seg := s.gw.str.relSeg, sa := s.gw.saInUse f }] ∧
      (u.gw.egrAt f).queued = (s.gw.egrAt f).queued.filter (fun x => x.tag != c.tag) ∧
      u.gw.regN (Reg.egrSelCnt f) = satAdd (s.gw.regN (Reg.egrSelCnt f)) 1) ∧
  (∀ (s : State) (f : Nat) (t : Stamp) (c : Copy), f < 22 → f ≠ 20 → s.gw.str.run = true → s.gw.islOn 5 = true →
    s.gw.nextTx f (s.gw.txLimit s.dram) = some (t, .discard c) →
    Machine.exec (.accountedSelection f) s = .next (s.after
      (((s.gw.discardCopy f c t).bump (Reg.egrGateOvsCnt f)).flag Reg.egrFlag 0x10000000))) ∧
  (∀ (s : State) (f tag : Nat) (c : Copy), (s.gw.egrAt f).queued.find? (fun c => c.tag = tag) = some c →
    s.gw.ageLimitUs f c.cls ≠ 0 → c.scrubbed = false →
    s.gw.translate c.frame.ing c.frame.ingSeg s.gw.str.relSeg + Int.ofNat (8000 * s.gw.ageLimitUs f c.cls) <
      s.gw.str.frontier → s.gw.txSettled (s.gw.str.frontier + 1) = true →
    Machine.exec (.ageingScrubVisit f tag) s = .next (s.after (((s.gw.setEgr f { s.gw.egrAt f with
      queued := (s.gw.egrAt f).queued.map (fun x => if x.tag = tag then { x with scrubbed := true } else x) }).dropRefs
        f tag).unclaim c.fid)))

/-- RING moves an IDLE or DONE mailbox to BUSY and clears its done bit; while BUSY it only sets DB_BUSY. (R549) -/
def Obligations.MailboxDoorbell : Prop :=
  (∀ x : Mbx, x.st = .idle ∨ x.st = .busy ∨ x.st = .done) ∧
  (∀ (s : State) (m : Nat) (v : W32), m < 64 → s.gw.islOn 10 = true → v.toNat % 2 = 1 → (s.gw.mbxAt m).st ≠ .busy →
    ∃ d : W32, (∀ k, k < 32 → d.getLsbD k = (decide (k ≠ m % 32) && (s.gw.reg (Reg.mbxDone (m / 32))).getLsbD k)) ∧
      Machine.exec (.mbxDbRing m v) s = .next (s.after { (s.gw.setMbx m { s.gw.mbxAt m with st := .busy, taken := false }).setReg
        (Reg.mbxDone (m / 32)) d with rung := s.gw.rung ++ [m] })) ∧
  (∀ (s : State) (m : Nat) (v : W32), m < 64 → s.gw.islOn 10 = true → v.toNat % 2 = 1 → (s.gw.mbxAt m).st = .busy →
    Machine.exec (.mbxDbRing m v) s = .next (s.after (s.gw.setReg Reg.mbxFlag (s.gw.reg Reg.mbxFlag ||| w32 0x80000000)))) ∧
  (∀ (s : State) (m : Nat) (v : W32), v.toNat % 2 = 0 → Machine.exec (.mbxDbRing m v) s = .next s)

/-- Which rung mailbox is taken up, and the checks it passes before its command executes. (R553, R554, R555, R556,
R559, R560, R566, R762) The model's own choices in it: log entries 18, 19, 140. -/
def Obligations.MailboxTakeUp : Prop :=
  (∀ (g : Gw) (m : Nat), g.nextMailbox = some m →
    m ∈ g.rung ∧ g.takerRuns m = true ∧ (∀ k ∈ g.rung, g.takerRuns k = true → k < 4 → m < 4)) ∧
  (∀ (s : State) (m : Nat), s.gw.boot.stage = 3 → s.gw.fw.state ≠ .handover → s.gw.nextMailbox = some m →
    (findCmd (s.gw.reqCode m) = none ∨ s.gw.reqDir m = true) →
    Machine.exec .mailboxTakeUp s = .next (s.after
      (({ s.gw with rung := s.gw.rung.filter (fun k => k ≠ m) } : Gw).reply m 0x02 0 []))) ∧
  (∀ (s : State) (m : Nat) (r : CmdRow) (x : MbxRecord), s.gw.boot.stage = 3 → s.gw.fw.state ≠ .handover →
    s.gw.nextMailbox = some m → findCmd (s.gw.reqCode m) = some r → s.gw.reqDir m = false →
    (s.gw.mbxAt m).last = some x → x.code = s.gw.reqCode m → x.seq = s.gw.reqSeq m →
    Machine.exec .mailboxTakeUp s = .next (s.after
      (({ s.gw with rung := s.gw.rung.filter (fun k => k ≠ m) } : Gw).replyRaw m x.status x.apply [] true))) ∧
  (∀ (s : State) (m : Nat) (r : CmdRow), s.gw.boot.stage = 3 → s.gw.fw.state ≠ .handover →
    s.gw.nextMailbox = some m → findCmd (s.gw.reqCode m) = some r → s.gw.reqDir m = false →
    (∀ x, (s.gw.mbxAt m).last = some x → x.code ≠ s.gw.reqCode m ∨ x.seq ≠ s.gw.reqSeq m) →
    ∃ st : Nat, Machine.exec .mailboxTakeUp s = .next (s.after (
        if st = 0 then ({ s.gw with rung := s.gw.rung.filter (fun k => k ≠ m) } : Gw).setMbx m
          { s.gw.mbxAt m with taken := true }
        else ({ s.gw with rung := s.gw.rung.filter (fun k => k ≠ m) } : Gw).reply m st 0 [])) ∧
      st = (if s.gw.partN = true ∧ s.gw.reqCode m / 256 = 0x0B then 0x0E
        else if 252 < s.gw.reqLen m ∨ s.gw.reqLen m ≠ r.words.getD (s.gw.impliedLen m (s.gw.reqCode m)) then 0x03
        else if s.gw.fw.state ∉ r.states then 0x04
        else if s.gw.needsPresence m (s.gw.reqCode m) = true ∧ (3 < m ∨ s.gw.fw.presence = false) then 0x05
        else if s.gw.blockFenced m (s.gw.reqCode m) = true then 0x0D else 0))

/-- What a reply leaves in its mailbox, and what it leaves alone. (R545, R551, R552, R553, R554) The model's own
choices in it: log entries 19, 23. -/
def Obligations.ReplyLeavesInMailbox : Prop :=
  ∀ (g : Gw) (m status : Nat) (a : Stamp) (ws : List Nat), m < 64 → status < 256 → ws.length ≤ 252 →
    g.reqCode m ≠ 0x0A01 →
    let h := g.reply m status a ws
    (h.mbxAt m).st = .done ∧ h.reqCode m = g.reqCode m ∧ h.reqSeq m = g.reqSeq m ∧ h.reqDir m = true ∧
      bit (h.mbxWord m 0) 6 = false ∧ bits (h.mbxWord m 1) 15 8 = status ∧ h.reqLen m = ws.length ∧
      h.mbxWord m 2 = stampLo a % 2 ^ 32 ∧ h.mbxWord m 3 = stampHi a % 2 ^ 32 ∧
      (∀ i, i < ws.length → h.arg m i = ws.getD i 0 % 2 ^ 32) ∧
      (∀ i, ws.length ≤ i → i < 252 → h.arg m i = g.arg m i) ∧
      bit (h.regN (Reg.mbxDone (m / 32))) (m % 32) = true ∧
      (h.mbxAt m).last = some { code := g.reqCode m, seq := g.reqSeq m, status := status, apply := a } ∧
      (∀ k, k ≠ m → h.mbxAt k = g.mbxAt k) ∧
      (∀ o, o ≠ Reg.mbxDone (m / 32) → (∀ i, i < 256 → o ≠ mbxOff m i) → h.reg o = g.reg o)

/-- A change in RUN or DEGRADED is accepted for its apply-at stamp, or refused with the earliest stamp that could be
met. (R36, R58, R59, R60) The model's own choices in it: log entries 20, 21, 24. -/
def Obligations.ChangesWaitForTheirStamp : Prop :=
  ∀ (m code : Nat) (c : Instr) (s : State), (c, code) ∈ changeCommands m → s.gw.holds m code = true →
    s.gw.serving = true → s.gw.str.closing = none →
    ((s.gw.reqApply m ≠ 0 ∧ ((s.gw.reqApply m : Int) ≤ s.gw.str.frontier ∨ (s.gw.reqApply m : Int) < s.gw.str.startStamp)) →
      Machine.exec c s = .next (s.after (s.gw.reply m 0x03 (max s.gw.now s.gw.str.startStamp) []))) ∧
    ((s.gw.reqApply m = 0 ∨ (s.gw.str.frontier < (s.gw.reqApply m : Int) ∧ s.gw.str.startStamp ≤ (s.gw.reqApply m : Int))) →
      Machine.exec c s = .next (s.after { s.gw.setMbx m { s.gw.mbxAt m with taken := false } with
        str := { s.gw.str with
          changes := s.gw.str.changes ++ [{
            t := if s.gw.reqApply m = 0 then max s.gw.now s.gw.str.startStamp else (s.gw.reqApply m : Int)
            rank := m, seq := s.gw.str.accepted, act := .mailbox m, seg := s.gw.tb.seg }]
          accepted := s.gw.str.accepted + 1 } }))

/-- The due change leaves the queue and takes effect at its stamp; a key change waits for its journal record. (R36,
R57, R58, R78, R216, R235, R510) The model's own choices in it: log entries 21, 24, 110. -/
def Obligations.ChangesTakeEffectInOrder : Prop :=
  (∀ (s : State) (d : Due) (c : Change), s.gw.readyDue s.dram = some d → d.ev = .change c →
    c ∈ s.gw.str.changes ∧ d.t = s.gw.changeStamp c ∧ d.t ≤ s.gw.str.frontier ∧
    (s.gw.recordWaits c = true → Machine.exec .applyAtChange s = .next s) ∧
    (∀ bus v, s.gw.recordWaits c = false → c.act = .firmware (.altFlag bus v) →
      Machine.exec .applyAtChange s = .next (s.after ((((({ s.gw with str := { s.gw.str with
        changes := s.gw.str.changes.filter (fun e => e ≠ c) } } : Gw).passTo d.t 1).settleAll d.t).returnsUpTo
          d.t).setRerouted bus v d.t)))) ∧
  (∀ (s : State) (d : Due) (c : Change) (m : Nat), s.gw.readyDue s.dram = some d → d.ev = .change c →
    s.gw.recordWaits c = false → c.act = .mailbox m → c.first = false → s.gw.reqCode m = 0x0507 →
    bit (s.gw.arg m 0) 31 = false →
    Machine.exec .applyAtChange s = .next (s.after (((((({ s.gw with str := { s.gw.str with
        changes := s.gw.str.changes.filter (fun e => e ≠ c) } } : Gw).passTo c.t 1).settleAll c.t).returnsUpTo
          c.t).reply m 0x00 c.t
          [atBit 18 (s.gw.filterAt (bits (s.gw.arg m 0) 15 0)).blocked +
            atBit 16 (s.gw.filterAt (bits (s.gw.arg m 0) 15 0)).blockEn +
            (s.gw.filterAt (bits (s.gw.arg m 0) 15 0)).maxSdu, 0, 0, 0]).heldDecided)))

/-- Writes and reads of registers follow their access codes; an offset with no register reads 0 and ignores writes.
(R9, R12, R13, R83) The model's own choices in it: log entries 16, 62, 63. -/
def Obligations.RegisterAccessCodes : Prop :=
  (∀ (s : State) (off i : Nat) (v : W32) (r : RegRow), findReg off = some (r, i) → plainBase r.base → offWindows off →
    off ≠ Reg.updRomCtl → s.gw.noPwr off = false → off % 4 = 0 → s.gw.islOn 14 = true →
    s.gw.islOn (regIsland off) = true →
    ∃ w : W32, Machine.exec (.registerWrite off 4 v) s = .next (s.after (s.gw.setReg off w)) ∧
      ∀ k, k < 32 → w.getLsbD k =
        if (w32 r.w1s).getLsbD k && v.getLsbD k then true
        else if (w32 r.w1c).getLsbD k && v.getLsbD k then false
        else if (w32 r.rw).getLsbD k then v.getLsbD k else (s.gw.reg off).getLsbD k) ∧
  (∀ (s : State) (off i : Nat) (r : RegRow), findReg off = some (r, i) → r.rc = 0xFFFFFFFF → offWindows off →
    off % 4 = 0 → off ≠ Reg.sysId → off ≠ Reg.sysIslStat → s.gw.companions r.base i = [] → s.gw.queueRead r.base i = s.gw →
    r.base ≠ Reg.arcCapD0 0 → s.gw.noPwr off = false → s.gw.islOn 14 = true → s.gw.islOn (regIsland off) = true →
    Machine.exec (.rcRead off 4) s = .next (s.after ((s.gw.setReg off 0).emit (.readData off (s.gw.view off))))) ∧
  (∀ (s : State) (off : Nat), findReg off = none → offWindows off → off % 4 = 0 → s.gw.islOn 14 = true →
    s.gw.islOn (regIsland off) = true → off ≠ Reg.updRomCtl →
    Machine.exec (.rcRead off 4) s = .next (s.after (s.gw.emit (.readData off 0))) ∧
    ∀ v, Machine.exec (.registerWrite off 4 v) s = .next s) ∧
  (∀ (s : State), s.gw.islOn 14 = true → s.gw.islOn 0 = true →
    ∃ t, Machine.exec (.latchingLoRead Reg.fabStrFrontLo) s = .next t ∧
      t.gw.out.contains (.readData Reg.fabStrFrontLo (w32 (stampLo s.gw.str.frontier))) = true ∧
      t.gw.str = s.gw.str ∧ t.gw.view Reg.fabStrFrontHi = w32 (stampHi s.gw.str.frontier))

/-- An access that is not a naturally aligned 32-bit access is rejected: reads return all ones, writes are discarded.
(R14) -/
def Obligations.RejectedAccesses : Prop :=
  ∀ (s : State) (off size : Nat) (v : W32), ¬(size = 4 ∧ off % 4 = 0) → s.gw.islOn 14 = true →
    s.gw.islOn (regIsland (off / 4 * 4)) = true →
    (∀ write : Bool, s.gw.badAccess write s.gw.hostInit off =
      (((s.gw.setRegN Reg.sysBadaccAddr off).setRegN Reg.sysBadaccInfo
        ((if write then 2 ^ 31 else 0) + s.gw.hostInit * 2 ^ 29)).flag Reg.sysFlag 0x80000000)) ∧
    Machine.exec (.rcRead off size) s = .next (s.after ((s.gw.badAccess false s.gw.hostInit off).emit (.readData off 0xFFFFFFFF))) ∧
    Machine.exec (.registerWrite off size v) s = .next (s.after (s.gw.badAccess true s.gw.hostInit off))

/-- SPI writes store whole words and reads return words; INT_VACK re-arms a vector; BAR2 writes need presence. (R30,
R702, R704, R705, R706, R712) The model's own choices in it: log entries 59, 61, 170. -/
def Obligations.SpiRearmingAndMemoryWindow : Prop :=
  (∀ (s : State) (off i : Nat) (v : W32) (r : RegRow) (tail : List Byte), findReg off = some (r, i) → plainBase r.base →
    offWindows off → off ≠ Reg.updRomCtl → s.gw.noPwr off = false → off % 4 = 0 → off < 2 ^ 32 → tail.length < 4 → s.gw.islOn 14 = true →
    s.gw.islOn (regIsland off) = true →
    Machine.exec (.spiTransaction ([0x02] ++ beBytes 4 off ++ leBytes 4 v.toNat ++ tail)) s =
      .next (s.after (s.gw.setReg off (r.written (s.gw.reg off) v)))) ∧
  (∀ (s : State) (off i : Nat) (r : RegRow) (dummy : List Byte), findReg off = some (r, i) → offWindows off →
    r.base ≠ Reg.arcCapD0 0 → s.gw.noPwr off = false → ¬(0x20000 ≤ off ∧ off < 0x30000) → off % 4 = 0 → off < 2 ^ 32 → dummy.length = 8 →
    s.gw.islOn 14 = true → s.gw.islOn (regIsland off) = true →
    ∃ t, Machine.exec (.spiTransaction ([0x0B] ++ beBytes 4 off ++ dummy ++ List.replicate 6 0)) s = .next t ∧
      t.gw.out.contains (.miso (List.replicate 8 0xFF ++ leBytes 4 (s.gw.view off).toNat ++ [0xFF, 0xFF])) = true) ∧
  (∀ (s : State) (mosi : List Byte), mosi.length < 5 ∨ (byteAt mosi 0 ≠ 0x02 ∧ byteAt mosi 0 ≠ 0x0B) →
    Machine.exec (.spiTransaction mosi) s = .next s) ∧
  (∀ (s : State) (v : W32) (n : Nat), s.gw.islOn 14 = true → n = bits v.toNat 5 0 →
    (bit v.toNat 31 = true → s.gw.pendingVectors.contains n = true → s.gw.hostSpi = false →
      bit (s.gw.regN (Reg.msixCtl n)) 0 = false →
      Machine.exec (.intVackWrite v) s = .next (s.after (s.gw.emit (.msix n
        (s.gw.regN (Reg.msixAddrLo n) + 4294967296 * s.gw.regN (Reg.msixAddrHi n)) (s.gw.regN (Reg.msixData n)))))) ∧
    (bit v.toNat 31 = false ∨ s.gw.pendingVectors.contains n = false → Machine.exec (.intVackWrite v) s = .next s)) ∧
  (∀ (s : State) (addr : Nat) (bytes : List Byte), s.gw.hostOn = true → s.gw.islOn 13 = true →
    (s.gw.fw.presence = true → addr + bytes.length ≤ dramSize →
      Machine.exec (.bar2Write addr bytes) s = .next { s with
        dram := dramWrite s.dram addr bytes
        gw := { s.gw with
          cat := { (s.gw.visitsPast s.dram).cat with slots := s.slotsWritten addr bytes }
          flt := { s.gw.flt with badWords := s.gw.flt.badWords.filter (fun w => !overwritten addr bytes.length w) } } } ∧
      (∀ k, k < bytes.length → dramByte (dramWrite s.dram addr bytes) (addr + k) = bytes.getD k 0) ∧
      (∀ a, a < addr ∨ addr + bytes.length ≤ a → dramByte (dramWrite s.dram addr bytes) a = dramByte s.dram a)) ∧
    (s.gw.fw.presence = false → Machine.exec (.bar2Write addr bytes) s = .next s))

/-- Information rows, reset, SYS_RUN, SYS_CONFIG and the parameter rows act and reply as their tables say. (R584,
R586, R587, R591, R28, R585, R562, R569, R570, R571, R588, R589) The model's own choices in it: log entries 22, 25,
26, 27, 28. -/
def Obligations.SystemRows : Prop :=
  (∀ (s : State) (m : Nat), s.gw.holds m 0x0101 = true → Machine.exec (.sysInfo m) s = .next (s.after (s.gw.reply m 0 0
    [(s.gw.view Reg.sysId).toNat, s.gw.fwVersion % 4294967296,
     s.gw.cfgVersion % 65536 * 65536 + s.gw.chainVersion * 256 + s.gw.boot.slot % 2,
     (s.gw.view Reg.sysIslStat).toNat, s.gw.fenceMap, s.gw.heartbeatMs]))) ∧
  (∀ (s : State) (m : Nat), s.gw.holds m 0x0203 = true → Machine.exec (.cfgImageInfo m) s = .next (s.after (s.gw.reply m 0 0
    ([s.gw.copyVersion 0 * 65536 + s.gw.copyVersion 1,
      s.gw.boot.causes.getD 0 2 % 4 * 64 + s.gw.boot.causes.getD 1 2 % 4 * 16 + (if s.gw.fw.cfgCopy = 1 then 2 else 0) +
        (if s.gw.fw.cfgDefaults then 1 else 0),
      s.gw.boot.rejArea % 65536 * 65536 + s.gw.boot.rejItem % 65536] ++
      splitWords 2 (((s.gw.copyAt 0).map (·.check)).getD 0) ++ splitWords 2 (((s.gw.copyAt 1).map (·.check)).getD 0) ++ [0])))) ∧
  (∀ (s : State) (m : Nat), s.gw.holds m 0x0103 = true → bits (s.gw.arg m 0) 1 0 = 0 →
    Machine.exec (.sysResetFirmware m) s = .next (s.after (({ s.gw with
      fw := { s.gw.fw with resetAt := some (s.gw.tb.tick + 500000) } } : Gw).reply m 0 0 []))) ∧
  (∀ (s : State) (m : Nat), s.gw.holds m 0x0103 = true → bits (s.gw.arg m 0) 1 0 = 1 →
    (s.gw.fw.presence = false → Machine.exec (.sysResetFactory m) s = .next (s.after (s.gw.reply m 0x05 0 []))) ∧
    (s.gw.fw.presence = true → Machine.exec (.sysResetFactory m) s = .next (s.after (({ s.gw with
      flash := { s.gw.flash with cfg := [], gasp := [] }
      keys := if bit (s.gw.arg m 0) 8 then { s.gw.keys with journal := [], pending := [] } else s.gw.keys
      fw := { s.gw.fw with resetAt := some (s.gw.tb.tick + 500000) } } : Gw).reply m 0 0 [])))) ∧
  (∀ (s : State) (m : Nat), s.gw.holds m 0x0103 = true → 2 ≤ bits (s.gw.arg m 0) 1 0 →
    Machine.exec (.sysResetFirmware m) s = .next (s.after (s.gw.reply m 0x03 0 [])) ∧
    Machine.exec (.sysResetFactory m) s = .next (s.after (s.gw.reply m 0x03 0 []))) ∧
  (∀ (s : State) (m : Nat), s.gw.holds m 0x0102 = true →
    ∃ t, Machine.exec (.sysRun m) s = .next t ∧ t.gw.str.run = true ∧ t.gw.str.startStamp % 2 ^ 20 = 0 ∧
      s.gw.now < t.gw.str.startStamp ∧ t.gw.str.startStamp ≤ s.gw.now + 2 ^ 20 ∧ t.gw.str.pend = [] ∧
      t.gw.str.inbound = [] ∧ t.gw.str.counts = [] ∧ t.gw.fw.runMbx = some m ∧ (t.gw.mbxAt m).st = (s.gw.mbxAt m).st ∧
      (t.gw.fw.state = .run ∨ t.gw.fw.state = .degraded)) ∧
  (∀ (g : Gw) (id : Nat), (∀ c ∈ g.str.changes, ∀ k, c.act = .mailbox k → g.reqCode k ≠ 0x0202) → g.acceptedParam id = g.param id) ∧
  (∀ (g : Gw) (id k : Nat) (c : Change) (cs : List Change) (p : ParamSet), g.str.changes = cs ++ [c] → c.act = .mailbox k →
    g.reqCode k = 0x0202 → ((g.paramSets k).filter (fun q => q.id = id)).getLast? = some p → g.acceptedParam id = p.value) ∧
  (∀ (s : State) (m : Nat), s.gw.holds m 0x0201 = true →
    1 ≤ bits (s.gw.arg m 0) 5 0 → bits (s.gw.arg m 0) 5 0 ≤ 32 →
    ((∀ i ∈ s.gw.readIds m, (findParam i).isSome = true) → ((s.gw.readIds m).flatMap s.gw.paramGroup).length ≤ 252 →
      Machine.exec (.cfgParamRead m) s = .next (s.after (s.gw.reply m 0 0 ((s.gw.readIds m).flatMap s.gw.paramGroup)))) ∧
    ((∃ i ∈ s.gw.readIds m, findParam i = none) →
      Machine.exec (.cfgParamRead m) s = .next (s.after (s.gw.reply m 0x07 0 [])))) ∧
  (∀ (s : State) (m i st : Nat) (p : ParamSet), s.gw.holds m 0x0202 = true →
    1 ≤ bits (s.gw.arg m 0) 5 0 → bits (s.gw.arg m 0) 5 0 ≤ 32 → (s.gw.paramSets m)[i]? = some p →
    s.gw.groupStatus (s.gw.paramSets m) p = st → st ≠ 0 →
    (∀ j q, j < i → (s.gw.paramSets m)[j]? = some q → s.gw.groupStatus (s.gw.paramSets m) q = 0) →
    Machine.exec (.cfgParamWrite m) s = .next (s.after (s.gw.reply m st 0 [p.id * 65536 + i]))) ∧
  (∀ (s : State) (m : Nat), s.gw.holds m 0x0202 = true → s.gw.fw.state = .config →
    1 ≤ bits (s.gw.arg m 0) 5 0 → bits (s.gw.arg m 0) 5 0 ≤ 32 →
    (∀ q ∈ s.gw.paramSets m, s.gw.groupStatus (s.gw.paramSets m) q = 0) →
    Machine.exec (.cfgParamWrite m) s = .next (s.after
      ((s.gw.setParams ((s.gw.paramSets m).map (fun p => (p.id, p.value))) s.gw.now).reply m 0 0 [0xFFFF])))

/-- CAT_SEARCH returns the visible entry under a key, CAT_NEXT the next visible entries. (R144, R145, R178, R592,
R593) The model's own choices in it: log entries 24, 66, 70, 172. -/
def Obligations.CatalogueReads : Prop :=
  (∀ (g : Gw) (p key i : Nat) (e : Entry), g.find p key = some (i, e) →
    mget? g.cat.slots i = some e ∧ g.hidden i = false ∧ e.key (tableOf p) = key ∧ g.cat.eccBad.contains i = false) ∧
  (∀ (g : Gw) (p key : Nat),
    ((∀ i ∈ g.bucketSlots p key, g.cat.eccBad.contains i = true → mget? g.cat.slots i = none) → g.noteEcc p key = g) ∧
    (∀ i, mget? (g.noteEcc p key).cat.slots i = mget? g.cat.slots i ∨
      (i ∈ g.bucketSlots p key ∧ g.cat.eccBad.contains i = true ∧ mget? (g.noteEcc p key).cat.slots i = none))) ∧
  (∀ (s : State) (m p key : Nat) (g : Gw), s.gw.holds m 0x0301 = true → s.gw.serving = false → p = bits (s.gw.arg m 0) 3 0 →
    (11 < p → Machine.exec (.catSearch m) s = .next (s.after (s.gw.reply m 0x03 0 []))) ∧
    (p ≤ 11 → key = s.gw.keyArg m p → g = s.gw.noteEcc p key →
      (∀ i e, g.find p key = some (i, e) →
        Machine.exec (.catSearch m) s = .next (s.after (g.reply m 0 0 (i :: e.words p 0)))) ∧
      (g.find p key = none → Machine.exec (.catSearch m) s = .next (s.after (g.reply m 0x07 0 []))))) ∧
  (∀ (s : State) (m p first : Nat), s.gw.holds m 0x0302 = true → s.gw.serving = false → p = bits (s.gw.arg m 0) 3 0 → p ≤ 11 →
    ((s.gw.arg m 1 = 0xFFFFFFFF ∧ first = s.gw.partBase p) ∨
      (s.gw.arg m 1 ≠ 0xFFFFFFFF ∧ s.gw.partBase p ≤ s.gw.arg m 1 ∧ first = s.gw.arg m 1 + 1)) →
    first < s.gw.partBase p + s.gw.partSize p →
    ∃ (es : List (Nat × Entry)) (last : Nat),
      Machine.exec (.catNext m) s = .next (s.after (s.gw.reply m 0 0
        ([(if last + 1 = s.gw.partBase p + s.gw.partSize p then 2 ^ 31 else 0) + es.length, last] ++
          es.flatMap (fun x => x.2.words p x.1)))) ∧ es.length ≤ 15 ∧
      (∀ x ∈ es, mget? s.gw.cat.slots x.1 ≠ none ∧ s.gw.hidden x.1 = false ∧ first ≤ x.1 ∧ x.1 < first + 65536 ∧
        x.1 < s.gw.partBase p + s.gw.partSize p) ∧
      (es.length < 15 → last + 1 = min (s.gw.partBase p + s.gw.partSize p) (first + 65536)))

/-- CAT_INSERT updates in place or fills the lowest free slot; CAT_DELETE frees the slot and clears its vitrine copy.
(R140, R141, R179, R180, R184, R594, R595, R596) The model's own choices in it: log entries 24, 64, 65. -/
def Obligations.CatalogueWrites : Prop :=
  (∀ (s : State) (m p : Nat) (e : Entry) (g : Gw), s.gw.holds m 0x0303 = true → s.gw.serving = false → p = bits (s.gw.arg m 0) 3 0 →
    p ≤ 11 → bit (s.gw.arg m 0) 9 = false ∨ s.gw.vitOff p ≠ none →
    e = s.gw.bodyEntry m p (decide (4 ≤ p) || bit (s.gw.arg m 0) 10) → g = s.gw.noteEcc p (e.key (tableOf p)) →
    (g.entryOk p e = false → Machine.exec (.catInsert m) s = .next (s.after (g.reply m 0x03 0 []))) ∧
    (g.entryOk p e = true →
      g.tableFull p e = true ∨ g.capReached p ((g.find p (e.key (tableOf p))).map (·.2)) e = true →
      Machine.exec (.catInsert m) s = .next (s.after (g.reply m 0x06 0 []))) ∧
    (∀ i old, g.entryOk p e = true → g.tableFull p e = false → g.capReached p (some old) e = false →
      g.find p (e.key (tableOf p)) = some (i, old) →
      ∃ t, Machine.exec (.catInsert m) s = .next t ∧
        t.gw.cat.slots = mset g.cat.slots i { e with accSeq := old.accSeq, hit := old.hit, strike := old.strike } ∧
        t.gw.cat.serial = g.cat.serial ∧ (t.gw.mbxAt m).st = .done ∧
        (bit (s.gw.arg m 0) 9 = false → t.dram = s.dram)) ∧
    (∀ i, g.entryOk p e = true → g.tableFull p e = false → g.capReached p none e = false →
      g.find p (e.key (tableOf p)) = none → g.freeSlot (g.bucketSlots p (e.key (tableOf p))) = some i →
      ∃ t, Machine.exec (.catInsert m) s = .next t ∧
        t.gw.cat.slots = mset g.cat.slots i { e with accSeq := mgetD g.cat.serial p 0 } ∧
        mgetD t.gw.cat.serial p 0 = mgetD g.cat.serial p 0 + 1 ∧ (t.gw.mbxAt m).st = .done ∧
        (bit (s.gw.arg m 0) 9 = true → e.static = true → ∀ a, g.vitCopy p i = some a →
          t.dram = dramWrite s.dram a (({ e with accSeq := mgetD g.cat.serial p 0 } : Entry).bytes p)))) ∧
  (∀ (s : State) (m p key : Nat) (g : Gw), s.gw.holds m 0x0304 = true → s.gw.serving = false → p = bits (s.gw.arg m 0) 3 0 →
    p ≤ 11 → key = s.gw.keyArg m p → g = s.gw.noteEcc p key →
    (∀ i e, g.find p key = some (i, e) → ∃ t, Machine.exec (.catDelete m) s = .next t ∧
      t.gw.cat.slots = merase g.cat.slots i ∧ t.gw.cat.serial = s.gw.cat.serial ∧ (t.gw.mbxAt m).st = .done ∧
      t.dram = (match g.vitCopy p i with
        | some a => dramWrite s.dram a (List.replicate 64 0)
        | none => s.dram)) ∧
    (g.find p key = none → Machine.exec (.catDelete m) s = .next (s.after (g.reply m 0x07 0 []))))

/-- A flush hides exactly the matching entries at once and is answered when they are physically gone. (R181, R182,
R183, R597) The model's own choices in it: log entry 24. -/
def Obligations.Flushes : Prop :=
  (∀ (s : State) (m p f : Nat), s.gw.holds m 0x0305 = true → s.gw.serving = false → p = bits (s.gw.arg m 0) 3 0 →
    f = bits (s.gw.arg m 0) 12 8 → (p ≤ 3 ∨ p = 15) → f ≤ 21 → s.gw.cat.flushes.length < 4 →
    ∃ t x, Machine.exec (.catFlushPort m) s = .next t ∧ t.gw.cat.flushes = s.gw.cat.flushes ++ [x] ∧
      t.gw.cat.slots = s.gw.cat.slots ∧ x.mbx = some m ∧ x.matched = x.hidden.length ∧
      (∀ i, i ∈ x.hidden ↔ ∃ e q, (i, e) ∈ s.gw.cat.slots ∧ s.gw.hidden i = false ∧ (q = p ∨ (p = 15 ∧ q ≤ 3)) ∧
        s.gw.partBase q ≤ i ∧ i < s.gw.partBase q + s.gw.partSize q ∧
        ((e.static = false ∧ e.port = f) ∨ (e.static = true ∧ bit (s.gw.arg m 0) 16 = true ∧ e.f 2 21 0 = 2 ^ f)))) ∧
  (∀ (s : State) (m p : Nat), s.gw.holds m 0x0306 = true → s.gw.serving = false → p = bits (s.gw.arg m 0) 3 0 →
    p ≤ 11 → s.gw.cat.flushes.length < 4 →
    ∃ t x, Machine.exec (.catFlushPart m) s = .next t ∧ t.gw.cat.flushes = s.gw.cat.flushes ++ [x] ∧
      t.gw.cat.slots = s.gw.cat.slots ∧ x.mbx = some m ∧ x.matched = x.hidden.length ∧
      (∀ i, i ∈ x.hidden ↔ ∃ e, (i, e) ∈ s.gw.cat.slots ∧ s.gw.hidden i = false ∧
        s.gw.partBase p ≤ i ∧ i < s.gw.partBase p + s.gw.partSize p ∧
        (e.static = false ∨ bit (s.gw.arg m 0) 16 = true))) ∧
  (∀ (s : State) (m : Nat), s.gw.holds m 0x0306 = true → s.gw.serving = false → bits (s.gw.arg m 0) 3 0 ≤ 11 →
    4 ≤ s.gw.cat.flushes.length → Machine.exec (.catFlushPart m) s = .next (s.after (s.gw.reply m 0x01 0 []))) ∧
  (∀ (s : State) (i m : Nat) (x : Flush), s.gw.cat.flushes[i]? = some x → x.mbx = some m →
    Machine.exec (.flushRemovalDone i) s = .next (s.after (({ s.gw with cat := { s.gw.cat with
      slots := x.hidden.foldl merase s.gw.cat.slots
      flushes := s.gw.cat.flushes.eraseIdx i
      eccBad := s.gw.cat.eccBad.filter (fun j => !x.hidden.contains j) } } : Gw).reply m 0 x.at' [x.matched])))

/-- SIG_PDU_SET replaces and starts a PDU, SIG_PDU_GET reads it, SIG_ALT_SET changes the masked REROUTED flags. (R204,
R205, R215, R216, R598, R599, R600, R601) The model's own choices in it: log entries 24, 72. -/
def Obligations.PduCommands : Prop :=
  (∀ (s : State) (m k : Nat) (d : PduDesc), s.gw.holds m 0x0401 = true → s.gw.serving = false →
    k = bits (s.gw.arg m 0) 11 0 → d = s.gw.pduArg m →
    (d.ok = true → bits (s.gw.arg m 7) 9 0 ≤ 976 → s.gw.sealedLenOk d = true → s.gw.routesFit k d.len = true →
      s.gw.pduRam k + 8 * ceilDiv d.len 8 ≤ 262144 →
      ∃ p : Pdu, p.desc = d ∧ p.en = bit (s.gw.arg m 0) 31 ∧ p.content = padTo d.len d.init ∧ p.event = none ∧ p.gapRef = 0 ∧
        p.enable = 0 ∧ p.nextCyc = (if p.en = true ∧ d.periodMs ≠ 0 then some (8000000 * (d.phaseMs : Int)) else none) ∧
        Machine.exec (.sigPduSet m) s = .next (s.after ((s.gw.setPdu k p).reply m 0 0 []))) ∧
    (d.ok = false → Machine.exec (.sigPduSet m) s = .next (s.after (s.gw.reply m 0x03 0 []))) ∧
    (d.ok = true → bits (s.gw.arg m 7) 9 0 ≤ 976 → s.gw.sealedLenOk d = true → s.gw.routesFit k d.len = true →
      262144 < s.gw.pduRam k + 8 * ceilDiv d.len 8 →
      Machine.exec (.sigPduSet m) s = .next (s.after (s.gw.reply m 0x06 0 [])))) ∧
  (∀ d : PduDesc, d.ok = true → d.bus ≤ 45 ∧ 1 ≤ d.len ∧ d.len ≤ 2048 ∧ (d.phaseMs = 0 ∨ d.phaseMs < d.periodMs)) ∧
  (∀ (s : State) (m : Nat) (p : Pdu), s.gw.holds m 0x0402 = true → s.gw.serving = false →
    mget? s.gw.rtr.pdus (bits (s.gw.arg m 0) 11 0) = some p → bits (s.gw.arg m 1) 10 0 < p.desc.len →
    Machine.exec (.sigPduGet m) s = .next (s.after (s.gw.reply m 0 0
      (p.desc.words (bits (s.gw.arg m 0) 11 0) p.en ++ [min 976 (p.desc.len - bits (s.gw.arg m 1) 10 0)] ++
        byteWords (slice p.content (bits (s.gw.arg m 1) 10 0) (min 976 (p.desc.len - bits (s.gw.arg m 1) 10 0))))))) ∧
  (∀ (s : State) (m : Nat), s.gw.holds m 0x0402 = true → s.gw.serving = false →
    mget? s.gw.rtr.pdus (bits (s.gw.arg m 0) 11 0) = none →
    Machine.exec (.sigPduGet m) s = .next (s.after (s.gw.reply m 0x07 0 []))) ∧
  (∀ (s : State) (m : Nat), s.gw.holds m 0x0403 = true → s.gw.serving = false → s.gw.rtr.rerouted < 2 ^ 46 →
    ∃ t, Machine.exec (.sigAltSet m) s = .next t ∧ t.gw.rtr.pdus = s.gw.rtr.pdus ∧ t.gw.rtr.slots = s.gw.rtr.slots ∧
      (∀ b, b < 46 → bit t.gw.rtr.rerouted b =
        if bit (s.gw.arg64 m 0) b then bit (s.gw.arg64 m 2) b else bit s.gw.rtr.rerouted b) ∧
      t.gw.rtr.rerouted < 2 ^ 46 ∧ (t.gw.mbxAt m).st = .done)

/-- Gate entries load into the inactive bank and a commit starts its cycles; leaf maps and weights change in MODE 1.
(R251, R252, R255, R602, R603, R246, R247, R604) The model's own choices in it: log entry 39. -/
def Obligations.GateListsLeafMapsAndWeights : Prop :=
  (∀ (s : State) (m f n off : Nat), s.gw.holds m 0x0501 = true → f = bits (s.gw.arg m 0) 4 0 → wirePort f = true →
    n = bits (s.gw.arg m 0) 24 16 → off = bits (s.gw.arg m 0) 15 8 → 1 ≤ n → n ≤ 251 → off + n ≤ 256 →
    (∀ i, i < n → bits (s.gw.arg m (1 + i)) 23 0 ≠ 0) →
    (s.gw.commitPending f = true → Machine.exec (.egrGateLoad m) s = .next (s.after (s.gw.reply m 0x0F 0 []))) ∧
    (s.gw.commitPending f = false →
      ∃ b : GateBank, Machine.exec (.egrGateLoad m) s = .next (s.after ((s.gw.setEgr f { s.gw.egrAt f with
          banks := mset (s.gw.egrAt f).banks (1 - (s.gw.egrAt f).bank) b }).reply m 0 0 [])) ∧
        b.base = ((s.gw.egrAt f).bankAt (1 - (s.gw.egrAt f).bank)).base ∧
        (∀ i, i < n → (b.entries ++ b.rest).getD (off + i) 0 = s.gw.arg m (1 + i)) ∧
        (∀ i, i < off ∨ off + n ≤ i → (b.entries ++ b.rest).getD i 0 =
          (((s.gw.egrAt f).bankAt (1 - (s.gw.egrAt f).bank)).entries ++
            ((s.gw.egrAt f).bankAt (1 - (s.gw.egrAt f).bank)).rest).getD i 0))) ∧
  (∀ (b : GateBank) (t : Stamp), 0 < b.cycle → t ≤ b.firstStart t ∧ b.firstStart t < t + 8 * b.cycle ∧
    (b.firstStart t - 8 * b.base) % (8 * b.cycle) = 0) ∧
  (∀ (s : State) (m : Nat), s.gw.holds m 0x0502 = true → s.gw.serving = true →
    s.gw.commitPending (bits (s.gw.arg m 0) 4 0) = true →
    Machine.exec (.egrGateCommit m) s = .next (s.after (s.gw.reply m 0x01 0 []))) ∧
  (∀ (s : State) (m f : Nat), s.gw.holds m 0x0502 = true → s.gw.serving = false → s.gw.str.run = false →
    f = bits (s.gw.arg m 0) 4 0 → s.gw.commitOk m = true → bit (s.gw.arg m 0) 31 = true →
    ∃ t, Machine.exec (.egrGateCommit m) s = .next t ∧ (t.gw.egrAt f).gateEn = true ∧
      (t.gw.egrAt f).bank = 1 - (s.gw.egrAt f).bank ∧ (t.gw.egrAt f).commit = none ∧
      ((t.gw.egrAt f).bankAt (t.gw.egrAt f).bank).base = asI64 (s.gw.arg64 m 1) ∧
      ((t.gw.egrAt f).bankAt (t.gw.egrAt f).bank).cycle = bits (s.gw.arg m 3) 29 0 ∧
      ((t.gw.egrAt f).bankAt (t.gw.egrAt f).bank).entries.length = bits (s.gw.arg m 4) 8 0 ∧
      (t.gw.egrAt f).queued = (s.gw.egrAt f).queued ∧ ∀ j, j ≠ f → t.gw.egrAt j = s.gw.egrAt j) ∧
  (∀ (s : State) (f : Nat) (k : GateCommit), (s.gw.egrAt f).commit = some k → k.at' ≤ s.gw.commitNow →
    s.gw.commitQueued f = false → k.at' - (s.gw.lambda8 f : Int) ≤ s.gw.txLimit s.dram →
    s.gw.nextTx f (k.at' - (s.gw.lambda8 f : Int) - 1) = none →
    ∃ t, Machine.exec (.gateBankSwitch f) s = .next t ∧ (t.gw.egrAt f).commit = none ∧
      (t.gw.egrAt f).gateEn = k.bank.isSome ∧ (t.gw.egrAt f).bank = k.bank.getD (1 - (s.gw.egrAt f).bank) ∧
      (t.gw.egrAt f).queued = (s.gw.egrAt f).queued ∧ (t.gw.egrAt f).banks = (s.gw.egrAt f).banks) ∧
  (∀ (s : State) (m f : Nat), s.gw.holds m 0x0503 = true → s.gw.serving = false → f = bits (s.gw.arg m 0) 4 0 → f ≤ 21 →
    s.gw.hier f = true →
    ((∀ p q c d, p < 22 → q < 22 → c < 8 → d < 8 → c ≠ d →
        byteAt (s.gw.argBytes m 1 176) (8 * p + c) ≠ byteAt (s.gw.argBytes m 1 176) (8 * q + d)) →
      ∃ l : Map Nat, (∀ g c, g < 22 → c < 8 → mgetD l (8 * g + c) 0 = byteAt (s.gw.argBytes m 1 176) (8 * g + c)) ∧
        Machine.exec (.egrLeafMap m) s = .next (s.after ((s.gw.setEgr f { s.gw.egrAt f with leafMap := l }).reply m 0 0 []))) ∧
    (∀ p q c d, p < 22 → q < 22 → c < 8 → d < 8 → c ≠ d →
      byteAt (s.gw.argBytes m 1 176) (8 * p + c) = byteAt (s.gw.argBytes m 1 176) (8 * q + d) →
      Machine.exec (.egrLeafMap m) s = .next (s.after (s.gw.reply m 0x03 0 [])))) ∧
  (∀ (s : State) (m f : Nat), s.gw.holds m 0x0504 = true → s.gw.serving = false → f = bits (s.gw.arg m 0) 4 0 → f ≤ 21 →
    s.gw.hier f = true →
    ∃ w : Map Nat, (∀ d, d < 16 → mgetD w (1000 + d) 0 = byteAt (s.gw.argBytes m 1 16) d) ∧
      (∀ i, i < 256 → mgetD w (2000 + i) 0 = byteAt (s.gw.argBytes m 5 256) i) ∧
      Machine.exec (.egrNodeWeight m) s = .next (s.after ((s.gw.setEgr f { s.gw.egrAt f with weights := w }).reply m 0 0 []))) ∧
  (∀ (s : State) (m : Nat), s.gw.holds m 0x0504 = true → s.gw.serving = false →
    21 < bits (s.gw.arg m 0) 4 0 ∨ s.gw.hier (bits (s.gw.arg m 0) 4 0) = false →
    Machine.exec (.egrNodeWeight m) s = .next (s.after (s.gw.reply m 0x03 0 [])))

/-- POL_FILTER_SET and POL_METER_SET give every item of a range the same values; POL_GET changes nothing. (R233, R235,
R236, R238, R605, R606) The model's own choices in it: log entry 24. -/
def Obligations.PolicingCommands : Prop :=
  (∀ (s : State) (m a n : Nat), s.gw.holds m 0x0505 = true → s.gw.serving = false → a = bits (s.gw.arg m 0) 15 0 →
    n = bits (s.gw.arg m 1) 16 0 → 1 ≤ n → a + n ≤ 65536 → bits (s.gw.arg m 2) 14 0 ≤ 16384 →
    ¬(bit (s.gw.arg m 2) 18 = true ∧ bit (s.gw.arg m 2) 17 = true) →
    ∃ t, Machine.exec (.polFilterSet m) s = .next t ∧ (t.gw.mbxAt m).st = .done ∧ t.gw.meters = s.gw.meters ∧
      (∀ i, a ≤ i → i < a + n → t.gw.filterAt i = ⟨bits (s.gw.arg m 2) 14 0, bit (s.gw.arg m 2) 16,
        if bit (s.gw.arg m 2) 18 then true else if bit (s.gw.arg m 2) 17 then false else (s.gw.filterAt i).blocked⟩) ∧
      (∀ i, i < a ∨ a + n ≤ i → t.gw.filterAt i = s.gw.filterAt i)) ∧
  (∀ (s : State) (m : Nat), s.gw.holds m 0x0505 = true → s.gw.serving = false →
    65536 < bits (s.gw.arg m 0) 15 0 + bits (s.gw.arg m 1) 16 0 ∨ (bit (s.gw.arg m 2) 18 = true ∧ bit (s.gw.arg m 2) 17 = true) →
    Machine.exec (.polFilterSet m) s = .next (s.after (s.gw.reply m 0x03 0 []))) ∧
  (∀ (s : State) (m a n r b : Nat), s.gw.holds m 0x0506 = true → s.gw.serving = false → a = bits (s.gw.arg m 0) 13 0 →
    n = bits (s.gw.arg m 1) 14 0 → 1 ≤ n → a + n ≤ 16384 → r = bits (s.gw.arg m 2) 24 0 → r ≤ 25000000 →
    b = bits (s.gw.arg m 3) 23 0 → s.gw.str.run = false →
    ∃ t, Machine.exec (.polMeterSet m) s = .next t ∧ (t.gw.mbxAt m).st = .done ∧ t.gw.filters = s.gw.filters ∧
      (∀ i, a ≤ i → i < a + n → (t.gw.meterAt i).rate = r ∧ (t.gw.meterAt i).burst = b ∧
        (t.gw.meterAt i).level = b * 64000000) ∧
      (∀ i, i < a ∨ a + n ≤ i → t.gw.meterAt i = s.gw.meterAt i)) ∧
  (∀ (g : Gw) (i r b : Nat) (t : Stamp), g.str.run = true → (g.meterAt i).seg = g.str.relSeg → g.str.shift = [] →
    (g.changeMeter i r b t).meterAt i = ⟨r, b, min (min ((g.meterAt i).burst * 64000000)
        ((g.meterAt i).level + (t - (g.meterAt i).t).toNat * (g.meterAt i).rate)) (b * 64000000), t, g.str.relSeg⟩) ∧
  (∀ (s : State) (m : Nat), s.gw.holds m 0x0507 = true → s.gw.serving = false → bit (s.gw.arg m 0) 31 = true →
    bits (s.gw.arg m 0) 15 0 < 16384 → s.gw.str.run = false →
    Machine.exec (.polGet m) s = .next (s.after (s.gw.reply m 0 0
      ([(s.gw.meterAt (bits (s.gw.arg m 0) 15 0)).rate, (s.gw.meterAt (bits (s.gw.arg m 0) 15 0)).burst] ++
        splitWords 2 (s.gw.meterAt (bits (s.gw.arg m 0) 15 0)).level))))

/-- ETH_PORT_CTL takes a port down or up, CAN_RECOVER begins recovery, CAN_OWN changes a controller's owner. (R272,
R320, R355, R361, R363, R607, R608, R609) The model's own choices in it: log entries 22, 52, 84, 175. -/
def Obligations.PortAndControllerCommands : Prop :=
  (∀ (s : State) (m p : Nat), s.gw.holds m 0x0601 = true → bit (s.gw.arg m 0) 9 = false → p = bits (s.gw.arg m 0) 3 0 →
    p ≤ 13 → (s.gw.ethAt p).link = false → (s.gw.ethAt p).rateErr = false →
    ∃ t, Machine.exec (.ethPortCtlAdmin m) s = .next t ∧ (t.gw.ethAt p).adminDown = bit (s.gw.arg m 0) 8 ∧
      (bit (s.gw.arg m 0) 8 = true ∨ p ≤ 11 ∨ (mgetD s.gw.chn.ports (p - 12) {}).aligned = false →
        t.gw.ethAt p = { s.gw.ethAt p with adminDown := bit (s.gw.arg m 0) 8 }) ∧
      (bit (s.gw.arg m 0) 8 = false → 12 ≤ p → (mgetD s.gw.chn.ports (p - 12) {}).aligned = true →
        (t.gw.ethAt p).link = true) ∧
      (∀ q, q ≠ p → t.gw.ethAt q = s.gw.ethAt q) ∧ (t.gw.mbxAt m).st = .done) ∧
  (∀ (s : State) (m p : Nat), s.gw.holds m 0x0601 = true → bit (s.gw.arg m 0) 9 = true → p = bits (s.gw.arg m 0) 3 0 →
    (p ≤ 11 → anMode (s.gw.ethMode p) = true → (s.gw.ethAt p).link = false → (s.gw.ethAt p).rateErr = false →
      ∃ t, Machine.exec (.ethPortCtlAnRestart m) s = .next t ∧ t.gw.out.contains (.anRestart p) = true ∧
        (t.gw.ethAt p).adminDown = bit (s.gw.arg m 0) 8 ∧ (t.gw.mbxAt m).st = .done) ∧
    (11 < p ∨ anMode (s.gw.ethMode p) = false →
      Machine.exec (.ethPortCtlAnRestart m) s = .next (s.after (s.gw.reply m 0x03 0 [])))) ∧
  (∀ (s : State) (m c : Nat), s.gw.holds m 0x0701 = true → c = bits (s.gw.arg m 0) 4 0 →
    ((s.gw.canAt c).busOff = false → Machine.exec (.canRecover m) s = .next (s.after (s.gw.reply m 0x03 0 []))) ∧
    ((s.gw.canAt c).busOff = true → (s.gw.canAt c).host = true →
      Machine.exec (.canRecover m) s = .next (s.after (s.gw.reply m 0x0F 0 []))) ∧
    ((s.gw.canAt c).busOff = true → (s.gw.canAt c).host = false → (s.gw.canAt c).recovering = false →
      Machine.exec (.canRecover m) s = .next (s.after
        ((s.gw.setCan c { s.gw.canAt c with recovering := true, recFrom := s.gw.tb.tick }).reply m 0 0 [])))) ∧
  (∀ (s : State) (m c : Nat), s.gw.holds m 0x0708 = true → s.gw.serving = false → bit (s.gw.arg m 0) 31 = true →
    c = bits (s.gw.arg m 0) 4 0 →
    ((s.gw.canAt c).host = true →
      Machine.exec (.canOwnTake m) s = .next (s.after ((s.gw.offerLater c).reply m 0x0F 0 []))) ∧
    ((s.gw.canAt c).host = false → (∀ k, k < 8 → s.gw.regN (Reg.canDwSlot k) ≠ 0) →
      Machine.exec (.canOwnTake m) s = .next (s.after ((s.gw.offerLater c).reply m 0x06 0 []))) ∧
    (∀ k, (s.gw.canAt c).later = [] → (s.gw.canAt c).host = false → k < 8 → s.gw.regN (Reg.canDwSlot k) = 0 →
      (∀ j, j < k → s.gw.regN (Reg.canDwSlot j) ≠ 0) →
      ∃ t, Machine.exec (.canOwnTake m) s = .next t ∧ (t.gw.canAt c).host = true ∧ (t.gw.canAt c).slot = some k ∧
        t.gw.regN (Reg.canDwSlot k) = 2 ^ 31 + c ∧ (∀ n, n < 64 → (t.gw.canAt c).code n = 0) ∧
        (∀ d, d ≠ c → (t.gw.canAt d).host = (s.gw.canAt d).host))) ∧
  (∀ (s : State) (m c : Nat), s.gw.holds m 0x0708 = true → s.gw.serving = false → bit (s.gw.arg m 0) 31 = false →
    c = bits (s.gw.arg m 0) 4 0 →
    ((s.gw.canAt c).host = false →
      Machine.exec (.canOwnGive m) s = .next (s.after ((s.gw.offerLater c).reply m 0x03 0 []))) ∧
    (∀ k, (s.gw.canAt c).later = [] → (s.gw.canAt c).host = true → (s.gw.canAt c).slot = some k → k < 8 →
      ∃ t, Machine.exec (.canOwnGive m) s = .next t ∧ (t.gw.canAt c).host = false ∧ (t.gw.canAt c).slot = none ∧
        (t.gw.canAt c).ram = (s.gw.canAt c).image ∧ t.gw.regN (Reg.canDwSlot k) = 0))

/-- LIN_TABLE starts, switches or stops a schedule; FLX_CMD moves the POC state where it is allowed. (R380, R610,
R611) The model's own choices in it: log entries 22, 86, 89. -/
def Obligations.LinAndFlexRayCommands : Prop :=
  (∀ (s : State) (m l k : Nat), s.gw.holds m 0x0710 = true → s.gw.serving = false → l = bits (s.gw.arg m 0) 3 0 →
    k = bits (s.gw.arg m 0) 11 8 → l ≤ 11 → s.gw.linCmdr l = true → s.gw.linLom l = false →
    (k ≤ 3 → (s.gw.linAt l).running = false →
      Machine.exec (.linTableStart m) s = .next (s.after ((s.gw.setLin l { s.gw.linAt l with
        running := true, table := k, slot := 0, nextSlot := some 0, want := none, resume := [] }).reply m 0 0 []))) ∧
    (k ≤ 3 → (s.gw.linAt l).running = true →
      Machine.exec (.linTableStart m) s = .next (s.after ((s.gw.setLin l { s.gw.linAt l with want := some k }).reply m 0 0 []))) ∧
    (k = 15 → (s.gw.linAt l).running = true →
      Machine.exec (.linTableStop m) s = .next (s.after ((s.gw.setLin l { s.gw.linAt l with want := some 15 }).reply m 0 0 []))) ∧
    (k = 15 → (s.gw.linAt l).running = false → Machine.exec (.linTableStop m) s = .next (s.after (s.gw.reply m 0 0 [])))) ∧
  (∀ (s : State) (m : Nat), s.gw.holds m 0x0710 = true → s.gw.serving = false →
    bits (s.gw.arg m 0) 11 8 ≠ 15 → 3 < bits (s.gw.arg m 0) 11 8 ∨ s.gw.linCmdr (bits (s.gw.arg m 0) 3 0) = false ∨
      s.gw.linLom (bits (s.gw.arg m 0) 3 0) = true →
    Machine.exec (.linTableStart m) s = .next (s.after (s.gw.reply m 0x03 0 []))) ∧
  (∀ (s : State) (m op : Nat), s.gw.holds m 0x0720 = true → op = bits (s.gw.arg m 0) 2 0 →
    (op = 1 → Machine.exec (.flxRun m) s = .next (s.after (
      if s.gw.flx.poc = 2 then ({ s.gw with flx := { s.gw.flx with poc := 4, noCorr := 0 } } : Gw).reply m 0 0 [4]
      else s.gw.reply m 0x03 0 [s.gw.flx.poc]))) ∧
    (op = 2 → Machine.exec (.flxAllowColdstart m) s = .next (s.after (
      if 2 ≤ s.gw.flx.poc ∧ s.gw.flx.poc ≠ 7 ∧ s.gw.flxLom = false ∧ bit s.gw.flxCfg 56 = true then
        ({ s.gw with flx := { s.gw.flx with coldAllowed := true } } : Gw).reply m 0 0 [s.gw.flx.poc]
      else s.gw.reply m 0x03 0 [s.gw.flx.poc]))) ∧
    (op = 3 → Machine.exec (.flxWakeup m) s = .next (s.after (
      if s.gw.flx.poc = 2 ∧ s.gw.flxLom = false ∧ (bits (s.gw.arg m 0) 9 8 = 1 ∨ bits (s.gw.arg m 0) 9 8 = 2) then
        (({ s.gw with flx := { s.gw.flx with poc := 3, wakeEnd := s.gw.tb.tick + s.gw.flx.wakeTicks } } : Gw).emit
          (.flxWakeup (bits (s.gw.arg m 0) 9 8 - 1))).reply m 0 0 [3]
      else s.gw.reply m 0x03 0 [s.gw.flx.poc]))) ∧
    (op = 4 → Machine.exec (.flxHalt m) s = .next (s.after (
      if s.gw.flx.poc = 5 ∨ s.gw.flx.poc = 6 then
        ({ s.gw with flx := { s.gw.flx with haltPending := true } } : Gw).reply m 0 0 [s.gw.flx.poc]
      else s.gw.reply m 0x03 0 [s.gw.flx.poc]))) ∧
    (op = 5 → Machine.exec (.flxFreeze m) s = .next (s.after
      (({ s.gw with flx := { s.gw.flx with poc := 7, haltPending := false } } : Gw).reply m 0 0 [7]))))

/-- TIME_STEP asks for one step of time, CHN_TOPO reads the reach table, CHN_RING and RMT_EXEC start their operations.
(R398, R399, R417, R460, R471, R615, R616, R617, R618, R619, R620) The model's own choices in it: log entries 96, 99,
109. -/
def Obligations.TimeChainAndRemoteCommands : Prop :=
  (∀ (s : State) (m i : Nat) (own : Bool), s.gw.holds m 0x0801 = true → i = bits (s.gw.arg m 0) 1 0 →
    own = (bit (s.gw.gptpCfg i) 63 && !bit (s.gw.gptpCfg i) 62) →
    Machine.exec (.timeStatus m) s = .next (s.after (s.gw.reply m 0 0
      ([(s.gw.view Reg.tbStat).toNat, (s.gw.view Reg.tbOffs).toNat, (s.gw.view Reg.tbQual).toNat,
        atBit 31 (bit (s.gw.gptpCfg i) 63) + atBit 30 (bit (s.gw.gptpCfg i) 62) + atBit 29 (own && !s.gw.gptpSlaveOf i) +
          (if own then (s.gw.gptpAt i).steps % 65536 else 0)] ++
       (if own then gmWords (if (s.gw.gptpAt i).gm = 0 then s.gw.clockId else (s.gw.gptpAt i).gm) ++
          splitWords 2 (if i = s.gw.param Par.tbWorkDom then 0 else stampNat (s.gw.instOffset i s.gw.now / 65536))
        else [0, 0, 0, 0]))))) ∧
  (∀ (s : State) (m : Nat) (d : Int) (c : Instr) (chain : Bool), s.gw.holds m 0x0803 = true →
    d = asI64 (s.gw.arg64 m 0) * 65536 + (bits (s.gw.arg m 2) 15 0 : Nat) → bit (s.gw.arg m 3) 0 = chain →
    (c, chain) ∈ [(Instr.timeStep m, false), (Instr.timeStepChain m, true)] → (chain = true → s.gw.param Par.tbTimeRoot = 1) →
    (d = 0 → Machine.exec c s = .next (s.after (s.gw.reply m 0x03 0 []))) ∧
    (d ≠ 0 → (s.gw.tb.servo = .acquiring ∨ s.gw.tb.servo = .locked) →
      Machine.exec c s = .next (s.after (s.gw.reply m 0x0F 0 []))) ∧
    (d ≠ 0 → s.gw.tb.servo ≠ .acquiring → s.gw.tb.servo ≠ .locked →
      (s.gw.str.closing ≠ none ∨ s.gw.tb.step ≠ none ∨ s.gw.tb.stepQueue ≠ []) →
      Machine.exec c s = .next (s.after (s.gw.reply m 0x01 0 []))) ∧
    (d ≠ 0 → s.gw.tb.servo ≠ .acquiring → s.gw.tb.servo ≠ .locked → s.gw.str.closing = none → s.gw.tb.step = none →
      s.gw.tb.stepQueue = [] →
      (chain = false → ∃ n, s.gw.tb.tick + 256 ≤ n ∧ n < s.gw.tb.tick + 256 + s.gw.tb.start + 16 ∧ s.gw.tb.start ≤ n ∧
        (n - s.gw.tb.start) % 16 = 0 ∧ Machine.exec c s = .next (s.after
          (({ s.gw with tb := { s.gw.tb with step := some { delta := d, notBefore := n, instant := none, mbx := some m } } } : Gw).setMbx
            m { s.gw.mbxAt m with taken := false }))) ∧
      (chain = true → ∀ ts : Int, ts = (s.gw.tb.dt40 / 2 ^ 40 : Nat) + 1000 * (s.gw.param Par.tbChainStepLeadUs : Int) →
        ∃ n, s.gw.tb.tick ≤ n ∧ (n - s.gw.tb.start) % 16 = 0 ∧ Machine.exec c s = .next (s.after
          (({ s.gw.floodOwn 4 [d, ts] with
              tb := { (s.gw.floodOwn 4 [d, ts]).tb with
                step := some { delta := d, notBefore := n, instant := some (8 * ts), mbx := some m } } } : Gw).setMbx
            m { (s.gw.floodOwn 4 [d, ts]).mbxAt m with taken := false }))))) ∧
  (∀ (s : State) (m : Nat), s.gw.holds m 0x0803 = true → bit (s.gw.arg m 3) 0 = true → s.gw.param Par.tbTimeRoot ≠ 1 →
    Machine.exec (.timeStepChain m) s = .next (s.after (s.gw.reply m 0x03 0 []))) ∧
  (∀ (s : State) (m : Nat) (es : List (Nat × Reach)), s.gw.holds m 0x0901 = true →
    es = s.gw.chn.reach.filter (fun (q : Nat × Reach) => bits (s.gw.arg m 0) 11 0 < q.1 && q.1 != s.gw.chnAddr && q.2.best.isSome) →
    Machine.exec (.chnTopo m) s = .next (s.after (s.gw.reply m 0 0
      ((atBit 31 (decide (es.length ≤ 62)) + min 62 es.length) ::
        (es.take 62).flatMap (fun (q : Nat × Reach) => q.2.words q.1))))) ∧
  (∀ (s : State) (m op : Nat) (c : Instr), s.gw.holds m 0x0902 = true → op = bits (s.gw.arg m 0) 1 0 →
    (c, op) ∈ [(Instr.chnRingFailover m, 1), (Instr.chnRingRestore m, 2)] →
    (s.gw.ringOwner = false ∨ s.gw.param Par.chnRingAuto ≠ 0 → Machine.exec c s = .next (s.after (s.gw.reply m 0x03 0 []))) ∧
    (s.gw.ringOwner = true → s.gw.param Par.chnRingAuto = 0 →
      ((op = 1 ∧ (s.gw.ringBroken = false ∨ s.gw.chn.failedOver = true)) ∨ (op = 2 ∧ s.gw.ringBack = false) →
        Machine.exec c s = .next (s.after (s.gw.reply m 0x01 0 []))) ∧
      (∀ T : Stamp, s.gw.reqApply m = 0 → T = max s.gw.now s.gw.str.startStamp →
        (op = 1 ∧ s.gw.ringBroken = true ∧ s.gw.chn.failedOver = false) ∨ (op = 2 ∧ s.gw.ringBack = true) →
        Machine.exec c s = .next (s.after ((s.gw.queueChange m).floodOwn (op + 1) [1, T]))))) ∧
  (∀ (s : State) (m : Nat), s.gw.holds m 0x0902 = true → (bits (s.gw.arg m 0) 1 0 = 0 ∨ bits (s.gw.arg m 0) 1 0 = 3) →
    Machine.exec (.chnRingFailover m) s = .next (s.after (s.gw.reply m 0x03 0 [])) ∧
    Machine.exec (.chnRingRestore m) s = .next (s.after (s.gw.reply m 0x03 0 []))) ∧
  (∀ (s : State) (m op n : Nat), s.gw.holds m 0x0903 = true → op = bits (s.gw.arg m 0) 31 28 → n = s.gw.reqLen m - 3 →
    ((op = 0 ∨ 5 < op ∨ (op ≠ 4 ∧ n ≠ 0) ∨ (op = 4 ∧ (n % 4 ≠ 0 ∨ n = 0 ∨ 32 < n))) →
      Machine.exec (.rmtExec m) s = .next (s.after (s.gw.reply m 0x03 0 []))) ∧
    (execOpsOk s.gw m = true →
      ((∀ i, 16 ≤ i → i < 32 → (s.gw.rmtAt i).state = 1 ∨ (s.gw.rmtAt i).mbx ≠ none) →
        Machine.exec (.rmtExec m) s = .next (s.after (s.gw.reply m 0x01 0 []))) ∧
      (∀ i x, 16 ≤ i → i < 32 → (s.gw.rmtAt i).state ≠ 1 → (s.gw.rmtAt i).mbx = none →
        (∀ j, 16 ≤ j → j < i → (s.gw.rmtAt j).state = 1 ∨ (s.gw.rmtAt j).mbx ≠ none) →
        x = ({ op := op, tgt := bits (s.gw.arg m 0) 11 0, hops := bits (s.gw.arg m 0) 27 16, addr := s.gw.arg m 1,
               wdata := s.gw.arg m 2, seq := if op = 4 then execOps s.gw m else [], mbx := some m } : RmtSlot) →
        Machine.exec (.rmtExec m) s = .next (s.after ((s.gw.rmtStart i x).setMbx m
          { (s.gw.rmtStart i x).mbxAt m with taken := false })))))

/-- Key commands change the key store at once in CONFIG and later under a committed journal record. (R499, R507, R508,
R510, R533, R543, R621, R623, R624, R625, R626, R627) The model's own choices in it: log entry 110. -/
def Obligations.KeyCommands : Prop :=
  (∀ (s : State) (m : Nat), s.gw.holds m 0x0A01 = true → s.gw.fw.presence = false →
    Machine.exec (.keyProvision m) s = .next (s.after (s.gw.reply m 0x05 0 []))) ∧
  (∀ (s : State) (m code : Nat) (c : Instr), s.gw.serving = false → s.gw.holds m code = true →
    (code = 0x0A01 → s.gw.fw.presence = true) →
    (c, code) ∈ [(Instr.keyProvision m, 0x0A01), (Instr.keyDerive m, 0x0A02), (Instr.keyRevoke m, 0x0A03)] →
    (s.gw.keyStatus m s.gw.keys ≠ 0 →
      Machine.exec c s = .next (s.after (s.gw.reply m (s.gw.keyStatus m s.gw.keys) 0 []))) ∧
    (s.gw.keyStatus m s.gw.keys = 0 →
      ∃ t, Machine.exec c s = .next t ∧ (t.gw.mbxAt m).st = .done ∧
        (t.gw.keys.at' (s.gw.keyTarget m)).state = (if code = 0x0A03 then 2 else 1) ∧
        (code = 0x0A01 → (t.gw.keys.at' (s.gw.keyTarget m)).value =
          s.gw.argBytes m 1 (if bit (s.gw.arg m 0) 10 then 32 else 16)) ∧
        t.gw.keys.journal = s.gw.keys.journal ++ [s.gw.keyRecord m])) ∧
  (∀ (s : State) (m code : Nat) (c : Instr), s.gw.serving = true → s.gw.holds m code = true →
    (code = 0x0A01 → s.gw.fw.presence = true) →
    (c, code) ∈ [(Instr.keyProvision m, 0x0A01), (Instr.keyDerive m, 0x0A02), (Instr.keyRevoke m, 0x0A03)] →
    (s.gw.reqApply m ≠ 0 → (s.gw.reqApply m : Int) < s.gw.now + 800000 →
      Machine.exec c s = .next (s.after (s.gw.reply m 0x03 (max (max s.gw.now s.gw.str.startStamp) (s.gw.now + 800000)) []))) ∧
    (s.gw.reqApply m = 0 → s.gw.keyStatus m (s.gw.keysAt s.gw.tb.seg (max s.gw.soonest (s.gw.now + 800000))) ≠ 0 →
      Machine.exec c s = .next (s.after (s.gw.reply m
        (s.gw.keyStatus m (s.gw.keysAt s.gw.tb.seg (max s.gw.soonest (s.gw.now + 800000)))) 0 []))) ∧
    (s.gw.reqApply m = 0 → s.gw.keyStatus m (s.gw.keysAt s.gw.tb.seg (max s.gw.soonest (s.gw.now + 800000))) = 0 →
      ∃ t x, Machine.exec c s = .next t ∧ t.gw.str.changes = s.gw.str.changes ++ [x] ∧ x.act = .mailbox m ∧
        s.gw.now + 800000 ≤ x.t ∧ t.gw.keys.slots = s.gw.keys.slots ∧ t.gw.recordWaits x = true)) ∧
  (∀ (s : State) (q : Option Nat) (r : JRec) (rest : List (Option Nat × JRec)),
    s.gw.keys.pending = (q, r) :: rest →
    ∃ t, Machine.exec .journalRecordCommit s = .next t ∧ t.gw.keys.pending = rest ∧
      t.gw.keys.journal = s.gw.keys.journal ++ [r] ∧ t.gw.keys.slots = s.gw.keys.slots) ∧
  (∀ (s : State) (ctl : W32) (data : List Byte) (i : Nat) (k : KeySlot), s.gw.islOn 11 = true → bit ctl.toNat 31 = true →
    i = bits ctl.toNat 5 0 → k = privSlot ctl.toNat data →
    (s.gw.mkaSlot i = false → (s.gw.fw.presence = false ∨ ∀ m < 4, s.gw.holds m 0x0A01 = true →
        bits (s.gw.arg m 0) 5 0 ≠ i ∨ s.gw.provisionSlot m ≠ k) → Machine.exec (.keyPrivGo ctl data) s = .next s) ∧
    (s.gw.mkaSlot i = true → (∀ q ∈ s.gw.mka, (q.2.encSlot ≠ some i ∧ q.2.decSlot ≠ some i) ∨ padTo 32 data ≠ q.2.sak) →
      Machine.exec (.keyPrivGo ctl data) s = .next s) ∧
    ((s.gw.mkaSlot i = false ∧ s.gw.fw.presence = true ∧
        (∃ m < 4, s.gw.holds m 0x0A01 = true ∧ bits (s.gw.arg m 0) 5 0 = i ∧ s.gw.provisionSlot m = k)) ∨
      (s.gw.mkaSlot i = true ∧ bit ctl.toNat 10 = true ∧
        ∃ q ∈ s.gw.mka, (q.2.encSlot = some i ∨ q.2.decSlot = some i) ∧ padTo 32 data = q.2.sak) →
      ∃ t, Machine.exec (.keyPrivGo ctl data) s = .next t ∧ (t.gw.keys.at' i).state = 1 ∧
        (t.gw.keys.at' i).attr = bits ctl.toNat 9 8 ∧
        (t.gw.keys.at' i).value = padTo (if bit ctl.toNat 10 then 32 else 16) data ∧
        t.gw.keys.journal = s.gw.keys.journal ++ [.priv i k s.gw.keys.root] ∧
        bit (t.gw.regN Reg.cryFlag) 29 = true)) ∧
  (∀ (s : State) (m : Nat), s.gw.holds m 0x0A04 = true → s.gw.fw.presence = true →
    (s.gw.keys.rootStat ≠ 2 → Machine.exec (.keyRootNew m) s = .next (s.after (s.gw.reply m 0x03 0 []))) ∧
    (∀ b x, s.gw.keys.rootStat = 2 → b < 4 → s.gw.keys.banks[b]? = some x → x.root = none → x.revoked = false →
      (∀ j y, j < b → s.gw.keys.banks[j]? = some y → y.root ≠ none ∨ y.revoked = true) → s.gw.trngOk = true →
      Machine.exec (.keyRootNew m) s = .next (s.after (({ s.gw with
        boot := { s.gw.boot with rootNew := true }
        fw := { s.gw.fw with resetAt := some (s.gw.tb.tick + 500000) } } : Gw).reply m 0 0 [b])))) ∧
  (∀ (s : State) (m i : Nat), s.gw.holds m 0x0A05 = true → i = bits (s.gw.arg m 0) 11 0 →
    Machine.exec (.keyInfo m) s = .next (s.after (s.gw.reply m 0 0
      ([(s.gw.keys.at' i).infoWord, (s.gw.keys.at' i).parentWord] ++
        if 64 ≤ i ∧ (s.gw.keys.at' i).state ≠ 0 then byteWords (padTo 32 (s.gw.keys.at' i).label) else List.replicate 8 0)))) ∧
  (∀ (s : State) (m len : Nat), s.gw.holds m 0x0A06 = true → len = (if bit (s.gw.arg m 9) 0 then 2592 else 4755) →
    (s.gw.arg m 8 % 64 ≠ 0 ∨ s.gw.regionMib 5 * mib < s.gw.arg m 8 + len →
      Machine.exec (.keyAttest m) s = .next (s.after (s.gw.reply m 0x03 0 []))) ∧
    (∀ r, s.gw.arg m 8 % 64 = 0 → s.gw.arg m 8 + len ≤ s.gw.regionMib 5 * mib → s.gw.keys.root = some r →
      ∃ out : List Byte, Machine.exec (.keyAttest m) s = .next { s.after (s.gw.reply m 0 0 [len]) with
          dram := dramWrite s.dram (s.gw.regionBase 5 * mib + s.gw.arg m 8) out } ∧
        (bit (s.gw.arg m 9) 0 = true → out.length = 2592) ∧
        (bit (s.gw.arg m 9) 0 = false → out.take 4 = [0x5A, 0x39, 0x36, 0x41])))

/-- Channel commands travel over the die link and are answered by its acknowledgement, or TIMEOUT after 5 ms. (R31,
R628, R629, R630, R647, R649, R654, R661, R662, R663) The model's own choices in it: log entries 22, 120, 125, 127. -/
def Obligations.PowerCommands : Prop :=
  (∀ (s : State) (m op : Nat) (c : Instr), s.gw.holds m 0x0B01 = true →
    (c, op) ∈ [(Instr.pwrSetOff m, 0), (Instr.pwrSetOn m, 1), (Instr.pwrSetPwm m, 2)] → bits (s.gw.arg m 0) 1 0 = op →
    (op = 2 → bits (s.gw.arg m 1) 25 16 ≤ 1000 ∧ 100 ≤ bits (s.gw.arg m 1) 8 0 ∧ bits (s.gw.arg m 1) 8 0 ≤ 400) →
    Machine.exec c s = .next (s.after (({ s.gw with die := { s.gw.die with
      toDie := s.gw.die.toDie ++ [.set op (bits (s.gw.arg m 0) 31 16) (bits (s.gw.arg m 1) 25 16) (bits (s.gw.arg m 1) 8 0) (some m)]
      sent := mset s.gw.die.sent m s.gw.tb.tick } } : Gw).setMbx m { s.gw.mbxAt m with taken := false }))) ∧
  (∀ (s : State) (m : Nat), s.gw.holds m 0x0B01 = true → bits (s.gw.arg m 0) 1 0 = 2 →
    (1000 < bits (s.gw.arg m 1) 25 16 ∨ bits (s.gw.arg m 1) 8 0 < 100 ∨ 400 < bits (s.gw.arg m 1) 8 0) →
    Machine.exec (.pwrSetPwm m) s = .next (s.after (s.gw.reply m 0x03 0 []))) ∧
  (∀ (s : State) (m : Nat), s.gw.holds m 0x0B02 = true →
    Machine.exec (.pwrRestart m) s = .next (s.after (({ s.gw with die := { s.gw.die with
      toDie := s.gw.die.toDie ++ [.restart (bits (s.gw.arg m 0) 31 16) (some m)]
      sent := mset s.gw.die.sent m s.gw.tb.tick } } : Gw).setMbx m { s.gw.mbxAt m with taken := false }))) ∧
  (∀ (s : State) (m n : Nat), s.gw.holds m 0x0B03 = true → s.gw.partN = false → n = bits (s.gw.arg m 0) 3 0 →
    ((profileOf (s.gw.arg m)).ok n = false → Machine.exec (.pwrProfile m) s = .next (s.after (s.gw.reply m 0x03 0 []))) ∧
    ((profileOf (s.gw.arg m)).ok n = true → (s.gw.die.seen.chan n).wants = true ∨ (s.gw.die.seen.chan n).out = true →
      Machine.exec (.pwrProfile m) s = .next (s.after (s.gw.reply m 0x0F 0 []))) ∧
    ((profileOf (s.gw.arg m)).ok n = true → (s.gw.die.seen.chan n).wants = false → (s.gw.die.seen.chan n).out = false →
      Machine.exec (.pwrProfile m) s = .next (s.after (({ s.gw with die := { s.gw.die with
        toDie := s.gw.die.toDie ++ [.profile n (profileOf (s.gw.arg m))] } } : Gw).reply m 0 0 [])))) ∧
  (∀ (s : State) (m : Nat), s.gw.holds m 0x0B04 = true → Machine.exec (.pwrStatus m) s = .next (s.after (s.gw.reply m 0 0
    ([s.gw.die.seen.mask PdChan.out * 65536 + s.gw.die.seen.mask PdChan.latched,
      s.gw.die.seen.mask PdChan.openLoad * 65536 + s.gw.die.seen.mask PdChan.limitEv] ++
      (List.range 8).map (fun k => (s.gw.die.seen.chan (2 * k + 1)).cur * 65536 + (s.gw.die.seen.chan (2 * k)).cur) ++
      [s.gw.die.seen.vbat, (s.gw.die.seen.temp % 65536).toNat, s.gw.die.sample % 4294967296])))) ∧
  (∀ (s : State) (us : Nat) (tj : List Int) (op mask duty freq m : Nat) (rest : List DieMsg), s.gw.partN = false →
    s.gw.pdie.us ≤ us → s.gw.die.toDie = .set op mask duty freq (some m) :: rest → mask < 65536 →
    (∃ t w, Machine.exec (.dieLinkMessage true us tj) s = .next t ∧ t.gw.die.toDie = rest ∧
      t.gw.die.acks = s.gw.die.acks ++ [(m, w)] ∧
      (∀ n, n < 16 → (bit w n = true ↔ bit mask n = true ∧ (s.gw.pdie.chan n).latched = true)) ∧
      ∀ n, n < 16 → (t.gw.pdie.chan n).cmd = if bit mask n then op else (s.gw.pdie.chan n).cmd) ∧
    (Machine.exec (.dieLinkMessage false us tj) s = .next (s.after { s.gw with
      die := { s.gw.die with toDie := rest }
      pdie := { s.gw.pdie with us := us, disc := true } }))) ∧
  (∀ (s : State) (m w : Nat) (rest : List (Nat × Nat)) (k : Nat), s.gw.pairRuns 1 = true → s.gw.die.acks = (m, w) :: rest →
    mget? s.gw.die.sent m = some k →
    Machine.exec .dieLinkAck s = .next (s.after (({ s.gw with die := { s.gw.die with
      acks := rest, sent := merase s.gw.die.sent m } } : Gw).reply m 0 0 [65536 * w]))) ∧
  (∀ (s : State) (m k : Nat), s.gw.pairRuns 1 = true → mget? s.gw.die.sent m = some k → k + 2500000 ≤ s.gw.tb.tick →
    Machine.exec (.dieLinkAckTimeout m) s = .next (s.after (({ s.gw with die := { s.gw.die with
      sent := merase s.gw.die.sent m } } : Gw).reply m 0x0A 0 [])))

/-- Without heartbeats the power die holds its outputs, then takes the safe states; the supply switches every channel.
(R648, R654, R667, R669, R670, R671, R672, R689) The model's own choices in it: log entries 2, 126, 147. -/
def Obligations.HeartbeatHoldAndSupply : Prop :=
  (∀ (s : State) (us : Nat), s.gw.partN = false → s.gw.pdie.us ≤ us → s.gw.pairRuns 1 = true →
    (∀ k, s.gw.die.hbTick = some k → k + s.gw.param Par.pwrHbMs * 500000 ≤ s.gw.tb.tick) → s.gw.ho = none →
    Machine.exec (.heartbeatSend us) s = .next (s.after (({ s.gw with
      die := { s.gw.die with hbTick := some s.gw.tb.tick }
      pdie := { s.gw.pdie with us := us, lastHb := us, hbBack := s.gw.pdie.hold, keeper := false } } : Gw).emit (.dieLink 0 [])))) ∧
  (∀ (s : State) (us : Nat), s.gw.partN = false → s.gw.pdie.us ≤ us → s.gw.pdie.hold = false → s.gw.pdie.keeper = false →
    s.gw.pdie.lastHb + 3000 * s.gw.pdie.hbMs ≤ us → s.gw.pdie.holdMs ≠ 0 →
    ∃ t, Machine.exec (.heartbeatLoss us) s = .next t ∧ t.gw.pdie.hold = true ∧ t.gw.pdie.holdFrom = us ∧
      t.gw.pdie.safeDone = false ∧ (∀ n, t.gw.pdie.chan n = s.gw.pdie.chan n) ∧
      (s.gw.pairRuns 1 = true → bit (t.gw.regN Reg.pwrFlag) 25 = true ∧ t.gw.die.seen.hold = true)) ∧
  (∀ (s : State) (us : Nat), s.gw.partN = false → s.gw.pdie.us ≤ us → s.gw.pdie.keeper = true →
    Machine.exec (.heartbeatLoss us) s = .next (s.after { s.gw with pdie := { s.gw.pdie with us := us } })) ∧
  (∀ (s : State) (us : Nat), s.gw.partN = false → s.gw.pdie.us ≤ us → s.gw.pdie.hold = true → s.gw.pdie.safeDone = false →
    s.gw.pdie.holdFrom + 1000 * s.gw.pdie.holdMs ≤ us →
    ∃ t, Machine.exec (.holdTimeout us) s = .next t ∧ t.gw.pdie.safeDone = true ∧
      ∀ n, n < 16 → (t.gw.pdie.chan n).cmd = 3 ∧
        ((t.gw.pdie.chan n).latched = false → s.gw.pdie.supply = 0 →
          (t.gw.pdie.chan n).out = ((s.gw.pdie.chan n).prof.safe != 0))) ∧
  (∀ (s : State) (us : Nat), s.gw.partN = false → s.gw.pdie.us ≤ us → s.gw.pdie.hold = true → s.gw.pdie.hbBack = true →
    ∃ t, Machine.exec (.heartbeatReturn us) s = .next t ∧ t.gw.pdie = { s.gw.pdie with
      us := us, hold := false, hbBack := false, adopt := true }) ∧
  (∀ (s : State) (us vbat : Nat) (cur : List Nat) (tj : List Int) (temp : Int), s.gw.partN = false → s.gw.pdie.us ≤ us →
    s.gw.pdie.lastStatus + 500 ≤ us → s.gw.pairRuns 1 = true →
    ∃ t, Machine.exec (.statusMessage us cur tj vbat temp) s = .next t ∧ t.gw.die.link = true ∧
      t.gw.die.seen.vbat = vbat ∧ t.gw.die.seen.seq = (s.gw.pdie.seq + 1) % 65536 ∧ t.gw.pdie.disc = false ∧
      t.gw.pdie.adopt = false ∧ (s.gw.pdie.disc = true → bit (t.gw.regN Reg.pwrFlag) 23 = true) ∧
      ∀ n, n < 16 → t.gw.die.seen.chan n = { s.gw.pdie.chan n with cur := min 4095 (cur.getD n 0 / telemetryLsb n), tj := tj.getD n (s.gw.pdie.chan n).tj }) ∧
  (∀ (s : State) (us code : Nat) (c : Instr), s.gw.partN = false → s.gw.pdie.us ≤ us → s.gw.pdie.supply ≠ code →
    (c, code) ∈ [(Instr.vbatUndervoltage us, 1), (Instr.vbatOvervoltage us, 2)] →
    ∃ t, Machine.exec c s = .next t ∧ t.gw.pdie.supply = code ∧
      ∀ n, n < 16 → (t.gw.pdie.chan n).out = false ∧ (t.gw.pdie.chan n).cmd = (s.gw.pdie.chan n).cmd) ∧
  (∀ (s : State) (us : Nat), s.gw.partN = false → s.gw.pdie.us ≤ us → s.gw.pdie.supply ≠ 0 →
    ∃ t, Machine.exec (.vbatReturn us) s = .next t ∧ t.gw.pdie.supply = 0 ∧
      ∀ n, n < 16 → (s.gw.pdie.chan n).latched = false → (t.gw.pdie.chan n).out = (s.gw.pdie.chan n).wants) ∧
  (∀ (s : State) (us : Nat), s.gw.partN = false → s.gw.pdie.us ≤ us →
    ∃ t, Machine.exec (.powerDieReset us) s = .next t ∧
      t.gw.pdie = { us := us, lastHb := us, lastStatus := us, lastFuse := us, lastComp := us } ∧
      ∀ n, t.gw.pdie.chan n = pdDefault n)

/-- Limits, shorts, heat and the fuse model latch a channel off; restarts, open load and PWM follow their timers.
(R650, R651, R652, R655, R656, R657, R658, R659, R661, R662, R665, R666) The model's own choices in it: log entries 2,
120, 121, 124. -/
def Obligations.ChannelProtection : Prop :=
  (∀ (s : State) (n us cur : Nat), s.gw.partN = false → s.gw.pdie.us ≤ us → n < 16 → (s.gw.pdie.chan n).out = true →
    (s.gw.pdie.chan n).limit = false → (s.gw.pdie.chan n).limitEv = false → (s.gw.pdie.chan n).limitMa n us ≤ cur →
    ∃ t, Machine.exec (.currentLimitReached n us cur) s = .next t ∧ t.gw.pdie.chan n = { s.gw.pdie.chan n with
        limit := true, limitFrom := us, limitEv := (s.gw.pdie.chan n).blankFrom.isNone } ∧
      ((s.gw.pdie.chan n).blankFrom = none → t.gw.pdie.frozen = true) ∧
      (∀ k, k ≠ n → t.gw.pdie.chan k = s.gw.pdie.chan k)) ∧
  (∀ (s : State) (n us cause : Nat) (c : Instr), s.gw.partN = false → s.gw.pdie.us ≤ us → n < 16 →
    (c, cause) ∈ [(Instr.shortDetect n us, 1), (Instr.thermalShutdown n us, 2)] →
    (cause = 1 → (s.gw.pdie.chan n).limit = true ∧ (s.gw.pdie.chan n).limitFrom + 10 ≤ us ∧
      ((s.gw.pdie.chan n).prof.typ = 4 → (s.gw.pdie.chan n).blankFrom = none)) →
    ((s.gw.pdie.chan n).latched = false →
      ∃ t, Machine.exec c s = .next t ∧ (t.gw.pdie.chan n).latched = true ∧ (t.gw.pdie.chan n).cause = cause ∧
        (t.gw.pdie.chan n).out = false ∧ (t.gw.pdie.chan n).latchAt = us ∧ (t.gw.pdie.chan n).cmd = (s.gw.pdie.chan n).cmd ∧
        (∀ k, k ≠ n → t.gw.pdie.chan k = s.gw.pdie.chan k) ∧
        (s.gw.pairRuns 1 = true → bit (t.gw.regN Reg.pwrFlag) (if cause = 1 then 31 else 29) = true)) ∧
    ((s.gw.pdie.chan n).latched = true →
      Machine.exec c s = .next (s.after { s.gw with pdie := { s.gw.pdie with us := us } }))) ∧
  (∀ (s : State) (us n : Nat) (sq : List Nat), s.gw.partN = false → s.gw.pdie.us ≤ us → s.gw.pdie.lastFuse + 100 ≤ us → n < 16 →
    ∃ t, Machine.exec (.fuseStep us sq) s = .next t ∧ t.gw.pdie.lastFuse = us ∧
      (t.gw.pdie.chan n).w = (s.gw.pdie.chan n).nextW n (sq.getD n 0) ∧
      ((s.gw.pdie.chan n).latched = false → 1 ≤ (s.gw.pdie.chan n).nextW n (sq.getD n 0) →
        (t.gw.pdie.chan n).latched = true ∧ (t.gw.pdie.chan n).cause = 3 ∧ (t.gw.pdie.chan n).out = false)) ∧
  (∀ (s : State) (n us b : Nat) (low : Bool), s.gw.partN = false → s.gw.pdie.us ≤ us → n < 16 →
    (s.gw.pdie.chan n).blankFrom = some b → b + (s.gw.pdie.chan n).prof.blanking ≤ us → (s.gw.pdie.chan n).limit = false →
    Machine.exec (.blankingEnd n us low) s = .next (s.after { s.gw with
      pdie := { s.gw.pdie with us := us }.setChan n { s.gw.pdie.chan n with blankFrom := none } })) ∧
  (∀ (s : State) (n us : Nat), s.gw.partN = false → s.gw.pdie.us ≤ us → n < 16 → (s.gw.pdie.chan n).limit = true →
    (s.gw.pdie.chan n).limitFrom + 100 ≤ us →
    ∃ t, Machine.exec (.limitEventEnd n us) s = .next t ∧
      t.gw.pdie.chan n = { s.gw.pdie.chan n with limit := false, limitEv := false } ∧
      ((s.gw.pdie.chan n).limitEv = true → t.gw.pdie.limitEnded = us)) ∧
  (∀ (s : State) (n us : Nat) (tj : Int), s.gw.partN = false → s.gw.pdie.us ≤ us → n < 16 → (s.gw.pdie.chan n).latched = true →
    (s.gw.pdie.chan n).prof.policy = 1 → 0 < (s.gw.pdie.chan n).retriesLeft → (s.gw.pdie.chan n).latchAt + 1000000 ≤ us →
    (s.gw.pdie.chan n).mayRestart us tj = true →
    ∃ t, Machine.exec (.restartTimer n us tj) s = .next t ∧ (t.gw.pdie.chan n).latched = false ∧ (t.gw.pdie.chan n).cause = 0 ∧
      (t.gw.pdie.chan n).retriesLeft = (s.gw.pdie.chan n).retriesLeft - 1) ∧
  (∀ (s : State) (n us k : Nat), s.gw.partN = false → s.gw.pdie.us ≤ us → n < 16 → (s.gw.pdie.chan n).latched = false →
    (s.gw.pdie.chan n).prof.policy = 1 → (s.gw.pdie.chan n).onFrom = some k → k + 60000000 ≤ us →
    Machine.exec (.retriesReload n us) s = .next (s.after { s.gw with
      pdie := { s.gw.pdie with us := us }.setChan n { s.gw.pdie.chan n with retriesLeft := (s.gw.pdie.chan n).prof.retries } })) ∧
  (∀ (s : State) (n us : Nat), s.gw.partN = false → s.gw.pdie.us ≤ us → n < 16 → (s.gw.pdie.chan n).openLoad = false →
    (s.gw.pdie.chan n).evaluates = true → (s.gw.pdie.chan n).olStart + 1000 * (s.gw.pdie.chan n).prof.olMs ≤ us →
    ∃ t, Machine.exec (.openLoadTimer n us true) s = .next t ∧
      t.gw.pdie.chan n = { s.gw.pdie.chan n with openLoad := true, olFrom := us } ∧
      (s.gw.pairRuns 1 = true → bit (t.gw.regN Reg.pwrFlag) 28 = true)) ∧
  (∀ (s : State) (us vbat : Nat), s.gw.partN = false → s.gw.pdie.us ≤ us → s.gw.pdie.lastComp + 1000 ≤ us → vbat ≠ 0 →
    Machine.exec (.compUpdate us vbat) s = .next (s.after { s.gw with pdie := if s.gw.pdie.frozen then { s.gw.pdie with us := us }
      else { s.gw.pdie with us := us, fNum := s.gw.pdie.vnom, fDen := vbat, lastComp := us } })) ∧
  (∀ (s : State) (us : Nat), s.gw.partN = false → s.gw.pdie.us ≤ us → s.gw.pdie.frozen = true →
    (∀ n, n < 16 → (s.gw.pdie.chan n).limitEv = false) → s.gw.pdie.limitEnded + 2000 ≤ us →
    Machine.exec (.freezeEnd us) s = .next (s.after { s.gw with pdie := { s.gw.pdie with us := us, frozen := false } })) ∧
  (∀ (s : State) (n us b : Nat), s.gw.partN = false → s.gw.pdie.us ≤ us → n < 16 → (s.gw.pdie.chan n).out = true →
    s.gw.pdie.constant n (s.gw.pdie.chan n) = false → (s.gw.pdie.chan n).pwmFrom = some b →
    periodStart n (max 1 (s.gw.pdie.chan n).actFreq) b ≤ us →
    ∃ t, Machine.exec (.pwmPeriodStart n us) s = .next t ∧
      (t.gw.pdie.chan n).actDuty = s.gw.pdie.effDuty n (s.gw.pdie.chan n).target.1 ∧
      (t.gw.pdie.chan n).actFreq = (s.gw.pdie.chan n).target.2)

/-- Keep-alives, the collective sleep decision, the insomnia log and the wake sources. (R631, R632, R680, R682, R683,
R684, R685, R688, R690, R691, R692, R696) The model's own choices in it: log entries 2, 128, 129, 130. -/
def Obligations.NetworkSleepAndWake : Prop :=
  (∀ (s : State) (m : Nat), s.gw.holds m 0x0C01 = true → s.gw.serving = true →
    ∃ t, Machine.exec (.nmSleep m) s = .next t ∧ t.gw.fw.state = .sleepPrep ∧ t.gw.fw.back = s.gw.fw.state ∧
      t.gw.aon.armed = true ∧ t.gw.aon.wakePins = s.gw.param Par.nmWakePins ∧
      t.gw.aon.wakeOther = s.gw.param Par.nmWakeOther ∧ (t.gw.mbxAt m).st = .done) ∧
  (∀ (s : State) (m : Nat), s.gw.holds m 0x0C02 = true → bit (s.gw.arg m 0) 0 = true →
    ∃ t, Machine.exec (.nmStay m) s = .next t ∧ t.gw.nm.awake = true ∧ (t.gw.mbxAt m).st = .done ∧
      (s.gw.fw.state = .sleepPrep → s.gw.fw.back ≠ .sleepPrep → t.gw.fw.state = s.gw.fw.back ∧ t.gw.aon.armed = false ∧
        bit (t.gw.regN Reg.nmFlag) 31 = true ∧ t.gw.regN Reg.nmAbortCnt = satAdd (s.gw.regN Reg.nmAbortCnt) 1)) ∧
  (∀ (s : State) (m : Nat), s.gw.holds m 0x0C03 = true →
    ∃ t, Machine.exec (.nmInsomnia m) s = .next t ∧ t.gw.arg m 0 = s.gw.aon.insomnia.length % 2 ^ 32 ∧
      t.gw.aon.insomnia = (if bit (s.gw.arg m 0) 0 then [] else s.gw.aon.insomnia) ∧ (t.gw.mbxAt m).st = .done) ∧
  (∀ (s : State) (m : Nat), s.gw.holds m 0x0C04 = true →
    Machine.exec (.nmWakeCause m) s = .next (s.after (s.gw.reply m 0 0
      [s.gw.aon.record.ev.src * 2 ^ 28 + (if s.gw.aon.record.latched then 2 ^ 27 else 0) + s.gw.aon.record.ev.index * 65536,
       if s.gw.aon.record.ev.src = 1 then s.gw.aon.record.ev.ident else 0, s.gw.aon.record.ticks % 4294967296]))) ∧
  (∀ (s : State) (k : NmHeard) (rest : List NmHeard), s.gw.inService = true → s.gw.pairRuns 1 = true → s.gw.nm.inbox = k :: rest →
    byteAt k.bytes 0 / 16 = 1 → byteAt k.bytes 1 % 2 = 1 → k.seg = s.gw.tb.seg → s.gw.str.shift = [] →
    ∃ t, Machine.exec .keepaliveReceive s = .next t ∧ t.gw.nm.inbox = rest ∧
      t.gw.regN Reg.nmKaRxCnt = satAdd (s.gw.regN Reg.nmKaRxCnt) 1 ∧
      (s.gw.fw.state ≠ .sleepPrep → ∃ d, mget? t.gw.nm.deadlines k.bus = some d ∧ k.stamp + s.gw.nmTimeout ≤ d.1) ∧
      (s.gw.fw.state = .sleepPrep → s.gw.fw.back ≠ .sleepPrep → t.gw.fw.state = s.gw.fw.back)) ∧
  (∀ (s : State) (b : Nat), s.gw.inService = true → s.gw.pairRuns 1 = true → s.gw.nm.kaTick = none → s.gw.ownNeed = true →
    s.gw.nmBuses = [b] → b < 32 →
    ∃ t, Machine.exec .keepaliveTimer s = .next t ∧ t.gw.nm.kaTick = some s.gw.tb.tick ∧
      t.gw.regN Reg.nmKaTxCnt = satAdd (s.gw.regN Reg.nmKaTxCnt) 1 ∧
      mgetD t.gw.nm.seqTx b 0 = (mgetD s.gw.nm.seqTx b 0 + 1) % 65536) ∧
  (∀ (s : State) (b : Nat), s.gw.nmBuses.contains b = true → s.gw.serving = true → s.gw.pairRuns 1 = true →
    (∀ k ∈ s.gw.nmBuses, s.gw.quiet k = true) → s.gw.ownNeed = false →
    ∃ t, Machine.exec (.nmDeadlineExpiry b) s = .next t ∧ t.gw.fw.state = .sleepPrep ∧ t.gw.aon.armed = true ∧
      t.gw.regN Reg.nmSleepCnt = satAdd (s.gw.regN Reg.nmSleepCnt) 1) ∧
  (∀ (s : State) (b : Nat), s.gw.nmBuses.contains b = true → s.gw.serving = true → s.gw.pairRuns 1 = true →
    s.gw.ownNeed = false → s.gw.quiet b = false →
    s.gw.nm.checkTick + s.gw.param Par.nmKaPeriodMs * 500000 ≤ s.gw.tb.tick →
    ∃ t, Machine.exec .insomniaCheck s = .next t ∧ t.gw.fw.state = s.gw.fw.state ∧ t.gw.nm.checkTick = s.gw.tb.tick ∧
      ((∃ n ∈ s.gw.nm.heard, s.gw.now < s.gw.translate n.stamp n.seg s.gw.tb.seg + s.gw.nmTimeout) →
        bit (t.gw.regN Reg.nmFlag) 30 = true) ∧
      ((∀ n ∈ s.gw.nm.heard, s.gw.translate n.stamp n.seg s.gw.tb.seg + s.gw.nmTimeout ≤ s.gw.now) →
        t.gw.aon.insomnia = s.gw.aon.insomnia ∧ t.gw.regN Reg.nmFlag = s.gw.regN Reg.nmFlag)) ∧
  (∀ (s : State) (pins phys : Nat), ∃ t, Machine.exec (.wakeSample pins phys) s = .next t ∧ t.gw.aon.pins = pins ∧
    t.gw.aon.pinsBefore = s.gw.aon.pins ∧ t.gw.aon.phys = phys ∧ t.gw.aon.events = [] ∧ t.gw.aon.tick = s.gw.aon.tick + 1 ∧
    (∀ e, s.gw.aon.asleep = true → s.gw.aon.waking = none → s.gw.aon.events = [e] → ∃ r, t.gw.aon.waking = some r ∧ r.ev = e)) ∧
  (∀ (s : State) (d : Nat) (f : BusFrame), d < 8 → s.gw.listening = true →
    wdecMatches (mgetD s.gw.aon.decoders d 0) f true = true →
    Machine.exec (.wakeDecoderMatch d f true) s = .next (s.after { s.gw with aon := { s.gw.aon with
      events := s.gw.aon.events ++ [{ src := 1, index := d, ident := f.ident }] } })) ∧
  (∀ (s : State) (n us : Nat), n < 8 → s.gw.listening = true → bit s.gw.aon.wakeOther n = true → 100 ≤ us →
    Machine.exec (.t1sActivityWake n us) s = .next (s.after { s.gw with aon := { s.gw.aon with
      events := s.gw.aon.events ++ [{ src := 3, index := n }] } })) ∧
  (∀ (s : State) (n src : Nat) (c : Instr), s.gw.aon.asleep = true → s.gw.aon.waking = none →
    ((c = .wakePin n ∧ src = 2 ∧ n < 8 ∧ bit (activePins s.gw.aon.wakePins s.gw.aon.pins &&&
        activePins s.gw.aon.wakePins s.gw.aon.pinsBefore) n = true) ∨
     (c = .phyInterruptWake n ∧ src = 4 ∧ n < 12 ∧ bit s.gw.aon.wakeOther (8 + n) = true ∧ bit s.gw.aon.phys n = false ∧
        bit s.gw.aon.physBefore n = false)) →
    Machine.exec c s = .next (s.after { s.gw with aon := { s.gw.aon with
      waking := some ⟨⟨src, n, 0⟩, true, s.gw.aon.tick - s.gw.aon.sleepTick⟩ } })) ∧
  (∀ (s : State), (s.gw.commitDue = true → ∃ t, Machine.exec .commitTick s = .next t ∧ t.gw.aon.asleep = true ∧
      t.gw.aon.pwrEn = false ∧ t.gw.aon.armed = true ∧ t.gw.aon.sleepTick = s.gw.aon.tick ∧ t.dram = []) ∧
    (s.gw.commitDue = false → Machine.exec .commitTick s = .next s)) ∧
  (∀ (s : State), (∀ r, s.gw.aon.asleep = true → s.gw.aon.waking = some r → ∃ t, Machine.exec .aonWakeStart s = .next t ∧
      t.gw.aon.asleep = false ∧ t.gw.aon.pwrEn = true ∧ t.gw.aon.record = r ∧ t.gw.aon.waking = none) ∧
    (s.gw.aon.asleep = false → Machine.exec .aonWakeStart s = .next s)) ∧
  (∀ (s : State), ∃ t, Machine.exec .aonCrystalTakeover s = .next t ∧ t.gw.aon.crystal = true ∧ t.gw.isl = s.gw.isl)

/-- Marks, acknowledgements, playback sessions and capture FIFOs. (R634, R635, R725, R726, R727, R728, R733, R734,
R735, R736, R737, R738) The model's own choices in it: log entries 132, 133, 134. -/
def Obligations.ArchiveAndCapture : Prop :=
  (∀ (s : State) (m k : Nat), s.gw.holds m 0x0D01 = true → s.gw.serving = false → k = bits (s.gw.arg m 0) 1 0 →
    (s.gw.arcEn k = false → Machine.exec (.arcTrigger m) s = .next (s.after (s.gw.reply m 0x03 0 []))) ∧
    (s.gw.arcEn k = true → (s.gw.arcAt k).mark.isSome = true →
      Machine.exec (.arcTrigger m) s = .next (s.after (s.gw.reply m 0x0F 0 []))) ∧
    (s.gw.arcEn k = true → (s.gw.arcAt k).mark = none →
      ∃ p, Machine.exec (.arcTrigger m) s = .next (s.after ((s.gw.setArc k { s.gw.arcAt k with
          mark := some (p, (s.gw.arcAt k).wr), markLost := false }).reply m 0 0 (splitWords 2 (s.gw.arcOff k p)))) ∧
        (p = (s.gw.arcAt k).wr ∨ (∃ n, (p, n) ∈ (s.gw.arcAt k).recs ∧ (s.gw.arcAt k).wr ≤ p + s.gw.arcDepth k)))) ∧
  (∀ (s : State) (m k : Nat), s.gw.holds m 0x0D02 = true → s.gw.serving = false → k = bits (s.gw.arg m 0) 1 0 →
    ((s.gw.arcEn k = false ∨ (s.gw.arcAt k).mark = none) →
      Machine.exec (.arcAck m) s = .next (s.after (s.gw.reply m 0x03 0 []))) ∧
    (s.gw.arcEn k = true → (s.gw.arcAt k).mark.isSome = true →
      Machine.exec (.arcAck m) s = .next (s.after ((s.gw.setArc k { s.gw.arcAt k with
        mark := none, held := false, dropped := 0 }).reply m 0 0 [])))) ∧
  (∀ (s : State) (m k p : Nat), s.gw.holds m 0x0D03 = true → s.gw.serving = false → bit (s.gw.arg m 0) 31 = false →
    k = bits (s.gw.arg m 0) 1 0 →
    (s.gw.arc.play.isSome = true → Machine.exec (.arcPlay m) s = .next (s.after (s.gw.reply m 0x0F 0 []))) ∧
    (s.gw.arc.play = none → s.gw.arcEn k = true → 500 ≤ s.gw.arg64 m 4 → s.gw.arcPos k (s.gw.arg64 m 1) = some p →
      ∃ x : Playback, x.ring = k ∧ x.pos = p ∧ x.pass = s.gw.arg64 m 4 ∧ x.bytes = (s.gw.arcAt k).wr ∧
        x.left = (if s.gw.arg m 3 = 0 then none else some (s.gw.arg m 3)) ∧ x.lastSeq = none ∧
        Machine.exec (.arcPlay m) s = .next (s.after (({ s.gw with arc := { s.gw.arc with
          play := some x, playRing := k, playCnt := 0 } } : Gw).reply m 0 0 [])))) ∧
  (∀ (s : State) (m : Nat), s.gw.holds m 0x0D03 = true → s.gw.serving = false → bit (s.gw.arg m 0) 31 = true →
    Machine.exec (.arcPlayStop m) s = .next (s.after
      (if s.gw.arc.play = none then s.gw.reply m 0x03 0 []
       else (({ s.gw with arc := { s.gw.arc with play := none } } : Gw).flag Reg.arcFlag 0x100).reply m 0 0 []))) ∧
  (∀ (s : State) (m k : Nat), s.gw.holds m 0x0D04 = true → k = bits (s.gw.arg m 0) 1 0 →
    ∃ w0, Machine.exec (.arcStatus m) s = .next (s.after (s.gw.reply m 0 0
        ([w0] ++ splitWords 2 (s.gw.arcOff k (s.gw.arcAt k).wr) ++
          splitWords 2 (((s.gw.arcAt k).mark.map (fun y => s.gw.arcOff k y.1)).getD 0) ++
          [min 0xFFFFFFFF (s.gw.arcAt k).dropped] ++ splitWords 2 (s.gw.arcSize k)))) ∧
      bit w0 31 = s.gw.arcEn k ∧ bit w0 30 = s.gw.arcRoll k ∧ bit w0 29 = (s.gw.arcAt k).mark.isSome ∧
      bit w0 28 = (s.gw.arcAt k).held ∧ bit w0 27 = (s.gw.arcAt k).markLost) ∧
  (∀ (s : State) (p : Playback) (q : Nat) (h : List Byte), s.gw.str.run = true → s.gw.islOn 14 = true → s.gw.arc.play = some p →
    h = dramRead s.dram (s.gw.arcBaseMib p.ring * mib + s.gw.arcOff p.ring p.pos) 32 →
    (p.left = some 0 ∨ (p.left = none ∧ p.bytes ≤ p.pos) →
      Machine.exec .playbackRecordFetch s = .next (s.after
        (({ s.gw with arc := { s.gw.arc with play := none } } : Gw).flag Reg.arcFlag 0x100))) ∧
    (∀ n, p.left = some (n + 1) → byteAt h 2 = 2 →
      Machine.exec .playbackRecordFetch s = .next (s.after { s.gw with arc := { s.gw.arc with
        play := some { p with pos := p.pos + 32 + fromLe (slice h 0 2) } } })) ∧
    (∀ n, p.left = some (n + 1) → byteAt h 2 = 1 → p.lastSeq = some q → fromLe (slice h 4 4) ≠ (q + 1) % 4294967296 →
      Machine.exec .playbackRecordFetch s = .next (s.after
        (({ s.gw with arc := { s.gw.arc with play := none } } : Gw).flag Reg.arcFlag 0x200))) ∧
    (∀ n, p.left = some (n + 1) → byteAt h 2 = 1 → 16384 < fromLe (slice h 0 2) ∨
        s.gw.spoilt (s.gw.arcBaseMib p.ring * mib + s.gw.arcOff p.ring p.pos) 32 = true →
      Machine.exec .playbackRecordFetch s = .next (s.after
        (({ s.gw with arc := { s.gw.arc with play := none } } : Gw).flag Reg.arcFlag 0x200))) ∧
    (∀ n, p.left = some (n + 2) → byteAt h 2 = 1 → p.lastSeq = none → bit (byteAt h 3) 3 = false →
      asI64 (fromLe (slice h 16 8)) + 8 * (p.pass : Int) ≤ s.gw.now + 8000000 →
      s.gw.str.cellWait.any (fun y => y.fport = 20) = false → fromLe (slice h 0 2) ≤ 16384 →
      s.gw.spoilt (s.gw.arcBaseMib p.ring * mib + s.gw.arcOff p.ring p.pos) (32 + fromLe (slice h 0 2)) = false →
      ∃ t x, Machine.exec .playbackRecordFetch s = .next t ∧ t.gw.arc.playCnt = s.gw.arc.playCnt + 1 ∧
        t.gw.arc.play = some x ∧ x.left = some (n + 1) ∧ x.lastSeq = some (fromLe (slice h 4 4)) ∧
        x.pos = p.pos + recSize (fromLe (slice h 0 2)))) ∧
  (∀ (s : State) (n : Nat), n < 46 → 0 < (s.gw.fifo n).lost → (s.gw.fifo n).bytes.length + 12 ≤ 4096 →
    ∃ t, Machine.exec (.captureLostItem n) s = .next t ∧ (t.gw.fifo n).lost = 0 ∧
      (t.gw.fifo n).bytes = (s.gw.fifo n).bytes ++ capHeader 12 3 0 (s.gw.fifo n).lost 0 ∧
      (∀ k, k ≠ n → t.gw.fifo k = s.gw.fifo k)) ∧
  (∀ (s : State) (n : Nat), n < 46 →
    ((s.gw.fifo n).bytes = [] → ∃ t, Machine.exec (.arcCapD0Read n) s = .next t ∧
      t.gw.out.contains (.readData (Reg.arcCapD0 n) (w32 0xA5A50000)) = true ∧ t.gw.regN (Reg.arcCapTag n) = 0 ∧
      t.gw.fifo n = s.gw.fifo n) ∧
    ((s.gw.fifo n).bytes ≠ [] → ∃ t, Machine.exec (.arcCapD0Read n) s = .next t ∧
      t.gw.out.contains (.readData (Reg.arcCapD0 n) (w32 (fromLe (padTo 4 ((s.gw.fifo n).bytes.take 4))))) = true ∧
      (t.gw.fifo n).bytes = (s.gw.fifo n).bytes.drop 32 ∧
      t.gw.regN (Reg.arcCapTag n) = min 32 (s.gw.fifo n).bytes.length))

/-- An update session here: begun, filled with checked blocks, verified, activated or aborted; and requests that
travel. (R636, R637, R638, R639, R640, R641, R780, R782, R783, R784, R785, R786) The model's own choices in it: log
entries 148, 149, 151. -/
def Obligations.UpdateSessions : Prop :=
  (∀ (s : State) (m kind : Nat), s.gw.holds m 0x0E01 = true → bits (s.gw.arg m 0) 27 16 = 0 → kind = s.gw.arg m 0 % 2 →
    (bits (s.gw.arg m 3) 15 0 = 0 ∨ 32768 < bits (s.gw.arg m 3) 15 0 →
      Machine.exec (.updBegin m) s = .next (s.after (s.gw.reply m 0x03 0 []))) ∧
    (1 ≤ bits (s.gw.arg m 3) 15 0 → bits (s.gw.arg m 3) 15 0 ≤ 32768 → s.gw.upd.session.isSome = true →
      Machine.exec (.updBegin m) s = .next (s.after (s.gw.reply m 0x01 0 []))) ∧
    (kind = 0 → 1 ≤ bits (s.gw.arg m 3) 15 0 → bits (s.gw.arg m 3) 15 0 ≤ 32768 → s.gw.upd.session = none →
      s.gw.arg m 1 = s.gw.fwVersion % 4294967296 → s.gw.arg m 1 ≤ s.gw.arg m 2 →
      bits (s.gw.arg m 3) 15 0 * 4128 ≤ s.gw.regionMib 4 * mib →
      Machine.exec (.updBegin m) s = .next (s.after (({ s.gw with upd := { s.gw.upd with
        session := some { num := s.gw.upd.lastNum % 255 + 1, kind := 0, base := s.gw.arg m 1, new := s.gw.arg m 2, blocks := bits (s.gw.arg m 3) 15 0, target := 0 }
        lastNum := s.gw.upd.lastNum % 255 + 1 } } : Gw).reply m 0 0 [s.gw.upd.lastNum % 255 + 1])))) ∧
  (∀ (s : State) (m code : Nat) (c : Instr), s.gw.holds m code = true → s.gw.sessionAt (bits (s.gw.arg m 0) 7 0) = none →
    s.gw.remoteAt (bits (s.gw.arg m 0) 7 0) = none →
    (c, code) ∈ [(Instr.updBlock m, 0x0E02), (Instr.updVerify m, 0x0E03), (Instr.updActivate m, 0x0E04), (Instr.updAbort m, 0x0E05), (Instr.updStatus m, 0x0E06)] →
    Machine.exec c s = .next (s.after (s.gw.reply m 0x07 0 []))) ∧
  (∀ (s : State) (m i : Nat) (u : UpdSession) (part : List Byte), s.gw.holds m 0x0E02 = true →
    s.gw.sessionAt (bits (s.gw.arg m 0) 7 0) = some u → i = bits (s.gw.arg m 0) 22 8 → i < u.blocks →
    mget? u.received i = none → part = mgetD u.parts i [] → s.gw.chunkOk m part.length = true →
    ((part ++ s.gw.chunk m).length ≠ 4128 → Machine.exec (.updBlock m) s = .next (s.after
      ((s.gw.setSession (some { u with parts := mset u.parts i (part ++ s.gw.chunk m) })).reply m 0 0 [0]))) ∧
    ((part ++ s.gw.chunk m).length = 4128 → blockOk i (part ++ s.gw.chunk m) = true →
      Machine.exec (.updBlock m) s = .next (s.after ((s.gw.setSession (some { u with
        parts := merase u.parts i, received := mset u.received i (part ++ s.gw.chunk m) })).reply m 0 0 [1]))) ∧
    ((part ++ s.gw.chunk m).length = 4128 → blockOk i (part ++ s.gw.chunk m) = false →
      Machine.exec (.updBlock m) s = .next (s.after (((s.gw.setSession (some { u with
        parts := merase u.parts i })).bump Reg.updBlkfailCnt).reply m 0x0B 0 [])))) ∧
  (∀ (s : State) (m : Nat) (u : UpdSession), s.gw.holds m 0x0E03 = true →
    s.gw.sessionAt (bits (s.gw.arg m 0) 7 0) = some u →
    (∀ i, i < u.blocks → mget? u.received i = none → (∀ j, j < i → mget? u.received j ≠ none) →
      Machine.exec (.updVerify m) s = .next (s.after (s.gw.reply m 0x03 0 [i]))) ∧
    ((∀ i, i < u.blocks → mget? u.received i ≠ none) → Machine.exec (.updVerify m) s = .next (s.after
      (match s.gw.reconstruct u with
       | some pkg => (s.gw.setSession (some { u with phase := 1, image := pkg })).reply m 0 0 [0xFFFF]
       | none => s.gw.reply m 0x0B 0 [])))) ∧
  (∀ (s : State) (m : Nat) (u : UpdSession), s.gw.holds m 0x0E04 = true →
    s.gw.sessionAt (bits (s.gw.arg m 0) 7 0) = some u → u.kind = 1 → u.phase = 1 →
    ∃ t c, Machine.exec (.updActivateConfig m) s = .next t ∧ t.gw.upd.session = none ∧ (t.gw.mbxAt m).st = .done ∧
      mget? t.gw.flash.cfg 0 = some c ∧ mget? t.gw.flash.cfg 1 = some c ∧ c.header = u.image.take 2624 ∧
      t.gw.flash.slots = s.gw.flash.slots) ∧
  (∀ (s : State) (m : Nat) (u : UpdSession), s.gw.holds m 0x0E04 = true →
    s.gw.sessionAt (bits (s.gw.arg m 0) 7 0) = some u → u.kind = 0 →
    (u.phase ≠ 1 → Machine.exec (.updActivate m) s = .next (s.after (s.gw.reply m 0x03 0 []))) ∧
    (u.phase = 1 → s.gw.farNeighbour (pkgChain u.image) = false →
      ∃ t h, Machine.exec (.updActivate m) s = .next t ∧ t.gw.fw.state = .handover ∧ t.gw.ho = some h ∧
        h.slot = s.gw.spareSlot ∧ h.mbx = some m ∧ h.epoch % 2 ^ 20 = 0 ∧ s.gw.now + 8000000 ≤ h.epoch ∧
        mget? t.gw.flash.slots s.gw.spareSlot = some (.image u.image) ∧ (t.gw.mbxAt m).st = (s.gw.mbxAt m).st)) ∧
  (∀ (s : State) (m : Nat) (u : UpdSession), s.gw.sessionAt (bits (s.gw.arg m 0) 7 0) = some u →
    (s.gw.holds m 0x0E05 = true → Machine.exec (.updAbort m) s = .next (s.after
      (if u.phase = 2 then s.gw.reply m 0x0F 0 [] else (s.gw.setSession none).reply m 0 0 []))) ∧
    (s.gw.holds m 0x0E06 = true → Machine.exec (.updStatus m) s = .next (s.after
      (s.gw.reply m 0 0 [u.phase % 4 * 4 + u.kind % 2, u.received.length, u.blocks, u.target])))) ∧
  (∀ (s : State) (x : Inbound) (rest : List Inbound) (w : UpdWait) (ws : List UpdWait) (st : Int), s.gw.pairRuns 1 = true →
    s.gw.chn.inbox = x :: rest → x.msg.cls = 3 → x.msg.typ = 8 → x.msg.dst = s.gw.chnAddr → x.msg.body = [st] → 0 < st →
    s.gw.upd.waits = w :: ws → w.target = x.msg.src →
    Machine.exec .updMessageReceive s = .next (s.after (({ s.gw with
      chn := { s.gw.chn with inbox := rest }, upd := { s.gw.upd with waits := ws } } : Gw).reply w.mbx st.toNat 0 []))) ∧
  (∀ (s : State) (x : Inbound) (rest : List Inbound) (bs : List Byte) (i out : Nat), s.gw.pairRuns 1 = true →
    s.gw.chn.inbox = x :: rest → x.msg.cls = 3 → x.msg.typ = 2 → x.msg.dst ≠ s.gw.chnAddr →
    x.msg.body = [7, (i : Int)] ++ bs.map (fun b => Int.ofNat b.toNat) → blockOk i bs = true →
    ({ s.gw with chn := { s.gw.chn with inbox := rest } } : Gw).routeTo x.msg.dst = some out →
    Machine.exec .updMessageReceive s = .next (s.after ((({ s.gw with chn := { s.gw.chn with inbox := rest } } : Gw).bump
      Reg.updRelayCnt).passOn x.port out x.msg))) ∧
  (∀ (s : State) (m : Nat) (w : UpdWait) (ws : List UpdWait), s.gw.pairRuns 1 = true → s.gw.upd.waits = w :: ws → w.mbx = m →
    w.tick + s.gw.updLimit w.typ ≤ s.gw.tb.tick →
    Machine.exec (.updRemoteTimeout m) s = .next (s.after (({ s.gw with upd := { s.gw.upd with waits := ws } } : Gw).reply m 0x0A 0 [])))

/-- The boot ROM starts the selected image, the firmware loads its configuration, and a handover commits or rolls
back. (R591, R764, R767, R788, R789, R790, R791, R793, R794, R795, R798, R803) The model's own choices in it: log
entries 142, 150, 153. -/
def Obligations.BootAndHandover : Prop :=
  (∀ (s : State) (slot : Nat) (fb : Bool), s.gw.boot.stage = 1 → s.gw.aon.released = true → s.gw.aon.testMode = false →
    s.gw.mustReset = false → s.gw.aon.bootSel ≠ 3 → s.gw.bootChoice = some (slot, fb) →
    ∃ t, Machine.exec (.bootRomStart [] true) s = .next t ∧ t.gw.boot.stage = 2 ∧ t.gw.boot.slot = slot ∧
      t.gw.boot.fallback = fb ∧ t.gw.fw.state = .boot ∧ t.gw.fw.running = true ∧ t.gw.mbx = [] ∧
      (∀ i, i < 16 → s.gw.islFenced i = false → i ≠ 13 → t.gw.islOn i = true) ∧ bit (t.gw.regN Reg.mbxFlag) 29 = true) ∧
  (∀ (s : State), s.gw.boot.stage = 1 → s.gw.aon.released = true → s.gw.aon.testMode = false → s.gw.mustReset = false →
    s.gw.bootChoice = none → s.gw.fw.presence = true →
    ∃ t, Machine.exec (.bootRomStart [] true) s = .next t ∧ t.gw.boot.stage = 4) ∧
  (∀ (s : State), s.gw.boot.stage = 2 → s.gw.fw.running = true → s.gw.flash.faultSlot = [] → s.gw.mustReset = false →
    s.gw.flash.cfg = [] →
    ∃ t, Machine.exec (.firmwareBoot []) s = .next t ∧ t.gw.boot.stage = 3 ∧ t.gw.fw.cfgDefaults = true ∧
      t.gw.boot.causes = [2, 2] ∧ (t.gw.fw.state = .run ∨ t.gw.fw.state = .degraded) ∧ t.gw.str.run = true) ∧
  (∀ (s : State) (h : Handover), s.gw.ho = some h → h.started = false → h.epoch ≤ s.gw.now → s.gw.fw.state = .handover →
    s.gw.pairState 0 = 1 →
    ∃ t x, Machine.exec .handoverEpoch s = .next t ∧ t.gw.ho = some x ∧ x.started = true ∧ x.tick = s.gw.tb.tick ∧
      t.gw.pairState 0 = 3 ∧ t.gw.pairState 1 = s.gw.pairState 1) ∧
  (∀ (s : State) (h : Handover), s.gw.ho = some h → h.started = true → s.gw.pairState 0 = 3 → s.gw.pairState 1 = 1 →
    (∃ t, Machine.exec (.pairNewImageRun 0 true) s = .next t ∧ t.gw.pairState 0 = 1 ∧ t.gw.pairState 1 = 3 ∧
      t.gw.ho = some { h with pairsNew := h.pairsNew ||| 1 }) ∧
    (∃ t x, Machine.exec (.pairNewImageRun 0 false) s = .next t ∧ t.gw.ho = some x ∧ x.failed = true ∧
      bit (t.gw.regN Reg.lckFlag) 23 = true)) ∧
  (∀ (s : State) (h : Handover) (m : Nat), s.gw.ho = some h → h.mbx = some m → m < 64 → s.gw.healthy h = true → s.gw.deferred = [] →
    s.gw.chn.faultBy = none → s.gw.fw.back = .run → s.gw.nm.awake = true →
    ∃ t, Machine.exec .healthyReport s = .next t ∧ t.gw.ho = none ∧ t.gw.boot.slot = h.slot ∧ t.gw.upd.session = none ∧
      t.gw.fw.state = .run ∧ (t.gw.mbxAt m).st = .done ∧ t.gw.regN Reg.updHoCnt = satAdd (s.gw.regN Reg.updHoCnt) 1 ∧
      (∃ i n, mget? t.gw.flash.selector i = some (h.slot, n))) ∧
  (∀ (s : State) (h : Handover) (m : Nat), s.gw.ho = some h → h.mbx = some m → m < 64 → h.started = true →
    (h.tick + s.gw.param Par.updHealthMs * 500000 ≤ s.gw.tb.tick ∨ s.gw.healthFailed h = true) → s.gw.deferred = [] →
    s.gw.chn.faultBy = none → s.gw.fw.back = .run → s.gw.nm.awake = true → s.gw.keys.loopOpen = false →
    ∃ t, Machine.exec .healthTimeout s = .next t ∧ t.gw.ho = none ∧ t.gw.boot.slot = s.gw.boot.slot ∧ t.gw.fw.state = .run ∧
      (∀ u, t.gw.upd.session = some u → u.phase = 1) ∧ (t.gw.mbxAt m).st = .done ∧ bits (t.gw.mbxWord m 1) 15 8 = 0x0A ∧
      t.gw.regN Reg.updRbCnt = satAdd (s.gw.regN Reg.updRbCnt) 1) ∧
  (∀ (s : State) (v : W32), s.gw.boot.stage = 4 → bit v.toNat 31 = true → bits v.toNat 15 0 = 0 →
    Machine.exec (.updRomCtlGo v) s = .next (s.after { s.gw with boot := { s.gw.boot with romStat := 2 ^ 31 + 3 } })) ∧
  (∀ (s : State) (v : W32) (bs : List Byte), s.gw.boot.stage = 4 → bit v.toNat 31 = true → 1 ≤ bits v.toNat 15 0 →
    bits v.toNat 15 0 ≤ 4096 →
    bs = (dramRead s.dram (512 * mib) (bits v.toNat 15 0 * 4096)).take
      (2624 + pkgBodyLen (dramRead s.dram (512 * mib) (bits v.toNat 15 0 * 4096)) + 4627) → imageCause bs = 0 →
    s.gw.aon.released = true → s.gw.aon.testMode = false →
    ∃ t, Machine.exec (.updRomCtlGo v) s = .next t ∧ mget? t.gw.flash.slots 0 = some (.image bs) ∧ t.gw.boot.stage = 1 ∧
      ∃ i n, mget? t.gw.flash.selector i = some (0, n))

/-- A detected error is logged, its unit tested, put back or fenced; pairs restart; islands are reset and start again.
(R744, R752, R753, R754, R755, R757, R758, R759, R760, R764, R810, R811) The model's own choices in it: log entries
136, 137, 139, 143. -/
def Obligations.FaultHandling : Prop :=
  (∀ (s : State) (k lane : Nat), k < 2 → s.gw.pairState k = 1 → s.gw.islOn 10 = true → s.gw.pairState (1 - k) = 1 →
    ∃ t, Machine.exec (.lockstepMismatch k lane) s = .next t ∧ t.gw.pairState k = 2 ∧ t.gw.pairState (1 - k) = 1 ∧
      t.gw.regN (Reg.lckMisCnt k) = satAdd (s.gw.regN (Reg.lckMisCnt k)) 1 ∧
      t.gw.detected = s.gw.detected ++ [{ kind := 1, detail := 16 * k + lane % 8, island := 10, unit := k }] ∧
      bit (t.gw.regN Reg.lckFlag) 31 = true) ∧
  (∀ (s : State) (k lane : Nat), k < 2 → s.gw.pairState k = 1 → s.gw.islOn 10 = true → s.gw.pairState (1 - k) ≠ 1 →
    s.gw.handing = false → s.gw.aon.released = true → s.gw.aon.testMode = false →
    ∃ t, Machine.exec (.lockstepMismatch k lane) s = .next t ∧ t.gw.boot.stage = 1 ∧ t.gw.fw.running = false) ∧
  (∀ (s : State) (k : Nat), k < 2 → s.gw.pairState k = 1 → s.gw.islOn 10 = true →
    Machine.exec (.inputSkew k none) s = .next (s.after (s.gw.bump (Reg.lckSkewCnt k))) ∧
    ∀ lane, Machine.exec (.inputSkew k (some lane)) s = Machine.exec (.lockstepMismatch k lane) s) ∧
  (∀ (s : State) (r : ErrReport) (rest : List ErrReport) (code : Bool) (a b c : Nat), s.gw.detected = r :: rest →
    s.gw.handing = false → s.gw.pairRuns (s.gw.handler r) = true → s.gw.flt.tests = [] →
    ∃ t e x, Machine.exec (.detectedErrorHandling 0 a b c code) s = .next t ∧ t.gw.detected = rest ∧
      t.gw.flt.log = s.gw.flt.log ++ [e] ∧ e.kind = r.kind ∧ e.island = r.island ∧ e.cls = 0 ∧ e.detail = r.detail ∧
      t.gw.flt.tests = [x] ∧ x.rep = r ∧ x.running = true) ∧
  (∀ (s : State) (x : FaultTest), s.gw.flt.tests = [x] → x.running = true → x.mustFail = false → x.rep.kind = 3 →
    s.gw.recentTransients x.rep.key < 3 →
    ∃ t, Machine.exec (.targetedTestComplete x.rep.island true) s = .next t ∧ t.gw.flt.tests = [] ∧
      bit t.gw.cryUp (x.rep.unit % 10) = true ∧ t.gw.flash.faultSlot = s.gw.flash.faultSlot ∧
      t.gw.regN (Reg.lckTransCnt 2) = satAdd (s.gw.regN (Reg.lckTransCnt 2)) 1 ∧
      (∀ e ∈ t.gw.flt.log, e.seq = x.seq → e.cls = 1)) ∧
  (∀ (s : State) (x : FaultTest), s.gw.flt.tests = [x] → x.running = true → x.rep.kind = 3 → x.rep.unit < 8 →
    bit s.gw.flt.aes (x.rep.unit) = false → s.gw.flt.aes = 0 → s.gw.mustReset = false →
    ∃ t, Machine.exec (.targetedTestComplete x.rep.island false) s = .next t ∧ t.gw.flt.tests = [] ∧
      bit t.gw.flt.aes x.rep.unit = true ∧ t.gw.flash.faultSlot = s.gw.flash.faultSlot ++ [x.rep] ∧
      t.gw.regN (Reg.lckLastCnt 2) = satAdd (s.gw.regN (Reg.lckLastCnt 2)) 1 ∧ bit (t.gw.regN Reg.lckFlag) 24 = true ∧
      (s.gw.fw.state = .run → t.gw.fw.state = .degraded)) ∧
  (∀ (s : State) (k : Nat), k < 2 → s.gw.pairState k = 3 → s.gw.islOn 10 = true → s.gw.handing = false → s.gw.str.changes = [] →
    ∃ t, Machine.exec (.pairRestart k 255) s = .next t ∧ t.gw.pairState k = 1 ∧ t.gw.pairState (1 - k) = s.gw.pairState (1 - k) ∧
      bit (t.gw.regN Reg.mbxFlag) 29 = true ∧ mgetD t.gw.flt.inj k 0 = 0xC00000FF ∧
      (∀ m ∈ s.gw.openCommands k, (t.gw.mbxAt m).st = .idle)) ∧
  (∀ (s : State) (k : Nat), k < 2 → s.gw.pairState k = 3 → s.gw.islOn 10 = true → s.gw.handing = false →
    s.gw.pairState (1 - k) ≠ 4 → s.gw.mustReset = false →
    ∃ t, Machine.exec (.pairRestart k 254) s = .next t ∧ t.gw.pairState k = 4 ∧ bit (t.gw.regN Reg.lckFlag) 23 = true ∧
      bit (t.gw.regN Reg.lckFlag) 24 = true) ∧
  (∀ (s : State) (v : W32) (i : Nat), s.gw.islOn 10 = true → v.toNat = 2 ^ i → i < 16 → i ≠ 10 → i ≠ 14 → i ≠ 15 → s.gw.islOn i = true →
    ∃ t, Machine.exec (.lckIslRst v) s = .next t ∧ t.gw.islOn i = false ∧ t.gw.str.run = false ∧
      (∃ k, mget? t.gw.islRst i = some k ∧ k = t.gw.tb.tick + 5000) ∧
      (∀ j, j ≠ i → mgetD t.gw.isl j 0 = mgetD s.gw.isl j 0)) ∧
  (∀ (s : State) (v : W32), s.gw.islOn 10 = true → (v.toNat = 2 ^ 10 ∨ v.toNat = 2 ^ 14 ∨ v.toNat = 2 ^ 15) →
    Machine.exec (.lckIslRst v) s = .next s) ∧
  (∀ (s : State) (i k : Nat), mget? s.gw.islRst i = some k → k ≤ s.gw.tb.tick → s.gw.islFenced i = false →
    s.gw.aon.testMode = false → ∃ t, Machine.exec (.islandStart i) s = .next t ∧ t.gw.islOn i = true ∧ mget? t.gw.islRst i = none)

/-- Self-tests, the error log, debug access and the last-gasp record. (R642, R643, R644, R749, R752, R769, R770) The
model's own choices in it: log entries 138, 141, 159. -/
def Obligations.DiagnosticsAndPowerFail : Prop :=
  (∀ (s : State) (m i us : Nat) (pass : Bool), s.gw.holds m 0x0F01 = true → i = bits (s.gw.arg m 0) 3 0 →
    ((i = 10 ∨ 14 ≤ i) → Machine.exec (.diagSelftest m pass us) s = .next (s.after (s.gw.reply m 0x03 0 []))) ∧
    (i ≠ 10 → i < 14 → s.gw.fw.state = .config →
      (pass = false → Machine.exec (.diagSelftest m pass us) s = .next (s.after ((s.gw.fenceIsland i).reply m 0 0 [1, min us 5000])) ∧
        (s.gw.fenceIsland i).islFenced i = true) ∧
      (pass = true → ∃ t, Machine.exec (.diagSelftest m pass us) s = .next t ∧ t.gw.islFenced i = s.gw.islFenced i ∧
        (s.gw.islFenced i = false → t.gw.islOn i = true))) ∧
    (i ≠ 10 → i < 14 → s.gw.fw.state ≠ .config → Machine.exec (.diagSelftest m pass us) s = .next (s.after
      (if s.gw.islFenced i then s.gw.reply m 0 0 [if pass then 0 else 1, min us 5000] else s.gw.reply m 0x03 0 [])))) ∧
  (∀ (s : State) (m : Nat), s.gw.holds m 0x0F02 = true →
    ∃ es : List ErrRec, Machine.exec (.diagErrlog m) s = .next (s.after (s.gw.reply m 0 0
        (((if (s.gw.errAfter (bits (s.gw.arg m 0) 15 0)).length ≤ 62 then 2 ^ 31 else 0) + es.length) :: es.flatMap ErrRec.words))) ∧
      es = (s.gw.errAfter (bits (s.gw.arg m 0) 15 0)).take 62) ∧
  (∀ (s : State) (m : Nat), s.gw.holds m 0x0F03 = true → bit (s.gw.arg m 0) 0 = true →
    Machine.exec (.diagDebugUnlock m) s = .next (s.after (if s.gw.fw.presence then
      ({ s.gw with flt := { s.gw.flt with dbg := some (Int.ofNat s.gw.tb.tick) } } : Gw).reply m 0 0 [] else s.gw.reply m 0x05 0 []))) ∧
  (∀ (s : State) (m : Nat), s.gw.holds m 0x0F03 = true → bit (s.gw.arg m 0) 0 = false →
    Machine.exec (.diagDebugLock m) s = .next (s.after
      (({ s.gw with flt := { s.gw.flt with dbg := none } } : Gw).reply m 0 0 []))) ∧
  (∀ (s : State) (k : Int), s.gw.flt.dbg = some k → s.gw.param Par.diagDebugAutolockS ≠ 0 →
    k + (s.gw.param Par.diagDebugAutolockS : Int) * 500000000 ≤ (s.gw.tb.tick : Int) →
    Machine.exec .debugAutolock s = .next (s.after { s.gw with flt := { s.gw.flt with dbg := none } })) ∧
  (∀ (s : State) (k op : Nat), k < 2 → s.gw.flt.dbg ≠ none → s.gw.islOn 10 = true →
    ∃ t, Machine.exec (.debuggerAccess k op) s = .next t ∧ (op = 0 → t.gw.pairRuns k = false) ∧
      (op = 1 → (mgetD t.gw.pairs k {}).halted = false) ∧ t.gw.pairState k = s.gw.pairState k) ∧
  (∀ (s : State) (k op : Nat), s.gw.flt.dbg = none → Machine.exec (.debuggerAccess k op) s = .next s) ∧
  (∀ (s : State) (m off : Nat), s.gw.holds m 0x0F04 = true → off = bits (s.gw.arg m 0) 11 0 →
    (off % 4 ≠ 0 → Machine.exec (.diagLastgasp m) s = .next (s.after (s.gw.reply m 0x03 0 []))) ∧
    (off % 4 = 0 → Machine.exec (.diagLastgasp m) s = .next (s.after (s.gw.reply m 0 0
      (((if s.gw.newestGasp.isSome then 2 ^ 31 else 0) + min 960 (4096 - off)) ::
        byteWords (slice (padTo 4096 ((s.gw.newestGasp.map (fun r => r.2.2)).getD [])) off (min 960 (4096 - off)))))))) ∧
  (∀ (s : State), s.gw.flt.powerFail = false → s.gw.pairRuns 1 = true → s.gw.fw.state ≠ .boot → s.gw.fw.state ≠ .sleep →
    ∃ t, Machine.exec .pwrFailNFall s = .next t ∧ t.gw.flt.powerFail = true ∧ t.gw.flash.gaspSeq = s.gw.flash.gaspSeq + 1 ∧
      (∃ i bs, mget? t.gw.flash.gasp i = some (s.gw.flash.gaspSeq + 1, bs) ∧ bs.take 4 = [0x5A, 0x39, 0x36, 0x4C] ∧
        bs.drop 4088 = (sha3x256 (bs.take 4088)).take 8)) ∧
  (∀ (s : State), s.gw.flt.powerFail = true →
    ∃ t, Machine.exec .pwrFailNRise s = .next t ∧ t.gw.flt.powerFail = false ∧
      (s.gw.flt.gaspWritten = true → bit (t.gw.regN Reg.lckFlag) 22 = true ∧
        ¬((mget? t.gw.flash.gasp 0).isSome = true ∧ (mget? t.gw.flash.gasp 1).isSome = true)))

/-- Host rings: tail and enable writes, a frame fetched and injected, delivery to a posted buffer, waits and DMA
errors. (R61, R62, R714, R715, R716, R717, R720, R721, R722, R723, R724) The model's own choices in it: log entries
53, 54, 56, 57, 58. -/
def Obligations.HostRings : Prop :=
  (∀ (s : State) (r : Nat) (v : W32), r < 32 → s.gw.islOn 14 = true →
    ∃ w : W32, Machine.exec (.hdmaTxTailWrite r v) s = .next (s.after (s.gw.setReg (Reg.hdmaTxTail r) w)) ∧
      w.toNat % 4096 = v.toNat % 4096) ∧
  (∀ (s : State) (r : Nat) (d : List Byte) (rest : List (List Byte)) (data : List Byte) (bufs : List (List Byte)) (x : TxSeg)
      (snd : TxSend), r < 32 → s.gw.hostOn = true → s.gw.txEn r = true → (s.gw.txAt' r).send = none → 0 < s.gw.txPosted r →
    dBit d 14 = true → dBit d 11 = false → (dBit d 10 = true → directOk (bits (fromLe (slice d 10 2)) 9 5) = true) →
    data.length = dLen d → 14 ≤ data.length → data.length ≤ 16380 → x = ⟨data, fromLe (slice d 16 8), true⟩ →
    snd = ⟨[x], [], 1, dBit d 13, if dBit d 12 then some (fromLe (slice d 12 2)) else none,
      if dBit d 10 then some (bits (fromLe (slice d 10 2)) 9 5) else none, false⟩ →
    (s.gw.setSend r snd).holdCells + cellsOf (data.length + 4) ≤ s.gw.param Par.calHostHold →
    (s.gw.freeCells (cellsOf (data.length + 4))).isSome = true →
    ∃ (y : Frame) (g : Gw), s.gw.storeFrame { fport := s.gw.ringPort r, body := .eth (withFcs data) } = some (g, y) ∧
    (x.at' = 0 →
      Machine.exec (.hdmaTxFetch r (d :: rest) (data :: bufs)) s = .next (s.after
        ((g.inject r snd x y.fid s.gw.now false).completeTx r 1 (dBit d 13) false 0)) ∧
      ∃ f : Frame, (g.inject r snd x y.fid s.gw.now false).str.inbound = s.gw.str.inbound ++ [f] ∧
        f.fport = 16 + bits (s.gw.regN (Reg.hdmaTxCtl r)) 0 0 ∧ f.sub = r ∧ f.body = .eth (withFcs data) ∧
        f.ing = s.gw.now ∧ f.fid = s.gw.cal.nextFid) ∧
    (x.at' ≠ 0 → s.gw.now < (x.at' : Int) → (x.at' : Int) ≤ s.gw.now + 8000000000 →
      Machine.exec (.hdmaTxFetch r (d :: rest) (data :: bufs)) s = .next (s.after (g.setTx r
        { s.gw.txAt' r with
          send := some { snd with segs := [], held := [(x, (x.at' : Int), s.gw.tb.seg, s.gw.cal.nextFid)] } })))) ∧
  (∀ (s : State) (r : Nat) (descs bufs : List (List Byte)), s.gw.txEn r = false →
    Machine.exec (.hdmaTxFetch r descs bufs) s = .next s) ∧
  (∀ (s : State) (r fid : Nat) (snd : TxSend) (x : TxSeg) (t : Stamp), r < 32 → s.gw.islOn 14 = true →
    (s.gw.txAt' r).send = some snd → snd.held = [(x, t, s.gw.tb.seg, fid)] → snd.segs = [] → snd.late = false →
    (t ≤ s.gw.now → Machine.exec (.hostInjection r) s = .next (s.after
      ((s.gw.inject r snd x fid t false).completeTx r snd.descs snd.irq false 0))) ∧
    (s.gw.now < t → t ≤ s.gw.now + 8000000000 → Machine.exec (.hostInjection r) s = .next s)) ∧
  (∀ (s : State) (r n : Nat) (irq : Bool), r < 32 → 0 < n → ∀ g, g = s.gw.completeTx r n irq false 0 →
    g.regN (Reg.hdmaTxHead r) = (s.gw.regN (Reg.hdmaTxHead r) + n) % s.gw.txSize r ∧ (g.txAt' r).send = none ∧
    g.out = s.gw.out ++ [.hostWrite (s.gw.txBase r + 32 * ((s.gw.regN (Reg.hdmaTxHead r) + n - 1) % s.gw.txSize r) + 31) [0x80]]) ∧
  (∀ (s : State) (r : Nat) (v : W32) (bufs : List (Nat × Nat)) (g : Gw) (k : Nat), r < 32 → s.gw.islOn 14 = true →
    (s.gw.rxAt r).waitFrom = none → g = s.gw.plainWrite (Reg.hdmaRxTail r) v →
    k = (g.regN (Reg.hdmaRxTail r) + s.gw.rxSize r - s.gw.regN (Reg.hdmaRxTail r) % s.gw.rxSize r) % s.gw.rxSize r →
    ((s.gw.rxAt r).queue = [] → Machine.exec (.hdmaRxTailWrite r v bufs) s = .next (s.after (g.setRx r
      { s.gw.rxAt r with posted := (s.gw.rxAt r).posted ++ bufs.take k }))) ∧
    (∀ (f : Nat) (w : Sel) (a n : Nat) (b : List Byte), s.gw.rxLive r = true → (s.gw.rxAt r).queue = [(f, w)] →
      (s.gw.rxAt r).posted = [] → (s.gw.rxAt r).filled = [] → (s.gw.rxAt r).left = none → k = 1 → bufs = [(a, n)] →
      bufSizeOk n = true → b = w.copy.frame.body.bytes → 0 < b.length → b.length ≤ n →
      ∃ t, Machine.exec (.hdmaRxTailWrite r v bufs) s = .next t ∧ (t.gw.rxAt r).queue = [] ∧
        t.gw.out.contains (.hostWrite a b) = true ∧
        t.gw.out.contains (.hostWrite (s.gw.rxBase r + 32 * (s.gw.regN (Reg.hdmaRxHead r) % s.gw.rxSize r) + 10)
          (s.gw.rxDescBytes w b.length true true false)) = true ∧
        t.gw.regN (Reg.hdmaRxHead r) = (s.gw.regN (Reg.hdmaRxHead r) + 1) % s.gw.rxSize r)) ∧
  (∀ (s : State) (r f : Nat) (w : Sel) (k : Nat), (s.gw.rxAt r).waitFrom = some k →
    (s.gw.tb.tick < k + ticksPerUs * min 1000 (s.gw.rxWaitUs r) → Machine.exec (.hdmaRxWaitExpiry r) s = .next s) ∧
    (k + ticksPerUs * min 1000 (s.gw.rxWaitUs r) ≤ s.gw.tb.tick → (s.gw.rxAt r).queue = [(f, w)] →
      Machine.exec (.hdmaRxWaitExpiry r) s = .next (s.after (((
        if (s.gw.rxAt r).filled = [] then (s.gw.bump (Reg.hdmaRxNobuf r)).flag Reg.hdmaFlag 0x10000000
        else ((s.gw.writeBack r w (s.gw.rxAt r).filled false).bump (Reg.hdmaRxTrunc r)).flag Reg.hdmaFlag 0x20000000).leaveHost w f).setRx r
          { s.gw.rxAt r with queue := [], filled := [], left := none, waitFrom := none })))) ∧
  (∀ (s : State) (tx : Bool) (r : Nat) (v : W32), r < 32 → s.gw.islOn 14 = true → (tx = true ∨ (s.gw.rxAt r).queue = []) →
    ∃ w : W32, Machine.exec (.hdmaRingEnWrite tx r v) s =
        .next (s.after (s.gw.setReg (if tx then Reg.hdmaTxCtl r else Reg.hdmaRxCtl r) w)) ∧
      ∀ k, k < 32 → w.getLsbD k = if (w32 (if tx then 0xBC000001 else 0xBC0003FF)).getLsbD k then v.getLsbD k
        else (s.gw.reg (if tx then Reg.hdmaTxCtl r else Reg.hdmaRxCtl r)).getLsbD k) ∧
  (∀ (s : State) (r f : Nat) (w : Sel) (v : W32), r < 32 → s.gw.islOn 14 = true → (s.gw.rxAt r).queue = [(f, w)] →
    v.getLsbD 31 = false →
    Machine.exec (.hdmaRingEnWrite false r v) s = .next (s.after ((s.gw.plainWrite (Reg.hdmaRxCtl r) v).cutFrame r))) ∧
  (∀ (s : State) (tx : Bool) (r addr : Nat) (frame : Option Nat), r < 32 → s.gw.hostOn = true →
    (tx = true ∨ (s.gw.rxAt r).queue = []) →
    ∃ t, Machine.exec (.pcieDmaError tx r addr frame) s = .next t ∧
      bit (t.gw.regN (if tx then Reg.hdmaTxCtl r else Reg.hdmaRxCtl r)) 31 = false ∧ bit (t.gw.regN Reg.hdmaFlag) 31 = true ∧
      t.gw.regN Reg.hdmaErrAddrLo = addr % 4294967296 ∧ t.gw.regN Reg.hdmaErrAddrHi = addr / 4294967296 % 4294967296 ∧
      t.gw.regN Reg.hdmaErrInfo = (if tx then 2 ^ 31 else 0) + r)

/-- Crypto queues fetch, check, run, complete and flush requests; TRNG failure and tamper act as described. (R493,
R494, R495, R513, R514, R515, R516, R517, R518, R519, R520, R536) The model's own choices in it: log entries 111, 112,
114, 146. -/
def Obligations.CryptoQueues : Prop :=
  (∀ (s : State) (q : Nat) (v : W32), s.gw.islOn 11 = true →
    (q < 12 → Machine.exec (.cryQTailWrite q v) s = .next (s.after (s.gw.setRegN (Reg.cryQTail q) (v.toNat % 256)))) ∧
    (12 ≤ q → q < 16 → Machine.exec (.cryQTailWrite q v) s = .next (s.after
      (s.gw.setCry q { s.gw.cryAt q with tail := v.toNat % 256, en := true })))) ∧
  (∀ (s : State) (q : Nat) (desc src aux : List Byte) (j : CryJob), q < 12 → s.gw.islOn 11 = true → s.gw.cryEn q = true →
    s.gw.cryHead q ≠ s.gw.cryTail q → j = parseReq desc src aux →
    (255 ≤ s.gw.cryPending q →
      Machine.exec (.cryRequestFetch q desc src aux) s = .next (s.after (s.gw.flag (Reg.cryQStat q) 0x80000000))) ∧
    (s.gw.cryPending q < 255 → (∀ e ∈ s.gw.cryQ, e.2.jobs = []) → 0 < s.gw.engines j.engine →
      (s.gw.cryAt q).stale = [] →
      ∃ t, Machine.exec (.cryRequestFetch q desc src aux) s = .next t ∧
        t.gw.regN (Reg.cryQHead q) = (s.gw.cryHead q + 1) % 256 ∧
        (∀ st gen, (j.wellFormed = false ∧ st = 5 ∧ gen = (if j.keyed then (s.gw.keys.at' j.slot).gen else 0)) ∨
            (j.wellFormed = true ∧ j.keyed = false ∧ j.outSlot ≠ 0xFFFF ∧ st = 3 ∧ gen = 0) ∨
            (j.wellFormed = true ∧ j.keyed = true ∧ gen = (s.gw.keys.at' j.slot).gen ∧
              (((s.gw.keys.at' j.slot).state = 0 ∧ st = 2) ∨ ((s.gw.keys.at' j.slot).state = 2 ∧ st = 4) ∨
               ((s.gw.keys.at' j.slot).state = 1 ∧ bit j.flags 1 = true ∧ j.gen ≠ gen ∧ st = 4))) →
          (t.gw.cryAt q).jobs = [] ∧ t.gw.regN (Reg.cryQCtail q) = (s.gw.regN (Reg.cryQCtail q) % 256 + 1) % 256 ∧
          t.gw.out.contains (.hostWrite (s.gw.regN (Reg.cryQCbaseLo q) / 16 * 16 +
            4294967296 * s.gw.regN (Reg.cryQCbaseHi q) + 16 * (s.gw.regN (Reg.cryQCtail q) % 256))
            (leBytes 2 j.tag ++ leBytes 1 st ++ leBytes 1 j.op ++ leBytes 4 0 ++ leBytes 2 gen ++ List.replicate 6 0)) = true) ∧
        (j.wellFormed = true → j.keyed = false → j.outSlot = 0xFFFF → (j.op = 0x20 → s.gw.trngOk = true ∧ s.gw.flt.trng = false) →
          (t.gw.cryAt q).jobs = [{ j with dispatched := true }])) ∧
    (s.gw.cryPending q < 255 → (s.gw.cryAt q).jobs = [] → j.keyed = true →
      (∃ y ∈ (s.gw.cryAt q).stale, j.slot ∈ y.2) →
      ∃ t, Machine.exec (.cryRequestFetch q desc src aux) s = .next t ∧
        t.gw.out.contains (.hostWrite (s.gw.regN (Reg.cryQCbaseLo q) / 16 * 16 +
            4294967296 * s.gw.regN (Reg.cryQCbaseHi q) + 16 * (s.gw.regN (Reg.cryQCtail q) % 256))
            (leBytes 2 j.tag ++ leBytes 1 4 ++ leBytes 1 j.op ++ leBytes 4 0 ++
              leBytes 2 (s.gw.keys.at' j.slot).gen ++ List.replicate 6 0)) = true)) ∧
  (∀ (s : State) (q : Nat) (desc src aux : List Byte), s.gw.cryHead q = s.gw.cryTail q →
    Machine.exec (.cryRequestFetch q desc src aux) s = .next s) ∧
  (∀ (s : State) (q : Nat) (j : CryJob) (r : Nat × List Byte), q < 12 → s.gw.islOn 11 = true → (s.gw.cryAt q).jobs = [j] →
    (∀ p, p ≠ q → (s.gw.cryAt p).jobs = []) → j.dispatched = true → j.status = none → j.output = [] →
    (j.op = 0x07 → j.outSlot = 0xFFFF) → (j.op = 0x20 → s.gw.trngOk = true ∧ s.gw.flt.trng = false) →
    r = j.run s.gw.free →
    (∃ t, Machine.exec (.cryRequestComplete q 0 none false) s = .next t ∧ (t.gw.cryAt q).jobs = [] ∧
      t.gw.regN (Reg.cryQCtail q) = (s.gw.regN (Reg.cryQCtail q) % 256 + 1) % 256 ∧
      (r.2 ≠ [] → t.gw.out.contains (.hostWrite j.dstAddr r.2) = true) ∧
      t.gw.out.contains (.hostWrite (s.gw.regN (Reg.cryQCbaseLo q) / 16 * 16 + 4294967296 * s.gw.regN (Reg.cryQCbaseHi q) +
        16 * (s.gw.regN (Reg.cryQCtail q) % 256))
        (leBytes 2 j.tag ++ leBytes 1 r.1 ++ leBytes 1 j.op ++ leBytes 4 r.2.length ++ leBytes 2 j.usedGen ++
          List.replicate 6 0)) = true) ∧
    (∃ t, Machine.exec (.cryRequestComplete q 0 none true) s = .next t ∧ (t.gw.cryAt q).jobs = [] ∧
      bit (t.gw.regN (Reg.cryQStat q)) 30 = true ∧
      t.gw.out.contains (.hostWrite (s.gw.regN (Reg.cryQCbaseLo q) / 16 * 16 + 4294967296 * s.gw.regN (Reg.cryQCbaseHi q) +
        16 * (s.gw.regN (Reg.cryQCtail q) % 256))
        (leBytes 2 j.tag ++ leBytes 1 7 ++ leBytes 1 j.op ++ leBytes 4 0 ++ leBytes 2 j.usedGen ++
          List.replicate 6 0)) = true)) ∧
  (∀ (s : State) (q : Nat), q < 12 → s.gw.islOn 11 = true →
    ∃ t, Machine.exec (.cryQEnClear q) s = .next t ∧ t.gw.cryEn q = false ∧
      (∀ j, (s.gw.cryAt q).jobs = [j] → j.dispatched = false → j.status = none → j.output = [] → (t.gw.cryAt q).jobs = [] ∧
        t.gw.out.contains (.hostWrite (s.gw.regN (Reg.cryQCbaseLo q) / 16 * 16 +
          4294967296 * s.gw.regN (Reg.cryQCbaseHi q) + 16 * (s.gw.regN (Reg.cryQCtail q) % 256))
          (leBytes 2 j.tag ++ leBytes 1 8 ++ leBytes 1 j.op ++ leBytes 4 0 ++
            leBytes 2 (if j.keyed then (s.gw.keys.at' j.slot).gen else 0) ++ List.replicate 6 0)) = true) ∧
      (∀ j, (s.gw.cryAt q).jobs = [j] → j.dispatched = true → j.status = none → (t.gw.cryAt q).jobs = [j])) ∧
  (∀ (s : State), s.gw.islOn 11 = true → ∃ t, Machine.exec .trngHealthFail s = .next t ∧ t.gw.trngOk = false ∧
    bit (t.gw.regN Reg.cryFlag) 30 = true ∧ bit (t.gw.regN Reg.lckFlag) 25 = true ∧ t.gw.keys = s.gw.keys ∧
    t.gw.detected = s.gw.detected ++ [⟨7, 0, 11, 9⟩]) ∧
  (∀ (s : State) (vaonOk : Bool), ∃ t, Machine.exec (.tamperLoopOpen vaonOk) s = .next t ∧ t.gw.fw.presence = false ∧
    (∀ i, (t.gw.keys.at' i).state = 0 ∧ (t.gw.keys.at' i).value = [] ∧ (t.gw.keys.at' i).gen = (s.gw.keys.at' i).gen) ∧
    t.gw.cryCache = [] ∧ (vaonOk = true → t.gw.keys.bank = none)) ∧
  (∀ (s : State), ∃ t, Machine.exec .presenceAcquired s = .next t ∧ t.gw.fw.presence = true ∧ t.gw.keys.loopOpen = false ∧
    t.gw.keys.slots = s.gw.keys.slots) ∧
  (∀ (s : State), ∃ t, Machine.exec .presenceLost s = .next t ∧ t.gw.fw.presence = false ∧ t.gw.keys = s.gw.keys)

/-- MKPDUs make a peer live and install a distributed SAK; changed receive freshness values are journaled. (R525,
R532, R760) The model's own choices in it: log entries 110, 117, 176. -/
def Obligations.KeyAgreementAndFreshness : Prop :=
  (∀ (s : State) (p sci prio : Nat) (pdu : Mkpdu) (g h : Gw), s.gw.mkaOn p = true → g = s.gw.mkaDerive p →
    h = g.setMka p ((g.mkaAt p).hear sci prio pdu g.tb.tick) →
    (pdu.icv ≠ g.mkpduIcv p sci prio pdu → Machine.exec (.mkaPduReceive p sci prio pdu) s = .next (s.after g)) ∧
    (pdu.icv = g.mkpduIcv p sci prio pdu → (g.mkaAt p).stale sci pdu = false →
      (pdu.dist = none → Machine.exec (.mkaPduReceive p sci prio pdu) s = .next (s.after h)) ∧
      (∀ an kn wrapped sak, pdu.dist = some (an, kn, wrapped) → h.serverPeer p sci = true →
        keyUnwrap (h.mkaKek p) wrapped = some sak →
        Machine.exec (.mkaPduReceive p sci prio pdu) s = .next (s.after (h.useSak p (an % 4) kn sak false))))) ∧
  (∀ (s : State) (p : Nat) (cak : List Byte), s.gw.mkaCak p = some cak →
    (s.gw.mkaDerive p).mkaIck p = mkaKdf cak mkaIckLabel (padTo 16 (Config.mkaCkn p)) ∧
    (s.gw.mkaDerive p).mkaKek p = mkaKdf cak mkaKekLabel (padTo 16 (Config.mkaCkn p))) ∧
  (∀ (s : State) (p a b an kn : Nat) (sak : List Byte) (drawn : Bool), s.gw.sakSlots p = some (a, b) → a ≠ b →
    ((s.gw.useSak p an kn sak drawn).keys.at' a).value = sak ∧ ((s.gw.useSak p an kn sak drawn).keys.at' b).value = sak ∧
    ((s.gw.useSak p an kn sak drawn).mkaAt p).encSlot = some a ∧ ((s.gw.useSak p an kn sak drawn).mkaAt p).decSlot = some b ∧
    ((s.gw.useSak p an kn sak drawn).mkaAt p).want = false) ∧
  (∀ (s : State) (p an : Nat) (g h : Gw) (sak : List Byte) (dist : Option (Nat × Nat × List Byte)) (pdu : Mkpdu),
    s.gw.mkaOn p = true → g = ((s.gw.mkaDerive p).mkaStart p).setMka p
      { ((s.gw.mkaDerive p).mkaStart p).mkaAt p with msg := (((s.gw.mkaDerive p).mkaStart p).mkaAt p).msg + 1 } →
    sak = padTo 32 (Config.random g.free 32) → an = (if (g.mkaAt p).keyNum = 0 then 0 else ((g.mkaAt p).an + 1) % 4) →
    ((g.sakDue p = false ∧ h = g ∧ dist = none) ∨
      (g.sakDue p = true ∧ h = g.draw.useSak p an ((g.mkaAt p).keyNum + 1) sak true ∧
        dist = some (an, (g.mkaAt p).keyNum + 1, keyWrap (h.mkaKek p) sak))) →
    pdu = h.mkpduNext p dist →
    Machine.exec (.mkaTimer p) s = .next (s.after (h.fwSend 0 (2 ^ macFabric p) 7
      (mkpduBytes p (h.ownSci p) Config.mkaPriority pdu ++ aesCmac (h.mkaIck p) (mkpduBytes p (h.ownSci p) Config.mkaPriority pdu))))) ∧
  (∀ (s : State) (p sci prio : Nat) (pdu : Mkpdu), s.gw.mkaOn p = false →
    Machine.exec (.mkaPduReceive p sci prio pdu) s = .next s ∧ Machine.exec (.mkaTimer p) s = .next s) ∧
  (∀ (s : State) (i : Nat) (e : Entry), s.gw.fw.running = true → s.gw.inService = true → s.gw.sealEntries 2 = [(i, e)] →
    (∀ k, mget? s.gw.timers timerJournal = some k → k + 1000 * ticksPerMs * s.gw.param Par.keyJrnlRxS ≤ s.gw.tb.tick) →
    (mgetD s.gw.fvLast i e.w4.toNat = mgetD s.gw.fvJrnl i e.w4.toNat → Machine.exec .fvRxJournalTimer s =
      .next (s.after { s.gw with timers := mset s.gw.timers timerJournal s.gw.tb.tick })) ∧
    (mgetD s.gw.fvLast i e.w4.toNat ≠ mgetD s.gw.fvJrnl i e.w4.toNat → ∃ t, Machine.exec .fvRxJournalTimer s = .next t ∧
      t.gw.keys.pending = s.gw.keys.pending ++ [(none, .freshRx (e.key 3) (mgetD s.gw.fvLast i e.w4.toNat))] ∧
      mgetD t.gw.fvJrnl i e.w4.toNat = mgetD s.gw.fvLast i e.w4.toNat ∧ t.gw.fvLast = s.gw.fvLast)) ∧
  (∀ (s : State), s.gw.fw.running = false → Machine.exec .fvRxJournalTimer s = .next s) ∧
  (∀ (s : State) (k : Nat), mget? s.gw.timers timerJournal = some k →
    s.gw.tb.tick < k + 1000 * ticksPerMs * s.gw.param Par.keyJrnlRxS → Machine.exec .fvRxJournalTimer s = .next s)

/-- The owner's header reads and writes take and release the lock, write the shadow frame, and set or withdraw
requests. (R332, R333, R334, R335, R337, R338, R340, R355, R365) The model's own choices in it: log entries 79, 80,
81. -/
def Obligations.CanBufferAccess : Prop :=
  (∀ (s : State) (c n : Nat) (host : Bool), s.gw.mbOwner c n host = true →
    ((s.gw.canAt c).lock = none →
      Machine.exec (.canMbHdrRead c n host) s = .next (s.after ((s.gw.setCan c
        { s.gw.canAt c with lock := some (n, bits ((s.gw.canAt c).hdr n 0) 11 0) }).emit
          (.readData (0x400000 + 0x4000 * c + 32 * n) (w32 ((s.gw.canAt c).hdr n 0)))))) ∧
    (∀ l, (s.gw.canAt c).lock = some (n, l) →
      Machine.exec (.canMbHdrRead c n host) s = .next (s.after (s.gw.emit
        (.readData (0x400000 + 0x4000 * c + 32 * n) (w32 ((s.gw.canAt c).hdr n 0 + 2 ^ 27)))))) ∧
    (∀ (k l cnt : Nat) (b : BusFrame), k < 64 → k ≠ n → (s.gw.canAt c).lock = some (k, l) → (s.gw.canAt c).shadow = some (b, cnt) →
      (s.gw.canAt c).done = none → b.ident < 2 ^ 32 → cnt < 2 ^ 32 →
      ∃ t, Machine.exec (.canMbHdrRead c n host) s = .next t ∧ (∃ d, (t.gw.canAt c).lock = some (n, d)) ∧
        (t.gw.canAt c).shadow = none ∧ (t.gw.canAt c).code k = (if (s.gw.canAt c).code k = 1 then 2 else 3) ∧
        (t.gw.canAt c).hdr k 1 = b.ident ∧ (t.gw.canAt c).hdr k 6 = cnt ∧
        (b.data ≠ [] → (t.gw.canAt c).word ((s.gw.canAt c).dataWord k) = ((wordsOf b.data).headD 0).toNat) ∧
        ∀ e, e ≠ c → t.gw.canAt e = s.gw.canAt e) ∧
    (∀ l i, (s.gw.canAt c).lock = some (n, l) → i = (s.gw.canAt c).lastWord n l → (s.gw.canAt c).shadow = none →
      (s.gw.canAt c).done = none →
      Machine.exec (.canMbLastWordRead c n host) s = .next (s.after ((s.gw.setCan c { s.gw.canAt c with lock := none }).emit
        (.readData (0x400000 + 0x4000 * c + 4 * i) (w32 ((s.gw.canAt c).word i)))))) ∧
    ((s.gw.canAt c).lock = none → Machine.exec (.canMbLastWordRead c n host) s = .next s)) ∧
  (∀ (s : State) (c n : Nat) (host : Bool) (v : W32), s.gw.mbOwner c n host = true → (s.gw.canAt c).locked n = false →
    (bits v.toNat 31 28 ∈ [0, 1, 8, 0xE] → Machine.exec (.canMbHdrWrite c n host v) s = .next (s.after
      (s.gw.setCan c ((s.gw.canAt c).setWord (8 * n) (v.toNat &&& 0xF7F80FFF))))) ∧
    (bits v.toNat 31 28 ∉ [0, 1, 8, 9, 0xA, 0xE] → Machine.exec (.canMbHdrWrite c n host v) s = .next s) ∧
    (∃ x, Machine.exec (.canTxPendingWrite c n host v) s = .next (s.after (s.gw.setCan c x)) ∧ x.code n = 9 ∧
      mgetD x.reqTime n 0 = s.gw.now ∧ bits (x.hdr n 0) 11 0 = bits v.toNat 11 0 ∧ x.tx = (s.gw.canAt c).tx) ∧
    (∃ x, Machine.exec (.canTxTtWrite c n host v) s = .next (s.after (s.gw.setCan c x)) ∧ x.code n = 0xE ∧
      bits (x.hdr n 0) 11 0 = bits v.toNat 11 0 ∧ x.tx = (s.gw.canAt c).tx) ∧
    ((s.gw.canAt c).tx = none → Machine.exec (.canTxAbortReq c n host) s =
      .next (s.after ((s.gw.setCan c ((s.gw.canAt c).setCode n 0xB)).mbEvent c n))) ∧
    (∀ t, (s.gw.canAt c).tx = some t → t.src = .mb n ∨ t.src = .tt n → ∃ x, Machine.exec (.canTxAbortReq c n host) s =
      .next (s.after (s.gw.setCan c x)) ∧ x.code n = 0xA ∧ x.tx = some { t with abort := true })) ∧
  (∀ (s : State) (c n : Nat) (host : Bool) (v : W32), (s.gw.canAt c).host ≠ host →
    Machine.exec (.canMbHdrRead c n host) s = .next s ∧ Machine.exec (.canMbLastWordRead c n host) s = .next s ∧
    Machine.exec (.canMbHdrWrite c n host v) s = .next s ∧ Machine.exec (.canTxPendingWrite c n host v) s = .next s ∧
    Machine.exec (.canTxAbortReq c n host) s = .next s ∧ Machine.exec (.canTxTtWrite c n host v) s = .next s) ∧
  (∀ (s : State) (c : Nat), ((s.gw.canAt c).host = true → (s.gw.canAt c).busOff = true → (s.gw.canAt c).recovering = false →
      Machine.exec (.canHctlRecWrite c) s = .next (s.after ((s.gw.setCan c
        { s.gw.canAt c with recovering := true, recFrom := s.gw.tb.tick }).setRec c true))) ∧
    ((s.gw.canAt c).host = false → Machine.exec (.canHctlRecWrite c) s = .next s))

/-- CAN frames are received, verified, sent and in error as described; counters, codes and bus-off follow. (R318,
R328, R330, R336, R340, R342, R344, R345, R353, R354, R355, R357) The model's own choices in it: log entries 77, 78,
79, 115. -/
def Obligations.CanFramesAndErrors : Prop :=
  (∀ (s : State) (c sof eof : Nat) (b b' : BusFrame) (i a : Stamp × Nat), canReady s.gw c sof eof i a →
    b' = { b with bus := c, sealedOk := false } → s.gw.sendsFormat c b' = true →
    (mget? (s.gw.canAt c).filter b.ident = none → (s.gw.canAt c).held = [] →
      (∀ h : CanHeld, h.adm = a.1 → h.seg = a.2 → s.gw.filterPending h = false) →
      ∃ t, Machine.exec (.canFrameReceive c sof eof b) s = .next t ∧
        (∀ x : Frame, x = { fport := 13, sub := c, body := .bus b', ing := i.1, ingSeg := i.2, adm := a.1, seg := a.2 } →
          roomAt13 s.gw x →
          t.gw.str.inbound = if bit (s.gw.canCfg c) 57 then s.gw.str.inbound ++ [{ x with fid := s.gw.cal.nextFid }]
            else s.gw.str.inbound) ∧
        (s.gw.canLom c = false → (t.gw.canAt c).rec' = recAfter (s.gw.canAt c).rec') ∧
        (∀ n, n < 64 → (s.gw.canAt c).matches' n b' = true → (s.gw.canAt c).effCode n = 1 → (s.gw.canAt c).locked n = false →
          (∀ h : CanHeld, h.adm = a.1 → h.seg = a.2 → s.gw.ownPending c h = false) → (∀ k, k < n → ¬((s.gw.canAt c).matches' k b' = true ∧ (s.gw.canAt c).effCode k = 1)) → b.ident < 2 ^ 32 → sof < 2 ^ 32 →
          (t.gw.canAt c).code n = 2 ∧ (t.gw.canAt c).hdr n 1 = b.ident ∧ (t.gw.canAt c).hdr n 6 = sof)) ∧
    (∀ q, mget? (s.gw.canAt c).filter b.ident = some q →
      ∃ (t : State) (h : CanHeld), Machine.exec (.canFrameReceive c sof eof b) s = .next t ∧
        t.gw.str.inbound = s.gw.str.inbound ∧ (t.gw.canAt c).held = (s.gw.canAt c).held ++ [h] ∧
        h = { frame := b', ing := i.1, ingSeg := i.2, adm := a.1, seg := a.2, cnt := sof,
              verify := if h.wait then none else some q, wait := s.gw.filterPending h, snap := h.snap } ∧
        h.snap = if s.gw.ownPending c h then none else some ((s.gw.canAt c).snapshot b'))) ∧
  (∀ (s : State) (c sof eof : Nat) (b : BusFrame), s.gw.canLive c = true →
    s.gw.sendsFormat c { b with bus := c, sealedOk := false } = false →
    (s.gw.canMode c ≠ 0 → Machine.exec (.canFrameReceive c sof eof b) s =
      .next (s.after (s.gw.setCan c { s.gw.canAt c with lec := 7 }))) ∧
    (s.gw.canMode c = 0 → ∃ t, Machine.exec (.canFrameReceive c sof eof b) s = .next t ∧ (t.gw.canAt c).lec = 2 ∧
      t.gw.str.inbound = s.gw.str.inbound)) ∧
  (∀ (s : State) (c sof eof : Nat) (b : BusFrame), s.gw.canLive c = false →
    Machine.exec (.canFrameReceive c sof eof b) s = .next s) ∧
  (∀ (s : State) (c i : Nat) (h : CanHeld) (e : Entry) (arr : Nat), c < 32 → (s.gw.canAt c).held = [h] →
    h.verify = some (i, e) → h.wait = false →
    arr = mgetD (s.gw.canAt c).fvArr i e.w4.toNat →
    (∃ t, Machine.exec (.sealVerify c false) s = .next t ∧ (t.gw.canAt c).held = [] ∧
      (s.gw.sealCheck e arr h.frame h.seg h.adm = none → t.gw.str.inbound = s.gw.str.inbound ∧
        bit (t.gw.regN (Reg.canFlag c)) 23 = true) ∧
      (∀ cand x, s.gw.sealCheck e arr h.frame h.seg h.adm = some cand → bit (s.gw.canCfg c) 57 = true →
        x = { fport := 13, sub := c, body := .bus { h.frame with sealedOk := true }, ing := h.ing, ingSeg := h.ingSeg, adm := h.adm, seg := h.seg, fv := some (cand, i) : Frame } →
        roomAt13 s.gw x → t.gw.str.inbound = s.gw.str.inbound ++ [{ x with fid := s.gw.cal.nextFid }])) ∧
    (∃ t, Machine.exec (.sealVerify c true) s = .next t ∧ (t.gw.canAt c).held = [] ∧
      t.gw.str.inbound = s.gw.str.inbound ∧ t.gw.detected = s.gw.detected ++ [⟨3, 0, 11, 0⟩])) ∧
  (∀ (s : State) (c : Nat), s.gw.canLive c = true → s.gw.canLom c = false → (s.gw.canAt c).tx = none →
    (∀ f r, (s.gw.canAt c).gtq = f :: r → s.gw.gtqExpired c f = false → s.gw.windowOk c f.frame = true →
      (s.gw.mbRequests c = [] ∨ ∃ n, s.gw.mbRequests c = [n] ∧ arbKey f.frame < arbKey ((s.gw.canAt c).mbFrame c n)) →
      Machine.exec (.canTxStart c true) s = .next (s.after (s.gw.setCan c
        { s.gw.canAt c with tx := some { src := .gtq, cnt := s.gw.canNow } }))) ∧
    (∀ n, s.gw.mbRequests c = [n] → s.gw.mbExpired c n = false →
      s.gw.windowOk c ((s.gw.canAt c).mbFrame c n) = true →
      ((s.gw.canAt c).gtq = [] ∨ ∃ f r, (s.gw.canAt c).gtq = f :: r ∧ arbKey ((s.gw.canAt c).mbFrame c n) ≤ arbKey f.frame) →
      Machine.exec (.canTxStart c true) s = .next (s.after (s.gw.setCan c
        { s.gw.canAt c with tx := some { src := .mb n, cnt := s.gw.canNow } }))) ∧
    (∀ f, (s.gw.canAt c).gtq = [f] → s.gw.mbRequests c = [] → s.gw.gtqExpired c f = true →
      ∃ t, Machine.exec (.canTxStart c true) s = .next t ∧ (t.gw.canAt c).gtq = [] ∧ (t.gw.canAt c).tx = none) ∧
    ((s.gw.canAt c).gtq = [] → s.gw.mbRequests c = [] → Machine.exec (.canTxStart c true) s = .next s) ∧
    Machine.exec (.canTxStart c false) s = .next s) ∧
  (∀ (s : State) (c : Nat) (x : CanTx), (s.gw.canAt c).tx = some x →
    (∀ f r, x.src = .gtq → (s.gw.canAt c).gtq = f :: r → bit s.gw.undefBus c = false →
      ∃ t, Machine.exec (.canTxDone c 0) s = .next t ∧ (t.gw.canAt c).gtq = r ∧ (t.gw.canAt c).tx = none ∧
        (t.gw.canAt c).tec = (s.gw.canAt c).tec - 1 ∧ t.gw.out.contains (.canFrame c (s.gw.asSent c f.frame)
          (f.frame.xlf && bit (s.gw.canCfg c) 56)) = true) ∧
    (∀ n, x.src = .mb n → (s.gw.canAt c).locked n = false → n < 64 → x.cnt < 2 ^ 32 →
      (∃ t, Machine.exec (.canTxDone c 0) s = .next t ∧ (t.gw.canAt c).code n = 0xC ∧ (t.gw.canAt c).hdr n 6 = x.cnt ∧
        (t.gw.canAt c).tx = none) ∧
      (∃ t, Machine.exec (.canTxDone c 1) s = .next t ∧ (t.gw.canAt c).code n = (if x.abort then 0xB else 9) ∧
        (t.gw.canAt c).tx = none))) ∧
  (∀ (s : State) (c : Nat) (e : CanError), s.gw.canLive c = true → s.gw.canLom c = false → e.noCount = false →
    (s.gw.canAt c).tec ≤ 255 → (s.gw.canAt c).rec' ≤ 255 →
    ∃ t, Machine.exec (.canErrorDetected c e) s = .next t ∧ (t.gw.canAt c).lec = e.code ∧
      (t.gw.canAt c).tec = (if e.asTx then (s.gw.canAt c).tec + 8 else (s.gw.canAt c).tec) ∧
      (t.gw.canAt c).rec' = (if e.asTx then (s.gw.canAt c).rec' else min ((s.gw.canAt c).rec' + (if e.heavy then 8 else 1)) 255) ∧
      ((t.gw.canAt c).busOff = true ↔ e.asTx = true ∧ 255 < (s.gw.canAt c).tec + 8)) ∧
  (∀ (s : State) (c : Nat), ((s.gw.canAt c).busOff = true → (s.gw.canAt c).recovering = true → s.gw.recoveryDue c = true →
      ∃ t, Machine.exec (.canRecoveryComplete c) s = .next t ∧ (t.gw.canAt c).busOff = false ∧ (t.gw.canAt c).tec = 0 ∧
        (t.gw.canAt c).rec' = 0) ∧
    ((s.gw.canAt c).busOff = false ∨ s.gw.recoveryDue c = false → Machine.exec (.canRecoveryComplete c) s = .next s)) ∧
  (∀ (s : State) (c : Nat) (f : GtqFrame) (r : List GtqFrame) (x : CanTx), s.gw.canLive c = true → s.gw.canLom c = false →
    (s.gw.canAt c).tx = some x → x.src = .gtq → (s.gw.canAt c).gtq = f :: r →
    (s.gw.canAt c).shared.contains f.frame.ident = false → (s.gw.canAt c).tec + 8 ≤ 255 →
    ∃ t, Machine.exec (.canCollision c) s = .next t ∧ (t.gw.canAt c).gtq = r ∧ (t.gw.canAt c).tx = none ∧
      (t.gw.canAt c).lec = 4 ∧ (t.gw.canAt c).tec = (s.gw.canAt c).tec + 8)

/-- Matrix columns and reference messages run time-triggered CAN; SYNC and FOLLOW are written into MB_62 and MB_63.
(R348, R350, R352, R419, R420, R421, R423, R424) The model's own choices in it: log entries 83, 85, 176. -/
def Obligations.TimeTriggeredAndTimeMessages : Prop :=
  (∀ (s : State) (c k n mark : Nat) (idle : Bool), s.gw.canLive c = true → s.gw.ttEn c = true → k < 32 →
    bit ((s.gw.canAt c).word (0x200 + k)) 31 = true → mark = bits ((s.gw.canAt c).word (0x200 + k)) 15 0 →
    n = (s.gw.canAt c).cell ((s.gw.canAt c).cycle % s.gw.cycles c) k →
    ((s.gw.canAt c).ttRun = false ∨ n / 64 = 0 ∨ n / 64 = 3 ∨ s.gw.cycleTime c < mark ∨ (s.gw.canAt c).ttDone.contains k = true →
      Machine.exec (.canTtColumn c k idle) s = .next s) ∧
    ((s.gw.canAt c).ttRun = true → n / 64 = 1 ∨ n / 64 = 2 → mark ≤ s.gw.cycleTime c →
      (s.gw.canAt c).ttDone.contains k = false →
      ((s.gw.canAt c).code (n % 64) = 0xE → s.gw.mbFree c (n % 64) = true → s.gw.canLom c = false →
        s.gw.cycleTime c ≤ mark + bits (s.gw.param (Par.canTt c)) 55 48 →
        (idle = true → (s.gw.canAt c).tx = none →
          n / 64 = 1 ∨ ((s.gw.canAt c).gtq = [] ∧ s.gw.mbRequests c = []) →
          Machine.exec (.canTtColumn c k idle) s = .next (s.after (s.gw.setCan c { s.gw.canAt c with
            tx := some { src := .tt (n % 64), cnt := s.gw.canNow }, ttDone := k :: (s.gw.canAt c).ttDone }))) ∧
        (idle = false ∨ (s.gw.canAt c).tx.isSome = true → Machine.exec (.canTtColumn c k idle) s = .next s)) ∧
      ((s.gw.canAt c).code (n % 64) ≠ 0xE ∨ s.gw.mbFree c (n % 64) = false ∨ s.gw.canLom c = true ∨
          mark + bits (s.gw.param (Par.canTt c)) 55 48 < s.gw.cycleTime c →
        Machine.exec (.canTtColumn c k idle) s = .next (s.after ((s.gw.setCan c
          { s.gw.canAt c with ttDone := k :: (s.gw.canAt c).ttDone }).bump (Reg.canTtMiss c)))))) ∧
  (∀ (s : State) (c sof prio cyc : Nat) (follows : Bool), s.gw.canLive c = true → s.gw.ttEn c = true →
    follows = (s.gw.ttMasterCfg c && decide (prio < bits (s.gw.param (Par.canTt c)) 2 0)) →
    Machine.exec (.canTtReference c false sof ⟨prio, cyc⟩) s = .next (s.after (s.gw.setCan c { s.gw.canAt c with
      cycle := cyc % 64 % s.gw.cycles c, ttRun := true, ttFollow := follows
      ttMaster := (s.gw.canAt c).ttMaster && !follows, refTick := s.gw.tickOf sof, ttDone := [] }))) ∧
  (∀ (s : State) (c sof prio cyc : Nat), s.gw.canLive c = true → s.gw.ttEn c = true →
    (s.gw.ttMasterCfg c = true → s.gw.canLom c = false → (s.gw.canAt c).tx = none → (s.gw.canAt c).locked 0 = false →
      s.gw.sendsFormat c (s.gw.refFrame c (s.gw.nextCycle c)) = true →
      ((s.gw.canAt c).ttRun = false ∨ ((s.gw.canAt c).ttFollow = false ∧ s.gw.cycleNtu c ≤ s.gw.cycleTime c) →
        Machine.exec (.canTtReference c true sof ⟨prio, cyc⟩) s = .next (s.after (s.gw.setCan c
          { s.gw.canAt c with tx := some { src := .ref, cnt := s.gw.canNow } }))) ∧
      (2 * s.gw.cycleNtu c ≤ s.gw.cycleTime c → Machine.exec (.canTtRefTimeout c) s = .next (s.after (s.gw.setCan c
        { s.gw.canAt c with tx := some { src := .ref, cnt := s.gw.canNow } })))) ∧
    (s.gw.ttMasterCfg c = false → Machine.exec (.canTtReference c true sof ⟨prio, cyc⟩) s = .next s ∧
      (2 * s.gw.cycleNtu c ≤ s.gw.cycleTime c → Machine.exec (.canTtRefTimeout c) s = .next (s.after
        ((s.gw.setCan c { s.gw.canAt c with ttRun := false }).canFlag c 24)))) ∧
    (s.gw.cycleTime c < 2 * s.gw.cycleNtu c → Machine.exec (.canTtRefTimeout c) s = .next s)) ∧
  (∀ (s : State) (c : Nat) (x : CanTx), (s.gw.canAt c).tx = some x → x.src = .ref →
    ∃ t, Machine.exec (.canTxDone c 0) s = .next t ∧ (t.gw.canAt c).tx = none ∧ (t.gw.canAt c).ttMaster = true ∧
      (t.gw.canAt c).ttRun = true ∧ (t.gw.canAt c).refTick = s.gw.tickOf x.cnt ∧
      (t.gw.canAt c).cycle = if (s.gw.canAt c).ttRun then ((s.gw.canAt c).cycle + 1) % s.gw.cycles c else 0) ∧
  (∀ (s : State) (c : Nat), s.gw.btmOn c = true → (s.gw.canAt c).locked 62 = false → s.gw.btmIdent c < 2 ^ 32 →
    (∀ k, mget? s.gw.timers (timerBtm c) = some k → k + 10 * ticksPerMs * bits (s.gw.btmCfg c) 57 48 ≤ s.gw.tb.tick) →
    ∃ t, Machine.exec (.btmSyncTimer c) s = .next t ∧ (t.gw.canAt c).code 62 = 9 ∧
      (t.gw.canAt c).hdr 62 1 = s.gw.btmIdent c ∧ bits ((t.gw.canAt c).hdr 62 0) 11 0 = 4 ∧
      bits ((t.gw.canAt c).hdr 62 7) 31 16 = 5 * bits (s.gw.btmCfg c) 57 48 % 65536 ∧
      (t.gw.canAt c).doff 62 = (s.gw.canAt c).btmUnit 62 ∧
      (t.gw.canAt c).word ((t.gw.canAt c).dataWord 62) =
        (((wordsOf (s.gw.syncBytes c (s.gw.canAt c).btmSeq)).headD 0).toNat) ∧
      (t.gw.canAt c).btmSeq = ((s.gw.canAt c).btmSeq + 1) % 256 ∧ (t.gw.canAt c).btmSyncSeq = (s.gw.canAt c).btmSeq ∧
      (t.gw.canAt c).btmStage = 1) ∧
  (∀ (s : State) (c : Nat) (st : Stamp) (seg : Nat), s.gw.btmOn c = true → (s.gw.canAt c).locked 63 = false →
    (s.gw.canAt c).btmEpoch = none → stampOf (s.gw.canAt c).pairs 0 ((s.gw.canAt c).hdr 62 6) = some (st, seg) →
    (∀ step, (s.gw.canAt c).btmStage = 1 → (s.gw.canAt c).code 62 = 0xC → (s.gw.canAt c).code 63 ≠ 9 →
      step = (match (s.gw.canAt c).btmFollowSeg with | some sg => sg != seg | none => false) →
      ∃ t, Machine.exec (.btmFollowWrite c) s = .next t ∧ (t.gw.canAt c).code 63 = 9 ∧
        (t.gw.canAt c).btmFollowSeg = some seg ∧ (t.gw.canAt c).btmStage = 0 ∧
        (t.gw.canAt c).btmEpoch = (if (s.gw.canAt c).btmSyncSeq % s.gw.param Par.btmEpochEvery = 0
          then some ((s.gw.canAt c).btmSyncSeq, s.gw.btmTime c st seg) else none) ∧
        (t.gw.canAt c).doff 63 = (s.gw.canAt c).btmUnit 63 ∧
        ∀ i, i < 2 → (t.gw.canAt c).word ((t.gw.canAt c).dataWord 63 + i) =
          ((wordsOf (s.gw.followBytes c (s.gw.btmTime c st seg) step)).getD i 0).toNat) ∧
    ((s.gw.canAt c).btmStage = 1 → (s.gw.canAt c).code 62 = 0xB ∨ (s.gw.canAt c).code 62 = 0xD →
      Machine.exec (.btmFollowWrite c) s = .next (s.after (s.gw.setCan c { s.gw.canAt c with btmStage := 0 }))) ∧
    ((s.gw.canAt c).btmStage = 0 → Machine.exec (.btmFollowWrite c) s = .next s)) ∧
  (∀ (s : State) (c seq : Nat) (at' : Int), s.gw.btmOn c = true → (s.gw.canAt c).locked 63 = false →
    (s.gw.canAt c).btmEpoch = some (seq, at') → (s.gw.canAt c).code 63 = 0xC →
    ∃ t, Machine.exec (.btmFollowWrite c) s = .next t ∧ (t.gw.canAt c).code 63 = 9 ∧ (t.gw.canAt c).btmEpoch = none ∧
      ∀ i, i < 2 → (t.gw.canAt c).word ((t.gw.canAt c).dataWord 63 + i) =
        ((wordsOf (s.gw.epochBytes c seq at')).getD i 0).toNat) ∧
  (∀ (s : State) (c : Nat), s.gw.btmOn c = false →
    Machine.exec (.btmSyncTimer c) s = .next s ∧ Machine.exec (.btmFollowWrite c) s = .next s)

/-- Commits, LIN slots, headers, responses, received frames and errors act as the schedule and the frame table say.
(R369, R370, R374, R375, R376, R377, R378, R379, R380, R381, R382) The model's own choices in it: log entries 86, 87.
-/
def Obligations.LinSchedulesAndFrames : Prop :=
  (∀ (s : State) (l : Nat) (w : CommitWait), l < 12 → (s.gw.linAt l).waits = [w] →
    (s.gw.translate w.c w.seg s.gw.tb.seg ≤ s.gw.nowLast → mget? (s.gw.linAt l).commits w.buf = none →
      ∃ t, Machine.exec (.committedBufferCommit (32 + l)) s = .next t ∧ (t.gw.linAt l).waits = [] ∧
        mgetD (t.gw.linAt l).commits w.buf [] = [⟨w.data, w.c, w.seg, true⟩]) ∧
    (s.gw.nowLast < s.gw.translate w.c w.seg s.gw.tb.seg → ∃ t, Machine.exec (.committedBufferCommit (32 + l)) s = .next t ∧
      (t.gw.linAt l).waits = [w] ∧ (t.gw.linAt l).commits = (s.gw.linAt l).commits)) ∧
  (∀ (s : State) (ch : Nat) (w : CommitWait), ch < 2 → s.gw.flx.waits = [w] →
    s.gw.translate w.c w.seg s.gw.tb.seg ≤ s.gw.nowLast → mget? s.gw.flx.commits w.buf = none →
    ∃ t, Machine.exec (.committedBufferCommit (44 + ch)) s = .next t ∧ t.gw.flx.waits = [] ∧
      mgetD t.gw.flx.commits w.buf [] = [⟨w.data, w.c, w.seg, true⟩]) ∧
  (∀ (s : State) (d : Due) (l : Nat) (x : LinCtl), s.gw.readyDue s.dram = some d → d.ev = .linSlot l →
    x = (s.gw.linAt l).switch →
    (∀ sl, x.running = true → x.tableSlots[x.slot]? = some sl → x.slot + 1 < x.tableSlots.length →
      Machine.exec .linSlotStart s = .next (s.after (s.gw.setLin l { x with
        header := some { slot := sl, wire := d.t + Int.ofNat s.gw.lambdaG8, seg := s.gw.str.relSeg }
        curTable := x.table
        curSlot := x.slot
        nextSlot := some (d.t + 8000000 * Int.ofNat sl.delayMs)
        slot := x.slot + 1 }))) ∧
    ((s.gw.linAt l).want = some 15 → ∃ t, Machine.exec .linSlotStart s = .next t ∧ (t.gw.linAt l).running = false ∧
      (t.gw.linAt l).nextSlot = none)) ∧
  (∀ (s : State), s.gw.readyDue s.dram = none → Machine.exec .linSlotStart s = .next s) ∧
  (∀ (s : State) (l : Nat) (h : LinHeader) (wire : Stamp) (m : Map (List Committed)), s.gw.linLive l = true →
    s.gw.linLom l = false → s.gw.linCmdr l = true → (s.gw.linAt l).header = some h → h.started = false →
    wire = s.gw.translate h.wire h.seg s.gw.tb.seg → m = (s.gw.commitUpTo (s.gw.linAt l).commits (s.gw.linAt l).waits wire).1 →
    (wire ≤ s.gw.nowLast →
      (s.gw.linSends h.slot m wire = none → Machine.exec (.linHeaderStart l) s =
        .next (s.after (s.gw.setLin l { s.gw.linAt l with header := none }))) ∧
      (∀ i, s.gw.linSends h.slot m wire = some i → (mgetD (s.gw.linAt l).frames i {}).dir ≠ 1 →
        Machine.exec (.linHeaderStart l) s = .next (s.after ((s.gw.setLin l
          { s.gw.linAt l with header := some { h with ident := i, started := true } }).emit (.linHeader l (linPid i))))) ∧
      (∀ i k, s.gw.linSends h.slot m wire = some i → (mgetD (s.gw.linAt l).frames i {}).dir = 1 →
        s.gw.contentAt m i wire = some k → bit s.gw.undefBus (32 + l) = false →
        ∃ t, Machine.exec (.linHeaderStart l) s = .next t ∧ t.gw.out.contains (.linHeader l (linPid i)) = true ∧
          t.gw.out.contains (.linResponse l i (padTo (mgetD (s.gw.linAt l).frames i {}).len k.data)
            (linChecksum (linPid i) ((s.gw.linAt l).enhanced i) (padTo (mgetD (s.gw.linAt l).frames i {}).len k.data))) = true ∧
          (t.gw.linAt l).sending = some (i, padTo (mgetD (s.gw.linAt l).frames i {}).len k.data))) ∧
    (s.gw.nowLast < wire → Machine.exec (.linHeaderStart l) s = .next s)) ∧
  (∀ (s : State) (l sof eof pid ck err : Nat) (data : List Byte) (e : LinEntry), s.gw.linLive l = true →
    e = mgetD (s.gw.linAt l).frames (pid % 64) {} → data.length = e.len → (s.gw.linAt l).givenUp sof eof = false →
    (e.dir = 0 → pid = linPid (pid % 64) → err ≠ 4 → err ≠ 5 → Machine.exec (.linFrameReceive l sof eof pid data ck err) s = .next s) ∧
    (∀ i a x, e.dir = 2 → err = 0 → pid = linPid (pid % 64) →
      ck = linChecksum pid ((s.gw.linAt l).enhanced (pid % 64)) data →
      stampOf (s.gw.linAt l).pairs (bits (s.gw.linCfg l) 15 0) sof = some i →
      stampOf (s.gw.linAt l).pairs (bits (s.gw.linCfg l) 15 0) eof = some a → bit (s.gw.linCfg l) 60 = true →
      x = { fport := 13, sub := 32 + l, body := .bus { bus := 32 + l, ident := pid % 64, data := data }, ing := i.1, ingSeg := i.2, adm := a.1, seg := a.2 : Frame } →
      roomAt13 s.gw x → ∃ t, Machine.exec (.linFrameReceive l sof eof pid data ck err) s = .next t ∧
        t.gw.str.inbound = s.gw.str.inbound ++ [{ x with fid := s.gw.cal.nextFid }] ∧ (t.gw.linAt l).header = none) ∧
    (∀ w, e.dir = 1 → err = 0 → pid = linPid (pid % 64) → (s.gw.linAt l).sending = some (pid % 64, w) →
      ∃ t, Machine.exec (.linFrameReceive l sof eof pid data ck err) s = .next t ∧ (t.gw.linAt l).sending = none ∧
        t.gw.str.inbound = s.gw.str.inbound) ∧
    ((s.gw.linAt l).header = none →
      (err ≠ 5 → pid ≠ linPid (pid % 64) → ∃ t, Machine.exec (.linFrameReceive l sof eof pid data ck err) s = .next t ∧
        bit (t.gw.regN (Reg.linFlag l)) 26 = true ∧ t.gw.str.inbound = s.gw.str.inbound) ∧
      (e.dir = 1 → err = 1 → pid = linPid (pid % 64) →
        ∃ t, Machine.exec (.linFrameReceive l sof eof pid data ck err) s = .next t ∧
          bit (t.gw.regN (Reg.linFlag l)) 31 = true ∧ (t.gw.linAt l).sending = none ∧ t.gw.str.inbound = s.gw.str.inbound) ∧
      (e.dir = 2 → pid = linPid (pid % 64) → err = 0 → ck ≠ linChecksum pid ((s.gw.linAt l).enhanced (pid % 64)) data →
        ∃ t, Machine.exec (.linFrameReceive l sof eof pid data ck err) s = .next t ∧
          bit (t.gw.regN (Reg.linFlag l)) 30 = true ∧ t.gw.str.inbound = s.gw.str.inbound))) ∧
  (∀ (s : State) (l pe pid : Nat), s.gw.linLive l = true → s.gw.linLom l = false → s.gw.linCmdr l = false →
    (∀ a k, pid = linPid (pid % 64) → (mgetD (s.gw.linAt l).frames (pid % 64) {}).dir = 1 →
      stampOf (s.gw.linAt l).pairs (bits (s.gw.linCfg l) 15 0) pe = some a →
      s.gw.contentAt (s.gw.commitUpTo (s.gw.linAt l).commits (s.gw.linAt l).waits (s.gw.translate a.1 a.2 s.gw.tb.seg)).1
        (pid % 64) (s.gw.translate a.1 a.2 s.gw.tb.seg) = some k → bit s.gw.undefBus (32 + l) = false →
      ∃ t, Machine.exec (.linResponse l pe pid) s = .next t ∧
        t.gw.out.contains (.linResponse l (pid % 64) (padTo (mgetD (s.gw.linAt l).frames (pid % 64) {}).len k.data)
          (linChecksum pid ((s.gw.linAt l).enhanced (pid % 64)) (padTo (mgetD (s.gw.linAt l).frames (pid % 64) {}).len k.data))) = true) ∧
    (pid = linPid (pid % 64) → (mgetD (s.gw.linAt l).frames (pid % 64) {}).dir ≠ 1 →
      Machine.exec (.linResponse l pe pid) s = .next s)) ∧
  (∀ (s : State) (l i pe : Nat), s.gw.linLive l = true →
    ((mgetD (s.gw.linAt l).frames i {}).dir = 2 → (s.gw.linAt l).header = none →
      (s.gw.linAt l).noResp ≠ some pe → (s.gw.linAt l).lastFrame.any (fun q => inFrame pe q.1 q.2) = false →
      s.gw.linBits l (14 * ((mgetD (s.gw.linAt l).frames i {}).len + 1)) ≤ cntDiff s.gw.canNow pe →
      ∃ t, Machine.exec (.linNoResponse l ⟨i, pe⟩) s = .next t ∧ bit (t.gw.regN (Reg.linFlag l)) 29 = true ∧
        (t.gw.linAt l).sending = none ∧ (t.gw.linAt l).noResp = some pe ∧
        ∀ sof eof pid data ck err, inFrame pe sof eof = true → pid % 64 = i →
          Machine.exec (.linFrameReceive l sof eof pid data ck err) t = .next t) ∧
    ((mgetD (s.gw.linAt l).frames i {}).dir ≠ 2 ∨ (s.gw.linAt l).lastFrame.any (fun q => inFrame pe q.1 q.2) = true ∨
        cntDiff s.gw.canNow pe < s.gw.linBits l (14 * ((mgetD (s.gw.linAt l).frames i {}).len + 1)) →
      Machine.exec (.linNoResponse l ⟨i, pe⟩) s = .next s))

/-- FlexRay sends committed slots, delivers matching frames, and moves its POC state at the end of a cycle. (R383,
R385, R386, R387, R391, R392) The model's own choices in it: log entries 38, 88, 89. -/
def Obligations.FlexRayFramesAndCycles : Prop :=
  (∀ (s : State) (ch sl cnt : Nat) (f : FlxSlot) (t0 : Stamp × Nat) (t1 : Stamp) (fl : FlxCtl),
    s.gw.flxOn ch = true → s.gw.flxLom = false →
    s.gw.flx.owned.find? (fun x => x.hits ch sl s.gw.flx.cycle) = some f →
    stampOf s.gw.flx.pairs (bits s.gw.flxCfg 15 0) cnt = some t0 → s.gw.flx.poc = 5 →
    t1 = s.gw.translate t0.1 t0.2 s.gw.tb.seg →
    fl = { s.gw.flx with commits := (s.gw.commitUpTo s.gw.flx.commits s.gw.flx.waits t1).1
                         waits := (s.gw.commitUpTo s.gw.flx.commits s.gw.flx.waits t1).2 } →
    (∀ k, s.gw.contentAt fl.commits (2048 * ch + sl) t1 = some k →
      (f.dynamic = true → fl.fits s.gw.flxRate ch sl k.data.length = false →
        Machine.exec (.flxActionPoint ch sl ⟨cnt⟩) s = .next (s.after { s.gw with flx := fl })) ∧
      (f.dynamic = false ∨ fl.fits s.gw.flxRate ch sl k.data.length = true → bit s.gw.undefBus (44 + ch) = false →
        ∃ t, Machine.exec (.flxActionPoint ch sl ⟨cnt⟩) s = .next t ∧
          t.gw.out.contains (.flxFrame ch sl s.gw.flx.cycle false (s.gw.flx.cluster.keySlot = sl && bit s.gw.flxCfg 55)
            (s.gw.flx.cluster.keySlot = sl && bit s.gw.flxCfg 56) k.data) = true ∧
          t.gw.flx = if f.dynamic then fl.miniFrame s.gw.flxRate ch sl k.data.length else fl)) ∧
    (s.gw.contentAt fl.commits (2048 * ch + sl) t1 = none →
      (f.dynamic = false →
        Machine.exec (.flxActionPoint ch sl ⟨cnt⟩) s = .next (s.after ((({ s.gw with flx := fl } : Gw).bump
          Reg.flxNullTxCnt).emit (.flxFrame ch sl s.gw.flx.cycle true (s.gw.flx.cluster.keySlot = sl && bit s.gw.flxCfg 55)
            (s.gw.flx.cluster.keySlot = sl && bit s.gw.flxCfg 56) [])))) ∧
      (f.dynamic = true →
        Machine.exec (.flxActionPoint ch sl ⟨cnt⟩) s = .next (s.after { s.gw with flx := fl })))) ∧
  (∀ (s : State) (ch sl cnt : Nat), (s.gw.flx.poc ≠ 4 ∧ s.gw.flx.poc ≠ 5) ∨
      s.gw.flx.owned.find? (fun x => x.hits ch sl s.gw.flx.cycle) = none →
    Machine.exec (.flxActionPoint ch sl ⟨cnt⟩) s = .next s) ∧
  (∀ (s : State) (ch sof eof : Nat) (b : BusFrame), s.gw.flxOn ch = true →
    (∀ i a id x, stampOf s.gw.flx.pairs (bits s.gw.flxCfg 15 0) sof = some i →
      stampOf s.gw.flx.pairs (bits s.gw.flxCfg 15 0) eof = some a → bit s.gw.flxCfg 61 = true →
      id = b.ident % 2048 + b.cycle % 64 * 2048 →
      s.gw.flx.rxBufs.any (fun f => f.hits ch (id % 2048) (b.cycle % 64)) = true →
      x = { fport := 13, sub := 44 + ch, body := .bus { b with bus := 44 + ch, ident := id, cycle := b.cycle % 64 }, ing := i.1, ingSeg := i.2, adm := a.1, seg := a.2 : Frame } →
      roomAt13 s.gw x → ∃ t, Machine.exec (.flxFrameReceive ch sof eof b false) s = .next t ∧
        t.gw.str.inbound = s.gw.str.inbound ++ [{ x with fid := s.gw.cal.nextFid }]) ∧
    (∃ t, Machine.exec (.flxFrameReceive ch sof eof b true) s = .next t ∧ t.gw.str.inbound = s.gw.str.inbound ∧
      bit (t.gw.regN Reg.flxFlag) (29 - ch) = true)) ∧
  (∀ (s : State) (integrated synced : Bool), s.gw.flxLive = true → 4 ≤ s.gw.flx.poc → s.gw.flx.poc ≠ 7 →
    ∃ t, Machine.exec (.flxCycleEnd integrated synced false) s = .next t ∧ t.gw.flx.cycle = (s.gw.flx.cycle + 1) % 64 ∧
      (s.gw.flx.haltPending = true → t.gw.flx.poc = 7 ∧ t.gw.flx.haltPending = false) ∧
      (s.gw.flx.haltPending = false → s.gw.flx.poc = 4 → t.gw.flx.poc = if integrated then 5 else 4) ∧
      (s.gw.flx.haltPending = false → s.gw.flx.poc ≠ 4 → synced = true → t.gw.flx.poc = 5 ∧ t.gw.flx.noCorr = 0) ∧
      (s.gw.flx.haltPending = false → s.gw.flx.poc ≠ 4 → synced = false → t.gw.flx.noCorr = s.gw.flx.noCorr + 1 ∧
        bit (t.gw.regN Reg.flxFlag) 31 = true ∧
        t.gw.flx.poc = if s.gw.flx.maxFatal ≤ s.gw.flx.noCorr + 1 then 7
          else if s.gw.flx.maxPassive ≤ s.gw.flx.noCorr + 1 then 6 else s.gw.flx.poc)) ∧
  (∀ (s : State) (ch : Nat), s.gw.flxOn ch = true →
    Machine.exec (.flxWakeupReceive ch) s = .next (s.after (s.gw.flag Reg.flxFlag 0x04000000))) ∧
  (∀ (s : State) (ch sof eof : Nat) (b : BusFrame) (x y z : Bool),
    (s.gw.flxOn ch = false → Machine.exec (.flxFrameReceive ch sof eof b x) s = .next s ∧
      Machine.exec (.flxWakeupReceive ch) s = .next s) ∧
    (s.gw.flxLive = false → Machine.exec (.flxCycleEnd x y z) s = .next s))

/-- Epochs, INCR, steps, servo samples, holdover, source loss and REF10 edges change the timebase as described. (R25,
R75, R324, R395, R396, R398, R400, R401, R402, R403, R404, R437) The model's own choices in it: log entries 3, 93, 94.
-/
def Obligations.TimebaseAndServo : Prop :=
  (∀ (s : State), s.gw.islOn 12 = true →
    (s.gw.tickNo % 65536 = 0 → s.gw.tb.epoch < s.gw.tickNo / 65536 → ∃ t, Machine.exec .tbEpoch s = .next t ∧
      t.gw.tb = { s.gw.tb with epoch := s.gw.tickNo / 65536 } ∧
      (s.gw.islOn 9 = true → ∀ c, c < 32 →
        (t.gw.canAt c).pairs = addEpoch (s.gw.canAt c).pairs s.gw.canEdge s.gw.now s.gw.tb.seg)) ∧
    (s.gw.tickNo % 65536 ≠ 0 ∨ s.gw.tickNo / 65536 ≤ s.gw.tb.epoch → Machine.exec .tbEpoch s = .next s)) ∧
  (∀ (s : State) (i : Nat) (b : Bool), s.gw.islOn 12 = true → s.gw.islOn i = true →
    ∃ t, Machine.exec (.distributionError ⟨i, b⟩) s = .next t ∧ bit (t.gw.regN Reg.tbFlag) 31 = true ∧
      t.gw.detected = s.gw.detected ++ [⟨6, i % 16, i % 16, i % 16⟩] ∧
      t.gw.tb = { s.gw.tb with replica := mset s.gw.tb.replica i (if b then 1 else -1) }) ∧
  (∀ (s : State), s.gw.islOn 12 = true →
    (∀ due v, s.gw.tb.incrNext = [(due, v)] →
      (due ≤ s.gw.tb.tick → Machine.exec .incrApply s = .next (s.after
        { s.gw with tb := { s.gw.tb with incr := v, refEdges := 0, incrNext := [] } })) ∧
      (s.gw.tb.tick < due → Machine.exec .incrApply s = .next s)) ∧
    (s.gw.tb.incrNext = [] → Machine.exec .incrApply s = .next s)) ∧
  (∀ (s : State) (r : StepReq), s.gw.islOn 12 = true → s.gw.tb.step = some r → s.gw.handing = false →
    (s.gw.tickNo % 16 = 0 → r.notBefore ≤ s.gw.tb.tick → r.instant = none → ∃ t, Machine.exec .stepApply s = .next t ∧
      t.gw.tb.acc = s.gw.tb.acc + BitVec.ofInt 104 (r.delta * 16777216) ∧ t.gw.tb.seg = s.gw.tb.seg + 1 ∧
      t.gw.tb.step = none ∧ t.gw.tb.lastDelta = r.delta ∧ t.gw.tb.tick = s.gw.tb.tick ∧
      mget? t.gw.str.shift (s.gw.tb.seg + 1) = some (r.delta * 8 / 65536) ∧
      (s.gw.str.run = true → t.gw.str.closing = some ⟨r.delta, s.gw.tb.dt40⟩ ∧ t.gw.str.relSeg = s.gw.str.relSeg)) ∧
    (s.gw.tickNo % 16 ≠ 0 ∨ s.gw.tb.tick < r.notBefore → Machine.exec .stepApply s = .next s)) ∧
  (∀ (s : State), s.gw.tb.step = none → s.gw.tb.stepQueue = [] → Machine.exec .stepApply s = .next s) ∧
  (∀ (s : State) (o : Int), s.gw.islOn 12 = true → s.gw.pairRuns 0 = true → s.gw.handing = false →
    s.gw.wanted = s.gw.tb.src → s.gw.tb.src ≠ 4 → mget? s.gw.tb.samples s.gw.tb.src = some o →
    ∃ t, Machine.exec .servoSample s = .next t ∧ t.gw.tb.offs = o * 8 / 65536 ∧ t.gw.tb.firstSample = false ∧
      t.gw.tb.samples = merase s.gw.tb.samples s.gw.tb.src ∧
      (65536 * (s.gw.param Par.tbStepThreshNs : Int) < (o.natAbs : Int) → s.gw.param Par.tbStepMode = 2 → s.gw.stepBusy = false →
        t.gw.tb.step = some ⟨o, s.gw.boundary (s.gw.tb.tick + 256), none, none⟩ ∧ t.gw.tb.incrNext = s.gw.tb.incrNext) ∧
      ((o.natAbs : Int) ≤ 65536 * (s.gw.param Par.tbStepThreshNs : Int) ∨ s.gw.param Par.tbStepMode = 0 →
        (∃ v, t.gw.tb.incrNext = s.gw.tb.incrNext ++ [(s.gw.boundary (s.gw.tb.tick + 16), v)] ∧ incrMin ≤ v ∧ v ≤ incrMax) ∧
        t.gw.tb.step = s.gw.tb.step) ∧
      (o.natAbs ≤ 65536 * s.gw.param Par.tbLockNs → t.gw.tb.lockRun = s.gw.tb.lockRun + 1) ∧
      (65536 * s.gw.param Par.tbLockNs < o.natAbs → t.gw.tb.lockRun = 0) ∧
      (s.gw.tb.servo = .acquiring → (t.gw.tb.servo = .locked ↔ s.gw.param Par.tbLockCnt ≤ t.gw.tb.lockRun))) ∧
  (∀ (s : State), s.gw.pairRuns 0 = false ∨ s.gw.handing = true → Machine.exec .servoSample s = .next s) ∧
  (∀ (s : State), s.gw.islOn 12 = true → s.gw.pairRuns 0 = true →
    (s.gw.tb.servo = .holdover → (∀ k, mget? s.gw.timers timerHoldover = some k → k + 10 * ticksPerMs ≤ s.gw.tb.tick) →
      Machine.exec .holdoverQualityUpdate s = .next (s.after
        { s.gw with tb := { s.gw.tb with qual := s.gw.holdError }, timers := mset s.gw.timers timerHoldover s.gw.tb.tick })) ∧
    (∀ k, mget? s.gw.timers timerHoldover = some k → s.gw.tb.tick < k + 10 * ticksPerMs →
      Machine.exec .holdoverQualityUpdate s = .next s) ∧
    (s.gw.tb.servo ≠ .holdover → Machine.exec .holdoverQualityUpdate s = .next s)) ∧
  (∀ (s : State) (src p w : Nat), 1 ≤ src → src ≤ 4 → s.gw.islOn 12 = true → s.gw.pairRuns 0 = true →
    (bit s.gw.tb.valid src = false ∨ s.gw.sourceGone src p = false → Machine.exec (.sourceLoss src p) s = .next s) ∧
    (bit s.gw.tb.valid src = true → s.gw.sourceGone src p = true →
    w = ({ s.gw with tb := { s.gw.tb with valid := setBits s.gw.tb.valid src src 0 } } : Gw).wanted →
    ∃ t, Machine.exec (.sourceLoss src p) s = .next t ∧ bit t.gw.tb.valid src = false ∧
      (s.gw.tb.src ≠ src → t.gw.tb.src = s.gw.tb.src ∧ t.gw.tb.servo = s.gw.tb.servo) ∧
      (s.gw.tb.src = src → w ≠ 0 → t.gw.tb.src = w ∧ t.gw.tb.servo = .acquiring ∧ bit (t.gw.regN Reg.tbFlag) 29 = true) ∧
      (src = s.gw.param Par.tbSrcPri ∨ src = s.gw.param Par.tbSrcSec → bit (t.gw.regN Reg.tbFlag) 29 = true) ∧
      (s.gw.tb.src = src → w = 0 → t.gw.tb.src = 0 ∧
        t.gw.tb.servo = if s.gw.tb.everLocked then .holdover else .freerun))) ∧
  (∀ (s : State) (ph : Nat), s.gw.islOn 12 = true →
    (s.gw.tb.refEdges = 0 ∨ bit s.gw.tb.valid 4 = false → Machine.exec (.ref10Edge ph) s = .next (s.after
      { s.gw with tb := { s.gw.tb with refEdges := 1, refFirst := s.gw.tb.stamp ph, valid := s.gw.tb.valid ||| 16, heard := mset s.gw.tb.heard 4 s.gw.tb.tick } })) ∧
    (0 < s.gw.tb.refEdges → s.gw.tb.refEdges < 10000000 → bit s.gw.tb.valid 4 = true →
      ∃ t, Machine.exec (.ref10Edge ph) s = .next t ∧ t.gw.tb.refEdges = s.gw.tb.refEdges + 1 ∧
        mget? t.gw.tb.heard 4 = some s.gw.tb.tick ∧
        mget? t.gw.tb.samples 4 = some ((800 * (s.gw.tb.refEdges : Int) - (s.gw.tb.stamp ph - s.gw.tb.refFirst)) *
          1000000000000 / (800 * (s.gw.tb.refEdges : Int)))))

/-- Time-event outputs and inputs, PPS and the gPTP instances do what falls at their stamps. (R407, R408, R409, R410,
R426, R427, R429, R430, R432, R433, R434, R435) The model's own choices in it: log entries 92, 95, 98, 176. -/
def Obligations.TimeEventsAndInstances : Prop :=
  (∀ (s : State) (n : Nat) (v : W32), n < 16 → s.gw.islOn 12 = true →
    (bit (s.gw.param Par.tevOwn) n = true →
      Machine.exec (.tevOutArm n v) s = .next s ∧ Machine.exec (.tevOutModeOff n v) s = .next s) ∧
    (bit (s.gw.param Par.tevOwn) n = false →
      (∃ t, Machine.exec (.tevOutArm n v) s = .next t ∧ (t.gw.tevAt n).armTick = some (s.gw.boundary (s.gw.tb.tick + 1)) ∧
        bits (t.gw.regN (Reg.tevOutCfg n)) 29 28 = bits v.toNat 29 28) ∧
      (∃ t, Machine.exec (.tevOutModeOff n v) s = .next t ∧ bits (t.gw.regN (Reg.tevOutCfg n)) 29 28 = 0 ∧
        ((s.gw.tevAt n).pulseEnd = none → (t.gw.tevAt n).active = false ∧ (t.gw.tevAt n).level = false) ∧
        ((s.gw.tevAt n).pulseEnd ≠ none → (t.gw.tevAt n).active = (s.gw.tevAt n).active ∧
          (t.gw.tevAt n).level = (s.gw.tevAt n).level)))) ∧
  (∀ (s : State) (n k : Nat), n < 16 → s.gw.islOn 12 = true → (s.gw.tevAt n).armTick = some k →
    (s.gw.tb.tick < k → Machine.exec (.tevOutSetCopy n) s = .next s) ∧
    (k ≤ s.gw.tb.tick → (s.gw.tevAt n).pulseEnd = none →
      s.gw.now + 256 ≤ (s.gw.tevStaged n).start + s.gw.paramI (Par.tevAdj n) →
      ∃ t, Machine.exec (.tevOutSetCopy n) s = .next t ∧
        t.gw.tevAt n = { s.gw.tevStaged n with level := (s.gw.tevAt n).level } ∧
        bit (t.gw.regN (Reg.tevOutCfg n)) 31 = false)) ∧
  (∀ (s : State) (n : Nat) (t0 : Stamp) (x : TevOut), n < 16 → s.gw.islOn 12 = true → x = s.gw.tevAt n → x.active = true →
    t0 = s.gw.tevTime n x x.k →
    (t0 ≤ s.gw.nowLast → s.gw.tevMode n = 1 → x.pulseEnd = none → Machine.exec (.tevOutEvent n) s = .next (s.after ((s.gw.setTev n { x with
      k := x.k + 1, level := true, pulseEnd := some (t0 + Int.ofNat x.width), active := x.events != some (x.k + 1) }).tevDrive n true t0))) ∧
    (∀ e, t0 ≤ s.gw.nowLast → s.gw.tevMode n = 1 → x.pulseEnd = some e → e ≤ t0 →
      ∃ t, Machine.exec (.tevOutEvent n) s = .next t ∧ t.gw.tevAt n = { x with
        k := x.k + 1, level := true, pulseEnd := some (t0 + Int.ofNat x.width), active := x.events != some (x.k + 1) } ∧
        t.gw.out.contains (.pin "TEV_OUT" n (false != s.gw.tevPol n) e) = true) ∧
    (t0 ≤ s.gw.nowLast → s.gw.tevMode n = 2 → x.pulseEnd = none → Machine.exec (.tevOutEvent n) s = .next (s.after ((s.gw.setTev n { x with
      k := x.k + 1, level := !x.level, pulseEnd := none, active := x.events != some (x.k + 1) }).tevDrive n (!x.level) t0))) ∧
    (s.gw.nowLast < t0 → Machine.exec (.tevOutEvent n) s = .next s)) ∧
  (∀ (s : State) (n : Nat) (t0 : Stamp), n < 16 → s.gw.islOn 12 = true → (s.gw.tevAt n).pulseEnd = some t0 →
    (t0 ≤ s.gw.nowLast → ∃ t, Machine.exec (.tevOutPulseEnd n) s = .next t ∧ (t.gw.tevAt n).level = false ∧
      (t.gw.tevAt n).pulseEnd = none ∧ t.gw.out.contains (.pin "TEV_OUT" n (false != s.gw.tevPol n) t0) = true) ∧
    (s.gw.nowLast < t0 → Machine.exec (.tevOutPulseEnd n) s = .next s)) ∧
  (∀ (s : State) (n ph : Nat) (rise : Bool), n < 16 → s.gw.islOn 12 = true →
    (bit (s.gw.regN (Reg.tevInCfg n)) 31 = false → Machine.exec (.tevInEdge n rise ph) s = .next s) ∧
    (bit (s.gw.regN (Reg.tevInCfg n)) 31 = true → bit (s.gw.regN (Reg.tevInCfg n)) (if rise then 29 else 30) = true →
      (s.gw.tevInAt n).last = none →
      ∃ t, Machine.exec (.tevInEdge n rise ph) s = .next t ∧ (t.gw.tevInAt n).last = some (s.gw.tb.stamp ph) ∧
        ((s.gw.tevInAt n).queue.length < 32 → (t.gw.tevInAt n).queue = (s.gw.tevInAt n).queue ++
          [⟨s.gw.tb.stamp ph, rise, s.gw.tb.seg, (s.gw.tevInAt n).seq⟩]) ∧
        (32 ≤ (s.gw.tevInAt n).queue.length → (t.gw.tevInAt n).queue = (s.gw.tevInAt n).queue ∧
          bit (t.gw.regN (Reg.tevInStat n)) 31 = true)) ∧
    (∀ w, w = tevWords (s.gw.tevInAt n).queue.head? →
      Machine.exec (.tevInEnt0Read n) s = .next (s.after ((s.gw.setTevIn n { s.gw.tevInAt n with
        latched := w, armed := !(s.gw.tevInAt n).queue.isEmpty }).emit (.readData (Reg.tevInEnt0 n) (w32 (w.getD 0 0)))))) ∧
    ((s.gw.tevInAt n).armed = true → ∃ t, Machine.exec (.tevInEnt3Read n) s = .next t ∧
      (t.gw.tevInAt n).queue = (s.gw.tevInAt n).queue.drop 1 ∧
      t.gw.out.contains (.readData (Reg.tevInEnt3 n) (w32 ((s.gw.tevInAt n).latched.getD 3 0))) = true)) ∧
  (∀ (s : State) (t0 : Stamp), s.gw.islOn 12 = true → s.gw.tb.ppsNext = some t0 →
    (t0 ≤ s.gw.nowLast → s.gw.ppsOpen = true → ∃ t, Machine.exec .ppsOutPulse s = .next t ∧ t.gw.tb.ppsOn = true ∧
      t.gw.tb.ppsNext = some (t0 + 8000000000) ∧ t.gw.out.contains (.pin "PPS_OUT" 0 true t0) = true) ∧
    (s.gw.nowLast < t0 → Machine.exec .ppsOutPulse s = .next s)) ∧
  (∀ (s : State) (rise : Bool) (ph : Nat), s.gw.islOn 12 = true →
    (bit s.gw.ppsCfg 62 = true → rise ≠ bit s.gw.ppsCfg 61 →
      (∀ l, s.gw.tb.ppsInLast = some l → 32 ≤ s.gw.tb.stamp ph - l) → ∃ t, Machine.exec (.ppsInEdge rise ph) s = .next t ∧
      t.gw.tb.ppsIn = s.gw.tb.stamp ph ∧ bit t.gw.tb.valid 3 = true ∧ mget? t.gw.tb.samples 3 =
        some (-(((s.gw.tb.stamp ph + 4000000000) % 8000000000 - 4000000000) * 8192) +
          s.gw.wholeSeconds (-(((s.gw.tb.stamp ph + 4000000000) % 8000000000 - 4000000000) * 8192)))) ∧
    (s.gw.param Par.tbSrcSec ≠ 1 → s.gw.param Par.tbSrcSec ≠ 2 → ∀ p, s.gw.wholeSeconds p = 0) ∧
    (∀ p o, s.gw.param Par.tbSrcSec = 1 → mget? s.gw.tb.samples 1 = some o → s.gw.wholeSeconds p % 65536000000000 = 0 ∧
      2 * (o - p - s.gw.wholeSeconds p).natAbs ≤ 65536000000000) ∧
    (∀ l, s.gw.tb.ppsInLast = some l → s.gw.tb.stamp ph - l < 32 → Machine.exec (.ppsInEdge rise ph) s = .next s) ∧
    (bit s.gw.ppsCfg 62 = false → Machine.exec (.ppsInEdge rise ph) s = .next s)) ∧
  (∀ (s : State) (i p : Nat) (m : GptpMsg), s.gw.gptpOn i = true → p < 20 →
    (m.typ = 0 → m.twoStep = true → s.gw.gptpRole i p = 2 → s.gw.asCapable i p = true →
      Machine.exec (.gptpMessage i p m) s = .next (s.after (s.gw.setGptp i { s.gw.gptpAt i with
        syncTick := s.gw.tb.tick, syncPending := mset (s.gw.gptpAt i).syncPending p (m.seq, m.rx * 8192, s.gw.tb.seg - m.segBack) }))) ∧
    (∀ rx, m.typ = 1 → s.gw.gptpRole i p = 2 → mget? (s.gw.gptpAt i).syncPending p = some (m.seq, rx, s.gw.tb.seg) →
      ∃ t, Machine.exec (.gptpMessage i p m) s = .next t ∧
        (t.gw.gptpAt i).last = some ⟨m.time, m.corr + s.gw.linkDelay i p, rx, s.gw.tb.seg⟩ ∧
        (t.gw.gptpAt i).rate = s.gw.rateRatio i p m.rate ∧
        (s.gw.param Par.tbWorkDom = i → mget? t.gw.tb.samples 1 =
          some (m.time * 65536 + (m.corr + s.gw.linkDelay i p) - rx)) ∧
        (t.gw.gptpAt i).offset = m.time * 65536 + (m.corr + s.gw.linkDelay i p) - rx ∧ (t.gw.gptpAt i).offAt = rx) ∧
    (∀ j, m.typ = 2 → p < 12 → s.gw.gptpRole i p ≠ 0 → j = s.gw.pdOwner i p →
      ∃ g : Gw, Machine.exec (.gptpMessage i p m) s = .next (s.after ((g.gptpSend p
        (g.gptpBytes j p 3 0x0208 m.seq 0 0x7F (ptpStamp (m.rx / 8) ++ beBytes 10 m.source))
        (some (gptpTag 2 j p m.seq))).gmWatch s.gw)) ∧
      g = s.gw.setGptp j { s.gw.gptpAt j with pd := mset (s.gw.gptpAt j).pd p { mgetD (s.gw.gptpAt j).pd p {} with asker := m.source, askSeq := m.seq } }) ∧
    (s.gw.gptpRole i p = 0 → Machine.exec (.gptpMessage i p m) s = .next s)) ∧
  (∀ (s : State) (i p : Nat) (g : Gw), s.gw.gptpOn i = true →
    ((∀ k, mget? s.gw.timers (timerSync i) = some k → k + logTicks 1 (bits (s.gw.gptpCfg i) 31 24) ≤ s.gw.tb.tick) →
      s.gw.gptpMasters i = [p] → s.gw.shownRoot i / 2 ^ 104 ≠ 255 → g = ({ s.gw with timers := mset s.gw.timers (timerSync i) s.gw.tb.tick } : Gw).setGptp i { s.gw.gptpAt i with seqSync := mset (s.gw.gptpAt i).seqSync p ((mgetD (s.gw.gptpAt i).seqSync p 0 + 1) % 65536) } →
      Machine.exec (.gptpSyncTransmit i) s = .next (s.after (g.gptpSend p (g.gptpBytes i p 0 0x0208
        (mgetD (s.gw.gptpAt i).seqSync p 0) 0 (bits (s.gw.gptpCfg i) 31 24) (List.replicate 10 0))
        (some (gptpTag 0 i p (mgetD (s.gw.gptpAt i).seqSync p 0)))))) ∧
    (∀ k, mget? s.gw.timers (timerSync i) = some k → s.gw.tb.tick < k + logTicks 1 (bits (s.gw.gptpCfg i) 31 24) →
      Machine.exec (.gptpSyncTransmit i) s = .next s) ∧
    ((∀ k, mget? s.gw.timers (timerAnnounce i) = some k → k + logTicks 1 (bits (s.gw.gptpCfg i) 23 16) ≤ s.gw.tb.tick) →
      s.gw.gptpMasters i = [p] → ∃ t, Machine.exec (.gptpAnnounceTimer i) s = .next t ∧
      mget? (t.gw.gptpAt i).seqAnn p = some ((mgetD (s.gw.gptpAt i).seqAnn p 0 + 1) % 65536)) ∧
    (∀ k, mget? s.gw.timers (timerAnnounce i) = some k → s.gw.tb.tick < k + logTicks 1 (bits (s.gw.gptpCfg i) 23 16) →
      Machine.exec (.gptpAnnounceTimer i) s = .next s) ∧
    (s.gw.gptpMasters i = [] → (∃ t, Machine.exec (.gptpSyncTransmit i) s = .next t ∧ t.gw.str = s.gw.str ∧ t.gw.gptp = s.gw.gptp) ∧
      (∃ t, Machine.exec (.gptpAnnounceTimer i) s = .next t ∧ t.gw.str = s.gw.str ∧ t.gw.gptp = s.gw.gptp)) ∧
    ((∀ k, mget? s.gw.timers (timerPdelay i) = some k → k + logTicks 1 (bits (s.gw.gptpCfg i) 15 8) ≤ s.gw.tb.tick) →
      (List.range 12).filter (fun q => s.gw.gptpRole i q ≠ 0 && s.gw.pdOwner i q = i) = [p] → ∃ t, Machine.exec (.gptpPdelayTimer i) s = .next t ∧
      mget? (t.gw.gptpAt i).seqPd p = some ((mgetD (s.gw.gptpAt i).seqPd p 0 + 1) % 65536) ∧
      (mgetD (t.gw.gptpAt i).pd p {}).seq = mgetD (s.gw.gptpAt i).seqPd p 0)) ∧
  (∀ (s : State) (i p : Nat) (m : GptpMsg), s.gw.gptpOn i = false → p < 20 →
    Machine.exec (.gptpMessage i p m) s = .next s ∧ Machine.exec (.gptpSyncTransmit i) s = .next s ∧
    Machine.exec (.gptpAnnounceTimer i) s = .next s ∧ Machine.exec (.gptpPdelayTimer i) s = .next s)

/-- Side messages are ended, passed on or dropped; time words, hellos, topology and rings change the chain as
described. (R414, R415, R417, R448, R451, R454, R455, R459, R460, R461, R465, R466) The model's own choices in it: log
entries 99, 100, 101, 102, 104, 176. -/
def Obligations.ChainMessagesAndTopology : Prop :=
  (∀ (s : State) (k : Nat) (m : SideMsg) (chunks : List (List Byte)) (ago : Nat), s.gw.chainUsed k = true →
    ((s.gw.chainAt k).aligned = false → Machine.exec (.sideMessageReceive k m chunks ago) s = .next s) ∧
    ((s.gw.chainAt k).aligned = true → (chunks.headD []).length = 7 → chunkSom (chunks.headD []) = true →
      ∀ (y : ChainPort) (mark : Int) (c : Nat) (h : Gw), c = chunkCls (chunks.getLastD []) →
      mark = ((s.gw.tb.acc.toNat / 16777216 : Nat) : Int) - ((ago * s.gw.tb.incr / (250 * 16777216) : Nat) : Int) →
      y = { chunks.foldl ChainPort.takeChunk (s.gw.chainAt k) with mark := mark } →
      h = (s.gw.setChain k { y with part := merase y.part c }).bump (Reg.chnScRx k) →
      (chunkEom (chunks.getLastD []) = false ∨ c = 7 →
        Machine.exec (.sideMessageReceive k m chunks ago) s = .next (s.after (s.gw.setChain k y))) ∧
      (chunkEom (chunks.getLastD []) = true → c ≠ 7 → sideCrcOk (y.partOf c) = false →
        Machine.exec (.sideMessageReceive k m chunks ago) s = .next (s.after (h.bump (Reg.chnScCrc k)))) ∧
      (chunkEom (chunks.getLastD []) = true → c ≠ 7 → sideCrcOk (y.partOf c) = true → m.cls = c → y.partOf c = sideWire m →
        (4 ≤ c ∨ s.gw.mayCarry k m = false →
          Machine.exec (.sideMessageReceive k m chunks ago) s = .next (s.after (h.bump (Reg.chnScDrop k)))) ∧
        (s.gw.mayCarry k m = true →
          (m.cls ≤ 1 ∨ (m.cls = 3 ∧ m.dst = s.gw.chnAddr ∧ s.gw.chnAddr ≠ 0) →
            Machine.exec (.sideMessageReceive k m chunks ago) s = .next (s.after (h.terminate k mark m))) ∧
          (∀ o, m.cls = 2 ∨ (m.cls = 3 ∧ m.typ ≠ 2) → m.dst ≠ s.gw.chnAddr → m.dst ≠ 0xFFF → s.gw.routeTo m.dst = some o →
            (m.hops ≤ 1 ∨ s.gw.mayCarry o m = false → Machine.exec (.sideMessageReceive k m chunks ago) s =
              .next (s.after (h.bump (Reg.chnScDrop k)))) ∧
            (1 < m.hops → s.gw.mayCarry o m = true → ∃ t, Machine.exec (.sideMessageReceive k m chunks ago) s = .next t ∧
              t.gw.out.contains (.side o { m with hops := m.hops - 1 }) = true ∧
              t.gw.chn = (h.setChain o { h.chainAt o with
                sendQ := (h.chainAt o).sendQ ++ [(m.cls, sideChunks { m with hops := m.hops - 1 })] }).chn)))))) ∧
  (∀ (s : State) (k e : Nat) (m : SideMsg), s.gw.islOn 12 = true → e = s.gw.tickNo / 65536 →
    m = { cls := 0, typ := 0, src := s.gw.chnAddr, body := [(e : Int), s.gw.wordTime k, ((s.gw.tb.seg % 65536 : Nat) : Int)] } →
    ((s.gw.chainAt k).nextSide s.gw.tb.tick = (s.gw.chainAt k).nextSide (s.gw.tb.start + 65536 * e) → (s.gw.chainAt k).lastWord ≠ some e →
      s.gw.mayCarry k m = true → ∃ t, Machine.exec (.chainTimeWordSend k) s = .next t ∧
      t.gw.out.contains (.side k m) = true ∧ (t.gw.chainAt k).wordSent = some (e, s.gw.wordTime k) ∧
      (t.gw.chainAt k).lastWord = some e ∧ (t.gw.chainAt k).sendQ = (s.gw.chainAt k).sendQ ++ [(0, sideChunks m)]) ∧
    ((s.gw.chainAt k).nextSide s.gw.tb.tick ≠ (s.gw.chainAt k).nextSide (s.gw.tb.start + 65536 * e) ∨ (s.gw.chainAt k).lastWord = some e →
      Machine.exec (.chainTimeWordSend k) s = .next s)) ∧
  (∀ (s : State) (x : Inbound) (g : Gw), s.gw.takeMsg 0 0 = some (x, g) →
    ∃ t, Machine.exec .chainTimeWordReceive s = .next t ∧ t.gw.chn.inbox = g.chn.inbox ∧
      (s.gw.upstream = some x.port → bit t.gw.tb.valid 2 = true ∧
        mget? t.gw.tb.samples 2 = some (x.msg.body.getD 1 0 + s.gw.delayDown x.port - s.gw.markAt x)) ∧
      (s.gw.upstream ≠ some x.port → t.gw.tb = s.gw.tb)) ∧
  (∀ (s : State) (x : Inbound) (g : Gw) (e : Nat) (t0 : Int), s.gw.takeMsg 0 1 = some (x, g) →
    (s.gw.chainAt x.port).wordSent = some (e, t0) → x.msg.body.getD 0 0 = (e : Int) →
    Machine.exec .timeWordEcho s = .next (s.after (g.setChain x.port { s.gw.chainAt x.port with
      delay := (s.gw.markAt x - t0 - x.msg.body.getD 1 0 * 8192) / 2, wordSent := none }))) ∧
  (∀ (s : State), (s.gw.takeMsg 0 0 = none → Machine.exec .chainTimeWordReceive s = .next s) ∧
    (s.gw.takeMsg 0 1 = none → Machine.exec .timeWordEcho s = .next s)) ∧
  (∀ (s : State) (k rx tx : Nat), (s.gw.chainUsed k = true →
      (∀ q, mget? s.gw.timers (timerCal k) = some q → q + s.gw.param Par.chnCalPeriodMs * ticksPerMs ≤ s.gw.tb.tick) →
      Machine.exec (.chainCalibration k rx tx) s = .next (s.after
        (({ s.gw with timers := mset s.gw.timers (timerCal k) s.gw.tb.tick } : Gw).setEth (12 + k)
          { s.gw.ethAt (12 + k) with rxCal := rx, txCal := tx }))) ∧
    (∀ q, mget? s.gw.timers (timerCal k) = some q → s.gw.tb.tick < q + s.gw.param Par.chnCalPeriodMs * ticksPerMs →
      Machine.exec (.chainCalibration k rx tx) s = .next s) ∧
    (s.gw.chainUsed k = false → Machine.exec (.chainCalibration k rx tx) s = .next s)) ∧
  (∀ (s : State) (x : Inbound) (g : Gw), s.gw.pairRuns 0 = true → s.gw.takeMsg 1 4 = some (x, g) → x.msg.src ≠ s.gw.chnAddr →
    ∃ t, Machine.exec .chainStepAnnounce s = .next t ∧
      (s.gw.stepBusy = false → t.gw.tb.step =
        some ⟨x.msg.body.getD 0 0, s.gw.boundary s.gw.tb.tick, some (8 * x.msg.body.getD 1 0), none⟩) ∧
      (s.gw.stepBusy = true → t.gw.tb.step = s.gw.tb.step ∧ t.gw.tb.stepQueue = s.gw.tb.stepQueue ++
        [⟨x.msg.body.getD 0 0, 0, some (8 * x.msg.body.getD 1 0), none⟩])) ∧
  (∀ (s : State) (k : Nat), s.gw.chainUsed k = true →
    ((s.gw.chainAt k).aligned = false → (∃ t, Machine.exec (.blockAlignment k) s = .next t ∧
      t.gw.chainAt k = { s.gw.chainAt k with aligned := true, failed := false, alignedAt := s.gw.tb.tick } ∧
      ((s.gw.ethAt (12 + k)).adminDown = false → (t.gw.ethAt (12 + k)).link = true)) ∧
      Machine.exec (.alignmentLost k) s = .next s) ∧
    ((s.gw.chainAt k).aligned = true → Machine.exec (.alignmentLost k) s = .next (s.after (s.gw.setChain k
      { s.gw.chainAt k with aligned := false, lackSince := s.gw.tb.tick, sendQ := [] })) ∧ Machine.exec (.blockAlignment k) s = .next s) ∧
    ((s.gw.chainAt k).aligned = false → (s.gw.chainAt k).failed = false →
      ((s.gw.chainAt k).lackSince + s.gw.param Par.chnFailUs * ticksPerUs ≤ s.gw.tb.tick →
        ∃ t, Machine.exec (.chainPortFail k) s = .next t ∧ (t.gw.chainAt k).failed = true ∧ (t.gw.chainAt k).state = 0 ∧
          bit (t.gw.regN Reg.chnFlag) 26 = true) ∧
      (s.gw.tb.tick < (s.gw.chainAt k).lackSince + s.gw.param Par.chnFailUs * ticksPerUs →
        Machine.exec (.chainPortFail k) s = .next s))) ∧
  (∀ (s : State) (m : SideMsg), s.gw.pairRuns 0 = true →
    m = { cls := 1, typ := 0, src := s.gw.chnAddr, body := [s.gw.chnAddr, s.gw.chn.role, moduleIdentity, s.gw.chainVersion].map Int.ofNat } →
    ((∀ q, mget? s.gw.timers timerHello = some q → q + s.gw.param Par.chnHelloMs * ticksPerMs ≤ s.gw.tb.tick) →
      ∃ t, Machine.exec .helloTimer s = .next t ∧
      ∀ k, k < 2 → s.gw.mayCarry k m = true → t.gw.out.contains (.side k m) = true ∧
        t.gw.chainAt k = { s.gw.chainAt k with sendQ := (s.gw.chainAt k).sendQ ++ [(1, sideChunks m)] }) ∧
    (∀ q, mget? s.gw.timers timerHello = some q → s.gw.tb.tick < q + s.gw.param Par.chnHelloMs * ticksPerMs →
      Machine.exec .helloTimer s = .next s)) ∧
  (∀ (s : State) (x : Inbound) (g : Gw) (v : Nat), s.gw.pairRuns 0 = true → s.gw.takeMsg 1 0 = some (x, g) →
    (s.gw.chainAt x.port).aligned = true → s.gw.linkUp (12 + x.port) = true → v = (x.msg.body.getD 3 0).toNat →
    ∃ t, Machine.exec .helloReceive s = .next t ∧ (t.gw.chainAt x.port).helloTick = s.gw.tb.tick ∧
      (t.gw.chainAt x.port).nbrAddr = (x.msg.body.getD 0 0).toNat ∧
      (v ≤ s.gw.chainVersion + 1 → s.gw.chainVersion ≤ v + 1 → (t.gw.chainAt x.port).state = 1) ∧
      (s.gw.chainVersion + 1 < v ∨ v + 1 < s.gw.chainVersion → (t.gw.chainAt x.port).state = 2 ∧
        bit (t.gw.regN Reg.chnFlag) 30 = true)) ∧
  (∀ (s : State) (k : Nat), k < 2 → (s.gw.chainAt k).state ≠ 0 →
    ((s.gw.chainAt k).helloTick + s.gw.helloLimit ≤ s.gw.tb.tick → ∃ t, Machine.exec (.helloTimeout k) s = .next t ∧
      (t.gw.chainAt k).state = 0) ∧
    (s.gw.tb.tick < (s.gw.chainAt k).helloTick + s.gw.helloLimit → Machine.exec (.helloTimeout k) s = .next s)) ∧
  (∀ (s : State) (m : SideMsg), s.gw.pairRuns 0 = true →
    m = { cls := 1, typ := 1, dst := 0xFFF, src := s.gw.chnAddr, hops := 4094, body := [s.gw.chnAddr, moduleIdentity, s.gw.chn.role, s.gw.ringOwner.toNat, s.gw.param Par.tbTimeRoot, s.gw.chainVersion, (if (s.gw.chainAt 0).state = 1 then (s.gw.chainAt 0).nbrAddr else 0), (if (s.gw.chainAt 1).state = 1 then (s.gw.chainAt 1).nbrAddr else 0)].map Int.ofNat } →
    ((∀ q, mget? s.gw.timers timerTopology = some q → q + s.gw.param Par.chnHelloMs * ticksPerMs ≤ s.gw.tb.tick) →
      ∃ t, Machine.exec .topologyAnnounceTimer s = .next t ∧ t.gw.chn.reach = s.gw.chn.reach ∧
      ∀ k, k < 2 → s.gw.mayCarry k m = true → t.gw.out.contains (.side k m) = true ∧
        t.gw.chainAt k = { s.gw.chainAt k with sendQ := (s.gw.chainAt k).sendQ ++ [(1, sideChunks m)] }) ∧
    (∀ q, mget? s.gw.timers timerTopology = some q → s.gw.tb.tick < q + s.gw.param Par.chnHelloMs * ticksPerMs →
      Machine.exec .topologyAnnounceTimer s = .next s)) ∧
  (∀ (s : State) (x : Inbound) (g : Gw) (a : Nat), s.gw.pairRuns 0 = true → s.gw.takeMsg 1 1 = some (x, g) →
    (s.gw.chainAt x.port).blocked = false → a = (x.msg.body.getD 0 0).toNat →
    (a ≠ 0 → a ≠ s.gw.chnAddr → mget? s.gw.chn.reach a = none → ∃ t r, Machine.exec .topologyAnnounceReceive s = .next t ∧
      mget? t.gw.chn.reach a = some r ∧ r.ident = (x.msg.body.getD 1 0).toNat ∧ r.dup = false ∧
      (if x.port = 0 then r.hops0 else r.hops1) = some (4095 - x.msg.hops, s.gw.tb.tick)) ∧
    (a = s.gw.chnAddr → a ≠ 0 → (x.msg.body.getD 1 0).toNat ≠ moduleIdentity → ∃ t,
      Machine.exec .topologyAnnounceReceive s = .next t ∧ bit (t.gw.regN Reg.chnFlag) 31 = true ∧
      t.gw.chn.reach = s.gw.chn.reach)) ∧
  (∀ (s : State) (a : Nat) (r : Reach) (h0 k0 : Nat), mget? s.gw.chn.reach a = some r → r.hops1 = none →
    r.hops0 = some (h0, k0) →
    (k0 + s.gw.helloLimit ≤ s.gw.tb.tick → Machine.exec (.reachEntryTimeout a) s = .next (s.after
      { s.gw with chn := { s.gw.chn with reach := merase s.gw.chn.reach a } })) ∧
    (s.gw.tb.tick < k0 + s.gw.helloLimit → ∃ t, Machine.exec (.reachEntryTimeout a) s = .next t ∧
      mget? t.gw.chn.reach a = some r)) ∧
  (∀ (s : State) (k : Nat), s.gw.pairRuns 0 = true → s.gw.takeMsg 1 2 = none → s.gw.takeMsg 1 3 = none →
    (k < 2 → (s.gw.chainAt k).failed = true → (k = 1 → (s.gw.chainAt 0).failed = false) → s.gw.chn.faultBy = none →
      s.gw.ringMember = true → ∃ t, Machine.exec .ringFault s = .next t ∧ t.gw.chn.faultBy = some s.gw.chnAddr ∧
        (s.gw.ringOwner = true → s.gw.param Par.chnRingAuto = 1 → s.gw.chn.failedOver = false → s.gw.fw.state ≠ .handover →
          ∃ c ∈ t.gw.str.changes, c.act = .firmware .ringFailover)) ∧
    ((∀ j, j < 2 → (s.gw.chainAt j).failed = false) → Machine.exec .ringFault s = .next s)) ∧
  (∀ (s : State), s.gw.pairRuns 0 = true → s.gw.ringOwner = true →
    s.gw.chn.failedOver = true ∨ s.gw.chn.faultBy.isSome = true → s.gw.ringBack = true → s.gw.fw.state ≠ .handover →
    s.gw.str.changes.any (fun c => c.act = .firmware .ringRestore) = false →
    (max (s.gw.chn.backSince.getD s.gw.tb.tick) (max (s.gw.chainAt 0).upSince (s.gw.chainAt 1).upSince) + s.gw.param Par.chnRingWtrMs * ticksPerMs ≤ s.gw.tb.tick →
      ∃ t c, Machine.exec .ringWtrExpiry s = .next t ∧ c ∈ t.gw.str.changes ∧ c.act = .firmware .ringRestore ∧
        c.t = s.gw.soonest) ∧
    (s.gw.tb.tick < max (s.gw.chn.backSince.getD s.gw.tb.tick) (max (s.gw.chainAt 0).upSince (s.gw.chainAt 1).upSince) + s.gw.param Par.chnRingWtrMs * ticksPerMs →
      Machine.exec .ringWtrExpiry s = .next s)) ∧
  (∀ (s : State), s.gw.pairRuns 0 = false → Machine.exec .ringFault s = .next s ∧ Machine.exec .ringWtrExpiry s = .next s ∧
    Machine.exec .helloTimer s = .next s ∧ Machine.exec .helloReceive s = .next s ∧
    Machine.exec .topologyAnnounceTimer s = .next s ∧ Machine.exec .topologyAnnounceReceive s = .next s ∧
    Machine.exec .chainStepAnnounce s = .next s)

/-- Remote operations are sent, executed, answered, claimed and timed out slot by slot; far errors are logged. (R471,
R472, R473, R474, R477, R478, R479, R480, R481, R482, R483, R484) The model's own choices in it: log entries 106, 107,
108. -/
def Obligations.RemoteAccess : Prop :=
  (∀ (s : State) (i op k : Nat) (c : Instr) (y : RmtSlot), i < 16 → s.gw.islOn 10 = true →
    (c, op) ∈ [(Instr.rmtCmdRead i, 1), (Instr.rmtCmdWrite i, 2), (Instr.rmtCmdReadLine i, 3), (Instr.rmtCmdSeq i, 4)] →
    ((s.gw.rmtAt i).state = 1 → Machine.exec c s = .next s) ∧
    ((s.gw.rmtAt i).state ≠ 1 → (s.gw.rmtAt i).held = none →
      (∀ j, j < 32 → j ≠ i → (s.gw.rmtAt j).state ≠ 1 ∧ (s.gw.rmtAt j).held = none) →
      y = { op := op, tgt := bits (s.gw.regN (Reg.rmtTgt i)) 11 0, hops := bits (s.gw.regN (Reg.rmtTgt i)) 27 16, addr := s.gw.regN (Reg.rmtAddr i), wdata := s.gw.regN (Reg.rmtWdata i), seq := (if op = 4 then s.gw.seqOps i else []), state := 1, tag := s.gw.rmt.nextTag, start := s.gw.tb.tick, bseq := (s.gw.rmtAt i).bseq } →
      y.tgt ≠ s.gw.chnAddr →
      (s.gw.routeTo y.tgt = some k →
        ∃ t, Machine.exec c s = .next t ∧ t.gw.rmtAt i = { y with sent := true } ∧
          t.gw.rmt.nextTag = (s.gw.rmt.nextTag + 1) % 65536 ∧
          (∀ m : SideMsg, m = { cls := 2, typ := 0, dst := y.tgt, src := s.gw.chnAddr, hops := 4094, body := y.body } →
            s.gw.mayCarry k m = true → t.gw.out.contains (.side k m) = true)) ∧
      (s.gw.routeTo y.tgt = none → ∃ t, Machine.exec c s = .next t ∧ (t.gw.rmtAt i).state = 3 ∧ (t.gw.rmtAt i).err = 6))) ∧
  (∀ (s : State) (i : Nat), i < 16 → s.gw.islOn 10 = true → (s.gw.rmtAt i).state ≠ 1 → (s.gw.rmtAt i).held = none →
    ∃ t, Machine.exec (.rmtCmdBcast i) s = .next t ∧ (t.gw.rmtAt i).state = 2 ∧ (t.gw.rmtAt i).bseq = s.gw.rmt.bseq ∧
      t.gw.rmt.bseq = (s.gw.rmt.bseq + 1) % 65536 ∧
      ∀ k (m : SideMsg), k < 2 → m = { cls := 2, typ := 3, dst := 0xFFF, src := s.gw.chnAddr, hops := bits (s.gw.regN (Reg.rmtTgt i)) 27 16, body := [s.gw.rmt.bseq, s.gw.regN (Reg.rmtAddr i), s.gw.regN (Reg.rmtWdata i)].map Int.ofNat } →
        s.gw.mayCarry k m = true → t.gw.out.contains (.side k m) = true) ∧
  (∀ (s : State) (i k : Nat), s.gw.islOn 10 = true → (s.gw.rmtAt i).state = 1 → (s.gw.rmtAt i).sent = false →
    (s.gw.mustWait i (s.gw.rmtAt i) = true → Machine.exec (.rmtDeferredSend i) s = .next s) ∧
    (s.gw.mustWait i (s.gw.rmtAt i) = false → (s.gw.rmtAt i).tgt ≠ s.gw.chnAddr →
      s.gw.routeTo (s.gw.rmtAt i).tgt = some k → ∃ t, Machine.exec (.rmtDeferredSend i) s = .next t ∧
        t.gw.rmtAt i = { s.gw.rmtAt i with sent := true })) ∧
  (∀ (s : State) (ns : List Nat) (x : Inbound) (g : Gw) (q : State × Nat × Nat × List Nat), s.gw.takeRmt 0 = some (x, g) →
    s.gw.islOn 10 = true → q = farExecute ns x.msg.body (s.withGw g) →
    ∃ t, Machine.exec (.rmtRequestExecute ns) s = .next t ∧ t.dram = q.1.dram ∧ t.pending = q.1.pending ∧
      t.gw = s.gw.interrupts ((if q.2.1 ∈ [1, 2, 9] ∧ q.2.2.1 = 0 then q.1.gw else q.1.gw.bump Reg.rmtServedCnt).sendBack x 1
        ([x.msg.body.getD 0 0, (q.2.1 : Int), (q.2.2.1 : Int)] ++ q.2.2.2.map Int.ofNat))) ∧
  (∀ (s : State) (ns : List Nat) (tag op a d : Nat), op = 1 ∨ op = 2 ∨ op = 3 →
    ∀ q, q = farExecute ns [(tag : Int), (op : Int), (a : Int), (d : Int)] s →
    (s.gw.param Par.rmtServe = 0 → q = (s, 9, 0, [])) ∧
    (s.gw.param Par.rmtServe ≠ 0 →
      (0xFFFFFF < a ∨ a % 4 ≠ 0 → q = (s, 1, 0, [])) ∧
      (a ≤ 0xFFFFFF → a % 4 = 0 → s.gw.islOn (regIsland a) = false → q = (s, 2, 0, [])) ∧
      (a ≤ 0xFFFFFF → a % 4 = 0 → s.gw.islOn (regIsland a) = true →
        (op = 3 → farSensitive a = true → q = (s, 1, 0, [])) ∧
        ((∃ n ∈ ns, 1000 < n) → op ≠ 3 ∨ farSensitive a = false → q = (s, 3, 0, [])) ∧
        ((∀ n ∈ ns, n ≤ 1000) → op = 1 → q = (s.withGw (s.gw.busRead a).1, 0, 0, [(s.gw.busRead a).2.toNat])) ∧
        ((∀ n ∈ ns, n ≤ 1000) → op = 2 → q = (busWrite a (w32 d) s, 0, 0, [])) ∧
        ((∀ n ∈ ns, n ≤ 1000) → op = 3 → farSensitive a = false → q.1 = s ∧ q.2.1 = 0 ∧ q.2.2.2.length = 8)))) ∧
  (∀ (s : State) (d t0 : Nat) (ns : List Nat) (o : Nat × Nat × Nat × Nat), o.1 = 1 ∨ o.1 = 2 →
    (1800 < t0 → seqRun [o] ⟨s, t0, d :: ns⟩ = (s, 4, 0, [])) ∧
    (t0 ≤ 1800 → s.gw.farCheck o.2.1 ≠ 0 → seqRun [o] ⟨s, t0, d :: ns⟩ = (s, s.gw.farCheck o.2.1, 0, [])) ∧
    (t0 ≤ 1800 → s.gw.farCheck o.2.1 = 0 → 200 < d → seqRun [o] ⟨s, t0, d :: ns⟩ = (s, 3, 0, [])) ∧
    (t0 ≤ 1800 → s.gw.farCheck o.2.1 = 0 → d ≤ 200 →
      (o.1 = 1 → seqRun [o] ⟨s, t0, d :: ns⟩ = (s.withGw (s.gw.busRead o.2.1).1, 0, 1, [(s.gw.busRead o.2.1).2.toNat])) ∧
      (o.1 = 2 → seqRun [o] ⟨s, t0, d :: ns⟩ = (busWrite o.2.1 (w32 o.2.2.1) s, 0, 1, [])))) ∧
  (∀ (s : State) (x : Inbound) (g : Gw) (i code : Nat), s.gw.islOn 10 = true → s.gw.takeMsg 2 1 = some (x, g) → i < 32 →
    (s.gw.rmtAt i).state = 1 → (s.gw.rmtAt i).sent = true → (s.gw.rmtAt i).tag = (x.msg.body.getD 0 0).toNat →
    (∀ j, j < i → ¬((s.gw.rmtAt j).state = 1 ∧ (s.gw.rmtAt j).sent = true ∧ (s.gw.rmtAt j).tag = (x.msg.body.getD 0 0).toNat)) →
    (s.gw.rmtAt i).mbx = none → code = (x.msg.body.getD 1 0).toNat →
    ∃ t, Machine.exec .rmtResponseArrival s = .next t ∧ (t.gw.rmtAt i).rdata = (if (s.gw.rmtAt i).op = 4 then spreadReads (s.gw.rmtAt i).seq ((x.msg.body.drop 3).map Int.toNat)
        else (x.msg.body.drop 3).map Int.toNat) ∧
      (t.gw.rmtAt i).state = (if code = 0 then 2 else 3) ∧ (t.gw.rmtAt i).err = code ∧
      (t.gw.rmtAt i).doneOps = (x.msg.body.getD 2 0).toNat ∧
      (t.gw.rmtAt i).held = (if code = 0 ∧ ((s.gw.rmtAt i).op = 1 ∨ (s.gw.rmtAt i).op = 3 ∨
        ((s.gw.rmtAt i).op = 4 ∧ (s.gw.rmtAt i).seq.any (fun o => o.1 = 1) = true)) then some s.gw.tb.tick else none)) ∧
  (∀ (s : State) (i : Nat), i < 16 → s.gw.islOn 10 = true →
    ((s.gw.rmtAt i).held ≠ none → Machine.exec (.rmtRdata0Read i) s = .next (s.after ((s.gw.setRmt i
      { s.gw.rmtAt i with state := 0, held := none }).emit (.readData (Reg.rmtRdata0 i) (w32 ((s.gw.rmtAt i).rdata.getD 0 0)))))) ∧
    ((s.gw.rmtAt i).held = none → Machine.exec (.rmtRdata0Read i) s = .next (s.after
      (s.gw.emit (.readData (Reg.rmtRdata0 i) (w32 ((s.gw.rmtAt i).rdata.getD 0 0))))))) ∧
  (∀ (s : State) (i k : Nat), i < 32 → s.gw.islOn 10 = true →
    ((s.gw.rmtAt i).held = some k →
      (k + max 1 (s.gw.param Par.rmtHoldMs) * ticksPerMs ≤ s.gw.tb.tick → ∃ t, Machine.exec (.rmtHoldExpiry i) s = .next t ∧
        (t.gw.rmtAt i).held = none ∧ (t.gw.rmtAt i).state = 0 ∧
        ((s.gw.rmtAt i).op = 1 → farSensitive (s.gw.rmtAt i).addr = true → bit (t.gw.regN Reg.rmtFlag) 31 = true)) ∧
      (s.gw.tb.tick < k + max 1 (s.gw.param Par.rmtHoldMs) * ticksPerMs → Machine.exec (.rmtHoldExpiry i) s = .next s)) ∧
    ((s.gw.rmtAt i).state = 1 → (s.gw.rmtAt i).mbx = none →
      ((s.gw.rmtAt i).start + s.gw.param Par.rmtTmoUs * ticksPerUs ≤ s.gw.tb.tick → ∃ t, Machine.exec (.rmtTimeout i) s = .next t ∧
        (t.gw.rmtAt i).state = 3 ∧ (t.gw.rmtAt i).err = 8 ∧
        ((s.gw.rmtAt i).sent = true → t.gw.rmt.late = s.gw.rmt.late ++
          [((s.gw.rmtAt i).tag, (s.gw.rmtAt i).tgt, (s.gw.rmtAt i).addr, (s.gw.rmtAt i).reads)])) ∧
      (s.gw.tb.tick < (s.gw.rmtAt i).start + s.gw.param Par.rmtTmoUs * ticksPerUs →
        Machine.exec (.rmtTimeout i) s = .next s))) ∧
  (∀ (s : State) (x : Inbound) (g g1 : Gw) (a v b ns : Nat), s.gw.takeRmt 3 = some (x, g) → s.gw.islOn 10 = true →
    a = (x.msg.body.getD 1 0).toNat → v = (x.msg.body.getD 2 0).toNat → b = (x.msg.body.getD 0 0).toNat →
    ns = Config.accessTime g.free → g1 = g.draw.passOn x.port (1 - x.port) x.msg →
    (x.msg.src = s.gw.chnAddr → s.gw.chnAddr ≠ 0 → Machine.exec .bcastReceive s = .next (s.after g)) ∧
    (x.msg.src ≠ s.gw.chnAddr → s.gw.param Par.rmtServe ≠ 0 →
      (s.gw.farCheck a = 0 → ns ≤ 1000 → ∃ t, Machine.exec .bcastReceive s = .next t ∧
        t.gw = s.gw.interrupts ((busWrite a (w32 v) (s.withGw g1)).gw.bump Reg.rmtServedCnt) ∧
        t.dram = (busWrite a (w32 v) (s.withGw g1)).dram) ∧
      (∀ c, c = (if s.gw.farCheck a ≠ 0 then s.gw.farCheck a else if 1000 < ns then 3 else 0) → c ≠ 0 → Machine.exec .bcastReceive s = .next (s.after
        (g1.sendBack x 2 [(c : Int), (a : Int), (b : Int), 1]))))) ∧
  (∀ (s : State) (x : Inbound) (g : Gw), s.gw.islOn 10 = true → s.gw.takeMsg 2 2 = some (x, g) →
    ∃ t, Machine.exec .farErrorReport s = .next t ∧ bit (t.gw.regN Reg.rmtFlag) 30 = true ∧
      (s.gw.farLog.length < 32 → t.gw.farLog = s.gw.farLog ++ [⟨(x.msg.body.getD 1 0).toNat, (x.msg.body.getD 0 0).toNat * 2 ^ 28 +
        x.msg.src % 4096 * 65536 + (x.msg.body.getD 2 0).toNat % 65536, 2 ^ 31 + atBit 30 ((x.msg.body.getD 3 0).toNat = 1)⟩]) ∧
      (32 ≤ s.gw.farLog.length → t.gw.farLog = s.gw.farLog ∧ bit (t.gw.regN Reg.rmtFlag) 29 = true)) ∧
  (∀ (s : State) (e : FarEntry) (r : List FarEntry), s.gw.islOn 10 = true → s.gw.farLog = e :: r →
    Machine.exec .rmtFerrEnt0Read s = .next (s.after (({ s.gw with rmt := { s.gw.rmt with
      ferrLatched := [e.w0, e.w1, e.w2], ferrArmed := true } } : Gw).emit (.readData Reg.rmtFerrEnt0 (w32 e.w0)))) ∧
    (s.gw.rmt.ferrArmed = true → Machine.exec .rmtFerrEnt2Read s = .next (s.after (({ s.gw with farLog := r, rmt := { s.gw.rmt with
      ferrArmed := false } } : Gw).emit (.readData Reg.rmtFerrEnt2 (w32 (s.gw.rmt.ferrLatched.getD 2 0))))))) ∧
  (∀ (s : State) (x : Inbound) (r : List Inbound), s.gw.chn.inbox = x :: r → x.msg.cls = 2 →
    (x.msg.typ = 0 → (s.gw.takeRmt 0).map (·.1) = some x ∧
      ∀ y g, s.gw.takeRmt 3 = some (y, g) → y.msg.typ = 3 ∧ y.msg.src ≠ x.msg.src) ∧
    (x.msg.typ = 3 → (s.gw.takeRmt 3).map (·.1) = some x ∧
      ∀ y g, s.gw.takeRmt 0 = some (y, g) → y.msg.typ = 0 ∧ y.msg.src ≠ x.msg.src)) ∧
  (∀ (s : State) (l : List Nat), (s.gw.takeRmt 0 = none → Machine.exec (.rmtRequestExecute l) s = .next s) ∧
    (s.gw.takeMsg 2 1 = none → Machine.exec .rmtResponseArrival s = .next s) ∧
    (s.gw.takeMsg 2 2 = none → Machine.exec .farErrorReport s = .next s) ∧
    (s.gw.takeRmt 3 = none → Machine.exec .bcastReceive s = .next s))
end

