-- ==== Sys2Proof/Laws/Maps.lean ====
section
/-! SUPPORT. The laws of sparse tables: what a lookup finds after a change, and that changes keep the keys rising. -/

namespace Sys2Proof.Machine

@[simp] theorem mget?_mset_same {α : Type} (m : Map α) (k : Nat) (v : α) : mget? (mset m k v) k = some v := by
  induction m with
  | nil => simp [mset, mget?]
  | cons e r ih =>
    obtain ⟨j, w⟩ := e
    unfold mset
    split
    · simp [mget?]
    · split
      · simp [mget?]
      · next h => simp [mget?, h, ih]

theorem mget?_mset_ne {α : Type} (m : Map α) {i k : Nat} (v : α) (h : i ≠ k) : mget? (mset m k v) i = mget? m i := by
  induction m with
  | nil => simp [mset, mget?, h.symm]
  | cons e r ih =>
    obtain ⟨j, w⟩ := e
    unfold mset
    split
    · simp [mget?, h.symm]
    · split
      · next hj => simp [mget?, hj, h.symm]
      · simp [mget?, ih]

@[simp] theorem mget?_merase_same {α : Type} (m : Map α) (k : Nat) : mget? (merase m k) k = none := by
  induction m with
  | nil => simp [merase, mget?]
  | cons e r ih =>
    obtain ⟨j, w⟩ := e
    simp only [merase, List.filter_cons] at ih ⊢
    split
    · next h => simp only [mget?, ih]; simp at h; simp [h]
    · exact ih

theorem mget?_merase_ne {α : Type} (m : Map α) {i k : Nat} (h : i ≠ k) : mget? (merase m k) i = mget? m i := by
  induction m with
  | nil => simp [merase, mget?]
  | cons e r ih =>
    obtain ⟨j, w⟩ := e
    simp only [merase, List.filter_cons] at ih ⊢
    split
    · simp only [mget?, ih]
    · next hj =>
      simp at hj
      have : j ≠ i := fun e => h (e.symm.trans hj)
      simp only [mget?, ih, this, if_false]

@[simp] theorem mgetD_mset_same {α : Type} (m : Map α) (k : Nat) (v d : α) : mgetD (mset m k v) k d = v := by
  simp [mgetD]

theorem mgetD_mset_ne {α : Type} (m : Map α) {i k : Nat} (v d : α) (h : i ≠ k) :
    mgetD (mset m k v) i d = mgetD m i d := by simp [mgetD, mget?_mset_ne m v h]

@[simp] theorem mgetD_mput_same {α : Type} [DecidableEq α] (m : Map α) (k : Nat) (v d : α) :
    mgetD (mput m k v d) k d = v := by
  unfold mput
  split
  · next h => simp [mgetD, h]
  · simp

theorem mgetD_mput_ne {α : Type} [DecidableEq α] (m : Map α) {i k : Nat} (v d e : α) (h : i ≠ k) :
    mgetD (mput m k v d) i e = mgetD m i e := by
  unfold mput
  split
  · simp [mgetD, mget?_merase_ne m h]
  · exact mgetD_mset_ne m v e h

theorem mgetD_mput {α : Type} [DecidableEq α] (m : Map α) (i k : Nat) (v d : α) :
    mgetD (mput m k v d) i d = if i = k then v else mgetD m i d := by
  split
  · next h => simp [h]
  · next h => exact mgetD_mput_ne m v d d h

theorem mgetD_mset {α : Type} (m : Map α) (i k : Nat) (v d : α) :
    mgetD (mset m k v) i d = if i = k then v else mgetD m i d := by
  split
  · next h => simp [h]
  · next h => exact mgetD_mset_ne m v d h

/-! ### Rising keys -/

theorem mwf_tail {α : Type} {e : Nat × α} {r : Map α} (h : mwf (e :: r) = true) : mwf r = true := by
  cases r with
  | nil => rfl
  | cons f r => obtain ⟨j, w⟩ := e; obtain ⟨k, v⟩ := f; simp [mwf] at h; exact h.2

/-- Keys that rise and lie above `j` can follow `j`. -/
theorem mwf_cons {α : Type} {j : Nat} {w : α} {r : Map α} (hr : mwf r = true) (hj : ∀ e ∈ r, j < e.1) :
    mwf ((j, w) :: r) = true := by
  cases r with
  | nil => rfl
  | cons f r => obtain ⟨k, v⟩ := f; simp [mwf]; exact ⟨hj (k, v) (by simp), hr⟩

theorem mwf_head_lt {α : Type} {j : Nat} {w : α} {r : Map α} (h : mwf ((j, w) :: r) = true) :
    ∀ e ∈ r, j < e.1 := by
  induction r generalizing j w with
  | nil => simp
  | cons f r ih =>
    obtain ⟨k, v⟩ := f
    simp [mwf] at h
    intro e he
    rcases List.mem_cons.mp he with rfl | he
    · exact h.1
    · exact Nat.lt_trans h.1 (ih h.2 e he)

theorem mset_mem {α : Type} {m : Map α} {k : Nat} {v : α} {e : Nat × α} (h : e ∈ mset m k v) : e = (k, v) ∨ e ∈ m := by
  induction m with
  | nil => simpa [mset] using h
  | cons f r ih =>
    obtain ⟨j, w⟩ := f
    unfold mset at h
    split at h
    · simpa using h
    · split at h
      · rcases List.mem_cons.mp h with h | h
        · exact .inl h
        · exact .inr (List.mem_cons_of_mem _ h)
      · rcases List.mem_cons.mp h with h | h
        · exact .inr (by simp [h])
        · rcases ih h with h | h
          · exact .inl h
          · exact .inr (List.mem_cons_of_mem _ h)

theorem mwf_mset {α : Type} (m : Map α) (k : Nat) (v : α) (h : mwf m = true) : mwf (mset m k v) = true := by
  induction m with
  | nil => rfl
  | cons f r ih =>
    obtain ⟨j, w⟩ := f
    unfold mset
    split
    · next hk => simp [mwf, hk, h]
    · split
      · next hk _ => subst_vars; cases r with
        | nil => rfl
        | cons g r => obtain ⟨i, u⟩ := g; simpa [mwf] using h
      · next h1 h2 =>
        refine mwf_cons (ih (mwf_tail h)) (fun e he => ?_)
        rcases mset_mem he with he | he
        · simp [he]; omega
        · exact mwf_head_lt h e he

theorem mwf_merase {α : Type} (m : Map α) (k : Nat) (h : mwf m = true) : mwf (merase m k) = true := by
  induction m with
  | nil => rfl
  | cons f r ih =>
    obtain ⟨j, w⟩ := f
    simp only [merase, List.filter_cons] at ih ⊢
    split
    · exact mwf_cons (ih (mwf_tail h)) (fun e he => mwf_head_lt h e (List.mem_filter.mp he).1)
    · exact ih (mwf_tail h)

theorem mwf_mput {α : Type} [DecidableEq α] (m : Map α) (k : Nat) (v d : α) (h : mwf m = true) :
    mwf (mput m k v d) = true := by
  unfold mput
  split
  · exact mwf_merase m k h
  · exact mwf_mset m k v h

end Sys2Proof.Machine
end

