-- ==== Sys2Proof/Laws/Interrupts.lean ====
section
/-! SUPPORT. What the interrupt outputs of a step can change: the record of outputs and the pending-bit words of the
MSI-X table, nothing else. And the register laws they rest on. -/

namespace Sys2Proof.Machine

theorem reg_setReg (g : Gw) (o p : Nat) (v : W32) : (g.setReg o v).reg p = if p = o then v else g.reg p := by
  unfold Gw.reg Gw.setReg
  split
  · next h => simp [h]
  · next h => exact mgetD_mput_ne _ _ _ _ h

@[simp] theorem reg_setReg_same (g : Gw) (o : Nat) (v : W32) : (g.setReg o v).reg o = v := by simp [reg_setReg]

theorem reg_setReg_ne (g : Gw) {o p : Nat} (v : W32) (h : p ≠ o) : (g.setReg o v).reg p = g.reg p := by
  simp [reg_setReg, h]

/-- A message changes the outputs and at most one pending-bit word. -/
theorem message_shape (g : Gw) (v : Nat) :
    ∃ os rs, g.message v = { g with out := os, regs := rs } ∧
      ∀ o, o ≠ Reg.msixPba (v / 32) → (g.message v).reg o = g.reg o := by
  unfold Gw.message
  split
  · exact ⟨g.out, g.regs, rfl, fun _ _ => rfl⟩
  · split
    · exact ⟨g.out, _, rfl, fun o h => reg_setReg_ne g _ h⟩
    · exact ⟨_, g.regs, rfl, fun _ _ => rfl⟩

theorem vectorOf_lt (g : Gw) (s : Nat) : g.vectorOf s < 64 := by
  unfold Gw.vectorOf bits
  split <;> exact Nat.mod_lt _ (by decide)

theorem pendingVectors_lt (g : Gw) : ∀ v ∈ g.pendingVectors, v < 64 := by
  intro v hv
  rw [Gw.pendingVectors, List.mem_eraseDups] at hv
  obtain ⟨s, -, rfl⟩ := List.mem_map.mp hv
  exact vectorOf_lt g s

theorem messages_shape (l : List Nat) (hl : ∀ v ∈ l, v < 64) (g : Gw) :
    ∃ os rs, l.foldl Gw.message g = { g with out := os, regs := rs } ∧
      ∀ o, o ∉ pba → (l.foldl Gw.message g).reg o = g.reg o := by
  induction l generalizing g with
  | nil => exact ⟨g.out, g.regs, rfl, fun _ _ => rfl⟩
  | cons v r ih =>
    obtain ⟨os, rs, he, hr⟩ := message_shape g v
    obtain ⟨os', rs', he', hr'⟩ := ih (fun w hw => hl w (List.mem_cons_of_mem _ hw)) (g.message v)
    refine ⟨os', rs', by rw [List.foldl_cons, he', he], fun o ho => ?_⟩
    rw [List.foldl_cons, hr' o ho]
    refine hr o (fun h => ho ?_)
    have hv : v / 32 = 0 ∨ v / 32 = 1 := by have := hl v (by simp); omega
    rcases hv with hv | hv <;> simp [pba, h, hv]

/-- The interrupt outputs of a step change the record of outputs and the pending-bit words only. -/
theorem interrupts_shape (a g : Gw) :
    ∃ os rs, a.interrupts g = { g with out := os, regs := rs } ∧ ∀ o, o ∉ pba → (a.interrupts g).reg o = g.reg o := by
  have hl : ∀ v ∈ g.pendingVectors.filter (fun v => !a.pendingVectors.contains v), v < 64 :=
    fun v hv => pendingVectors_lt g v (List.mem_filter.mp hv).1
  obtain ⟨os, rs, he, hr⟩ := messages_shape _ hl g
  unfold Gw.interrupts
  dsimp only
  split
  · exact ⟨os, rs, he, hr⟩
  · refine ⟨_, rs, by rw [he]; rfl, fun o ho => ?_⟩
    rw [← hr o ho]; rfl

theorem interrupts_reg (a g : Gw) {o : Nat} (h : o ∉ pba) : (a.interrupts g).reg o = g.reg o :=
  (interrupts_shape a g).choose_spec.choose_spec.2 o h

end Sys2Proof.Machine
end

