-- ==== Sys2Proof/Laws/State.lean ====
section
/-! SUPPORT. What each named update of the module leaves alone, field by field; every proof that reads a field through
an update uses these and unfolds no update. -/

namespace Sys2Proof.Machine

@[simp] theorem interrupts_isl (a g : Gw) : (a.interrupts g).isl = g.isl := by
  obtain ⟨_, _, h, -⟩ := interrupts_shape a g
  rw [h]
@[simp] theorem interrupts_fw (a g : Gw) : (a.interrupts g).fw = g.fw := by
  obtain ⟨_, _, h, -⟩ := interrupts_shape a g
  rw [h]
@[simp] theorem interrupts_latches (a g : Gw) : (a.interrupts g).latches = g.latches := by
  obtain ⟨_, _, h, -⟩ := interrupts_shape a g
  rw [h]
@[simp] theorem interrupts_params (a g : Gw) : (a.interrupts g).params = g.params := by
  obtain ⟨_, _, h, -⟩ := interrupts_shape a g
  rw [h]
@[simp] theorem interrupts_log (a g : Gw) : (a.interrupts g).log = g.log := by
  obtain ⟨_, _, h, -⟩ := interrupts_shape a g
  rw [h]
@[simp] theorem interrupts_free (a g : Gw) : (a.interrupts g).free = g.free := by
  obtain ⟨_, _, h, -⟩ := interrupts_shape a g
  rw [h]
@[simp] theorem interrupts_mbx (a g : Gw) : (a.interrupts g).mbx = g.mbx := by
  obtain ⟨_, _, h, -⟩ := interrupts_shape a g
  rw [h]
@[simp] theorem interrupts_rung (a g : Gw) : (a.interrupts g).rung = g.rung := by
  obtain ⟨_, _, h, -⟩ := interrupts_shape a g
  rw [h]
@[simp] theorem interrupts_tb (a g : Gw) : (a.interrupts g).tb = g.tb := by
  obtain ⟨_, _, h, -⟩ := interrupts_shape a g
  rw [h]
@[simp] theorem interrupts_tevOut (a g : Gw) : (a.interrupts g).tevOut = g.tevOut := by
  obtain ⟨_, _, h, -⟩ := interrupts_shape a g
  rw [h]
@[simp] theorem interrupts_tevIn (a g : Gw) : (a.interrupts g).tevIn = g.tevIn := by
  obtain ⟨_, _, h, -⟩ := interrupts_shape a g
  rw [h]
@[simp] theorem interrupts_gptp (a g : Gw) : (a.interrupts g).gptp = g.gptp := by
  obtain ⟨_, _, h, -⟩ := interrupts_shape a g
  rw [h]
@[simp] theorem interrupts_str (a g : Gw) : (a.interrupts g).str = g.str := by
  obtain ⟨_, _, h, -⟩ := interrupts_shape a g
  rw [h]
@[simp] theorem interrupts_cal (a g : Gw) : (a.interrupts g).cal = g.cal := by
  obtain ⟨_, _, h, -⟩ := interrupts_shape a g
  rw [h]
@[simp] theorem interrupts_cat (a g : Gw) : (a.interrupts g).cat = g.cat := by
  obtain ⟨_, _, h, -⟩ := interrupts_shape a g
  rw [h]
@[simp] theorem interrupts_rtr (a g : Gw) : (a.interrupts g).rtr = g.rtr := by
  obtain ⟨_, _, h, -⟩ := interrupts_shape a g
  rw [h]
@[simp] theorem interrupts_egr (a g : Gw) : (a.interrupts g).egr = g.egr := by
  obtain ⟨_, _, h, -⟩ := interrupts_shape a g
  rw [h]
@[simp] theorem interrupts_filters (a g : Gw) : (a.interrupts g).filters = g.filters := by
  obtain ⟨_, _, h, -⟩ := interrupts_shape a g
  rw [h]
@[simp] theorem interrupts_meters (a g : Gw) : (a.interrupts g).meters = g.meters := by
  obtain ⟨_, _, h, -⟩ := interrupts_shape a g
  rw [h]
@[simp] theorem interrupts_mirrors (a g : Gw) : (a.interrupts g).mirrors = g.mirrors := by
  obtain ⟨_, _, h, -⟩ := interrupts_shape a g
  rw [h]
@[simp] theorem interrupts_eth (a g : Gw) : (a.interrupts g).eth = g.eth := by
  obtain ⟨_, _, h, -⟩ := interrupts_shape a g
  rw [h]
@[simp] theorem interrupts_tis (a g : Gw) : (a.interrupts g).tis = g.tis := by
  obtain ⟨_, _, h, -⟩ := interrupts_shape a g
  rw [h]
@[simp] theorem interrupts_undefEgress (a g : Gw) : (a.interrupts g).undefEgress = g.undefEgress := by
  obtain ⟨_, _, h, -⟩ := interrupts_shape a g
  rw [h]
@[simp] theorem interrupts_undefLaunch (a g : Gw) : (a.interrupts g).undefLaunch = g.undefLaunch := by
  obtain ⟨_, _, h, -⟩ := interrupts_shape a g
  rw [h]
@[simp] theorem interrupts_lin (a g : Gw) : (a.interrupts g).lin = g.lin := by
  obtain ⟨_, _, h, -⟩ := interrupts_shape a g
  rw [h]
@[simp] theorem interrupts_flx (a g : Gw) : (a.interrupts g).flx = g.flx := by
  obtain ⟨_, _, h, -⟩ := interrupts_shape a g
  rw [h]
@[simp] theorem interrupts_fvLast (a g : Gw) : (a.interrupts g).fvLast = g.fvLast := by
  obtain ⟨_, _, h, -⟩ := interrupts_shape a g
  rw [h]
@[simp] theorem interrupts_txRing (a g : Gw) : (a.interrupts g).txRing = g.txRing := by
  obtain ⟨_, _, h, -⟩ := interrupts_shape a g
  rw [h]
@[simp] theorem interrupts_cryQ (a g : Gw) : (a.interrupts g).cryQ = g.cryQ := by
  obtain ⟨_, _, h, -⟩ := interrupts_shape a g
  rw [h]
@[simp] theorem interrupts_keys (a g : Gw) : (a.interrupts g).keys = g.keys := by
  obtain ⟨_, _, h, -⟩ := interrupts_shape a g
  rw [h]
@[simp] theorem interrupts_cryUp (a g : Gw) : (a.interrupts g).cryUp = g.cryUp := by
  obtain ⟨_, _, h, -⟩ := interrupts_shape a g
  rw [h]
@[simp] theorem interrupts_trngOk (a g : Gw) : (a.interrupts g).trngOk = g.trngOk := by
  obtain ⟨_, _, h, -⟩ := interrupts_shape a g
  rw [h]
@[simp] theorem interrupts_cryCache (a g : Gw) : (a.interrupts g).cryCache = g.cryCache := by
  obtain ⟨_, _, h, -⟩ := interrupts_shape a g
  rw [h]
@[simp] theorem interrupts_mka (a g : Gw) : (a.interrupts g).mka = g.mka := by
  obtain ⟨_, _, h, -⟩ := interrupts_shape a g
  rw [h]
@[simp] theorem interrupts_fvTx (a g : Gw) : (a.interrupts g).fvTx = g.fvTx := by
  obtain ⟨_, _, h, -⟩ := interrupts_shape a g
  rw [h]
@[simp] theorem interrupts_fvRes (a g : Gw) : (a.interrupts g).fvRes = g.fvRes := by
  obtain ⟨_, _, h, -⟩ := interrupts_shape a g
  rw [h]
@[simp] theorem interrupts_fvJrnl (a g : Gw) : (a.interrupts g).fvJrnl = g.fvJrnl := by
  obtain ⟨_, _, h, -⟩ := interrupts_shape a g
  rw [h]
@[simp] theorem interrupts_farLog (a g : Gw) : (a.interrupts g).farLog = g.farLog := by
  obtain ⟨_, _, h, -⟩ := interrupts_shape a g
  rw [h]
@[simp] theorem interrupts_hostSpi (a g : Gw) : (a.interrupts g).hostSpi = g.hostSpi := by
  obtain ⟨_, _, h, -⟩ := interrupts_shape a g
  rw [h]
@[simp] theorem interrupts_can (a g : Gw) : (a.interrupts g).can = g.can := by
  obtain ⟨_, _, h, -⟩ := interrupts_shape a g
  rw [h]
@[simp] theorem interrupts_capFifo (a g : Gw) : (a.interrupts g).capFifo = g.capFifo := by
  obtain ⟨_, _, h, -⟩ := interrupts_shape a g
  rw [h]
@[simp] theorem interrupts_canStart (a g : Gw) : (a.interrupts g).canStart = g.canStart := by
  obtain ⟨_, _, h, -⟩ := interrupts_shape a g
  rw [h]
@[simp] theorem interrupts_undefBus (a g : Gw) : (a.interrupts g).undefBus = g.undefBus := by
  obtain ⟨_, _, h, -⟩ := interrupts_shape a g
  rw [h]
@[simp] theorem interrupts_detected (a g : Gw) : (a.interrupts g).detected = g.detected := by
  obtain ⟨_, _, h, -⟩ := interrupts_shape a g
  rw [h]
@[simp] theorem interrupts_pairs (a g : Gw) : (a.interrupts g).pairs = g.pairs := by
  obtain ⟨_, _, h, -⟩ := interrupts_shape a g
  rw [h]
@[simp] theorem interrupts_chn (a g : Gw) : (a.interrupts g).chn = g.chn := by
  obtain ⟨_, _, h, -⟩ := interrupts_shape a g
  rw [h]
@[simp] theorem interrupts_rmt (a g : Gw) : (a.interrupts g).rmt = g.rmt := by
  obtain ⟨_, _, h, -⟩ := interrupts_shape a g
  rw [h]
@[simp] theorem interrupts_pdie (a g : Gw) : (a.interrupts g).pdie = g.pdie := by
  obtain ⟨_, _, h, -⟩ := interrupts_shape a g
  rw [h]
@[simp] theorem interrupts_die (a g : Gw) : (a.interrupts g).die = g.die := by
  obtain ⟨_, _, h, -⟩ := interrupts_shape a g
  rw [h]
@[simp] theorem interrupts_partN (a g : Gw) : (a.interrupts g).partN = g.partN := by
  obtain ⟨_, _, h, -⟩ := interrupts_shape a g
  rw [h]
@[simp] theorem interrupts_nm (a g : Gw) : (a.interrupts g).nm = g.nm := by
  obtain ⟨_, _, h, -⟩ := interrupts_shape a g
  rw [h]
@[simp] theorem interrupts_aon (a g : Gw) : (a.interrupts g).aon = g.aon := by
  obtain ⟨_, _, h, -⟩ := interrupts_shape a g
  rw [h]
@[simp] theorem interrupts_flt (a g : Gw) : (a.interrupts g).flt = g.flt := by
  obtain ⟨_, _, h, -⟩ := interrupts_shape a g
  rw [h]
@[simp] theorem interrupts_flash (a g : Gw) : (a.interrupts g).flash = g.flash := by
  obtain ⟨_, _, h, -⟩ := interrupts_shape a g
  rw [h]
@[simp] theorem interrupts_upd (a g : Gw) : (a.interrupts g).upd = g.upd := by
  obtain ⟨_, _, h, -⟩ := interrupts_shape a g
  rw [h]
@[simp] theorem interrupts_ho (a g : Gw) : (a.interrupts g).ho = g.ho := by
  obtain ⟨_, _, h, -⟩ := interrupts_shape a g
  rw [h]
@[simp] theorem interrupts_boot (a g : Gw) : (a.interrupts g).boot = g.boot := by
  obtain ⟨_, _, h, -⟩ := interrupts_shape a g
  rw [h]
@[simp] theorem interrupts_rxRing (a g : Gw) : (a.interrupts g).rxRing = g.rxRing := by
  obtain ⟨_, _, h, -⟩ := interrupts_shape a g
  rw [h]
@[simp] theorem interrupts_arc (a g : Gw) : (a.interrupts g).arc = g.arc := by
  obtain ⟨_, _, h, -⟩ := interrupts_shape a g
  rw [h]
@[simp] theorem interrupts_deferred (a g : Gw) : (a.interrupts g).deferred = g.deferred := by
  obtain ⟨_, _, h, -⟩ := interrupts_shape a g
  rw [h]
@[simp] theorem interrupts_islRst (a g : Gw) : (a.interrupts g).islRst = g.islRst := by
  obtain ⟨_, _, h, -⟩ := interrupts_shape a g
  rw [h]
@[simp] theorem interrupts_ospiRun (a g : Gw) : (a.interrupts g).ospiRun = g.ospiRun := by
  obtain ⟨_, _, h, -⟩ := interrupts_shape a g
  rw [h]
@[simp] theorem interrupts_timers (a g : Gw) : (a.interrupts g).timers = g.timers := by
  obtain ⟨_, _, h, -⟩ := interrupts_shape a g
  rw [h]

/-! ### setReg -/

@[simp] theorem setReg_isl (g : Gw) (o : Nat) (v : W32) : (g.setReg o v).isl = g.isl := rfl
@[simp] theorem setReg_fw (g : Gw) (o : Nat) (v : W32) : (g.setReg o v).fw = g.fw := rfl
@[simp] theorem setReg_latches (g : Gw) (o : Nat) (v : W32) : (g.setReg o v).latches = g.latches := rfl
@[simp] theorem setReg_params (g : Gw) (o : Nat) (v : W32) : (g.setReg o v).params = g.params := rfl
@[simp] theorem setReg_out (g : Gw) (o : Nat) (v : W32) : (g.setReg o v).out = g.out := rfl
@[simp] theorem setReg_log (g : Gw) (o : Nat) (v : W32) : (g.setReg o v).log = g.log := rfl
@[simp] theorem setReg_free (g : Gw) (o : Nat) (v : W32) : (g.setReg o v).free = g.free := rfl
@[simp] theorem setReg_mbx (g : Gw) (o : Nat) (v : W32) : (g.setReg o v).mbx = g.mbx := rfl
@[simp] theorem setReg_rung (g : Gw) (o : Nat) (v : W32) : (g.setReg o v).rung = g.rung := rfl
@[simp] theorem setReg_tb (g : Gw) (o : Nat) (v : W32) : (g.setReg o v).tb = g.tb := rfl
@[simp] theorem setReg_tevOut (g : Gw) (o : Nat) (v : W32) : (g.setReg o v).tevOut = g.tevOut := rfl
@[simp] theorem setReg_tevIn (g : Gw) (o : Nat) (v : W32) : (g.setReg o v).tevIn = g.tevIn := rfl
@[simp] theorem setReg_gptp (g : Gw) (o : Nat) (v : W32) : (g.setReg o v).gptp = g.gptp := rfl
@[simp] theorem setReg_str (g : Gw) (o : Nat) (v : W32) : (g.setReg o v).str = g.str := rfl
@[simp] theorem setReg_cal (g : Gw) (o : Nat) (v : W32) : (g.setReg o v).cal = g.cal := rfl
@[simp] theorem setReg_cat (g : Gw) (o : Nat) (v : W32) : (g.setReg o v).cat = g.cat := rfl
@[simp] theorem setReg_rtr (g : Gw) (o : Nat) (v : W32) : (g.setReg o v).rtr = g.rtr := rfl
@[simp] theorem setReg_egr (g : Gw) (o : Nat) (v : W32) : (g.setReg o v).egr = g.egr := rfl
@[simp] theorem setReg_filters (g : Gw) (o : Nat) (v : W32) : (g.setReg o v).filters = g.filters := rfl
@[simp] theorem setReg_meters (g : Gw) (o : Nat) (v : W32) : (g.setReg o v).meters = g.meters := rfl
@[simp] theorem setReg_mirrors (g : Gw) (o : Nat) (v : W32) : (g.setReg o v).mirrors = g.mirrors := rfl
@[simp] theorem setReg_eth (g : Gw) (o : Nat) (v : W32) : (g.setReg o v).eth = g.eth := rfl
@[simp] theorem setReg_tis (g : Gw) (o : Nat) (v : W32) : (g.setReg o v).tis = g.tis := rfl
@[simp] theorem setReg_undefEgress (g : Gw) (o : Nat) (v : W32) : (g.setReg o v).undefEgress = g.undefEgress := rfl
@[simp] theorem setReg_undefLaunch (g : Gw) (o : Nat) (v : W32) : (g.setReg o v).undefLaunch = g.undefLaunch := rfl
@[simp] theorem setReg_lin (g : Gw) (o : Nat) (v : W32) : (g.setReg o v).lin = g.lin := rfl
@[simp] theorem setReg_flx (g : Gw) (o : Nat) (v : W32) : (g.setReg o v).flx = g.flx := rfl
@[simp] theorem setReg_fvLast (g : Gw) (o : Nat) (v : W32) : (g.setReg o v).fvLast = g.fvLast := rfl
@[simp] theorem setReg_txRing (g : Gw) (o : Nat) (v : W32) : (g.setReg o v).txRing = g.txRing := rfl
@[simp] theorem setReg_cryQ (g : Gw) (o : Nat) (v : W32) : (g.setReg o v).cryQ = g.cryQ := rfl
@[simp] theorem setReg_keys (g : Gw) (o : Nat) (v : W32) : (g.setReg o v).keys = g.keys := rfl
@[simp] theorem setReg_cryUp (g : Gw) (o : Nat) (v : W32) : (g.setReg o v).cryUp = g.cryUp := rfl
@[simp] theorem setReg_trngOk (g : Gw) (o : Nat) (v : W32) : (g.setReg o v).trngOk = g.trngOk := rfl
@[simp] theorem setReg_cryCache (g : Gw) (o : Nat) (v : W32) : (g.setReg o v).cryCache = g.cryCache := rfl
@[simp] theorem setReg_mka (g : Gw) (o : Nat) (v : W32) : (g.setReg o v).mka = g.mka := rfl
@[simp] theorem setReg_fvTx (g : Gw) (o : Nat) (v : W32) : (g.setReg o v).fvTx = g.fvTx := rfl
@[simp] theorem setReg_fvRes (g : Gw) (o : Nat) (v : W32) : (g.setReg o v).fvRes = g.fvRes := rfl
@[simp] theorem setReg_fvJrnl (g : Gw) (o : Nat) (v : W32) : (g.setReg o v).fvJrnl = g.fvJrnl := rfl
@[simp] theorem setReg_farLog (g : Gw) (o : Nat) (v : W32) : (g.setReg o v).farLog = g.farLog := rfl
@[simp] theorem setReg_hostSpi (g : Gw) (o : Nat) (v : W32) : (g.setReg o v).hostSpi = g.hostSpi := rfl
@[simp] theorem setReg_can (g : Gw) (o : Nat) (v : W32) : (g.setReg o v).can = g.can := rfl
@[simp] theorem setReg_capFifo (g : Gw) (o : Nat) (v : W32) : (g.setReg o v).capFifo = g.capFifo := rfl
@[simp] theorem setReg_canStart (g : Gw) (o : Nat) (v : W32) : (g.setReg o v).canStart = g.canStart := rfl
@[simp] theorem setReg_undefBus (g : Gw) (o : Nat) (v : W32) : (g.setReg o v).undefBus = g.undefBus := rfl
@[simp] theorem setReg_detected (g : Gw) (o : Nat) (v : W32) : (g.setReg o v).detected = g.detected := rfl
@[simp] theorem setReg_pairs (g : Gw) (o : Nat) (v : W32) : (g.setReg o v).pairs = g.pairs := rfl
@[simp] theorem setReg_chn (g : Gw) (o : Nat) (v : W32) : (g.setReg o v).chn = g.chn := rfl
@[simp] theorem setReg_rmt (g : Gw) (o : Nat) (v : W32) : (g.setReg o v).rmt = g.rmt := rfl
@[simp] theorem setReg_pdie (g : Gw) (o : Nat) (v : W32) : (g.setReg o v).pdie = g.pdie := rfl
@[simp] theorem setReg_die (g : Gw) (o : Nat) (v : W32) : (g.setReg o v).die = g.die := rfl
@[simp] theorem setReg_partN (g : Gw) (o : Nat) (v : W32) : (g.setReg o v).partN = g.partN := rfl
@[simp] theorem setReg_nm (g : Gw) (o : Nat) (v : W32) : (g.setReg o v).nm = g.nm := rfl
@[simp] theorem setReg_aon (g : Gw) (o : Nat) (v : W32) : (g.setReg o v).aon = g.aon := rfl
@[simp] theorem setReg_flt (g : Gw) (o : Nat) (v : W32) : (g.setReg o v).flt = g.flt := rfl
@[simp] theorem setReg_flash (g : Gw) (o : Nat) (v : W32) : (g.setReg o v).flash = g.flash := rfl
@[simp] theorem setReg_upd (g : Gw) (o : Nat) (v : W32) : (g.setReg o v).upd = g.upd := rfl
@[simp] theorem setReg_ho (g : Gw) (o : Nat) (v : W32) : (g.setReg o v).ho = g.ho := rfl
@[simp] theorem setReg_boot (g : Gw) (o : Nat) (v : W32) : (g.setReg o v).boot = g.boot := rfl
@[simp] theorem setReg_rxRing (g : Gw) (o : Nat) (v : W32) : (g.setReg o v).rxRing = g.rxRing := rfl
@[simp] theorem setReg_arc (g : Gw) (o : Nat) (v : W32) : (g.setReg o v).arc = g.arc := rfl
@[simp] theorem setReg_deferred (g : Gw) (o : Nat) (v : W32) : (g.setReg o v).deferred = g.deferred := rfl
@[simp] theorem setReg_islRst (g : Gw) (o : Nat) (v : W32) : (g.setReg o v).islRst = g.islRst := rfl
@[simp] theorem setReg_ospiRun (g : Gw) (o : Nat) (v : W32) : (g.setReg o v).ospiRun = g.ospiRun := rfl
@[simp] theorem setReg_timers (g : Gw) (o : Nat) (v : W32) : (g.setReg o v).timers = g.timers := rfl

/-! ### latch -/

@[simp] theorem latch_isl (g : Gw) (o : Nat) (v : W32) : (g.latch o v).isl = g.isl := rfl
@[simp] theorem latch_fw (g : Gw) (o : Nat) (v : W32) : (g.latch o v).fw = g.fw := rfl
@[simp] theorem latch_regs (g : Gw) (o : Nat) (v : W32) : (g.latch o v).regs = g.regs := rfl
@[simp] theorem latch_params (g : Gw) (o : Nat) (v : W32) : (g.latch o v).params = g.params := rfl
@[simp] theorem latch_out (g : Gw) (o : Nat) (v : W32) : (g.latch o v).out = g.out := rfl
@[simp] theorem latch_log (g : Gw) (o : Nat) (v : W32) : (g.latch o v).log = g.log := rfl
@[simp] theorem latch_free (g : Gw) (o : Nat) (v : W32) : (g.latch o v).free = g.free := rfl
@[simp] theorem latch_mbx (g : Gw) (o : Nat) (v : W32) : (g.latch o v).mbx = g.mbx := rfl
@[simp] theorem latch_rung (g : Gw) (o : Nat) (v : W32) : (g.latch o v).rung = g.rung := rfl
@[simp] theorem latch_tb (g : Gw) (o : Nat) (v : W32) : (g.latch o v).tb = g.tb := rfl
@[simp] theorem latch_tevOut (g : Gw) (o : Nat) (v : W32) : (g.latch o v).tevOut = g.tevOut := rfl
@[simp] theorem latch_tevIn (g : Gw) (o : Nat) (v : W32) : (g.latch o v).tevIn = g.tevIn := rfl
@[simp] theorem latch_gptp (g : Gw) (o : Nat) (v : W32) : (g.latch o v).gptp = g.gptp := rfl
@[simp] theorem latch_str (g : Gw) (o : Nat) (v : W32) : (g.latch o v).str = g.str := rfl
@[simp] theorem latch_cal (g : Gw) (o : Nat) (v : W32) : (g.latch o v).cal = g.cal := rfl
@[simp] theorem latch_cat (g : Gw) (o : Nat) (v : W32) : (g.latch o v).cat = g.cat := rfl
@[simp] theorem latch_rtr (g : Gw) (o : Nat) (v : W32) : (g.latch o v).rtr = g.rtr := rfl
@[simp] theorem latch_egr (g : Gw) (o : Nat) (v : W32) : (g.latch o v).egr = g.egr := rfl
@[simp] theorem latch_filters (g : Gw) (o : Nat) (v : W32) : (g.latch o v).filters = g.filters := rfl
@[simp] theorem latch_meters (g : Gw) (o : Nat) (v : W32) : (g.latch o v).meters = g.meters := rfl
@[simp] theorem latch_mirrors (g : Gw) (o : Nat) (v : W32) : (g.latch o v).mirrors = g.mirrors := rfl
@[simp] theorem latch_eth (g : Gw) (o : Nat) (v : W32) : (g.latch o v).eth = g.eth := rfl
@[simp] theorem latch_tis (g : Gw) (o : Nat) (v : W32) : (g.latch o v).tis = g.tis := rfl
@[simp] theorem latch_undefEgress (g : Gw) (o : Nat) (v : W32) : (g.latch o v).undefEgress = g.undefEgress := rfl
@[simp] theorem latch_undefLaunch (g : Gw) (o : Nat) (v : W32) : (g.latch o v).undefLaunch = g.undefLaunch := rfl
@[simp] theorem latch_lin (g : Gw) (o : Nat) (v : W32) : (g.latch o v).lin = g.lin := rfl
@[simp] theorem latch_flx (g : Gw) (o : Nat) (v : W32) : (g.latch o v).flx = g.flx := rfl
@[simp] theorem latch_fvLast (g : Gw) (o : Nat) (v : W32) : (g.latch o v).fvLast = g.fvLast := rfl
@[simp] theorem latch_txRing (g : Gw) (o : Nat) (v : W32) : (g.latch o v).txRing = g.txRing := rfl
@[simp] theorem latch_cryQ (g : Gw) (o : Nat) (v : W32) : (g.latch o v).cryQ = g.cryQ := rfl
@[simp] theorem latch_keys (g : Gw) (o : Nat) (v : W32) : (g.latch o v).keys = g.keys := rfl
@[simp] theorem latch_cryUp (g : Gw) (o : Nat) (v : W32) : (g.latch o v).cryUp = g.cryUp := rfl
@[simp] theorem latch_trngOk (g : Gw) (o : Nat) (v : W32) : (g.latch o v).trngOk = g.trngOk := rfl
@[simp] theorem latch_cryCache (g : Gw) (o : Nat) (v : W32) : (g.latch o v).cryCache = g.cryCache := rfl
@[simp] theorem latch_mka (g : Gw) (o : Nat) (v : W32) : (g.latch o v).mka = g.mka := rfl
@[simp] theorem latch_fvTx (g : Gw) (o : Nat) (v : W32) : (g.latch o v).fvTx = g.fvTx := rfl
@[simp] theorem latch_fvRes (g : Gw) (o : Nat) (v : W32) : (g.latch o v).fvRes = g.fvRes := rfl
@[simp] theorem latch_fvJrnl (g : Gw) (o : Nat) (v : W32) : (g.latch o v).fvJrnl = g.fvJrnl := rfl
@[simp] theorem latch_farLog (g : Gw) (o : Nat) (v : W32) : (g.latch o v).farLog = g.farLog := rfl
@[simp] theorem latch_hostSpi (g : Gw) (o : Nat) (v : W32) : (g.latch o v).hostSpi = g.hostSpi := rfl
@[simp] theorem latch_can (g : Gw) (o : Nat) (v : W32) : (g.latch o v).can = g.can := rfl
@[simp] theorem latch_capFifo (g : Gw) (o : Nat) (v : W32) : (g.latch o v).capFifo = g.capFifo := rfl
@[simp] theorem latch_canStart (g : Gw) (o : Nat) (v : W32) : (g.latch o v).canStart = g.canStart := rfl
@[simp] theorem latch_undefBus (g : Gw) (o : Nat) (v : W32) : (g.latch o v).undefBus = g.undefBus := rfl
@[simp] theorem latch_detected (g : Gw) (o : Nat) (v : W32) : (g.latch o v).detected = g.detected := rfl
@[simp] theorem latch_pairs (g : Gw) (o : Nat) (v : W32) : (g.latch o v).pairs = g.pairs := rfl
@[simp] theorem latch_chn (g : Gw) (o : Nat) (v : W32) : (g.latch o v).chn = g.chn := rfl
@[simp] theorem latch_rmt (g : Gw) (o : Nat) (v : W32) : (g.latch o v).rmt = g.rmt := rfl
@[simp] theorem latch_pdie (g : Gw) (o : Nat) (v : W32) : (g.latch o v).pdie = g.pdie := rfl
@[simp] theorem latch_die (g : Gw) (o : Nat) (v : W32) : (g.latch o v).die = g.die := rfl
@[simp] theorem latch_partN (g : Gw) (o : Nat) (v : W32) : (g.latch o v).partN = g.partN := rfl
@[simp] theorem latch_nm (g : Gw) (o : Nat) (v : W32) : (g.latch o v).nm = g.nm := rfl
@[simp] theorem latch_aon (g : Gw) (o : Nat) (v : W32) : (g.latch o v).aon = g.aon := rfl
@[simp] theorem latch_flt (g : Gw) (o : Nat) (v : W32) : (g.latch o v).flt = g.flt := rfl
@[simp] theorem latch_flash (g : Gw) (o : Nat) (v : W32) : (g.latch o v).flash = g.flash := rfl
@[simp] theorem latch_upd (g : Gw) (o : Nat) (v : W32) : (g.latch o v).upd = g.upd := rfl
@[simp] theorem latch_ho (g : Gw) (o : Nat) (v : W32) : (g.latch o v).ho = g.ho := rfl
@[simp] theorem latch_boot (g : Gw) (o : Nat) (v : W32) : (g.latch o v).boot = g.boot := rfl
@[simp] theorem latch_rxRing (g : Gw) (o : Nat) (v : W32) : (g.latch o v).rxRing = g.rxRing := rfl
@[simp] theorem latch_arc (g : Gw) (o : Nat) (v : W32) : (g.latch o v).arc = g.arc := rfl
@[simp] theorem latch_deferred (g : Gw) (o : Nat) (v : W32) : (g.latch o v).deferred = g.deferred := rfl
@[simp] theorem latch_islRst (g : Gw) (o : Nat) (v : W32) : (g.latch o v).islRst = g.islRst := rfl
@[simp] theorem latch_ospiRun (g : Gw) (o : Nat) (v : W32) : (g.latch o v).ospiRun = g.ospiRun := rfl
@[simp] theorem latch_timers (g : Gw) (o : Nat) (v : W32) : (g.latch o v).timers = g.timers := rfl

/-! ### setParam -/

@[simp] theorem setParam_isl (g : Gw) (k v : Nat) : (g.setParam k v).isl = g.isl := rfl
@[simp] theorem setParam_fw (g : Gw) (k v : Nat) : (g.setParam k v).fw = g.fw := rfl
@[simp] theorem setParam_regs (g : Gw) (k v : Nat) : (g.setParam k v).regs = g.regs := rfl
@[simp] theorem setParam_latches (g : Gw) (k v : Nat) : (g.setParam k v).latches = g.latches := rfl
@[simp] theorem setParam_out (g : Gw) (k v : Nat) : (g.setParam k v).out = g.out := rfl
@[simp] theorem setParam_log (g : Gw) (k v : Nat) : (g.setParam k v).log = g.log := rfl
@[simp] theorem setParam_free (g : Gw) (k v : Nat) : (g.setParam k v).free = g.free := rfl
@[simp] theorem setParam_mbx (g : Gw) (k v : Nat) : (g.setParam k v).mbx = g.mbx := rfl
@[simp] theorem setParam_rung (g : Gw) (k v : Nat) : (g.setParam k v).rung = g.rung := rfl
@[simp] theorem setParam_tb (g : Gw) (k v : Nat) : (g.setParam k v).tb = g.tb := rfl
@[simp] theorem setParam_tevOut (g : Gw) (k v : Nat) : (g.setParam k v).tevOut = g.tevOut := rfl
@[simp] theorem setParam_tevIn (g : Gw) (k v : Nat) : (g.setParam k v).tevIn = g.tevIn := rfl
@[simp] theorem setParam_gptp (g : Gw) (k v : Nat) : (g.setParam k v).gptp = g.gptp := rfl
@[simp] theorem setParam_str (g : Gw) (k v : Nat) : (g.setParam k v).str = g.str := rfl
@[simp] theorem setParam_cal (g : Gw) (k v : Nat) : (g.setParam k v).cal = g.cal := rfl
@[simp] theorem setParam_cat (g : Gw) (k v : Nat) : (g.setParam k v).cat = g.cat := rfl
@[simp] theorem setParam_rtr (g : Gw) (k v : Nat) : (g.setParam k v).rtr = g.rtr := rfl
@[simp] theorem setParam_egr (g : Gw) (k v : Nat) : (g.setParam k v).egr = g.egr := rfl
@[simp] theorem setParam_filters (g : Gw) (k v : Nat) : (g.setParam k v).filters = g.filters := rfl
@[simp] theorem setParam_meters (g : Gw) (k v : Nat) : (g.setParam k v).meters = g.meters := rfl
@[simp] theorem setParam_mirrors (g : Gw) (k v : Nat) : (g.setParam k v).mirrors = g.mirrors := rfl
@[simp] theorem setParam_eth (g : Gw) (k v : Nat) : (g.setParam k v).eth = g.eth := rfl
@[simp] theorem setParam_tis (g : Gw) (k v : Nat) : (g.setParam k v).tis = g.tis := rfl
@[simp] theorem setParam_undefEgress (g : Gw) (k v : Nat) : (g.setParam k v).undefEgress = g.undefEgress := rfl
@[simp] theorem setParam_undefLaunch (g : Gw) (k v : Nat) : (g.setParam k v).undefLaunch = g.undefLaunch := rfl
@[simp] theorem setParam_lin (g : Gw) (k v : Nat) : (g.setParam k v).lin = g.lin := rfl
@[simp] theorem setParam_flx (g : Gw) (k v : Nat) : (g.setParam k v).flx = g.flx := rfl
@[simp] theorem setParam_fvLast (g : Gw) (k v : Nat) : (g.setParam k v).fvLast = g.fvLast := rfl
@[simp] theorem setParam_txRing (g : Gw) (k v : Nat) : (g.setParam k v).txRing = g.txRing := rfl
@[simp] theorem setParam_cryQ (g : Gw) (k v : Nat) : (g.setParam k v).cryQ = g.cryQ := rfl
@[simp] theorem setParam_keys (g : Gw) (k v : Nat) : (g.setParam k v).keys = g.keys := rfl
@[simp] theorem setParam_cryUp (g : Gw) (k v : Nat) : (g.setParam k v).cryUp = g.cryUp := rfl
@[simp] theorem setParam_trngOk (g : Gw) (k v : Nat) : (g.setParam k v).trngOk = g.trngOk := rfl
@[simp] theorem setParam_cryCache (g : Gw) (k v : Nat) : (g.setParam k v).cryCache = g.cryCache := rfl
@[simp] theorem setParam_mka (g : Gw) (k v : Nat) : (g.setParam k v).mka = g.mka := rfl
@[simp] theorem setParam_fvTx (g : Gw) (k v : Nat) : (g.setParam k v).fvTx = g.fvTx := rfl
@[simp] theorem setParam_fvRes (g : Gw) (k v : Nat) : (g.setParam k v).fvRes = g.fvRes := rfl
@[simp] theorem setParam_fvJrnl (g : Gw) (k v : Nat) : (g.setParam k v).fvJrnl = g.fvJrnl := rfl
@[simp] theorem setParam_farLog (g : Gw) (k v : Nat) : (g.setParam k v).farLog = g.farLog := rfl
@[simp] theorem setParam_hostSpi (g : Gw) (k v : Nat) : (g.setParam k v).hostSpi = g.hostSpi := rfl
@[simp] theorem setParam_can (g : Gw) (k v : Nat) : (g.setParam k v).can = g.can := rfl
@[simp] theorem setParam_capFifo (g : Gw) (k v : Nat) : (g.setParam k v).capFifo = g.capFifo := rfl
@[simp] theorem setParam_canStart (g : Gw) (k v : Nat) : (g.setParam k v).canStart = g.canStart := rfl
@[simp] theorem setParam_undefBus (g : Gw) (k v : Nat) : (g.setParam k v).undefBus = g.undefBus := rfl
@[simp] theorem setParam_detected (g : Gw) (k v : Nat) : (g.setParam k v).detected = g.detected := rfl
@[simp] theorem setParam_pairs (g : Gw) (k v : Nat) : (g.setParam k v).pairs = g.pairs := rfl
@[simp] theorem setParam_chn (g : Gw) (k v : Nat) : (g.setParam k v).chn = g.chn := rfl
@[simp] theorem setParam_rmt (g : Gw) (k v : Nat) : (g.setParam k v).rmt = g.rmt := rfl
@[simp] theorem setParam_pdie (g : Gw) (k v : Nat) : (g.setParam k v).pdie = g.pdie := rfl
@[simp] theorem setParam_die (g : Gw) (k v : Nat) : (g.setParam k v).die = g.die := rfl
@[simp] theorem setParam_partN (g : Gw) (k v : Nat) : (g.setParam k v).partN = g.partN := rfl
@[simp] theorem setParam_nm (g : Gw) (k v : Nat) : (g.setParam k v).nm = g.nm := rfl
@[simp] theorem setParam_aon (g : Gw) (k v : Nat) : (g.setParam k v).aon = g.aon := rfl
@[simp] theorem setParam_flt (g : Gw) (k v : Nat) : (g.setParam k v).flt = g.flt := rfl
@[simp] theorem setParam_flash (g : Gw) (k v : Nat) : (g.setParam k v).flash = g.flash := rfl
@[simp] theorem setParam_upd (g : Gw) (k v : Nat) : (g.setParam k v).upd = g.upd := rfl
@[simp] theorem setParam_ho (g : Gw) (k v : Nat) : (g.setParam k v).ho = g.ho := rfl
@[simp] theorem setParam_boot (g : Gw) (k v : Nat) : (g.setParam k v).boot = g.boot := rfl
@[simp] theorem setParam_rxRing (g : Gw) (k v : Nat) : (g.setParam k v).rxRing = g.rxRing := rfl
@[simp] theorem setParam_arc (g : Gw) (k v : Nat) : (g.setParam k v).arc = g.arc := rfl
@[simp] theorem setParam_deferred (g : Gw) (k v : Nat) : (g.setParam k v).deferred = g.deferred := rfl
@[simp] theorem setParam_islRst (g : Gw) (k v : Nat) : (g.setParam k v).islRst = g.islRst := rfl
@[simp] theorem setParam_ospiRun (g : Gw) (k v : Nat) : (g.setParam k v).ospiRun = g.ospiRun := rfl
@[simp] theorem setParam_timers (g : Gw) (k v : Nat) : (g.setParam k v).timers = g.timers := rfl

/-! ### emit -/

@[simp] theorem emit_isl (g : Gw) (x : Out) : (g.emit x).isl = g.isl := rfl
@[simp] theorem emit_fw (g : Gw) (x : Out) : (g.emit x).fw = g.fw := rfl
@[simp] theorem emit_regs (g : Gw) (x : Out) : (g.emit x).regs = g.regs := rfl
@[simp] theorem emit_latches (g : Gw) (x : Out) : (g.emit x).latches = g.latches := rfl
@[simp] theorem emit_params (g : Gw) (x : Out) : (g.emit x).params = g.params := rfl
@[simp] theorem emit_log (g : Gw) (x : Out) : (g.emit x).log = g.log := rfl
@[simp] theorem emit_free (g : Gw) (x : Out) : (g.emit x).free = g.free := rfl
@[simp] theorem emit_mbx (g : Gw) (x : Out) : (g.emit x).mbx = g.mbx := rfl
@[simp] theorem emit_rung (g : Gw) (x : Out) : (g.emit x).rung = g.rung := rfl
@[simp] theorem emit_tb (g : Gw) (x : Out) : (g.emit x).tb = g.tb := rfl
@[simp] theorem emit_tevOut (g : Gw) (x : Out) : (g.emit x).tevOut = g.tevOut := rfl
@[simp] theorem emit_tevIn (g : Gw) (x : Out) : (g.emit x).tevIn = g.tevIn := rfl
@[simp] theorem emit_gptp (g : Gw) (x : Out) : (g.emit x).gptp = g.gptp := rfl
@[simp] theorem emit_str (g : Gw) (x : Out) : (g.emit x).str = g.str := rfl
@[simp] theorem emit_cal (g : Gw) (x : Out) : (g.emit x).cal = g.cal := rfl
@[simp] theorem emit_cat (g : Gw) (x : Out) : (g.emit x).cat = g.cat := rfl
@[simp] theorem emit_rtr (g : Gw) (x : Out) : (g.emit x).rtr = g.rtr := rfl
@[simp] theorem emit_egr (g : Gw) (x : Out) : (g.emit x).egr = g.egr := rfl
@[simp] theorem emit_filters (g : Gw) (x : Out) : (g.emit x).filters = g.filters := rfl
@[simp] theorem emit_meters (g : Gw) (x : Out) : (g.emit x).meters = g.meters := rfl
@[simp] theorem emit_mirrors (g : Gw) (x : Out) : (g.emit x).mirrors = g.mirrors := rfl
@[simp] theorem emit_eth (g : Gw) (x : Out) : (g.emit x).eth = g.eth := rfl
@[simp] theorem emit_tis (g : Gw) (x : Out) : (g.emit x).tis = g.tis := rfl
@[simp] theorem emit_undefEgress (g : Gw) (x : Out) : (g.emit x).undefEgress = g.undefEgress := rfl
@[simp] theorem emit_undefLaunch (g : Gw) (x : Out) : (g.emit x).undefLaunch = g.undefLaunch := rfl
@[simp] theorem emit_lin (g : Gw) (x : Out) : (g.emit x).lin = g.lin := rfl
@[simp] theorem emit_flx (g : Gw) (x : Out) : (g.emit x).flx = g.flx := rfl
@[simp] theorem emit_fvLast (g : Gw) (x : Out) : (g.emit x).fvLast = g.fvLast := rfl
@[simp] theorem emit_txRing (g : Gw) (x : Out) : (g.emit x).txRing = g.txRing := rfl
@[simp] theorem emit_cryQ (g : Gw) (x : Out) : (g.emit x).cryQ = g.cryQ := rfl
@[simp] theorem emit_keys (g : Gw) (x : Out) : (g.emit x).keys = g.keys := rfl
@[simp] theorem emit_cryUp (g : Gw) (x : Out) : (g.emit x).cryUp = g.cryUp := rfl
@[simp] theorem emit_trngOk (g : Gw) (x : Out) : (g.emit x).trngOk = g.trngOk := rfl
@[simp] theorem emit_cryCache (g : Gw) (x : Out) : (g.emit x).cryCache = g.cryCache := rfl
@[simp] theorem emit_mka (g : Gw) (x : Out) : (g.emit x).mka = g.mka := rfl
@[simp] theorem emit_fvTx (g : Gw) (x : Out) : (g.emit x).fvTx = g.fvTx := rfl
@[simp] theorem emit_fvRes (g : Gw) (x : Out) : (g.emit x).fvRes = g.fvRes := rfl
@[simp] theorem emit_fvJrnl (g : Gw) (x : Out) : (g.emit x).fvJrnl = g.fvJrnl := rfl
@[simp] theorem emit_farLog (g : Gw) (x : Out) : (g.emit x).farLog = g.farLog := rfl
@[simp] theorem emit_hostSpi (g : Gw) (x : Out) : (g.emit x).hostSpi = g.hostSpi := rfl
@[simp] theorem emit_can (g : Gw) (x : Out) : (g.emit x).can = g.can := rfl
@[simp] theorem emit_capFifo (g : Gw) (x : Out) : (g.emit x).capFifo = g.capFifo := rfl
@[simp] theorem emit_canStart (g : Gw) (x : Out) : (g.emit x).canStart = g.canStart := rfl
@[simp] theorem emit_undefBus (g : Gw) (x : Out) : (g.emit x).undefBus = g.undefBus := rfl
@[simp] theorem emit_detected (g : Gw) (x : Out) : (g.emit x).detected = g.detected := rfl
@[simp] theorem emit_pairs (g : Gw) (x : Out) : (g.emit x).pairs = g.pairs := rfl
@[simp] theorem emit_chn (g : Gw) (x : Out) : (g.emit x).chn = g.chn := rfl
@[simp] theorem emit_rmt (g : Gw) (x : Out) : (g.emit x).rmt = g.rmt := rfl
@[simp] theorem emit_pdie (g : Gw) (x : Out) : (g.emit x).pdie = g.pdie := rfl
@[simp] theorem emit_die (g : Gw) (x : Out) : (g.emit x).die = g.die := rfl
@[simp] theorem emit_partN (g : Gw) (x : Out) : (g.emit x).partN = g.partN := rfl
@[simp] theorem emit_nm (g : Gw) (x : Out) : (g.emit x).nm = g.nm := rfl
@[simp] theorem emit_aon (g : Gw) (x : Out) : (g.emit x).aon = g.aon := rfl
@[simp] theorem emit_flt (g : Gw) (x : Out) : (g.emit x).flt = g.flt := rfl
@[simp] theorem emit_flash (g : Gw) (x : Out) : (g.emit x).flash = g.flash := rfl
@[simp] theorem emit_upd (g : Gw) (x : Out) : (g.emit x).upd = g.upd := rfl
@[simp] theorem emit_ho (g : Gw) (x : Out) : (g.emit x).ho = g.ho := rfl
@[simp] theorem emit_boot (g : Gw) (x : Out) : (g.emit x).boot = g.boot := rfl
@[simp] theorem emit_rxRing (g : Gw) (x : Out) : (g.emit x).rxRing = g.rxRing := rfl
@[simp] theorem emit_arc (g : Gw) (x : Out) : (g.emit x).arc = g.arc := rfl
@[simp] theorem emit_deferred (g : Gw) (x : Out) : (g.emit x).deferred = g.deferred := rfl
@[simp] theorem emit_islRst (g : Gw) (x : Out) : (g.emit x).islRst = g.islRst := rfl
@[simp] theorem emit_ospiRun (g : Gw) (x : Out) : (g.emit x).ospiRun = g.ospiRun := rfl
@[simp] theorem emit_timers (g : Gw) (x : Out) : (g.emit x).timers = g.timers := rfl

/-! ### emitAll -/

@[simp] theorem emitAll_isl (g : Gw) (l : List Out) : (g.emitAll l).isl = g.isl := rfl
@[simp] theorem emitAll_fw (g : Gw) (l : List Out) : (g.emitAll l).fw = g.fw := rfl
@[simp] theorem emitAll_regs (g : Gw) (l : List Out) : (g.emitAll l).regs = g.regs := rfl
@[simp] theorem emitAll_latches (g : Gw) (l : List Out) : (g.emitAll l).latches = g.latches := rfl
@[simp] theorem emitAll_params (g : Gw) (l : List Out) : (g.emitAll l).params = g.params := rfl
@[simp] theorem emitAll_log (g : Gw) (l : List Out) : (g.emitAll l).log = g.log := rfl
@[simp] theorem emitAll_free (g : Gw) (l : List Out) : (g.emitAll l).free = g.free := rfl
@[simp] theorem emitAll_mbx (g : Gw) (l : List Out) : (g.emitAll l).mbx = g.mbx := rfl
@[simp] theorem emitAll_rung (g : Gw) (l : List Out) : (g.emitAll l).rung = g.rung := rfl
@[simp] theorem emitAll_tb (g : Gw) (l : List Out) : (g.emitAll l).tb = g.tb := rfl
@[simp] theorem emitAll_tevOut (g : Gw) (l : List Out) : (g.emitAll l).tevOut = g.tevOut := rfl
@[simp] theorem emitAll_tevIn (g : Gw) (l : List Out) : (g.emitAll l).tevIn = g.tevIn := rfl
@[simp] theorem emitAll_gptp (g : Gw) (l : List Out) : (g.emitAll l).gptp = g.gptp := rfl
@[simp] theorem emitAll_str (g : Gw) (l : List Out) : (g.emitAll l).str = g.str := rfl
@[simp] theorem emitAll_cal (g : Gw) (l : List Out) : (g.emitAll l).cal = g.cal := rfl
@[simp] theorem emitAll_cat (g : Gw) (l : List Out) : (g.emitAll l).cat = g.cat := rfl
@[simp] theorem emitAll_rtr (g : Gw) (l : List Out) : (g.emitAll l).rtr = g.rtr := rfl
@[simp] theorem emitAll_egr (g : Gw) (l : List Out) : (g.emitAll l).egr = g.egr := rfl
@[simp] theorem emitAll_filters (g : Gw) (l : List Out) : (g.emitAll l).filters = g.filters := rfl
@[simp] theorem emitAll_meters (g : Gw) (l : List Out) : (g.emitAll l).meters = g.meters := rfl
@[simp] theorem emitAll_mirrors (g : Gw) (l : List Out) : (g.emitAll l).mirrors = g.mirrors := rfl
@[simp] theorem emitAll_eth (g : Gw) (l : List Out) : (g.emitAll l).eth = g.eth := rfl
@[simp] theorem emitAll_tis (g : Gw) (l : List Out) : (g.emitAll l).tis = g.tis := rfl
@[simp] theorem emitAll_undefEgress (g : Gw) (l : List Out) : (g.emitAll l).undefEgress = g.undefEgress := rfl
@[simp] theorem emitAll_undefLaunch (g : Gw) (l : List Out) : (g.emitAll l).undefLaunch = g.undefLaunch := rfl
@[simp] theorem emitAll_lin (g : Gw) (l : List Out) : (g.emitAll l).lin = g.lin := rfl
@[simp] theorem emitAll_flx (g : Gw) (l : List Out) : (g.emitAll l).flx = g.flx := rfl
@[simp] theorem emitAll_fvLast (g : Gw) (l : List Out) : (g.emitAll l).fvLast = g.fvLast := rfl
@[simp] theorem emitAll_txRing (g : Gw) (l : List Out) : (g.emitAll l).txRing = g.txRing := rfl
@[simp] theorem emitAll_cryQ (g : Gw) (l : List Out) : (g.emitAll l).cryQ = g.cryQ := rfl
@[simp] theorem emitAll_keys (g : Gw) (l : List Out) : (g.emitAll l).keys = g.keys := rfl
@[simp] theorem emitAll_cryUp (g : Gw) (l : List Out) : (g.emitAll l).cryUp = g.cryUp := rfl
@[simp] theorem emitAll_trngOk (g : Gw) (l : List Out) : (g.emitAll l).trngOk = g.trngOk := rfl
@[simp] theorem emitAll_cryCache (g : Gw) (l : List Out) : (g.emitAll l).cryCache = g.cryCache := rfl
@[simp] theorem emitAll_mka (g : Gw) (l : List Out) : (g.emitAll l).mka = g.mka := rfl
@[simp] theorem emitAll_fvTx (g : Gw) (l : List Out) : (g.emitAll l).fvTx = g.fvTx := rfl
@[simp] theorem emitAll_fvRes (g : Gw) (l : List Out) : (g.emitAll l).fvRes = g.fvRes := rfl
@[simp] theorem emitAll_fvJrnl (g : Gw) (l : List Out) : (g.emitAll l).fvJrnl = g.fvJrnl := rfl
@[simp] theorem emitAll_farLog (g : Gw) (l : List Out) : (g.emitAll l).farLog = g.farLog := rfl
@[simp] theorem emitAll_hostSpi (g : Gw) (l : List Out) : (g.emitAll l).hostSpi = g.hostSpi := rfl
@[simp] theorem emitAll_can (g : Gw) (l : List Out) : (g.emitAll l).can = g.can := rfl
@[simp] theorem emitAll_capFifo (g : Gw) (l : List Out) : (g.emitAll l).capFifo = g.capFifo := rfl
@[simp] theorem emitAll_canStart (g : Gw) (l : List Out) : (g.emitAll l).canStart = g.canStart := rfl
@[simp] theorem emitAll_undefBus (g : Gw) (l : List Out) : (g.emitAll l).undefBus = g.undefBus := rfl
@[simp] theorem emitAll_detected (g : Gw) (l : List Out) : (g.emitAll l).detected = g.detected := rfl
@[simp] theorem emitAll_pairs (g : Gw) (l : List Out) : (g.emitAll l).pairs = g.pairs := rfl
@[simp] theorem emitAll_chn (g : Gw) (l : List Out) : (g.emitAll l).chn = g.chn := rfl
@[simp] theorem emitAll_rmt (g : Gw) (l : List Out) : (g.emitAll l).rmt = g.rmt := rfl
@[simp] theorem emitAll_pdie (g : Gw) (l : List Out) : (g.emitAll l).pdie = g.pdie := rfl
@[simp] theorem emitAll_die (g : Gw) (l : List Out) : (g.emitAll l).die = g.die := rfl
@[simp] theorem emitAll_partN (g : Gw) (l : List Out) : (g.emitAll l).partN = g.partN := rfl
@[simp] theorem emitAll_nm (g : Gw) (l : List Out) : (g.emitAll l).nm = g.nm := rfl
@[simp] theorem emitAll_aon (g : Gw) (l : List Out) : (g.emitAll l).aon = g.aon := rfl
@[simp] theorem emitAll_flt (g : Gw) (l : List Out) : (g.emitAll l).flt = g.flt := rfl
@[simp] theorem emitAll_flash (g : Gw) (l : List Out) : (g.emitAll l).flash = g.flash := rfl
@[simp] theorem emitAll_upd (g : Gw) (l : List Out) : (g.emitAll l).upd = g.upd := rfl
@[simp] theorem emitAll_ho (g : Gw) (l : List Out) : (g.emitAll l).ho = g.ho := rfl
@[simp] theorem emitAll_boot (g : Gw) (l : List Out) : (g.emitAll l).boot = g.boot := rfl
@[simp] theorem emitAll_rxRing (g : Gw) (l : List Out) : (g.emitAll l).rxRing = g.rxRing := rfl
@[simp] theorem emitAll_arc (g : Gw) (l : List Out) : (g.emitAll l).arc = g.arc := rfl
@[simp] theorem emitAll_deferred (g : Gw) (l : List Out) : (g.emitAll l).deferred = g.deferred := rfl
@[simp] theorem emitAll_islRst (g : Gw) (l : List Out) : (g.emitAll l).islRst = g.islRst := rfl
@[simp] theorem emitAll_ospiRun (g : Gw) (l : List Out) : (g.emitAll l).ospiRun = g.ospiRun := rfl
@[simp] theorem emitAll_timers (g : Gw) (l : List Out) : (g.emitAll l).timers = g.timers := rfl

/-! ### note -/

@[simp] theorem note_isl (g : Gw) (w : String) (l : List Int) : (g.note w l).isl = g.isl := rfl
@[simp] theorem note_fw (g : Gw) (w : String) (l : List Int) : (g.note w l).fw = g.fw := rfl
@[simp] theorem note_regs (g : Gw) (w : String) (l : List Int) : (g.note w l).regs = g.regs := rfl
@[simp] theorem note_latches (g : Gw) (w : String) (l : List Int) : (g.note w l).latches = g.latches := rfl
@[simp] theorem note_params (g : Gw) (w : String) (l : List Int) : (g.note w l).params = g.params := rfl
@[simp] theorem note_out (g : Gw) (w : String) (l : List Int) : (g.note w l).out = g.out := rfl
@[simp] theorem note_free (g : Gw) (w : String) (l : List Int) : (g.note w l).free = g.free := rfl
@[simp] theorem note_mbx (g : Gw) (w : String) (l : List Int) : (g.note w l).mbx = g.mbx := rfl
@[simp] theorem note_rung (g : Gw) (w : String) (l : List Int) : (g.note w l).rung = g.rung := rfl
@[simp] theorem note_tb (g : Gw) (w : String) (l : List Int) : (g.note w l).tb = g.tb := rfl
@[simp] theorem note_tevOut (g : Gw) (w : String) (l : List Int) : (g.note w l).tevOut = g.tevOut := rfl
@[simp] theorem note_tevIn (g : Gw) (w : String) (l : List Int) : (g.note w l).tevIn = g.tevIn := rfl
@[simp] theorem note_gptp (g : Gw) (w : String) (l : List Int) : (g.note w l).gptp = g.gptp := rfl
@[simp] theorem note_str (g : Gw) (w : String) (l : List Int) : (g.note w l).str = g.str := rfl
@[simp] theorem note_cal (g : Gw) (w : String) (l : List Int) : (g.note w l).cal = g.cal := rfl
@[simp] theorem note_cat (g : Gw) (w : String) (l : List Int) : (g.note w l).cat = g.cat := rfl
@[simp] theorem note_rtr (g : Gw) (w : String) (l : List Int) : (g.note w l).rtr = g.rtr := rfl
@[simp] theorem note_egr (g : Gw) (w : String) (l : List Int) : (g.note w l).egr = g.egr := rfl
@[simp] theorem note_filters (g : Gw) (w : String) (l : List Int) : (g.note w l).filters = g.filters := rfl
@[simp] theorem note_meters (g : Gw) (w : String) (l : List Int) : (g.note w l).meters = g.meters := rfl
@[simp] theorem note_mirrors (g : Gw) (w : String) (l : List Int) : (g.note w l).mirrors = g.mirrors := rfl
@[simp] theorem note_eth (g : Gw) (w : String) (l : List Int) : (g.note w l).eth = g.eth := rfl
@[simp] theorem note_tis (g : Gw) (w : String) (l : List Int) : (g.note w l).tis = g.tis := rfl
@[simp] theorem note_undefEgress (g : Gw) (w : String) (l : List Int) : (g.note w l).undefEgress = g.undefEgress := rfl
@[simp] theorem note_undefLaunch (g : Gw) (w : String) (l : List Int) : (g.note w l).undefLaunch = g.undefLaunch := rfl
@[simp] theorem note_lin (g : Gw) (w : String) (l : List Int) : (g.note w l).lin = g.lin := rfl
@[simp] theorem note_flx (g : Gw) (w : String) (l : List Int) : (g.note w l).flx = g.flx := rfl
@[simp] theorem note_fvLast (g : Gw) (w : String) (l : List Int) : (g.note w l).fvLast = g.fvLast := rfl
@[simp] theorem note_txRing (g : Gw) (w : String) (l : List Int) : (g.note w l).txRing = g.txRing := rfl
@[simp] theorem note_cryQ (g : Gw) (w : String) (l : List Int) : (g.note w l).cryQ = g.cryQ := rfl
@[simp] theorem note_keys (g : Gw) (w : String) (l : List Int) : (g.note w l).keys = g.keys := rfl
@[simp] theorem note_cryUp (g : Gw) (w : String) (l : List Int) : (g.note w l).cryUp = g.cryUp := rfl
@[simp] theorem note_trngOk (g : Gw) (w : String) (l : List Int) : (g.note w l).trngOk = g.trngOk := rfl
@[simp] theorem note_cryCache (g : Gw) (w : String) (l : List Int) : (g.note w l).cryCache = g.cryCache := rfl
@[simp] theorem note_mka (g : Gw) (w : String) (l : List Int) : (g.note w l).mka = g.mka := rfl
@[simp] theorem note_fvTx (g : Gw) (w : String) (l : List Int) : (g.note w l).fvTx = g.fvTx := rfl
@[simp] theorem note_fvRes (g : Gw) (w : String) (l : List Int) : (g.note w l).fvRes = g.fvRes := rfl
@[simp] theorem note_fvJrnl (g : Gw) (w : String) (l : List Int) : (g.note w l).fvJrnl = g.fvJrnl := rfl
@[simp] theorem note_farLog (g : Gw) (w : String) (l : List Int) : (g.note w l).farLog = g.farLog := rfl
@[simp] theorem note_hostSpi (g : Gw) (w : String) (l : List Int) : (g.note w l).hostSpi = g.hostSpi := rfl
@[simp] theorem note_can (g : Gw) (w : String) (l : List Int) : (g.note w l).can = g.can := rfl
@[simp] theorem note_capFifo (g : Gw) (w : String) (l : List Int) : (g.note w l).capFifo = g.capFifo := rfl
@[simp] theorem note_canStart (g : Gw) (w : String) (l : List Int) : (g.note w l).canStart = g.canStart := rfl
@[simp] theorem note_undefBus (g : Gw) (w : String) (l : List Int) : (g.note w l).undefBus = g.undefBus := rfl
@[simp] theorem note_detected (g : Gw) (w : String) (l : List Int) : (g.note w l).detected = g.detected := rfl
@[simp] theorem note_pairs (g : Gw) (w : String) (l : List Int) : (g.note w l).pairs = g.pairs := rfl
@[simp] theorem note_chn (g : Gw) (w : String) (l : List Int) : (g.note w l).chn = g.chn := rfl
@[simp] theorem note_rmt (g : Gw) (w : String) (l : List Int) : (g.note w l).rmt = g.rmt := rfl
@[simp] theorem note_pdie (g : Gw) (w : String) (l : List Int) : (g.note w l).pdie = g.pdie := rfl
@[simp] theorem note_die (g : Gw) (w : String) (l : List Int) : (g.note w l).die = g.die := rfl
@[simp] theorem note_partN (g : Gw) (w : String) (l : List Int) : (g.note w l).partN = g.partN := rfl
@[simp] theorem note_nm (g : Gw) (w : String) (l : List Int) : (g.note w l).nm = g.nm := rfl
@[simp] theorem note_aon (g : Gw) (w : String) (l : List Int) : (g.note w l).aon = g.aon := rfl
@[simp] theorem note_flt (g : Gw) (w : String) (l : List Int) : (g.note w l).flt = g.flt := rfl
@[simp] theorem note_flash (g : Gw) (w : String) (l : List Int) : (g.note w l).flash = g.flash := rfl
@[simp] theorem note_upd (g : Gw) (w : String) (l : List Int) : (g.note w l).upd = g.upd := rfl
@[simp] theorem note_ho (g : Gw) (w : String) (l : List Int) : (g.note w l).ho = g.ho := rfl
@[simp] theorem note_boot (g : Gw) (w : String) (l : List Int) : (g.note w l).boot = g.boot := rfl
@[simp] theorem note_rxRing (g : Gw) (w : String) (l : List Int) : (g.note w l).rxRing = g.rxRing := rfl
@[simp] theorem note_arc (g : Gw) (w : String) (l : List Int) : (g.note w l).arc = g.arc := rfl
@[simp] theorem note_deferred (g : Gw) (w : String) (l : List Int) : (g.note w l).deferred = g.deferred := rfl
@[simp] theorem note_islRst (g : Gw) (w : String) (l : List Int) : (g.note w l).islRst = g.islRst := rfl
@[simp] theorem note_ospiRun (g : Gw) (w : String) (l : List Int) : (g.note w l).ospiRun = g.ospiRun := rfl
@[simp] theorem note_timers (g : Gw) (w : String) (l : List Int) : (g.note w l).timers = g.timers := rfl

/-! ### noteAt -/

@[simp] theorem noteAt_isl (g : Gw) (w : String) (l : List Int) (t : Stamp) : (g.noteAt w l t).isl = g.isl := rfl
@[simp] theorem noteAt_fw (g : Gw) (w : String) (l : List Int) (t : Stamp) : (g.noteAt w l t).fw = g.fw := rfl
@[simp] theorem noteAt_regs (g : Gw) (w : String) (l : List Int) (t : Stamp) : (g.noteAt w l t).regs = g.regs := rfl
@[simp] theorem noteAt_latches (g : Gw) (w : String) (l : List Int) (t : Stamp) : (g.noteAt w l t).latches = g.latches := rfl
@[simp] theorem noteAt_params (g : Gw) (w : String) (l : List Int) (t : Stamp) : (g.noteAt w l t).params = g.params := rfl
@[simp] theorem noteAt_out (g : Gw) (w : String) (l : List Int) (t : Stamp) : (g.noteAt w l t).out = g.out := rfl
@[simp] theorem noteAt_free (g : Gw) (w : String) (l : List Int) (t : Stamp) : (g.noteAt w l t).free = g.free := rfl
@[simp] theorem noteAt_mbx (g : Gw) (w : String) (l : List Int) (t : Stamp) : (g.noteAt w l t).mbx = g.mbx := rfl
@[simp] theorem noteAt_rung (g : Gw) (w : String) (l : List Int) (t : Stamp) : (g.noteAt w l t).rung = g.rung := rfl
@[simp] theorem noteAt_tb (g : Gw) (w : String) (l : List Int) (t : Stamp) : (g.noteAt w l t).tb = g.tb := rfl
@[simp] theorem noteAt_tevOut (g : Gw) (w : String) (l : List Int) (t : Stamp) : (g.noteAt w l t).tevOut = g.tevOut := rfl
@[simp] theorem noteAt_tevIn (g : Gw) (w : String) (l : List Int) (t : Stamp) : (g.noteAt w l t).tevIn = g.tevIn := rfl
@[simp] theorem noteAt_gptp (g : Gw) (w : String) (l : List Int) (t : Stamp) : (g.noteAt w l t).gptp = g.gptp := rfl
@[simp] theorem noteAt_str (g : Gw) (w : String) (l : List Int) (t : Stamp) : (g.noteAt w l t).str = g.str := rfl
@[simp] theorem noteAt_cal (g : Gw) (w : String) (l : List Int) (t : Stamp) : (g.noteAt w l t).cal = g.cal := rfl
@[simp] theorem noteAt_cat (g : Gw) (w : String) (l : List Int) (t : Stamp) : (g.noteAt w l t).cat = g.cat := rfl
@[simp] theorem noteAt_rtr (g : Gw) (w : String) (l : List Int) (t : Stamp) : (g.noteAt w l t).rtr = g.rtr := rfl
@[simp] theorem noteAt_egr (g : Gw) (w : String) (l : List Int) (t : Stamp) : (g.noteAt w l t).egr = g.egr := rfl
@[simp] theorem noteAt_filters (g : Gw) (w : String) (l : List Int) (t : Stamp) : (g.noteAt w l t).filters = g.filters := rfl
@[simp] theorem noteAt_meters (g : Gw) (w : String) (l : List Int) (t : Stamp) : (g.noteAt w l t).meters = g.meters := rfl
@[simp] theorem noteAt_mirrors (g : Gw) (w : String) (l : List Int) (t : Stamp) : (g.noteAt w l t).mirrors = g.mirrors := rfl
@[simp] theorem noteAt_eth (g : Gw) (w : String) (l : List Int) (t : Stamp) : (g.noteAt w l t).eth = g.eth := rfl
@[simp] theorem noteAt_tis (g : Gw) (w : String) (l : List Int) (t : Stamp) : (g.noteAt w l t).tis = g.tis := rfl
@[simp] theorem noteAt_undefEgress (g : Gw) (w : String) (l : List Int) (t : Stamp) : (g.noteAt w l t).undefEgress = g.undefEgress := rfl
@[simp] theorem noteAt_undefLaunch (g : Gw) (w : String) (l : List Int) (t : Stamp) : (g.noteAt w l t).undefLaunch = g.undefLaunch := rfl
@[simp] theorem noteAt_lin (g : Gw) (w : String) (l : List Int) (t : Stamp) : (g.noteAt w l t).lin = g.lin := rfl
@[simp] theorem noteAt_flx (g : Gw) (w : String) (l : List Int) (t : Stamp) : (g.noteAt w l t).flx = g.flx := rfl
@[simp] theorem noteAt_fvLast (g : Gw) (w : String) (l : List Int) (t : Stamp) : (g.noteAt w l t).fvLast = g.fvLast := rfl
@[simp] theorem noteAt_txRing (g : Gw) (w : String) (l : List Int) (t : Stamp) : (g.noteAt w l t).txRing = g.txRing := rfl
@[simp] theorem noteAt_cryQ (g : Gw) (w : String) (l : List Int) (t : Stamp) : (g.noteAt w l t).cryQ = g.cryQ := rfl
@[simp] theorem noteAt_keys (g : Gw) (w : String) (l : List Int) (t : Stamp) : (g.noteAt w l t).keys = g.keys := rfl
@[simp] theorem noteAt_cryUp (g : Gw) (w : String) (l : List Int) (t : Stamp) : (g.noteAt w l t).cryUp = g.cryUp := rfl
@[simp] theorem noteAt_trngOk (g : Gw) (w : String) (l : List Int) (t : Stamp) : (g.noteAt w l t).trngOk = g.trngOk := rfl
@[simp] theorem noteAt_cryCache (g : Gw) (w : String) (l : List Int) (t : Stamp) : (g.noteAt w l t).cryCache = g.cryCache := rfl
@[simp] theorem noteAt_mka (g : Gw) (w : String) (l : List Int) (t : Stamp) : (g.noteAt w l t).mka = g.mka := rfl
@[simp] theorem noteAt_fvTx (g : Gw) (w : String) (l : List Int) (t : Stamp) : (g.noteAt w l t).fvTx = g.fvTx := rfl
@[simp] theorem noteAt_fvRes (g : Gw) (w : String) (l : List Int) (t : Stamp) : (g.noteAt w l t).fvRes = g.fvRes := rfl
@[simp] theorem noteAt_fvJrnl (g : Gw) (w : String) (l : List Int) (t : Stamp) : (g.noteAt w l t).fvJrnl = g.fvJrnl := rfl
@[simp] theorem noteAt_farLog (g : Gw) (w : String) (l : List Int) (t : Stamp) : (g.noteAt w l t).farLog = g.farLog := rfl
@[simp] theorem noteAt_hostSpi (g : Gw) (w : String) (l : List Int) (t : Stamp) : (g.noteAt w l t).hostSpi = g.hostSpi := rfl
@[simp] theorem noteAt_can (g : Gw) (w : String) (l : List Int) (t : Stamp) : (g.noteAt w l t).can = g.can := rfl
@[simp] theorem noteAt_capFifo (g : Gw) (w : String) (l : List Int) (t : Stamp) : (g.noteAt w l t).capFifo = g.capFifo := rfl
@[simp] theorem noteAt_canStart (g : Gw) (w : String) (l : List Int) (t : Stamp) : (g.noteAt w l t).canStart = g.canStart := rfl
@[simp] theorem noteAt_undefBus (g : Gw) (w : String) (l : List Int) (t : Stamp) : (g.noteAt w l t).undefBus = g.undefBus := rfl
@[simp] theorem noteAt_detected (g : Gw) (w : String) (l : List Int) (t : Stamp) : (g.noteAt w l t).detected = g.detected := rfl
@[simp] theorem noteAt_pairs (g : Gw) (w : String) (l : List Int) (t : Stamp) : (g.noteAt w l t).pairs = g.pairs := rfl
@[simp] theorem noteAt_chn (g : Gw) (w : String) (l : List Int) (t : Stamp) : (g.noteAt w l t).chn = g.chn := rfl
@[simp] theorem noteAt_rmt (g : Gw) (w : String) (l : List Int) (t : Stamp) : (g.noteAt w l t).rmt = g.rmt := rfl
@[simp] theorem noteAt_pdie (g : Gw) (w : String) (l : List Int) (t : Stamp) : (g.noteAt w l t).pdie = g.pdie := rfl
@[simp] theorem noteAt_die (g : Gw) (w : String) (l : List Int) (t : Stamp) : (g.noteAt w l t).die = g.die := rfl
@[simp] theorem noteAt_partN (g : Gw) (w : String) (l : List Int) (t : Stamp) : (g.noteAt w l t).partN = g.partN := rfl
@[simp] theorem noteAt_nm (g : Gw) (w : String) (l : List Int) (t : Stamp) : (g.noteAt w l t).nm = g.nm := rfl
@[simp] theorem noteAt_aon (g : Gw) (w : String) (l : List Int) (t : Stamp) : (g.noteAt w l t).aon = g.aon := rfl
@[simp] theorem noteAt_flt (g : Gw) (w : String) (l : List Int) (t : Stamp) : (g.noteAt w l t).flt = g.flt := rfl
@[simp] theorem noteAt_flash (g : Gw) (w : String) (l : List Int) (t : Stamp) : (g.noteAt w l t).flash = g.flash := rfl
@[simp] theorem noteAt_upd (g : Gw) (w : String) (l : List Int) (t : Stamp) : (g.noteAt w l t).upd = g.upd := rfl
@[simp] theorem noteAt_ho (g : Gw) (w : String) (l : List Int) (t : Stamp) : (g.noteAt w l t).ho = g.ho := rfl
@[simp] theorem noteAt_boot (g : Gw) (w : String) (l : List Int) (t : Stamp) : (g.noteAt w l t).boot = g.boot := rfl
@[simp] theorem noteAt_rxRing (g : Gw) (w : String) (l : List Int) (t : Stamp) : (g.noteAt w l t).rxRing = g.rxRing := rfl
@[simp] theorem noteAt_arc (g : Gw) (w : String) (l : List Int) (t : Stamp) : (g.noteAt w l t).arc = g.arc := rfl
@[simp] theorem noteAt_deferred (g : Gw) (w : String) (l : List Int) (t : Stamp) : (g.noteAt w l t).deferred = g.deferred := rfl
@[simp] theorem noteAt_islRst (g : Gw) (w : String) (l : List Int) (t : Stamp) : (g.noteAt w l t).islRst = g.islRst := rfl
@[simp] theorem noteAt_ospiRun (g : Gw) (w : String) (l : List Int) (t : Stamp) : (g.noteAt w l t).ospiRun = g.ospiRun := rfl
@[simp] theorem noteAt_timers (g : Gw) (w : String) (l : List Int) (t : Stamp) : (g.noteAt w l t).timers = g.timers := rfl

/-! ### setIsl -/

@[simp] theorem setIsl_fw (g : Gw) (i c : Nat) : (g.setIsl i c).fw = g.fw := rfl
@[simp] theorem setIsl_regs (g : Gw) (i c : Nat) : (g.setIsl i c).regs = g.regs := rfl
@[simp] theorem setIsl_latches (g : Gw) (i c : Nat) : (g.setIsl i c).latches = g.latches := rfl
@[simp] theorem setIsl_params (g : Gw) (i c : Nat) : (g.setIsl i c).params = g.params := rfl
@[simp] theorem setIsl_out (g : Gw) (i c : Nat) : (g.setIsl i c).out = g.out := rfl
@[simp] theorem setIsl_log (g : Gw) (i c : Nat) : (g.setIsl i c).log = g.log := rfl
@[simp] theorem setIsl_free (g : Gw) (i c : Nat) : (g.setIsl i c).free = g.free := rfl
@[simp] theorem setIsl_mbx (g : Gw) (i c : Nat) : (g.setIsl i c).mbx = g.mbx := rfl
@[simp] theorem setIsl_rung (g : Gw) (i c : Nat) : (g.setIsl i c).rung = g.rung := rfl
@[simp] theorem setIsl_tb (g : Gw) (i c : Nat) : (g.setIsl i c).tb = g.tb := rfl
@[simp] theorem setIsl_tevOut (g : Gw) (i c : Nat) : (g.setIsl i c).tevOut = g.tevOut := rfl
@[simp] theorem setIsl_tevIn (g : Gw) (i c : Nat) : (g.setIsl i c).tevIn = g.tevIn := rfl
@[simp] theorem setIsl_gptp (g : Gw) (i c : Nat) : (g.setIsl i c).gptp = g.gptp := rfl
@[simp] theorem setIsl_str (g : Gw) (i c : Nat) : (g.setIsl i c).str = g.str := rfl
@[simp] theorem setIsl_cal (g : Gw) (i c : Nat) : (g.setIsl i c).cal = g.cal := rfl
@[simp] theorem setIsl_cat (g : Gw) (i c : Nat) : (g.setIsl i c).cat = g.cat := rfl
@[simp] theorem setIsl_rtr (g : Gw) (i c : Nat) : (g.setIsl i c).rtr = g.rtr := rfl
@[simp] theorem setIsl_egr (g : Gw) (i c : Nat) : (g.setIsl i c).egr = g.egr := rfl
@[simp] theorem setIsl_filters (g : Gw) (i c : Nat) : (g.setIsl i c).filters = g.filters := rfl
@[simp] theorem setIsl_meters (g : Gw) (i c : Nat) : (g.setIsl i c).meters = g.meters := rfl
@[simp] theorem setIsl_mirrors (g : Gw) (i c : Nat) : (g.setIsl i c).mirrors = g.mirrors := rfl
@[simp] theorem setIsl_eth (g : Gw) (i c : Nat) : (g.setIsl i c).eth = g.eth := rfl
@[simp] theorem setIsl_tis (g : Gw) (i c : Nat) : (g.setIsl i c).tis = g.tis := rfl
@[simp] theorem setIsl_undefEgress (g : Gw) (i c : Nat) : (g.setIsl i c).undefEgress = g.undefEgress := rfl
@[simp] theorem setIsl_undefLaunch (g : Gw) (i c : Nat) : (g.setIsl i c).undefLaunch = g.undefLaunch := rfl
@[simp] theorem setIsl_lin (g : Gw) (i c : Nat) : (g.setIsl i c).lin = g.lin := rfl
@[simp] theorem setIsl_flx (g : Gw) (i c : Nat) : (g.setIsl i c).flx = g.flx := rfl
@[simp] theorem setIsl_fvLast (g : Gw) (i c : Nat) : (g.setIsl i c).fvLast = g.fvLast := rfl
@[simp] theorem setIsl_txRing (g : Gw) (i c : Nat) : (g.setIsl i c).txRing = g.txRing := rfl
@[simp] theorem setIsl_cryQ (g : Gw) (i c : Nat) : (g.setIsl i c).cryQ = g.cryQ := rfl
@[simp] theorem setIsl_keys (g : Gw) (i c : Nat) : (g.setIsl i c).keys = g.keys := rfl
@[simp] theorem setIsl_cryUp (g : Gw) (i c : Nat) : (g.setIsl i c).cryUp = g.cryUp := rfl
@[simp] theorem setIsl_trngOk (g : Gw) (i c : Nat) : (g.setIsl i c).trngOk = g.trngOk := rfl
@[simp] theorem setIsl_cryCache (g : Gw) (i c : Nat) : (g.setIsl i c).cryCache = g.cryCache := rfl
@[simp] theorem setIsl_mka (g : Gw) (i c : Nat) : (g.setIsl i c).mka = g.mka := rfl
@[simp] theorem setIsl_fvTx (g : Gw) (i c : Nat) : (g.setIsl i c).fvTx = g.fvTx := rfl
@[simp] theorem setIsl_fvRes (g : Gw) (i c : Nat) : (g.setIsl i c).fvRes = g.fvRes := rfl
@[simp] theorem setIsl_fvJrnl (g : Gw) (i c : Nat) : (g.setIsl i c).fvJrnl = g.fvJrnl := rfl
@[simp] theorem setIsl_farLog (g : Gw) (i c : Nat) : (g.setIsl i c).farLog = g.farLog := rfl
@[simp] theorem setIsl_hostSpi (g : Gw) (i c : Nat) : (g.setIsl i c).hostSpi = g.hostSpi := rfl
@[simp] theorem setIsl_can (g : Gw) (i c : Nat) : (g.setIsl i c).can = g.can := rfl
@[simp] theorem setIsl_capFifo (g : Gw) (i c : Nat) : (g.setIsl i c).capFifo = g.capFifo := rfl
@[simp] theorem setIsl_canStart (g : Gw) (i c : Nat) : (g.setIsl i c).canStart = g.canStart := rfl
@[simp] theorem setIsl_undefBus (g : Gw) (i c : Nat) : (g.setIsl i c).undefBus = g.undefBus := rfl
@[simp] theorem setIsl_detected (g : Gw) (i c : Nat) : (g.setIsl i c).detected = g.detected := rfl
@[simp] theorem setIsl_pairs (g : Gw) (i c : Nat) : (g.setIsl i c).pairs = g.pairs := rfl
@[simp] theorem setIsl_chn (g : Gw) (i c : Nat) : (g.setIsl i c).chn = g.chn := rfl
@[simp] theorem setIsl_rmt (g : Gw) (i c : Nat) : (g.setIsl i c).rmt = g.rmt := rfl
@[simp] theorem setIsl_pdie (g : Gw) (i c : Nat) : (g.setIsl i c).pdie = g.pdie := rfl
@[simp] theorem setIsl_die (g : Gw) (i c : Nat) : (g.setIsl i c).die = g.die := rfl
@[simp] theorem setIsl_partN (g : Gw) (i c : Nat) : (g.setIsl i c).partN = g.partN := rfl
@[simp] theorem setIsl_nm (g : Gw) (i c : Nat) : (g.setIsl i c).nm = g.nm := rfl
@[simp] theorem setIsl_aon (g : Gw) (i c : Nat) : (g.setIsl i c).aon = g.aon := rfl
@[simp] theorem setIsl_flt (g : Gw) (i c : Nat) : (g.setIsl i c).flt = g.flt := rfl
@[simp] theorem setIsl_flash (g : Gw) (i c : Nat) : (g.setIsl i c).flash = g.flash := rfl
@[simp] theorem setIsl_upd (g : Gw) (i c : Nat) : (g.setIsl i c).upd = g.upd := rfl
@[simp] theorem setIsl_ho (g : Gw) (i c : Nat) : (g.setIsl i c).ho = g.ho := rfl
@[simp] theorem setIsl_boot (g : Gw) (i c : Nat) : (g.setIsl i c).boot = g.boot := rfl
@[simp] theorem setIsl_rxRing (g : Gw) (i c : Nat) : (g.setIsl i c).rxRing = g.rxRing := rfl
@[simp] theorem setIsl_arc (g : Gw) (i c : Nat) : (g.setIsl i c).arc = g.arc := rfl
@[simp] theorem setIsl_deferred (g : Gw) (i c : Nat) : (g.setIsl i c).deferred = g.deferred := rfl
@[simp] theorem setIsl_islRst (g : Gw) (i c : Nat) : (g.setIsl i c).islRst = g.islRst := rfl
@[simp] theorem setIsl_ospiRun (g : Gw) (i c : Nat) : (g.setIsl i c).ospiRun = g.ospiRun := rfl
@[simp] theorem setIsl_timers (g : Gw) (i c : Nat) : (g.setIsl i c).timers = g.timers := rfl

/-! ### setMbx -/

@[simp] theorem setMbx_isl (g : Gw) (m : Nat) (x : Mbx) : (g.setMbx m x).isl = g.isl := rfl
@[simp] theorem setMbx_fw (g : Gw) (m : Nat) (x : Mbx) : (g.setMbx m x).fw = g.fw := rfl
@[simp] theorem setMbx_regs (g : Gw) (m : Nat) (x : Mbx) : (g.setMbx m x).regs = g.regs := rfl
@[simp] theorem setMbx_latches (g : Gw) (m : Nat) (x : Mbx) : (g.setMbx m x).latches = g.latches := rfl
@[simp] theorem setMbx_params (g : Gw) (m : Nat) (x : Mbx) : (g.setMbx m x).params = g.params := rfl
@[simp] theorem setMbx_out (g : Gw) (m : Nat) (x : Mbx) : (g.setMbx m x).out = g.out := rfl
@[simp] theorem setMbx_log (g : Gw) (m : Nat) (x : Mbx) : (g.setMbx m x).log = g.log := rfl
@[simp] theorem setMbx_free (g : Gw) (m : Nat) (x : Mbx) : (g.setMbx m x).free = g.free := rfl
@[simp] theorem setMbx_rung (g : Gw) (m : Nat) (x : Mbx) : (g.setMbx m x).rung = g.rung := rfl
@[simp] theorem setMbx_tb (g : Gw) (m : Nat) (x : Mbx) : (g.setMbx m x).tb = g.tb := rfl
@[simp] theorem setMbx_tevOut (g : Gw) (m : Nat) (x : Mbx) : (g.setMbx m x).tevOut = g.tevOut := rfl
@[simp] theorem setMbx_tevIn (g : Gw) (m : Nat) (x : Mbx) : (g.setMbx m x).tevIn = g.tevIn := rfl
@[simp] theorem setMbx_gptp (g : Gw) (m : Nat) (x : Mbx) : (g.setMbx m x).gptp = g.gptp := rfl
@[simp] theorem setMbx_str (g : Gw) (m : Nat) (x : Mbx) : (g.setMbx m x).str = g.str := rfl
@[simp] theorem setMbx_cal (g : Gw) (m : Nat) (x : Mbx) : (g.setMbx m x).cal = g.cal := rfl
@[simp] theorem setMbx_cat (g : Gw) (m : Nat) (x : Mbx) : (g.setMbx m x).cat = g.cat := rfl
@[simp] theorem setMbx_rtr (g : Gw) (m : Nat) (x : Mbx) : (g.setMbx m x).rtr = g.rtr := rfl
@[simp] theorem setMbx_egr (g : Gw) (m : Nat) (x : Mbx) : (g.setMbx m x).egr = g.egr := rfl
@[simp] theorem setMbx_filters (g : Gw) (m : Nat) (x : Mbx) : (g.setMbx m x).filters = g.filters := rfl
@[simp] theorem setMbx_meters (g : Gw) (m : Nat) (x : Mbx) : (g.setMbx m x).meters = g.meters := rfl
@[simp] theorem setMbx_mirrors (g : Gw) (m : Nat) (x : Mbx) : (g.setMbx m x).mirrors = g.mirrors := rfl
@[simp] theorem setMbx_eth (g : Gw) (m : Nat) (x : Mbx) : (g.setMbx m x).eth = g.eth := rfl
@[simp] theorem setMbx_tis (g : Gw) (m : Nat) (x : Mbx) : (g.setMbx m x).tis = g.tis := rfl
@[simp] theorem setMbx_undefEgress (g : Gw) (m : Nat) (x : Mbx) : (g.setMbx m x).undefEgress = g.undefEgress := rfl
@[simp] theorem setMbx_undefLaunch (g : Gw) (m : Nat) (x : Mbx) : (g.setMbx m x).undefLaunch = g.undefLaunch := rfl
@[simp] theorem setMbx_lin (g : Gw) (m : Nat) (x : Mbx) : (g.setMbx m x).lin = g.lin := rfl
@[simp] theorem setMbx_flx (g : Gw) (m : Nat) (x : Mbx) : (g.setMbx m x).flx = g.flx := rfl
@[simp] theorem setMbx_fvLast (g : Gw) (m : Nat) (x : Mbx) : (g.setMbx m x).fvLast = g.fvLast := rfl
@[simp] theorem setMbx_txRing (g : Gw) (m : Nat) (x : Mbx) : (g.setMbx m x).txRing = g.txRing := rfl
@[simp] theorem setMbx_cryQ (g : Gw) (m : Nat) (x : Mbx) : (g.setMbx m x).cryQ = g.cryQ := rfl
@[simp] theorem setMbx_keys (g : Gw) (m : Nat) (x : Mbx) : (g.setMbx m x).keys = g.keys := rfl
@[simp] theorem setMbx_cryUp (g : Gw) (m : Nat) (x : Mbx) : (g.setMbx m x).cryUp = g.cryUp := rfl
@[simp] theorem setMbx_trngOk (g : Gw) (m : Nat) (x : Mbx) : (g.setMbx m x).trngOk = g.trngOk := rfl
@[simp] theorem setMbx_cryCache (g : Gw) (m : Nat) (x : Mbx) : (g.setMbx m x).cryCache = g.cryCache := rfl
@[simp] theorem setMbx_mka (g : Gw) (m : Nat) (x : Mbx) : (g.setMbx m x).mka = g.mka := rfl
@[simp] theorem setMbx_fvTx (g : Gw) (m : Nat) (x : Mbx) : (g.setMbx m x).fvTx = g.fvTx := rfl
@[simp] theorem setMbx_fvRes (g : Gw) (m : Nat) (x : Mbx) : (g.setMbx m x).fvRes = g.fvRes := rfl
@[simp] theorem setMbx_fvJrnl (g : Gw) (m : Nat) (x : Mbx) : (g.setMbx m x).fvJrnl = g.fvJrnl := rfl
@[simp] theorem setMbx_farLog (g : Gw) (m : Nat) (x : Mbx) : (g.setMbx m x).farLog = g.farLog := rfl
@[simp] theorem setMbx_hostSpi (g : Gw) (m : Nat) (x : Mbx) : (g.setMbx m x).hostSpi = g.hostSpi := rfl
@[simp] theorem setMbx_can (g : Gw) (m : Nat) (x : Mbx) : (g.setMbx m x).can = g.can := rfl
@[simp] theorem setMbx_capFifo (g : Gw) (m : Nat) (x : Mbx) : (g.setMbx m x).capFifo = g.capFifo := rfl
@[simp] theorem setMbx_canStart (g : Gw) (m : Nat) (x : Mbx) : (g.setMbx m x).canStart = g.canStart := rfl
@[simp] theorem setMbx_undefBus (g : Gw) (m : Nat) (x : Mbx) : (g.setMbx m x).undefBus = g.undefBus := rfl
@[simp] theorem setMbx_detected (g : Gw) (m : Nat) (x : Mbx) : (g.setMbx m x).detected = g.detected := rfl
@[simp] theorem setMbx_pairs (g : Gw) (m : Nat) (x : Mbx) : (g.setMbx m x).pairs = g.pairs := rfl
@[simp] theorem setMbx_chn (g : Gw) (m : Nat) (x : Mbx) : (g.setMbx m x).chn = g.chn := rfl
@[simp] theorem setMbx_rmt (g : Gw) (m : Nat) (x : Mbx) : (g.setMbx m x).rmt = g.rmt := rfl
@[simp] theorem setMbx_pdie (g : Gw) (m : Nat) (x : Mbx) : (g.setMbx m x).pdie = g.pdie := rfl
@[simp] theorem setMbx_die (g : Gw) (m : Nat) (x : Mbx) : (g.setMbx m x).die = g.die := rfl
@[simp] theorem setMbx_partN (g : Gw) (m : Nat) (x : Mbx) : (g.setMbx m x).partN = g.partN := rfl
@[simp] theorem setMbx_nm (g : Gw) (m : Nat) (x : Mbx) : (g.setMbx m x).nm = g.nm := rfl
@[simp] theorem setMbx_aon (g : Gw) (m : Nat) (x : Mbx) : (g.setMbx m x).aon = g.aon := rfl
@[simp] theorem setMbx_flt (g : Gw) (m : Nat) (x : Mbx) : (g.setMbx m x).flt = g.flt := rfl
@[simp] theorem setMbx_flash (g : Gw) (m : Nat) (x : Mbx) : (g.setMbx m x).flash = g.flash := rfl
@[simp] theorem setMbx_upd (g : Gw) (m : Nat) (x : Mbx) : (g.setMbx m x).upd = g.upd := rfl
@[simp] theorem setMbx_ho (g : Gw) (m : Nat) (x : Mbx) : (g.setMbx m x).ho = g.ho := rfl
@[simp] theorem setMbx_boot (g : Gw) (m : Nat) (x : Mbx) : (g.setMbx m x).boot = g.boot := rfl
@[simp] theorem setMbx_rxRing (g : Gw) (m : Nat) (x : Mbx) : (g.setMbx m x).rxRing = g.rxRing := rfl
@[simp] theorem setMbx_arc (g : Gw) (m : Nat) (x : Mbx) : (g.setMbx m x).arc = g.arc := rfl
@[simp] theorem setMbx_deferred (g : Gw) (m : Nat) (x : Mbx) : (g.setMbx m x).deferred = g.deferred := rfl
@[simp] theorem setMbx_islRst (g : Gw) (m : Nat) (x : Mbx) : (g.setMbx m x).islRst = g.islRst := rfl
@[simp] theorem setMbx_ospiRun (g : Gw) (m : Nat) (x : Mbx) : (g.setMbx m x).ospiRun = g.ospiRun := rfl
@[simp] theorem setMbx_timers (g : Gw) (m : Nat) (x : Mbx) : (g.setMbx m x).timers = g.timers := rfl

/-! ### bump -/

@[simp] theorem bump_isl (g : Gw) (o : Nat) : (g.bump o).isl = g.isl := rfl
@[simp] theorem bump_fw (g : Gw) (o : Nat) : (g.bump o).fw = g.fw := rfl
@[simp] theorem bump_latches (g : Gw) (o : Nat) : (g.bump o).latches = g.latches := rfl
@[simp] theorem bump_params (g : Gw) (o : Nat) : (g.bump o).params = g.params := rfl
@[simp] theorem bump_out (g : Gw) (o : Nat) : (g.bump o).out = g.out := rfl
@[simp] theorem bump_log (g : Gw) (o : Nat) : (g.bump o).log = g.log := rfl
@[simp] theorem bump_free (g : Gw) (o : Nat) : (g.bump o).free = g.free := rfl
@[simp] theorem bump_mbx (g : Gw) (o : Nat) : (g.bump o).mbx = g.mbx := rfl
@[simp] theorem bump_rung (g : Gw) (o : Nat) : (g.bump o).rung = g.rung := rfl
@[simp] theorem bump_tb (g : Gw) (o : Nat) : (g.bump o).tb = g.tb := rfl
@[simp] theorem bump_tevOut (g : Gw) (o : Nat) : (g.bump o).tevOut = g.tevOut := rfl
@[simp] theorem bump_tevIn (g : Gw) (o : Nat) : (g.bump o).tevIn = g.tevIn := rfl
@[simp] theorem bump_gptp (g : Gw) (o : Nat) : (g.bump o).gptp = g.gptp := rfl
@[simp] theorem bump_str (g : Gw) (o : Nat) : (g.bump o).str = g.str := rfl
@[simp] theorem bump_cal (g : Gw) (o : Nat) : (g.bump o).cal = g.cal := rfl
@[simp] theorem bump_cat (g : Gw) (o : Nat) : (g.bump o).cat = g.cat := rfl
@[simp] theorem bump_rtr (g : Gw) (o : Nat) : (g.bump o).rtr = g.rtr := rfl
@[simp] theorem bump_egr (g : Gw) (o : Nat) : (g.bump o).egr = g.egr := rfl
@[simp] theorem bump_filters (g : Gw) (o : Nat) : (g.bump o).filters = g.filters := rfl
@[simp] theorem bump_meters (g : Gw) (o : Nat) : (g.bump o).meters = g.meters := rfl
@[simp] theorem bump_mirrors (g : Gw) (o : Nat) : (g.bump o).mirrors = g.mirrors := rfl
@[simp] theorem bump_eth (g : Gw) (o : Nat) : (g.bump o).eth = g.eth := rfl
@[simp] theorem bump_tis (g : Gw) (o : Nat) : (g.bump o).tis = g.tis := rfl
@[simp] theorem bump_undefEgress (g : Gw) (o : Nat) : (g.bump o).undefEgress = g.undefEgress := rfl
@[simp] theorem bump_undefLaunch (g : Gw) (o : Nat) : (g.bump o).undefLaunch = g.undefLaunch := rfl
@[simp] theorem bump_lin (g : Gw) (o : Nat) : (g.bump o).lin = g.lin := rfl
@[simp] theorem bump_flx (g : Gw) (o : Nat) : (g.bump o).flx = g.flx := rfl
@[simp] theorem bump_fvLast (g : Gw) (o : Nat) : (g.bump o).fvLast = g.fvLast := rfl
@[simp] theorem bump_txRing (g : Gw) (o : Nat) : (g.bump o).txRing = g.txRing := rfl
@[simp] theorem bump_cryQ (g : Gw) (o : Nat) : (g.bump o).cryQ = g.cryQ := rfl
@[simp] theorem bump_keys (g : Gw) (o : Nat) : (g.bump o).keys = g.keys := rfl
@[simp] theorem bump_cryUp (g : Gw) (o : Nat) : (g.bump o).cryUp = g.cryUp := rfl
@[simp] theorem bump_trngOk (g : Gw) (o : Nat) : (g.bump o).trngOk = g.trngOk := rfl
@[simp] theorem bump_cryCache (g : Gw) (o : Nat) : (g.bump o).cryCache = g.cryCache := rfl
@[simp] theorem bump_mka (g : Gw) (o : Nat) : (g.bump o).mka = g.mka := rfl
@[simp] theorem bump_fvTx (g : Gw) (o : Nat) : (g.bump o).fvTx = g.fvTx := rfl
@[simp] theorem bump_fvRes (g : Gw) (o : Nat) : (g.bump o).fvRes = g.fvRes := rfl
@[simp] theorem bump_fvJrnl (g : Gw) (o : Nat) : (g.bump o).fvJrnl = g.fvJrnl := rfl
@[simp] theorem bump_farLog (g : Gw) (o : Nat) : (g.bump o).farLog = g.farLog := rfl
@[simp] theorem bump_hostSpi (g : Gw) (o : Nat) : (g.bump o).hostSpi = g.hostSpi := rfl
@[simp] theorem bump_can (g : Gw) (o : Nat) : (g.bump o).can = g.can := rfl
@[simp] theorem bump_capFifo (g : Gw) (o : Nat) : (g.bump o).capFifo = g.capFifo := rfl
@[simp] theorem bump_canStart (g : Gw) (o : Nat) : (g.bump o).canStart = g.canStart := rfl
@[simp] theorem bump_undefBus (g : Gw) (o : Nat) : (g.bump o).undefBus = g.undefBus := rfl
@[simp] theorem bump_detected (g : Gw) (o : Nat) : (g.bump o).detected = g.detected := rfl
@[simp] theorem bump_pairs (g : Gw) (o : Nat) : (g.bump o).pairs = g.pairs := rfl
@[simp] theorem bump_chn (g : Gw) (o : Nat) : (g.bump o).chn = g.chn := rfl
@[simp] theorem bump_rmt (g : Gw) (o : Nat) : (g.bump o).rmt = g.rmt := rfl
@[simp] theorem bump_pdie (g : Gw) (o : Nat) : (g.bump o).pdie = g.pdie := rfl
@[simp] theorem bump_die (g : Gw) (o : Nat) : (g.bump o).die = g.die := rfl
@[simp] theorem bump_partN (g : Gw) (o : Nat) : (g.bump o).partN = g.partN := rfl
@[simp] theorem bump_nm (g : Gw) (o : Nat) : (g.bump o).nm = g.nm := rfl
@[simp] theorem bump_aon (g : Gw) (o : Nat) : (g.bump o).aon = g.aon := rfl
@[simp] theorem bump_flt (g : Gw) (o : Nat) : (g.bump o).flt = g.flt := rfl
@[simp] theorem bump_flash (g : Gw) (o : Nat) : (g.bump o).flash = g.flash := rfl
@[simp] theorem bump_upd (g : Gw) (o : Nat) : (g.bump o).upd = g.upd := rfl
@[simp] theorem bump_ho (g : Gw) (o : Nat) : (g.bump o).ho = g.ho := rfl
@[simp] theorem bump_boot (g : Gw) (o : Nat) : (g.bump o).boot = g.boot := rfl
@[simp] theorem bump_rxRing (g : Gw) (o : Nat) : (g.bump o).rxRing = g.rxRing := rfl
@[simp] theorem bump_arc (g : Gw) (o : Nat) : (g.bump o).arc = g.arc := rfl
@[simp] theorem bump_deferred (g : Gw) (o : Nat) : (g.bump o).deferred = g.deferred := rfl
@[simp] theorem bump_islRst (g : Gw) (o : Nat) : (g.bump o).islRst = g.islRst := rfl
@[simp] theorem bump_ospiRun (g : Gw) (o : Nat) : (g.bump o).ospiRun = g.ospiRun := rfl
@[simp] theorem bump_timers (g : Gw) (o : Nat) : (g.bump o).timers = g.timers := rfl

/-! ### flag -/

@[simp] theorem flag_isl (g : Gw) (o k : Nat) : (g.flag o k).isl = g.isl := rfl
@[simp] theorem flag_fw (g : Gw) (o k : Nat) : (g.flag o k).fw = g.fw := rfl
@[simp] theorem flag_latches (g : Gw) (o k : Nat) : (g.flag o k).latches = g.latches := rfl
@[simp] theorem flag_params (g : Gw) (o k : Nat) : (g.flag o k).params = g.params := rfl
@[simp] theorem flag_out (g : Gw) (o k : Nat) : (g.flag o k).out = g.out := rfl
@[simp] theorem flag_log (g : Gw) (o k : Nat) : (g.flag o k).log = g.log := rfl
@[simp] theorem flag_free (g : Gw) (o k : Nat) : (g.flag o k).free = g.free := rfl
@[simp] theorem flag_mbx (g : Gw) (o k : Nat) : (g.flag o k).mbx = g.mbx := rfl
@[simp] theorem flag_rung (g : Gw) (o k : Nat) : (g.flag o k).rung = g.rung := rfl
@[simp] theorem flag_tb (g : Gw) (o k : Nat) : (g.flag o k).tb = g.tb := rfl
@[simp] theorem flag_tevOut (g : Gw) (o k : Nat) : (g.flag o k).tevOut = g.tevOut := rfl
@[simp] theorem flag_tevIn (g : Gw) (o k : Nat) : (g.flag o k).tevIn = g.tevIn := rfl
@[simp] theorem flag_gptp (g : Gw) (o k : Nat) : (g.flag o k).gptp = g.gptp := rfl
@[simp] theorem flag_str (g : Gw) (o k : Nat) : (g.flag o k).str = g.str := rfl
@[simp] theorem flag_cal (g : Gw) (o k : Nat) : (g.flag o k).cal = g.cal := rfl
@[simp] theorem flag_cat (g : Gw) (o k : Nat) : (g.flag o k).cat = g.cat := rfl
@[simp] theorem flag_rtr (g : Gw) (o k : Nat) : (g.flag o k).rtr = g.rtr := rfl
@[simp] theorem flag_egr (g : Gw) (o k : Nat) : (g.flag o k).egr = g.egr := rfl
@[simp] theorem flag_filters (g : Gw) (o k : Nat) : (g.flag o k).filters = g.filters := rfl
@[simp] theorem flag_meters (g : Gw) (o k : Nat) : (g.flag o k).meters = g.meters := rfl
@[simp] theorem flag_mirrors (g : Gw) (o k : Nat) : (g.flag o k).mirrors = g.mirrors := rfl
@[simp] theorem flag_eth (g : Gw) (o k : Nat) : (g.flag o k).eth = g.eth := rfl
@[simp] theorem flag_tis (g : Gw) (o k : Nat) : (g.flag o k).tis = g.tis := rfl
@[simp] theorem flag_undefEgress (g : Gw) (o k : Nat) : (g.flag o k).undefEgress = g.undefEgress := rfl
@[simp] theorem flag_undefLaunch (g : Gw) (o k : Nat) : (g.flag o k).undefLaunch = g.undefLaunch := rfl
@[simp] theorem flag_lin (g : Gw) (o k : Nat) : (g.flag o k).lin = g.lin := rfl
@[simp] theorem flag_flx (g : Gw) (o k : Nat) : (g.flag o k).flx = g.flx := rfl
@[simp] theorem flag_fvLast (g : Gw) (o k : Nat) : (g.flag o k).fvLast = g.fvLast := rfl
@[simp] theorem flag_txRing (g : Gw) (o k : Nat) : (g.flag o k).txRing = g.txRing := rfl
@[simp] theorem flag_cryQ (g : Gw) (o k : Nat) : (g.flag o k).cryQ = g.cryQ := rfl
@[simp] theorem flag_keys (g : Gw) (o k : Nat) : (g.flag o k).keys = g.keys := rfl
@[simp] theorem flag_cryUp (g : Gw) (o k : Nat) : (g.flag o k).cryUp = g.cryUp := rfl
@[simp] theorem flag_trngOk (g : Gw) (o k : Nat) : (g.flag o k).trngOk = g.trngOk := rfl
@[simp] theorem flag_cryCache (g : Gw) (o k : Nat) : (g.flag o k).cryCache = g.cryCache := rfl
@[simp] theorem flag_mka (g : Gw) (o k : Nat) : (g.flag o k).mka = g.mka := rfl
@[simp] theorem flag_fvTx (g : Gw) (o k : Nat) : (g.flag o k).fvTx = g.fvTx := rfl
@[simp] theorem flag_fvRes (g : Gw) (o k : Nat) : (g.flag o k).fvRes = g.fvRes := rfl
@[simp] theorem flag_fvJrnl (g : Gw) (o k : Nat) : (g.flag o k).fvJrnl = g.fvJrnl := rfl
@[simp] theorem flag_farLog (g : Gw) (o k : Nat) : (g.flag o k).farLog = g.farLog := rfl
@[simp] theorem flag_hostSpi (g : Gw) (o k : Nat) : (g.flag o k).hostSpi = g.hostSpi := rfl
@[simp] theorem flag_can (g : Gw) (o k : Nat) : (g.flag o k).can = g.can := rfl
@[simp] theorem flag_capFifo (g : Gw) (o k : Nat) : (g.flag o k).capFifo = g.capFifo := rfl
@[simp] theorem flag_canStart (g : Gw) (o k : Nat) : (g.flag o k).canStart = g.canStart := rfl
@[simp] theorem flag_undefBus (g : Gw) (o k : Nat) : (g.flag o k).undefBus = g.undefBus := rfl
@[simp] theorem flag_detected (g : Gw) (o k : Nat) : (g.flag o k).detected = g.detected := rfl
@[simp] theorem flag_pairs (g : Gw) (o k : Nat) : (g.flag o k).pairs = g.pairs := rfl
@[simp] theorem flag_chn (g : Gw) (o k : Nat) : (g.flag o k).chn = g.chn := rfl
@[simp] theorem flag_rmt (g : Gw) (o k : Nat) : (g.flag o k).rmt = g.rmt := rfl
@[simp] theorem flag_pdie (g : Gw) (o k : Nat) : (g.flag o k).pdie = g.pdie := rfl
@[simp] theorem flag_die (g : Gw) (o k : Nat) : (g.flag o k).die = g.die := rfl
@[simp] theorem flag_partN (g : Gw) (o k : Nat) : (g.flag o k).partN = g.partN := rfl
@[simp] theorem flag_nm (g : Gw) (o k : Nat) : (g.flag o k).nm = g.nm := rfl
@[simp] theorem flag_aon (g : Gw) (o k : Nat) : (g.flag o k).aon = g.aon := rfl
@[simp] theorem flag_flt (g : Gw) (o k : Nat) : (g.flag o k).flt = g.flt := rfl
@[simp] theorem flag_flash (g : Gw) (o k : Nat) : (g.flag o k).flash = g.flash := rfl
@[simp] theorem flag_upd (g : Gw) (o k : Nat) : (g.flag o k).upd = g.upd := rfl
@[simp] theorem flag_ho (g : Gw) (o k : Nat) : (g.flag o k).ho = g.ho := rfl
@[simp] theorem flag_boot (g : Gw) (o k : Nat) : (g.flag o k).boot = g.boot := rfl
@[simp] theorem flag_rxRing (g : Gw) (o k : Nat) : (g.flag o k).rxRing = g.rxRing := rfl
@[simp] theorem flag_arc (g : Gw) (o k : Nat) : (g.flag o k).arc = g.arc := rfl
@[simp] theorem flag_deferred (g : Gw) (o k : Nat) : (g.flag o k).deferred = g.deferred := rfl
@[simp] theorem flag_islRst (g : Gw) (o k : Nat) : (g.flag o k).islRst = g.islRst := rfl
@[simp] theorem flag_ospiRun (g : Gw) (o k : Nat) : (g.flag o k).ospiRun = g.ospiRun := rfl
@[simp] theorem flag_timers (g : Gw) (o k : Nat) : (g.flag o k).timers = g.timers := rfl

/-! ### The state after an answer -/

@[simp] theorem after_dram (s : State) (g : Gw) : (s.after g).dram = s.dram := rfl
@[simp] theorem after_pending (s : State) (g : Gw) : (s.after g).pending = s.pending := rfl
@[simp] theorem after_gw (s : State) (g : Gw) : (s.after g).gw = s.gw.interrupts g := rfl
@[simp] theorem withGw_gw (s : State) (g : Gw) : (s.withGw g).gw = g := rfl
@[simp] theorem withGw_dram (s : State) (g : Gw) : (s.withGw g).dram = s.dram := rfl
@[simp] theorem withGw_pending (s : State) (g : Gw) : (s.withGw g).pending = s.pending := rfl
@[simp] theorem onGw_gw (f : Gw → Gw) (s : State) : (onGw f s).gw = f s.gw := rfl
@[simp] theorem onGw_dram (f : Gw → Gw) (s : State) : (onGw f s).dram = s.dram := rfl
@[simp] theorem onGw_pending (f : Gw → Gw) (s : State) : (onGw f s).pending = s.pending := rfl

/-- A command whose whole effect is on the module. -/
theorem answer_onGw (f : Gw → Gw) (s : State) : answer (onGw f) s = .next (s.after (f s.gw)) := rfl

/-- A command that changes nothing leaves the state itself. -/
theorem interrupts_self (g : Gw) : g.interrupts g = g := by
  unfold Gw.interrupts
  have : g.pendingVectors.filter (fun v => !g.pendingVectors.contains v) = [] := by
    rw [List.filter_eq_nil_iff]; intro v hv; simp [hv]
  simp only [this, List.foldl_nil, if_true]

@[simp] theorem after_self (s : State) : s.after s.gw = s := by
  unfold State.after; rw [interrupts_self]

theorem mbxAt_setMbx (g : Gw) (m k : Nat) (x : Mbx) : (g.setMbx m x).mbxAt k = if k = m then x else g.mbxAt k := by
  unfold Gw.mbxAt Gw.setMbx
  exact mgetD_mput _ _ _ _ _

theorem islOn_setIsl (g : Gw) (i k c : Nat) : (g.setIsl i c).islOn k = if k = i then decide (c = 1) else g.islOn k := by
  unfold Gw.islOn Gw.setIsl
  rw [mgetD_mput]
  split <;> rfl

end Sys2Proof.Machine
end

