-- ==== Sys2Proof/Laws/Accessors.lean ====
section
/-! SUPPORT. The keyed parts of the module, each read after a write of the same or of another key, and registers and
parameters read after an update that leaves them alone. -/

namespace Sys2Proof.Machine

theorem ethAt_setEth (g : Gw) (i k : Nat) (x : EthPort) : (g.setEth k x).ethAt i = if i = k then x else g.ethAt i := by
  unfold Gw.ethAt Gw.setEth
  exact mgetD_mset _ _ _ _ _
@[simp] theorem ethAt_setEth_same (g : Gw) (k : Nat) (x : EthPort) : (g.setEth k x).ethAt k = x := by simp [ethAt_setEth]

theorem canAt_setCan (g : Gw) (i k : Nat) (x : CanCtl) : (g.setCan k x).canAt i = if i = k then x else g.canAt i := by
  unfold Gw.canAt Gw.setCan
  exact mgetD_mset _ _ _ _ _
@[simp] theorem canAt_setCan_same (g : Gw) (k : Nat) (x : CanCtl) : (g.setCan k x).canAt k = x := by simp [canAt_setCan]

theorem egrAt_setEgr (g : Gw) (i k : Nat) (x : EgrPort) : (g.setEgr k x).egrAt i = if i = k then x else g.egrAt i := by
  unfold Gw.egrAt Gw.setEgr
  exact mgetD_mset _ _ _ _ _
@[simp] theorem egrAt_setEgr_same (g : Gw) (k : Nat) (x : EgrPort) : (g.setEgr k x).egrAt k = x := by simp [egrAt_setEgr]

theorem chainAt_setChain (g : Gw) (i k : Nat) (x : ChainPort) : (g.setChain k x).chainAt i = if i = k then x else g.chainAt i := by
  unfold Gw.chainAt Gw.setChain
  exact mgetD_mset _ _ _ _ _
@[simp] theorem chainAt_setChain_same (g : Gw) (k : Nat) (x : ChainPort) : (g.setChain k x).chainAt k = x := by simp [chainAt_setChain]

theorem tisAt_setTis (g : Gw) (i k : Nat) (x : TisPort) : (g.setTis k x).tisAt i = if i = k then x else g.tisAt i := by
  unfold Gw.tisAt Gw.setTis
  exact mgetD_mset _ _ _ _ _
@[simp] theorem tisAt_setTis_same (g : Gw) (k : Nat) (x : TisPort) : (g.setTis k x).tisAt k = x := by simp [tisAt_setTis]

theorem rxAt_setRx (g : Gw) (i k : Nat) (x : RxRing) : (g.setRx k x).rxAt i = if i = k then x else g.rxAt i := by
  unfold Gw.rxAt Gw.setRx
  exact mgetD_mset _ _ _ _ _
@[simp] theorem rxAt_setRx_same (g : Gw) (k : Nat) (x : RxRing) : (g.setRx k x).rxAt k = x := by simp [rxAt_setRx]

theorem cryAt_setCry (g : Gw) (i k : Nat) (x : CryQueue) : (g.setCry k x).cryAt i = if i = k then x else g.cryAt i := by
  unfold Gw.cryAt Gw.setCry
  exact mgetD_mset _ _ _ _ _
@[simp] theorem cryAt_setCry_same (g : Gw) (k : Nat) (x : CryQueue) : (g.setCry k x).cryAt k = x := by simp [cryAt_setCry]

theorem linAt_setLin (g : Gw) (i k : Nat) (x : LinCtl) : (g.setLin k x).linAt i = if i = k then x else g.linAt i := by
  unfold Gw.linAt Gw.setLin
  exact mgetD_mset _ _ _ _ _
@[simp] theorem linAt_setLin_same (g : Gw) (k : Nat) (x : LinCtl) : (g.setLin k x).linAt k = x := by simp [linAt_setLin]

theorem tevAt_setTev (g : Gw) (i k : Nat) (x : TevOut) : (g.setTev k x).tevAt i = if i = k then x else g.tevAt i := by
  unfold Gw.tevAt Gw.setTev
  exact mgetD_mset _ _ _ _ _
@[simp] theorem tevAt_setTev_same (g : Gw) (k : Nat) (x : TevOut) : (g.setTev k x).tevAt k = x := by simp [tevAt_setTev]

theorem gptpAt_setGptp (g : Gw) (i k : Nat) (x : Gptp) : (g.setGptp k x).gptpAt i = if i = k then x else g.gptpAt i := by
  unfold Gw.gptpAt Gw.setGptp
  exact mgetD_mset _ _ _ _ _
@[simp] theorem gptpAt_setGptp_same (g : Gw) (k : Nat) (x : Gptp) : (g.setGptp k x).gptpAt k = x := by simp [gptpAt_setGptp]

theorem arcAt_setArc (g : Gw) (i k : Nat) (x : ArcRing) : (g.setArc k x).arcAt i = if i = k then x else g.arcAt i := by
  unfold Gw.arcAt Gw.setArc
  exact mgetD_mset _ _ _ _ _
@[simp] theorem arcAt_setArc_same (g : Gw) (k : Nat) (x : ArcRing) : (g.setArc k x).arcAt k = x := by simp [arcAt_setArc]

theorem mkaAt_setMka (g : Gw) (i k : Nat) (x : Mka) : (g.setMka k x).mkaAt i = if i = k then x else g.mkaAt i := by
  unfold Gw.mkaAt Gw.setMka
  exact mgetD_mset _ _ _ _ _
@[simp] theorem mkaAt_setMka_same (g : Gw) (k : Nat) (x : Mka) : (g.setMka k x).mkaAt k = x := by simp [mkaAt_setMka]

theorem rmtAt_setRmt (g : Gw) (i k : Nat) (x : RmtSlot) : (g.setRmt k x).rmtAt i = if i = k then x else g.rmtAt i := by
  unfold Gw.rmtAt Gw.setRmt
  exact mgetD_mset _ _ _ _ _
@[simp] theorem rmtAt_setRmt_same (g : Gw) (k : Nat) (x : RmtSlot) : (g.setRmt k x).rmtAt k = x := by simp [rmtAt_setRmt]

theorem txAt_setTx (g : Gw) (i k : Nat) (x : TxRing) : (g.setTx k x).txAt' i = if i = k then x else g.txAt' i := by
  unfold Gw.txAt' Gw.setTx
  exact mgetD_mset _ _ _ _ _
@[simp] theorem txAt_setTx_same (g : Gw) (k : Nat) (x : TxRing) : (g.setTx k x).txAt' k = x := by simp [txAt_setTx]

theorem tevInAt_setTevIn (g : Gw) (i k : Nat) (x : TevIn) : (g.setTevIn k x).tevInAt i = if i = k then x else g.tevInAt i := by
  unfold Gw.tevInAt Gw.setTevIn
  exact mgetD_mset _ _ _ _ _
@[simp] theorem tevInAt_setTevIn_same (g : Gw) (k : Nat) (x : TevIn) : (g.setTevIn k x).tevInAt k = x := by simp [tevInAt_setTevIn]

/-! ### Registers and parameters -/

theorem reg_congr {g h : Gw} (e : h.regs = g.regs) (o : Nat) : h.reg o = g.reg o := by unfold Gw.reg; rw [e]
theorem regN_congr {g h : Gw} (e : h.regs = g.regs) (o : Nat) : h.regN o = g.regN o := by unfold Gw.regN; rw [reg_congr e]
theorem param_congr {g h : Gw} (e : h.params = g.params) (k : Nat) : h.param k = g.param k := by unfold Gw.param; rw [e]
theorem islOn_congr {g h : Gw} (e : h.isl = g.isl) (k : Nat) : h.islOn k = g.islOn k := by unfold Gw.islOn; rw [e]

@[simp] theorem reg_bump_same (g : Gw) (o : Nat) : (g.bump o).reg o = w32 (satAdd (g.regN o) 1) := by
  simp [Gw.bump, Gw.bumpN, Gw.setRegN]

theorem reg_bump_ne (g : Gw) {o p : Nat} (h : p ≠ o) : (g.bump o).reg p = g.reg p := reg_setReg_ne g _ h

/-- A counter advances by one and stops at all ones (R12). -/
@[simp] theorem regN_bump_same (g : Gw) (o : Nat) : (g.bump o).regN o = satAdd (g.regN o) 1 := by
  unfold Gw.regN
  rw [reg_bump_same]
  simp only [w32, BitVec.toNat_ofNat]
  refine Nat.mod_eq_of_lt ?_
  unfold satAdd; omega

theorem regN_bump_ne (g : Gw) {o p : Nat} (h : p ≠ o) : (g.bump o).regN p = g.regN p := by
  unfold Gw.regN; rw [reg_bump_ne g h]

@[simp] theorem reg_flag_same (g : Gw) (o k : Nat) : (g.flag o k).reg o = g.reg o ||| w32 k := by simp [Gw.flag]

theorem reg_flag_ne (g : Gw) {o p k : Nat} (h : p ≠ o) : (g.flag o k).reg p = g.reg p := reg_setReg_ne g _ h

theorem regN_flag_ne (g : Gw) {o p k : Nat} (h : p ≠ o) : (g.flag o k).regN p = g.regN p := by
  unfold Gw.regN; rw [reg_flag_ne g h]

@[simp] theorem reg_emit (g : Gw) (x : Out) (o : Nat) : (g.emit x).reg o = g.reg o := rfl
@[simp] theorem reg_emitAll (g : Gw) (l : List Out) (o : Nat) : (g.emitAll l).reg o = g.reg o := rfl
@[simp] theorem reg_note (g : Gw) (w : String) (l : List Int) (o : Nat) : (g.note w l).reg o = g.reg o := rfl
@[simp] theorem reg_latch (g : Gw) (k : Nat) (v : W32) (o : Nat) : (g.latch k v).reg o = g.reg o := rfl
@[simp] theorem reg_setMbx (g : Gw) (m : Nat) (x : Mbx) (o : Nat) : (g.setMbx m x).reg o = g.reg o := rfl
@[simp] theorem reg_setEth (g : Gw) (p : Nat) (x : EthPort) (o : Nat) : (g.setEth p x).reg o = g.reg o := rfl
@[simp] theorem reg_setCan (g : Gw) (c : Nat) (x : CanCtl) (o : Nat) : (g.setCan c x).reg o = g.reg o := rfl
@[simp] theorem reg_setEgr (g : Gw) (f : Nat) (x : EgrPort) (o : Nat) : (g.setEgr f x).reg o = g.reg o := rfl

end Sys2Proof.Machine
end

