-- ==== Sys2Proof/Laws/Chain.lean ====
section
/-! SUPPORT. A side message as its chunks carry it: they bring its bytes whole, in order, with the check sum that the
receiver tests. -/

namespace Sys2Proof.Machine

theorem slice_chunks (n : Nat) (bs : List Byte) :
    (List.range n).flatMap (fun i => slice bs (6 * i) 6) = bs.take (6 * n) := by
  induction n with
  | zero => simp
  | succ n ih =>
    rw [List.range_succ, List.flatMap_append, ih, Nat.mul_add, Nat.mul_one, List.take_add]
    simp [slice]

theorem padTo_six {n : Nat} {bs : List Byte} (h : 6 * n ≤ bs.length) (i : Nat) (hi : i < n) :
    padTo 6 (slice bs (6 * i) 6) = slice bs (6 * i) 6 := by
  have : (slice bs (6 * i) 6).length = 6 := by simp [slice]; omega
  simp [padTo, this]

/-- The bytes that the chunks of a message carry: the message, and zeros after its last byte. -/
theorem chunks_carry (c k n : Nat) (bs : List Byte) (h : bs.length ≤ 6 * n) (h' : 6 * n ≤ bs.length + 6) :
    (List.range n).flatMap (fun i => (chunkOf c k i bs).drop 1) = padTo (6 * n) bs := by
  cases n with
  | zero => simp at h; simp [padTo]
  | succ n =>
    have e : ∀ i, (chunkOf c k i bs).drop 1 = padTo 6 (slice bs (6 * i) 6) := fun i => rfl
    simp only [e, List.range_succ, List.flatMap_append, List.flatMap_cons, List.flatMap_nil, List.append_nil]
    have hm : (List.range n).flatMap (fun i => padTo 6 (slice bs (6 * i) 6)) = bs.take (6 * n) := by
      rw [← slice_chunks]
      refine List.flatMap_congr (fun i hi => ?_)
      exact padTo_six (n := n) (by omega) i (List.mem_range.mp hi)
    rw [hm]
    have l : (slice bs (6 * n) 6) = bs.drop (6 * n) := by
      simp only [slice]; exact List.take_of_length_le (by simp; omega)
    have ld : (bs.drop (6 * n)).length = bs.length - 6 * n := List.length_drop
    have t1 : (bs.drop (6 * n)).take 6 = bs.drop (6 * n) := List.take_of_length_le (by omega)
    have t2 : bs.take (6 * (n + 1)) = bs := List.take_of_length_le (by omega)
    have r : 6 - (bs.length - 6 * n) = 6 * (n + 1) - bs.length := by omega
    rw [l, padTo, padTo, t1, t2, ld, r, ← List.append_assoc, List.take_append_drop]

theorem sideBytes_length (m : SideMsg) : (sideBytes m).length = 10 + (sidePayload m).length := by
  simp [sideBytes, beBytes, leBytes]; omega

/-- What arrives of a message is the message and zeros. -/
theorem sideWire_eq (m : SideMsg) : sideWire m = padTo (6 * ceilDiv (sideBytes m).length 6) (sideBytes m) := by
  have := sideBytes_length m
  rw [sideWire, sideChunks, List.flatMap_map]
  exact chunks_carry _ _ _ _ (by simp [ceilDiv]; omega) (by simp [ceilDiv]; omega)

theorem fromBe_two {v : Nat} (h : v < 65536) : fromBe (beBytes 2 v) = v := by
  simp [fromBe, beBytes, leBytes, List.range_succ]; omega

theorem crc16Bit_lt {c : Nat} (h : c < 65536) : crc16Bit c < 65536 := by
  unfold crc16Bit
  split
  · exact Nat.xor_lt_two_pow (n := 16) (Nat.mod_lt _ (by decide)) (by decide)
  · omega

theorem crc16Byte_lt {c : Nat} (h : c < 65536) (b : Byte) : crc16Byte c b < 65536 := by
  have hb := b.isLt
  have : c ^^^ (b.toNat * 256) < 65536 := Nat.xor_lt_two_pow (n := 16) h (by omega)
  simp only [crc16Byte]
  iterate 8 refine crc16Bit_lt ?_
  exact this

theorem crc16_lt (bs : List Byte) {c : Nat} (h : c < 65536) : bs.foldl crc16Byte c < 65536 := by
  induction bs generalizing c with
  | nil => exact h
  | cons b bs ih => exact ih (crc16Byte_lt h b)

/-- A message arrives with the check sum that it was sent with. -/
theorem sideCrcOk_sideWire (m : SideMsg) (h : (sidePayload m).length < 65536) : sideCrcOk (sideWire m) = true := by
  have hl := sideBytes_length m
  obtain ⟨hd, hs, hh⟩ : ∃ hd : List Byte, sideBytes m = (hd ++ beBytes 2 (sidePayload m).length ++ sidePayload m) ++
      beBytes 2 ((hd ++ beBytes 2 (sidePayload m).length ++ sidePayload m).foldl crc16Byte 0xFFFF) ∧ hd.length = 6 :=
    ⟨_, rfl, by simp [beBytes, leBytes]⟩
  have two : ∀ v, (beBytes 2 v).length = 2 := fun v => by simp [beBytes, leBytes]
  have hw : ∃ z, sideWire m = sideBytes m ++ z := by
    refine ⟨_, (sideWire_eq m).trans (by rw [padTo, List.take_of_length_le]; simp [ceilDiv]; omega)⟩
  obtain ⟨z, hz⟩ := hw
  rw [hz, hs]
  generalize hp : sidePayload m = p at *
  generalize hq : hd ++ beBytes 2 p.length ++ p = q at *
  have lq : q.length = 8 + p.length := by simp only [← hq, List.length_append, hh, two]
  have ls := two (q.foldl crc16Byte 0xFFFF)
  have lt := crc16_lt q (c := 0xFFFF) (by decide)
  generalize hv : q.foldl crc16Byte 0xFFFF = v at *
  have e1 : slice (q ++ beBytes 2 v ++ z) 6 2 = beBytes 2 p.length := by
    rw [← hq, slice, List.append_assoc, List.append_assoc, List.append_assoc, ← hh, List.drop_left, List.take_append_of_le_length (Nat.le_of_eq (two _).symm), List.take_of_length_le (Nat.le_of_eq (two _))]
  have e2 : (q ++ beBytes 2 v ++ z).take (8 + p.length) = q := by rw [← lq, List.append_assoc, List.take_left]
  have e3 : slice (q ++ beBytes 2 v ++ z) (8 + p.length) 2 = beBytes 2 v := by
    rw [slice, ← lq, List.append_assoc, List.drop_left, List.take_append_of_le_length (Nat.le_of_eq ls.symm), List.take_of_length_le (Nat.le_of_eq ls)]
  have e4 : 8 + p.length + 2 ≤ (q ++ beBytes 2 v ++ z).length := by simp only [List.length_append, lq, ls]; omega
  simp only [sideCrcOk, e1, fromBe_two h, e2, e3, fromBe_two lt, hv, e4, decide_true, Bool.and_true]

theorem chunkCls_chunkOf (c k i : Nat) (bs : List Byte) (h : c < 8) : chunkCls (chunkOf c k i bs) = c := by
  simp only [chunkCls, chunkOf, List.headD_cons, atBit]
  split <;> split <;> simp <;> omega

theorem chunkSom_chunkOf (c k i : Nat) (bs : List Byte) : chunkSom (chunkOf c k i bs) = decide (i = 0) := by
  have h8 := Nat.mod_lt c (show 0 < 8 by decide)
  simp only [chunkSom, chunkOf, List.headD_cons]
  generalize c % 8 = d at *
  generalize decide (i = 0) = a
  generalize decide (i + 1 = k) = b
  cases a <;> cases b <;> interval_cases d <;> decide

theorem chunkEom_chunkOf (c k i : Nat) (bs : List Byte) : chunkEom (chunkOf c k i bs) = decide (i + 1 = k) := by
  have h8 := Nat.mod_lt c (show 0 < 8 by decide)
  simp only [chunkEom, chunkOf, List.headD_cons]
  generalize c % 8 = d at *
  generalize decide (i = 0) = a
  generalize decide (i + 1 = k) = b
  cases a <;> cases b <;> interval_cases d <;> decide

/-- Chunks after the first add their bytes to the unfinished message of their class. -/
theorem takeChunks (cls k : Nat) (bs : List Byte) (h7 : cls < 7) (is : List Nat) (hi : 0 ∉ is) (x : ChainPort) :
    ((is.map (fun i => chunkOf cls k i bs)).foldl ChainPort.takeChunk x).partOf cls =
      x.partOf cls ++ is.flatMap (fun i => (chunkOf cls k i bs).drop 1) := by
  induction is generalizing x with
  | nil => simp
  | cons i is ih =>
    have h0 : i ≠ 0 := fun e => hi (by simp [e])
    rw [List.map_cons, List.foldl_cons, ih (fun e => hi (by simp [e]))]
    have : (x.takeChunk (chunkOf cls k i bs)).partOf cls = x.partOf cls ++ (chunkOf cls k i bs).drop 1 := by
      simp [ChainPort.takeChunk, ChainPort.partOf, chunkCls_chunkOf cls k i bs (by omega), chunkSom_chunkOf, h0, mgetD, show cls ≠ 7 by omega]
    rw [this, List.flatMap_cons, List.append_assoc]

/-- The chunks of a message, taken one by one, hold what it carries, whatever was there before. -/
theorem takeMessage (m : SideMsg) (h7 : m.cls < 7) (x : ChainPort) :
    ((sideChunks m).foldl ChainPort.takeChunk x).partOf m.cls = sideWire m := by
  have hn : ∃ n, ceilDiv (sideBytes m).length 6 = n + 1 := ⟨_, (Nat.succ_pred (by rw [sideBytes_length]; simp [ceilDiv]; omega)).symm⟩
  obtain ⟨n, hn⟩ := hn
  have h0 : (x.takeChunk (chunkOf m.cls (n + 1) 0 (sideBytes m))).partOf m.cls = (chunkOf m.cls (n + 1) 0 (sideBytes m)).drop 1 := by
    simp [ChainPort.takeChunk, ChainPort.partOf, chunkCls_chunkOf m.cls (n + 1) 0 (sideBytes m) (by omega), chunkSom_chunkOf, mgetD, show m.cls ≠ 7 by omega]
  simp only [sideWire, sideChunks, hn, List.range_succ_eq_map, List.map_cons, List.foldl_cons, List.flatMap_cons, List.flatMap_map]
  rw [takeChunks _ _ _ h7 _ (by simp), h0, List.flatMap_map]

theorem sidePayload_length (m : SideMsg) (h : m.body.length ≤ 10000) : (sidePayload m).length < 65536 := by
  unfold sidePayload
  split
  · simp [beBytes, leBytes]
  · dsimp only
    split
    · rename_i n hn
      have : n < 65536 := by
        simp only [rmtLength] at hn
        split at hn
        · cases hn
        · repeat' split at hn
          all_goals (simp only [Option.some.injEq, reduceCtorEq] at hn; try omega)
      simp only [padTo, List.length_append, List.length_take, List.length_replicate]
      omega
    · simp

/-- The chunks of a message from its own first to its last: what a receiver needs to take it whole. -/
theorem sideChunks_whole (m : SideMsg) (x : ChainPort) (h7 : m.cls < 7) (hl : m.body.length ≤ 10000) :
    ((sideChunks m).headD []).length = 7 ∧ chunkSom ((sideChunks m).headD []) = true ∧
      chunkEom ((sideChunks m).getLastD []) = true ∧ chunkCls ((sideChunks m).getLastD []) = m.cls ∧
      ((sideChunks m).foldl ChainPort.takeChunk x).partOf m.cls = sideWire m ∧ sideCrcOk (sideWire m) = true := by
  have hn : ∃ n, ceilDiv (sideBytes m).length 6 = n + 1 := ⟨_, (Nat.succ_pred (by rw [sideBytes_length]; simp [ceilDiv]; omega)).symm⟩
  obtain ⟨n, hn⟩ := hn
  have head : (sideChunks m).headD [] = chunkOf m.cls (n + 1) 0 (sideBytes m) := by
    simp [sideChunks, hn, List.range_succ_eq_map]
  have last : (sideChunks m).getLastD [] = chunkOf m.cls (n + 1) n (sideBytes m) := by
    simp [sideChunks, hn, List.range_succ]
  refine ⟨?_, ?_, ?_, ?_, takeMessage m h7 x, sideCrcOk_sideWire m (sidePayload_length m hl)⟩
  · rw [head]; simp [chunkOf, padTo]; omega
  · rw [head, chunkSom_chunkOf]; rfl
  · rw [last, chunkEom_chunkOf]; simp
  · rw [last, chunkCls_chunkOf _ _ _ _ (by omega)]

end Sys2Proof.Machine
end

