-- ==== Sys2Proof/Laws/Memory.lean ====
section
/-! SUPPORT. The laws of DRAM: one written byte, and that every operation keeps the canonical form; and what an answer
leaves of DRAM and of the queue. -/

namespace Sys2Proof.Machine

theorem dramByte_dramPut_same (d : List Host.Cell) {a : Nat} (b : Byte) (h : a < dramSize) :
    dramByte (dramPut d a b) a = b := by
  simp [dramByte, dramPut, h]

theorem dramByte_dramPut_ne (d : List Host.Cell) {a c : Nat} (b : Byte) (h : c ≠ a) :
    dramByte (dramPut d a b) c = dramByte d c := by
  unfold dramPut
  split
  · exact mgetD_mput_ne d b dramDefault dramDefault h
  · rfl

/-- The canonical form, as a statement about the listed bytes. -/
theorem dramWf_iff (d : List Host.Cell) :
    dramWf d = true ↔ mwf d = true ∧ ∀ c ∈ d, c.1 < dramSize ∧ c.2 ≠ dramDefault := by
  simp [dramWf]

theorem dramWf_dramPut {d : List Host.Cell} (a : Nat) (b : Byte) (h : dramWf d = true) : dramWf (dramPut d a b) = true := by
  rw [dramWf_iff] at h ⊢
  unfold dramPut
  split
  · next ha =>
    refine ⟨mwf_mput d a b dramDefault h.1, fun c hc => ?_⟩
    unfold mput at hc
    split at hc
    · exact h.2 c (List.mem_filter.mp hc).1
    · next hb =>
      rcases mset_mem hc with rfl | hc
      · exact ⟨ha, hb⟩
      · exact h.2 c hc
  · exact h

theorem dramWf_dramWrite {d : List Host.Cell} (a : Nat) (bs : List Byte) (h : dramWf d = true) :
    dramWf (dramWrite d a bs) = true := by
  induction bs generalizing d a with
  | nil => exact h
  | cons b r ih => exact ih (a + 1) (dramWf_dramPut a b h)

@[simp] theorem dramWf_nil : dramWf [] = true := rfl

/-- An answer is a next state with the DRAM and the queue of its effect. -/
theorem answer_next (f : State → State) (s : State) :
    ∃ t, answer f s = .next t ∧ t.dram = (f s).dram ∧ t.pending = (f s).pending := ⟨_, rfl, rfl, rfl⟩

/-- An effect on the module alone leaves DRAM and the queue. -/
theorem answer_onGw_keeps {f : Gw → Gw} {s t : State} (h : answer (onGw f) s = .next t) :
    t.dram = s.dram ∧ t.pending = s.pending := by
  cases h; exact ⟨rfl, rfl⟩

/-- An effect that changes nothing answers the same state. -/
theorem answer_same {f : State → State} {s : State} (h : f s = s) : answer f s = .next s := by
  simp [answer, h, interrupts_self]

end Sys2Proof.Machine
end

