-- ==== Sys2Proof/Laws/Mailbox.lean ====
section
/-! SUPPORT. The laws of a reply: the mailbox is DONE and taken up by nobody, other mailboxes stay, and only registers and
mailboxes change; what the two forms of a mailbox row do. -/

namespace Sys2Proof.Machine

@[simp] theorem mbxAt_flag (g : Gw) (m o v : Nat) : (g.flag o v).mbxAt m = g.mbxAt m := rfl
@[simp] theorem mbxAt_setReg (g : Gw) (m o : Nat) (v : W32) : (g.setReg o v).mbxAt m = g.mbxAt m := rfl
@[simp] theorem mbxAt_setRegN (g : Gw) (m o v : Nat) : (g.setRegN o v).mbxAt m = g.mbxAt m := rfl

/-- Payload words change registers only. -/
theorem putWords_shape (g : Gw) (m i : Nat) (ws : List Nat) : ∃ rs, g.putWords m i ws = { g with regs := rs } := by
  induction ws generalizing g i with
  | nil => exact ⟨g.regs, rfl⟩
  | cons w r ih =>
    obtain ⟨rs, h⟩ := ih (g.setRegN (mbxOff m i) w) (i + 1)
    exact ⟨rs, by simp only [Gw.putWords, h]; rfl⟩

/-- A reply changes registers and its mailbox only; the mailbox is DONE. -/
theorem reply_shape (g : Gw) (m st : Nat) (a : Stamp) (ws : List Nat) :
    ∃ rs ms, g.reply m st a ws = { g with regs := rs, mbx := ms } ∧ ((g.reply m st a ws).mbxAt m).st = .done ∧
      ((g.reply m st a ws).mbxAt m).taken = false ∧ ∀ n, n ≠ m → (g.reply m st a ws).mbxAt n = g.mbxAt n := by
  have raw : ∃ rs ms, g.replyRaw m st a ws false = { g with regs := rs, mbx := ms } ∧
      ((g.replyRaw m st a ws false).mbxAt m).st = .done ∧ ((g.replyRaw m st a ws false).mbxAt m).taken = false ∧
      ∀ n, n ≠ m → (g.replyRaw m st a ws false).mbxAt n = g.mbxAt n := by
    unfold Gw.replyRaw
    dsimp only
    generalize hg1 : ((((g.setRegN (mbxOff m 0) _).setRegN (mbxOff m 1) _).setRegN (mbxOff m 2) _).setRegN
      (mbxOff m 3) _ : Gw) = g1
    obtain ⟨r1, h1⟩ := putWords_shape g1 m 4 ws
    obtain ⟨r2, h2⟩ := putWords_shape (g1.putWords m 4 ws) m 5 (List.replicate 8 0)
    have hb : g1 = { g with regs := g1.regs } := by rw [← hg1]; rfl
    have key : ∀ h : Gw, (∃ r, h = { g with regs := r }) → ∃ rs ms,
        (h.setMbx m { h.mbxAt m with st := .done, taken := false }).flag (Reg.mbxDone (m / 32)) (2 ^ (m % 32)) =
          { g with regs := rs, mbx := ms } ∧
        (((h.setMbx m { h.mbxAt m with st := .done, taken := false }).flag (Reg.mbxDone (m / 32)) (2 ^ (m % 32))).mbxAt m).st
          = .done ∧
        (((h.setMbx m { h.mbxAt m with st := .done, taken := false }).flag (Reg.mbxDone (m / 32)) (2 ^ (m % 32))).mbxAt
          m).taken = false ∧
        ∀ n, n ≠ m → ((h.setMbx m { h.mbxAt m with st := .done, taken := false }).flag (Reg.mbxDone (m / 32))
          (2 ^ (m % 32))).mbxAt n = g.mbxAt n := by
      rintro h ⟨r, rfl⟩
      refine ⟨_, _, rfl, ?_, ?_, fun n hn => ?_⟩
      · rw [mbxAt_flag, mbxAt_setMbx]; simp
      · rw [mbxAt_flag, mbxAt_setMbx]; simp
      · rw [mbxAt_flag, mbxAt_setMbx]; simp [hn]; rfl
    split
    · exact key _ ⟨r2, by rw [h2, h1, hb]⟩
    · exact key _ ⟨r1, by rw [h1, hb]⟩
  obtain ⟨rs, ms, he, h1, h2, h3⟩ := raw
  unfold Gw.reply
  dsimp only
  refine ⟨rs, _, by rw [he]; rfl, ?_, ?_, fun n hn => ?_⟩
  · rw [mbxAt_setMbx]; simpa using h1
  · rw [mbxAt_setMbx]; simpa using h2
  · rw [mbxAt_setMbx]; simp [hn, h3 n hn]

@[simp] theorem reply_mbx_st (g : Gw) (m st : Nat) (a : Stamp) (ws : List Nat) :
    ((g.reply m st a ws).mbxAt m).st = .done := (reply_shape g m st a ws).choose_spec.choose_spec.2.1

/-- The row of a direct command whose effect answers at once. -/
theorem directRow_holds {code m : Nat} {s : State} (eff : Nat → State → State × Answer) (h : s.gw.holds m code = true) :
    directRow code eff m s = (eff m s).1.withGw ((eff m s).1.gw.finish m 0 (eff m s).2) := by
  simp [directRow, h]

/-- Without its request a row does nothing. -/
theorem directRow_other {code m : Nat} {s : State} (eff : Nat → State → State × Answer) (h : s.gw.holds m code = false) :
    directRow code eff m s = s := by
  simp [directRow, h]

theorem changeRow_serving {code m : Nat} {s : State} (eff : Nat → Stamp → State → State × Answer)
    (h : s.gw.holds m code = true) (hs : s.gw.serving = true) : changeRow code eff m s = s.withGw (s.gw.queueChange m) := by
  simp [changeRow, h, hs]

theorem changeRow_config {code m : Nat} {s : State} (eff : Nat → Stamp → State → State × Answer)
    (h : s.gw.holds m code = true) (hs : s.gw.serving = false) :
    changeRow code eff m s = (eff m 0 s).1.withGw ((eff m 0 s).1.gw.finish m 0 (eff m 0 s).2) := by
  simp [changeRow, h, hs]

theorem changeRow_other {code m : Nat} {s : State} (eff : Nat → Stamp → State → State × Answer)
    (h : s.gw.holds m code = false) : changeRow code eff m s = s := by
  simp [changeRow, h]

end Sys2Proof.Machine
end

