-- ==== Sys2Proof/WellFormed.lean ====
section
/-! DEFINITION. Well-formed commands: every operand lies in the range that the spec gives it. A command outside them has
no sender; what exec does with one is no claim about the module. -/

namespace Sys2Proof

/-! ### Ranges of operands -/

/-- Mailboxes 0–63 (R545). -/
def mailboxOk (m : Nat) : Bool := m < 64

/-- An access of 1, 2, 4 or 8 bytes within BAR0 (R6, R14). -/
def accessOk (off size : Nat) : Bool := off < 0x1000000 && (size = 1 || size = 2 || size = 4 || size = 8)

/-- An aligned offset within BAR0 (R6). -/
def offsetOk (off : Nat) : Bool := off < 0x1000000 && off % 4 = 0

/-- MAC ports E0–E11, K0 and K1. -/
def macPortOk (p : Nat) : Bool := p < 14

/-- Ports E0–E11. -/
def etherPortOk (p : Nat) : Bool := p < 12

/-- MAC ports and S0–S7 as ports of a frame start. -/
def framePortOk (p : Nat) : Bool := p < 22

/-- Ports S0–S7. -/
def tisPortOk (p : Nat) : Bool := p < 8

/-- Fabric ports F0–F21. -/
def fabricOk (f : Nat) : Bool := f < 22

/-- Sub-sources of a fabric port (R45). -/
def subSourceOk (n : Nat) : Bool := n < 64

/-- Host rings (R714). -/
def ringOk (r : Nat) : Bool := r < 32

/-- Bytes of a descriptor. -/
def vectorOk (n : Nat) : Bool := n = 32

/-- Timestamp queues (R305). -/
def stampQueueOk (q : Nat) : Bool := q < 14

/-- CAN controllers (R318). -/
def canOk (c : Nat) : Bool := c < 32

/-- Message buffers of a controller (R332). -/
def bufferOk (n : Nat) : Bool := n < 64

/-- Columns of a matrix (R349). -/
def columnOk (k : Nat) : Bool := k < 32

/-- Values of a controller's 32-bit counter (R324). -/
def countOk (n : Nat) : Bool := n < 4294967296

/-- LIN controllers (R373). -/
def linOk (l : Nat) : Bool := l < 12

/-- LIN identifiers. -/
def linIdOk (n : Nat) : Bool := n < 64

/-- One byte. -/
def byteOk (n : Nat) : Bool := n < 256

/-- FlexRay channels A and B (R383). -/
def flxChannelOk (ch : Nat) : Bool := ch < 2

/-- FlexRay slots (R385). -/
def flxSlotOk (n : Nat) : Bool := 1 ≤ n && n ≤ 2047

/-- LIN and FlexRay source indices (R149). -/
def commitBusOk (b : Nat) : Bool := 32 ≤ b && b < 46

/-- Islands (R21). -/
def islandOk (n : Nat) : Bool := n < 16

/-- Time sources (R401). -/
def sourceOk (n : Nat) : Bool := 1 ≤ n && n ≤ 4

/-- gPTP instances (R406). -/
def instanceOk (n : Nat) : Bool := n < 4

/-- A bit error at a stage-two read: a cell of a frame of at most 256 and one bit of its 64 bytes (R93). -/
def flipOk (flip : Option (Nat × Nat)) : Bool := flip.all fun x => x.1 < 256 && x.2 < 512

/-- Ports a gPTP message may come from: E0–E11 and S0–S7 (R407), and 20 for the chain (R413). -/
def gptpPortOk (p : Nat) : Bool := p ≤ 20

/-- Time-event inputs and outputs (R426). -/
def eventOk (n : Nat) : Bool := n < 16

/-- Time-event outputs and PPS_OUT. -/
def pulseOk (n : Nat) : Bool := n ≤ 16

/-- Phases of a tick (R22). -/
def phaseOk (n : Nat) : Bool := n < 16

/-- Chain ports K0 and K1, and pairs 0 and 1. -/
def chainPortOk (k : Nat) : Bool := k < 2

/-- Chain addresses (R459). -/
def addressOk (a : Nat) : Bool := 1 ≤ a && a < 4095

/-- Remote slots of host software (R471). -/
def hostSlotOk (n : Nat) : Bool := n < 16

/-- Remote slots (R471). -/
def slotOk (n : Nat) : Bool := n < 32

/-- Crypto queues (R513). -/
def cryptoQueueOk (q : Nat) : Bool := q < 16

/-- Capture sources (R725). -/
def captureOk (n : Nat) : Bool := n < 46

/-- KIND of a detected error (R752). -/
def errorKindOk (n : Nat) : Bool := 1 ≤ n && n ≤ 7

/-- The lane of a comparator (R752). -/
def laneOk (n : Nat) : Bool := n < 8

/-- Power channels (R647). -/
def channelOk (n : Nat) : Bool := n < 16

/-- Items for each of the 16 power channels. -/
def currentsOk (n : Nat) : Bool := n = 16

/-- NM buses: CAN controllers, and fabric ports as 32 + f (R679). -/
def busOk (b : Nat) : Bool := b < 48

/-- Wake decoders (R691), WAKE pins and S ports. -/
def decoderOk (n : Nat) : Bool := n < 8

/-- Interrupts of the PHYs of E0–E11. -/
def phyOk (n : Nat) : Bool := n < 12

/-- Debugger operations: halt, resume, step, write (R749). -/
def debugOk (n : Nat) : Bool := n < 4

/-- Data bytes of a bus frame. -/
def dataOk (n : Nat) : Bool := n ≤ 2048

/-- Bytes of a crypto request descriptor (R516). -/
def descOk (n : Nat) : Bool := n = 64

/-! ### Commands -/

/-- The operands of a command are in their ranges. [Log 158: DEDUCED] -/
def Instr.wf : Instr → Bool
  | .spiTransaction _ => true
  | .registerWrite off size _ => accessOk off size
  | .rcRead off size => accessOk off size
  | .latchingLoRead off => offsetOk off
  | .mbxDbRing m _ => mailboxOk m
  | .mailboxTakeUp => true
  | .applyAtChange => true
  | .sysInfo m => mailboxOk m
  | .sysRun m => mailboxOk m
  | .sysResetFirmware m => mailboxOk m
  | .sysResetFactory m => mailboxOk m
  | .cfgParamRead m => mailboxOk m
  | .cfgParamWrite m => mailboxOk m
  | .cfgImageInfo m => mailboxOk m
  | .catSearch m => mailboxOk m
  | .catNext m => mailboxOk m
  | .catInsert m => mailboxOk m
  | .catDelete m => mailboxOk m
  | .catFlushPort m => mailboxOk m
  | .catFlushPart m => mailboxOk m
  | .flushRemovalDone _ => true
  | .sigPduSet m => mailboxOk m
  | .sigPduGet m => mailboxOk m
  | .sigAltSet m => mailboxOk m
  | .egrGateLoad m => mailboxOk m
  | .egrGateCommit m => mailboxOk m
  | .egrLeafMap m => mailboxOk m
  | .egrNodeWeight m => mailboxOk m
  | .polFilterSet m => mailboxOk m
  | .polMeterSet m => mailboxOk m
  | .polGet m => mailboxOk m
  | .ethPortCtlAdmin m => mailboxOk m
  | .ethPortCtlAnRestart m => mailboxOk m
  | .canRecover m => mailboxOk m
  | .canOwnTake m => mailboxOk m
  | .canOwnGive m => mailboxOk m
  | .linTableStart m => mailboxOk m
  | .linTableStop m => mailboxOk m
  | .flxRun m => mailboxOk m
  | .flxAllowColdstart m => mailboxOk m
  | .flxWakeup m => mailboxOk m
  | .flxHalt m => mailboxOk m
  | .flxFreeze m => mailboxOk m
  | .timeStatus m => mailboxOk m
  | .timeStep m => mailboxOk m
  | .timeStepChain m => mailboxOk m
  | .chnTopo m => mailboxOk m
  | .chnRingFailover m => mailboxOk m
  | .chnRingRestore m => mailboxOk m
  | .rmtExec m => mailboxOk m
  | .keyProvision m => mailboxOk m
  | .keyDerive m => mailboxOk m
  | .keyRevoke m => mailboxOk m
  | .keyRootNew m => mailboxOk m
  | .keyInfo m => mailboxOk m
  | .keyAttest m => mailboxOk m
  | .pwrSetOff m => mailboxOk m
  | .pwrSetOn m => mailboxOk m
  | .pwrSetPwm m => mailboxOk m
  | .pwrRestart m => mailboxOk m
  | .pwrProfile m => mailboxOk m
  | .pwrStatus m => mailboxOk m
  | .nmSleep m => mailboxOk m
  | .nmStay m => mailboxOk m
  | .nmInsomnia m => mailboxOk m
  | .nmWakeCause m => mailboxOk m
  | .arcTrigger m => mailboxOk m
  | .arcAck m => mailboxOk m
  | .arcPlay m => mailboxOk m
  | .arcPlayStop m => mailboxOk m
  | .arcStatus m => mailboxOk m
  | .updBegin m => mailboxOk m
  | .updBlock m => mailboxOk m
  | .updVerify m => mailboxOk m
  | .updActivate m => mailboxOk m
  | .updActivateConfig m => mailboxOk m
  | .updAbort m => mailboxOk m
  | .updStatus m => mailboxOk m
  | .diagSelftest m _ _ => mailboxOk m
  | .diagErrlog m => mailboxOk m
  | .diagDebugUnlock m => mailboxOk m
  | .diagDebugLock m => mailboxOk m
  | .debugAutolock => true
  | .diagLastgasp m => mailboxOk m
  | .ethFrameReceive p _ => macPortOk p
  | .tisFrameReceive p _ => tisPortOk p
  | .pendingCellsAvailable f => fabricOk f
  | .strataArrival f sub => fabricOk f && subSourceOk sub
  | .frameRelease _ => true
  | .segmentClose => true
  | .ageingVisit => true
  | .vitrineVisit => true
  | .composerCyclicExpiry => true
  | .pduTransmissionEvent => true
  | .signalTimeout => true
  | .accountedSelection f => fabricOk f
  | .ageingScrubVisit f _ => fabricOk f
  | .stagedHandover f fault => fabricOk f && flipOk fault.flip
  | .committedBufferCommit bus => commitBusOk bus
  | .aggregatorResume p => tisPortOk p
  | .hdmaRxWaitExpiry r => ringOk r
  | .macFrameStart x => framePortOk x.port
  | .pauseFrameSend p => macPortOk p
  | .pauseRefresh p => macPortOk p
  | .pauseStopExpiry p => macPortOk p
  | .pauseWatchdog p => macPortOk p
  | .pauseHoldEnd p => macPortOk p
  | .linkUp p _ => etherPortOk p
  | .linkDownTimeout p => macPortOk p
  | .verifyFrameTimer p _ => macPortOk p
  | .plcaBeaconLoss p => tisPortOk p
  | .tisCollision p => tisPortOk p
  | .hdmaTxTailWrite r _ => ringOk r
  | .hdmaTxFetch r descs _ => ringOk r && descs.all (fun d => vectorOk d.length)
  | .hostInjection r => ringOk r
  | .hdmaRxTailWrite r _ _ => ringOk r
  | .hdmaRingEnWrite _ r _ => ringOk r
  | .pcieDmaError _ r _ _ => ringOk r
  | .intVackWrite _ => true
  | .tsqEnt0Read q => stampQueueOk q
  | .tsqEnt3Read q => stampQueueOk q
  | .canMbHdrRead c n _ => canOk c && bufferOk n
  | .canMbLastWordRead c n _ => canOk c && bufferOk n
  | .canMbHdrWrite c n _ _ => canOk c && bufferOk n
  | .canTxPendingWrite c n _ _ => canOk c && bufferOk n
  | .canTxAbortReq c n _ => canOk c && bufferOk n
  | .canTxTtWrite c n _ _ => canOk c && bufferOk n
  | .canHctlRecWrite c => canOk c
  | .canFrameReceive c sof eof frame => canOk c && countOk sof && countOk eof && dataOk frame.data.length
  | .sealVerify c _ => canOk c
  | .canTxStart c _ => canOk c
  | .canTxDone c _ => canOk c
  | .canErrorDetected c _ => canOk c
  | .canRecoveryComplete c => canOk c
  | .canCollision c => canOk c
  | .canTtColumn c k _ => canOk c && columnOk k
  | .canTtReference c _ sof _ => canOk c && sof < 4294967296
  | .canTtRefTimeout c => canOk c
  | .btmSyncTimer c => canOk c
  | .btmFollowWrite c => canOk c
  | .linSlotStart => true
  | .linHeaderStart l => linOk l
  | .linFrameReceive l sof eof pid _ check _ => linOk l && countOk sof && countOk eof && byteOk pid && byteOk check
  | .linResponse l pidEnd pid => linOk l && countOk pidEnd && byteOk pid
  | .linNoResponse l h => linOk l && linIdOk h.ident && countOk h.pidEnd
  | .flxActionPoint channel slot point => flxChannelOk channel && flxSlotOk slot && countOk point.cnt
  | .flxFrameReceive channel sof eof frame _ => flxChannelOk channel && countOk sof && countOk eof && dataOk frame.data.length
  | .tbEpoch => true
  | .distributionError miss => islandOk miss.island
  | .incrApply => true
  | .stepApply => true
  | .servoSample => true
  | .holdoverQualityUpdate => true
  | .sourceLoss src port => sourceOk src && port < 20
  | .gptpMessage inst port _ => instanceOk inst && gptpPortOk port
  | .gptpSyncTransmit inst => instanceOk inst
  | .tevOutArm n _ => eventOk n
  | .tevOutSetCopy n => eventOk n
  | .tevOutModeOff n _ => eventOk n
  | .tevOutEvent n => eventOk n
  | .tevInEdge n _ phase => eventOk n && phaseOk phase
  | .tevInEnt0Read n => eventOk n
  | .tevInEnt3Read n => eventOk n
  | .ppsOutPulse => true
  | .ppsInEdge _ phase => phaseOk phase
  | .ref10Edge phase => phaseOk phase
  | .sideMessageReceive k _ _ _ => chainPortOk k
  | .chainTimeWordSend k => chainPortOk k
  | .chainTimeWordReceive => true
  | .timeWordEcho => true
  | .chainCalibration k _ _ => chainPortOk k
  | .chainStepAnnounce => true
  | .blockAlignment k => chainPortOk k
  | .alignmentLost k => chainPortOk k
  | .chainPortFail k => chainPortOk k
  | .helloTimer => true
  | .helloReceive => true
  | .helloTimeout k => chainPortOk k
  | .topologyAnnounceTimer => true
  | .topologyAnnounceReceive => true
  | .reachEntryTimeout addr => addressOk addr
  | .ringFault => true
  | .ringWtrExpiry => true
  | .rmtCmdRead n => hostSlotOk n
  | .rmtCmdWrite n => hostSlotOk n
  | .rmtCmdReadLine n => hostSlotOk n
  | .rmtCmdSeq n => hostSlotOk n
  | .rmtCmdBcast n => hostSlotOk n
  | .rmtDeferredSend n => slotOk n
  | .rmtRequestExecute _ => true
  | .rmtResponseArrival => true
  | .rmtRdata0Read n => hostSlotOk n
  | .rmtHoldExpiry n => slotOk n
  | .rmtTimeout n => slotOk n
  | .bcastReceive => true
  | .farErrorReport => true
  | .rmtFerrEnt0Read => true
  | .rmtFerrEnt2Read => true
  | .updMessageReceive => true
  | .updRemoteTimeout m => mailboxOk m
  | .cryQTailWrite q _ => cryptoQueueOk q
  | .cryQEnClear q => cryptoQueueOk q
  | .cryRequestFetch q desc _ _ => cryptoQueueOk q && descOk desc.length
  | .cryRequestComplete q _ _ _ => cryptoQueueOk q
  | .keyPrivGo _ _ => true
  | .trngHealthFail => true
  | .tamperLoopOpen _ => true
  | .fvRxJournalTimer => true
  | .playbackRecordFetch => true
  | .captureLostItem n => captureOk n
  | .arcCapD0Read n => captureOk n
  | .lockstepMismatch k lane => chainPortOk k && laneOk lane
  | .inputSkew k _ => chainPortOk k
  | .detectedErrorHandling kind _ island _ _ => errorKindOk kind && islandOk island
  | .targetedTestComplete n _ => islandOk n
  | .pairRestart k _ => chainPortOk k
  | .pwrFailNFall => true
  | .pwrFailNRise => true
  | .dieLinkMessage _ _ tj => currentsOk tj.length
  | .heartbeatSend _ => true
  | .heartbeatLoss _ => true
  | .holdTimeout _ => true
  | .heartbeatReturn _ => true
  | .statusMessage _ cur tj _ _ => currentsOk cur.length && currentsOk tj.length
  | .vbatUndervoltage _ => true
  | .vbatOvervoltage _ => true
  | .vbatReturn _ => true
  | .powerDieReset _ => true
  | .currentLimitReached n _ _ => channelOk n
  | .shortDetect n _ => channelOk n
  | .thermalShutdown n _ => channelOk n
  | .fuseStep _ sq => currentsOk sq.length
  | .blankingEnd n _ _ => channelOk n
  | .limitEventEnd n _ => channelOk n
  | .restartTimer n _ _ => channelOk n
  | .retriesReload n _ => channelOk n
  | .openLoadTimer n _ _ => channelOk n
  | .compUpdate _ _ => true
  | .freezeEnd _ => true
  | .pwmPeriodStart n _ => channelOk n
  | .keepaliveReceive => true
  | .keepaliveTimer => true
  | .nmDeadlineExpiry b => busOk b
  | .insomniaCheck => true
  | .commitTick => true
  | .wakeSample _ _ => true
  | .wakeDecoderMatch d _ _ => decoderOk d
  | .wakePin n => decoderOk n
  | .t1sActivityWake n _ => decoderOk n
  | .phyInterruptWake n => phyOk n
  | .aonWakeStart => true
  | .porstN _ _ => true
  | .srstN _ => true
  | .pciePerstN _ => true
  | .firmwareReset => true
  | .lckIslRst _ => true
  | .islandStart n => islandOk n
  | .railsGoodRelease => true
  | .railsTimeout => true
  | .bootRomStart _ _ => true
  | .firmwareBoot _ => true
  | .presenceAcquired => true
  | .presenceLost => true
  | .handoverEpoch => true
  | .pairNewImageRun k _ => chainPortOk k
  | .healthyReport => true
  | .healthTimeout => true
  | .updRomCtlGo _ => true
  | .plcaBeaconReceive p => tisPortOk p
  | .dieLinkAck => true
  | .dieLinkAckTimeout m => mailboxOk m
  | .mkaPduReceive p _ _ _ => macPortOk p
  | .mkaTimer p => macPortOk p
  | .gptpAnnounceTimer inst => instanceOk inst
  | .gptpPdelayTimer inst => instanceOk inst
  | .tevOutPulseEnd n => pulseOk n
  | .switchedRailLoss => true
  | .gateBankSwitch f => fabricOk f
  | .aonCrystalTakeover => true
  | .debuggerAccess k op => chainPortOk k && debugOk op
  | .testModeChange _ => true
  | .flxCycleEnd _ _ _ => true
  | .flxWakeupReceive channel => flxChannelOk channel
  | .bar2Write _ _ => true
  | .journalRecordCommit => true

end Sys2Proof
end

