-- ==== Sys2Proof/Tests/Slice0.lean ====
section
/-! SUPPORT. Tests of single commands, ill-formed commands, and for every statement with hypotheses a state and operands
that meet them. -/

set_option Elab.async false

namespace Sys2Proof.Tests

open Sys2Proof.Machine

/-- The module with every island running. -/
def gwOn : Gw := { isl := (List.range 16).map (fun i => (i, 1)) }

/-- The state of a module whose islands all run. -/
def stOn : State := { gw := gwOn, dram := [], pending := [] }

/-- The same, named for its timebase. -/
def stTb : State := stOn

/-- A 64-byte frame with a good FCS. -/
def rx64 : EthRx := { bytes := withFcs (List.replicate 60 0) }

/-- A module whose islands all run and whose port E0 has link at 1000 Mb/s, pause frames, preemption and verify on. -/
def gwE : Gw :=
  { gwOn with
    eth := [(0, { link := true, xoffQueue := [true], verify := 1 })]
    params := [(Par.ethMode 0, 1 * 2 ^ 28), (Par.ethMac 0, 1522 * 131072 + 0x18000 + 0x6000), (Par.tisCfg 0, 2 ^ 63)] }

def stE : State := { stOn with gw := gwE }
/-! ### Ill-formed commands: one for each check -/

theorem test_wf_refuses_registers : Instr.wf (.registerWrite 0x10000 3 0) = false ∧ Instr.wf (.rcRead 0x1000000 4) = false ∧
    Instr.wf (.latchingLoRead 0x10002) = false ∧ Instr.wf (.sysInfo 64) = false := by decide

theorem test_wf_refuses_ports : Instr.wf (.ethFrameReceive 14 { bytes := [] }) = false ∧ Instr.wf (.linkUp 12 1000) = false ∧
    Instr.wf (.macFrameStart ⟨22, false⟩) = false ∧ Instr.wf (.plcaBeaconReceive 8) = false ∧ Instr.wf (.accountedSelection 22) = false ∧
    Instr.wf (.strataArrival 0 64) = false ∧ Instr.wf (.tsqEnt0Read 14) = false := by decide

theorem test_wf_refuses_host : Instr.wf (.hostInjection 32) = false ∧ Instr.wf (.hdmaTxFetch 0 [[0]] []) = false := by decide

theorem test_wf_refuses_buses : Instr.wf (.canCollision 32) = false ∧ Instr.wf (.canMbHdrRead 0 64 true) = false ∧
    Instr.wf (.canTtColumn 0 32 true) = false ∧ Instr.wf (.canFrameReceive 0 0 (2 ^ 32) {}) = false ∧
    Instr.wf (.canFrameReceive 0 0 0 { data := List.replicate 2049 0 }) = false ∧
    Instr.wf (.linHeaderStart 12) = false ∧ Instr.wf (.linNoResponse 0 ⟨64, 0⟩) = false ∧ Instr.wf (.linResponse 0 0 256) = false ∧
    Instr.wf (.flxWakeupReceive 2) = false ∧ Instr.wf (.flxActionPoint 0 0 ⟨0⟩) = false ∧
    Instr.wf (.committedBufferCommit 31) = false := by decide +kernel

theorem test_wf_refuses_time : Instr.wf (.islandStart 16) = false ∧ Instr.wf (.sourceLoss 0 0) = false ∧
    Instr.wf (.gptpSyncTransmit 4) = false ∧ Instr.wf (.gptpMessage 0 21 {}) = false ∧ Instr.wf (.tevOutEvent 16) = false ∧
    Instr.wf (.tevOutPulseEnd 17) = false ∧ Instr.wf (.ref10Edge 16) = false := by decide

theorem test_wf_refuses_chain : Instr.wf (.helloTimeout 2) = false ∧ Instr.wf (.reachEntryTimeout 4095) = false ∧
    Instr.wf (.rmtCmdRead 16) = false ∧ Instr.wf (.rmtTimeout 32) = false ∧ Instr.wf (.debuggerAccess 0 4) = false ∧
    Instr.wf (.lockstepMismatch 0 8) = false := by decide

theorem test_wf_refuses_rest : Instr.wf (.cryQEnClear 16) = false ∧ Instr.wf (.cryRequestFetch 0 [] [] []) = false ∧
    Instr.wf (.arcCapD0Read 46) = false ∧ Instr.wf (.detectedErrorHandling 8 0 0 0 true) = false ∧ Instr.wf (.shortDetect 16 0) = false ∧
    Instr.wf (.fuseStep 0 []) = false ∧ Instr.wf (.nmDeadlineExpiry 48) = false ∧ Instr.wf (.wakePin 8) = false ∧
    Instr.wf (.phyInterruptWake 12) = false := by decide

theorem test_wf_accepts : Instr.wf (.sysInfo 63) = true ∧ Instr.wf (.macFrameStart ⟨21, false⟩) = true ∧ Instr.wf .journalRecordCommit = true := by
  decide

/-! ### Single commands -/

/-- The module after an answer that is a next state. -/
def gwAfter : Host.Outcome State Fault Refusal → Option Gw
  | .next t => some t.gw
  | _ => none

/-- R14: a read at an offset that is no multiple of 4 returns all ones, and the access is recorded. -/
theorem test_misaligned_read :
    (gwAfter (exec (.rcRead 0x10021 4) stOn)).map (fun g => (g.out, g.regN Reg.sysBadaccAddr)) =
      some ([.readData 0x10021 0xFFFFFFFF], 0x10021) := by decide +kernel

/-- R9: RW bits take the written value and read back. -/
theorem test_register_write :
    (gwAfter (exec (.registerWrite (Reg.intEn 1) 4 0x5A) stOn)).map (fun g => g.view (Reg.intEn 1)) = some 0x5A := by
  decide +kernel

/-- R9: a W1C bit written 1 is cleared, the others stay. -/
theorem test_register_w1c :
    (gwAfter (exec (.registerWrite Reg.tbFlag 4 0x80000000) { stOn with gw := gwOn.setRegN Reg.tbFlag 0xC0000000 })).map
      (fun g => g.view Reg.tbFlag) = some 0x40000000 := by decide +kernel

/-- R22, R394: at the nominal INCR a tick is 2 ns, 16 units of 125 ps. -/
theorem test_tick_is_two_ns : (gwAfter (step stOn)).map (fun g => (g.tb.tick, g.now)) = some (1, 16) := by decide +kernel

/-- R549: a doorbell write for a DONE mailbox, or for an IDLE one, makes it BUSY. -/
theorem test_doorbell :
    (gwAfter (exec (.mbxDbRing 5 1) stOn)).map (fun g => (g.mbxAt 5).st == .busy) = some true := by decide +kernel

/-- R353, R354: a transmitter's error adds 8 to TEC. -/
theorem test_can_tx_error :
    (gwAfter (exec (.canErrorDetected 0 { code := 3, asTx := true }) { stOn with gw := { gwOn with params := [(Par.canCfg 0, 0)], can := [(0, { tec := 90, pairs := [⟨0, 0, 0, 100, 1, false⟩] })] } })).map
      (fun g => ((g.canAt 0).tec, (g.canAt 0).lec, bit (g.regN (Reg.canFlag 0)) 29)) = some (98, 3, true) := by decide +kernel

/-- R355: beyond 255 the controller is in bus-off. -/
theorem test_can_bus_off :
    (gwAfter (exec (.canErrorDetected 0 { code := 3, asTx := true }) { stOn with gw := { gwOn with params := [(Par.canCfg 0, 0)], can := [(0, { tec := 248, pairs := [⟨0, 0, 0, 100, 1, false⟩] })] } })).map
      (fun g => ((g.canAt 0).busOff, bit (g.regN (Reg.canFlag 0)) 31)) = some (true, true) := by decide +kernel

/-- R374: the classic checksum of 0x01, 0xFF is the inverted sum with carry. -/
theorem test_lin_checksum : linChecksum 0x50 false [0x01, 0xFF] = 0xFE ∧ linChecksum 0x50 true [0x01] = 0xAE := by decide +kernel

/-- The protected identifiers of 0x3C and 0x3D (R374). -/
theorem test_lin_pid : linPid 0x3C = 0x3C ∧ linPid 0x3D = 0x7D := by decide +kernel

/-- R434: the 33rd edge of an input is lost. -/
theorem test_tev_in_full :
    (gwAfter (exec (.tevInEdge 3 true 0) { stOn with gw := (gwOn.setRegN (Reg.tevInCfg 3) 0xE0000000).setTevIn 3 { queue := List.replicate 32 ⟨0, true, 0, 0⟩ } })).map
      (fun g => ((g.tevInAt 3).queue.length, bit (g.regN (Reg.tevInStat 3)) 31, g.regN (Reg.tevInLost 3))) =
      some (32, true, 1) := by decide +kernel

/-- R396: a new INCR waits for its tick. -/
theorem test_incr_waits :
    (gwAfter (exec .incrApply { stOn with gw := { gwOn with tb := { tick := 15, incrNext := [(16, incrMin)] } } })).map
      (fun g => g.tb.incr) = some 0x020000000000 := by decide +kernel

/-- R712: a vector that is not pending sends no message. -/
theorem test_vack_idle : (gwAfter (exec (.intVackWrite 0x80000000) stOn)).map (fun g => g.out) = some [] := by decide +kernel

/-- R702, R8: bytes of a BAR2 write lie at rising addresses. -/
theorem test_bar2 :
    (match exec (.bar2Write 4 [0x11, 0x22]) { stOn with gw := { gwOn with fw := { presence := true } } } with
      | .next t => dramRead t.dram 3 4
      | _ => []) = [0, 0x11, 0x22, 0] := by decide +kernel

/-- A command at the front of the queue leaves it. -/
theorem test_queue :
    (match step { stOn with pending := [.tevInEnt0Read 0, .sysInfo 0] } with
      | .next t => t.pending
      | _ => []) = [.sysInfo 0] := by decide +kernel

/-- FIPS 202: SHA3-256 of the empty message (R493). -/
theorem test_sha3_empty :
    fromBe (sha3x256 []) = 0xA7FFC6F8BF1ED76651C14756A061D662F580FF4DE43B49FA82D80A4B80F8434A := by decide +kernel

/-- FIPS 197, appendix C.3: AES with a 256-bit key (R493). -/
theorem test_aes256 :
    aesNum (roundKeys ((List.range 32).map (BitVec.ofNat 8))) 0x00112233445566778899AABBCCDDEEFF =
      0x8EA2B7CA516745BFEAFC49904B496089 := by decide +kernel

/-- RFC 4493: AES-CMAC of the empty message (R493, R527). -/
theorem test_cmac_empty :
    fromBe (aesCmac (beBytes 16 0x2B7E151628AED2A6ABF7158809CF4F3C) []) = 0xBB1D6929E95937287FA37D129B756746 := by decide +kernel

/-- The GCM specification's test cases 1 and 2: tag of nothing, and one block of zeros (R493). -/
theorem test_gcm :
    fromBe (gcmTag (padTo 16 []) (padTo 12 []) [] []) = 0x58E2FCCEFA7E3061367F1D57A4E7455A ∧
    fromBe (gcmCrypt (padTo 16 []) (padTo 12 []) (padTo 16 [])) = 0x0388DACE60B6A392F328C2B971B2FE78 := by decide +kernel

/-- RFC 3394, section 4.1: 128 bits wrapped under a 128-bit key, and back (R517). -/
theorem test_key_wrap :
    (let k := (List.range 16).map (BitVec.ofNat 8)
     let w : List Byte := beBytes 24 0x1FA68B0A8112B447AEF34BD8FB5A7B829D3E862371D2CFE5
     keyWrap k (beBytes 16 0x00112233445566778899AABBCCDDEEFF) = w ∧
       keyUnwrap k w = some (beBytes 16 0x00112233445566778899AABBCCDDEEFF)) := by decide +kernel

/-- NIST SP 800-185, KMAC sample 4 (R503). -/
theorem test_kmac256 :
    fromBe (kmac256 ((List.range 32).map (fun i => BitVec.ofNat 8 (0x40 + i))) [0, 1, 2, 3] 64
      [0x4D, 0x79, 0x20, 0x54, 0x61, 0x67, 0x67, 0x65, 0x64, 0x20, 0x41, 0x70, 0x70, 0x6C, 0x69, 0x63, 0x61, 0x74, 0x69, 0x6F, 0x6E]) =
      0x20C570C31346F703C9AC36C61C03CB64C3970D0CFC787E9B79599D273A68D2F7F69D4CC3DE9D104A351689F27CF6F5951F0103F33F4F24871024D9C27773A8DD :=
  by decide +kernel

/-! ### IdleStepIsOneTick -/

theorem wit_IdleStepIsOneTick :
    ∃ s : State, s.pending = [] ∧ s.gw.islOn 12 = true ∧ s.gw.tb.step = none ∧ s.gw.tb.stepQueue = [] ∧
      s.gw.tb.incrNext = [] :=
  ⟨stTb, by decide⟩

/-! ### EveryStepKeepsDramForm -/

theorem wit_EveryStepKeepsDramForm : dramWf State.reset.dram = true := by decide

/-! ### ShortResetPulsesIgnored -/

theorem wit_ShortResetPulsesIgnored : 1000 ≤ (1000 : Nat) ∧ (999 : Nat) < 1000 ∧ 100 ≤ (100 : Nat) ∧ (99 : Nat) < 100 :=
  by decide


theorem wit_EndpointRegister : inEndpoint (Reg.msixData 0) = true ∧ Reg.msixData 0 ∉ pba := by decide

/-! ### ResetsKeepWhatTheyMust -/

theorem wit_ResetsKeepWhatTheyMust :
    (∃ s : State, s.gw.pdie.keep = false ∧ s.gw.partN = false) ∧ (∃ s : State, s.gw.pdie.keep = true) ∧
      (∃ s : State, s.gw.aon.testMode ≠ true) ∧ (∃ s : State, s.gw.fw.resetAt = some 0 ∧ 0 ≤ s.gw.tb.tick) ∧
      (State.reset.gw.aon.pwrEn = true ∧ State.reset.gw.aon.released = false ∧ State.reset.gw.aon.testMode = false) ∧
      (∃ s : State, s.gw.aon.pwrEn = true ∧ s.gw.aon.released = false ∧ s.gw.aon.pwrTick + 3277 ≤ s.gw.aon.tick) ∧
      ∃ s : State, s.gw.aon.released = true ∧ s.gw.aon.asleep = false :=
  ⟨⟨State.reset, by decide⟩, ⟨{ stOn with gw := { gwOn with pdie := { keep := true } } }, by decide⟩,
    ⟨State.reset, by decide⟩, ⟨{ stOn with gw := { gwOn with fw := { resetAt := some 0 } } }, by decide⟩, by decide,
    ⟨{ stOn with gw := { gwOn with aon := { tick := 3277 } } }, by decide⟩,
    ⟨{ stOn with gw := { gwOn with aon := { released := true } } }, by decide⟩⟩

/-! ### RailsSleepAndPresence -/

theorem wit_RailsSleepAndPresence :
    (State.reset.gw.aon.pwrEn = true ∧ State.reset.gw.aon.released = false ∧ State.reset.gw.aon.testMode = false) ∧
      (∃ s : State, s.gw.aon.released = true ∧ s.gw.aon.asleep = false) ∧ (∃ s : State, s.gw.commitDue = true) ∧
      (∃ (s : State) (r : WakeRecord), s.gw.aon.asleep = true ∧ s.gw.aon.waking = some r) ∧
      (∃ s : State, s.gw.aon.pwrEn = true ∧ s.gw.aon.released = false ∧ s.gw.aon.pwrTick + 3277 ≤ s.gw.aon.tick) ∧
      State.reset.gw.serving = false :=
  ⟨by decide, ⟨{ stOn with gw := { gwOn with aon := { released := true } } }, by decide⟩,
    ⟨{ stOn with gw := { gwOn with fw := { state := .sleepPrep }, tb := { tick := 30000000000 } } }, by decide⟩,
    ⟨{ stOn with gw := { gwOn with aon := { asleep := true, waking := some ⟨⟨1, 0, 0⟩, false, 0⟩ } } }, ⟨⟨1, 0, 0⟩, false, 0⟩,
      by decide⟩, ⟨{ stOn with gw := { gwOn with aon := { tick := 3277 } } }, by decide⟩, by decide⟩

/-! ### EthernetReceive -/

theorem wit_EthernetReceive :
    stE.gw.carries 0 = true ∧ rx64.verify = false ∧ soundFrame rx64 ∧ stE.gw.secEn 0 = false ∧ rx64.bytes.length ≤ stE.gw.maxFrame 0 ∧
      firstType (stripFcs rx64.bytes) ≠ 0x8808 ∧ stE.gw.roomFor (macFabric 0) rx64.bytes.length := by
  unfold soundFrame Gw.roomFor; decide +kernel

theorem wit_EthernetReceive_errors :
    (withFcs (List.replicate 60 0) ++ [0] ≠ withFcs (stripFcs (withFcs (List.replicate 60 (0 : Byte)) ++ [0]))) ∧
      (withFcs (List.replicate 59 0) = withFcs (stripFcs (withFcs (List.replicate 59 (0 : Byte))))) ∧
      ({ gwE with params := [(Par.ethMode 0, 2 ^ 28), (Par.ethMac 0, 63 * 131072)] } : Gw).maxFrame 0 < rx64.bytes.length := by
  decide +kernel

theorem wit_EthernetReceive_full :
    ∃ g : Gw, g.carries 0 = true ∧ (g.freeCells (cellsOf 64)).isSome = true ∧
      g.allotment (macFabric 0) < g.pendCells (macFabric 0) + cellsOf 64 :=
  ⟨{ gwE with str := { inbound := List.replicate 4 { fport := 0, body := .eth (List.replicate 28 0 |>.flatMap (fun b => List.replicate 256 b)) } } },
    by decide +kernel⟩


theorem wit_EthernetReceive_runt :
    let rx : EthRx := { bytes := withFcs (List.replicate 59 0) }
    stE.gw.carries 0 = true ∧ stE.gw.secEn 0 = false ∧ rx.verify = false ∧ rx.preemptable = false ∧ rx.pcsError = false ∧
      rx.mcrcError = false ∧ rx.bytes = withFcs (stripFcs rx.bytes) ∧ 4 ≤ rx.bytes.length ∧ rx.bytes.length < 64 ∧
      ({ rx with pcsError := true } : EthRx).pcsError = true := by decide +kernel

/-! ### TisReceiveAndPlca -/

/-- S0 enabled as a PLCA follower with MAX_ATT 16, one frame in its buffer, and one copy selected at F12. -/
def gwS : Gw :=
  { gwOn with
    params := [(Par.tisCfg 0, 2 ^ 63 + 2 ^ 62 + 2 ^ 57 + 16 * 65536)]
    tis := [(0, { buffer := [(List.replicate 64 0, none)] })]
    egr := [(12, { selected := [{ copy := { frame := { body := .eth (List.replicate 64 0) }, cells := 1 }, start := 0,
                                   dep := 0, launch := 0 }], reserved := 1, staged := [(0, 0)] })] }

theorem wit_TisReceiveAndPlca :
    gwS.tisOn 0 = true ∧ soundFrame rx64 ∧ rx64.bytes.length ≤ 1518 ∧ firstType (stripFcs rx64.bytes) ≠ 0x8808 ∧
      hasTag (stripFcs rx64.bytes) = false ∧ gwS.tisVid 0 = 0 ∧ gwS.roomFor 12 rx64.bytes.length ∧
      (gwS.egrAt 12).headStaged = true ∧ gwS.badCell 0 none = none ∧
      gwS.plcaFollower 0 = true ∧ (gwS.tisAt 0).fallback = false ∧
      ({ gwS with tb := { tick := 2000000 } } : Gw).tisOn 0 = true ∧ (gwS.tisAt 0).lastBeacon + 4 * ticksPerMs ≤ 2000000 ∧
      (gwS.tisAt 0).attempts + 1 < bits (gwS.tisCfg 0) 20 16 ∧ bit gwS.undefEgress 12 = false ∧
      bit gwS.undefEgress 32 = false ∧ gwS.islOn (stampIsland 12) = true ∧
      gwS.tisMaySend 0 = true ∧ gwS.tisTargets (List.replicate 64 0) = [0] ∧ gwS.tisRoom (List.replicate 64 0) = true := by
  unfold soundFrame Gw.roomFor; decide +kernel

theorem wit_TisReceive_tagged :
    soundFrame { bytes := withFcs (insertTag (List.replicate 60 0) 0 5) } ∧
      hasTag (stripFcs (withFcs (insertTag (List.replicate 60 0) 0 5))) = true := by
  unfold soundFrame; decide +kernel

theorem wit_TisCollision_last :
    let g : Gw := { gwS with tis := [(0, { buffer := [([], none)], attempts := 15 })] }
    (g.tisAt 0).buffer = ([], none) :: [] ∧ bits (g.tisCfg 0) 20 16 ≤ (g.tisAt 0).attempts + 1 := by decide +kernel


theorem wit_TisCollision_running :
    let g := { gwS with str := { run := true }, tis := [(0, { buffer := [([], none)], attempts := 15 })] }
    g.str.run = true ∧ g.tisOn 0 = true ∧ bits (g.tisCfg 0) 20 16 ≤ (g.tisAt 0).attempts + 1 ∧
      (g.tisAt 0).buffer = ([], none) :: [] := by decide +kernel

/-! ### PauseLinkAndVerify -/

theorem wit_PauseLinkAndVerify :
    (stE.gw.ethAt 0).xoffQueue = true :: [] ∧ stE.gw.pauseTx 0 = true ∧ stE.gw.linkUp 0 = true ∧
      max (stE.gw.ethAt 0).wireFree (stE.gw.now + stE.gw.txLat 0) - stE.gw.txLat 0 ≤ stE.gw.nowLast := by
  decide +kernel

theorem wit_PauseControl_received :
    let g : Gw := { gwE with
      cal := { xoff := 1 }
      eth := [(0, { link := true, refreshAt := some 0, pauseUntil := some 0, pauseSince := some (-8184000),
                    ignoreUntil := some 0 })] }
    (g.ethAt 0).refreshAt = some 0 ∧ (0 : Int) ≤ g.nowLast ∧ bit g.cal.xoff 0 = true ∧
      (g.ethAt 0).pauseUntil = some 0 ∧ (g.ethAt 0).pauseSince = some (-8184000) ∧
      (-8184000 : Int) + 8000 * Int.ofNat (bits (g.param (Par.ethPwd 0)) 25 16) ≤ 0 ∧
      (g.ethAt 0).ignoreUntil = some 0 := by decide +kernel

theorem wit_LinkAndVerify :
    (let g : Gw := { gwE with eth := [] }
     g.islOn (macIsland 0) = true ∧ (g.ethAt 0).adminDown = false ∧ (g.ethAt 0).link = false ∧ g.ethMode 0 ≠ 0 ∧
       g.anEn 0 = false) ∧
    (let g : Gw := { gwE with params := [(Par.ethMode 0, 0x18000000)], eth := [] }
     g.ethMode 0 ≠ 0 ∧ g.anEn 0 = true ∧ 100 ≠ g.lineRate 0) ∧
    (stE.gw.ethAt 0).link = true ∧ stE.gw.linkUp 0 = true ∧ stE.gw.preEn 0 = true ∧ stE.gw.verifyEn 0 = true ∧
    (stE.gw.ethAt 0).verify = 1 ∧ (stE.gw.ethAt 0).verifySent < 3 := by decide +kernel

theorem wit_LinkAndVerify_sent :
    let g : Gw := { gwE with eth := [(0, { link := true, verify := 1, verifySent := 3 })] }
    g.linkUp 0 = true ∧ (g.ethAt 0).verify = 1 ∧ 3 ≤ (g.ethAt 0).verifySent := by decide +kernel


theorem wit_LinkDown_running :
    (let g := { gwE with str := { run := true } }
     g.str.run = true ∧ g.islOn (macIsland 0) = true ∧ (g.ethAt 0).link = true) ∧
    gwE.carries 0 = true ∧ ({ rx64 with verify := true } : EthRx).verify = true := by decide +kernel

/-! ### LaunchAndTimestamps -/

/-- A selection of a 64-byte frame. -/
def sel64 : Sel :=
  { copy := { frame := { body := .eth (withFcs (List.replicate 60 0)) }, cells := 1 }, start := 0, dep := 0, launch := 0 }

/-- E0 with link and one frame handed over, and one selected at F0. -/
def gwL : Gw :=
  { gwE with
    eth := [(0, { link := true, jobs := [{ sel := sel64, staged := 0 }], tsArmed := true })]
    egr := [(0, { selected := [sel64], reserved := 1, staged := [(0, 0)] })] }

theorem wit_LaunchAndTimestamps :
    gwL.islOn 0 = true ∧ gwL.islOn (stampIsland 0) = true ∧ wirePort 0 = true ∧
      (gwL.egrAt 0).selected = sel64 :: [] ∧ (gwL.egrAt 0).headStaged = true ∧ gwL.badCell 0 none = none ∧ (gwL.ethAt 0).jobs = { sel := sel64, staged := 0 } :: [] ∧
      gwL.carries 0 = true ∧ (gwL.ethAt 0).xoffQueue = [] ∧ gwL.secEn 0 = false ∧
      (gwL.ethAt 0).wireFree ≤ max (gwL.planned sel64) (0 + gwL.txLat 0) ∧
      max (gwL.planned sel64) (0 + gwL.txLat 0) - gwL.txLat 0 ≤ gwL.nowLast ∧
      gwL.pauseHolds 0 (max (gwL.planned sel64) (0 + gwL.txLat 0)) = false ∧
      (gwL.txBytes 0 sel64.copy.frame.body.bytes).length + 4 ≤ gwL.maxFrame 0 ∧
      bit gwL.undefEgress (macFabric 0) = false ∧ (gwL.ethAt 0).tsArmed = true := by decide +kernel

theorem wit_Launch_discards :
    (let g : Gw := { gwL with eth := [(0, { jobs := [{ sel := sel64, staged := 0 }] })] }
     g.carries 0 = false ∧ (g.launchAt 0 { sel := sel64, staged := 0 }).1 - g.txLat 0 ≤ g.nowLast) ∧
    (let g : Gw := { gwL with params := [(Par.ethMode 0, 2 ^ 28), (Par.ethMac 0, 63 * 131072)] }
     g.carries 0 = true ∧ g.pauseHolds 0 (g.launchAt 0 { sel := sel64, staged := 0 }).1 = false ∧
       g.maxFrame 0 < (g.txBytes 0 sel64.copy.frame.body.bytes).length + 4) := by decide +kernel

theorem wit_Launch_crc :
    let g : Gw := { gwL with cal := { store := [(0, { cells := [5], claims := 1 })],
                                      cells := [(5, { data := List.replicate 64 0, crc := 0, index := 0, inter := 0, slot := 0 })] } }
    (g.egrAt 0).headStaged = true ∧ sel64.copy.frame.tsTag = none ∧ g.badCell 0 none = some (0, 5) := by decide +kernel

/-! ### ArrivalAtStrata -/

def fr0 : Frame := { adm := 0 }

theorem wit_ArrivalAtStrata :
    let g : Gw := { gwOn with str := { run := true, inbound := [fr0] } }
    takeFirst (fun (y : Frame) => y.fport = 0 && y.sub = 0) g.str.inbound = some (fr0, []) ∧ g.str.run = true ∧
      fr0.parent = none ∧ g.isExpress fr0 = false ∧ fr0.seg = g.str.relSeg ∧ g.str.startSeg ≤ fr0.seg ∧
      g.str.startStamp ≤ fr0.adm ∧ fr0.adm ≤ g.now + 8000000 ∧ g.orderNow ≤ fr0.adm + 8 * Int.ofNat g.hNs := by
  decide +kernel

theorem wit_Arrival_late :
    let g : Gw := { gwOn with str := { run := true, startStamp := -9000000, inbound := [{ fr0 with adm := -9000000 }] } }
    g.str.startStamp ≤ (-9000000 : Int) ∧ (-9000000 : Int) + 8 * Int.ofNat g.hNs < g.orderNow ∧
      bit (g.pcfg 0) 8 = false := by decide +kernel

theorem wit_PendingCells :
    let g : Gw := { gwOn with str := { cellWait := [{ fr0 with fport := 21 }] } }
    takeFirst (fun (y : Frame) => y.fport = 21) g.str.cellWait = some ({ fr0 with fport := 21 }, []) ∧
      g.pendCells 21 + cellsOf fr0.len ≤ g.allotment 21 ∧ (g.freeCells (cellsOf fr0.len)).isSome = true := by decide +kernel

/-! ### FrameRelease -/

/-- A run with one frame of the firmware for F3 pending at the frontier. -/
def pend0 : Pend := { frame := { body := .eth (List.replicate 64 0), named := some (8, 0) }, key := { seg := 0, o := 0, port := 0, seq := [0, 0] } }

def gwP : Gw := { gwOn with params := [(Par.calPcfg 3, 100), (Par.catAgeEn, 0)], str := { run := true, pend := [pend0] } }

theorem wit_FrameRelease :
    gwP.readyPend [] = some pend0 ∧ gwP.cal.rets = [] ∧ gwP.captureRings pend0.frame = 0 ∧ (8 : Nat) = 2 ^ 3 ∧
      gwP.admits 3 0 (cellsOf pend0.frame.len) = true := by decide +kernel

theorem wit_FrameRelease_full :
    let g : Gw := { gwP with cal := { occ := [(24, 1000000)] } }
    g.readyPend [] = some pend0 ∧ g.admits 3 0 (cellsOf pend0.frame.len) = false ∧ pend0.frame.ring = none := by
  decide +kernel

/-! ### SweepsAndSegmentClose -/

/-- A catalogue of one dynamic T0 entry, a run, and ageing due at once. -/
def gwA (e : Entry) : Gw :=
  { gwOn with
    params := [(Par.catPart 0, 1)]
    str := { run := true, frontier := 0 }
    cat := { slots := [(0, e)] } }

theorem wit_Sweeps_age :
    ((gwA { hit := true }).readyDue []).map Due.ev = some (.ageing 0 0 (0, 0)) ∧
      ((gwA {}).readyDue []).map Due.ev = some (.ageing 0 0 (0, 0)) ∧
      ((gwA { strike := true }).readyDue []).map Due.ev = some (.ageing 0 0 (0, 0)) := by decide +kernel

theorem wit_Sweeps_vitrine :
    let g : Gw := { gwA { static := true } with params := [(Par.catPart 0, 1), (Par.catVitOff 0, 0), (Par.catVitRepair, 0), (Par.catAgeEn, 0)] }
    (g.readyDue []).map Due.ev = some (.vitrine 0 0 (0, 0)) ∧ g.param Par.catVitRepair = 0 ∧
      vitCompare (g.slot 0) (copyOfBytes 0 (dramRead [] (g.vitAddr ((g.vitOff 0).getD 0) (0 - g.partBase 0)) 64)) = 3 ∧
      g.spoilt (g.vitAddr ((g.vitOff 0).getD 0) (0 - g.partBase 0)) 64 = false ∧
      (g.spoil (g.vitAddr ((g.vitOff 0).getD 0) (0 - g.partBase 0) / 64)).spoilt
        (g.vitAddr ((g.vitOff 0).getD 0) (0 - g.partBase 0)) 64 = true := by
  decide +kernel

theorem wit_Sweeps_vitrineSame :
    let g : Gw := { gwA {} with params := [(Par.catPart 0, 1), (Par.catVitOff 0, 0), (Par.catAgeEn, 0)] }
    (g.readyDue []).map Due.ev = some (.vitrine 0 0 (0, 0)) ∧
      vitCompare (g.slot 0) (copyOfBytes 0 (dramRead [] (g.vitAddr ((g.vitOff 0).getD 0) (0 - g.partBase 0)) 64)) = 0 := by
  decide +kernel

theorem wit_SegmentClose :
    let g : Gw := { gwOn with
      tb := { acc := BitVec.ofNat 104 (2 ^ 100) }, str := { run := true, closing := some { delta := 0, oldDt := 0 } } }
    g.str.closing = some { delta := 0, oldDt := 0 } ∧ g.mayClose [] = true := by decide +kernel

/-! ### ComposerAndTimeouts -/

def pdu0 : Pdu := { desc := { periodMs := 10 }, content := [], enable := 0, nextCyc := some 0, gapRef := 0 }

theorem wit_ComposerAndTimeouts :
    (let g : Gw := { gwOn with str := { run := true }, rtr := { run := true, pdus := [(1, pdu0)] } }
     g.readyDue [] = some ⟨false, 0, 4, 1, 0, .composer 1⟩ ∧ mget? g.rtr.pdus 1 = some pdu0 ∧ pdu0.event = none) ∧
    (let g : Gw := { gwOn with
       str := { run := true }, rtr := { run := true, pdus := [(1, { pdu0 with nextCyc := none, event := some 0 })] } }
     g.readyDue [] = some ⟨false, 0, 4, 1, 1, .pduEvent 1⟩) := by decide +kernel

theorem wit_SignalTimeout (e : Entry) (h : e = {} ∨ e = { w2 := 2 ^ 37 }) :
    let g : Gw := { gwOn with
      str := { run := true }, rtr := { run := true, slots := [(0, { route := 9, deadline := some 0 })] }
      cat := { slots := [(9, e)] } }
    (g.readyDue []).map Due.ev = some (.timeout 0) ∧ (routeOf { w2 := 2 ^ 37 }).tmoMode = 1 ∧ (routeOf {}).tmoMode ≠ 1 := by
  rcases h with rfl | rfl <;> decide +kernel


/-- A timeout of slot 0, whose route is the given entry, due now. -/
def gwTmo (e : Entry) : Gw :=
  { gwOn with
    str := { run := true }, rtr := { run := true, slots := [(0, { route := 9, deadline := some 0 })] }, cat := { slots := [(9, e)] } }

theorem wit_SignalTimeout_modes :
    ((gwTmo {}).readyDue []).map Due.ev = some (.timeout 0) ∧ mget? (gwTmo {}).cat.slots 9 = some {} ∧
      ((gwTmo { w2 := 2 ^ 37 }).readyDue []).map Due.ev = some (.timeout 0) ∧
      mget? (gwTmo { w2 := 2 ^ 37 }).cat.slots 9 = some { w2 := 2 ^ 37 } ∧
      (routeOf {}).tmoMode ≠ 1 ∧ (routeOf { w2 := 2 ^ 37 }).tmoMode = 1 := by decide +kernel

/-! ### AccountedTransmitter -/

def cp0 : Copy := { len := 64, cells := 1 }

/-- F0 with one queued copy, and F1 with a reservation. -/
def gwT : Gw :=
  { gwOn with
    str := { run := true, frontier := 1000000 }
    egr := [(0, { queued := [cp0] }), (1, { queued := [{ cp0 with cr := some 0 }], resv := [{ copy := { cp0 with cr := some 0 }, start := 0, tau := 512 }] })] }

theorem wit_AccountedTransmitter :
    gwT.nextTx 0 (gwT.txLimit []) = some (0, .pick) ∧
      ((gwT.select 0 ((gwT.heads 0 0).filter (fun c => (gwT.candidate 0 c 0).isSome))).map Prod.fst) = some cp0 ∧
      (gwT.candidate 0 cp0 0).isSome = true ∧ gwT.aged 0 cp0 (0 + gwT.tau 0 64) = false ∧
      gwT.nextTx 1 (gwT.txLimit []) = some (0, .serve { copy := { cp0 with cr := some 0 }, start := 0, tau := 512 }) ∧
      gwT.aged 1 { cp0 with cr := some 0 } (0 + 512) = false := by decide +kernel

theorem wit_AccountedTransmitter_discard :
    let g : Gw := { gwT with egr := [(0, { queued := [cp0], gateEn := true, banks := [(0, { entries := [0xFE000064], cycle := 1000 })] })] }
    g.nextTx 0 (g.txLimit []) = some (0, .discard cp0) := by decide +kernel

theorem wit_Scrub :
    let g : Gw := { gwT with params := [(Par.calAge 0, 1)] }
    (g.egrAt 0).queued.find? (fun c => c.tag = 0) = some cp0 ∧ g.ageLimitUs 0 cp0.cls ≠ 0 ∧ cp0.scrubbed = false ∧
      g.translate cp0.frame.ing cp0.frame.ingSeg g.str.relSeg + Int.ofNat (8000 * g.ageLimitUs 0 cp0.cls) < g.str.frontier := by
  decide +kernel


theorem wit_Scrub_settled :
    (let g : Gw := { gwT with params := [(Par.calAge 0, 1)], egr := [(0, { queued := [cp0], idleFrom := 2000000 })] }
     (g.egrAt 0).queued.find? (fun c => c.tag = 0) = some cp0 ∧ g.ageLimitUs 0 cp0.cls ≠ 0 ∧
      g.translate cp0.frame.ing cp0.frame.ingSeg g.str.relSeg + Int.ofNat (8000 * g.ageLimitUs 0 cp0.cls) < g.str.frontier ∧
      g.txSettled (g.str.frontier + 1) = true) := by decide +kernel

/-! ### MailboxDoorbell -/

theorem wit_MailboxDoorbell :
    gwOn.islOn 10 = true ∧ (1 : W32).toNat % 2 = 1 ∧ (gwOn.mbxAt 63).st ≠ .busy ∧
      ((gwOn.setMbx 63 { st := .busy }).mbxAt 63).st = .busy ∧ (gwOn.setMbx 63 { st := .busy }).islOn 10 = true ∧
      (2 : W32).toNat % 2 = 0 := by decide +kernel

/-! ### MailboxTakeUp -/

/-- The module serving, with a request of `code` and payload `ws` rung in mailbox 2. -/
def gwRung (code : Nat) (ws : List Nat) : Gw :=
  { ((gwOn.setRegN (mbxOff 2 0) (code * 65536 + 0x100 + ws.length % 16)).setRegN (mbxOff 2 1) (ws.length / 16)).putWords 2 4 ws with
    mbx := [(2, { st := .busy })], rung := [2], pairs := [(0, { state := 1 }), (1, { state := 1 })],
     boot := { gwOn.boot with stage := 3 }, fw := { gwOn.fw with state := .run } }

theorem wit_MailboxTakeUp :
    let g := gwRung 0x0101 []
    g.boot.stage = 3 ∧ g.fw.state ≠ .handover ∧ g.nextMailbox = some 2 ∧ findCmd (g.reqCode 2) = some ⟨0x0101, stAll, some 0⟩ ∧
      g.reqDir 2 = false ∧ (g.mbxAt 2).last = none := by decide +kernel

theorem wit_TakeUp_unknown : let g := gwRung 0x0999 []
    g.nextMailbox = some 2 ∧ findCmd (g.reqCode 2) = none := by decide +kernel

theorem wit_TakeUp_repeat :
    let g := (gwRung 0x0101 []).setMbx 2 { st := .busy, last := some ⟨0x0101, 1, 0, 5⟩ }
    g.nextMailbox = some 2 ∧ (g.mbxAt 2).last = some ⟨0x0101, 1, 0, 5⟩ ∧ g.reqCode 2 = 0x0101 ∧ g.reqSeq 2 = 1 := by
  decide +kernel

/-! ### ReplyLeavesInMailbox -/

theorem wit_ReplyLeavesInMailbox : (gwRung 0x0101 []).reqCode 2 ≠ 0x0A01 := by decide +kernel

/-! ### ChangesWaitForTheirStamp -/

/-- The module serving, with a taken-up request of `code` and payload `ws` in mailbox 2. -/
def gwMbx (code : Nat) (ws : List Nat) : Gw :=
  { gwRung code ws with mbx := [(2, { st := .busy, taken := true })], rung := [] }

theorem wit_ChangesWait :
    let g := gwMbx 0x0507 [5]
    (Instr.polGet 2, 0x0507) ∈ changeCommands 2 ∧ g.holds 2 0x0507 = true ∧ g.serving = true ∧ g.str.closing = none ∧
      g.reqApply 2 = 0 := by decide +kernel

theorem wit_Changes_late :
    let g := { (gwMbx 0x0507 [5]).setRegN (mbxOff 2 2) 7 with str := { frontier := 9 } }
    g.holds 2 0x0507 = true ∧ g.serving = true ∧ g.reqApply 2 ≠ 0 ∧ (g.reqApply 2 : Int) ≤ g.str.frontier := by
  decide +kernel

/-! ### ChangesTakeEffectInOrder -/

/-- A run whose change of mailbox 2 is due. -/
def gwDue (code : Nat) (ws : List Nat) (c : Change) : Gw :=
  { gwMbx code ws with str := { run := true, frontier := 100, changes := [c] }, params := [(Par.catAgeEn, 0)] }

def ch0 : Change := { t := 50, rank := 2, seq := 0, act := .mailbox 2 }
def chF : Change := { t := 50, rank := 64, seq := 0, act := .firmware (.altFlag 3 true) }

theorem wit_ChangesTakeEffect :
    let g := gwDue 0x0507 [5] ch0
    ((g.readyDue []).map Due.ev = some (.change ch0)) ∧ g.recordWaits ch0 = false ∧ ch0.act = .mailbox 2 ∧
      g.reqCode 2 = 0x0507 ∧ bit (g.arg 2 0) 31 = false ∧ g.cal.rets = [] := by decide +kernel

theorem wit_Changes_firmware :
    let g := gwDue 0x0507 [5] chF
    ((g.readyDue []).map Due.ev = some (.change chF)) ∧ g.recordWaits chF = false := by decide +kernel

theorem wit_Changes_key :
    let g : Gw := { gwDue 0x0A02 [5] ch0 with keys := { pending := [(some 0, .revoke 0)] } }
    ((g.readyDue []).map Due.ev = some (.change ch0)) ∧ g.recordWaits ch0 = true := by decide +kernel

/-! ### RegisterAccessCodes -/

theorem wit_RegisterAccessCodes :
    (findReg (Reg.intEn 7)).map (fun q => (q.1.base, q.2)) = some (Reg.intEn 0, 7) ∧ plainBase (Reg.intEn 0) ∧
      offWindows (Reg.intEn 7) ∧ Reg.intEn 7 % 4 = 0 ∧ gwOn.islOn 14 = true ∧ gwOn.islOn (regIsland (Reg.intEn 7)) = true := by
  refine ⟨by decide +kernel, ?_, ?_, by decide, by decide +kernel, by decide +kernel⟩ <;>
    (simp only [plainBase, offWindows]; decide)

theorem wit_RcRead :
    (findReg Reg.tbStepCnt).map (fun q => (q.1.rc, q.1.base, q.2)) = some (0xFFFFFFFF, Reg.tbStepCnt, 0) ∧
      offWindows Reg.tbStepCnt ∧ Reg.tbStepCnt % 4 = 0 ∧ gwOn.companions Reg.tbStepCnt 0 = [] ∧
      gwOn.queueRead Reg.tbStepCnt 0 = gwOn ∧ gwOn.islOn (regIsland Reg.tbStepCnt) = true := by
  refine ⟨by decide +kernel, ?_, by decide, by decide +kernel, rfl, by decide +kernel⟩
  simp only [offWindows]; decide

theorem wit_NoRegister : (findReg 0x50000).isNone = true ∧ offWindows 0x50000 ∧ gwOn.islOn (regIsland 0x50000) = true := by
  refine ⟨by decide +kernel, ?_, by decide +kernel⟩
  simp only [offWindows]; decide

/-! ### RejectedAccesses -/

theorem wit_RejectedAccesses :
    gwOn.islOn 14 = true ∧ gwOn.islOn (regIsland (0x10021 / 4 * 4)) = true ∧ ¬((4 : Nat) = 4 ∧ 0x10021 % 4 = 0) := by
  decide +kernel

/-! ### SpiRearmingAndMemoryWindow -/

theorem wit_SpiRearmingAndMemoryWindow :
    (findReg (Reg.intEn 0)).map (fun q => (q.1.base, q.2)) = some (Reg.intEn 0, 0) ∧ Reg.intEn 0 < 2 ^ 32 ∧
      gwOn.islOn (regIsland (Reg.intEn 0)) = true ∧ gwOn.noPwr (Reg.intEn 0) = false ∧ byteAt [0x03] 0 ≠ 0x02 ∧ byteAt [0x03] 0 ≠ 0x0B := by decide +kernel

theorem wit_RearmingWindow :
    (let g := ((gwOn.setRegN (Reg.intEn 0) (2 ^ 14)).setRegN Reg.hdmaFlag 1).setRegN (Reg.msixCtl 0) 0
     g.islOn 14 = true ∧ g.pendingVectors.contains 0 = true ∧ g.hostSpi = false ∧ bit (g.regN (Reg.msixCtl 0)) 0 = false ∧
       gwOn.pendingVectors.contains 0 = false) ∧
    (let g := { gwOn with fw := { presence := true } }
     g.hostOn = true ∧ g.islOn 13 = true ∧ g.fw.presence = true ∧ gwOn.fw.presence = false ∧ dramSize - 4 + 4 ≤ dramSize) := by
  decide +kernel


theorem wit_SpiRead :
    offWindows (Reg.intEn 0) ∧ ¬(0x20000 ≤ Reg.intEn 0 ∧ Reg.intEn 0 < 0x30000) ∧ Reg.intEn 0 % 4 = 0 ∧
      (List.replicate 8 (0 : Byte)).length = 8 ∧ gwOn.islOn 14 = true ∧ gwOn.islOn (regIsland (Reg.intEn 0)) = true := by
  unfold offWindows; decide +kernel

/-! ### SystemRows -/

theorem wit_SystemRows :
    (gwMbx 0x0101 []).holds 2 0x0101 = true ∧ (gwMbx 0x0203 []).holds 2 0x0203 = true ∧
      (gwMbx 0x0103 [0]).holds 2 0x0103 = true ∧ bits ((gwMbx 0x0103 [0]).arg 2 0) 1 0 = 0 ∧
      (gwMbx 0x0103 [0x101]).holds 2 0x0103 = true ∧ bits ((gwMbx 0x0103 [0x101]).arg 2 0) 1 0 = 1 ∧ (gwMbx 0x0103 [0x101]).fw.presence = false ∧
      (let g : Gw := { gwMbx 0x0103 [0x101] with fw := { gwOn.fw with running := true, presence := true, state := .run } }
       g.fw.presence = true ∧ g.holds 2 0x0103 = true ∧ bits (g.arg 2 0) 1 0 = 1) ∧
      2 ≤ bits ((gwMbx 0x0103 [2]).arg 2 0) 1 0 := by decide +kernel

theorem wit_RunAndParameters :
    (gwMbx 0x0102 []).holds 2 0x0102 = true ∧
      (let g := gwMbx 0x0201 [1, 0x0101]
       g.holds 2 0x0201 = true ∧ bits (g.arg 2 0) 5 0 = 1 ∧ (g.readIds 2).all (fun i => (findParam i).isSome) = true ∧
         ((g.readIds 2).flatMap g.paramGroup).length ≤ 252) ∧
      (findParam ((gwMbx 0x0201 [1, 0xFFFF]).readIds 2).head!).isNone = true := by decide +kernel

theorem wit_AcceptedParam :
    let g := { gwMbx 0x0202 [1, 0x08810002, 0, 1] with str := { changes := [{ t := 0, rank := 2, seq := 0, act := .mailbox 2 }] } }
    g.reqCode 2 = 0x0202 ∧ ((g.paramSets 2).filter (fun q => q.id = 0x0881)).getLast? = some ⟨0x0881, 2, 2 ^ 32⟩ ∧
      g.acceptedParam 0x0881 = 2 ^ 32 ∧ gwOn.str.changes = [] := by decide +kernel

theorem wit_ParamWrite :
    (let g := gwMbx 0x0202 [1, 0xFFFF0001, 5]
     g.holds 2 0x0202 = true ∧ bits (g.arg 2 0) 5 0 = 1 ∧ g.paramSets 2 = [⟨0xFFFF, 1, 5⟩] ∧
       g.groupStatus (g.paramSets 2) ⟨0xFFFF, 1, 5⟩ = 7) ∧
    (let g := { gwMbx 0x0202 [1, 0x08810002, 0, 1] with fw := { gwOn.fw with state := .config } }
     g.fw.state = .config ∧ g.paramSets 2 = [⟨0x0881, 2, 2 ^ 32⟩] ∧ g.groupStatus (g.paramSets 2) ⟨0x0881, 2, 2 ^ 32⟩ = 0) := by
  decide +kernel

/-! ### CatalogueReads -/

theorem wit_CatalogueReads :
    (let g := { gwMbx 0x0301 [0, 0x55, 0] with fw := { gwOn.fw with state := .config } }
     g.holds 2 0x0301 = true ∧ g.serving = false) ∧
    (let g := { gwMbx 0x0302 [0, 0xFFFFFFFF] with fw := { gwOn.fw with state := .config }, params := [(Par.catPart 0, 1)] }
     g.holds 2 0x0302 = true ∧ g.serving = false ∧ g.arg 2 1 = 0xFFFFFFFF ∧ g.partBase 0 < g.partBase 0 + g.partSize 0) := by
  decide +kernel

theorem wit_Find :
    let e : Entry := { w1 := 5 }
    let g := { gwOn with params := [(Par.catPart 0, 1)], cat := { slots := (List.range 8).map (fun i => (200 + i, e)) } }
    ((g.find 0 (e.key 0)).map (·.2)) = some e := by decide +kernel

/-! ### CatalogueWrites -/

/-- CONFIG, an 1,024-slot partition 0 and a taken-up request. -/
def gwCat (code : Nat) (ws : List Nat) : Gw :=
  { gwMbx code ws with fw := { gwOn.fw with state := .config }, params := [(Par.catPart 0, 1)] }

theorem wit_CatalogueWrites :
    let g := gwCat 0x0303 [0x400, 5, 0, 1, 0, 0, 0, 0, 0, 0, 0, 0, 0]
    let e := g.bodyEntry 2 0 (decide (4 ≤ 0) || bit (g.arg 2 0) 10)
    g.holds 2 0x0303 = true ∧ g.serving = false ∧ bits (g.arg 2 0) 3 0 = 0 ∧ bit (g.arg 2 0) 9 = false ∧ g.entryOk 0 e = true ∧
      g.tableFull 0 e = false ∧ g.capReached 0 none e = false ∧ g.find 0 (e.key 0) = none ∧
      (g.freeSlot (g.bucketSlots 0 (e.key 0))).isSome = true := by decide +kernel

theorem wit_Insert_refused :
    (let g := gwCat 0x0303 [0, 5, 0, 3, 0, 0, 0, 0, 0, 0, 0, 0, 0]
     g.entryOk 0 (g.bodyEntry 2 0 (decide (4 ≤ 0) || bit (g.arg 2 0) 10)) = false) ∧
    (let g := { gwCat 0x0303 [0, 5, 0, 1, 0, 0, 0, 0, 0, 0, 0, 0, 0] with cat := { learned := [(0, 2 ^ 20)] } }
     let e := g.bodyEntry 2 0 (decide (4 ≤ 0) || bit (g.arg 2 0) 10)
     g.entryOk 0 e = true ∧ g.capReached 0 ((g.find 0 (e.key (tableOf 0))).map (·.2)) e = true) := by decide +kernel

theorem wit_Delete :
    let e : Entry := { static := true, w1 := 5, w2 := 1 }
    let g := { gwCat 0x0304 [0, 5, 0, 0, 0, 0, 0, 0, 0] with cat := { slots := [(203, e)] } }
    g.holds 2 0x0304 = true ∧ g.find 0 (g.keyArg 2 0) = some (203, e) ∧ (gwCat 0x0304 [0, 5]).find 0 5 = none := by decide +kernel


/-- A CAT_INSERT in CONFIG whose partition 0 has a vitrine and holds the given slots. -/
def gwInsert (w : Nat) (slots : Map Entry) : Gw :=
  { gwCat 0x0303 [w, 5, 0, 1, 0, 0, 0, 0, 0, 0, 0, 0, 0] with
    params := [(Par.catPart 0, 1), (Par.catVitOff 0, 0)], cat := { slots := slots } }

theorem wit_Insert_again :
    let g := gwInsert 0x400 ((List.range 8).map (fun i => (200 + i, ({ w1 := 5, w3 := 1 } : Entry))))
    let e := g.bodyEntry 2 0 true
    g.holds 2 0x0303 = true ∧ g.serving = false ∧ bits (g.arg 2 0) 3 0 = 0 ∧ bit (g.arg 2 0) 9 = false ∧
      (let h := g.noteEcc 0 (e.key (tableOf 0))
       h.entryOk 0 e = true ∧ h.tableFull 0 e = false ∧ (h.find 0 (e.key (tableOf 0))).isSome = true ∧
         h.capReached 0 ((h.find 0 (e.key (tableOf 0))).map (·.2)) e = false) := by decide +kernel

theorem wit_Insert_vitrine :
    let g := gwInsert 0x600 []
    let e := g.bodyEntry 2 0 true
    g.holds 2 0x0303 = true ∧ g.serving = false ∧ bit (g.arg 2 0) 9 = true ∧ g.vitOff 0 ≠ none ∧ e.static = true ∧
      (let h := g.noteEcc 0 (e.key (tableOf 0))
       h.entryOk 0 e = true ∧ h.tableFull 0 e = false ∧ h.find 0 (e.key (tableOf 0)) = none ∧ h.capReached 0 none e = false ∧
         ((h.freeSlot (h.bucketSlots 0 (e.key (tableOf 0)))).bind (h.vitCopy 0)).isSome = true) := by decide +kernel


theorem wit_CatSearch_hit :
    (let e : Entry := { w1 := 5 }
     let g := { gwCat 0x0301 [0, 5, 0] with cat := { slots := (List.range 8).map (fun i => (200 + i, e)) } }
     g.serving = false ∧ g.holds 2 0x0301 = true ∧ bits (g.arg 2 0) 3 0 ≤ 11 ∧
       (((g.noteEcc 0 (g.keyArg 2 0)).find 0 (g.keyArg 2 0)).map (·.2)) = some e) ∧
    (let g := gwCat 0x0301 [12, 5, 0]
     g.serving = false ∧ g.holds 2 0x0301 = true ∧ 11 < bits (g.arg 2 0) 3 0) := by decide +kernel

/-! ### Flushes -/

theorem wit_Flushes :
    (let g := gwCat 0x0305 [0x150F]
     g.holds 2 0x0305 = true ∧ g.serving = false ∧ bits (g.arg 2 0) 3 0 = 15 ∧ bits (g.arg 2 0) 12 8 = 21 ∧
       g.cat.flushes.length < 4) ∧
    (let g := { gwCat 0x0306 [11] with cat := { flushes := List.replicate 4 ⟨some 2, 0, [], 0⟩ } }
     g.holds 2 0x0306 = true ∧ bits (g.arg 2 0) 3 0 ≤ 11 ∧ 4 ≤ g.cat.flushes.length ∧
       g.cat.flushes[3]? = some ⟨some 2, 0, [], 0⟩) ∧
    (gwCat 0x0306 [11]).cat.flushes.length < 4 := by decide +kernel

/-! ### PduCommands -/

/-- CONFIG with a taken-up request. -/
def gwCfg (code : Nat) (ws : List Nat) : Gw := { gwMbx code ws with fw := { gwOn.fw with state := .config } }

theorem wit_PduCommands :
    (let g := gwCfg 0x0401 [0x80000007, 0x00080000, 0x123, 0x000A0000, 0, 0, 0, 0]
     g.holds 2 0x0401 = true ∧ g.serving = false ∧ (g.pduArg 2).ok = true ∧ bits (g.arg 2 7) 9 0 ≤ 976 ∧
       g.sealedLenOk (g.pduArg 2) = true ∧ g.routesFit 7 (g.pduArg 2).len = true ∧
       g.pduRam 7 + 8 * ceilDiv (g.pduArg 2).len 8 ≤ 262144 ∧
       (let h := { g with rtr := { pdus := [(3, { desc := { len := 262144 }, content := [], enable := 0, gapRef := 0 })] } }
        h.routesFit 7 (h.pduArg 2).len = true ∧ 262144 < h.pduRam 7 + 8 * ceilDiv (h.pduArg 2).len 8)) ∧
    ((gwCfg 0x0401 [7, 0x00090000]).pduArg 2).ok = false := by decide +kernel

theorem wit_PduGet :
    let p : Pdu := { desc := { len := 8 }, content := List.replicate 8 1, enable := 0, gapRef := 0 }
    let g := { gwCfg 0x0402 [7, 2] with rtr := { pdus := [(7, p)] } }
    g.holds 2 0x0402 = true ∧ mget? g.rtr.pdus (bits (g.arg 2 0) 11 0) = some p ∧ bits (g.arg 2 1) 10 0 < p.desc.len ∧
      mget? (gwCfg 0x0402 [7, 2]).rtr.pdus 7 = none ∧
      (let h := gwCfg 0x0403 [5, 0, 1, 0]
       h.holds 2 0x0403 = true ∧ h.rtr.rerouted < 2 ^ 46) := by decide +kernel

/-! ### GateListsLeafMapsAndWeights -/

theorem wit_GateListsLeafMapsAndWeights :
    (let g := gwMbx 0x0501 [0x00010000 + 11, 0xFF000064]
     g.holds 2 0x0501 = true ∧ wirePort (bits (g.arg 2 0) 4 0) = true ∧ bits (g.arg 2 0) 24 16 = 1 ∧ bits (g.arg 2 0) 15 8 = 0 ∧
       bits (g.arg 2 1) 23 0 ≠ 0 ∧ g.commitPending 11 = false ∧
       (g.setEgr 11 { commit := some ⟨none, 5⟩ }).commitPending 11 = true ∧ (g.setEgr 11 { commit := some ⟨none, 5⟩ }).holds 2 0x0501 = true) ∧
    (let g := gwMbx 0x0502 [2]
     (g.setEgr 2 { commit := some ⟨none, 5⟩ }).holds 2 0x0502 = true ∧ g.serving = true ∧
       (g.setEgr 2 { commit := some ⟨none, 5⟩ }).commitPending (bits (g.arg 2 0) 4 0) = true) ∧
    (let g := gwCfg 0x0502 [0x80000002, 8, 0, 1000, 3]
     g.holds 2 0x0502 = true ∧ g.serving = false ∧ g.str.run = false ∧ g.commitOk 2 = true) := by decide +kernel

theorem wit_BankSwitch :
    let g := { (gwMbx 0 []).setEgr 2 { commit := some ⟨none, -9000000⟩ } with str := { run := true, frontier := 0 }, params := [(Par.catAgeEn, 0)] }
    g.commitQueued 2 = false ∧ (-9000000 : Int) ≤ g.now ∧ (-9000000 : Int) - g.lambda8 2 ≤ g.txLimit [] ∧
      (g.nextTx 2 (-9000000 - g.lambda8 2 - 1)).isNone = true := by decide +kernel

/-- Classes 0 to 7 in leaves 0 to 7, whatever the ingress port. -/
def leafWords : List Nat := (List.range 44).map (fun i => if i % 2 = 0 then 0x03020100 else 0x07060504)

theorem wit_LeafMapsAndWeights :
    (let g := { gwCfg 0x0503 (5 :: leafWords) with params := [(Par.egrPort 5, 2 ^ 31)] }
     g.holds 2 0x0503 = true ∧ g.serving = false ∧ bits (g.arg 2 0) 4 0 = 5 ∧ g.hier 5 = true ∧
       leafClash (g.argBytes 2 1 176) = false) ∧
    (let g := { gwCfg 0x0503 [5, 0] with params := [(Par.egrPort 5, 2 ^ 31)] }
     byteAt (g.argBytes 2 1 176) 0 = byteAt (g.argBytes 2 1 176) 1) ∧
    (let g := { gwCfg 0x0504 [5, 0] with params := [(Par.egrPort 5, 2 ^ 31)] }
     g.holds 2 0x0504 = true ∧ g.serving = false ∧ g.hier 5 = true ∧ (gwCfg 0x0504 [5, 0]).hier 5 = false) := by decide +kernel

/-! ### PolicingCommands -/

theorem wit_PolicingCommands :
    (let g := gwCfg 0x0505 [65535, 1, 0x44000]
     g.holds 2 0x0505 = true ∧ g.serving = false ∧ bits (g.arg 2 0) 15 0 + bits (g.arg 2 1) 16 0 ≤ 65536 ∧
       1 ≤ bits (g.arg 2 1) 16 0 ∧ bits (g.arg 2 2) 14 0 ≤ 16384 ∧ bit (g.arg 2 2) 17 = false) ∧
    (let g := gwCfg 0x0505 [65535, 2, 0]
     g.holds 2 0x0505 = true ∧ 65536 < bits (g.arg 2 0) 15 0 + bits (g.arg 2 1) 16 0) ∧
    (let g := gwCfg 0x0506 [16383, 1, 25000000, 16777215]
     g.holds 2 0x0506 = true ∧ g.serving = false ∧ bits (g.arg 2 0) 13 0 + bits (g.arg 2 1) 14 0 ≤ 16384 ∧
       bits (g.arg 2 2) 24 0 ≤ 25000000 ∧ g.str.run = false) ∧
    (let g := gwCfg 0x0507 [2 ^ 31 + 16383]
     g.holds 2 0x0507 = true ∧ g.serving = false ∧ bit (g.arg 2 0) 31 = true ∧ bits (g.arg 2 0) 15 0 < 16384) ∧
    (let g : Gw := { gwOn with str := { run := true } }
     g.str.run = true ∧ (g.meterAt 0).seg = g.str.relSeg ∧ g.str.shift = []) := by decide +kernel

/-! ### PortAndControllerCommands -/

theorem wit_PortAndControllerCommands :
    (let g := gwMbx 0x0601 [0x105]
     g.holds 2 0x0601 = true ∧ bit (g.arg 2 0) 9 = false ∧ bits (g.arg 2 0) 3 0 = 5 ∧ (g.ethAt 5).link = false ∧
       (g.ethAt 5).rateErr = false) ∧
    (let g := { gwMbx 0x0601 [13] with chn := { ports := [(1, { aligned := true })] } }
     g.holds 2 0x0601 = true ∧ bit (g.arg 2 0) 8 = false ∧ (mgetD g.chn.ports (13 - 12) {}).aligned = true) ∧
    (let g := { gwMbx 0x0601 [0x305] with params := [(Par.ethMode 5, 2 ^ 28)] }
     g.holds 2 0x0601 = true ∧ bit (g.arg 2 0) 9 = true ∧ anMode (g.ethMode 5) = true ∧
       anMode ((gwMbx 0x0601 [0x305]).ethMode 13) = false) ∧
    (let g := gwMbx 0x0701 [31]
     g.holds 2 0x0701 = true ∧ (g.canAt 31).busOff = false ∧
       (let h := g.setCan 31 { busOff := true }
        h.holds 2 0x0701 = true ∧ (h.canAt 31).busOff = true ∧ (h.canAt 31).host = false ∧ (h.canAt 31).recovering = false) ∧
       ((g.setCan 31 { busOff := true, host := true }).canAt 31).host = true) ∧
    (let g := gwCfg 0x0708 [2 ^ 31 + 31]
     g.holds 2 0x0708 = true ∧ g.serving = false ∧ bit (g.arg 2 0) 31 = true ∧ (g.canAt 31).host = false ∧
       (g.canAt 31).later = [] ∧ g.regN (Reg.canDwSlot 0) = 0) ∧
    (let g := (gwCfg 0x0708 [31]).setCan 31 { host := true, slot := some 7 }
     g.holds 2 0x0708 = true ∧ bit (g.arg 2 0) 31 = false ∧ (g.canAt 31).host = true ∧ (g.canAt 31).slot = some 7) := by
  decide +kernel


theorem wit_CanOwn_refused :
    (let g := gwMbx 0x0601 [0x30D]
     g.holds 2 0x0601 = true ∧ bit (g.arg 2 0) 9 = true ∧ 11 < bits (g.arg 2 0) 3 0) ∧
    (let g := (gwCfg 0x0708 [2 ^ 31 + 31]).setCan 31 { host := true }
     g.serving = false ∧ g.holds 2 0x0708 = true ∧ bit (g.arg 2 0) 31 = true ∧ (g.canAt 31).host = true) ∧
    (let g := (List.range 8).foldl (fun g k => g.setRegN (Reg.canDwSlot k) 1) (gwCfg 0x0708 [2 ^ 31 + 31])
     g.serving = false ∧ g.holds 2 0x0708 = true ∧ bit (g.arg 2 0) 31 = true ∧ (g.canAt 31).host = false ∧
       ∀ k < 8, g.regN (Reg.canDwSlot k) ≠ 0) := by decide +kernel

/-! ### LinAndFlexRayCommands -/

theorem wit_LinAndFlexRayCommands :
    (let g := { gwCfg 0x0710 [0x30B] with params := [(Par.linCfg 11, 2 ^ 62)] }
     g.holds 2 0x0710 = true ∧ g.serving = false ∧ bits (g.arg 2 0) 3 0 = 11 ∧ bits (g.arg 2 0) 11 8 = 3 ∧
       g.linCmdr 11 = true ∧ g.linLom 11 = false ∧ (g.linAt 11).running = false ∧
       ((g.setLin 11 { running := true }).linAt 11).running = true) ∧
    (let g := gwCfg 0x0710 [0x40B]
     g.holds 2 0x0710 = true ∧ bits (g.arg 2 0) 11 8 ≠ 15 ∧ 3 < bits (g.arg 2 0) 11 8) ∧
    (let g := gwMbx 0x0720 [0x201]
     g.holds 2 0x0720 = true ∧ bits (g.arg 2 0) 2 0 = 1) := by decide +kernel


theorem wit_LinStop_FlxOps :
    (let g := { gwCfg 0x0710 [0xF0B] with params := [(Par.linCfg 11, 2 ^ 62)] }
     g.serving = false ∧ g.holds 2 0x0710 = true ∧ bits (g.arg 2 0) 11 8 = 15 ∧ bits (g.arg 2 0) 3 0 = 11 ∧
       g.linCmdr 11 = true ∧ g.linLom 11 = false ∧ (g.linAt 11).running = false ∧
       ((g.setLin 11 { running := true }).linAt 11).running = true) ∧
    (gwMbx 0x0720 [0x102]).holds 2 0x0720 = true ∧ bits ((gwMbx 0x0720 [0x102]).arg 2 0) 2 0 = 2 ∧
    (gwMbx 0x0720 [0x103]).holds 2 0x0720 = true ∧ bits ((gwMbx 0x0720 [0x103]).arg 2 0) 2 0 = 3 ∧
    (gwMbx 0x0720 [0x104]).holds 2 0x0720 = true ∧ bits ((gwMbx 0x0720 [0x104]).arg 2 0) 2 0 = 4 ∧
    (gwMbx 0x0720 [0x105]).holds 2 0x0720 = true ∧ bits ((gwMbx 0x0720 [0x105]).arg 2 0) 2 0 = 5 := by decide +kernel

/-! ### TimeChainAndRemoteCommands -/

theorem wit_TimeChainAndRemoteCommands :
    (gwMbx 0x0801 [1]).holds 2 0x0801 = true ∧
    (let g := gwMbx 0x0803 [5, 0, 0, 0]
     g.holds 2 0x0803 = true ∧ bit (g.arg 2 3) 0 = false ∧ stepDelta g 2 ≠ 0 ∧ g.tb.servo ≠ .acquiring ∧ g.tb.servo ≠ .locked ∧
       g.str.closing = none ∧ g.tb.step = none ∧ g.tb.stepQueue = []) ∧
    stepDelta (gwMbx 0x0803 [0, 0, 0, 0]) 2 = 0 ∧
    (let g := { gwMbx 0x0803 [5, 0, 0, 1] with params := [(Par.tbTimeRoot, 1)] }
     g.holds 2 0x0803 = true ∧ bit (g.arg 2 3) 0 = true ∧ g.param Par.tbTimeRoot = 1 ∧ stepRefusal g 2 = 0 ∧
       (gwMbx 0x0803 [5, 0, 0, 1]).param Par.tbTimeRoot ≠ 1) ∧
    (gwMbx 0x0901 [0]).holds 2 0x0901 = true := by decide +kernel

theorem wit_ChnRing :
    (let g := gwMbx 0x0902 [1]
     g.holds 2 0x0902 = true ∧ g.ringOwner = false) ∧
    (let g := { gwMbx 0x0902 [1] with params := [(Par.chnRingOwner, 1), (Par.chnRingAuto, 0)], chn := { role := 3 } }
     g.holds 2 0x0902 = true ∧ g.reqApply 2 = 0 ∧ bits (g.arg 2 0) 1 0 = 1 ∧ ringRefusal g 1 = 0) ∧
    (let g := gwMbx 0x0903 [0x10000001, 0, 0]
     g.holds 2 0x0903 = true ∧ execOpsOk g 2 = true ∧ g.freeBridgeSlot = some 16 ∧
       execOpsOk (gwMbx 0x0903 [0x60000001, 0, 0]) 2 = false ∧
       (let h := { g with rmt := { slots := (List.range 16).map (fun i => (i + 16, { state := 1 })) } }
        h.freeBridgeSlot = none ∧ execOpsOk h 2 = true)) := by decide +kernel


/-- A TIME_STEP or a CHN_RING that stands at a ring owner whose failover is by command. -/
def gwStep (chain : Nat) (x : Timebase) : Gw :=
  { gwMbx 0x0803 [5, 0, 0, chain] with params := [(Par.tbTimeRoot, 1)], tb := x }

def gwOwner (op : Nat) (c : Chain) : Gw :=
  { gwMbx 0x0902 [op] with params := [(Par.chnRingOwner, 1), (Par.chnRingAuto, 0)], chn := c }

theorem wit_TimeStep_refused :
    ((gwStep 0 { servo := .locked }).holds 2 0x0803 = true ∧ bit ((gwStep 0 { servo := .locked }).arg 2 3) 0 = false ∧
      stepDelta (gwStep 0 { servo := .locked }) 2 ≠ 0 ∧ (gwStep 0 { servo := .locked }).tb.servo = .locked) ∧
    ((gwStep 1 { servo := .locked }).holds 2 0x0803 = true ∧ bit ((gwStep 1 { servo := .locked }).arg 2 3) 0 = true ∧
      (gwStep 1 { servo := .locked }).param Par.tbTimeRoot = 1 ∧ (gwStep 1 { servo := .locked }).tb.servo = .locked) ∧
    (∀ c ∈ [0, 1], let g := gwStep c { step := some ⟨1, 0, none, none⟩ }
      g.holds 2 0x0803 = true ∧ g.tb.servo ≠ .acquiring ∧ g.tb.servo ≠ .locked ∧ g.tb.step ≠ none ∧ stepDelta g 2 ≠ 0) ∧
    (let g := { gwMbx 0x0803 [0, 0, 0, 1] with params := [(Par.tbTimeRoot, 1)] }
     g.holds 2 0x0803 = true ∧ bit (g.arg 2 3) 0 = true ∧ stepDelta g 2 = 0) := by decide +kernel

theorem wit_ChnRing_refused :
    (let g := gwOwner 1 { role := 3, failedOver := true }
     g.holds 2 0x0902 = true ∧ g.ringOwner = true ∧ g.param Par.chnRingAuto = 0 ∧ bits (g.arg 2 0) 1 0 = 1 ∧ g.chn.failedOver = true) ∧
    (let g := gwMbx 0x0902 [2]
     g.holds 2 0x0902 = true ∧ bits (g.arg 2 0) 1 0 = 2 ∧ g.ringOwner = false) ∧
    (let g := gwOwner 2 { role := 3 }
     g.holds 2 0x0902 = true ∧ g.ringOwner = true ∧ g.param Par.chnRingAuto = 0 ∧ bits (g.arg 2 0) 1 0 = 2 ∧ g.ringBack = false) ∧
    (let g := gwOwner 2 { role := 3, ports := [(0, { state := 1 }), (1, { state := 1 })] }
     g.holds 2 0x0902 = true ∧ g.ringOwner = true ∧ bits (g.arg 2 0) 1 0 = 2 ∧ g.ringBack = true ∧ g.reqApply 2 = 0) ∧
    ((gwMbx 0x0902 [0]).holds 2 0x0902 = true ∧ bits ((gwMbx 0x0902 [0]).arg 2 0) 1 0 = 0) := by decide +kernel

/-! ### KeyCommands -/

theorem wit_KeyCommands :
    (let g := { gwCfg 0x0A01 [0x401] with fw := { gwOn.fw with state := .config, presence := true } }
     g.serving = false ∧ g.holds 2 0x0A01 = true ∧ g.keyStatus 2 g.keys = 0) ∧
    (let g := gwCfg 0x0A03 [70]
     g.holds 2 0x0A03 = true ∧ g.keyStatus 2 g.keys = 7) ∧
    (let g := gwMbx 0x0A03 [70]
     g.serving = true ∧ g.holds 2 0x0A03 = true ∧ g.reqApply 2 = 0 ∧
       g.keyStatus 2 (g.keysAt g.tb.seg (max g.soonest (g.now + 800000))) = 7 ∧
       (let h : Gw := { g with keys := { slots := [(70, { state := 1 })] } }
        h.keyStatus 2 (h.keysAt h.tb.seg (max h.soonest (h.now + 800000))) = 0)) ∧
    (let g := (gwMbx 0x0A03 [70]).setRegN (mbxOff 2 2) 5
     g.serving = true ∧ g.holds 2 0x0A03 = true ∧ g.reqApply 2 ≠ 0 ∧ (g.reqApply 2 : Int) < g.now + 800000) ∧
    (let g : Gw := { gwOn with keys := { pending := [(none, .revoke 70)] } }
     g.islOn 11 = true ∧ g.keys.pending = [(none, .revoke 70)]) ∧
    bit (w32 0x80000401).toNat 31 = true ∧ gwOn.mkaSlot 1 = false ∧ gwOn.fw.presence = false ∧
    (let g := { gwCfg 0x0A01 [0x401] with fw := { gwOn.fw with state := .config, presence := true } }
     g.islOn 11 = true ∧ g.mkaSlot 1 = false ∧ g.holds 2 0x0A01 = true ∧ bits (g.arg 2 0) 5 0 = 1 ∧
       g.provisionSlot 2 = privSlot 0x80000401 []) ∧
    (let g : Gw := { gwOn with params := [(Par.keyMkaSlots, 2)], mka := [(13, { encSlot := some 1, sak := padTo 32 [7] })] }
     g.mkaSlot 1 = true ∧ padTo 32 [7] = ((g.mka.map (·.2.sak)).headD [])) ∧
    (let g := gwCfg 0x0A01 [0x401]; g.holds 2 0x0A01 = true ∧ g.fw.presence = false) := by decide +kernel

theorem wit_RootNewInfoAttest :
    (let g := { gwCfg 0x0A04 [] with fw := { gwOn.fw with state := .config, presence := true }, trngOk := true, keys := { banks := [{ root := some 1, revoked := true }, {}, {}, {}] } }
     g.holds 2 0x0A04 = true ∧ g.fw.presence = true ∧ g.keys.rootStat = 2 ∧ g.keys.banks[1]? = some ⟨none, false⟩ ∧ g.trngOk = true) ∧
    (gwMbx 0x0A05 [4095]).holds 2 0x0A05 = true ∧
    (let g := { gwMbx 0x0A06 (List.replicate 8 0 ++ [64, 0]) with params := [(Par.sysDramHostshMib, 1)], keys := { bank := some 0, banks := [{ root := some 1 }] } }
     g.holds 2 0x0A06 = true ∧ g.arg 2 8 % 64 = 0 ∧ g.arg 2 8 + 4755 ≤ g.regionMib 5 * mib ∧ g.keys.root = some 1) ∧
    (gwMbx 0x0A06 (List.replicate 8 0 ++ [65, 0])).arg 2 8 % 64 ≠ 0 := by decide +kernel


/-- A KEY_DERIVE of slot 70 with a label of 16 bytes for key use 3, in CONFIG or in service. -/
def deriveArgs (parent : Nat) : List Nat := [parent * 4096 + 70, 0x00100301]

/-- A CONFIG in presence or a RUN whose firmware has presence, with the given request standing. -/
def gwKey (serve : Bool) (code : Nat) (ws : List Nat) (ks : KeyStore) : Gw :=
  let g := if serve then gwMbx code ws else gwCfg code ws
  { g with fw := { g.fw with presence := true }, keys := ks }

theorem wit_KeyCommands_config :
    (let g := { gwKey false 0x0A01 [0x401] {} with params := [(Par.keyMkaSlots, 2)] }
     g.serving = false ∧ g.fw.presence = true ∧ g.holds 2 0x0A01 = true ∧ g.keyStatus 2 g.keys ≠ 0) ∧
    (let g := gwKey false 0x0A02 (deriveArgs 5) {}
     g.serving = false ∧ g.holds 2 0x0A02 = true ∧ g.keyStatus 2 g.keys ≠ 0) ∧
    (let g := gwKey false 0x0A02 (deriveArgs 5) { slots := [(5, { state := 1, attr := 3, value := padTo 16 [1] })] }
     g.serving = false ∧ g.holds 2 0x0A02 = true ∧ g.keyStatus 2 g.keys = 0) := by decide +kernel

theorem wit_KeyCommands_service :
    (let g := (gwKey true 0x0A01 [0x401] {}).setRegN (mbxOff 2 2) 5
     g.serving = true ∧ g.fw.presence = true ∧ g.holds 2 0x0A01 = true ∧ g.reqApply 2 ≠ 0 ∧
       (g.reqApply 2 : Int) < g.now + 800000) ∧
    (let g := { gwKey true 0x0A01 [0x401] {} with params := [(Par.keyMkaSlots, 2)] }
     g.serving = true ∧ g.reqApply 2 = 0 ∧ g.keyStatus 2 (g.keysAt g.tb.seg (max g.soonest (g.now + 800000))) ≠ 0) ∧
    (let g := (gwKey true 0x0A02 (deriveArgs 5) {}).setRegN (mbxOff 2 2) 5
     g.serving = true ∧ g.holds 2 0x0A02 = true ∧ g.reqApply 2 ≠ 0 ∧ (g.reqApply 2 : Int) < g.now + 800000) ∧
    (let g := gwKey true 0x0A02 (deriveArgs 5) {}
     g.holds 2 0x0A02 = true ∧ g.reqApply 2 = 0 ∧ g.keyStatus 2 (g.keysAt g.tb.seg (max g.soonest (g.now + 800000))) ≠ 0) ∧
    (let g := gwKey true 0x0A02 (deriveArgs 5) { slots := [(5, { state := 1, attr := 3, value := padTo 16 [1] })] }
     g.holds 2 0x0A02 = true ∧ g.reqApply 2 = 0 ∧ g.keyStatus 2 (g.keysAt g.tb.seg (max g.soonest (g.now + 800000))) = 0) := by
  decide +kernel

/-! ### PowerCommands -/

theorem wit_PowerCommands :
    (let g := gwMbx 0x0B01 [0xFFFF0002, 0x01F400C8]
     g.holds 2 0x0B01 = true ∧ bits (g.arg 2 0) 1 0 = 2 ∧ bits (g.arg 2 1) 25 16 = 500 ∧ bits (g.arg 2 1) 8 0 = 200) ∧
    400 < bits ((gwMbx 0x0B01 [2, 0x01F401F4]).arg 2 1) 8 0 ∧
    (gwMbx 0x0B02 [0xFFFF0000]).holds 2 0x0B02 = true ∧ (gwMbx 0x0B04 []).holds 2 0x0B04 = true ∧
    (let g := gwMbx 0x0B03 [15, 35, 10, 0x00000100, 0x00010000, 0, 0, 0, 0, 0, 0, 0, 0, 0]
     g.holds 2 0x0B03 = true ∧ g.partN = false ∧ (profileOf (g.arg 2)).ok 15 = true ∧ (g.die.seen.chan 15).wants = false ∧
       (g.die.seen.chan 15).out = false ∧ (profileOf ((gwMbx 0x0B03 [15]).arg 2)).ok 15 = false ∧
       ((({} : Pdie).setChan 15 { cmd := 1 }).chan 15).wants = true) := by decide +kernel

/-- The module with a powered power die and one ON channel command under way. -/
def gwDie : Gw :=
  { gwOn with pairs := [(0, { state := 1 }), (1, { state := 1 })],
              die := { toDie := [.set 1 0x8001 0 0 (some 2)], acks := [(2, 1)], sent := [(2, 0)] },
              tb := { tick := 2500000 } }

theorem wit_DieLink :
    gwDie.partN = false ∧ gwDie.pdie.us ≤ 5 ∧ gwDie.die.toDie = [.set 1 0x8001 0 0 (some 2)] ∧ gwDie.pairRuns 1 = true ∧
      gwDie.die.acks = [(2, 1)] ∧ mget? gwDie.die.sent 2 = some 0 ∧ 0 + 2500000 ≤ gwDie.tb.tick := by decide +kernel


theorem wit_PwrSet_off_on_busy :
    ((gwMbx 0x0B01 [0xFFFF0000, 0]).holds 2 0x0B01 = true ∧ bits ((gwMbx 0x0B01 [0xFFFF0000, 0]).arg 2 0) 1 0 = 0) ∧
    ((gwMbx 0x0B01 [0xFFFF0001, 0]).holds 2 0x0B01 = true ∧ bits ((gwMbx 0x0B01 [0xFFFF0001, 0]).arg 2 0) 1 0 = 1) ∧
    (let g := { gwMbx 0x0B03 [15, 35, 10, 0x00000100, 0x00010000, 0, 0, 0, 0, 0, 0, 0, 0, 0] with
                  die := { seen := ({} : Pdie).setChan 15 { cmd := 1 } } }
     g.partN = false ∧ g.holds 2 0x0B03 = true ∧ bits (g.arg 2 0) 3 0 = 15 ∧ (profileOf (g.arg 2)).ok 15 = true ∧
       (g.die.seen.chan 15).wants = true) := by decide +kernel

/-! ### HeartbeatHoldAndSupply -/

theorem wit_HeartbeatHoldAndSupply :
    let g := { gwDie with die := {} }
    g.partN = false ∧ g.pdie.us ≤ 10 ∧ g.pairRuns 1 = true ∧ g.die.hbTick = none ∧ g.ho = none ∧ g.pdie.hold = false ∧
      g.pdie.keeper = false ∧ g.pdie.lastHb + 3000 * g.pdie.hbMs ≤ 300000 ∧ g.pdie.holdMs ≠ 0 ∧ g.pdie.supply ≠ 1 ∧
      g.pdie.lastStatus + 500 ≤ 500 := by decide +kernel

theorem wit_Hold :
    let g := { gwDie with pdie := { hold := true, hbBack := true, supply := 1, keeper := true } }
    g.pdie.hold = true ∧ g.pdie.safeDone = false ∧ g.pdie.holdFrom + 1000 * g.pdie.holdMs ≤ 100000000 ∧
      g.pdie.hbBack = true ∧ g.pdie.supply ≠ 0 ∧ g.pdie.keeper = true ∧ (g.pdie.chan 15).latched = false := by decide +kernel


theorem wit_Hold_supplied :
    (let g := { gwDie with pdie := { hold := true } }
     g.partN = false ∧ g.pdie.hold = true ∧ g.pdie.safeDone = false ∧ g.pdie.supply = 0 ∧ g.pdie.us ≤ 100000000 ∧
       g.pdie.holdFrom + 1000 * g.pdie.holdMs ≤ 100000000) ∧
    (let g := { gwDie with pdie := { disc := true } }
     g.partN = false ∧ g.pairRuns 1 = true ∧ g.pdie.disc = true ∧ g.pdie.us ≤ 500 ∧ g.pdie.lastStatus + 500 ≤ 500) := by decide +kernel

/-! ### ChannelProtection -/

/-- A power die with channel 15 in a given state. -/
def gwCh (c : PdChan) : Gw := { gwDie with pdie := ({} : Pdie).setChan 15 c }

theorem wit_ChannelProtection :
    (let g := gwCh { cmd := 1, out := true, prof := { ilim := 500 } }
     g.partN = false ∧ (g.pdie.chan 15).out = true ∧ (g.pdie.chan 15).limit = false ∧ (g.pdie.chan 15).limitMa 15 5 ≤ 5000) ∧
    (let g := gwCh { cmd := 1, out := true, limit := true, limitEv := true, limitFrom := 5 }
     (g.pdie.chan 15).limit = true ∧ (g.pdie.chan 15).limitFrom + 100 ≤ 105 ∧ (g.pdie.chan 15).latched = false ∧
       (g.pdie.chan 15).prof.typ ≠ 4) ∧
    (let g := gwCh { cmd := 1, out := true, blankFrom := some 0, prof := { typ := 1 } }
     (g.pdie.chan 15).blankFrom = some 0 ∧ 0 + (g.pdie.chan 15).prof.blanking ≤ 2000) ∧
    (let g := gwCh { cmd := 1, latched := true, cause := 2, retriesLeft := 1, prof := { policy := 1 } }
     (g.pdie.chan 15).latched = true ∧ 0 < (g.pdie.chan 15).retriesLeft ∧ (g.pdie.chan 15).mayRestart 1000000 1500 = true) ∧
    (let g := gwCh { cmd := 1, out := true, onFrom := some 0, prof := { policy := 1, olMa := 10 } }
     (g.pdie.chan 15).onFrom = some 0 ∧ (g.pdie.chan 15).evaluates = true ∧ (g.pdie.chan 15).olStart + 1000 * (g.pdie.chan 15).prof.olMs ≤ 60000000 ∧
       (g.pdie.chan 15).openLoad = false) ∧
    (let g := gwCh { cmd := 2, duty := 500, freq := 200, out := true, pwmFrom := some 0, actFreq := 200 }
     g.pdie.constant 15 (g.pdie.chan 15) = false ∧ (g.pdie.chan 15).pwmFrom = some 0 ∧
       periodStart 15 (max 1 (g.pdie.chan 15).actFreq) 0 ≤ 10000) ∧
    ({ gwDie with pdie := { frozen := true } } : Gw).pdie.frozen = true := by decide +kernel


theorem wit_Channel_latched :
    (let g := gwCh { cmd := 1, out := true, limit := true, limitFrom := 5, latched := true }
     g.partN = false ∧ (g.pdie.chan 15).latched = true ∧ (g.pdie.chan 15).limit = true ∧
       (g.pdie.chan 15).limitFrom + 10 ≤ 15 ∧ (g.pdie.chan 15).prof.typ ≠ 4) ∧
    (let g := gwCh { cmd := 1, latched := true, cause := 3, latchAt := 0, retriesLeft := 1, prof := { policy := 1 } }
     (g.pdie.chan 15).latchAt + 1000000 ≤ 1000000 ∧ (g.pdie.chan 15).mayRestart 1000000 0 = true) ∧
    (let g := gwCh { cmd := 1, out := true, onFrom := some 0, prof := { policy := 1 } }
     g.pdie.us ≤ 60000000 ∧ (g.pdie.chan 15).latched = false ∧ (g.pdie.chan 15).onFrom = some 0 ∧ 0 + 60000000 ≤ 60000000) := by
  decide +kernel

/-- At a fuse state of 1 and its rated square current a channel's fuse state stays 1, whatever the wire's constant. -/
theorem wit_Fuse_blows :
    let c : PdChan := { cmd := 1, out := true, w := 1 }
    let g := gwCh c
    g.partN = false ∧ g.pdie.lastFuse + 100 ≤ 100 ∧ (g.pdie.chan 15).latched = false ∧
      1 ≤ (g.pdie.chan 15).nextW 15 ((List.replicate 16 (c.prof.ratedSq 15).num.toNat).getD 15 0) := by
  refine ⟨by decide +kernel, by decide +kernel, by decide +kernel, ?_⟩
  show (1 : ℚ) ≤ Config.fuseAlpha _ * 1 + (1 - Config.fuseAlpha _) * (_ / _)
  have h : ∀ x y : ℚ, x = y → y ≠ 0 → ∀ a : ℚ, (1 : ℚ) ≤ a * 1 + (1 - a) * (x / y) := by
    intro x y e n a; rw [e, div_self n]; linarith
  exact h _ _ (by decide +kernel) (by decide +kernel) _

/-! ### NetworkSleepAndWake -/

/-- The module in service with one NM bus, CAN 0, on which nothing has been heard. -/
def gwNm : Gw :=
  { gwOn with pairs := [(0, { state := 1 }), (1, { state := 1 })], fw := { gwOn.fw with state := .run },
              params := [(Par.nmCanMask, 1), (Par.nmEthMask, 0), (Par.nmWakePins, 0)] }

theorem wit_NetworkSleepAndWake :
    (gwMbx 0x0C01 []).holds 2 0x0C01 = true ∧ (gwMbx 0x0C01 []).serving = true ∧ (gwMbx 0x0C02 [1]).holds 2 0x0C02 = true ∧
    bit ((gwMbx 0x0C02 [1]).arg 2 0) 0 = true ∧ (gwMbx 0x0C03 [0]).holds 2 0x0C03 = true ∧ (gwMbx 0x0C04 []).holds 2 0x0C04 = true ∧
    gwNm.serving = true ∧ gwNm.inService = true ∧ gwNm.pairRuns 1 = true ∧ gwNm.nmBuses = [0] ∧ gwNm.quiet 0 = true ∧
    gwNm.ownNeed = false ∧
    (let g := { gwNm with nm := { deadlines := [(0, (5000, 0))] }, tb := { tick := 500000000 } }
     g.quiet 0 = false ∧ g.nm.checkTick + g.param Par.nmKaPeriodMs * 500000 ≤ g.tb.tick ∧ g.ownNeed = false ∧ g.nm.heard = [] ∧
       g.now < g.translate g.now 0 g.tb.seg + g.nmTimeout) ∧
    (let g := { gwNm with nm := { awake := true }, params := [(Par.nmCanMask, 1), (Par.nmEthMask, 0)] }
     g.ownNeed = true ∧ g.nmBuses = [0] ∧ g.nm.kaTick = none) := by decide +kernel

theorem wit_Commit :
    ({ gwOn with fw := { state := .sleepPrep }, tb := { tick := 30000000000 } } : Gw).commitDue = true ∧
      (let g : Gw := { gwOn with aon := { asleep := true, waking := some ⟨⟨1, 0, 0⟩, false, 0⟩ } }
       g.aon.asleep = true ∧ g.aon.waking = some ⟨⟨1, 0, 0⟩, false, 0⟩) ∧ gwOn.commitDue = false := by decide +kernel

theorem wit_Wake :
    (let g : Gw := { gwOn with aon := { asleep := true, wakePins := 1, pins := 1, pinsBefore := 1, wakeOther := 0x101, decoders := [(7, 0x80)] } }
     g.aon.asleep = true ∧ g.aon.waking = none ∧ g.listening = true ∧
       bit (activePins g.aon.wakePins g.aon.pins &&& activePins g.aon.wakePins g.aon.pinsBefore) 0 = true ∧
       bit g.aon.wakeOther 0 = true ∧ bit g.aon.wakeOther (8 + 0) = true ∧ bit g.aon.phys 0 = false ∧ bit g.aon.physBefore 0 = false ∧
       wdecMatches (mgetD g.aon.decoders 7 0) {} true = true) := by decide +kernel


/-- The module on its way to sleep, from RUN, with a keep-alive from a node that needs the network not yet handled. -/
def gwHeard (st : FwState) : Gw :=
  { gwNm with fw := { state := st, back := .run, running := true },
              nm := { inbox := [{ bus := 0, bytes := [0x10, 1, 0, 0, 0, 0, 0, 0], stamp := 0, seg := 0 }] } }

theorem wit_NmStay_and_keepalive :
    (let g := { gwMbx 0x0C02 [1] with fw := { state := .sleepPrep, back := .run } }
     g.fw.state = .sleepPrep ∧ g.fw.back ≠ .sleepPrep ∧ g.holds 2 0x0C02 = true ∧ bit (g.arg 2 0) 0 = true) ∧
    (let g := gwHeard .run
     let k : NmHeard := { bus := 0, bytes := [0x10, 1, 0, 0, 0, 0, 0, 0], stamp := 0, seg := 0 }
     g.inService = true ∧ g.pairRuns 1 = true ∧ g.str.shift = [] ∧ g.nm.inbox = k :: [] ∧ byteAt k.bytes 0 / 16 = 1 ∧
       byteAt k.bytes 1 % 2 = 1 ∧ k.seg = g.tb.seg ∧ g.fw.state ≠ .sleepPrep) ∧
    ((gwHeard .sleepPrep).inService = true ∧ (gwHeard .sleepPrep).fw.state = .sleepPrep ∧ (gwHeard .sleepPrep).fw.back ≠ .sleepPrep) := by
  decide +kernel

theorem wit_Insomnia_heard :
    let n : NmNode := { node := 9, bus := 0, stamp := 8000000000, seg := 0 }
    let g := { gwNm with nm := { deadlines := [(0, (5000, 0))], heard := [n] }, tb := { tick := 500000000 } }
    g.serving = true ∧ g.pairRuns 1 = true ∧ g.ownNeed = false ∧ g.nm.checkTick + g.param Par.nmKaPeriodMs * 500000 ≤ g.tb.tick ∧
      g.nm.heard = [n] ∧ g.now < g.translate n.stamp n.seg g.tb.seg + g.nmTimeout ∧ g.nmBuses.contains 0 = true ∧
      g.quiet 0 = false := by decide +kernel

theorem wit_WakeSample_event :
    let g : Gw := { gwOn with aon := { asleep := true, events := [⟨2, 1, 0⟩] } }
    g.aon.asleep = true ∧ g.aon.waking = none ∧ g.aon.events = [⟨2, 1, 0⟩] := by decide

/-! ### ArchiveAndCapture -/

theorem wit_ArchiveAndCapture :
    (let g := { gwCfg 0x0D01 [3] with params := [(Par.arcRing 3, 2 ^ 63)] }
     g.holds 2 0x0D01 = true ∧ g.serving = false ∧ g.arcEn 3 = true ∧ (g.arcAt 3).mark = none ∧
       (gwCfg 0x0D01 [3]).arcEn 3 = false) ∧
    (let g := { gwCfg 0x0D02 [3] with params := [(Par.arcRing 3, 2 ^ 63)], arc := { rings := [(3, { mark := some (0, 0) })] } }
     g.holds 2 0x0D02 = true ∧ g.arcEn 3 = true ∧ (g.arcAt 3).mark.isSome = true) ∧
    (let g := { gwCfg 0x0D03 [3, 0, 0, 5, 500, 0] with params := [(Par.arcRing 3, 2 ^ 63)], arc := { rings := [(3, { recs := [(0, 96)] })] } }
     g.holds 2 0x0D03 = true ∧ bit (g.arg 2 0) 31 = false ∧ g.arc.play = none ∧ 500 ≤ g.arg64 2 4 ∧ g.arcPos 3 (g.arg64 2 1) = some 0) ∧
    (let g := gwCfg 0x0D03 [2 ^ 31]
     g.holds 2 0x0D03 = true ∧ bit (g.arg 2 0) 31 = true) ∧ (gwMbx 0x0D04 [0]).holds 2 0x0D04 = true := by decide +kernel

theorem wit_Playback :
    let g : Gw := { gwOn with str := { run := true }, arc := { play := some { ring := 0, pos := 0, left := some 2, bytes := 64, pass := 500 } } }
    g.str.run = true ∧ g.islOn 14 = true ∧ g.str.cellWait.any (fun y => y.fport = 20) = false ∧
      (let h := dramRead (dramWrite [] (g.arcBaseMib 0 * mib) ([0, 0, 1, 0] ++ List.replicate 28 0)) (g.arcBaseMib 0 * mib + g.arcOff 0 0) 32
       byteAt h 2 = 1 ∧ bit (byteAt h 3) 3 = false ∧ fromLe (slice h 0 2) ≤ 16384 ∧
       g.spoilt (g.arcBaseMib 0 * mib + g.arcOff 0 0) (32 + fromLe (slice h 0 2)) = false ∧ asI64 (fromLe (slice h 16 8)) + 8 * (500 : Int) ≤ g.now + 8000000) := by
  decide +kernel

theorem wit_Capture :
    let g : Gw := { gwOn with capFifo := [(45, { bytes := [1, 2], lost := 3 })] }
    0 < (g.fifo 45).lost ∧ (g.fifo 45).bytes.length + 12 ≤ 4096 ∧ (g.fifo 45).bytes ≠ [] ∧ (g.fifo 0).bytes = [] := by
  decide +kernel


/-- A playback session at the start of ring 0 and a record there of the given kind, flags, sequence 5 and length 64. -/
def stPlay (p : Playback) (kind flags : Nat) (len : Nat) : State :=
  let g : Gw := { gwOn with str := { run := true }, arc := { play := some p } }
  { gw := g, pending := [],
    dram := dramWrite [] (g.arcBaseMib 0 * mib) (leBytes 2 len ++ [BitVec.ofNat 8 kind, BitVec.ofNat 8 flags] ++ leBytes 4 5 ++ List.replicate 24 0) }

theorem wit_Playback_ends :
    (let p : Playback := { ring := 0, pos := 0, left := some 0, bytes := 64, pass := 500 }
     (stPlay p 1 0 64).gw.arc.play = some p ∧ (stPlay { p with left := none, bytes := 0 } 1 0 64).gw.islOn 14 = true) ∧
    (let p : Playback := { ring := 0, pos := 0, left := some 2, bytes := 64, pass := 500, lastSeq := some 7 }
     let h := fun (s : State) => dramRead s.dram (s.gw.arcBaseMib 0 * mib + s.gw.arcOff 0 0) 32
     byteAt (h (stPlay p 2 0 64)) 2 = 2 ∧ byteAt (h (stPlay p 1 0 64)) 2 = 1 ∧ fromLe (slice (h (stPlay p 1 0 64)) 4 4) ≠ (7 + 1) % 4294967296 ∧
       16384 < fromLe (slice (h (stPlay { p with lastSeq := some 4 } 1 0 16385)) 0 2) ∧
       bit (byteAt (h (stPlay { p with lastSeq := none } 1 0 64)) 3) 3 = false) := by decide +kernel

theorem wit_Archive_locked :
    (let g := { gwCfg 0x0D01 [3] with params := [(Par.arcRing 3, 2 ^ 63)], arc := { rings := [(3, { mark := some (0, 0) })] } }
     g.holds 2 0x0D01 = true ∧ g.arcEn 3 = true ∧ (g.arcAt 3).mark.isSome = true) ∧
    (let g := { gwCfg 0x0D03 [3, 0, 0, 5, 500, 0] with arc := { play := some { ring := 0, pos := 0, left := none, bytes := 0, pass := 500 } } }
     g.holds 2 0x0D03 = true ∧ g.arc.play.isSome = true) := by decide +kernel

/-! ### UpdateSessions -/

def ses0 : UpdSession := { num := 1, kind := 0, base := 0, new := 1, blocks := 1, target := 0 }

theorem wit_UpdateSessions :
    (let g := { gwMbx 0x0E01 [0, 0, 0, 1] with flash := { slots := [(0, .image [])] } }
     g.arg 2 1 = g.fwVersion % 4294967296 ∧ g.holds 2 0x0E01 = true ∧ bits (g.arg 2 0) 27 16 = 0 ∧ bits (g.arg 2 3) 15 0 = 1 ∧ g.upd.session = none ∧
       1 * 4128 ≤ g.regionMib 4 * mib) ∧
    bits ((gwMbx 0x0E01 [0, 0, 0, 0]).arg 2 3) 15 0 = 0 ∧
    (let g := gwMbx 0x0E05 [1]
     g.holds 2 0x0E05 = true ∧ g.sessionAt (bits (g.arg 2 0) 7 0) = none ∧ g.remoteAt (bits (g.arg 2 0) 7 0) = none) ∧
    (let g := { gwMbx 0x0E02 ([1, 0, 960] ++ List.replicate 240 0) with upd := { session := some ses0 } }
     g.holds 2 0x0E02 = true ∧ g.sessionAt (bits (g.arg 2 0) 7 0) = some ses0 ∧ g.chunkOk 2 0 = true ∧
       (g.chunk 2).length ≠ 4128) := by decide +kernel

theorem wit_Activate :
    (let g := { gwMbx 0x0E04 [1] with upd := { session := some { ses0 with kind := 1, phase := 1 } } }
     g.holds 2 0x0E04 = true ∧ g.sessionAt (bits (g.arg 2 0) 7 0) = some { ses0 with kind := 1, phase := 1 }) ∧
    (let g := { gwMbx 0x0E04 [1] with upd := { session := some { ses0 with phase := 1 } } }
     g.sessionAt (bits (g.arg 2 0) 7 0) = some { ses0 with phase := 1 } ∧ g.farNeighbour (pkgChain []) = false) := by
  decide +kernel

theorem wit_UpdMessages :
    (let m : SideMsg := { cls := 3, typ := 8, dst := gwDie.chnAddr, src := 5, hops := 9, body := [1] }
     let g := { gwDie with chn := { inbox := [{ port := 0, mark := 0, msg := m }] }, upd := { waits := [{ mbx := 2, target := 5, typ := 3, tick := 0 }] }, tb := { tick := 10 ^ 10 } }
     g.pairRuns 1 = true ∧ m.cls = 3 ∧ m.typ = 8 ∧ g.updLimit 3 ≤ g.tb.tick) := by decide +kernel


/-- A block of zeros, whose check is wrong. -/
def badBlock : List Byte := List.replicate 4128 0

/-- The last 960 bytes of block 0, the given words, arrive as its last chunk. -/
def gwLastChunk (ws : List Nat) : Gw :=
  { gwMbx 0x0E02 ([1, 3168, 960] ++ ws) with upd := { session := some { ses0 with parts := [(0, List.replicate 3168 0)] } } }

theorem wit_UpdBlock_bad :
    let g := gwLastChunk (List.replicate 240 0)
    g.holds 2 0x0E02 = true ∧ (g.sessionAt (bits (g.arg 2 0) 7 0)).isSome = true ∧ bits (g.arg 2 0) 22 8 = 0 ∧
      g.chunkOk 2 3168 = true ∧ (g.chunk 2).length + 3168 = 4128 := by decide +kernel

theorem wit_UpdCommands :
    (let g := { gwMbx 0x0E01 [0, 0, 0, 1] with upd := { session := some ses0 } }
     g.holds 2 0x0E01 = true ∧ g.upd.session.isSome = true ∧ bits (g.arg 2 0) 27 16 = 0 ∧ bits (g.arg 2 3) 15 0 = 1) ∧
    ((gwMbx 0x0E03 [1]).holds 2 0x0E03 = true ∧ (gwMbx 0x0E03 [1]).sessionAt 1 = none ∧ (gwMbx 0x0E03 [1]).remoteAt 1 = none) ∧
    ((gwMbx 0x0E06 [1]).holds 2 0x0E06 = true ∧ (gwMbx 0x0E06 [1]).sessionAt 1 = none ∧ (gwMbx 0x0E06 [1]).remoteAt 1 = none) ∧
    (∀ q ∈ [(0x0E03, 0), (0x0E04, 0), (0x0E05, 0), (0x0E06, 0)],
      let g := { gwMbx q.1 [1] with upd := { session := some ses0 } }
      g.holds 2 q.1 = true ∧ g.sessionAt (bits (g.arg 2 0) 7 0) = some ses0 ∧ mget? ses0.received q.2 = none ∧ ses0.phase ≠ 1 ∧ q.2 < ses0.blocks) ∧
    (let u := { ses0 with received := [(0, [])] }
     let g := { gwMbx 0x0E03 [1] with upd := { session := some u } }
     g.holds 2 0x0E03 = true ∧ g.sessionAt (bits (g.arg 2 0) 7 0) = some u ∧ u.blocks = 1 ∧ mget? u.received 0 ≠ none) := by decide +kernel

/-- A block of another module's session arrives for a target beyond this one. -/
theorem wit_UpdBlock_passing :
    let m : SideMsg := { cls := 3, typ := 2, dst := 9, src := 5, hops := 9, body := [7, ((0 : Nat) : Int)] ++ badBlock.map (fun b => Int.ofNat b.toNat) }
    let g := { gwDie with chn := { inbox := [{ port := 0, mark := 0, msg := m }], reach := [(9, { hops1 := some (1, 0) })] } }
    g.pairRuns 1 = true ∧ m.cls = 3 ∧ m.typ = 2 ∧ m.dst ≠ g.chnAddr ∧
      ({ g with chn := { g.chn with inbox := [] } } : Gw).routeTo 9 = some 1 := by decide +kernel

/-! ### BootAndHandover -/

theorem wit_BootAndHandover :
    (let g : Gw := { isl := [(10, 1), (14, 1), (15, 1)], boot := { stage := 1 }, aon := { released := true }, flash := { slots := [(0, .delivered)] } }
     g.boot.stage = 1 ∧ g.aon.released = true ∧ g.aon.testMode = false ∧ g.mustReset = false ∧ g.aon.bootSel ≠ 3 ∧
       g.bootChoice = some (0, false) ∧ ({ g with flash := { slots := [] } } : Gw).bootChoice = none) ∧
    (let g : Gw := { gwOn with boot := { stage := 2 }, fw := { running := true }, flash := {} }
     g.fw.running = true ∧ g.flash.faultSlot = [] ∧ g.mustReset = false ∧ g.flash.cfg = []) ∧
    (let g : Gw := { gwOn with ho := some { epoch := -1 }, fw := { state := .handover, running := true }, pairs := [(0, { state := 1 }), (1, { state := 1 })] }
     (-1 : Int) ≤ g.now ∧ g.pairState 0 = 1 ∧ (g.setPair 0 3).pairState 0 = 3 ∧ (g.setPair 0 3).pairState 1 = 1) := by
  decide +kernel

theorem wit_HandoverEnds :
    (let h : Handover := { epoch := 0, started := true, mbx := some 2, slot := 1, pairsNew := 3, heartbeat := true }
     let g : Gw := { gwOn with ho := some h, fw := { state := .handover, running := true, back := .run }, nm := { awake := true }, pairs := [(0, { state := 1 }), (1, { state := 1 })] }
     g.healthy h = true ∧ g.deferred = [] ∧ g.chn.faultBy = none ∧ g.fw.back = .run ∧ g.keys.loopOpen = false ∧
       g.healthFailed { h with failed := true } = true) ∧
    bits (w32 0x80000000).toNat 15 0 = 0 ∧ bit (w32 0x80000001).toNat 31 = true := by decide +kernel


theorem wit_BootAndHandover_more :
    (let h : Handover := { epoch := 0, started := true, mbx := some 2, slot := 1 }
     let g : Gw := { gwOn with ho := some h, fw := { state := .handover, running := true }, pairs := [(0, { state := 3 }), (1, { state := 1 })] }
     g.ho = some h ∧ h.started = true ∧ g.pairState 0 = 3 ∧ g.pairState 1 = 1) ∧
    (let h : Handover := { epoch := 0, started := true, mbx := some 2, slot := 1, failed := true }
     let u : UpdSession := { num := 1, kind := 0, base := 0, new := 0, blocks := 0, phase := 2 }
     let g : Gw := { gwOn with ho := some h, fw := { state := .handover, running := true, back := .run }, nm := { awake := true },
                               upd := { session := some u }, pairs := [(0, { state := 1 }), (1, { state := 1 })] }
     g.healthFailed h = true ∧ g.deferred = [] ∧ g.chn.faultBy = none ∧ g.keys.loopOpen = false) ∧
    (let g : Gw := { gwOn with boot := { stage := 4 }, aon := { released := true } }
     g.boot.stage = 4 ∧ bit (0x80000000 : W32).toNat 31 = true ∧ bits (0x80000000 : W32).toNat 15 0 = 0) := by decide +kernel

/-! ### FaultHandling -/

def gwPairs : Gw := { gwOn with pairs := [(0, { state := 1 }), (1, { state := 1 })], aon := { released := true } }

def rep3 : ErrReport := { kind := 3, detail := 0, island := 11, unit := 7 }

theorem wit_FaultHandling :
    gwPairs.pairState 0 = 1 ∧ gwPairs.pairState 1 = 1 ∧ gwPairs.islOn 10 = true ∧ gwPairs.handing = false ∧
    (gwPairs.setPair 1 4).pairState 1 ≠ 1 ∧ gwPairs.aon.released = true ∧ gwPairs.aon.testMode = false ∧
    (let g := { gwPairs with detected := [rep3] }
     g.pairRuns (g.handler rep3) = true ∧ g.flt.tests = []) ∧
    (let g := { gwPairs with flt := { tests := [{ rep := rep3, seq := 0, running := true }] } }
     g.recentTransients rep3.key < 3 ∧ bit g.flt.aes 7 = false ∧ g.flt.aes = 0 ∧ g.mustReset = false) ∧
    (gwPairs.setPair 0 3).pairState 0 = 3 ∧ (gwPairs.setPair 0 3).pairState 1 ≠ 4 ∧ (gwPairs.setPair 0 3).mustReset = false ∧
    gwPairs.str.changes = [] ∧ (w32 0x8).toNat = 2 ^ 3 ∧ (w32 0x400).toNat = 2 ^ 10 ∧ gwPairs.islOn 3 = true ∧
    mget? ({ gwPairs with islRst := [(3, 0)] } : Gw).islRst 3 = some 0 := by decide +kernel


theorem wit_PairRestart_open :
    let g := { gwMbx 0x0E01 [0] with pairs := [(0, { state := 1 }), (1, { state := 3 })], aon := { released := true } }
    g.islOn 10 = true ∧ g.handing = false ∧ g.str.changes = [] ∧ g.pairState 1 = 3 ∧ 2 ∈ g.openCommands 1 := by decide +kernel

theorem wit_TestComplete_logged :
    let g := { gwPairs with flt := { tests := [{ rep := rep3, seq := 0, running := true }],
                                     log := [{ dt := 0, kind := 3, island := 11, cls := 0, seq := 0, detail := 0 }] } }
    g.flt.tests = [{ rep := rep3, seq := 0, running := true }] ∧ rep3.kind = 3 ∧ g.recentTransients rep3.key < 3 ∧
      g.flt.log.any (fun e => e.seq = 0) = true := by decide +kernel

/-! ### DiagnosticsAndPowerFail -/

theorem wit_DiagnosticsAndPowerFail :
    (let g := gwCfg 0x0F01 [11]
     g.holds 2 0x0F01 = true ∧ bits (g.arg 2 0) 3 0 = 11 ∧ g.fw.state = .config ∧ g.islFenced 11 = false) ∧
    (gwMbx 0x0F01 [11]).fw.state ≠ .config ∧ (gwMbx 0x0F02 [0xFFFF]).holds 2 0x0F02 = true ∧
    (let g := gwMbx 0x0F03 [1]
     g.holds 2 0x0F03 = true ∧ bit (g.arg 2 0) 0 = true ∧ bit ((gwMbx 0x0F03 [0]).arg 2 0) 0 = false) ∧
    (let g := { gwOn with flt := { dbg := some 0 }, tb := { tick := 10 ^ 15 } }
     g.flt.dbg = some 0 ∧ g.param Par.diagDebugAutolockS ≠ 0 ∧
       0 + (g.param Par.diagDebugAutolockS : Int) * 500000000 ≤ (g.tb.tick : Int)) ∧
    (gwMbx 0x0F04 [8]).holds 2 0x0F04 = true ∧
    (let g := gwMbx 0 []
     g.flt.powerFail = false ∧ g.pairRuns 1 = true ∧ g.fw.state ≠ .boot ∧ g.fw.state ≠ .sleep ∧
       ({ g with flt := { powerFail := true, gaspWritten := true } } : Gw).flt.powerFail = true) := by decide +kernel


theorem wit_Diag_refused :
    (let g := gwCfg 0x0F01 [10]
     g.holds 2 0x0F01 = true ∧ bits (g.arg 2 0) 3 0 = 10) ∧
    (let g := gwMbx 0x0F04 [2]
     g.holds 2 0x0F04 = true ∧ bits (g.arg 2 0) 11 0 % 4 ≠ 0) := by decide +kernel

/-! ### HostRings -/

/-- The module with ring 31 enabled in both directions and two descriptors posted. -/
def gwRing : Gw :=
  ((gwOn.setRegN (Reg.hdmaTxCtl 31) 0x8C000001).setRegN (Reg.hdmaTxTail 31) 2).setRegN (Reg.hdmaRxCtl 31) 0x8C000001

/-- A descriptor of one 60-byte frame with SOP, EOP and a requested stamp. -/
def dsc (at' : Nat) : List Byte := padTo 8 [] ++ leBytes 2 60 ++ leBytes 2 0xC000 ++ padTo 4 [] ++ leBytes 8 at' ++ padTo 8 []

theorem wit_HostRings :
    (gwRing.hostOn = true ∧ gwRing.txEn 31 = true ∧ (gwRing.txAt' 31).send = none ∧ 0 < gwRing.txPosted 31 ∧
      dBit (dsc 0) 14 = true ∧ dBit (dsc 0) 11 = false ∧ dBit (dsc 0) 10 = false ∧ dLen (dsc 0) = 60 ∧
      (gwRing.setSend 31 ⟨[⟨padTo 60 [], 0, true⟩], [], 1, false, none, none, false⟩).holdCells + cellsOf 64 ≤
        gwRing.param Par.calHostHold ∧ (gwRing.freeCells (cellsOf 64)).isSome = true ∧ fromLe (slice (dsc 0) 16 8) = 0 ∧
      fromLe (slice (dsc 8000000000) 16 8) = 8000000000 ∧ gwRing.now < 8000000000 ∧ 8000000000 ≤ gwRing.now + 8000000000 ∧
      gwOn.txEn 0 = false) ∧
    (let sd : TxSend := ⟨[], [(⟨padTo 60 [], 5, true⟩, 0, 0, 0)], 1, true, none, none, false⟩
     let g := gwRing.setTx 31 ⟨[], some sd⟩
     (g.txAt' 31).send = some sd ∧ (0 : Int) ≤ g.now ∧ g.tb.seg = 0 ∧ g.now < (5 : Int)) ∧
    (let w : Sel := ⟨{ frame := { body := .eth (padTo 64 []) } }, 0, 0, 0, false, [], 0, none⟩
     let g := gwRing.setRx 31 { queue := [(16, w)] }
     g.rxLive 31 = true ∧ (g.rxAt 31).queue = [(16, w)] ∧ (g.rxAt 31).waitFrom = none ∧ bufSizeOk 64 = true ∧
       w.copy.frame.body.bytes.length = 64 ∧
       ((g.plainWrite (Reg.hdmaRxTail 31) 1).regN (Reg.hdmaRxTail 31) + g.rxSize 31 - g.regN (Reg.hdmaRxTail 31) % g.rxSize 31) %
         g.rxSize 31 = 1 ∧
       (let h := { (gwRing.setRx 31 { queue := [(16, w)], waitFrom := some 0 }) with tb := { tick := 500 } }
        (h.rxAt 31).waitFrom = some 0 ∧ 0 + ticksPerUs * min 1000 (h.rxWaitUs 31) ≤ h.tb.tick)) := by decide +kernel


theorem wit_HostInjection_later :
    let sd : TxSend := ⟨[], [(⟨padTo 60 [], 5, true⟩, 5, 0, 0)], 1, true, none, none, false⟩
    let g := gwRing.setTx 31 ⟨[], some sd⟩
    g.islOn 14 = true ∧ (g.txAt' 31).send = some sd ∧ g.tb.seg = 0 ∧ g.now < 5 ∧ (5 : Int) ≤ g.now + 8000000000 := by decide +kernel

theorem wit_RxTail_buffer :
    let w : Sel := ⟨{ frame := { body := .eth (padTo 64 []) } }, 0, 0, 0, false, [], 0, none⟩
    let g := gwRing.setRx 31 { queue := [(16, w)] }
    (g.rxAt 31).posted = [] ∧ (g.rxAt 31).filled = [] ∧ (g.rxAt 31).left = none ∧ bufSizeOk 64 = true ∧
      ([(4096, 64)] : List (Nat × Nat)) = [(4096, 64)] ∧ w.copy.frame.body.bytes.length ≤ 64 := by decide +kernel

/-! ### CryptoQueues -/

/-- The module with crypto queue 11 enabled and one request posted. -/
def gwCry : Gw := { ((gwOn.setRegN (Reg.cryQCtl 11) 0x80000000).setRegN (Reg.cryQTail 11) 1) with cryUp := 0x3FF, trngOk := true }

theorem wit_CryptoQueues :
    (let j := parseReq ([0x20] ++ padTo 31 [] ++ leBytes 4 16 ++ padTo 18 [] ++ [0xFF, 0xFF] ++ padTo 8 []) [] []
     gwCry.islOn 11 = true ∧ gwCry.cryEn 11 = true ∧ gwCry.cryHead 11 ≠ gwCry.cryTail 11 ∧ j.wellFormed = true ∧
       j.keyed = false ∧ j.outSlot = 0xFFFF ∧ (gwCry.cryAt 11).stale = [] ∧ gwCry.cryPending 11 < 255 ∧ 0 < gwCry.engines j.engine ∧ gwCry.trngOk = true ∧
       gwCry.flt.trng = false ∧ gwOn.cryHead 3 = gwOn.cryTail 3) ∧
    (let j := parseReq ([0x03] ++ padTo 51 [] ++ [16] ++ padTo 11 []) [] []
     j.wellFormed = false ∧ 255 ≤ (gwCry.setRegN (Reg.cryQCtail 11) 255).cryPending 11) ∧
    (let j := parseReq ([0x03] ++ padTo 31 [] ++ leBytes 4 16 ++ padTo 16 [] ++ [16] ++ padTo 11 []) [] []
     j.wellFormed = true ∧ j.keyed = true ∧ (gwCry.keys.at' j.slot).state = 0) ∧
    (let j : CryJob := { parseReq ([0x10] ++ padTo 31 [] ++ leBytes 4 32 ++ padTo 28 []) [] [] with dispatched := true }
     let g := gwCry.setCry 11 { jobs := [j] }
     (g.cryAt 11).jobs = [j] ∧ j.dispatched = true ∧ j.status = none ∧ j.output = [] ∧ j.op ≠ 0x07) := by decide +kernel


theorem wit_Crypto_stale :
    (let j := parseReq ([0x03] ++ padTo 31 [] ++ leBytes 4 16 ++ padTo 16 [] ++ [16] ++ padTo 11 []) [] []
     let g := gwCry.setCry 11 { stale := [(0, [j.slot])] }
     g.islOn 11 = true ∧ g.cryEn 11 = true ∧ g.cryHead 11 ≠ g.cryTail 11 ∧ g.cryPending 11 < 255 ∧ (g.cryAt 11).jobs = [] ∧
       j.keyed = true ∧ ∃ y ∈ (g.cryAt 11).stale, j.slot ∈ y.2) ∧
    (let j : CryJob := parseReq ([0x10] ++ padTo 31 [] ++ leBytes 4 32 ++ padTo 28 []) [] []
     let g := gwCry.setCry 11 { jobs := [j] }
     (g.cryAt 11).jobs = [j] ∧ j.dispatched = false ∧ j.status = none ∧ j.output = []) := by decide +kernel

theorem wit_Crypto_keys :
    (let j := parseReq ([0x03] ++ padTo 31 [] ++ leBytes 4 16 ++ padTo 16 [] ++ [16] ++ padTo 11 []) [] []
     let g := { gwCry with keys := { slots := [(j.slot, { state := 2 })] } }
     j.wellFormed = true ∧ j.keyed = true ∧ 0 < g.engines j.engine ∧ (g.keys.at' j.slot).state = 2) ∧
    (let j := parseReq ([0x03, 2] ++ padTo 30 [] ++ leBytes 4 16 ++ padTo 16 [] ++ [16] ++ padTo 11 []) [] []
     let g := { gwCry with keys := { slots := [(j.slot, { state := 1, gen := 5 })] } }
     j.wellFormed = true ∧ j.keyed = true ∧ 0 < g.engines j.engine ∧ (g.keys.at' j.slot).state = 1 ∧ bit j.flags 1 = true ∧
       j.gen ≠ (g.keys.at' j.slot).gen) := by decide +kernel

/-! ### KeyAgreementAndFreshness -/

/-- The module in service with a CAK on port 13 and one live peer. -/
def gwMka : Gw :=
  { gwOn with fw := { state := .run, running := true }, pairs := [(0, { state := 1 })],
              params := [(Par.mkaCak 13, 70), (Par.keyMkaSlots, 0x300)],
              keys := { slots := [(5, { state := 1, attr := 3, value := List.replicate 16 7 }),
                                  (70, { state := 1, attr := 3, parent := 5, depth := 1, label := [1, 3, 16] })] },
              trngOk := true, mka := [(13, { mi := 5, peers := [(1, { prio := 255, mi := 3, mn := 1, live := true, till := 9 })], want := true })] }

/-- The same with one verifying entry of T3 and a changed freshness value. -/
def gwSeal : Gw :=
  { gwMka with params := [(Par.catPart 6, 8 * 2 ^ 32 + 1)], cat := { slots := [(8, { w1 := 2 })] }, fvLast := [(8, 9)] }

theorem wit_KeyAgreementAndFreshness :
    gwMka.mkaOn 13 = true ∧ (gwMka.mkaCak 13).isSome = true ∧ gwMka.sakSlots 13 = some (8, 9) ∧ gwOn.mkaOn 13 = false ∧
      gwMka.trngOk = true ∧ gwMka.mkaWaits 13 = false ∧ (gwMka.mkaAt 13).want = true ∧
      gwSeal.inService = true ∧ gwSeal.fw.running = true ∧ (gwSeal.sealEntries 2).map (·.1) = [8] ∧
      mgetD gwSeal.fvLast 8 0 ≠ mgetD gwSeal.fvJrnl 8 0 ∧ mget? gwSeal.timers timerJournal = none ∧ gwOn.fw.running = false := by decide +kernel


/-- An MKPDU of SCI 0 and priority 0 whose ICV is right under the port's ICK. -/
def goodMkpdu (g : Gw) (x : Mkpdu) : Mkpdu := { x with icv := (g.mkaDerive 13).mkpduIcv 13 0 0 x }

theorem wit_Mkpdu_good (x : Mkpdu) :
    (goodMkpdu gwMka x).icv = (gwMka.mkaDerive 13).mkpduIcv 13 0 0 (goodMkpdu gwMka x) ∧
      ((goodMkpdu gwMka { mi := 9, mn := 4 }).dist = none) := by
  constructor
  · simp [goodMkpdu, Gw.mkpduIcv, mkpduBytes]
  · rfl

theorem wit_Journal_idle :
    (let g := { gwSeal with fvLast := [] }
     g.fw.running = true ∧ g.inService = true ∧ (g.sealEntries 2).map (·.1) = [8] ∧ mget? g.timers timerJournal = none ∧
       mgetD g.fvLast 8 0 = mgetD g.fvJrnl 8 0) ∧
    (let g := { gwSeal with timers := [(timerJournal, 0)] }
     mget? g.timers timerJournal = some 0 ∧ g.tb.tick < 0 + 1000 * ticksPerMs * g.param Par.keyJrnlRxS) := by decide +kernel

/-! ### CanBufferAccess -/

theorem wit_CanBufferAccess :
    (let g := gwOn
     g.mbOwner 31 63 false = true ∧ (g.canAt 31).lock = none ∧ (g.canAt 31).locked 63 = false ∧ (g.canAt 31).tx = none ∧
       (g.canAt 31).host ≠ true) ∧
    (let g := gwOn.setCan 31 { lock := some (62, 8), shadow := some ({ ident := 0x7FF, data := [1] }, 5) }
     g.mbOwner 31 63 false = true ∧ (g.canAt 31).lock = some (62, 8) ∧ (g.canAt 31).done = none ∧
       (g.canAt 31).shadow = some ({ ident := 0x7FF, data := [1] }, 5)) ∧
    (let g := gwOn.setCan 0 { lock := some (0, 64) }
     g.mbOwner 0 0 false = true ∧ (g.canAt 0).lock = some (0, 64) ∧ (g.canAt 0).shadow = none) ∧
    (let g := gwOn.setCan 0 { tx := some { src := .mb 5, cnt := 0 } }
     (g.canAt 0).tx = some { src := .mb 5, cnt := 0 }) ∧
    (62 : Nat) ≠ 63 ∧
    (let g := gwOn.setCan 7 { host := true, busOff := true }
     (g.canAt 7).host = true ∧ (g.canAt 7).busOff = true ∧ (g.canAt 7).recovering = false) ∧
    bits ((0x8FFFFFFF : W32)).toNat 31 28 ∈ [0, 1, 8, 0xE] ∧ bits ((0x70000000 : W32)).toNat 31 28 ∉ [0, 1, 8, 9, 0xA, 0xE] := by
  decide +kernel

/-! ### CanFramesAndErrors -/

/-- Controller 0 on its bus with a pair, and with F13_EN. -/
def gwBus (x : CanCtl) : Gw :=
  { gwOn with can := [(0, { x with pairs := [{ cnt := 0, st := 0, seg := 0 }] })], params := [(Par.canCfg 0, 2 ^ 57), (Par.strPcfg 13, 0)] }

theorem wit_CanFramesAndErrors :
    (let g := gwBus ({} : CanCtl)
     g.canLive 0 = true ∧ (g.canStamp 0 100).isSome = true ∧ g.canLom 0 = false ∧
       g.sendsFormat 0 { data := [1] } = true ∧ mget? (g.canAt 0).filter 0 = none ∧ g.str.changes = [] ∧ (g.canAt 0).held = [] ∧
       bit (g.canCfg 0) 57 = true ∧ (g.freeCells 1).isSome = true ∧ g.pendCells 13 + 1 ≤ g.allotment 13 ∧
       g.sendsFormat 0 { fdf := true } = false ∧ g.canMode 0 = 0 ∧ gwOn.canLive 0 = false ∧ (g.canAt 0).tx = none ∧
       (g.canAt 0).gtq = [] ∧ g.mbRequests 0 = [] ∧ (g.canAt 0).busOff = false ∧ (g.canAt 0).tec ≤ 255) ∧
    (let g := gwBus (({} : CanCtl).setWord 504 0x10000000)
     (g.canAt 0).matches' 63 {} = true ∧ (g.canAt 0).effCode 63 = 1 ∧ (g.canAt 0).locked 63 = false) ∧
    (let f : GtqFrame := { sel := 0, fid := 0, frame := { ident := 5 }, ing := 0, ingSeg := 0 }
     let g := gwBus { gtq := [f] }
     (g.canAt 0).gtq = [f] ∧ g.gtqExpired 0 f = false ∧ g.windowOk 0 f.frame = true ∧
       (let h := gwBus { gtq := [f], tx := some { src := .gtq, cnt := 0 } }
        (h.canAt 0).tx = some { src := .gtq, cnt := 0 } ∧ bit h.undefBus 0 = false ∧
          (h.canAt 0).shared.contains f.frame.ident = false) ∧
       (let h := { gwBus { gtq := [f] } with params := [(Par.canCfg 0, 2 ^ 32)], tb := { acc := BitVec.ofNat 104 (2 ^ 100) } }
        h.gtqExpired 0 f = true ∧ h.mbRequests 0 = [])) ∧
    (let g := gwBus (({} : CanCtl).setWord 504 0x90000000)
     g.mbRequests 0 = [63] ∧ g.mbExpired 0 63 = false ∧ g.windowOk 0 ((g.canAt 0).mbFrame 0 63) = true) ∧
    ((gwBus { tx := some { src := .mb 63, cnt := 9 } }).canAt 0).tx = some { src := .mb 63, cnt := 9 } ∧
    (let g := { gwBus { busOff := true, recovering := true } with tb := { tick := 5000000 } }
     (g.canAt 0).recovering = true ∧ g.recoveryDue 0 = true) := by decide +kernel

theorem wit_SealHeld :
    (let h : CanHeld := { frame := { data := padTo 8 [] }, ing := 0, ingSeg := 0, adm := 0, seg := 0, cnt := 0, verify := some (8, { w1 := 2 }) }
     let g := { gwSeal with can := [(0, { held := [h], filter := [(0, (8, { w1 := 2 }))] })] }
     (g.canAt 0).held = [h] ∧ h.verify = some (8, { w1 := 2 }) ∧ h.wait = false ∧ (mget? (g.canAt 0).filter 0).isSome = true) := by decide +kernel


/-- A T3 entry that verifies with the key of slot 5, one byte of freshness value and three of MAC. -/
def sealEntry : Entry := { w1 := 2, w3 := 5 }

/-- Controller 0 with that entry in its seal filter and its key in the store. -/
def gwVerify (x : CanCtl) : Gw :=
  { gwBus { x with filter := [(0, (8, sealEntry))] } with
      keys := { slots := [(5, { state := 1, attr := 1, value := padTo 16 [1] })] }, cryUp := 0x3FF }

theorem wit_CanFramesAndErrors_sealed :
    (let mac := (aesCmac (padTo 16 [1]) (sealMessage 0 [7] 1)).take 3
     let h : CanHeld := { frame := { data := [7, 1] ++ mac }, ing := 0, ingSeg := 0, adm := 0, seg := 0, cnt := 0, verify := some (8, sealEntry) }
     let g := gwVerify { held := [h] }
     (g.canAt 0).held = [h] ∧ g.sealCheck sealEntry 0 h.frame 0 0 = some 1 ∧ bit (g.canCfg 0) 57 = true ∧
       (g.freeCells 1).isSome = true ∧ g.pendCells 13 + 1 ≤ g.allotment 13 ∧
       g.sealCheck sealEntry 0 { data := [7, 1, 0, 0, 0] } 0 0 = none) ∧
    (let g := gwVerify {}
     g.canLive 0 = true ∧ (g.canStamp 0 100).isSome = true ∧ mget? (g.canAt 0).filter 0 = some (8, sealEntry)) ∧
    (let g := { gwBus ({} : CanCtl) with params := [(Par.canCfg 0, 2 ^ 57 + 2 ^ 62)] }
     g.canLive 0 = true ∧ g.canMode 0 ≠ 0 ∧ g.sendsFormat 0 { xlf := true } = false) := by decide +kernel

/-! ### TimeTriggeredAndTimeMessages -/

/-- Controller 0 in a running matrix; its one column names buffer 5 in an exclusive cell. -/
def gwTt (par : Nat) : Gw :=
  { gwBus ((((({ ttRun := true } : CanCtl).setWord 0x200 0x80000000).setWord 0x220 0x45).setWord 40 0xE0000000)) with
    params := [(Par.canCfg 0, 2 ^ 58), (Par.canTt 0, par)] }

/-- Controller 0 sending time messages, its SYNC sent. -/
def gwBtm (stage code62 code63 : Nat) : Gw :=
  { gwBus ((({ btmStage := stage } : CanCtl).setWord 496 (code62 * 2 ^ 28)).setWord 504 (code63 * 2 ^ 28)) with
    fw := { state := .run, running := true }, pairs := [(0, { state := 1 })], params := [(Par.canCfg 0, 0), (Par.btmCfg 0, 2 ^ 63 + 1)] }

theorem wit_TimeTriggeredAndTimeMessages :
    (let g := gwTt 0
     g.canLive 0 = true ∧ g.ttEn 0 = true ∧ bit ((g.canAt 0).word 0x200) 31 = true ∧
       (g.canAt 0).cell ((g.canAt 0).cycle % g.cycles 0) 0 = 0x45 ∧ (g.canAt 0).code 5 = 0xE ∧ (g.canAt 0).ttRun = true ∧
       (g.canAt 0).tx = none ∧ g.canLom 0 = false ∧ g.ttMasterCfg 0 = false ∧ g.mbFree 0 5 = true ∧
       (g.canAt 0).ttDone.contains 0 = false ∧ g.cycleTime 0 = bits ((g.canAt 0).word 0x200) 15 0 ∧
       (gwTt (2 ^ 63)).ttMasterCfg 0 = true ∧ ((gwTt (2 ^ 63)).canAt 0).locked 0 = false ∧
       2 * (gwTt (2 ^ 63)).cycleNtu 0 ≤ (gwTt (2 ^ 63)).cycleTime 0 ∧
       ((gwBus { tx := some { src := .ref, cnt := 0 } }).canAt 0).tx = some { src := .ref, cnt := 0 }) ∧
    (let g := gwBtm 1 0xC 0
     g.btmOn 0 = true ∧ mget? g.timers (timerBtm 0) = none ∧ (g.canAt 0).locked 62 = false ∧ (stampOf (g.canAt 0).pairs 0 ((g.canAt 0).hdr 62 6)).isSome = true ∧
       (g.canAt 0).code 62 = 0xC ∧ (gwBtm 1 0xD 0).btmOn 0 = true ∧ ((gwBtm 1 0xD 0).canAt 0).code 62 = 0xD ∧
       (g.canAt 0).btmEpoch = none ∧ (g.canAt 0).code 63 ≠ 9 ∧ (gwBtm 0 0 0xC).btmOn 0 = true ∧
       ((gwBtm 0 0 0xC).canAt 0).code 63 = 0xC ∧ ((gwBtm 0 0 0xC).canAt 0).locked 63 = false ∧ gwOn.btmOn 0 = false) ∧
    (let g := { gwBtm 0 0 0xC with can := [(0, { (gwBtm 0 0 0xC).canAt 0 with btmEpoch := some (0, 0) })] }
     g.btmOn 0 = true ∧ (g.canAt 0).btmEpoch = some (0, 0) ∧ (g.canAt 0).code 63 = 0xC) := by
  decide +kernel


theorem wit_Tt_idle :
    (let g := { gwTt 0 with can := [(0, { (gwTt 0).canAt 0 with ttRun := false })] }
     g.canLive 0 = true ∧ g.ttEn 0 = true ∧ bit ((g.canAt 0).word 0x200) 31 = true ∧ (g.canAt 0).ttRun = false) ∧
    (let g := gwTt (5 * 2 ^ 32)
     g.canLive 0 = true ∧ g.ttEn 0 = true ∧ g.cycleTime 0 < 2 * g.cycleNtu 0) := by decide +kernel

/-! ### LinSchedulesAndFrames -/

/-- LIN controller 11 with identifier 0x10 in a direction, committed content, and a commander's configuration. -/
def gwLin (cfg dir : Nat) (x : LinCtl) : Gw :=
  { gwOn with lin := [(11, { x with frames := [(0x10, { dir := dir, len := 2 })], pairs := [{ cnt := 0, st := 0, seg := 0 }] })],
              params := [(Par.linCfg 11, cfg), (Par.strPcfg 13, 0), (Par.catAgeEn, 0)] }

/-- A running table whose first slot is due. -/
def gwLinDue (want : Option Nat) : Gw :=
  { gwLin (13 * 2 ^ 60) 2 { running := true, nextSlot := some 0, want := want, tables := [(0, [{ ident := 0x10 }, {}])] } with
    str := { run := true, frontier := 100 } }

theorem wit_LinSchedulesAndFrames :
    (let w : CommitWait := { buf := 0x10, data := [1, 2], c := 0, seg := 0 }
     let g := gwLin (13 * 2 ^ 60) 2 { waits := [w] }
     (g.linAt 11).waits = [w] ∧ g.translate 0 0 0 ≤ g.nowLast ∧ (mget? (g.linAt 11).commits 0x10).isNone = true ∧
       g.nowLast < g.translate 50 0 g.tb.seg ∧
       (let h := { gwOn with flx := { waits := [{ w with buf := 2048 + 5 }] } }
        h.flx.waits = [{ w with buf := 2048 + 5 }] ∧ (mget? h.flx.commits (2048 + 5)).isNone = true)) ∧
    (let g := gwLinDue none
     (g.readyDue []).map (fun d => (d.ev, d.t)) = some (.linSlot 11, 0) ∧ (g.linAt 11).switch.running = true ∧
       (((g.linAt 11).switch.tableSlots[(g.linAt 11).switch.slot]?).map LinSlot.ident) = some 0x10 ∧
       (gwOn.readyDue []).isNone = true ∧
       ((gwLinDue (some 15)).readyDue []).map Due.ev = some (.linSlot 11)) ∧
    (let h : LinHeader := { slot := { ident := 0x10 }, wire := 0, seg := 0 }
     let g := gwLin (12 * 2 ^ 60) 1 { header := some h, commits := [(0x10, [{ data := [7], c := 0, seg := 0 }])] }
     g.linLive 11 = true ∧ g.linLom 11 = false ∧ g.linCmdr 11 = true ∧ (g.linAt 11).header = some h ∧
       g.linSends h.slot (g.commitUpTo (g.linAt 11).commits (g.linAt 11).waits 0).1 0 = some 0x10 ∧
       (g.contentAt (g.commitUpTo (g.linAt 11).commits (g.linAt 11).waits 0).1 0x10 0).isSome = true ∧
       (mgetD (g.linAt 11).frames 0x10 {}).dir = 1 ∧ bit g.undefBus 43 = false ∧ g.translate 0 0 0 ≤ g.nowLast) ∧
    (let g := gwLin (9 * 2 ^ 60) 2 {}
     g.linLive 11 = true ∧ g.linCmdr 11 = false ∧ (mgetD (g.linAt 11).frames (0x50 % 64) {}).dir = 2 ∧ 0x50 = linPid (0x50 % 64) ∧
       linChecksum 0x50 ((g.linAt 11).enhanced 0x10) [1, 2] = 172 ∧
       (stampOf (g.linAt 11).pairs 0 5).isSome = true ∧ bit (g.linCfg 11) 60 = true ∧ 0x90 ≠ linPid (0x90 % 64) ∧
       (g.freeCells 1).isSome = true ∧ g.pendCells 13 + 1 ≤ g.allotment 13 ∧ (g.linAt 11).header = none ∧
       (let h : Gw := { gwLin (9 * 2 ^ 60 + 20000 * 2 ^ 40) 2 {} with tb := { tick := 2000000 } }
        h.linBits 11 (14 * 3) ≤ cntDiff h.canNow 0)) ∧
    (let g := gwLin (8 * 2 ^ 60) 1 { sending := some (0x10, [7, 0]) }
     (g.linAt 11).sending = some (0x10, [7, 0]) ∧ g.linLom 11 = false) := by decide +kernel


theorem wit_LinWaits_early :
    (let w : CommitWait := { buf := 0x10, data := [1, 2], c := 50, seg := 0 }
     let g := gwLin (13 * 2 ^ 60) 2 { waits := [w] }
     (g.linAt 11).waits = [w] ∧ g.nowLast < g.translate 50 0 g.tb.seg) ∧
    (let h : LinHeader := { slot := { typ := 2, idents := [0x10] }, wire := 0, seg := 0 }
     let g := gwLin (12 * 2 ^ 60) 1 { header := some h }
     g.linLive 11 = true ∧ g.linLom 11 = false ∧ g.linCmdr 11 = true ∧ (g.linAt 11).header = some h ∧ h.started = false ∧
       g.translate h.wire h.seg g.tb.seg ≤ g.nowLast ∧
       g.linSends h.slot (g.commitUpTo (g.linAt 11).commits (g.linAt 11).waits 0).1 0 = none) ∧
    (let h : LinHeader := { slot := { ident := 0x10 }, wire := 0, seg := 0 }
     let g := gwLin (12 * 2 ^ 60) 2 { header := some h }
     (g.linAt 11).header = some h ∧ g.linSends h.slot (g.commitUpTo (g.linAt 11).commits (g.linAt 11).waits 0).1 0 = some 0x10 ∧
       (mgetD (g.linAt 11).frames 0x10 {}).dir ≠ 1) ∧
    (let h : LinHeader := { slot := { ident := 0x10 }, wire := 50, seg := 0 }
     let g := gwLin (12 * 2 ^ 60) 2 { header := some h }
     g.linLive 11 = true ∧ g.linLom 11 = false ∧ g.linCmdr 11 = true ∧ (g.linAt 11).header = some h ∧
       g.nowLast < g.translate h.wire h.seg g.tb.seg) := by decide +kernel

theorem wit_LinIgnored_and_response :
    (let g := gwLin (9 * 2 ^ 60) 0 {}
     g.linLive 11 = true ∧ 0x50 = linPid (0x50 % 64) ∧ (mgetD (g.linAt 11).frames (0x50 % 64) {}).dir = 0 ∧
       [(1 : Byte), 2].length = (mgetD (g.linAt 11).frames (0x50 % 64) {}).len ∧ (g.linAt 11).givenUp 5 9 = false) ∧
    (let g := gwLin (9 * 2 ^ 60) 1 { commits := [(0x10, [{ data := [7, 0], c := 0, seg := 0 }])] }
     g.linLive 11 = true ∧ g.linLom 11 = false ∧ g.linCmdr 11 = false ∧ bit g.undefBus 43 = false ∧
       (mgetD (g.linAt 11).frames (0x50 % 64) {}).dir = 1 ∧
       ((stampOf (g.linAt 11).pairs (bits (g.linCfg 11) 15 0) 5).bind (fun a =>
         g.contentAt (g.commitUpTo (g.linAt 11).commits (g.linAt 11).waits (g.translate a.1 a.2 g.tb.seg)).1 (0x50 % 64)
           (g.translate a.1 a.2 g.tb.seg))).isSome = true) := by decide +kernel

/-! ### FlexRayFramesAndCycles -/

theorem wit_FlexRayFramesAndCycles :
    (let g := { gwOn with params := [(Par.flxCfg, 2 ^ 63 + 2 ^ 61 + 2 ^ 60), (Par.strPcfg 13, 0)],
                          flx := { poc := 5, cycle := 63, owned := [⟨2047, 2, 1, 0, false⟩], rxBufs := [⟨2047, 3, 64, 63, false⟩],
                                   commits := [(2048 + 2047, [⟨[1, 2], 0, 0, true⟩])], pairs := [{ cnt := 0, st := 0, seg := 0 }] } }
     g.flxLive = true ∧ g.flxOn 1 = true ∧ g.flxOn 0 = false ∧ g.flxLom = false ∧ (g.flx.owned.find? (fun x => x.hits 1 2047 g.flx.cycle)).isSome = true ∧
       (stampOf g.flx.pairs (bits g.flxCfg 15 0) 9).isSome = true ∧ g.flx.waits = [] ∧
       (g.contentAt g.flx.commits (2048 * 1 + 2047) 0).isSome = true ∧ bit g.undefBus 45 = false ∧ bit g.flxCfg 61 = true ∧
       g.flx.rxBufs.any (fun f => f.hits 1 2047 63) = true ∧ g.usedCells + 1 ≤ 262144 - g.fencedCells ∧
       g.pendCells 13 + 1 ≤ g.allotment 13 ∧ gwOn.flxLive = false ∧ gwOn.flx.poc ≠ 4 ∧ gwOn.flx.poc ≠ 5) := by decide +kernel


/-- FR0 in POC state 5 on both channels with slot 2047 owned on channel 1, static or dynamic. -/
def gwFlx (dyn : Bool) (commits : Map (List Committed)) : Gw :=
  { gwOn with params := [(Par.flxCfg, 2 ^ 63 + 2 ^ 61 + 2 ^ 60), (Par.strPcfg 13, 0)],
              flx := { poc := 5, cycle := 63, owned := [⟨2047, 2, 1, 0, dyn⟩], rxBufs := [⟨2047, 3, 64, 63, false⟩],
                       commits := commits, pairs := [{ cnt := 0, st := 0, seg := 0 }] } }

theorem wit_FlxSlots :
    (let g := gwFlx true [(2048 + 2047, [⟨List.replicate 254 0, 0, 0, true⟩])]
     g.flxLom = false ∧ g.flx.poc = 5 ∧ g.flxOn 1 = true ∧ (g.flx.owned.find? (fun x => x.hits 1 2047 g.flx.cycle)).isSome = true ∧
       (g.contentAt g.flx.commits (2048 * 1 + 2047) 0).isSome = true ∧ g.flx.fits g.flxRate 1 2047 254 = false) ∧
    (let g := gwFlx true []
     g.flxOn 1 = true ∧ (g.flx.owned.find? (fun x => x.hits 1 2047 g.flx.cycle)).isSome = true ∧
       g.contentAt g.flx.commits (2048 * 1 + 2047) 0 = none) ∧
    (let g := gwFlx false []
     g.flxOn 1 = true ∧ (g.flx.owned.find? (fun x => x.hits 1 2047 g.flx.cycle)).isSome = true ∧
       g.contentAt g.flx.commits (2048 * 1 + 2047) 0 = none) ∧
    (let g := gwFlx false []
     let b : BusFrame := { ident := 2047, cycle := 63 }
     bit g.flxCfg 61 = true ∧ g.flxOn 1 = true ∧ g.flx.rxBufs.any (fun f => f.hits 1 (b.ident % 2048) (b.cycle % 64)) = true) := by
  decide +kernel

theorem wit_FlxCycleEnds :
    (let g := { gwFlx false [] with flx := { (gwFlx false []).flx with haltPending := true } }
     g.flxLive = true ∧ 4 ≤ g.flx.poc ∧ g.flx.poc ≠ 7 ∧ g.flx.haltPending = true) ∧
    (let g := { gwFlx false [] with flx := { (gwFlx false []).flx with poc := 4 } }
     g.flxLive = true ∧ g.flx.poc = 4 ∧ g.flx.haltPending = false) := by decide +kernel

/-! ### TimebaseAndServo -/

/-- The module with pair 0 running, in service, and a given timebase. -/
def gwTime (x : Timebase) : Gw :=
  { gwOn with fw := { state := .run, running := true }, pairs := [(0, { state := 1 })], tb := x,
              params := [(Par.tbSrcPri, 3), (Par.tbSrcSec, 0), (Par.tbStepMode, 2), (Par.tbStepThreshNs, 1000), (Par.tbLockNs, 100)] }

theorem wit_TimebaseAndServo :
    (let g := gwTime { tick := 65536 }
     g.islOn 12 = true ∧ g.tickNo % 65536 = 0 ∧ g.tb.epoch < g.tickNo / 65536 ∧ g.islOn 9 = true ∧ g.tb.incrNext = [] ∧
       g.tb.step = none ∧ g.tb.stepQueue = []) ∧
    (let g := gwTime { tick := 16, incrNext := [(16, incrMin)], step := some { delta := -5, notBefore := 16 } }
     g.tb.incrNext = [(16, incrMin)] ∧ g.tickNo % 16 = 0 ∧ g.tb.step = some { delta := -5, notBefore := 16 } ∧ g.handing = false) ∧
    (let g := gwTime { src := 3, valid := 8, samples := [(3, 65536 * 1001)], servo := .acquiring }
     g.wanted = g.tb.src ∧ mget? g.tb.samples g.tb.src = some (65536 * 1001) ∧ g.pairRuns 0 = true ∧
       g.param Par.tbStepMode = 2 ∧ 65536 * g.param Par.tbStepThreshNs < 65536 * 1001 ∧ g.stepBusy = false ∧
       ({ g with tb := { g.tb with valid := setBits g.tb.valid 3 3 0 } } : Gw).wanted = 0 ∧ bit g.tb.valid 3 = true ∧
       ({ g with tb := { g.tb with tick := 750000000 } } : Gw).sourceGone 3 0 = true) ∧
    (let g := gwTime { servo := .holdover, valid := 16, refEdges := 9999999 }
     g.tb.servo = .holdover ∧ mget? g.timers timerHoldover = none ∧ bit g.tb.valid 4 = true ∧ 0 < g.tb.refEdges ∧ g.tb.refEdges < 10000000 ∧
       gwOn.pairRuns 0 = false) := by decide +kernel


theorem wit_Timebase_pending :
    (let g := gwTime { tick := 5, incrNext := [(16, incrMin)], step := some { delta := -5, notBefore := 16 } }
     g.islOn 12 = true ∧ g.tb.incrNext = [(16, incrMin)] ∧ g.tb.tick < 16 ∧ g.handing = false ∧ g.tickNo % 16 ≠ 0) ∧
    (let g := { gwTime { tick := 16, step := some { delta := -5, notBefore := 16 } } with str := { run := true } }
     g.islOn 12 = true ∧ g.handing = false ∧ g.tickNo % 16 = 0 ∧ g.str.run = true ∧ (16 : Nat) ≤ g.tb.tick) ∧
    (let g := gwTime { src := 3, valid := 8, samples := [(3, 65536 * 50)], servo := .acquiring }
     g.islOn 12 = true ∧ g.pairRuns 0 = true ∧ g.handing = false ∧ g.wanted = g.tb.src ∧ g.tb.src ≠ 4 ∧
       mget? g.tb.samples g.tb.src = some (65536 * 50) ∧ 65536 * 50 ≤ 65536 * g.param Par.tbStepThreshNs ∧
       65536 * 50 ≤ 65536 * g.param Par.tbLockNs) ∧
    (let g := { gwTime { servo := .holdover } with timers := [(timerHoldover, 0)] }
     g.islOn 12 = true ∧ g.pairRuns 0 = true ∧ mget? g.timers timerHoldover = some 0 ∧ g.tb.tick < 0 + 10 * ticksPerMs) ∧
    (let g := { gwTime { tick := 750000000, src := 3, valid := 12, servo := .locked } with params := [(Par.tbSrcPri, 3), (Par.tbSrcSec, 2)] }
     g.islOn 12 = true ∧ g.pairRuns 0 = true ∧ bit g.tb.valid 3 = true ∧ g.tb.src = 3 ∧ g.sourceGone 3 0 = true ∧
       ({ g with tb := { g.tb with valid := setBits g.tb.valid 3 3 0 } } : Gw).wanted = 2) := by decide +kernel

/-! ### TimeEventsAndInstances -/

/-- Instance 3 with one port in a role. -/
def gwPtp (port role : Nat) (x : Gptp) : Gw :=
  { gwTime {} with eth := [(11, { link := true })], gptp := [(3, x)], params := [(Par.gptpDom 3, 2 ^ 63 + 2 ^ 61 + 2 ^ 60), (Par.gptpRole 3, role * 4 ^ port), (Par.ethSaddr 0, 1)] }

theorem wit_TimeEventsAndInstances :
    (let g := { gwTime { tick := 16 } with params := [(Par.tevOwn, 1)], tevOut := [(15, { armTick := some 16, active := true, pulseEnd := some 0 })] }
     bit (g.param Par.tevOwn) 0 = true ∧ bit (g.param Par.tevOwn) 15 = false ∧ (g.tevAt 15).armTick = some 16 ∧
       (g.tevAt 15).pulseEnd = some 0 ∧ (0 : Int) ≤ g.nowLast ∧ (g.tevAt 15).active = true ∧
       g.tevTime 15 (g.tevAt 15) 0 ≤ g.nowLast ∧ (g.setRegN (Reg.tevOutCfg 15) 0x10000000).tevMode 15 = 1 ∧
       (g.setRegN (Reg.tevOutCfg 15) 0x20000000).tevMode 15 = 2 ∧
       (let h := { g with tevOut := [(15, { armTick := some 16 })] }.setRegN (Reg.tevOutStartHi 15) 1
        (h.tevAt 15).pulseEnd = none ∧ h.now + 256 ≤ (h.tevStaged 15).start + h.paramI (Par.tevAdj 15))) ∧
    (let g := (gwTime {}).setRegN (Reg.tevInCfg 15) 0x80000000 
     bit (gwOn.regN (Reg.tevInCfg 15)) 31 = false ∧
       (let h := (gwTime {}).setRegN (Reg.tevInCfg 15) 0xE0000000
        bit (h.regN (Reg.tevInCfg 15)) 31 = true ∧ bit (h.regN (Reg.tevInCfg 15)) 29 = true ∧ (h.tevInAt 15).last = none) ∧
       bit (g.regN (Reg.tevInCfg 15)) 31 = true) ∧
    (let g := { gwTime { ppsNext := some 0 } with params := [(Par.tbPps, 2 ^ 63 + 2 ^ 62)] }
     g.tb.ppsNext = some 0 ∧ g.ppsOpen = true ∧ bit g.ppsCfg 62 = true ∧ true ≠ bit g.ppsCfg 61 ∧ g.tb.ppsInLast = none ∧
       (0 : Int) - 0 < 32) ∧
    (let g := gwPtp 19 2 { syncPending := [(19, (7, 0, 0))] }
     g.gptpOn 3 = true ∧ g.gptpRole 3 19 = 2 ∧ g.asCapable 3 19 = true ∧
       mget? (g.gptpAt 3).syncPending 19 = some (7, 0, g.tb.seg) ∧ g.gptpRole 3 0 = 0 ∧ g.gptpMasters 3 = []) ∧
    (let g := gwPtp 11 1 { linkDelay := [(11, 0)] }
     g.gptpOn 3 = true ∧ mget? g.timers (timerSync 3) = none ∧ g.gptpMasters 3 = [11] ∧ g.shownRoot 3 / 2 ^ 104 ≠ 255 ∧
       (List.range 12).filter (fun q => g.gptpRole 3 q ≠ 0 && g.pdOwner 3 q = 3) = [11] ∧
       g.gptpRole 3 11 ≠ 0 ∧ gwOn.gptpOn 3 = false) := by decide +kernel


/-- Output 15 active in a mode, its next event at the given stamp. -/
def gwTev (mode : Nat) (x : TevOut) : Gw :=
  { gwTime {} with tevOut := [(15, { x with active := true })] }.setRegN (Reg.tevOutCfg 15) (mode * 2 ^ 28)

theorem wit_Tev_waits :
    (let g := { gwTime {} with tevOut := [(15, { armTick := some 16 })] }
     g.islOn 12 = true ∧ (g.tevAt 15).armTick = some 16 ∧ g.tb.tick < 16) ∧
    (∀ m ∈ [1, 2], (gwTev m {}).islOn 12 = true ∧ (gwTev m {}).tevMode 15 = m ∧ ((gwTev m {}).tevAt 15).active = true ∧
      ((gwTev m {}).tevAt 15).pulseEnd = none ∧ (gwTev m {}).tevTime 15 ((gwTev m {}).tevAt 15) 0 ≤ (gwTev m {}).nowLast) ∧
    (let g := gwTev 1 { start := 1000, pulseEnd := some 500 }
     g.nowLast < g.tevTime 15 (g.tevAt 15) (g.tevAt 15).k ∧ (g.tevAt 15).pulseEnd = some 500 ∧ g.nowLast < 500) ∧
    (let g := gwTime { ppsNext := some 900 }
     g.tb.ppsNext = some 900 ∧ g.nowLast < 900) := by decide +kernel

theorem wit_TevIn_full :
    (let g := ({ gwTime {} with tevIn := [(15, { queue := List.replicate 32 ⟨0, true, 0, 0⟩, armed := true })] } : Gw).setRegN (Reg.tevInCfg 15) 0xE0000000
     g.islOn 12 = true ∧ bit (g.regN (Reg.tevInCfg 15)) 31 = true ∧ bit (g.regN (Reg.tevInCfg 15)) 29 = true ∧
       (g.tevInAt 15).last = none ∧ 32 ≤ (g.tevInAt 15).queue.length ∧ (g.tevInAt 15).armed = true) ∧
    (let g := { gwTime { samples := [(1, 65536 * 999999999)], ppsInLast := some 0 } with params := [(Par.tbPps, 2 ^ 63 + 2 ^ 62), (Par.tbSrcSec, 1)] }
     g.param Par.tbSrcSec = 1 ∧ mget? g.tb.samples 1 = some (65536 * 999999999) ∧ g.tb.ppsInLast = some 0 ∧ g.tb.stamp 0 - 0 < 32) := by
  decide +kernel

theorem wit_Gptp_messages :
    (let g := gwPtp 11 2 { syncPending := [(11, (7, 0, 0))] }
     let m : GptpMsg := { typ := 1, seq := 7, time := 5, source := 9 }
     g.gptpOn 3 = true ∧ g.gptpRole 3 11 = 2 ∧ m.typ = 1 ∧ mget? (g.gptpAt 3).syncPending 11 = some (m.seq, 0, g.tb.seg) ∧
       (let h := { g with params := (Par.tbWorkDom, 3) :: g.params }
        h.gptpOn (h.param Par.tbWorkDom) = true ∧ h.gptpRole 3 11 = 2)) ∧
    (let g := gwPtp 11 1 {}
     g.gptpOn 3 = true ∧ g.gptpRole 3 11 ≠ 0 ∧ ({ typ := 2, seq := 7, rx := 800, source := 9 } : GptpMsg).typ = 2 ∧
       (let h := { g with timers := [(timerSync 3, 0), (timerAnnounce 3, 0)] }
        mget? h.timers (timerSync 3) = some 0 ∧ h.tb.tick < 0 + logTicks 1 (bits (h.gptpCfg 3) 31 24) ∧
          mget? h.timers (timerAnnounce 3) = some 0 ∧ h.tb.tick < 0 + logTicks 1 (bits (h.gptpCfg 3) 23 16))) := by decide +kernel

/-! ### ChainMessagesAndTopology -/

/-- A ring owner at address 5 with given messages waiting and both ports aligned and UP. -/
def gwRing2 (ports : List (Nat × ChainPort)) (inbox : List Inbound) : Gw :=
  { gwTime {} with eth := [(12, { link := true }), (13, { link := true })]
                   chn := { role := 3, ports := ports, inbox := inbox, reach := [(7, { hops1 := some (1, 0), root := true })] },
                   params := [(Par.chnAddr, 5), (Par.chnRingOwner, 1), (Par.chnRingAuto, 1), (Par.chnRingWtrMs, 0)] }

def upPorts : List (Nat × ChainPort) := [(0, { aligned := true, state := 1 }), (1, { aligned := true, state := 1 })]

/-- Whatever a port holds, a message that comes in its own chunks is received whole: a CTRL message, one for module 7 at its last
hop and before it, one of the module's own. -/
theorem wit_ChainMessagesAndTopology_chunks (x : ChainPort) :
    ∀ m ∈ [({ cls := 1 } : SideMsg), { cls := 2, dst := 7, hops := 1 }, { cls := 2, dst := 7, hops := 2 }, { cls := 3, dst := 5, typ := 1 },
           { cls := 6 }],
      ((sideChunks m).headD []).length = 7 ∧ chunkSom ((sideChunks m).headD []) = true ∧
        chunkEom ((sideChunks m).getLastD []) = true ∧ chunkCls ((sideChunks m).getLastD []) = m.cls ∧
        ((sideChunks m).foldl ChainPort.takeChunk x).partOf m.cls = sideWire m ∧ sideCrcOk (sideWire m) = true := by
  intro m hm
  simp only [List.mem_cons, List.not_mem_nil, or_false] at hm
  obtain rfl | rfl | rfl | rfl | rfl := hm <;> exact sideChunks_whole _ x (by decide) (by decide)

/-- A chunk that ends no message, one of class 7, and a message of six bytes whose check sum is wrong. -/
theorem wit_ChainMessagesAndTopology_ends :
    (let c : List Byte := [0x30, 0, 0, 0, 0, 0, 0]; c.length = 7 ∧ chunkSom c = true ∧ chunkEom c = false) ∧
    (let c : List Byte := [0xF8, 0, 0, 0, 0, 0, 0]; chunkSom c = true ∧ chunkEom c = true ∧ chunkCls c = 7) ∧
    (let c : List Byte := [0x38, 1, 0, 0, 0, 0, 0]
     chunkSom c = true ∧ chunkEom c = true ∧ chunkCls c = 1 ∧ sideCrcOk ((({} : ChainPort).takeChunk c).partOf 1) = false) := by
  decide

theorem wit_ChainMessagesAndTopology :
    (let g := gwRing2 upPorts [⟨1, 0, { cls := 0, typ := 0, body := [0, 9, 0] }⟩, ⟨0, 0, { typ := 4, src := 9, body := [1, 2] }⟩,
                               ⟨1, 0, { typ := 0, body := [7, 3, 1, 3] }⟩, ⟨0, 0, { typ := 1, hops := 4094, body := [6, 2] }⟩]
     g.chainUsed 1 = true ∧ (g.chainAt 1).aligned = true ∧ g.routeTo 7 = some 1 ∧
       g.mayCarry 1 { cls := 2, dst := 7, hops := 2 } = true ∧ g.mayCarry 0 { cls := 1 } = true ∧ g.linkUp 13 = true ∧ (g.takeMsg 0 0).isSome = true ∧ g.upstream = some 1 ∧
       (g.takeMsg 1 4).isSome = true ∧ g.stepBusy = false ∧ (g.takeMsg 1 0).isSome = true ∧ (g.takeMsg 1 1).isSome = true ∧
       mget? g.timers timerHello = none ∧ mget? g.timers timerTopology = none ∧ mget? g.timers (timerCal 1) = none ∧
       (mget? g.chn.reach 6).isNone = true ∧ (g.chainAt 0).blocked = false ∧ g.pairRuns 0 = true ∧ g.chnAddr = 5 ∧
       (mget? g.chn.reach 7).isSome = true ∧ g.ringOwner = true ∧ (g.takeMsg 1 2).isNone = true ∧ (g.takeMsg 1 3).isNone = true ∧
       g.chn.faultBy = none ∧ g.param Par.chnRingAuto = 1) ∧
    (let g := gwRing2 [(0, { aligned := true, wordSent := some (0, 0) }), (1, { failed := true, lackSince := 0 })]
        [⟨0, 99, { cls := 0, typ := 1, body := [0, 1] }⟩]
     (g.takeMsg 0 1).isSome = true ∧ (g.chainAt 0).wordSent = some (0, 0) ∧ (g.chainAt 1).aligned = false ∧
       (g.chainAt 1).failed = true ∧ (g.chainAt 0).failed = false) ∧
    (let g : Gw := { gwRing2 upPorts [] with tb := { tick := 10 ^ 12 } }
     (g.chainAt 0).helloTick + g.helloLimit ≤ g.tb.tick ∧ (g.chainAt 0).state ≠ 0 ∧
       (let h : Gw := { g with chn := { g.chn with failedOver := true, backSince := some 0 } }
        h.ringBack = true ∧ h.chn.failedOver = true ∧
          max (h.chn.backSince.getD h.tb.tick) (max (h.chainAt 0).upSince (h.chainAt 1).upSince) + h.param Par.chnRingWtrMs * ticksPerMs ≤ h.tb.tick)) := by
  decide +kernel


/-- The ring with messages waiting, and its CTRL, ring, own and transit messages in their chunks. -/
def gwRing3 (inbox : List Inbound) : Gw := { gwRing2 upPorts inbox with chn := { (gwRing2 upPorts inbox).chn with backSince := some 0 } }

theorem wit_SideMessages_given :
    let g := gwRing3 []
    g.chainUsed 1 = true ∧ (g.chainAt 1).aligned = true ∧ g.mayCarry 1 { cls := 1 } = true ∧
      g.mayCarry 1 { cls := 2, dst := 7, hops := 1 } = true ∧ g.mayCarry 1 { cls := 2, dst := 7, hops := 2 } = true ∧
      g.mayCarry 1 { cls := 3, dst := 5, typ := 1 } = true ∧ g.routeTo 7 = some 1 ∧ g.chnAddr = 5 := by decide +kernel

theorem wit_ChainWords_other :
    (let g := gwRing3 [⟨0, 0, { cls := 0, typ := 0, body := [0, 9, 0] }⟩]
     (g.takeMsg 0 0).map (fun p => p.1.port) = some 0 ∧ g.upstream ≠ some 0) ∧
    (let g := { gwRing3 [⟨0, 0, { typ := 4, src := 9, body := [1, 2] }⟩] with tb := { step := some ⟨1, 0, none, none⟩ } }
     g.pairRuns 0 = true ∧ g.stepBusy = true ∧ (g.takeMsg 1 4).map (fun p => p.1.msg.src) = some 9 ∧ 9 ≠ g.chnAddr) ∧
    (let g := { gwRing3 [] with timers := [(timerHello, 0), (timerTopology, 0), (timerCal 1, 0)] }
     g.pairRuns 0 = true ∧ mget? g.timers timerHello = some 0 ∧ g.tb.tick < 0 + g.param Par.chnHelloMs * ticksPerMs ∧
       mget? g.timers timerTopology = some 0 ∧ mget? g.timers (timerCal 1) = some 0 ∧
       g.tb.tick < 0 + g.param Par.chnCalPeriodMs * ticksPerMs) ∧
    (let g := gwRing3 [⟨1, 0, { typ := 0, body := [7, 3, 1, 1] }⟩]
     (g.takeMsg 1 0).isSome = true ∧ (g.chainAt 1).aligned = true ∧ g.linkUp 13 = true ∧
       1 ≤ g.chainVersion + 1 ∧ g.chainVersion ≤ 1 + 1) := by decide +kernel

theorem wit_Topology_doubled :
    let g := gwRing3 [⟨0, 0, { typ := 1, body := [5, ((moduleIdentity + 1 : Nat) : Int)] }⟩]
    (g.takeMsg 1 1).isSome = true ∧ (g.chainAt 0).blocked = false ∧ moduleIdentity + 1 ≠ moduleIdentity ∧ 5 = g.chnAddr :=
  ⟨by decide +kernel, by decide +kernel, by omega, by decide +kernel⟩

theorem wit_Reach_old_and_new :
    (let r : Reach := { hops0 := some (1, 0) }
     let g := { gwRing3 [] with tb := { tick := 10 ^ 12 }, chn := { (gwRing3 []).chn with reach := [(7, r)] } }
     mget? g.chn.reach 7 = some r ∧ 0 + g.helloLimit ≤ g.tb.tick ∧
       (let h := { g with tb := { tick := 5 } }; mget? h.chn.reach 7 = some r ∧ h.tb.tick < 0 + h.helloLimit)) ∧
    (let g := { gwRing3 [] with params := (Par.chnRingWtrMs, 1000) :: (gwRing3 []).params,
                                chn := { (gwRing3 []).chn with failedOver := true } }
     g.pairRuns 0 = true ∧ g.ringOwner = true ∧ g.ringBack = true ∧ g.chn.failedOver = true ∧ g.fw.state ≠ .handover ∧
       g.tb.tick < max (g.chn.backSince.getD g.tb.tick) (max (g.chainAt 0).upSince (g.chainAt 1).upSince) +
         g.param Par.chnRingWtrMs * ticksPerMs) := by decide +kernel

/-! ### RemoteAccess -/

theorem wit_RemoteAccess :
    (let g := (gwRing2 upPorts []).setRegN (Reg.rmtTgt 15) 7
     g.islOn 10 = true ∧ (g.rmtAt 15).state ≠ 1 ∧ (g.rmtAt 15).held = none ∧ bits (g.regN (Reg.rmtTgt 15)) 11 0 ≠ g.chnAddr ∧
       g.routeTo (bits (g.regN (Reg.rmtTgt 15)) 11 0) = some 1 ∧ g.mayCarry 1 { cls := 2, dst := 7 } = true ∧
       g.mayCarry 0 { cls := 2, typ := 3, dst := 0xFFF } = true ∧ (g.routeTo 9).isNone = true) ∧
    (let g := { gwRing2 upPorts [⟨0, 0, { cls := 2, typ := 0, src := 7, body := [1, 1, 0x10000, 0] }⟩,
                                 ⟨0, 0, { cls := 2, typ := 1, src := 7, body := [9, 0, 0, 5] }⟩, ⟨0, 0, { cls := 2, typ := 2, src := 7 }⟩,
                                 ⟨0, 0, { cls := 2, typ := 3, src := 7, body := [0, 0x10001, 3] }⟩] with
                rmt := { slots := [(31, { state := 1, sent := true, tag := 9, op := 1 }), (30, { state := 1, tgt := 7 }), (15, { state := 2, held := some 0 })] } }
     (g.takeMsg 2 1).isSome = true ∧ (g.takeMsg 2 2).isSome = true ∧ (g.takeRmt 0).isSome = true ∧
       (let h := { g with chn := { g.chn with inbox := g.chn.inbox.drop 3 } }
        (h.takeRmt 3).isSome = true ∧ (h.takeRmt 0).isNone = true) ∧
       g.islOn 10 = true ∧ g.param Par.rmtServe ≠ 0 ∧ g.farCheck 0x10001 = 1 ∧ g.farCheck 0x10000 = 0 ∧ (g.rmtAt 31).tag = 9 ∧
       (g.rmtAt 31).sent = true ∧ (g.rmtAt 31).mbx = none ∧ (g.rmtAt 30).sent = false ∧ g.mustWait 30 (g.rmtAt 30) = false ∧
       (g.rmtAt 15).held = some 0 ∧ farSensitive 0x40000 = true ∧ farSensitive 0x3FFFC = false ∧
       (let h := { g with tb := { tick := 10 ^ 12 }, farLog := [⟨1, 2, 3⟩] }
        0 + max 1 (h.param Par.rmtHoldMs) * ticksPerMs ≤ h.tb.tick ∧ (h.rmtAt 31).start + h.param Par.rmtTmoUs * ticksPerUs ≤ h.tb.tick ∧
          h.farLog = [⟨1, 2, 3⟩])) := by decide +kernel


theorem wit_Rmt_slots :
    (let g := { gwRing2 upPorts [] with rmt := { slots := [(5, { state := 1 })] } }
     g.islOn 10 = true ∧ (g.rmtAt 5).state = 1) ∧
    (let g := { gwRing2 upPorts [] with
                rmt := { slots := [(30, { state := 1, tgt := 7, op := 1, addr := 0x40000 }),
                                   (31, { state := 1, sent := true, tgt := 7, op := 1, addr := 0x40000 })] } }
     g.islOn 10 = true ∧ (g.rmtAt 30).state = 1 ∧ (g.rmtAt 30).sent = false ∧ g.mustWait 30 (g.rmtAt 30) = true) ∧
    (let g := { gwRing2 upPorts [] with tb := { tick := 10 ^ 12 }, rmt := { slots := [(15, { state := 2, op := 1, addr := 0x40000, held := some 0 })] } }
     (g.rmtAt 15).op = 1 ∧ farSensitive (g.rmtAt 15).addr = true ∧ (g.rmtAt 15).held = some 0 ∧
       0 + max 1 (g.param Par.rmtHoldMs) * ticksPerMs ≤ g.tb.tick) := by decide +kernel

theorem wit_Far_access :
    (let g := { gwRing2 upPorts [] with params := [(Par.rmtServe, 0)] }
     g.param Par.rmtServe = 0) ∧
    (∃ n ∈ [1001], (1000 : Nat) < n) ∧ gwOn.islOn (regIsland 0x10000) = true ∧ 0x10000 % 4 = 0 ∧ gwOn.param Par.rmtServe ≠ 0 ∧
    gwOn.farCheck ((1, 0x10000, 0, 0) : Nat × Nat × Nat × Nat).2.1 = 0 ∧ gwOn.farCheck ((2, 0x10000, 5, 0) : Nat × Nat × Nat × Nat).2.1 = 0 := by
  decide +kernel

theorem wit_Rmt_messages :
    (let g := gwRing2 upPorts [⟨0, 0, { cls := 2, typ := 3, src := 5, body := [0, 0x10000, 3] }⟩]
     g.islOn 10 = true ∧ (g.takeRmt 3).map (fun p => p.1.msg.src) = some g.chnAddr ∧ g.chnAddr ≠ 0) ∧
    (let g := gwRing2 upPorts [⟨0, 0, { cls := 2, typ := 3, src := 7, body := [0, 0x10000, 3] }⟩]
     (g.takeRmt 3).isSome = true ∧ 7 ≠ g.chnAddr ∧ g.farCheck 0x10000 = 0 ∧ g.param Par.rmtServe ≠ 0) ∧
    (let g := { gwRing2 upPorts [⟨0, 0, { cls := 2, typ := 2, src := 7 }⟩] with farLog := List.replicate 32 ⟨1, 2, 3⟩ }
     (g.takeMsg 2 2).isSome = true ∧ 32 ≤ g.farLog.length) ∧
    (let g := { gwRing2 upPorts [] with farLog := [⟨1, 2, 3⟩], rmt := { ferrArmed := true } }
     g.islOn 10 = true ∧ g.rmt.ferrArmed = true ∧ g.farLog = ⟨1, 2, 3⟩ :: []) ∧
    (let x : Inbound := ⟨0, 0, { cls := 2, typ := 0, src := 7, body := [1, 1, 0x10000, 0] }⟩
     let y : Inbound := ⟨0, 0, { cls := 2, typ := 3, src := 8, body := [0, 0x10000, 3] }⟩
     (gwRing2 upPorts [x, y]).chn.inbox = [x, y] ∧ ((gwRing2 upPorts [x, y]).takeRmt 3).map (·.1) = some y ∧
       (gwRing2 upPorts [y, x]).chn.inbox = [y, x] ∧ ((gwRing2 upPorts [y, x]).takeRmt 0).map (·.1) = some x) := by decide +kernel

end Sys2Proof.Tests
end

section
/-! SUPPORT. Every command answers a next state; the interrupt outputs of a change keep what the change put out; the answer
of an effect that changes the module alone. -/

namespace Sys2Proof.Machine

/-! ### Every command answers a next state -/

/-- Every arm of the dispatch is an answer, and an answer is a next state. -/
theorem exec_eq_next (c : Instr) (s : State) : ∃ t, exec c s = .next t := by
  cases c <;> exact ⟨_, rfl⟩

/-! ### The interrupt outputs of a change -/

theorem mem_out_message {g : Gw} {x : Out} (v : Nat) (h : x ∈ g.out) : x ∈ (g.message v).out := by
  unfold Gw.message
  split
  · exact h
  · split
    · exact h
    · exact List.mem_append_left _ h

theorem mem_out_messages {x : Out} (l : List Nat) {g : Gw} (h : x ∈ g.out) : x ∈ (l.foldl Gw.message g).out := by
  induction l generalizing g with
  | nil => exact h
  | cons v r ih => exact ih (mem_out_message v h)

/-- The interrupt outputs of a change are added behind what the change put out. -/
theorem mem_out_interrupts (a : Gw) {g : Gw} {x : Out} (h : x ∈ g.out) : x ∈ (a.interrupts g).out := by
  unfold Gw.interrupts
  dsimp only
  split
  · exact mem_out_messages _ h
  · exact List.mem_append_left _ (mem_out_messages _ h)

/-! ### Answers of effects on the module -/

theorem answer_of_withGw {f : State → State} {s : State} {g : Gw} (h : f s = s.withGw g) :
    answer f s = .next (s.after g) := by
  unfold answer
  rw [h]
  rfl

end Sys2Proof.Machine
end

section
/-! SUPPORT. The accesses of BAR0: the host's reads and writes as accesses of the register bus, the register bus outside the
CAN windows as an access of the map, and what the map does for a register without a command of its own (R9, R13, R14). -/

namespace Sys2Proof.Machine

/-! ### Access codes (R9) -/

/-- A write leaves a bit by its access code: W1S over W1C over RW. -/
theorem getLsbD_written (r : RegRow) (old v : W32) {k : Nat} (hk : k < 32) :
    (r.written old v).getLsbD k =
      if (w32 r.w1s).getLsbD k && v.getLsbD k then true
      else if (w32 r.w1c).getLsbD k && v.getLsbD k then false
      else if (w32 r.rw).getLsbD k then v.getLsbD k else old.getLsbD k := by
  simp only [RegRow.written, BitVec.getLsbD_or, BitVec.getLsbD_and, BitVec.getLsbD_not, hk, decide_true, Bool.true_and]
  cases v.getLsbD k with
  | false => cases (w32 r.rw).getLsbD k <;> simp
  | true =>
    cases (w32 r.w1s).getLsbD k
    · cases (w32 r.w1c).getLsbD k <;> cases (w32 r.rw).getLsbD k <;> simp
    · simp

/-- A register of RC bits alone reads 0 after a read. -/
theorem afterRead_of_rc_ones {r : RegRow} (hr : r.rc = 0xFFFFFFFF) (old : W32) : r.afterRead old = 0 := by
  have hones : w32 0xFFFFFFFF = BitVec.allOnes 32 := by decide
  simp [RegRow.afterRead, hr, hones]

@[simp] theorem w32_toNat (w : W32) : w32 w.toNat = w := by simp [w32]

/-! ### The register map -/

theorem view_of_findReg_none (g : Gw) {off : Nat} (hf : findReg off = none) : g.view off = 0 := by
  simp [Gw.view, hf]

theorem mapRead_of_findReg_none (g : Gw) {off : Nat} (hf : findReg off = none) : g.mapRead off = (g, 0) := by
  simp [Gw.mapRead, hf]

/-- A read of a listed register: its companions are latched, its queue moves, its RC bits are cleared. -/
theorem mapRead_of_findReg (g : Gw) {off i : Nat} {r : RegRow} (hn : g.noPwr off = false)
    (hf : findReg off = some (r, i)) (hcap : r.base ≠ Reg.arcCapD0 0) :
    g.mapRead off =
      (({ ((g.companions r.base i).foldl (fun (g : Gw) (q : Nat × Nat) => g.latch q.1 (w32 q.2)) g).queueRead r.base i
          with out := g.out } : Gw).readClear off, (g.view off).toNat) := by
  simp [Gw.mapRead, hn, hf, hcap]

/-- A read of a register without companions or a queue behind it clears its RC bits and does nothing else. -/
theorem mapRead_plain (g : Gw) {off i : Nat} {r : RegRow} (hn : g.noPwr off = false)
    (hf : findReg off = some (r, i)) (hcap : r.base ≠ Reg.arcCapD0 0) (hcomp : g.companions r.base i = [])
    (hq : g.queueRead r.base i = g) :
    g.mapRead off = (g.setReg off (r.afterRead (g.reg off)), (g.view off).toNat) := by
  rw [mapRead_of_findReg g hn hf hcap, hcomp, List.foldl_nil, hq]
  simp [Gw.readClear, hf]

theorem mapWrite_of_findReg_none (g : Gw) {off : Nat} (v : W32) (hf : findReg off = none) : g.mapWrite off v = g := by
  simp [Gw.mapWrite, hf]

/-- A write to a register without a command of its own acts by the register's access codes. -/
theorem mapWrite_plain (g : Gw) {off i : Nat} {r : RegRow} (v : W32) (hn : g.noPwr off = false)
    (hf : findReg off = some (r, i)) (hb : plainBase r.base) :
    g.mapWrite off v = g.setReg off (r.written (g.reg off) v) := by
  obtain ⟨hword, hdb, hmsix, hvack, hrxCtl, hrxTail, htev, hcry, hisl, hrmt, -⟩ := hb
  have hcfg : r.base ≠ Reg.tevOutCfg 0 := fun e => htev (by rw [e]; decide)
  have hset : ¬(Reg.tevOutCfg 0 < r.base ∧ r.base ≤ Reg.tevOutCount 0) := fun e => htev ⟨Nat.le_of_lt e.1, e.2⟩
  simp [Gw.mapWrite, Gw.plainWrite, hn, hf, hword, hdb, hmsix, hvack, hrxCtl, hrxTail, hcfg, hset, hcry, hisl, hrmt]

/-! ### The register bus -/

theorem not_canSlots_of_offWindows {off : Nat} (hw : offWindows off) :
    ¬(0xC0000 ≤ off ∧ off < 0xE0000) ∧ ¬(0xE0000 ≤ off ∧ off < 0xE2000) := by
  obtain ⟨hcan, -, -⟩ := hw
  omega

/-- Outside the CAN windows a read of a running island is a read of the map. -/
theorem busRead_eq_mapRead (g : Gw) {off : Nat} (hw : offWindows off) (hid : off ≠ Reg.sysId)
    (hst : off ≠ Reg.sysIslStat) (hi : g.islOn (regIsland off) = true) :
    g.busRead off = ((g.mapRead off).1, w32 (g.mapRead off).2) := by
  obtain ⟨hslots, hregs⟩ := not_canSlots_of_offWindows hw
  obtain ⟨-, -, hram⟩ := hw
  simp [Gw.busRead, hid, hst, hi, hslots, hregs, hram]

/-- An offset that holds no register reads 0 (R13). -/
theorem busRead_of_findReg_none (g : Gw) {off : Nat} (hw : offWindows off) (hi : g.islOn (regIsland off) = true)
    (hf : findReg off = none) : g.busRead off = (g, 0) := by
  by_cases hid : off = Reg.sysId ∨ off = Reg.sysIslStat
  · simp [Gw.busRead, hid, view_of_findReg_none g hf]
  · obtain ⟨hid, hst⟩ := not_or.mp hid
    rw [busRead_eq_mapRead g hw hid hst hi, mapRead_of_findReg_none g hf]
    rfl

/-- Outside the CAN windows a write to a running island is a write to the map. -/
theorem busWrite_eq_mapWrite (s : State) {off : Nat} (v : W32) (hw : offWindows off) (hrom : off ≠ Reg.updRomCtl)
    (hi : s.gw.islOn (regIsland off) = true) : busWrite off v s = s.withGw (s.gw.mapWrite off v) := by
  obtain ⟨hslots, hregs⟩ := not_canSlots_of_offWindows hw
  obtain ⟨-, hexp, -⟩ := hw
  simp [busWrite, hi, hslots, hregs, hexp, hrom]

/-! ### The host's accesses -/

theorem wordAccess_four {off : Nat} (ha : off % 4 = 0) : wordAccess off 4 = true := by simp [wordAccess, ha]

theorem wordAccess_eq_false {off size : Nat} (h : ¬(size = 4 ∧ off % 4 = 0)) : wordAccess off size = false := by
  simpa [wordAccess] using h

theorem regInReset_of_islOn {g : Gw} {off : Nat} (hi : g.islOn (regIsland off) = true) : g.regInReset off = false := by
  have hrun : mgetD g.isl (regIsland off) 0 = 1 := by simpa [Gw.islOn] using hi
  simp [Gw.regInReset, hrun]

theorem exec_registerWrite (off size : Nat) (v : W32) (s : State) :
    exec (.registerWrite off size v) s =
      answer (fun s => if s.gw.islOn 14 then writeBy s.gw.hostInit off size v s else s) s := rfl

theorem exec_rcRead (off size : Nat) (s : State) :
    exec (.rcRead off size) s = .next (s.after (s.gw.hostRead off size)) := rfl

theorem exec_latchingLoRead (off : Nat) (s : State) :
    exec (.latchingLoRead off) s = .next (s.after (s.gw.hostRead off 4)) := rfl

/-- An aligned 32-bit host write is a write on the register bus. -/
theorem exec_registerWrite_word {s : State} {off : Nat} (v : W32) (hh : s.gw.islOn 14 = true) (ha : off % 4 = 0) :
    exec (.registerWrite off 4 v) s = answer (busWrite off v) s := by
  rw [exec_registerWrite]
  simp [answer, hh, writeBy, wordAccess_four ha]

/-- A host write to a register without a command of its own (R9). -/
theorem exec_registerWrite_plain {s : State} {off i : Nat} {r : RegRow} (v : W32) (hf : findReg off = some (r, i))
    (hb : plainBase r.base) (hw : offWindows off) (hrom : off ≠ Reg.updRomCtl) (hn : s.gw.noPwr off = false)
    (ha : off % 4 = 0) (hh : s.gw.islOn 14 = true) (hi : s.gw.islOn (regIsland off) = true) :
    exec (.registerWrite off 4 v) s = .next (s.after (s.gw.setReg off (r.written (s.gw.reg off) v))) := by
  rw [exec_registerWrite_word v hh ha]
  refine answer_of_withGw ?_
  rw [busWrite_eq_mapWrite s v hw hrom hi, mapWrite_plain s.gw v hn hf hb]

/-- A host write to an offset that holds no register (R13). -/
theorem exec_registerWrite_of_findReg_none {s : State} {off : Nat} (v : W32) (hf : findReg off = none)
    (hw : offWindows off) (hrom : off ≠ Reg.updRomCtl) (ha : off % 4 = 0) (hh : s.gw.islOn 14 = true)
    (hi : s.gw.islOn (regIsland off) = true) : exec (.registerWrite off 4 v) s = .next s := by
  rw [exec_registerWrite_word v hh ha]
  refine answer_same ?_
  rw [busWrite_eq_mapWrite s v hw hrom hi, mapWrite_of_findReg_none s.gw v hf]
  rfl

/-- An aligned 32-bit host read is a read on the register bus. -/
theorem hostRead_word {g : Gw} {off : Nat} (hh : g.islOn 14 = true) (ha : off % 4 = 0) :
    g.hostRead off 4 = (g.busRead off).1.emit (.readData off (g.busRead off).2) := by
  simp [Gw.hostRead, hh, Gw.readBy, wordAccess_four ha]

/-- Any other host read is rejected with all ones (R14). -/
theorem hostRead_rejected {g : Gw} {off size : Nat} (h : ¬(size = 4 ∧ off % 4 = 0)) (hh : g.islOn 14 = true)
    (hi : g.islOn (regIsland (off / 4 * 4)) = true) :
    g.hostRead off size = (g.badAccess false g.hostInit off).emit (.readData off 0xFFFFFFFF) := by
  simp [Gw.hostRead, hh, Gw.readBy, wordAccess_eq_false h, regInReset_of_islOn hi]

/-- Any other host write is recorded and discarded (R14). -/
theorem writeBy_rejected {s : State} {off size : Nat} (init : Nat) (v : W32) (h : ¬(size = 4 ∧ off % 4 = 0))
    (hi : s.gw.islOn (regIsland (off / 4 * 4)) = true) :
    writeBy init off size v s = s.withGw (s.gw.badAccess true init off) := by
  simp [writeBy, wordAccess_eq_false h, regInReset_of_islOn hi]

/-! ### The latching read of the frontier (R83) -/

theorem findReg_fabStrFrontLo :
    findReg Reg.fabStrFrontLo = some ({ name := "FAB_STR_FRONT_LO", base := Reg.fabStrFrontLo }, 0) := rfl

theorem findReg_fabStrFrontHi :
    findReg Reg.fabStrFrontHi = some ({ name := "FAB_STR_FRONT_HI", base := Reg.fabStrFrontHi }, 0) := rfl

theorem noPwr_of_lt (g : Gw) {off : Nat} (h : off < 0x1E0000) : g.noPwr off = false := by
  simp [Gw.noPwr, Nat.not_le.mpr h]

/-- FAB_STR_FRONT_LO shows the low half of the frontier, before a configuration too. -/
theorem view_fabStrFrontLo (g : Gw) : g.view Reg.fabStrFrontLo = w32 (stampLo g.str.frontier) := by
  have hlive : g.live Reg.fabStrFrontLo 0 = some (stampLo g.str.frontier) := by
    have hcfg : g.awaitsConfig Reg.fabStrFrontLo = false := by
      simp [Gw.awaitsConfig, Reg.fabStrFrontLo, Reg.arcRstat, Reg.arcRgeo, Reg.sysDramMap]
    rw [Gw.live, hcfg]
    rfl
  have hlatched : Reg.fabStrFrontLo ∉ latchedRegs := by decide
  simp [Gw.view, noPwr_of_lt g (off := Reg.fabStrFrontLo) (by decide), findReg_fabStrFrontLo, hlive, hlatched]

/-- FAB_STR_FRONT_HI shows what the last read of the low half latched. -/
theorem view_fabStrFrontHi (g : Gw) :
    g.view Reg.fabStrFrontHi = mgetD g.latches Reg.fabStrFrontHi (regReset Reg.fabStrFrontHi) := by
  have hlatched : Reg.fabStrFrontHi ∈ latchedRegs := by decide
  simp [Gw.view, noPwr_of_lt g (off := Reg.fabStrFrontHi) (by decide), findReg_fabStrFrontHi, hlatched, Gw.latched]

/-- A host read of FAB_STR_FRONT_LO latches the high half and returns the low half. -/
theorem hostRead_fabStrFrontLo {g : Gw} (hh : g.islOn 14 = true) (hf : g.islOn 0 = true) :
    ∃ rs, g.hostRead Reg.fabStrFrontLo 4 =
      ({ g.latch Reg.fabStrFrontHi (w32 (stampHi g.str.frontier)) with regs := rs } : Gw).emit
        (.readData Reg.fabStrFrontLo (w32 (stampLo g.str.frontier))) := by
  have hw : offWindows Reg.fabStrFrontLo := by unfold offWindows; decide
  have hi : g.islOn (regIsland Reg.fabStrFrontLo) = true := hf
  have hread := mapRead_of_findReg g (noPwr_of_lt g (by decide)) findReg_fabStrFrontLo (by decide)
  rw [hostRead_word hh (by decide), busRead_eq_mapRead g hw (by decide) (by decide) hi, hread, w32_toNat,
    view_fabStrFrontLo]
  exact ⟨_, rfl⟩

end Sys2Proof.Machine
end

section
/-! The statements on what every step answers and on the accesses of BAR0. -/

namespace Sys2Proof.Machine

/-- Settles O4: a step is an answer of the front command's meaning, or of one tick on an empty queue, and an answer is a
next state. -/
theorem noCommandStopsTheModule : Obligations.NoCommandStopsTheModule := by
  intro s
  unfold step
  split
  · exact ⟨_, rfl⟩
  · exact exec_eq_next _ _

/-- Settles O26: writes act by the access codes, an RC counter reads 0 after its read, an offset with no register reads 0
and keeps nothing, and the read of FAB_STR_FRONT_LO latches its upper half. -/
theorem registerAccessCodes : Obligations.RegisterAccessCodes := by
  refine ⟨?plainWrite, ?counterRead, ?noRegister, ?latchingRead⟩
  case plainWrite =>
    intro s off i v r hf hb hw hrom hn ha hh hi
    exact ⟨r.written (s.gw.reg off) v, exec_registerWrite_plain v hf hb hw hrom hn ha hh hi,
      fun k hk => getLsbD_written r _ v hk⟩
  case counterRead =>
    intro s off i r hf hrc hw ha hid hst hcomp hq hcap hn hh hi
    rw [exec_rcRead, hostRead_word hh ha, busRead_eq_mapRead s.gw hw hid hst hi,
      mapRead_plain s.gw hn hf hcap hcomp hq, afterRead_of_rc_ones hrc, w32_toNat]
  case noRegister =>
    intro s off hf hw ha hh hi hrom
    refine ⟨?_, fun v => exec_registerWrite_of_findReg_none v hf hw hrom ha hh hi⟩
    rw [exec_rcRead, hostRead_word hh ha, busRead_of_findReg_none s.gw hw hi hf]
  case latchingRead =>
    intro s hh hfab
    obtain ⟨rs, hread⟩ := hostRead_fabStrFrontLo hh hfab
    refine ⟨_, exec_latchingLoRead _ s, ?data, ?strata, ?high⟩ <;> simp only [State.after, hread]
    case data => exact List.contains_iff_mem.mpr (mem_out_interrupts _ (List.mem_append_right _ (by simp)))
    case strata => rw [interrupts_str]; rfl
    case high => rw [view_fabStrFrontHi, interrupts_latches]; exact mgetD_mput_same _ _ _ _

/-- Settles O27: an access that is not an aligned word changes the record of rejected accesses and its flag only. -/
theorem rejectedAccesses : Obligations.RejectedAccesses := by
  intro s off size v h hh hi
  refine ⟨fun write => rfl, ?read, ?write⟩
  case read => rw [exec_rcRead, hostRead_rejected h hh hi]
  case write =>
    rw [exec_registerWrite]
    refine answer_of_withGw ?_
    rw [if_pos hh, writeBy_rejected _ v h hi]

end Sys2Proof.Machine
end

section
/-! SUPPORT. DRAM after a write of several bytes; and what every effect keeps, whatever it does: the queue of waiting
commands and the canonical form of DRAM (R29, R34). -/

namespace Sys2Proof.Machine

/-! ### Bytes written from an address upward (R702) -/

theorem dramByte_dramPut_outside (d : List Host.Cell) {a : Nat} (b : Byte) (h : dramSize ≤ a) (c : Nat) :
    dramByte (dramPut d a b) c = dramByte d c := by
  simp [dramPut, Nat.not_lt.mpr h]

/-- Bytes below the written range, above it, or outside usable DRAM stay. -/
theorem dramByte_dramWrite_frame (bs : List Byte) (d : List Host.Cell) (a : Nat) {c : Nat}
    (h : c < a ∨ a + bs.length ≤ c ∨ dramSize ≤ c) : dramByte (dramWrite d a bs) c = dramByte d c := by
  induction bs generalizing d a with
  | nil => rfl
  | cons b r ih =>
    rw [List.length_cons] at h
    rw [dramWrite, ih _ _ (by omega)]
    by_cases hc : c = a
    · exact dramByte_dramPut_outside d b (by omega) c
    · exact dramByte_dramPut_ne d b hc

/-- A written byte inside usable DRAM reads back. -/
theorem dramByte_dramWrite_written (bs : List Byte) (d : List Host.Cell) (a : Nat) {i : Nat} (hi : i < bs.length)
    (ha : a + i < dramSize) : dramByte (dramWrite d a bs) (a + i) = bs.getD i 0 := by
  induction bs generalizing d a i with
  | nil => simp at hi
  | cons b r ih =>
    rw [dramWrite]
    cases i with
    | zero => rw [dramByte_dramWrite_frame r _ _ (by omega)]; exact dramByte_dramPut_same d b ha
    | succ i =>
      have := ih (dramPut d a b) (a + 1) (i := i) (by simpa using hi) (by omega)
      rwa [Nat.add_assoc, Nat.add_comm 1 i] at this

/-! ### What every effect keeps -/

/-- From `s` to `t` the queue stays and DRAM stays in canonical form. -/
structure Keeps (s t : State) : Prop where
  pending : t.pending = s.pending
  wf : dramWf s.dram = true → dramWf t.dram = true

theorem Keeps.refl (s : State) : Keeps s s := ⟨rfl, id⟩

theorem Keeps.trans {s t u : State} (h : Keeps s t) (k : Keeps t u) : Keeps s u :=
  ⟨k.pending.trans h.pending, k.wf ∘ h.wf⟩

/-- A change of the module alone. -/
theorem keeps_withGw (s : State) (g : Gw) : Keeps s (s.withGw g) := ⟨rfl, id⟩

theorem Keeps.andGw {s t : State} (h : Keeps s t) (g : Gw) : Keeps s (t.withGw g) := h.trans (keeps_withGw t g)

theorem keeps_onGw (f : Gw → Gw) (s : State) : Keeps s (onGw f s) := ⟨rfl, id⟩

/-- Bytes written to DRAM, with any change of the module. -/
theorem keeps_dramWrite (s : State) (g : Gw) (a : Nat) (bs : List Byte) :
    Keeps s { s with gw := g, dram := dramWrite s.dram a bs } := ⟨rfl, dramWf_dramWrite a bs⟩

/-- DRAM lost, with any change of the module. -/
theorem keeps_dramLost (s : State) (g : Gw) : Keeps s { s with gw := g, dram := [] } := ⟨rfl, fun _ => rfl⟩

/-- Bytes written to DRAM at an address that there may be, with any change of the module. -/
theorem keeps_dramWrite_at (s : State) (g : Gw) (a : Option Nat) (bs : List Byte) :
    Keeps s { s with gw := g, dram := match a with
      | some a => dramWrite s.dram a bs
      | none => s.dram } := by
  cases a with
  | some a => exact keeps_dramWrite s g a bs
  | none => exact keeps_withGw s g

theorem keeps_foldl {α : Type} (f : State → α → State) (h : ∀ s x, Keeps s (f s x)) (l : List α) (s : State) :
    Keeps s (l.foldl f s) := by
  induction l generalizing s with
  | nil => exact Keeps.refl s
  | cons x r ih => exact (h s x).trans (ih (f s x))

theorem Keeps.ite {s t u : State} {p : Prop} [Decidable p] (ht : Keeps s t) (hu : Keeps s u) :
    Keeps s (if p then t else u) := by
  split
  · exact ht
  · exact hu

theorem Keeps.ite_fst {α : Type} {s : State} {q r : State × α} {p : Prop} [Decidable p] (hq : Keeps s q.1)
    (hr : Keeps s r.1) : Keeps s (if p then q else r).1 := by
  split
  · exact hq
  · exact hr

/-! ### Rows of mailbox commands -/

theorem keeps_effGw (f : Nat → Gw → Gw × Answer) (m : Nat) (s : State) : Keeps s (effGw f m s).1 := keeps_withGw s _

theorem keeps_effAt (f : Nat → Stamp → Gw → Gw × Answer) (m : Nat) (t : Stamp) (s : State) : Keeps s (effAt f m t s).1 :=
  keeps_withGw s _

theorem keeps_directRow (code m : Nat) {eff : Nat → State → State × Answer} (h : ∀ m s, Keeps s (eff m s).1) (s : State) :
    Keeps s (directRow code eff m s) := ((h m s).andGw _).ite (Keeps.refl s)

theorem keeps_changeRow (code m : Nat) {eff : Nat → Stamp → State → State × Answer} (h : ∀ m t s, Keeps s (eff m t s).1)
    (s : State) : Keeps s (changeRow code eff m s) :=
  ((keeps_withGw s _).ite ((h m 0 s).andGw _)).ite (Keeps.refl s)

theorem keeps_pickRow (mine : Gw → Bool) (m : Nat) {row : Nat → State → State} (h : ∀ m s, Keeps s (row m s)) (s : State) :
    Keeps s (pickRow mine row m s) := (h m s).ite (Keeps.refl s)

theorem keeps_flxRow (op : Nat) (allowed : Nat → Gw → Bool) (act : Nat → Gw → Gw) (m : Nat) (s : State) :
    Keeps s (flxRow op allowed act m s) := (keeps_directRow _ m (keeps_effGw _) s).ite (Keeps.refl s)

theorem keeps_pwrSetRow (op m : Nat) (s : State) : Keeps s (pwrSetRow op m s) :=
  (keeps_directRow _ m (keeps_effGw _) s).ite (Keeps.refl s)

theorem keeps_keyRow (code m : Nat) (s : State) : Keeps s (keyRow code m s) := by
  have hgw := keeps_withGw s
  exact (Keeps.refl s).ite ((hgw _).ite (((hgw _).ite ((hgw _).ite (hgw _))).ite (hgw _)))

theorem keeps_ringRow (op typ m : Nat) (s : State) : Keeps s (ringRow op typ m s) := by
  unfold ringRow
  refine (Keeps.refl s).ite ((keeps_withGw s _).ite ?_)
  dsimp only
  split <;> exact keeps_withGw s _

theorem keeps_arcPlayRow (stop : Bool) (eff : Nat → Stamp → Gw → Gw × Answer) (m : Nat) (s : State) :
    Keeps s (arcPlayRow stop eff m s) := (keeps_changeRow _ m (keeps_effAt _) s).ite (Keeps.refl s)

theorem keeps_cfgParamWriteRow (m : Nat) (s : State) : Keeps s (cfgParamWriteRow m s) :=
  ((keeps_withGw s _).ite (keeps_withGw s _)).ite (Keeps.refl s)

theorem keeps_gateCommitRow (m : Nat) (s : State) : Keeps s (gateCommitRow m s) := by
  unfold gateCommitRow
  refine (keeps_changeRow _ m (keeps_effAt _) s).ite ((keeps_withGw s _).ite ?_)
  dsimp only
  split <;> exact keeps_withGw s _

/-! ### Effects that write DRAM -/

theorem keeps_catInsert (m : Nat) (t : Stamp) (s : State) : Keeps s (catInsert m t s).1 := by
  refine Keeps.ite_fst (Keeps.refl s) ?_
  split
  · exact keeps_withGw s _
  · exact keeps_dramWrite_at s _ _ _

theorem keeps_catDelete (m : Nat) (t : Stamp) (s : State) : Keeps s (catDelete m t s).1 := by
  refine Keeps.ite_fst (Keeps.refl s) ?_
  split
  · exact keeps_withGw s _
  · exact keeps_dramWrite_at s _ _ _

theorem keeps_keyAttest (m : Nat) (s : State) : Keeps s (keyAttest m s).1 := by
  refine Keeps.ite_fst (Keeps.refl s) ?_
  split
  · exact Keeps.refl s
  · exact keeps_dramWrite s _ _ _

theorem keeps_arcPut (s : State) (k : Nat) (bs : List Byte) : Keeps s (arcPut s k bs) := keeps_dramWrite s _ _ _

theorem keeps_arcWrite (s : State) (k : Nat) (c : Copy) (info : CapInfo) : Keeps s (arcWrite s k c info) :=
  (((Keeps.refl s).ite (keeps_arcPut s k _)).trans (keeps_arcPut _ k _)).andGw _

theorem keeps_arcRecord (c : Copy) (info : CapInfo) (s : State) (k : Nat) : Keeps s (arcRecord c info s k) := by
  unfold arcRecord
  dsimp only
  split
  · exact keeps_arcWrite s k c info
  · exact keeps_withGw s _
  · exact (keeps_withGw s _).trans (keeps_arcWrite _ k c info)

theorem keeps_arcSelect (c : Copy) (s : State) : Keeps s (arcSelect c s) := by
  unfold arcSelect
  split
  · exact keeps_foldl _ (keeps_arcRecord c _) _ s
  · exact Keeps.refl s

theorem keeps_archiveStep (t : Stamp) (a : TxAct) (s : State) : Keeps s (archiveStep t a s) := by
  unfold archiveStep
  dsimp only
  split
  · exact (keeps_withGw s _).ite
      (((keeps_withGw s _).trans (keeps_arcSelect _ _)).ite ((keeps_withGw s _).trans (keeps_arcSelect _ _)))
  · exact keeps_withGw s _

theorem keeps_selection (f : Nat) (s : State) : Keeps s (selection f s) := by
  unfold selection
  split
  · split
    · exact (keeps_archiveStep _ _ s).ite (keeps_withGw s _)
    · exact Keeps.refl s
  · exact Keeps.refl s

theorem keeps_retireWords (old : Gw) (s : State) : Keeps s (retireWords old s) := by
  have hzeros : ∀ (l : List Nat) (d : List Host.Cell), dramWf d = true →
      dramWf (l.foldl (fun d w => dramWrite d (64 * w) (List.replicate 64 0)) d) = true :=
    fun l d h => List.foldlRecOn (motive := fun d => dramWf d = true) l _ h (fun _ hd w _ => dramWf_dramWrite _ _ hd)
  exact ⟨rfl, hzeros _ _⟩

theorem keeps_bar2Write (addr : Nat) (bytes : List Byte) (s : State) : Keeps s (bar2Write addr bytes s) :=
  (keeps_dramWrite s _ _ _).ite (Keeps.refl s)

/-! ### Changes at their stamp -/

theorem keeps_changeEffect (m : Nat) (t : Stamp) (s : State) : Keeps s (changeEffect m t s).1 := by
  iterate 3 refine Keeps.ite_fst (keeps_effAt _ m t s) ?_
  refine Keeps.ite_fst (keeps_catInsert m t s) (Keeps.ite_fst (keeps_catDelete m t s) ?_)
  iterate 18 refine Keeps.ite_fst (keeps_effAt _ m t s) ?_
  exact Keeps.refl s

theorem keeps_applyChange (s : State) : Keeps s (applyChange s) := by
  unfold applyChange
  split
  · refine (Keeps.refl s).ite ?_
    dsimp only
    split
    · exact keeps_withGw s _
    · exact ((keeps_withGw s _).trans (keeps_changeEffect _ _ _)).andGw _
  · exact Keeps.refl s

theorem keeps_loseCommand (s : State) (m : Nat) : Keeps s (loseCommand s m) := by
  unfold loseCommand
  refine Keeps.andGw ?_ _
  split
  · exact ((keeps_withGw s _).trans (keeps_changeEffect _ _ _)).ite (keeps_withGw s _)
  · exact Keeps.refl s

theorem keeps_pairRestart (k lanes : Nat) (s : State) : Keeps s (pairRestart k lanes s) :=
  (Keeps.refl s).ite
    ((((keeps_withGw s _).trans (keeps_foldl _ keeps_loseCommand _ _)).andGw _).ite (keeps_withGw s _))

/-! ### The register bus -/

theorem keeps_romGo (v : Nat) (s : State) : Keeps s (romGo v s) :=
  (Keeps.refl s).ite ((keeps_withGw s _).ite (keeps_withGw s _))

theorem keeps_busWrite (off : Nat) (v : W32) (s : State) : Keeps s (busWrite off v s) := by
  unfold busWrite
  refine (Keeps.refl s).ite (Keeps.ite ?_ (Keeps.ite ?_
    ((keeps_withGw s _).ite ((keeps_romGo _ s).ite (keeps_withGw s _)))))
  all_goals
    split
    · exact keeps_withGw s _
    · exact Keeps.refl s

theorem keeps_writeBy (init off size : Nat) (v : W32) (s : State) : Keeps s (writeBy init off size v s) :=
  (keeps_busWrite off v s).ite ((Keeps.refl s).ite (keeps_withGw s _))

theorem keeps_spiWrite (s : State) (addr : Nat) (bs : List Byte) : Keeps s (spiWrite s addr bs) := by
  fun_induction spiWrite s addr bs with
  | case1 s addr a b c d r ih => exact (keeps_writeBy _ _ _ _ s).trans ih
  | case2 => exact Keeps.refl _

theorem keeps_spiTransaction (mosi : List Byte) (s : State) : Keeps s (spiTransaction mosi s) :=
  (Keeps.refl s).ite ((keeps_spiWrite s _ _).ite
    (((keeps_withGw s _).ite (keeps_withGw s _)).ite (Keeps.refl s)))

/-! ### Remote accesses (R470, R482) -/

theorem keeps_access {f : State → State × Nat} (h : ∀ s, Keeps s (f s).1) (x : SeqAt) : Keeps x.s (x.access f).1.s := by
  unfold SeqAt.access
  dsimp only
  split
  · exact Keeps.refl _
  · split
    · exact Keeps.refl _
    · exact h x.s

theorem keeps_farRead (a : Nat) (s : State) : Keeps s (farRead a s).1 := keeps_withGw s _

theorem keeps_farWrite (a v : Nat) (s : State) : Keeps s (farWrite a v s).1 := keeps_busWrite a _ s

theorem keeps_seqOp (o : Nat × Nat × Nat × Nat) (x : SeqAt) : Keeps x.s (seqOp o x).1.s := by
  have hread := keeps_access (keeps_farRead o.2.1) x
  have hthen : ∀ v, Keeps x.s ((x.access (farRead o.2.1)).1.access (farWrite o.2.1 v)).1.s :=
    fun v => hread.trans (keeps_access (keeps_farWrite _ v) _)
  unfold seqOp
  dsimp only
  split
  · exact Keeps.refl _
  split
  · exact Keeps.refl _
  split
  · exact keeps_access (keeps_farWrite _ _) x
  split
  · exact hread
  split
  · exact hthen _
  split
  · split
    · exact hthen _
    · exact hread
  · exact hread

theorem keeps_seqRun (l : List (Nat × Nat × Nat × Nat)) (x : SeqAt) : Keeps x.s (seqRun l x).1 := by
  induction l generalizing x with
  | nil => exact Keeps.refl _
  | cons o r ih =>
    unfold seqRun
    dsimp only
    split
    · exact keeps_seqOp o x
    · exact (keeps_seqOp o x).trans (ih _)

theorem keeps_farExecute (ns : List Nat) (b : List Int) (s : State) : Keeps s (farExecute ns b s).1 := by
  have hsame := Keeps.refl s
  exact Keeps.ite_fst hsame (Keeps.ite_fst (keeps_seqRun _ { s := s, t := 0, ns := ns })
    (Keeps.ite_fst hsame (Keeps.ite_fst hsame (Keeps.ite_fst hsame (Keeps.ite_fst (keeps_busWrite _ _ s)
      (Keeps.ite_fst (keeps_withGw s _) (Keeps.ite_fst hsame hsame)))))))

theorem keeps_farRequest (ns : List Nat) (s : State) : Keeps s (farRequest ns s) := by
  unfold farRequest
  split
  · exact Keeps.refl s
  · refine Keeps.andGw ?_ _
    split
    · exact (keeps_withGw s _).trans (keeps_farExecute ns _ _)
    · exact keeps_withGw s _

theorem keeps_bcastReceive (s : State) : Keeps s (bcastReceive s) := by
  unfold bcastReceive
  split
  · exact Keeps.refl s
  · exact (keeps_withGw s _).ite
      ((keeps_withGw s _).ite (((keeps_withGw s _).trans (keeps_busWrite _ _ _)).andGw _))

/-! ### Internal events, playback, resets and the tick -/

theorem keeps_frameRelease (ecc : List Nat) (s : State) : Keeps s (frameRelease ecc s) := by
  unfold frameRelease
  split
  · exact keeps_withGw s _
  · exact Keeps.refl s

theorem keeps_segmentClose (s : State) : Keeps s (segmentClose s) := by
  unfold segmentClose
  split
  · exact (keeps_withGw s _).ite (Keeps.refl s)
  · exact Keeps.refl s

theorem keeps_ageingVisit (s : State) : Keeps s (ageingVisit s) := by
  unfold ageingVisit
  split
  · exact keeps_withGw s _
  · exact Keeps.refl s

theorem keeps_vitrineVisit (s : State) : Keeps s (vitrineVisit s) := by
  unfold vitrineVisit
  split
  · exact keeps_withGw s _
  · exact Keeps.refl s

theorem keeps_composerCyclic (s : State) : Keeps s (composerCyclic s) := by
  unfold composerCyclic
  split
  · split
    · split
      · exact keeps_withGw s _
      · exact Keeps.refl s
    · exact Keeps.refl s
  · exact Keeps.refl s

theorem keeps_pduEvent (s : State) : Keeps s (pduEvent s) := by
  unfold pduEvent
  split
  · split
    · split
      · exact keeps_withGw s _
      · exact Keeps.refl s
    · exact Keeps.refl s
  · exact Keeps.refl s

theorem keeps_signalTimeout (s : State) : Keeps s (signalTimeout s) := by
  unfold signalTimeout
  split
  · split
    · split
      · exact keeps_withGw s _
      · exact Keeps.refl s
    · exact Keeps.refl s
  · exact Keeps.refl s

theorem keeps_linSlotStart (s : State) : Keeps s (linSlotStart s) := by
  unfold linSlotStart
  split
  · split
    · exact keeps_withGw s _
    · exact Keeps.refl s
  · exact Keeps.refl s

theorem keeps_gateBankSwitch (f : Nat) (s : State) : Keeps s (gateBankSwitch f s) := by
  unfold gateBankSwitch
  dsimp only
  split
  · exact (keeps_withGw s _).ite (Keeps.refl s)
  · exact Keeps.refl s

theorem keeps_playFetch (s : State) : Keeps s (playFetch s) := by
  have hgw := keeps_withGw s
  unfold playFetch
  dsimp only
  split
  · exact Keeps.refl s
  · exact (hgw _).ite ((hgw _).ite ((hgw _).ite ((hgw _).ite ((Keeps.refl s).ite (hgw _)))))

theorem keeps_porst (ns straps : Nat) (s : State) :
    Keeps s { s with gw := s.gw.porst ns straps, dram := if ns < 1000 then s.dram else [] } := by
  refine ⟨rfl, fun h => ?_⟩
  dsimp only
  split
  · exact h
  · exact dramWf_nil

theorem keeps_tickStep (s : State) : Keeps s (tickStep s) :=
  (keeps_withGw s _).trans ((keeps_withGw _ _).ite (Keeps.refl _))

/-! ### Every command and every step -/

/-- An effect that keeps them, answered with its interrupt outputs. -/
theorem Keeps.of_answer {f : State → State} {s t : State} (h : answer f s = .next t) (k : Keeps s (f s)) : Keeps s t := by
  cases h
  exact k.andGw _

theorem keeps_execTargetedTestComplete {i : Nat} {pass : Bool} {s t : State}
    (h : execTargetedTestComplete i pass s = .next t) : Keeps s t := by
  unfold execTargetedTestComplete at h
  exact Keeps.of_answer h ((keeps_onGw _ s).trans (keeps_retireWords s.gw _))

theorem keeps_execPorstN {ns straps : Nat} {s t : State} (h : execPorstN ns straps s = .next t) : Keeps s t := by
  unfold execPorstN at h
  exact Keeps.of_answer h (keeps_porst ns straps s)

theorem keeps_execCommitTick {s t : State} (h : execCommitTick s = .next t) : Keeps s t := by
  unfold execCommitTick at h
  exact Keeps.of_answer h ((keeps_dramLost s _).ite (Keeps.refl s))

theorem keeps_execSwitchedRailLoss {s t : State} (h : execSwitchedRailLoss s = .next t) : Keeps s t := by
  unfold execSwitchedRailLoss at h
  exact Keeps.of_answer h ((keeps_dramLost s _).ite (Keeps.refl s))

theorem keeps_exec {c : Instr} {s t : State} (h : exec c s = .next t) : Keeps s t := by
  cases c
  case spiTransaction =>
    exact Keeps.of_answer h (keeps_spiTransaction _ s)
  case registerWrite =>
    exact Keeps.of_answer h ((keeps_writeBy _ _ _ _ s).ite (Keeps.refl s))
  case applyAtChange =>
    exact Keeps.of_answer h (keeps_applyChange s)
  case sysInfo | sysRun | cfgParamRead | cfgImageInfo | egrGateLoad | canRecover | timeStatus | chnTopo |
      rmtExec | keyRootNew | keyInfo | pwrRestart | pwrProfile | pwrStatus | nmSleep | nmStay | nmInsomnia |
      nmWakeCause | arcStatus | updBegin | updBlock | updVerify | updAbort | updStatus | diagSelftest |
      diagErrlog | diagLastgasp =>
    exact Keeps.of_answer h (keeps_directRow _ _ (keeps_effGw _) s)
  case sysResetFirmware | sysResetFactory | ethPortCtlAdmin | ethPortCtlAnRestart | timeStep | timeStepChain |
      updActivate | updActivateConfig | diagDebugUnlock | diagDebugLock =>
    exact Keeps.of_answer h (keeps_pickRow _ _ (fun m => keeps_directRow _ m (keeps_effGw _)) s)
  case cfgParamWrite =>
    exact Keeps.of_answer h (keeps_cfgParamWriteRow _ s)
  case catSearch | catNext | catFlushPort | catFlushPart | sigPduSet | sigPduGet | sigAltSet | egrLeafMap |
      egrNodeWeight | polFilterSet | polMeterSet | polGet | arcTrigger | arcAck =>
    exact Keeps.of_answer h (keeps_changeRow _ _ (keeps_effAt _) s)
  case catInsert =>
    exact Keeps.of_answer h (keeps_changeRow _ _ keeps_catInsert s)
  case catDelete =>
    exact Keeps.of_answer h (keeps_changeRow _ _ keeps_catDelete s)
  case egrGateCommit =>
    exact Keeps.of_answer h (keeps_gateCommitRow _ s)
  case canOwnTake | canOwnGive | linTableStart | linTableStop =>
    exact Keeps.of_answer h (keeps_pickRow _ _ (fun m => keeps_changeRow _ m (keeps_effAt _)) s)
  case flxRun | flxAllowColdstart | flxWakeup | flxHalt | flxFreeze =>
    exact Keeps.of_answer h (keeps_flxRow _ _ _ _ s)
  case chnRingFailover | chnRingRestore =>
    exact Keeps.of_answer h (keeps_pickRow _ _ (keeps_ringRow _ _) s)
  case keyProvision | keyDerive | keyRevoke =>
    exact Keeps.of_answer h (keeps_keyRow _ _ s)
  case keyAttest =>
    exact Keeps.of_answer h (keeps_directRow _ _ keeps_keyAttest s)
  case pwrSetOff | pwrSetOn | pwrSetPwm =>
    exact Keeps.of_answer h (keeps_pwrSetRow _ _ s)
  case arcPlay | arcPlayStop =>
    exact Keeps.of_answer h (keeps_arcPlayRow _ _ _ s)
  case frameRelease =>
    exact Keeps.of_answer h (keeps_frameRelease _ s)
  case segmentClose =>
    exact Keeps.of_answer h (keeps_segmentClose s)
  case ageingVisit =>
    exact Keeps.of_answer h (keeps_ageingVisit s)
  case vitrineVisit =>
    exact Keeps.of_answer h (keeps_vitrineVisit s)
  case composerCyclicExpiry =>
    exact Keeps.of_answer h (keeps_composerCyclic s)
  case pduTransmissionEvent =>
    exact Keeps.of_answer h (keeps_pduEvent s)
  case signalTimeout =>
    exact Keeps.of_answer h (keeps_signalTimeout s)
  case accountedSelection =>
    exact Keeps.of_answer h (keeps_selection _ s)
  case linSlotStart =>
    exact Keeps.of_answer h (keeps_linSlotStart s)
  case rmtRequestExecute =>
    exact Keeps.of_answer h (keeps_farRequest _ s)
  case bcastReceive =>
    exact Keeps.of_answer h (keeps_bcastReceive s)
  case playbackRecordFetch =>
    exact Keeps.of_answer h ((keeps_playFetch s).ite (Keeps.refl s))
  case targetedTestComplete =>
    exact keeps_execTargetedTestComplete h
  case pairRestart =>
    exact Keeps.of_answer h (keeps_pairRestart _ _ s)
  case commitTick =>
    exact keeps_execCommitTick h
  case switchedRailLoss =>
    exact keeps_execSwitchedRailLoss h
  case porstN =>
    exact keeps_execPorstN h
  case updRomCtlGo =>
    exact Keeps.of_answer h (keeps_romGo _ s)
  case gateBankSwitch =>
    exact Keeps.of_answer h (keeps_gateBankSwitch _ s)
  case bar2Write =>
    exact Keeps.of_answer h (keeps_bar2Write _ _ s)
  all_goals exact Keeps.of_answer h (keeps_onGw _ s)

/-- A step keeps the canonical form of DRAM; the queue loses its front command (R34). -/
theorem step_keeps_dramWf {s t : State} (h : step s = .next t) (hs : dramWf s.dram = true) : dramWf t.dram = true := by
  unfold step at h
  split at h
  · exact (Keeps.of_answer h (keeps_tickStep s)).wf hs
  · exact (keeps_exec h).wf hs

end Sys2Proof.Machine
end

section
/-! SUPPORT. What each part of a tick does to the timebase: the accumulator advances by INCR, the tick number by one, and
nothing else of the tick touches either (R22, R394). -/

namespace Sys2Proof.Machine

/-- What each step of a fold leaves alone, the fold leaves alone. -/
theorem foldl_same {α β γ : Type} (p : α → γ) {f : α → β → α} (h : ∀ a b, p (f a b) = p a) (l : List β) (a : α) :
    p (l.foldl f a) = p a := by
  induction l generalizing a with
  | nil => rfl
  | cons b r ih => rw [List.foldl_cons, ih, h]

/-! ### Parts that leave the timebase alone -/

theorem sendChunk_frame (g : Gw) (k : Nat) : (g.sendChunk k).tb = g.tb ∧ (g.sendChunk k).isl = g.isl := by
  unfold Gw.sendChunk
  dsimp only
  split
  · exact ⟨rfl, rfl⟩
  · split
    · exact ⟨rfl, rfl⟩
    · split <;> exact ⟨rfl, rfl⟩

@[simp] theorem sideBlocks_tb (g : Gw) : g.sideBlocks.tb = g.tb := by
  rw [Gw.sideBlocks, (sendChunk_frame _ 1).1, (sendChunk_frame g 0).1]

@[simp] theorem sideBlocks_isl (g : Gw) : g.sideBlocks.isl = g.isl := by
  rw [Gw.sideBlocks, (sendChunk_frame _ 1).2, (sendChunk_frame g 0).2]

@[simp] theorem recordPairs_tb (g : Gw) (add : List CanPair → Nat → Stamp → Nat → List CanPair) :
    (g.recordPairs add).tb = g.tb := by
  unfold Gw.recordPairs
  split <;> rfl

@[simp] theorem setTev_tb (g : Gw) (n : Nat) (x : TevOut) : (g.setTev n x).tb = g.tb := rfl

@[simp] theorem bumpN_tb (g : Gw) (o n : Nat) : (g.bumpN o n).tb = g.tb := setReg_tb g o _

@[simp] theorem tevMiss_tb (g : Gw) (n k : Nat) : (g.tevMiss n k).tb = g.tb := by
  by_cases h : k ≤ (g.tevAt n).k
  · rw [Gw.tevMiss, if_pos h]
  · rw [Gw.tevMiss, if_neg h, setTev_tb, flag_tb, bumpN_tb]

@[simp] theorem tevCopy_tb (g : Gw) (n : Nat) : (g.tevCopy n).tb = g.tb := by
  unfold Gw.tevCopy
  dsimp only
  split
  · split
    · rfl
    · rw [tevMiss_tb, setTev_tb, Gw.setRegN, setReg_tb]
  · rfl

@[simp] theorem tevCopies_tb (g : Gw) : g.tevCopies.tb = g.tb := foldl_same Gw.tb tevCopy_tb _ g

@[simp] theorem moveFrontier_tb (g : Gw) : g.moveFrontier.tb = g.tb := rfl

theorem stageTwo_tb (g : Gw) (s f : Nat) : (g.stageTwo s f).tb = g.tb := by
  unfold Gw.stageTwo
  dsimp only
  split <;> rfl

@[simp] theorem fabricSlot_tb (g : Gw) : g.fabricSlot.tb = g.tb := by
  unfold Gw.fabricSlot
  split
  · exact foldl_same Gw.tb (fun g f => stageTwo_tb g _ f) _ g
  · rfl

theorem sendBeacon_tb (g : Gw) (t : Nat) : (g.sendBeacon t).tb = g.tb := by
  unfold Gw.sendBeacon
  dsimp only
  split <;> rfl

@[simp] theorem beacons_tb (g : Gw) : g.beacons.tb = g.tb := foldl_same Gw.tb sendBeacon_tb _ g

@[simp] theorem flxWakeEnd_tb (g : Gw) : g.flxWakeEnd.tb = g.tb := by
  unfold Gw.flxWakeEnd
  split <;> rfl

@[simp] theorem gptpSelect_tb (g : Gw) (i : Nat) : (g.gptpSelect i).tb = g.tb := by
  unfold Gw.gptpSelect
  dsimp only
  split <;> rfl

theorem gptpAge_tb (g : Gw) (i : Nat) : (g.gptpAge i).tb = g.tb := by
  unfold Gw.gptpAge
  dsimp only
  split
  · rfl
  · rw [gptpSelect_tb]; rfl

@[simp] theorem gptpAges_tb (g : Gw) : g.gptpAges.tb = g.tb := foldl_same Gw.tb gptpAge_tb _ g

@[simp] theorem reply_tb (g : Gw) (m st : Nat) (a : Stamp) (ws : List Nat) : (g.reply m st a ws).tb = g.tb := by
  obtain ⟨rs, ms, h, -⟩ := reply_shape g m st a ws
  rw [h]

@[simp] theorem runReply_tb (g : Gw) : g.runReply.tb = g.tb := by
  unfold Gw.runReply
  split
  · split
    · rw [reply_tb]
    · rfl
  · rfl

theorem setIocc_tb (g : Gw) (p v : Nat) : (g.setIocc p v).tb = g.tb := by
  unfold Gw.setIocc
  dsimp only
  repeat' split
  all_goals rfl

theorem giveBack_tb (g : Gw) (f c n p : Nat) : (g.giveBack f c n p).tb = g.tb := by
  unfold Gw.giveBack
  dsimp only
  split
  · rw [setIocc_tb]
  · rfl

@[simp] theorem returnsUpTo_tb (g : Gw) (o : Stamp) : (g.returnsUpTo o).tb = g.tb := by
  rw [Gw.returnsUpTo, foldl_same Gw.tb (fun g (r : Ret) => giveBack_tb g _ _ _ _)]

@[simp] theorem dueReturns_tb (s : State) : (dueReturns s).gw.tb = s.gw.tb := by
  unfold dueReturns
  dsimp only
  split
  · rw [withGw_gw, returnsUpTo_tb]
  · rfl

/-! ### The servo's state and its source -/

@[simp] theorem setServo_tb (g : Gw) (sv : Servo) : (g.setServo sv).tb = { g.tb with servo := sv } := by
  unfold Gw.setServo
  split
  · next h => rw [← h]
  · dsimp only
    repeat' split
    all_goals rfl

/-- A change of source (R404, R405). -/
@[simp] theorem sourceChange_tb (g : Gw) (src : Nat) : (g.sourceChange src).tb =
    { g.tb with src := src, firstSample := true, lockRun := 0, lastOffs := none, servo := .acquiring } := by
  simp [Gw.sourceChange]

/-- A new upstream port leaves the tick number and the accumulator. -/
theorem upstreamWatch_clock (g : Gw) : g.upstreamWatch.tb.tick = g.tb.tick ∧ g.upstreamWatch.tb.acc = g.tb.acc := by
  unfold Gw.upstreamWatch
  dsimp only
  split
  · exact ⟨rfl, rfl⟩
  · split
    · simp
    · exact ⟨rfl, rfl⟩

/-! ### The tick itself -/

theorem applyIncr_of_nil {g : Gw} (h : g.tb.incrNext = []) : g.applyIncr = g := by simp [Gw.applyIncr, h]

theorem dueStep_of_none {g : Gw} (h : g.tb.step = none) (hq : g.tb.stepQueue = []) : g.dueStep = none := by
  simp [Gw.dueStep, h, hq]

theorem applyStep_of_none {g : Gw} (h : g.tb.step = none) (hq : g.tb.stepQueue = []) : g.applyStep = g := by
  simp [Gw.applyStep, dueStep_of_none h hq]

/-- An epoch is counted, and nothing else of the timebase changes (R324). -/
theorem doEpoch_tb (g : Gw) : ∃ e, g.doEpoch.tb = { g.tb with epoch := e } := by
  unfold Gw.doEpoch
  dsimp only
  split
  · exact ⟨_, recordPairs_tb _ _⟩
  · exact ⟨g.tb.epoch, rfl⟩

/-- With no step and no INCR waiting, a tick advances the accumulator by INCR and the tick number by one (R394). -/
theorem tick_clock {g : Gw} (h12 : g.islOn 12 = true) (hs : g.tb.step = none) (hq : g.tb.stepQueue = [])
    (hi : g.tb.incrNext = []) :
    g.tick.tb.tick = g.tb.tick + 1 ∧ g.tick.tb.acc = g.tb.acc + BitVec.ofNat 104 g.tb.incr := by
  obtain ⟨e, he⟩ := doEpoch_tb g
  unfold Gw.tick
  rw [applyIncr_of_nil hi, applyStep_of_none hs hq, if_pos h12]
  dsimp only
  split <;> simp [he]

theorem tickStep_clock {s : State} (h12 : s.gw.islOn 12 = true) (hs : s.gw.tb.step = none) (hq : s.gw.tb.stepQueue = [])
    (hi : s.gw.tb.incrNext = []) :
    (tickStep s).gw.tb.tick = s.gw.tb.tick + 1 ∧
      (tickStep s).gw.tb.acc = s.gw.tb.acc + BitVec.ofNat 104 s.gw.tb.incr := by
  obtain ⟨ht, ha⟩ := tick_clock (g := s.gw.sideBlocks) (by rw [islOn_congr (sideBlocks_isl _)]; exact h12)
    (by simpa using hs) (by simpa using hq) (by simpa using hi)
  rw [sideBlocks_tb] at ht ha
  simp [tickStep, upstreamWatch_clock, ht, ha]

end Sys2Proof.Machine
end

section
/-! The statements on the queue, on DRAM, on an idle step and on the state at reset. -/

namespace Sys2Proof.Machine

/-- Settles O6: each effect changes DRAM by dramWrite or loses it, and both keep the canonical form. -/
theorem everyStepKeepsDramForm : Obligations.EveryStepKeepsDramForm :=
  fun _ _ hs h => step_keeps_dramWf h hs

/-- Settles O3: each effect acts on the module and on DRAM alone. -/
theorem commandsKeepTheQueue : Obligations.CommandsKeepTheQueue := fun _ _ _ h => (keeps_exec h).pending

/-- Settles O7, by induction on the written bytes. -/
theorem dramReadAfterWrite : Obligations.DramReadAfterWrite :=
  fun d a bs => ⟨fun _ hi ha => dramByte_dramWrite_written bs d a hi ha, fun _ hb => dramByte_dramWrite_frame bs d a hb⟩

/-- Settles O1: it is how a step is defined. -/
theorem stepRunsFrontCommand : Obligations.StepRunsFrontCommand := fun _ _ _ => rfl

/-- Settles O2: of the parts of a tick, only the tick itself advances the accumulator and the tick number. -/
theorem idleStepIsOneTick : Obligations.IdleStepIsOneTick := by
  intro s hp h12 hs hq hi
  obtain ⟨ht, ha⟩ := tickStep_clock h12 hs hq hi
  obtain ⟨t, ht', -, hpend⟩ := answer_next tickStep s
  refine ⟨t, ?_, ?_, ?_, ?_⟩
  · rw [step, hp]; exact ht'
  · rw [hpend, (keeps_tickStep s).pending, hp]
  · cases ht'; rw [interrupts_tb, ht]
  · cases ht'; rw [interrupts_tb, ha]

/-- Settles O5: the reset state lists no byte. -/
theorem dramFormAtReset : Obligations.DramFormAtReset := ⟨rfl, fun _ => rfl⟩

/-- Settles O8: the reset state lists no register and no mailbox, and of the islands AON alone. -/
theorem resetState : Obligations.ResetState := by
  refine ⟨fun _ => rfl, fun i => ?_, fun _ => rfl, rfl, rfl, rfl, rfl, rfl, rfl, rfl, rfl⟩
  simp only [State.reset, Gw.islOn, mgetD, mget?]
  by_cases h : i = 15 <;> simp [h, eq_comm]

end Sys2Proof.Machine
end

section
/-! SUPPORT. The internal event that Strata may release (R57), and what passes the order up to a change's stamp leaves
alone: registers, filters and parameters. -/

namespace Sys2Proof.Machine

/-! ### The event that is due -/

theorem leastBy_mem {α : Type} {lt : α → α → Bool} {l : List α} {x : α} (h : leastBy lt l = some x) : x ∈ l := by
  induction l generalizing x with
  | nil => simp [leastBy] at h
  | cons y r ih =>
    unfold leastBy at h
    split at h
    · obtain rfl := Option.some.inj h
      exact List.mem_cons_self
    · next z hz =>
      split at h <;> obtain rfl := Option.some.inj h
      · exact List.mem_cons_of_mem y (ih hz)
      · exact List.mem_cons_self

/-- The event that is due waits, and the frontier has reached its stamp. -/
theorem readyDue_spec {g : Gw} {dram : List Host.Cell} {d : Due} (h : g.readyDue dram = some d) :
    d ∈ g.dues dram ∧ d.t ≤ g.str.frontier := by
  unfold Gw.readyDue at h
  split at h
  · cases h
  · split at h
    · next e he =>
      simp only [Option.ite_none_right_eq_some, Option.some.injEq, Bool.and_eq_true, decide_eq_true_eq] at h
      obtain ⟨⟨⟨hfront, -⟩, -⟩, rfl⟩ := h
      exact ⟨leastBy_mem he, hfront⟩
    · cases h

/-- A change among the waiting events is an accepted one, at its stamp (R57, R58). -/
theorem change_of_mem_dues {g : Gw} {dram : List Host.Cell} {d : Due} {c : Change} (h : d ∈ g.dues dram)
    (hc : d.ev = .change c) : c ∈ g.str.changes ∧ d.t = g.changeStamp c := by
  simp only [Gw.dues, List.append_assoc, List.mem_append, List.mem_map, List.mem_filter, List.mem_filterMap,
    Option.map_eq_some_iff] at h
  rcases h with ⟨c', ⟨hm, -⟩, rfl⟩ | ⟨_, -, rfl⟩ | ⟨_, -, rfl⟩ | ⟨_, -, _, -, rfl⟩ | ⟨_, -, _, -, rfl⟩ |
    ⟨_, -, _, -, rfl⟩ | ⟨_, -, _, -, rfl⟩
  · obtain rfl : c' = c := by simpa using hc
    exact ⟨hm, rfl⟩
  all_goals exact absurd hc (by simp)

/-! ### Cells that come back (R100) -/

/-- A count of cells that does not grow raises no XOFF: registers and filters stay. -/
theorem setIocc_frame {g : Gw} {p v : Nat} (h : v ≤ mgetD g.cal.iocc p 0) :
    (g.setIocc p v).regs = g.regs ∧ (g.setIocc p v).filters = g.filters := by
  have hgrow : ¬mgetD g.cal.iocc p 0 < v := Nat.not_lt.mpr h
  simp only [Gw.setIocc, hgrow, decide_false, Bool.false_and, Bool.false_eq_true, if_false]
  split
  · split <;> exact ⟨rfl, rfl⟩
  · exact ⟨rfl, rfl⟩

theorem giveBack_frame (g : Gw) (f c n p : Nat) :
    (g.giveBack f c n p).regs = g.regs ∧ (g.giveBack f c n p).filters = g.filters := by
  unfold Gw.giveBack
  dsimp only
  split
  · exact setIocc_frame (g := { g with cal := _ }) (Nat.sub_le _ _)
  · exact ⟨rfl, rfl⟩

@[simp] theorem returnsUpTo_regs (g : Gw) (o : Stamp) : (g.returnsUpTo o).regs = g.regs := by
  rw [Gw.returnsUpTo, foldl_same Gw.regs (fun g (r : Ret) => (giveBack_frame g _ _ _ _).1)]

@[simp] theorem returnsUpTo_filters (g : Gw) (o : Stamp) : (g.returnsUpTo o).filters = g.filters := by
  rw [Gw.returnsUpTo, foldl_same Gw.filters (fun g (r : Ret) => (giveBack_frame g _ _ _ _).2)]

/-! ### The module on which a due change acts -/

/-- The module when change `c` takes effect at stamp `t`: the change has left the queue, and sweeps, transmitters' decisions
and cells due back by then are settled (R57, R100, R239). -/
def Gw.upToChange (g : Gw) (c : Change) (t : Stamp) : Gw := (((g.dropChange c).passTo t 1).settleAll t).returnsUpTo t

theorem reg_upToChange (g : Gw) (c : Change) (t : Stamp) (o : Nat) : (g.upToChange c t).reg o = g.reg o :=
  reg_congr (g := g) (h := g.upToChange c t) (returnsUpTo_regs _ _) o

theorem filterAt_upToChange (g : Gw) (c : Change) (t : Stamp) (i : Nat) :
    (g.upToChange c t).filterAt i = g.filterAt i := by
  have h : (g.upToChange c t).filters = g.filters := returnsUpTo_filters _ _
  rw [Gw.filterAt, h, Gw.filterAt]

theorem mbxWord_upToChange (g : Gw) (c : Change) (t : Stamp) (m i : Nat) :
    (g.upToChange c t).mbxWord m i = g.mbxWord m i := congrArg BitVec.toNat (reg_upToChange g c t _)

theorem reqCode_upToChange (g : Gw) (c : Change) (t : Stamp) (m : Nat) :
    (g.upToChange c t).reqCode m = g.reqCode m := by
  rw [Gw.reqCode, mbxWord_upToChange, Gw.reqCode]

theorem arg_upToChange (g : Gw) (c : Change) (t : Stamp) (m i : Nat) : (g.upToChange c t).arg m i = g.arg m i :=
  mbxWord_upToChange g c t m _

/-! ### APPLY_AT_CHANGE -/

theorem exec_applyAtChange (s : State) : exec .applyAtChange s = answer applyChange s := rfl

section
variable {s : State} {d : Due} {c : Change}

/-- A key change waits while its journal record is not committed (R510). -/
theorem applyChange_waits (hd : s.gw.readyDue s.dram = some d) (hc : d.ev = .change c)
    (hw : s.gw.recordWaits c = true) : applyChange s = s := by
  simp [applyChange, hd, hc, hw]

/-- A change of the firmware's own. -/
theorem applyChange_firmware {f : FwChange} (hd : s.gw.readyDue s.dram = some d) (hc : d.ev = .change c)
    (hw : s.gw.recordWaits c = false) (ha : c.act = .firmware f) :
    applyChange s = s.withGw ((s.gw.upToChange c (s.gw.changeStamp c)).fwEffect (s.gw.changeStamp c) f) := by
  simp [applyChange, hd, hc, hw, ha, Gw.upToChange]

/-- A change that a mailbox drives. -/
theorem applyChange_mailbox {m : Nat} (hd : s.gw.readyDue s.dram = some d) (hc : d.ev = .change c)
    (hw : s.gw.recordWaits c = false) (ha : c.act = .mailbox m) :
    applyChange s =
      (changeEffect m (s.gw.changeStamp c) (s.withGw (s.gw.upToChange c (s.gw.changeStamp c)))).1.withGw
        ((changeEffect m (s.gw.changeStamp c) (s.withGw (s.gw.upToChange c (s.gw.changeStamp c)))).1.gw.finish m
          (s.gw.changeStamp c)
          (changeEffect m (s.gw.changeStamp c) (s.withGw (s.gw.upToChange c (s.gw.changeStamp c)))).2).heldDecided := by
  simp [applyChange, hd, hc, hw, ha, Gw.upToChange]

end

theorem changeEffect_polGet {m : Nat} {s : State} (t : Stamp) (h : s.gw.reqCode m = 0x0507) :
    changeEffect m t s = effAt polGet m t s := by
  simp [changeEffect, h]

/-- POL_GET of a filter reads its state and changes nothing (R605). -/
theorem polGet_filter {g : Gw} {m : Nat} (t : Stamp) (h : bit (g.arg m 0) 31 = false) :
    polGet m t g = (g, { words :=
      [atBit 18 (g.filterAt (bits (g.arg m 0) 15 0)).blocked + atBit 16 (g.filterAt (bits (g.arg m 0) 15 0)).blockEn +
        (g.filterAt (bits (g.arg m 0) 15 0)).maxSdu, 0, 0, 0] }) := by
  simp [polGet, h]

/-- An answer given at once is the reply with its words. -/
theorem finish_words (g : Gw) (m : Nat) (t : Stamp) (ws : List Nat) : g.finish m t { words := ws } = g.reply m 0 t ws := rfl

@[simp] theorem reply_str (g : Gw) (m st : Nat) (a : Stamp) (ws : List Nat) : (g.reply m st a ws).str = g.str := by
  obtain ⟨rs, ms, h, -⟩ := reply_shape g m st a ws
  rw [h]

/-! ### Requests for a stamp (R60) -/

/-- A request whose stamp cannot be met is answered with the earliest that could. -/
theorem queueChange_refused {g : Gw} {m : Nat} (h0 : (g.reqApply m : Int) ≠ 0)
    (h : (g.reqApply m : Int) ≤ g.requestFrontier) : g.queueChange m = g.reply m stBadArg g.soonest [] := by
  rw [Gw.queueChange]
  exact if_pos ⟨h0, .inl h⟩

end Sys2Proof.Machine
end

section
/-! The statements on changes and their stamps. -/

namespace Sys2Proof.Machine

/-- Settles O25: the due change leaves the queue and acts at its stamp. -/
theorem changesTakeEffectInOrder : Obligations.ChangesTakeEffectInOrder := by
  refine ⟨fun s d c hd hc => ?_, fun s d c m hd hc hw ha hfirst hcode hmeter => ?_⟩
  · obtain ⟨hmem, hfront⟩ := readyDue_spec hd
    obtain ⟨hchange, hstamp⟩ := change_of_mem_dues hmem hc
    refine ⟨hchange, hstamp, hfront, fun hw => ?_, fun bus v hw ha => ?_⟩
    · exact answer_same (applyChange_waits hd hc hw)
    · rw [exec_applyAtChange, hstamp]
      exact answer_of_withGw (applyChange_firmware hd hc hw ha)
  · have hstamp : s.gw.changeStamp c = c.t := by simp [Gw.changeStamp, hfirst]
    have hget := polGet_filter (g := s.gw.upToChange c c.t) (m := m) c.t (by rw [arg_upToChange, hmeter])
    rw [arg_upToChange, filterAt_upToChange] at hget
    rw [exec_applyAtChange]
    refine answer_of_withGw ?_
    rw [applyChange_mailbox hd hc hw ha, hstamp, changeEffect_polGet (s := s.withGw (s.gw.upToChange c c.t)) c.t
      ((reqCode_upToChange s.gw c c.t m).trans hcode), effAt, withGw_gw, hget]
    dsimp only
    rw [withGw_gw, finish_words]
    rfl

/-- A module in RUN whose frontier lies further behind the present time than H: the present stamp is 2⁵⁶, the frontier 0.
Its mailbox 0 holds a taken-up POL_GET for stamp 1. -/
def laggingFrontier : State :=
  { gw := { isl := [(12, 1), (15, 1)], fw := { state := .run }, tb := { acc := BitVec.ofNat 104 (2 ^ 93) }
            mbx := [(0, { st := .busy, taken := true })], regs := [(mbxOff 0 0, 0x05070000), (mbxOff 0 2, 1)] }
    dram := [], pending := [] }

/-- Refutes O24: the request is measured against H before the present time too, and a frontier further behind lets a stamp
between the two be refused. -/
theorem not_changesWaitForTheirStamp : ¬ Obligations.ChangesWaitForTheirStamp := by
  intro h
  have hholds : laggingFrontier.gw.holds 0 0x0507 = true := by decide +kernel
  have hserving : laggingFrontier.gw.serving = true := rfl
  have happly : (laggingFrontier.gw.reqApply 0 : Int) = 1 := by decide +kernel
  have hlag : (1 : Int) ≤ laggingFrontier.gw.requestFrontier := by decide +kernel
  have hrefused : exec (.polGet 0) laggingFrontier =
      .next (laggingFrontier.after (laggingFrontier.gw.reply 0 stBadArg laggingFrontier.gw.soonest [])) := by
    refine answer_of_withGw ?_
    rw [changeRow_serving _ hholds hserving, queueChange_refused (by rw [happly]; decide) (by rw [happly]; exact hlag)]
  have haccepted := (h 0 0x0507 (.polGet 0) laggingFrontier (by simp [changeCommands]) hholds hserving rfl).2
    (.inr ⟨by rw [happly]; decide, by rw [happly]; decide⟩)
  rw [hrefused] at haccepted
  have hchanges := congrArg (fun t : State => t.gw.str.changes.length) (Host.Outcome.next.inj haccepted)
  simp at hchanges

end Sys2Proof.Machine
end

section
/-! SUPPORT. Channel commands (R628–R630): the rows whose effect is on the module alone, what a commanded state changes of a
channel, and the mask of channels in an acknowledgement. -/

namespace Sys2Proof.Machine

/-! ### Rows on the module alone -/

theorem directRow_effGw {code m : Nat} {s : State} (f : Nat → Gw → Gw × Answer) (h : s.gw.holds m code = true) :
    directRow code (effGw f) m s = s.withGw ((f m s.gw).1.finish m 0 (f m s.gw).2) := by
  rw [directRow_holds _ h]
  rfl

/-- A row whose effect refuses the request with a status. -/
theorem directRow_failWith {code m st : Nat} {s : State} {f : Nat → Gw → Gw × Answer} (h : s.gw.holds m code = true)
    (hf : f m s.gw = (s.gw, failWith st)) : directRow code (effGw f) m s = s.withGw (s.gw.reply m st 0 []) := by
  rw [directRow_effGw f h, hf]
  rfl

/-- A row whose effect leaves the reply to a later event. -/
theorem directRow_later {code m : Nat} {s : State} {g : Gw} {f : Nat → Gw → Gw × Answer} (h : s.gw.holds m code = true)
    (hf : f m s.gw = (g, { later := true })) :
    directRow code (effGw f) m s = s.withGw (g.setMbx m { g.mbxAt m with taken := false }) := by
  rw [directRow_effGw f h, hf]
  rfl

/-- A row whose effect answers with words at once. -/
theorem directRow_words {code m : Nat} {s : State} {g : Gw} {ws : List Nat} {f : Nat → Gw → Gw × Answer}
    (h : s.gw.holds m code = true) (hf : f m s.gw = (g, { words := ws })) :
    directRow code (effGw f) m s = s.withGw (g.reply m 0 0 ws) := by
  rw [directRow_effGw f h, hf]
  rfl

/-! ### The commands of area 0x0B -/

theorem pwrSetRow_of_op {op m : Nat} {s : State} (h : bits (s.gw.arg m 0) 1 0 = op) :
    pwrSetRow op m s = directRow 0x0B01 (effGw (pwrSet op)) m s := by
  simp [pwrSetRow, h]

theorem pwrSet_sends {op m : Nat} {g : Gw} (ho : bits (g.arg m 0) 1 0 = op) (h3 : op ≠ 3)
    (hpwm : op = 2 → bits (g.arg m 1) 25 16 ≤ 1000 ∧ 100 ≤ bits (g.arg m 1) 8 0 ∧ bits (g.arg m 1) 8 0 ≤ 400) :
    pwrSet op m g =
      g.sendChannels m (.set op (bits (g.arg m 0) 31 16) (bits (g.arg m 1) 25 16) (bits (g.arg m 1) 8 0) (some m)) := by
  by_cases h2 : op = 2
  · obtain ⟨hd, hlo, hhi⟩ := hpwm h2
    simp [pwrSet, ho, h2, Nat.not_lt.mpr hd, Nat.not_lt.mpr hlo, Nat.not_lt.mpr hhi]
  · simp [pwrSet, ho, h2, h3]

theorem pwrSet_pwm_refused {m : Nat} {g : Gw} (ho : bits (g.arg m 0) 1 0 = 2)
    (h : 1000 < bits (g.arg m 1) 25 16 ∨ bits (g.arg m 1) 8 0 < 100 ∨ 400 < bits (g.arg m 1) 8 0) :
    pwrSet 2 m g = (g, failWith stBadArg) := by
  simp [pwrSet, ho, or_assoc, h]

/-- PWR_PROFILE by the cases of R629. -/
theorem pwrProfile_badArg {m : Nat} {g : Gw} (h : (profileOf (g.arg m)).ok (bits (g.arg m 0) 3 0) = false) :
    pwrProfile m g = (g, failWith stBadArg) := by
  simp [pwrProfile, h]

theorem pwrProfile_locked {m n : Nat} {g : Gw} (hn : n = bits (g.arg m 0) 3 0) (h : (profileOf (g.arg m)).ok n = true)
    (hon : (g.die.seen.chan n).wants = true ∨ (g.die.seen.chan n).out = true) :
    pwrProfile m g = (g, failWith stLocked) := by
  subst hn
  simp [pwrProfile, h, hon]

theorem toDie_of_partN {g : Gw} (h : g.partN = false) (x : DieMsg) :
    g.toDie x = { g with die := { g.die with toDie := g.die.toDie ++ [x] } } := by
  rw [Gw.toDie, if_neg (by rw [h]; exact Bool.false_ne_true)]

theorem pwrProfile_sent {m n : Nat} {g : Gw} (hp : g.partN = false) (hn : n = bits (g.arg m 0) 3 0)
    (h : (profileOf (g.arg m)).ok n = true)
    (hwants : (g.die.seen.chan n).wants = false) (hout : (g.die.seen.chan n).out = false) :
    pwrProfile m g =
      ({ g with die := { g.die with toDie := g.die.toDie ++ [.profile n (profileOf (g.arg m))] } }, {}) := by
  subst hn
  rw [← toDie_of_partN hp]
  simp [pwrProfile, h, hwants, hout]

/-! ### The commanded state of a channel (R649) -/

theorem chan_setChan (p : Pdie) (n k : Nat) (c : PdChan) : (p.setChan n c).chan k = if k = n then c else p.chan k := by
  unfold Pdie.chan Pdie.setChan
  split
  · next h => rw [h]; exact mgetD_mput_same _ _ _ _
  · next h => exact mgetD_mput_ne _ _ _ _ h

theorem chan_noteLimitEnd (p : Pdie) (c : PdChan) (k : Nat) : (p.noteLimitEnd c).chan k = p.chan k := by
  unfold Pdie.noteLimitEnd
  split <;> rfl

/-- The commanded state is what the command makes it, whether the output follows or not. -/
theorem command_cmd (p : Pdie) (n : Nat) (f : PdChan → PdChan) :
    ((p.command n f).chan n).cmd = (f (p.chan n)).cmd := by
  unfold Pdie.command
  dsimp only
  repeat' split
  all_goals simp only [chan_setChan, if_true, Pdie.turnOn, PdChan.turnOff]

theorem command_other (p : Pdie) {n k : Nat} (f : PdChan → PdChan) (h : k ≠ n) :
    (p.command n f).chan k = p.chan k := by
  unfold Pdie.command
  dsimp only
  repeat' split
  all_goals simp only [chan_setChan, if_neg h, chan_noteLimitEnd]

/-- A setting on the channels of a list: each of them takes its commanded state, the others stay. -/
theorem foldl_command_cmd (f : PdChan → PdChan) {v : Nat} (hf : ∀ c, (f c).cmd = v) (l : List Nat) (p : Pdie) (k : Nat) :
    ((l.foldl (fun (p : Pdie) n => p.command n f) p).chan k).cmd = if k ∈ l then v else (p.chan k).cmd := by
  induction l generalizing p with
  | nil => simp
  | cons n r ih =>
    rw [List.foldl_cons, ih]
    by_cases hk : k = n
    · subst hk
      simp [command_cmd, hf]
    · simp [command_other p f hk, hk]

/-! ### Masks of channels -/

theorem mem_bitList {n v i : Nat} : i ∈ bitList n v ↔ i < n ∧ v.testBit i = true := by simp [bitList]

/-- A sum of powers of two over a choice of the numbers below `k`. -/
theorem foldl_pow_filter (p : Nat → Bool) (k : Nat) :
    (((List.range k).filter p).foldl (fun a n => a + 2 ^ n) 0) < 2 ^ k ∧
      ∀ i, (((List.range k).filter p).foldl (fun a n => a + 2 ^ n) 0).testBit i = (decide (i < k) && p i) := by
  induction k with
  | zero => simp
  | succ k ih =>
    obtain ⟨hlt, hbit⟩ := ih
    rw [List.range_succ, List.filter_append, List.foldl_append]
    generalize ((List.range k).filter p).foldl (fun a n => a + 2 ^ n) 0 = w at hlt hbit ⊢
    cases hp : p k with
    | false =>
      simp only [List.filter_cons_of_neg (by simp [hp] : ¬p k = true), List.filter_nil, List.foldl_nil]
      refine ⟨by omega, fun i => ?_⟩
      rw [hbit]
      by_cases hi : i = k
      · simp [hi, hp]
      · have hlt : i < k + 1 ↔ i < k := by omega
        simp [hlt]
    | true =>
      simp only [List.filter_cons_of_pos hp, List.filter_nil, List.foldl_cons, List.foldl_nil]
      refine ⟨by omega, fun i => ?_⟩
      rw [Nat.add_comm w]
      rcases Nat.lt_trichotomy i k with hi | hi | hi
      · rw [Nat.testBit_two_pow_add_gt hi, hbit]
        simp [hi, Nat.lt_succ_of_lt hi]
      · subst hi
        rw [Nat.testBit_two_pow_add_eq, Nat.testBit_lt_two_pow hlt]
        simp [hp]
      · rw [Nat.testBit_lt_two_pow]
        · simp [show ¬i < k + 1 by omega]
        · have : 2 ^ (k + 1) ≤ 2 ^ i := Nat.pow_le_pow_right (by decide) hi
          omega

/-- The mask that sums the numbers of a bit list with a property has exactly their bits. -/
theorem testBit_foldl_bitList (n v : Nat) (q : Nat → Bool) (i : Nat) :
    (((bitList n v).filter q).foldl (fun a n => a + 2 ^ n) 0).testBit i = (decide (i < n) && (v.testBit i && q i)) := by
  rw [bitList, List.filter_filter, (foldl_pow_filter _ n).2, Bool.and_comm (q i)]

/-! ### Messages on the die link (R31) -/

theorem withPd_die (g : Gw) (p : Pdie) : (g.withPd p).die = g.die := rfl
theorem withPd_pdie (g : Gw) (p : Pdie) : (g.withPd p).pdie = p := rfl

theorem pdAt_of_le {g : Gw} {us : Nat} (f : Gw → Gw) (hn : g.partN = false) (hus : g.pdie.us ≤ us) :
    g.pdAt us f = f { g with pdie := { g.pdie with us := us } } := by
  simp [Gw.pdAt, hn, Nat.not_lt.mpr hus]

/-- A good PWR_SET message: each named channel takes its commanded state, and the acknowledgement names those of them that
are latched (R628, R649). -/
theorem dieMessage_set {g : Gw} {tj : List Int} {op mask duty freq m : Nat} {rest : List DieMsg}
    (h : g.die.toDie = .set op mask duty freq (some m) :: rest) :
    ∃ w, (g.dieMessage true tj).die = { g.die with toDie := rest, acks := g.die.acks ++ [(m, w)] } ∧
      (∀ n, n < 16 → (bit w n = true ↔ bit mask n = true ∧ (g.pdie.chan n).latched = true)) ∧
      ∀ n, n < 16 → ((g.dieMessage true tj).pdie.chan n).cmd = if bit mask n then op else (g.pdie.chan n).cmd := by
  have hcmd : ∀ c : PdChan,
      (if op = 2 then { c with cmd := 2, duty := duty, freq := freq } else { c with cmd := op }).cmd = op := by
    intro c
    split
    · next h2 => exact h2.symm
    · rfl
  refine ⟨((bitList 16 mask).filter (fun n => (g.pdie.chan n).latched)).foldl (fun a n => a + 2 ^ n) 0, ?_, ?_, ?_⟩
  · rw [Gw.dieMessage, h]
    rfl
  · intro n hn
    rw [bit, testBit_foldl_bitList]
    simp [hn, bit]
  · intro n hn
    have hpdie : (g.dieMessage true tj).pdie = (bitList 16 mask).foldl (fun (p : Pdie) n => p.command n (fun c =>
        if op = 2 then { c with cmd := 2, duty := duty, freq := freq } else { c with cmd := op })) g.pdie := by
      rw [Gw.dieMessage, h]
      rfl
    rw [hpdie, foldl_command_cmd _ hcmd]
    cases hm : mask.testBit n <;> simp [mem_bitList, hn, bit, hm]

/-- A message that fails its check is discarded and reported later. -/
theorem dieMessage_bad {g : Gw} {tj : List Int} {x : DieMsg} {rest : List DieMsg} (h : g.die.toDie = x :: rest) :
    g.dieMessage false tj = { g with die := { g.die with toDie := rest }, pdie := { g.pdie with disc := true } } := by
  rw [Gw.dieMessage, h]
  rfl

theorem dieAck_of_sent {g : Gw} {m w k : Nat} {rest : List (Nat × Nat)} (h : g.die.acks = (m, w) :: rest)
    (hs : mget? g.die.sent m = some k) :
    g.dieAck = ({ g with die := { g.die with acks := rest, sent := merase g.die.sent m } } : Gw).reply m stOk 0
      [65536 * w] := by
  simp [Gw.dieAck, h, hs]

/-- No acknowledgement within 5 ms, 2,500,000 ticks (R628). -/
theorem dieAckTimeout_due {g : Gw} {m k : Nat} (hs : mget? g.die.sent m = some k) (hk : k + 2500000 ≤ g.tb.tick) :
    g.dieAckTimeout m =
      ({ g with die := { g.die with sent := merase g.die.sent m } } : Gw).reply m stTimeout 0 [] := by
  simp [Gw.dieAckTimeout, hs, ticksPerMs, hk]

end Sys2Proof.Machine
end

section
/-! The statement on channel commands. -/

namespace Sys2Proof.Machine

/-- Settles O40, command by command, then message, acknowledgement and timeout. -/
theorem powerCommands : Obligations.PowerCommands := by
  refine ⟨?set, ?setRefused, ?restart, ?profile, ?status, ?message, ?ack, ?timeout⟩
  case set =>
    intro s m op c h hc ho hpwm
    have h3 : op ≠ 3 := by
      rintro rfl
      simp at hc
    have hrow := (pwrSetRow_of_op ho).trans (directRow_later h (pwrSet_sends ho h3 hpwm))
    simp only [List.mem_cons, Prod.mk.injEq, List.not_mem_nil, or_false] at hc
    rcases hc with ⟨rfl, rfl⟩ | ⟨rfl, rfl⟩ | ⟨rfl, rfl⟩ <;> exact answer_of_withGw hrow
  case setRefused =>
    intro s m h ho hbad
    exact answer_of_withGw ((pwrSetRow_of_op ho).trans (directRow_failWith h (pwrSet_pwm_refused ho hbad)))
  case restart =>
    intro s m h
    exact answer_of_withGw (directRow_later (f := pwrRestart) h rfl)
  case profile =>
    intro s m n h hn hchan
    refine ⟨fun hbad => ?_, fun hok hon => ?_, fun hok hwants hout => ?_⟩
    · exact answer_of_withGw (directRow_failWith h (pwrProfile_badArg (hchan ▸ hbad)))
    · exact answer_of_withGw (directRow_failWith h (pwrProfile_locked hchan hok hon))
    · exact answer_of_withGw (directRow_words h (pwrProfile_sent hn hchan hok hwants hout))
  case status =>
    intro s m h
    exact answer_of_withGw (directRow_words (f := pwrStatus) h rfl)
  case message =>
    intro s us tj op mask duty freq m rest hn hus hmsg _
    have hmsg' : ({ s.gw with pdie := { s.gw.pdie with us := us } } : Gw).die.toDie =
      .set op mask duty freq (some m) :: rest := hmsg
    have hexec : ∀ ok, exec (.dieLinkMessage ok us tj) s =
        .next (s.after (({ s.gw with pdie := { s.gw.pdie with us := us } } : Gw).dieMessage ok tj)) := by
      intro ok
      rw [← pdAt_of_le (fun g => g.dieMessage ok tj) hn hus]
      rfl
    refine ⟨?_, ?_⟩
    · obtain ⟨w, hdie, hmask, hcmd⟩ := dieMessage_set (tj := tj) hmsg'
      refine ⟨_, w, hexec true, ?_, ?_, hmask, ?_⟩
      · rw [after_gw, interrupts_die, hdie]
      · rw [after_gw, interrupts_die, hdie]
      · intro n hn16
        rw [after_gw, interrupts_pdie]
        exact hcmd n hn16
    · rw [hexec false, dieMessage_bad hmsg']
  case ack =>
    intro s m w rest k hpair hacks hsent
    refine (answer_onGw _ s).trans ?_
    rw [if_pos (show s.gw.hears = true from hpair), dieAck_of_sent hacks hsent]
    rfl
  case timeout =>
    intro s m k hpair hsent hk
    refine (answer_onGw _ s).trans ?_
    rw [if_pos (show s.gw.hears = true from hpair), dieAckTimeout_due hsent hk]
    rfl

end Sys2Proof.Machine
end

section
/-! SUPPORT. Bytes and numbers, transactions on the SPI port (R704–R706), the re-arming of a vector (R712), and what a BAR2 write
changes (R702). -/

namespace Sys2Proof.Machine

/-! ### Bytes of a number -/

theorem leBytes_succ (n v : Nat) : leBytes (n + 1) v = BitVec.ofNat 8 v :: leBytes n (v / 256) := by
  have hpow : ∀ i, v / 2 ^ (8 * (i + 1)) = v / 256 / 2 ^ (8 * i) := fun i => by
    rw [Nat.div_div_eq_div_mul, Nat.mul_succ, Nat.add_comm, Nat.pow_add]
  simp [leBytes, List.range_succ_eq_map, hpow]

theorem fromLe_leBytes (n v : Nat) : fromLe (leBytes n v) = v % 256 ^ n := by
  induction n generalizing v with
  | zero => simp [leBytes, fromLe, Nat.mod_one]
  | succ n ih =>
    have hcons : fromLe (leBytes (n + 1) v) = (BitVec.ofNat 8 v).toNat + 256 * fromLe (leBytes n (v / 256)) := by
      rw [leBytes_succ]
      rfl
    rw [hcons, ih, Nat.pow_succ, Nat.mul_comm (256 ^ n), Nat.mod_mul, BitVec.toNat_ofNat]

theorem fromBe_reverse (bs : List Byte) : fromBe bs.reverse = fromLe bs := by
  simp only [fromBe, fromLe, List.foldl_reverse, Nat.add_comm]

theorem fromBe_beBytes {n v : Nat} (h : v < 256 ^ n) : fromBe (beBytes n v) = v := by
  rw [beBytes, fromBe_reverse, fromLe_leBytes, Nat.mod_eq_of_lt h]

@[simp] theorem leBytes_length (n v : Nat) : (leBytes n v).length = n := by simp [leBytes]
@[simp] theorem beBytes_length (n v : Nat) : (beBytes n v).length = n := by simp [beBytes]

theorem w32_fromLe_leBytes (v : W32) : w32 (fromLe (leBytes 4 v.toNat)) = v := by
  rw [fromLe_leBytes, Nat.mod_eq_of_lt (show v.toNat < 256 ^ 4 from v.isLt), w32_toNat]

/-! ### Writes of an aligned word (R9, R705) -/

/-- An aligned word written by any initiator to a register without a command of its own. -/
theorem writeBy_plain {s : State} {off i : Nat} {r : RegRow} (init : Nat) (v : W32) (hf : findReg off = some (r, i))
    (hb : plainBase r.base) (hw : offWindows off) (hrom : off ≠ Reg.updRomCtl) (hn : s.gw.noPwr off = false)
    (ha : off % 4 = 0) (hi : s.gw.islOn (regIsland off) = true) :
    writeBy init off 4 v s = s.withGw (s.gw.setReg off (r.written (s.gw.reg off) v)) := by
  rw [writeBy, if_pos (wordAccess_four ha), busWrite_eq_mapWrite s v hw hrom hi, mapWrite_plain s.gw v hn hf hb]

/-- Fewer than four bytes are no word. -/
theorem spiWrite_short (s : State) (addr : Nat) {tail : List Byte} (h : tail.length < 4) : spiWrite s addr tail = s := by
  match tail, h with
  | [], _ | [_], _ | [_, _], _ | [_, _, _], _ => rfl
  | _ :: _ :: _ :: _ :: r, h => simp only [List.length_cons] at h; omega

/-- One word and an incomplete one: the word is written, the rest discarded. -/
theorem spiWrite_word (s : State) (addr : Nat) (v : W32) {tail : List Byte} (h : tail.length < 4) :
    spiWrite s addr (leBytes 4 v.toNat ++ tail) = writeBy 1 addr 4 v s := by
  have hword := w32_fromLe_leBytes v
  generalize hbs : leBytes 4 v.toNat = bs at hword ⊢
  have hlen : bs.length = 4 := by rw [← hbs, leBytes_length]
  match bs, hlen with
  | [a, b, c, d], _ => rw [List.cons_append, List.cons_append, List.cons_append, List.cons_append, List.nil_append, spiWrite, hword, spiWrite_short _ _ h]

/-! ### Transactions on the SPI port -/

section
variable (op : Byte) (off : Nat) (rest : List Byte)

/-- A transaction of an opcode, an address and more: its length, opcode, address and the rest. -/
theorem spiHeader (hoff : off < 2 ^ 32) :
    ([op] ++ beBytes 4 off ++ rest).length = 5 + rest.length ∧ byteAt ([op] ++ beBytes 4 off ++ rest) 0 = op.toNat ∧
      fromBe (slice ([op] ++ beBytes 4 off ++ rest) 1 4) = off ∧ ([op] ++ beBytes 4 off ++ rest).drop 5 = rest := by
  have haddr : slice ([op] ++ beBytes 4 off ++ rest) 1 4 = beBytes 4 off := by
    simp [slice]
  refine ⟨by simp; omega, rfl, ?_, ?_⟩
  · rw [haddr, fromBe_beBytes hoff]
  · rw [List.drop_left' (by simp)]

end

theorem exec_spiTransaction (mosi : List Byte) (s : State) : exec (.spiTransaction mosi) s = answer (spiTransaction mosi) s :=
  rfl

/-- Opcode 0x02 writes the words that follow its address (R705). -/
theorem spiTransaction_write {s : State} {off : Nat} (bs : List Byte) (h14 : s.gw.islOn 14 = true) (hoff : off < 2 ^ 32) :
    spiTransaction ([0x02] ++ beBytes 4 off ++ bs) s = spiWrite s off bs := by
  obtain ⟨hlen, hop, haddr, hdrop⟩ := spiHeader 0x02 off bs hoff
  generalize [0x02] ++ beBytes 4 off ++ bs = mosi at hlen hop haddr hdrop ⊢
  simp [spiTransaction, hlen, hop, haddr, hdrop, h14]

/-- Opcode 0x0B with all its dummy bytes and `n` bytes to read (R706). -/
theorem spiTransaction_read {s : State} {off : Nat} (bs : List Byte) (h14 : s.gw.islOn 14 = true) (hoff : off < 2 ^ 32)
    (hbs : 8 ≤ bs.length) :
    spiTransaction ([0x0B] ++ beBytes 4 off ++ bs) s =
      s.withGw ((spiRead s.gw off (max 1 (ceilDiv (bs.length - 8) 4))).1.emit (.miso (List.replicate 8 0xFF ++
        (spiRead s.gw off (max 1 (ceilDiv (bs.length - 8) 4))).2.take (bs.length - 8)))) := by
  obtain ⟨hlen, hop, haddr, -⟩ := spiHeader 0x0B off bs hoff
  have hn : 5 + bs.length - 13 = bs.length - 8 := by omega
  have hdummy : min 8 (5 + bs.length - 5) = 8 := by omega
  have hshort : ¬5 + bs.length < 13 := by omega
  generalize [0x0B] ++ beBytes 4 off ++ bs = mosi at hlen hop haddr ⊢
  rw [← hlen] at hn hdummy hshort
  have hlong : ¬mosi.length < 5 := by omega
  simp [spiTransaction, hop, haddr, h14, hn, hdummy, hshort, hlong]

/-- A transaction that ends in its address, or with another opcode, does nothing (R704). -/
theorem spiTransaction_ignored {s : State} {mosi : List Byte}
    (h : mosi.length < 5 ∨ (byteAt mosi 0 ≠ 0x02 ∧ byteAt mosi 0 ≠ 0x0B)) : spiTransaction mosi s = s := by
  unfold spiTransaction
  dsimp only
  split
  · rfl
  · next hlen =>
    obtain hshort | ⟨hwrite, hread⟩ := h
    · simp [hshort] at hlen
    · rw [if_neg hwrite, if_neg hread]

/-- Outside the CAN windows the data of a read are what the register shows. -/
theorem busRead_data {g : Gw} {off i : Nat} {r : RegRow} (hf : findReg off = some (r, i)) (hw : offWindows off)
    (hcap : r.base ≠ Reg.arcCapD0 0) (hn : g.noPwr off = false) (hi : g.islOn (regIsland off) = true) :
    (g.busRead off).2 = g.view off := by
  by_cases hid : off = Reg.sysId ∨ off = Reg.sysIslStat
  · simp [Gw.busRead, hid]
  · obtain ⟨hid, hst⟩ := not_or.mp hid
    rw [busRead_eq_mapRead g hw hid hst hi, mapRead_of_findReg g hn hf hcap, w32_toNat]

/-- Beyond the first word a read outside the mailboxes shows all ones (R706). -/
theorem spiRead_outside {g : Gw} {off : Nat} (n : Nat) (hmbx : ¬(0x20000 ≤ off ∧ off < 0x30000)) (ha : off % 4 = 0) :
    (spiRead g off (n + 1)).2 = leBytes 4 (g.busRead off).2.toNat ++ List.replicate (4 * n) 0xFF := by
  have hin : (decide (0x20000 ≤ off) && decide (off + 4 ≤ 0x2FFFF)) = false := by
    simp only [Bool.and_eq_false_iff, decide_eq_false_iff_not]
    omega
  simp only [spiRead, Gw.readBy, wordAccess_four ha, if_true, hin, Bool.false_eq_true, if_false]

/-! ### Interrupt outputs (R712, R713) -/

/-- A change that no source, vector or enable shows brings no interrupt output. -/
theorem interrupts_of_same {g h : Gw} (hv : h.pendingVectors = g.pendingVectors) (hl : h.intLow = g.intLow) :
    g.interrupts h = h := by
  have hnone : h.pendingVectors.filter (fun v => !g.pendingVectors.contains v) = [] := by
    rw [hv, List.filter_eq_nil_iff]
    intro v hmem
    simp [hmem]
  simp only [Gw.interrupts, hnone, hl, List.foldl_nil, if_true]

/-- The catalogue and the handling of errors are no sources of interrupts. -/
theorem interrupts_cat_flt (g : Gw) (c : Catalogue) (f : Faults) : g.interrupts { g with cat := c, flt := f } =
    { g with cat := c, flt := f } := interrupts_of_same rfl rfl

/-- The message of an unmasked vector is its table entry's address and data (R712). -/
theorem message_unmasked {g : Gw} {v : Nat} (hs : g.hostSpi = false) (hm : bit (g.regN (Reg.msixCtl v)) 0 = false) :
    g.message v = g.emit (.msix v (g.regN (Reg.msixAddrLo v) + 4294967296 * g.regN (Reg.msixAddrHi v))
      (g.regN (Reg.msixData v))) := by
  simp [Gw.message, hs, hm]

/-! ### BAR2 -/

theorem visitsPast_shape (g : Gw) (dram : List Host.Cell) : g.visitsPast dram = { g with cat := (g.visitsPast dram).cat } := by
  unfold Gw.visitsPast
  dsimp only
  split <;> rfl

/-- A write inside usable DRAM with presence held (R30, R702). -/
theorem bar2Write_held {s : State} {addr : Nat} {bytes : List Byte} (hon : s.gw.hostOn = true)
    (h13 : s.gw.islOn 13 = true) (hp : s.gw.fw.presence = true) (hfit : addr + bytes.length ≤ dramSize) :
    bar2Write addr bytes s = { s with
      dram := dramWrite s.dram addr bytes
      gw := { s.gw with
        cat := { (s.gw.visitsPast s.dram).cat with slots := s.slotsWritten addr bytes }
        flt := { s.gw.flt with badWords := s.gw.flt.badWords.filter (fun w => !overwritten addr bytes.length w) } } } := by
  have htake : bytes.take (dramSize - addr) = bytes := List.take_of_length_le (by omega)
  simp only [bar2Write, hon, h13, hp, Bool.and_self, if_true, htake, Gw.mend]
  rw [visitsPast_shape s.gw s.dram]

theorem bar2Write_discarded {s : State} {addr : Nat} {bytes : List Byte} (hp : s.gw.fw.presence = false) :
    bar2Write addr bytes s = s := by
  simp [bar2Write, hp]

end Sys2Proof.Machine
end

section
/-! The statement on SPI, re-arming and BAR2. -/

namespace Sys2Proof.Machine

/-- Settles O28: the SPI port writes and reads words of the register bus, INT_VACK sends a pending vector's message again, and
a BAR2 write changes DRAM, the slots it covers and the damaged words it makes good. -/
theorem spiRearmingAndMemoryWindow : Obligations.SpiRearmingAndMemoryWindow := by
  refine ⟨?write, ?read, ?ignored, ?rearm, ?bar2⟩
  case write =>
    intro s off i v r tail hf hb hw hrom hn ha hoff htail h14 hi
    refine answer_of_withGw ?_
    rw [List.append_assoc, spiTransaction_write _ h14 hoff, spiWrite_word s off v htail,
      writeBy_plain 1 v hf hb hw hrom hn ha hi]
  case read =>
    intro s off i r dummy hf hw hcap hn hmbx ha hoff hdummy h14 hi
    have hlen : (dummy ++ List.replicate 6 (0 : Byte)).length = 14 := by simp [hdummy]
    have hread := spiTransaction_read (s := s) (dummy ++ List.replicate 6 0) h14 hoff (by omega)
    rw [hlen, ← List.append_assoc] at hread
    refine ⟨_, answer_of_withGw hread, ?_⟩
    refine List.contains_iff_mem.mpr (mem_out_interrupts _ (List.mem_append_right _ (List.mem_singleton.mpr ?_)))
    have hdata : (spiRead s.gw off (max 1 (ceilDiv (14 - 8) 4))).2 = _ := spiRead_outside 1 hmbx ha
    rw [hdata, busRead_data hf hw hcap hn hi]
    simp [List.take_append]
  case ignored =>
    intro s mosi h
    exact answer_same (spiTransaction_ignored h)
  case rearm =>
    intro s v n h14 hnv
    have hexec : exec (.intVackWrite v) s = .next (s.after (s.gw.vack v)) := by
      refine (answer_onGw _ s).trans ?_
      rw [if_pos h14]
    refine ⟨fun h31 hpend hspi hmask => ?_, fun hnone => ?_⟩
    · rw [hexec, Gw.vack, ← hnv, h31, hpend, ← message_unmasked hspi hmask]
      rfl
    · have hvack : s.gw.vack v = s.gw := by
        rw [Gw.vack, ← hnv, if_neg]
        rcases hnone with h | h <;> simp only [h, Bool.and_false, Bool.false_and, Bool.false_eq_true, not_false_iff]
      rw [hexec, hvack, after_self]
  case bar2 =>
    intro s addr bytes hon h13
    refine ⟨fun hp hfit => ⟨?_, fun k hk => ?_, fun a ha => ?_⟩, fun hp => ?_⟩
    · have hwrite := bar2Write_held hon h13 hp hfit
      show answer (bar2Write addr bytes) s = _
      rw [answer, hwrite, interrupts_cat_flt]
    · exact dramByte_dramWrite_written bytes s.dram addr hk (by omega)
    · exact dramByte_dramWrite_frame bytes s.dram addr (by omega)
    · exact answer_same (bar2Write_discarded hp)

end Sys2Proof.Machine
end

section
/-! SUPPORT. Flags of the timebase, the epoch's pairs (R324), a due INCR (R396), the step tick (R398), a servo sample (R400) and
the loss of a source (R402, R404). -/

namespace Sys2Proof.Machine

/-! ### Flag bits -/

/-- A flag register holds its old bits and those of the mask. -/
theorem bit_regN_flag (g : Gw) (o k : Nat) {i : Nat} (hi : i < 32) :
    bit ((g.flag o k).regN o) i = (bit (g.regN o) i || bit k i) := by
  simp only [bit, Gw.regN, reg_flag_same, w32, BitVec.toNat_or, BitVec.toNat_ofNat, Nat.testBit_or,
    Nat.testBit_mod_two_pow, hi, decide_true, Bool.true_and]

theorem bit_regN_flag_of_mask (g : Gw) (o : Nat) {k i : Nat} (hi : i < 32) (hk : bit k i = true) :
    bit ((g.flag o k).regN o) i = true := by
  rw [bit_regN_flag g o k hi, hk, Bool.or_true]

theorem bit_regN_flag_of_set {g : Gw} {o i : Nat} (k : Nat) (hi : i < 32) (h : bit (g.regN o) i = true) :
    bit ((g.flag o k).regN o) i = true := by
  rw [bit_regN_flag g o k hi, h, Bool.true_or]

/-- The interrupt outputs of a change touch no flag of the timebase. -/
theorem regN_tbFlag_after (s : State) (g : Gw) : (s.after g).gw.regN Reg.tbFlag = g.regN Reg.tbFlag := by
  unfold Gw.regN
  rw [after_gw, interrupts_reg s.gw g (by decide)]

theorem regN_note (g : Gw) (w : String) (l : List Int) (o : Nat) : (g.note w l).regN o = g.regN o := rfl

/-- A change of the servo's state sets flags and clears none. -/
theorem setServo_flag {g : Gw} {i : Nat} (sv : Servo) (hi : i < 32) (h : bit (g.regN Reg.tbFlag) i = true) :
    bit ((g.setServo sv).regN Reg.tbFlag) i = true := by
  have hbase : ({ g with tb := { g.tb with servo := sv } } : Gw).regN Reg.tbFlag = g.regN Reg.tbFlag := rfl
  unfold Gw.setServo
  split
  · exact h
  · simp only [regN_note]
    rw [← hbase] at h
    split
    · exact bit_regN_flag_of_set _ hi h
    · split
      · exact bit_regN_flag_of_set _ hi h
      · exact h

theorem bit_setBits_clear (v n : Nat) : bit (setBits v n n 0) n = false := by
  have hdiv : (v - v / 2 ^ n % 2 * 2 ^ n) / 2 ^ n = v / 2 ^ n - v / 2 ^ n % 2 := by
    rw [Nat.mul_comm, Nat.sub_mul_div]
  simp only [bit, setBits, bits, Nat.shiftRight_eq_div_pow, Nat.sub_self, Nat.zero_add, Nat.pow_one, Nat.zero_mod,
    Nat.zero_mul, Nat.add_zero, Nat.testBit_eq_decide_div_mod_eq, hdiv, decide_eq_false_iff_not]
  omega

/-! ### Epochs and INCR -/

/-- What a fold that rewrites the entries of some keys leaves at a key: the entry rewritten once if the key is among them. -/
theorem mgetD_foldl_mmod {α : Type} {d : α} (f : α → α) {l : List Nat} (hl : l.Nodup) (m : Map α) (i : Nat) :
    mgetD (l.foldl (fun m c => mmod m c d f) m) i d = if i ∈ l then f (mgetD m i d) else mgetD m i d := by
  induction l generalizing m with
  | nil => rfl
  | cons c r ih =>
    obtain ⟨hc, hr⟩ := List.nodup_cons.mp hl
    rw [List.foldl_cons, ih hr, mmod, mgetD_mset]
    by_cases h : i = c
    · subst h; simp [hc]
    · simp [h]

/-- Every CAN controller records a pair (R324). -/
theorem recordPairs_can (g : Gw) (add : List CanPair → Nat → Stamp → Nat → List CanPair) (h : g.islOn 9 = true) {c : Nat}
    (hc : c < 32) : ((g.recordPairs add).canAt c).pairs = add (g.canAt c).pairs g.canEdge g.now g.tb.seg := by
  rw [Gw.recordPairs, if_pos h, Gw.canAt]
  dsimp only
  rw [mgetD_foldl_mmod (fun x : CanCtl => { x with pairs := add x.pairs g.canEdge g.now g.tb.seg }) List.nodup_range,
    if_pos (List.mem_range.mpr hc)]
  rfl

theorem applyIncr_due {g : Gw} {due v : Nat} (h : g.tb.incrNext = [(due, v)]) (hd : due ≤ g.tb.tick) :
    g.applyIncr = { g with tb := { g.tb with incr := v, refEdges := 0, incrNext := [] } } := by
  simp [Gw.applyIncr, h, hd]

theorem applyIncr_early {g : Gw} {due v : Nat} (h : g.tb.incrNext = [(due, v)]) (hd : g.tb.tick < due) :
    g.applyIncr = g := by
  simp [Gw.applyIncr, h, hd]

/-! ### The step tick -/

@[simp] theorem recordPairs_str (g : Gw) (add : List CanPair → Nat → Stamp → Nat → List CanPair) :
    (g.recordPairs add).str = g.str := by
  unfold Gw.recordPairs
  split <;> rfl

/-- What the step tick is about: the clock and its segment, and Strata's record of steps (R398, R75). -/
structure StepView where
  acc : BitVec 104
  tick : Nat
  seg : Nat
  step : Option StepReq
  lastDelta : Int
  shift : Map Int
  closing : Option Closing
  relSeg : Nat

def stepView (t : Timebase) (x : Strata) : StepView :=
  ⟨t.acc, t.tick, t.seg, t.step, t.lastDelta, x.shift, x.closing, x.relSeg⟩

def Gw.stepView (g : Gw) : StepView := Machine.stepView g.tb g.str

theorem Gw.stepView_congr {g h : Gw} (ht : h.tb = g.tb) (hs : h.str = g.str) : h.stepView = g.stepView := by
  rw [Gw.stepView, Gw.stepView, ht, hs]

@[simp] theorem setTev_str (g : Gw) (n : Nat) (x : TevOut) : (g.setTev n x).str = g.str := rfl
@[simp] theorem bumpN_str (g : Gw) (o n : Nat) : (g.bumpN o n).str = g.str := setReg_str g o _
@[simp] theorem tevDrive_str (g : Gw) (n : Nat) (b : Bool) (t : Stamp) : (g.tevDrive n b t).str = g.str := rfl
@[simp] theorem tevDrive_tb (g : Gw) (n : Nat) (b : Bool) (t : Stamp) : (g.tevDrive n b t).tb = g.tb := rfl

@[simp] theorem tevMiss_str (g : Gw) (n k : Nat) : (g.tevMiss n k).str = g.str := by
  by_cases h : k ≤ (g.tevAt n).k
  · rw [Gw.tevMiss, if_pos h]
  · rw [Gw.tevMiss, if_neg h, setTev_str, flag_str, bumpN_str]

/-- The step tick at one output: its pulse ends, and the events passed over are missed (R431). -/
def Gw.tevStepOne (g : Gw) (n : Nat) : Gw :=
  let x := g.tevAt n
  let g := if x.pulseEnd.isSome then
      (g.setTev n { x with level := false, pulseEnd := none, active := x.active && g.tevMode n % 3 ≠ 0 }).tevDrive n false g.now
    else g
  if (g.tevAt n).active then g.tevMiss n (g.tevBefore n x g.now) else g

theorem tevStepOne_stepView (g : Gw) (n : Nat) : (g.tevStepOne n).stepView = g.stepView := by
  apply Gw.stepView_congr <;> unfold Gw.tevStepOne <;> dsimp only <;> repeat' split
  all_goals simp

/-- The outputs change neither the clock nor Strata's record of steps. -/
theorem tevStep_stepView (g : Gw) : g.tevStep.stepView = g.stepView := by
  unfold Gw.tevStep
  extract_lets outs tb pps missed tb'
  have houts : outs.stepView = g.stepView := foldl_same Gw.stepView tevStepOne_stepView _ g
  have hpps : pps.stepView = outs.stepView := by
    clear_value outs
    by_cases h : outs.tb.ppsEnd.isSome = true
    · rw [show pps = _ from if_pos h]
      rfl
    · rw [show pps = _ from if_neg h]
  have hmissed : missed.stepView = pps.stepView := by
    clear_value pps
    by_cases h : pps.ppsOpen = true
    · rw [show missed = _ from if_pos h]
      exact Gw.stepView_congr (flag_tb _ _ _) (flag_str _ _ _)
    · rw [show missed = _ from if_neg h]
  rw [← houts, ← hpps]
  split
  · split
    · exact hmissed
    · rfl
  · rfl

/-- Stamps move with the step, and neither the clock nor Strata's record of steps does. -/
theorem shiftStamps_stepView (g : Gw) (d : Int) : (g.shiftStamps d).stepView = g.stepView := by
  unfold Gw.shiftStamps
  dsimp only
  split <;> rfl

/-- The state of the timebase and of Strata that the step tick itself makes (R398, R75). -/
def Gw.stepped (g : Gw) (r : StepReq) : StepView :=
  { acc := g.tb.acc + BitVec.ofInt 104 (r.delta * 16777216), tick := g.tb.tick, seg := g.tb.seg + 1, step := none,
    lastDelta := r.delta, shift := mset g.str.shift (g.tb.seg + 1) (r.delta * 8 / 65536),
    closing := if g.str.run then some ⟨r.delta, g.tb.dt40⟩ else g.str.closing,
    relSeg := if g.str.run then g.str.relSeg else g.tb.seg + 1 }

theorem takeStep_stepView (g : Gw) (r : StepReq) (rest : List StepReq) : (g.takeStep r rest).stepView = g.stepped r := by
  unfold Gw.takeStep
  extract_lets old d late tb₀ tb str₀ str stepped fresh recorded shifted noted
  have hfresh : fresh.stepView = g.stepped r := by
    by_cases h : stepped.str.run = true
    · rw [show fresh = _ from if_pos h]
      rfl
    · rw [show fresh = _ from if_neg h]
      rfl
  have hrecorded : recorded.stepView = fresh.stepView := by
    clear_value fresh
    apply Gw.stepView_congr <;> simp [recorded]
  have hshifted : shifted.stepView = recorded.stepView := by
    clear_value recorded
    rw [show shifted = _ from rfl, tevStep_stepView]
    exact shiftStamps_stepView recorded d
  have hnoted : noted.stepView = shifted.stepView := by
    clear_value shifted
    unfold noted
    split <;> rfl
  rw [← hfresh, ← hrecorded, ← hshifted, ← hnoted]
  split
  · exact Gw.stepView_congr (reply_tb _ _ _ _ _) (reply_str _ _ _ _ _)
  · rfl

/-- A step whose tick has come and that waits for no instant is made. -/
theorem applyStep_due {g : Gw} {r : StepReq} (hs : g.tb.step = some r) (hh : g.handing = false) (h16 : g.tickNo % 16 = 0)
    (hb : r.notBefore ≤ g.tb.tick) (hi : r.instant = none) : g.applyStep = g.takeStep r g.tb.stepQueue := by
  simp [Gw.applyStep, Gw.dueStep, hs, hh, h16, hb, hi]

theorem applyStep_early {g : Gw} {r : StepReq} (hs : g.tb.step = some r) (h : g.tickNo % 16 ≠ 0 ∨ g.tb.tick < r.notBefore) :
    g.applyStep = g := by
  rcases h with h | h <;> simp [Gw.applyStep, Gw.dueStep, hs, h, Nat.not_le_of_lt]

end Sys2Proof.Machine
end

section
/-! SUPPORT. A servo sample of a source that gives offsets (R400, R402), and the loss of a source (R402, R404). -/

namespace Sys2Proof.Machine

theorem canAt_after (s : State) (g : Gw) (c : Nat) : (s.after g).gw.canAt c = g.canAt c := by
  rw [Gw.canAt, Gw.canAt, after_gw, interrupts_can]

/-! ### A servo sample -/

/-- A word written to INCR lies in the clamp range and waits for its tick (R395, R396). -/
theorem writeIncr_frame (g : Gw) (x : Nat) : (g.writeIncr x).params = g.params ∧
    ∃ v, (g.writeIncr x).tb = { g.tb with incrNext := g.tb.incrNext ++ [(g.boundary (g.tb.tick + 16), v)] } ∧
      incrMin ≤ v ∧ v ≤ incrMax := by
  have hle : incrMin ≤ incrMax := by decide
  unfold Gw.writeIncr
  extract_lets c counted tb
  have hcounted : counted.params = g.params ∧ counted.tb = g.tb := by
    by_cases h : c = x
    · rw [show counted = _ from if_pos h]
      exact ⟨rfl, rfl⟩
    · rw [show counted = _ from if_neg h]
      exact ⟨by rw [flag_params, bump_params], by rw [flag_tb, bump_tb]⟩
  refine ⟨hcounted.1, c, ?_, le_max_left _ _, max_le hle (min_le_left _ _)⟩
  simp only [tb, Gw.boundary, hcounted.2]
  rfl

theorem slew_frame (g : Gw) (o : Int) : (g.slew o).params = g.params ∧
    ∃ v, (g.slew o).tb = { g.tb with incrNext := g.tb.incrNext ++ [(g.boundary (g.tb.tick + 16), v)] } ∧
      incrMin ≤ v ∧ v ≤ incrMax := writeIncr_frame g.draw _

/-- The module with a sample of offset `o` taken over, before it steps or slews (R400). -/
def Gw.sampled (g : Gw) (o : Int) : Gw :=
  { g with tb := { g.tb with
      offs := o * 8 / 65536
      offsHist := (o * 8 / 65536 :: g.tb.offsHist).take 16
      lastOffs := some (g.now, o)
      freqHist := ((g.freqError o).map (fun e => (g.tb.tick, e))).toList ++
        g.tb.freqHist.filter (fun q => g.tb.tick < q.1 + 30000000000)
      lockRun := if o.natAbs ≤ 65536 * g.param Par.tbLockNs then g.tb.lockRun + 1 else 0
      firstSample := false
      samples := merase g.tb.samples g.tb.src } }

/-- The sample is far enough for a step, and a step is allowed (R400, R399). -/
def Gw.stepsFor (g : Gw) (o : Int) : Bool :=
  decide (65536 * Int.ofNat (g.param Par.tbStepThreshNs) < (o.natAbs : Int)) &&
    ((g.param Par.tbStepMode = 2 || (g.param Par.tbStepMode = 1 && g.tb.firstSample)) && !g.stepBusy)

/-- The servo locks after enough samples inside the window (R402). -/
def Gw.judged (g : Gw) : Gw :=
  if g.tb.servo = .acquiring && g.param Par.tbLockCnt ≤ g.tb.lockRun then
    { g with tb := { g.tb with everLocked := true } }.setServo .locked
  else g

/-- A sample within the threshold, or with steps off, slews. -/
theorem stepsFor_near {g : Gw} {o : Int}
    (h : (o.natAbs : Int) ≤ 65536 * (g.param Par.tbStepThreshNs : Int) ∨ g.param Par.tbStepMode = 0) : g.stepsFor o = false := by
  rcases h with h | h
  · exact Bool.and_eq_false_imp.mpr fun hfar => absurd (of_decide_eq_true hfar) (Int.not_lt.mpr h)
  · simp [Gw.stepsFor, h]

/-- The servo's answer to a sample: a step asked for, or INCR written. -/
def Gw.answered (g : Gw) (o : Int) : Gw :=
  if g.stepsFor o then (g.sampled o).askStep o none none else (g.sampled o).slew o

theorem answered_step {g : Gw} {o : Int} (h : g.stepsFor o = true) : (g.answered o).params = g.params ∧
    (g.answered o).tb = { (g.sampled o).tb with step := some ⟨o, g.boundary (g.tb.tick + 256), none, none⟩ } := by
  rw [Gw.answered, if_pos h]
  exact ⟨rfl, rfl⟩

theorem answered_slew {g : Gw} {o : Int} (h : g.stepsFor o = false) : (g.answered o).params = g.params ∧
    ∃ v, (g.answered o).tb =
      { (g.sampled o).tb with incrNext := g.tb.incrNext ++ [(g.boundary (g.tb.tick + 16), v)] } ∧
      incrMin ≤ v ∧ v ≤ incrMax := by
  rw [Gw.answered, h]
  exact slew_frame (g.sampled o) o

/-- A sample leaves the rest of the timebase to what it took over. -/
theorem answered_frame (g : Gw) (o : Int) : (g.answered o).params = g.params ∧
    ∃ st inc, (g.answered o).tb = { (g.sampled o).tb with step := st, incrNext := inc } := by
  cases h : g.stepsFor o with
  | true => exact ⟨(answered_step h).1, _, _, (answered_step h).2⟩
  | false =>
    obtain ⟨hp, v, htb, -⟩ := answered_slew h
    exact ⟨hp, _, _, htb⟩

theorem useSample_offset {g : Gw} (o : Int) (h4 : g.tb.src ≠ 4) :
    g.useSample o = (g.answered o).judged := by
  simp only [Gw.useSample, h4, decide_false, Bool.not_false, Bool.true_and, if_false, decide_eq_true_eq]
  rfl

/-- Judging the lock changes the servo's state and whether it was ever locked. -/
theorem judged_tb (g : Gw) : ∃ sv e, g.judged.tb = { g.tb with servo := sv, everLocked := e } := by
  unfold Gw.judged
  split
  · exact ⟨_, _, setServo_tb _ _⟩
  · exact ⟨_, _, rfl⟩

theorem judged_locked {g : Gw} (h : g.tb.servo = .acquiring) :
    g.judged.tb.servo = .locked ↔ g.param Par.tbLockCnt ≤ g.tb.lockRun := by
  by_cases hc : g.param Par.tbLockCnt ≤ g.tb.lockRun <;> simp [Gw.judged, h, hc]

/-- Without REF10_IN a servo sample is that of the source in use, taken when it is the wanted one. -/
theorem servoSample_inUse {g : Gw} {o : Int} (h12 : g.islOn 12 = true) (hp : g.pairRuns 0 = true) (hh : g.handing = false)
    (hw : g.wanted = g.tb.src) (ho : mget? g.tb.samples g.tb.src = some o) : g.servoSample = g.useSample o := by
  simp [Gw.servoSample, Gw.reselect, h12, hp, hh, hw, ho]

theorem servoSample_idle {g : Gw} (h : g.pairRuns 0 = false ∨ g.handing = true) : g.servoSample = g := by
  rcases h with h | h <;> simp [Gw.servoSample, h]

/-! ### HOLDOVER (R403) -/

theorem holdUpdate_due {g : Gw} (h12 : g.islOn 12 = true) (hp : g.pairRuns 0 = true) (hs : g.tb.servo = .holdover)
    (hk : ∀ k, mget? g.timers timerHoldover = some k → k + 10 * ticksPerMs ≤ g.tb.tick) :
    g.holdUpdate = { g with tb := { g.tb with qual := g.holdError }, timers := mset g.timers timerHoldover g.tb.tick } := by
  unfold Gw.holdUpdate Gw.every
  rw [if_pos (by simp [h12, hp, hs]), if_pos]
  · rfl
  · split
    · next k h => exact decide_eq_true (hk k h)
    · rfl

theorem holdUpdate_early {g : Gw} {k : Nat} (hk : mget? g.timers timerHoldover = some k)
    (ht : g.tb.tick < k + 10 * ticksPerMs) : g.holdUpdate = g := by
  simp [Gw.holdUpdate, Gw.every, hk, Nat.not_le_of_lt ht]

theorem holdUpdate_other {g : Gw} (hs : g.tb.servo ≠ .holdover) : g.holdUpdate = g := by
  simp [Gw.holdUpdate, hs]

/-! ### The loss of a source -/

@[simp] theorem setServo_params (g : Gw) (sv : Servo) : (g.setServo sv).params = g.params := by
  unfold Gw.setServo
  dsimp only
  repeat' split
  all_goals rfl

@[simp] theorem enterHoldover_servo (g : Gw) : g.enterHoldover.tb.servo = .holdover := by
  rw [Gw.enterHoldover, setServo_tb]

theorem enterHoldover_source (g : Gw) : g.enterHoldover.tb.src = g.tb.src ∧ g.enterHoldover.tb.valid = g.tb.valid := by
  rw [Gw.enterHoldover, setServo_tb]
  exact ⟨rfl, rfl⟩

theorem enterHoldover_flag {g : Gw} {i : Nat} (hi : i < 32) (h : bit (g.regN Reg.tbFlag) i = true) :
    bit (g.enterHoldover.regN Reg.tbFlag) i = true := by
  rw [Gw.enterHoldover]
  exact setServo_flag _ hi h

/-- No source is left: HOLDOVER once locked, else FREERUN (R402). -/
theorem noSource_tb (g : Gw) : g.noSource.tb.src = 0 ∧ g.noSource.tb.valid = g.tb.valid ∧
    g.noSource.tb.servo = if g.tb.everLocked then .holdover else .freerun := by
  unfold Gw.noSource
  by_cases h : g.tb.everLocked = true <;> simp [h, enterHoldover_source]

theorem noSource_flag {g : Gw} {i : Nat} (hi : i < 32) (h : bit (g.regN Reg.tbFlag) i = true) :
    bit (g.noSource.regN Reg.tbFlag) i = true := by
  unfold Gw.noSource
  dsimp only
  split
  · exact enterHoldover_flag hi h
  · exact setServo_flag _ hi h

/-- A change of source is flagged (R404). -/
theorem sourceChange_flag (g : Gw) (src : Nat) : bit ((g.sourceChange src).regN Reg.tbFlag) 29 = true := by
  unfold Gw.sourceChange
  refine setServo_flag _ (by decide) ?_
  rw [regN_note]
  exact bit_regN_flag_of_mask _ _ (by decide) (by decide)

theorem leaveSource_flag {g : Gw} (h : bit (g.regN Reg.tbFlag) 29 = true) :
    bit (g.leaveSource.regN Reg.tbFlag) 29 = true := by
  unfold Gw.leaveSource
  split
  · exact sourceChange_flag _ _
  · exact noSource_flag (by decide) h

theorem leaveSource_valid (g : Gw) : g.leaveSource.tb.valid = g.tb.valid := by
  unfold Gw.leaveSource
  split
  · rw [sourceChange_tb]
  · exact (noSource_tb g).2.1

theorem wanted_congr {g h : Gw} (hp : h.params = g.params) (hv : h.tb.valid = g.tb.valid) : h.wanted = g.wanted := by
  rw [Gw.wanted, Gw.wanted, param_congr hp, param_congr hp, hv]

theorem leaveSource_other {g : Gw} (h : g.wanted ≠ 0) : g.leaveSource = g.sourceChange g.wanted := if_pos h
theorem leaveSource_none {g : Gw} (h : g.wanted = 0) : g.leaveSource = g.noSource := if_neg (not_not.mpr h)

@[simp] theorem gptpSelect_params (g : Gw) (i : Nat) : (g.gptpSelect i).params = g.params := by
  unfold Gw.gptpSelect
  dsimp only
  split <;> rfl

/-- What the loss of a source marks before the source goes: PPS_IN_LOSS, and the vectors that gPTP slave ports heard. -/
theorem sourceLost_marks (g : Gw) (src : Nat) :
    ∃ h : Gw, g.sourceLost src = h.sourceOut src ∧ h.tb = g.tb ∧ h.params = g.params := by
  unfold Gw.sourceLost
  extract_lets flagged w x left lost
  have hflagged : flagged.tb = g.tb ∧ flagged.params = g.params := by
    by_cases h : src = 3
    · rw [show flagged = _ from if_pos h]
      exact ⟨flag_tb _ _ _, flag_params _ _ _⟩
    · rw [show flagged = _ from if_neg h]
      exact ⟨rfl, rfl⟩
  refine ⟨lost, rfl, ?_⟩
  rw [← hflagged.1, ← hflagged.2]
  by_cases h : src = 1
  · rw [show lost = _ from if_pos h, gptpSelect_tb, gptpSelect_params]
    exact ⟨rfl, rfl⟩
  · rw [show lost = _ from if_neg h]
    exact ⟨rfl, rfl⟩

/-- A source goes out: it is valid no longer, SRC_LOSS is set for a configured one, and the servo leaves the one in use. -/
theorem sourceOut_leaves (g : Gw) (src : Nat) :
    ∃ h : Gw, g.sourceOut src = (if h.tb.src ≠ src then h else h.leaveSource) ∧ h.params = g.params ∧
      h.tb = { g.tb with valid := setBits g.tb.valid src src 0, samples := merase g.tb.samples src } ∧
      (src = g.param Par.tbSrcPri ∨ src = g.param Par.tbSrcSec → bit (h.regN Reg.tbFlag) 29 = true) := by
  unfold Gw.sourceOut
  extract_lets tb out flagged
  refine ⟨flagged, rfl, ?_⟩
  by_cases h : src = g.param Par.tbSrcPri ∨ src = g.param Par.tbSrcSec
  · rw [show flagged = _ from if_pos (by simpa using (show src = out.param _ ∨ src = out.param _ from h))]
    exact ⟨flag_params _ _ _, flag_tb _ _ _, fun _ => bit_regN_flag_of_mask _ _ (by decide) (by decide)⟩
  · rw [show flagged = _ from if_neg (by simpa using (show ¬(src = out.param _ ∨ src = out.param _) from h))]
    exact ⟨rfl, rfl, fun hc => absurd hc h⟩

/-- The loss of a source as a whole (R401, R402, R404). -/
theorem sourceLost_leaves (g : Gw) (src : Nat) :
    ∃ h : Gw, g.sourceLost src = (if h.tb.src ≠ src then h else h.leaveSource) ∧
      h.tb = { g.tb with valid := setBits g.tb.valid src src 0, samples := merase g.tb.samples src } ∧
      h.wanted = ({ g with tb := { g.tb with valid := setBits g.tb.valid src src 0 } } : Gw).wanted ∧
      (src = g.param Par.tbSrcPri ∨ src = g.param Par.tbSrcSec → bit (h.regN Reg.tbFlag) 29 = true) := by
  obtain ⟨m, hm, hmtb, hmparams⟩ := sourceLost_marks g src
  obtain ⟨h, hout, hparams, htb, hflag⟩ := sourceOut_leaves m src
  rw [hmtb] at htb
  rw [param_congr hmparams, param_congr hmparams] at hflag
  refine ⟨h, hm.trans hout, htb, wanted_congr (hparams.trans hmparams) ?_, hflag⟩
  rw [htb]

end Sys2Proof.Machine
end

section
/-! The statement on the timebase and the servo. -/

namespace Sys2Proof.Machine

/-- Settles O57, command by command. -/
theorem timebaseAndServo : Obligations.TimebaseAndServo := by
  unfold Obligations.TimebaseAndServo
  refine ⟨?epoch, ?distribution, ?incr, ?step, ?noStep, ?sample, ?noSample, ?holdover, ?loss, ?ref10⟩
  case epoch =>
    intro s h12
    have hexec : Machine.exec .tbEpoch s = .next (s.after s.gw.doEpoch) := by
      refine (answer_onGw _ s).trans ?_
      rw [if_pos h12]
    refine ⟨fun h16 hlt => ⟨_, hexec, ?_, fun h9 c hc => ?_⟩, fun hnot => ?_⟩
    · simp [Gw.doEpoch, h16, hlt]
    · have hepoch : s.gw.doEpoch = _ := if_pos (by simp [h16, hlt])
      rw [canAt_after, hepoch]
      exact recordPairs_can { s.gw with tb := { s.gw.tb with epoch := s.gw.tickNo / 65536 } } addEpoch h9 hc
    · have hsame : s.gw.doEpoch = s.gw := if_neg (by rcases hnot with h | h <;> simp [h, Nat.not_lt_of_le])
      rw [hexec, hsame, after_self]
  case distribution =>
    intro s i b h12 hi
    have hexec : Machine.exec (.distributionError ⟨i, b⟩) s = .next (s.after (s.gw.distError i b)) := by
      refine (answer_onGw _ s).trans ?_
      rw [if_pos (by simp [h12, hi])]
    refine ⟨_, hexec, ?_, ?_, ?_⟩
    · rw [regN_tbFlag_after, Gw.distError, Gw.detect, regN_flag_ne _ (by decide)]
      exact bit_regN_flag_of_mask _ Reg.tbFlag (by decide) (by decide)
    · simp [Gw.distError, Gw.detect]
    · simp [Gw.distError, Gw.detect]
  case incr =>
    intro s h12
    have hexec : Machine.exec .incrApply s = .next (s.after s.gw.applyIncr) := by
      refine (answer_onGw _ s).trans ?_
      rw [if_pos h12]
    refine ⟨fun due v h => ⟨fun hd => ?_, fun hd => ?_⟩, fun h => ?_⟩
    · rw [hexec, applyIncr_due h hd]
    · rw [hexec, applyIncr_early h hd, after_self]
    · rw [hexec, applyIncr_of_nil h, after_self]
  case step =>
    intro s r h12 hs hh
    have hexec : Machine.exec .stepApply s = .next (s.after s.gw.applyStep) := by
      refine (answer_onGw _ s).trans ?_
      rw [if_pos h12]
    refine ⟨fun h16 hb hi => ?_, fun hearly => ?_⟩
    · have hview := takeStep_stepView s.gw r s.gw.tb.stepQueue
      rw [applyStep_due hs hh h16 hb hi] at hexec
      refine ⟨_, hexec, ?_⟩
      simp only [after_gw, interrupts_tb, interrupts_str]
      simp only [Gw.stepView, stepView, Gw.stepped, StepView.mk.injEq] at hview
      obtain ⟨hacc, htick, hseg, hstep, hdelta, hshift, hclosing, hrel⟩ := hview
      refine ⟨hacc, hseg, hstep, hdelta, htick, by rw [hshift, mget?_mset_same], fun hrun => ?_⟩
      rw [hclosing, hrel, if_pos hrun, if_pos hrun]
      exact ⟨rfl, rfl⟩
    · rw [hexec, applyStep_early hs hearly, after_self]
  case noStep =>
    intro s hs hq
    refine answer_same (congrArg s.withGw (a₂ := s.gw) ?_)
    exact (congrArg (ite (s.gw.islOn 12 = true) · s.gw) (applyStep_of_none hs hq)).trans (ite_self _)
  case sample =>
    intro s o h12 hp hh hw h4 ho
    have hexec : Machine.exec .servoSample s = .next (s.after (s.gw.answered o).judged) :=
      congrArg (fun g => Host.Outcome.next (s.after g))
        ((servoSample_inUse h12 hp hh hw ho).trans (useSample_offset o h4))
    obtain ⟨hparams, st, inc, hframe⟩ := answered_frame s.gw o
    obtain ⟨sv, e, htb⟩ := judged_tb (s.gw.answered o)
    have hlock := judged_locked (g := s.gw.answered o)
    rw [param_congr hparams, hframe] at hlock
    have hstep : (s.gw.answered o).judged.tb.step = (s.gw.answered o).tb.step := by rw [htb]
    have hincr : (s.gw.answered o).judged.tb.incrNext = (s.gw.answered o).tb.incrNext := by rw [htb]
    have hrun : (s.gw.answered o).judged.tb.lockRun = (s.gw.sampled o).tb.lockRun := by rw [htb, hframe]
    refine ⟨_, hexec, ?_⟩
    rw [after_gw, interrupts_tb, hstep, hincr, hrun]
    refine ⟨by rw [htb, hframe]; rfl, by rw [htb, hframe]; rfl, by rw [htb, hframe]; rfl, fun hfar hmode hbusy => ?_,
      fun hnear => ?_, fun hin => if_pos hin, fun hout => if_neg (Nat.not_le_of_lt hout), hlock⟩
    · rw [(answered_step (by simpa [Gw.stepsFor, hmode, hbusy] using hfar)).2]
      exact ⟨rfl, rfl⟩
    · obtain ⟨-, v, hv, hmin, hmax⟩ := answered_slew (stepsFor_near hnear)
      rw [hv]
      exact ⟨⟨v, rfl, hmin, hmax⟩, rfl⟩
  case noSample =>
    intro s h
    exact answer_same (congrArg s.withGw (servoSample_idle h))
  case holdover =>
    intro s h12 hp
    refine ⟨fun hs hk => ?_, fun k hk ht => ?_, fun hs => ?_⟩
    · exact congrArg (fun g => Host.Outcome.next (s.after g)) (holdUpdate_due h12 hp hs hk)
    · exact answer_same (congrArg s.withGw (holdUpdate_early hk ht))
    · exact answer_same (congrArg s.withGw (holdUpdate_other hs))
  case loss =>
    intro s src p w h1 h4 h12 hp
    refine ⟨fun hnot => ?_, fun hv hgone hwanted => ?_⟩
    · refine answer_same (congrArg s.withGw (a₂ := s.gw) (if_neg ?_))
      rcases hnot with h | h <;> simp [h]
    · have hexec : Machine.exec (.sourceLoss src p) s = .next (s.after (s.gw.sourceLost src)) := by
        refine (answer_onGw _ s).trans ?_
        rw [if_pos (by simp [h1, h4, h12, hp, hv, hgone])]
      obtain ⟨g, hlost, htb, hgw, hflag⟩ := sourceLost_leaves s.gw src
      rw [hlost] at hexec
      rw [← hwanted] at hgw
      have hsrc : g.tb.src = s.gw.tb.src := by rw [htb]
      have hservo : g.tb.servo = s.gw.tb.servo := by rw [htb]
      have hlocked : g.tb.everLocked = s.gw.tb.everLocked := by rw [htb]
      have hvalid : bit g.tb.valid src = false := by rw [htb]; exact bit_setBits_clear _ _
      refine ⟨_, hexec, ?_⟩
      rw [regN_tbFlag_after, after_gw, interrupts_tb]
      by_cases huse : s.gw.tb.src = src
      · rw [if_neg (by simp [hsrc, huse]), leaveSource_valid]
        refine ⟨hvalid, fun h => absurd huse h, fun _ hw0 => ?_, fun hc => leaveSource_flag (hflag hc), fun _ hw0 => ?_⟩
        · rw [leaveSource_other (by rw [hgw]; exact hw0), sourceChange_tb, hgw]
          exact ⟨rfl, rfl, sourceChange_flag _ _⟩
        · rw [leaveSource_none (by rw [hgw]; exact hw0), ← hlocked]
          exact ⟨(noSource_tb g).1, (noSource_tb g).2.2⟩
      · rw [if_pos (by rw [hsrc]; exact huse)]
        exact ⟨hvalid, fun _ => ⟨hsrc, hservo⟩, fun h => absurd h huse, hflag, fun h => absurd h huse⟩
  case ref10 =>
    intro s ph h12
    have hexec : Machine.exec (.ref10Edge ph) s = .next (s.after (s.gw.refEdge ph)) := by
      refine (answer_onGw _ s).trans ?_
      rw [if_pos h12]
    refine ⟨fun hfirst => ?_, fun h0 hlt hv => ⟨_, hexec, ?_⟩⟩
    · have hrun : s.gw.refEdge ph = _ := if_pos (by simpa using hfirst)
      rw [hexec, hrun]
    · have hrun : s.gw.refEdge ph = _ := if_neg (by simp [hv, Nat.ne_of_gt h0])
      rw [after_gw, interrupts_tb, hrun]
      simp [Gw.sourceSample, Nat.not_le_of_lt hlt]

end Sys2Proof.Machine
end

section
/-! SUPPORT. Registers that a command writes, read after it, and frames put into Caldera. -/

namespace Sys2Proof.Machine

/-! ### Registers after a command -/

/-- The pending-bit words lie below every register that the order and the host rings change. -/
theorem not_mem_pba {o : Nat} (h : 0x3008 ≤ o) : o ∉ pba := by
  simp only [pba, Reg.msixPba, List.mem_cons, List.not_mem_nil, or_false]
  omega

theorem reg_after (s : State) (g : Gw) {o : Nat} (h : 0x3008 ≤ o) : (s.after g).gw.reg o = g.reg o :=
  interrupts_reg s.gw g (not_mem_pba h)

theorem regN_after (s : State) (g : Gw) {o : Nat} (h : 0x3008 ≤ o) : (s.after g).gw.regN o = g.regN o :=
  congrArg BitVec.toNat (reg_after s g h)

theorem regN_setRegN_ne (g : Gw) {o p : Nat} (v : Nat) (h : p ≠ o) : (g.setRegN o v).regN p = g.regN p :=
  congrArg BitVec.toNat (reg_setReg_ne g _ h)

theorem regN_setRegN_same (g : Gw) (o : Nat) {v : Nat} (h : v < 2 ^ 32) : (g.setRegN o v).regN o = v := by
  rw [Gw.regN, Gw.setRegN, reg_setReg_same, w32, BitVec.toNat_ofNat, Nat.mod_eq_of_lt h]

theorem reg_setRegN_same (g : Gw) (o v : Nat) : (g.setRegN o v).reg o = w32 v := reg_setReg_same g o (w32 v)

@[simp] theorem setRegN_str (g : Gw) (o v : Nat) : (g.setRegN o v).str = g.str := rfl
@[simp] theorem setRegN_params (g : Gw) (o v : Nat) : (g.setRegN o v).params = g.params := rfl
@[simp] theorem setRegN_cat (g : Gw) (o v : Nat) : (g.setRegN o v).cat = g.cat := rfl

theorem stampLo_lt (t : Stamp) : stampLo t < 2 ^ 32 := Nat.mod_lt _ (by decide)

theorem stampHi_lt (t : Stamp) : stampHi t < 2 ^ 32 := by
  unfold stampHi stampNat
  omega

/-! ### Frames put into Caldera (R91, R108) -/

/-- With cells free, a frame is stored under the next number, and only Caldera changes. -/
theorem storeFrame_of_free {g : Gw} {x : Frame} (h : (g.freeCells (cellsOf x.len)).isSome = true) :
    ∃ k, g.storeFrame x = some ({ g with cal := k }, { x with fid := g.cal.nextFid }) := by
  obtain ⟨ids, hids⟩ := Option.isSome_iff_exists.mp h
  unfold Gw.storeFrame
  dsimp only
  rw [show cellsOf x.body.bytes.length = cellsOf x.len from rfl, hids]
  exact ⟨_, rfl⟩

end Sys2Proof.Machine
end

section
/-! SUPPORT. The arrival of a frame at Strata (R45, R71–R74), and the resumption of an engine (R97). -/

namespace Sys2Proof.Machine

/-! ### A frame's place in the order (R45, R71) -/

/-- The module after a frame has taken its count, modulo 2^24. -/
def Gw.counted (g : Gw) (x : Frame) : Gw :=
  let k := 64 * x.fport + x.sub
  { g with str := { g.str with counts := mput g.str.counts k ((mgetD g.str.counts k 0 + 1) % 16777216) 0 } }

/-- The pending record of a normal frame with stamp `o` and the count it takes. -/
def Gw.recordOf (g : Gw) (x : Frame) (o : Stamp) (overrun : Bool) : Pend :=
  { frame := x, overrun := overrun,
    key := ⟨x.seg, o, x.fport, [x.sub, mgetD g.str.counts (64 * x.fport + x.sub) 0]⟩ }

/-- What Strata takes of a normal frame: it belongs to the run, not below START, to the segment being released, and lies at
most 1 ms ahead of device time. -/
structure NormalArrival (g : Gw) (x : Frame) : Prop where
  run : g.str.run = true
  parent : x.parent = none
  express : g.isExpress x = false
  seg : x.seg = g.str.relSeg
  startSeg : g.str.startSeg ≤ x.seg
  startStamp : g.str.startStamp ≤ x.adm
  near : x.adm ≤ g.now + 8000000

/-- It takes its count; whether it has come by its release stamp decides the rest (R45, R71, R72, R74). -/
theorem arrive_normal {g : Gw} {x : Frame} (h : NormalArrival g x) :
    g.arrive x =
      if g.orderNow - (x.adm + 8 * Int.ofNat g.hNs) ≤ 0 then
        (g.counted x).pendAt x [x.sub, mgetD g.str.counts (64 * x.fport + x.sub) 0] x.adm false false
      else
        let k := (g.counted x).noteOverrun x (g.orderNow - (x.adm + 8 * Int.ofNat g.hNs))
        if bit (k.pcfg x.fport) 8 then (k.noteTxDrop x 0).discardPend x
        else k.pendAt x [x.sub, mgetD g.str.counts (64 * x.fport + x.sub) 0] (k.frontierOf x.seg + 1) false true := by
  obtain ⟨hrun, hp, he, hseg, hstart, hfrom, hnear⟩ := h
  have hstamp : (g.orderStamp x).1 = x.adm := by simp [Gw.orderStamp, hp, he]
  have horder : x.orderSeg = x.seg := by simp [Frame.orderSeg, hp]
  have hcount : g.takeCount x = ([x.sub, mgetD g.str.counts (64 * x.fport + x.sub) 0], g.counted x) := by
    simp [Gw.takeCount, hp, Gw.counted]
  have hlate : (g.counted x).lateBy x.adm x.seg = g.orderNow - (x.adm + 8 * Int.ofNat g.hNs) := if_pos hseg
  have hopen : ¬x.seg < (g.counted x).str.relSeg := Nat.not_lt.mpr (Nat.le_of_eq hseg.symm)
  have hahead : ¬(g.counted x).now + 8000000 < x.adm := Int.not_lt.mpr hnear
  unfold Gw.arrive
  simp only [hstamp, horder, hcount, hlate, hopen, hahead, hrun, Nat.not_lt.mpr hstart, Int.not_lt.mpr hfrom,
    decide_false, Bool.not_true, Bool.not_false, Bool.and_false, Bool.or_false, Bool.true_and, decide_eq_true_eq,
    Bool.false_eq_true, if_false]

theorem pendAt_normal {g k : Gw} {x : Frame} (h : NormalArrival g x) (hk : k.params = g.params) (o : Stamp)
    (overrun : Bool) :
    k.pendAt x [x.sub, mgetD g.str.counts (64 * x.fport + x.sub) 0] o false overrun =
      { k with str := { k.str with pend := k.str.pend ++ [g.recordOf x o overrun] } } := by
  have hx : k.isExpress x = false := by
    rw [← h.express]
    simp only [Gw.isExpress, Gw.pcfg, param_congr hk]
  have horder : x.orderSeg = x.seg := by simp [Frame.orderSeg, h.parent]
  simp only [Gw.pendAt, hx, horder, Gw.recordOf]

/-- In time, it becomes pending at its admission stamp. -/
theorem arrive_inTime {g : Gw} {x : Frame} (h : NormalArrival g x)
    (ht : g.orderNow ≤ x.adm + 8 * Int.ofNat g.hNs) :
    g.arrive x = { g.counted x with str :=
      { (g.counted x).str with pend := g.str.pend ++ [g.recordOf x x.adm false] } } := by
  rw [arrive_normal h, if_pos (Int.sub_nonpos_of_le ht), pendAt_normal (k := g.counted x) h rfl]
  rfl

/-- The overrun's record is registers: its count, its flag and what it was. -/
theorem noteOverrun_eq (g : Gw) (x : Frame) (late : Int) : ∃ v, g.noteOverrun x late =
    (((((g.bump (Reg.fabStrOvrCnt x.fport)).flag Reg.fabStrOvrFlag (2 ^ x.fport)).setRegN Reg.fabStrOvrLast v).setRegN
      Reg.fabStrOvrLastALo (stampLo x.adm)).setRegN Reg.fabStrOvrLastAHi (stampHi x.adm)) := ⟨_, rfl⟩

@[simp] theorem noteOverrun_str (g : Gw) (x : Frame) (late : Int) : (g.noteOverrun x late).str = g.str := by
  obtain ⟨v, hv⟩ := noteOverrun_eq g x late
  rw [hv]
  simp only [setRegN_str, flag_str, bump_str]

@[simp] theorem noteOverrun_params (g : Gw) (x : Frame) (late : Int) : (g.noteOverrun x late).params = g.params := by
  obtain ⟨v, hv⟩ := noteOverrun_eq g x late
  rw [hv]
  simp only [setRegN_params, flag_params, bump_params]

/-- Late, it becomes pending just behind the frontier, and the overrun is recorded. -/
theorem arrive_late {g : Gw} {x : Frame} (h : NormalArrival g x)
    (ht : x.adm + 8 * Int.ofNat g.hNs < g.orderNow) (hkeep : bit (g.pcfg x.fport) 8 = false) :
    ∃ late, (g.arrive x).str.pend = g.str.pend ++ [g.recordOf x (g.str.frontier + 1) true] ∧
      (g.arrive x).regs = ((g.counted x).noteOverrun x late).regs := by
  refine ⟨g.orderNow - (x.adm + 8 * Int.ofNat g.hNs), ?_⟩
  rw [arrive_normal h, if_neg (Int.not_le.mpr (Int.sub_pos_of_lt ht))]
  generalize g.orderNow - (x.adm + 8 * Int.ofNat g.hNs) = late
  have hparams : ((g.counted x).noteOverrun x late).params = g.params := noteOverrun_params _ _ _
  have hpcfg : ((g.counted x).noteOverrun x late).pcfg x.fport = g.pcfg x.fport := param_congr hparams _
  have hfront : ((g.counted x).noteOverrun x late).frontierOf x.seg = g.str.frontier := by
    rw [Gw.frontierOf, noteOverrun_str, h.seg]
    exact if_pos (Nat.le_refl _)
  simp only [hpcfg, hkeep, hfront, Bool.false_eq_true, if_false]
  rw [pendAt_normal h hparams, noteOverrun_str]
  exact ⟨rfl, rfl⟩

/-- The overrun's record: its port's counter and flag, and the admission stamp (R71). -/
theorem noteOverrun_regs (g : Gw) {x : Frame} (late : Int) (hf : x.fport < 22) :
    (g.noteOverrun x late).regN (Reg.fabStrOvrCnt x.fport) = satAdd (g.regN (Reg.fabStrOvrCnt x.fport)) 1 ∧
      bit ((g.noteOverrun x late).regN Reg.fabStrOvrFlag) x.fport = true ∧
      (g.noteOverrun x late).regN Reg.fabStrOvrLastALo = stampLo x.adm ∧
      (g.noteOverrun x late).regN Reg.fabStrOvrLastAHi = stampHi x.adm := by
  have hcnt : ∀ o, o ≤ 0x120020 → Reg.fabStrOvrCnt x.fport ≠ o := by
    intro o ho
    simp only [Reg.fabStrOvrCnt]
    omega
  obtain ⟨v, hv⟩ := noteOverrun_eq g x late
  rw [hv]
  refine ⟨?count, ?flag, ?low, regN_setRegN_same _ _ (stampHi_lt _)⟩
  case count =>
    rw [regN_setRegN_ne _ _ (hcnt _ (by decide)), regN_setRegN_ne _ _ (hcnt _ (by decide)),
      regN_setRegN_ne _ _ (hcnt _ (by decide)), regN_flag_ne _ (hcnt _ (by decide)), regN_bump_same]
  case flag =>
    rw [regN_setRegN_ne _ _ (by decide), regN_setRegN_ne _ _ (by decide), regN_setRegN_ne _ _ (by decide)]
    exact bit_regN_flag_of_mask _ _ (by omega) Nat.testBit_two_pow_self
  case low => rw [regN_setRegN_ne _ _ (by decide), regN_setRegN_same _ _ (stampLo_lt _)]

theorem exec_strataArrival (f sub : Nat) (s : State) :
    exec (.strataArrival f sub) s = .next (s.after (s.gw.strataArrival f sub)) := rfl

/-- The oldest delivered frame of the sub-source leaves the delivered ones and reaches Strata. -/
theorem strataArrival_of_inbound {g : Gw} {f sub : Nat} {x : Frame} {rest : List Frame}
    (h : takeFirst (fun (y : Frame) => y.fport = f && y.sub = sub) g.str.inbound = some (x, rest)) :
    g.strataArrival f sub = ({ g with str := { g.str with inbound := rest } } : Gw).arrive x := by
  rw [Gw.strataArrival, h]

/-! ### An engine resumes -/

/-- An engine whose oldest waiting frame finds room in its allotment and free cells stores it and sends it on (R97). -/
theorem resumeEngine_room {g : Gw} {f : Nat} {x : Frame} {rest : List Frame}
    (hw : takeFirst (fun (y : Frame) => y.fport = f) g.str.cellWait = some (x, rest))
    (hroom : g.pendCells f + cellsOf x.len ≤ g.allotment f) (hfree : (g.freeCells (cellsOf x.len)).isSome = true) :
    ∃ h, ({ g with str := { g.str with cellWait := rest } } : Gw).storeFrame x =
        some (h, { x with fid := g.cal.nextFid }) ∧
      g.resumeEngine f = { h with str := { g.str with
        cellWait := rest, inbound := g.str.inbound ++ [{ x with fid := g.cal.nextFid }] } } := by
  obtain ⟨k, hk⟩ := storeFrame_of_free (g := { g with str := { g.str with cellWait := rest } }) hfree
  refine ⟨_, hk, ?_⟩
  simp only [Gw.resumeEngine, hw, if_pos hroom, Gw.toStrata, hk]

end Sys2Proof.Machine
end

section
/-! SUPPORT. The visits of the ageing and the vitrine sweep (R173, R174, R185, R186), and the close of an old segment (R75–R78). -/

namespace Sys2Proof.Machine

/-! ### The event that is due is a sweep's visit -/

/-- Only dynamic T0 entries are visited by the ageing sweep (R173). -/
theorem partition_of_nextAgeing {g : Gw} {v : (Stamp × Nat) × Nat × Nat} (h : g.nextAgeing = some v) : v.2.1 < 4 := by
  unfold Gw.nextAgeing at h
  split at h
  · cases h
  · obtain ⟨⟨i, e⟩, -, he⟩ := List.mem_filterMap.mp (leastBy_mem h)
    dsimp only at he
    split at he
    · next p hp =>
      split at he
      · cases he
      · obtain rfl := Option.some.inj he
        have hmem : p ∈ [0, 1, 2, 3] := List.mem_of_find?_eq_some hp
        simp only [List.mem_cons, List.not_mem_nil, or_false] at hmem
        dsimp only
        omega
    · cases he

theorem ageing_of_mem_dues {g : Gw} {dram : List Host.Cell} {d : Due} {p i : Nat} {pos : Stamp × Nat}
    (h : d ∈ g.dues dram) (hd : d.ev = .ageing p i pos) : p < 4 := by
  simp only [Gw.dues, List.append_assoc, List.mem_append, List.mem_map, List.mem_filter, List.mem_filterMap,
    Option.map_eq_some_iff] at h
  rcases h with ⟨_, -, rfl⟩ | ⟨_, -, rfl⟩ | ⟨v, hv, rfl⟩ | ⟨_, -, _, -, rfl⟩ | ⟨_, -, _, -, rfl⟩ |
    ⟨_, -, _, -, rfl⟩ | ⟨_, -, _, -, rfl⟩
  case inr.inr.inl =>
    obtain ⟨rfl, -, -⟩ : v.2.1 = p ∧ v.2.2 = i ∧ v.1 = pos := by simpa using hd
    exact partition_of_nextAgeing (Option.mem_toList.mp hv)
  all_goals exact absurd hd (by simp)

/-! ### The ageing visit (R173, R174) -/

/-- The ageing sweep's position set. -/
def Gw.ageMoved (g : Gw) (pos : Stamp × Nat) : Gw := { g with cat := { g.cat with agePos := (pos.1, pos.2 + 1) } }

@[simp] theorem regN_ageMoved (g : Gw) (pos : Stamp × Nat) (o : Nat) : (g.ageMoved pos).regN o = g.regN o := rfl

section
variable {s : State} {d : Due} {p i : Nat} {pos : Stamp × Nat}

theorem exec_ageingVisit (hd : s.gw.readyDue s.dram = some d) (he : d.ev = .ageing p i pos) :
    exec .ageingVisit s = .next (s.after ((s.gw.ageEntry p i).ageMoved pos)) := by
  refine answer_of_withGw ?_
  unfold ageingVisit
  rw [hd, Option.map_some, he]
  rfl

end

theorem ageEntry_hit {g : Gw} {i : Nat} {e : Entry} (p : Nat) (h : mget? g.cat.slots i = some e) (hh : e.hit = true) :
    g.ageEntry p i = { g with cat := { g.cat with slots := mset g.cat.slots i { e with hit := false, strike := false } } } := by
  simp [Gw.ageEntry, h, hh]

theorem ageEntry_unused {g : Gw} {i : Nat} {e : Entry} (p : Nat) (h : mget? g.cat.slots i = some e) (hh : e.hit = false)
    (hs : e.strike = false) :
    g.ageEntry p i = { g with cat := { g.cat with slots := mset g.cat.slots i { e with strike := true } } } := by
  simp [Gw.ageEntry, h, hh, hs]

theorem ageEntry_struck {g : Gw} {i : Nat} {e : Entry} (p : Nat) (h : mget? g.cat.slots i = some e) (hh : e.hit = false)
    (hs : e.strike = true) : g.ageEntry p i = (g.dropEntry p i e).bump (Reg.catAgedCnt p) := by
  simp [Gw.ageEntry, h, hh, hs]

/-- A removed entry leaves its slot, and no register moves. -/
theorem dropEntry_frame (g : Gw) (p i : Nat) (e : Entry) :
    (g.dropEntry p i e).cat.slots = merase g.cat.slots i ∧ (g.dropEntry p i e).regs = g.regs := by
  unfold Gw.dropEntry
  dsimp only
  split <;> exact ⟨rfl, rfl⟩

/-! ### The vitrine visit (R185, R186) -/

/-- The vitrine sweep's position set. -/
def Gw.vitMoved (g : Gw) (pos : Stamp × Nat) : Gw := { g with cat := { g.cat with vitPos := (pos.1, pos.2 + 1) } }

@[simp] theorem vitMoved_slots (g : Gw) (pos : Stamp × Nat) : (g.vitMoved pos).cat.slots = g.cat.slots := rfl
@[simp] theorem vitMoved_vitPos (g : Gw) (pos : Stamp × Nat) : (g.vitMoved pos).cat.vitPos = (pos.1, pos.2 + 1) := rfl
@[simp] theorem reg_vitMoved (g : Gw) (pos : Stamp × Nat) (o : Nat) : (g.vitMoved pos).reg o = g.reg o := rfl
@[simp] theorem regN_vitMoved (g : Gw) (pos : Stamp × Nat) (o : Nat) : (g.vitMoved pos).regN o = g.regN o := rfl

/-- Where the copy of slot `i` of partition `p` stands. -/
def Gw.copyAddr (g : Gw) (p i : Nat) : Nat := g.vitAddr ((g.vitOff p).getD 0) (i - g.partBase p)

section
variable {s : State} {d : Due} {p i : Nat} {pos : Stamp × Nat}

theorem exec_vitrineVisit (hd : s.gw.readyDue s.dram = some d) (he : d.ev = .vitrine p i pos) :
    exec .vitrineVisit s = .next (s.after ((s.gw.vitVisit s.dram p i).vitMoved pos)) := by
  refine answer_of_withGw ?_
  unfold vitrineVisit
  rw [hd, Option.map_some, he]
  rfl

end

section
variable {g : Gw} {dram : List Host.Cell} {p i : Nat}

theorem vitVisit_spoilt (h : g.spoilt (g.copyAddr p i) 64 = true) : g.vitVisit dram p i = g.bump Reg.lckItemDrop :=
  if_pos h

theorem vitVisit_alike (h : g.spoilt (g.copyAddr p i) 64 = false)
    (hk : vitCompare (g.slot i) (copyOfBytes p (dramRead dram (g.copyAddr p i) 64)) = 0) : g.vitVisit dram p i = g :=
  (if_neg (by rw [← Gw.copyAddr, h]; decide)).trans (if_pos hk)

/-- A difference that is not repaired is counted, flagged and recorded, and the slots stay. -/
theorem vitVisit_differs (h : g.spoilt (g.copyAddr p i) 64 = false)
    (hk : vitCompare (g.slot i) (copyOfBytes p (dramRead dram (g.copyAddr p i) 64)) ≠ 0)
    (hr : g.param Par.catVitRepair = 0) :
    g.vitVisit dram p i = ((g.bump Reg.catVitMisCnt).flag Reg.catFlag 0x20000000).setRegN Reg.catVitLast
      (vitCompare (g.slot i) (copyOfBytes p (dramRead dram (g.copyAddr p i) 64)) * 2 ^ 30 + p * 2 ^ 25 + i) := by
  simp only [Gw.copyAddr] at h hk ⊢
  simp [Gw.vitVisit, h, hk, hr, atBit]

end

/-! ### The close of an old segment (R75–R78, R859) -/

theorem foldl_egr_only {β : Type} {f : Gw → β → Gw} (h : ∀ g b, ∃ e, f g b = { g with egr := e }) (l : List β) (g : Gw) :
    ∃ e, l.foldl f g = { g with egr := e } := by
  induction l generalizing g with
  | nil => exact ⟨g.egr, rfl⟩
  | cons b r ih =>
    obtain ⟨e, he⟩ := h g b
    obtain ⟨e', he'⟩ := ih (f g b)
    exact ⟨e', by rw [List.foldl_cons, he', he]⟩

/-- Credits stand with the egress ports. -/
theorem settleCredits_egr_only (g : Gw) (f : Nat) (t : Stamp) : ∃ e, g.settleCredits f t = { g with egr := e } := by
  refine foldl_egr_only (fun g c => ?_) _ g
  split
  · exact ⟨_, rfl⟩
  · exact ⟨g.egr, rfl⟩

/-- When the old segment may close, decisions and credits up to its frontier are settled and the new segment begins. -/
theorem exec_segmentClose {s : State} {c : Closing} (hc : s.gw.str.closing = some c) (hm : s.gw.mayClose s.dram = true) :
    ∃ e, exec .segmentClose s = .next (s.after (({ s.gw with egr := e } : Gw).closeSegment c)) := by
  obtain ⟨e, he⟩ := foldl_egr_only (fun g f => settleCredits_egr_only g f g.str.frontier) (List.range 16)
    (s.gw.settleAll (s.gw.str.frontier + 1))
  refine ⟨e, answer_of_withGw ?_⟩
  unfold segmentClose
  rw [hc]
  dsimp only
  rw [if_pos hm, he]
  rfl

end Sys2Proof.Machine
end

section
/-! SUPPORT. The decisions of a released frame (R48, R67) leave Strata as it is: lookups, learning, policing, admission, routes,
tunnels and capture change the catalogue, Caldera, the router, the egress ports and registers. -/

namespace Sys2Proof.Machine

theorem ite_str {p : Prop} [Decidable p] {g h : Gw} {x : Strata} (hg : g.str = x) (hh : h.str = x) :
    (if p then g else h).str = x := by
  split
  · exact hg
  · exact hh

theorem ite_fst_str {α : Type} {p : Prop} [Decidable p] {q r : Gw × α} {x : Strata} (hq : q.1.str = x)
    (hr : r.1.str = x) : (if p then q else r).1.str = x := by
  split
  · exact hq
  · exact hr

/-! ### Caldera and the egress ports -/

@[simp] theorem unclaim_str (g : Gw) (fid : Nat) : (g.unclaim fid).str = g.str := by
  unfold Gw.unclaim
  split
  · split <;> rfl
  · rfl

@[simp] theorem setIocc_str (g : Gw) (p v : Nat) : (g.setIocc p v).str = g.str := by
  unfold Gw.setIocc
  dsimp only
  split
  · rw [bump_str]
    split <;> rfl
  · split
    · split <;> rfl
    · rfl

@[simp] theorem charge_str (g : Gw) (f c n p : Nat) : (g.charge f c n p).str = g.str := by
  unfold Gw.charge
  dsimp only
  split
  · rw [setIocc_str, bump_str]
  · rw [bump_str]

@[simp] theorem giveBack_str (g : Gw) (f c n p : Nat) : (g.giveBack f c n p).str = g.str := by
  unfold Gw.giveBack
  dsimp only
  split
  · rw [setIocc_str]
  · rfl

@[simp] theorem returnsUpTo_str (g : Gw) (o : Stamp) : (g.returnsUpTo o).str = g.str := by
  rw [Gw.returnsUpTo, foldl_same Gw.str (fun g (r : Ret) => giveBack_str g _ _ _ _)]

@[simp] theorem setEgr_str (g : Gw) (f : Nat) (e : EgrPort) : (g.setEgr f e).str = g.str := rfl

@[simp] theorem extendCur_str (g : Gw) (f : Nat) (s : Stamp) (tau : Nat) : (g.extendCur f s tau).str = g.str := by
  unfold Gw.extendCur
  dsimp only
  split
  · split
    · unfold Gw.addRet
      dsimp only
      split <;> rfl
    · rfl
  · rfl

@[simp] theorem discTs_str (g : Gw) (f : Nat) (x : Frame) : (g.discTs f x).str = g.str := by
  unfold Gw.discTs
  split
  · split
    · unfold Gw.pushTs
      dsimp only
      split <;> rfl
    · rfl
  · rfl

@[simp] theorem unqueue_str (g : Gw) (f : Nat) (c : Copy) : (g.unqueue f c).str = g.str := rfl
@[simp] theorem settle_str (g : Gw) (f : Nat) (t : Stamp) : (g.settle f t).str = g.str := rfl
@[simp] theorem dropRefs_str (g : Gw) (f tag : Nat) : (g.dropRefs f tag).str = g.str := by
  unfold Gw.dropRefs
  dsimp only
@[simp] theorem dropStaged_str (g : Gw) (f tag : Nat) : (g.dropStaged f tag).str = g.str := rfl
@[simp] theorem addRet_str (g : Gw) (r : Ret) : (g.addRet r).str = g.str := rfl

@[simp] theorem discardCopy_str (g : Gw) (f : Nat) (c : Copy) (s : Stamp) : (g.discardCopy f c s).str = g.str := by
  unfold Gw.discardCopy
  dsimp only
  rw [discTs_str]
  refine ite_str ?_ ((unclaim_str _ _).trans ?_) <;>
    rw [addRet_str, dropStaged_str, dropRefs_str, settle_str, unqueue_str]

@[simp] theorem reserve_str (g : Gw) (f : Nat) (c : Copy) (target o : Stamp) : (g.reserve f c target o).str = g.str := by
  unfold Gw.reserve
  dsimp only
  split
  · rw [setEgr_str, extendCur_str, settle_str]
  · split
    · rw [flag_str, bump_str, discardCopy_str, setRegN_str, setRegN_str, flag_str, bump_str, settle_str]
    · rw [setEgr_str, extendCur_str, setRegN_str, setRegN_str, flag_str, bump_str, settle_str]

/-! ### Queue admission (R67, R102, R105) -/

@[simp] theorem admitCopy_str (g : Gw) (x : Frame) (m : Member) (o : Stamp) : (g.admitCopy x m o).1.str = g.str := by
  have hclaim : ∀ h : Gw, (h.claim x.fid).str = h.str := fun _ => rfl
  have hrefs : ∀ (h : Gw) (t : Nat), (h.addRefs m.port t x.fid).str = h.str := fun _ _ => rfl
  unfold Gw.admitCopy
  dsimp only
  split
  · split
    · rw [reserve_str, setEgr_str, hrefs, hclaim, charge_str, returnsUpTo_str]
    · rw [setEgr_str, hrefs, hclaim, charge_str, returnsUpTo_str]
  · rw [bump_str, returnsUpTo_str]

@[simp] theorem admitFrame_str (g : Gw) (x : Frame) (ms : List Member) (o : Stamp) :
    (g.admitFrame x ms o).1.str = g.str :=
  foldl_same (fun acc : Gw × Nat => acc.1.str) (fun acc m => admitCopy_str acc.1 x m o) ms (g, 0)

/-- A stored frame changes Caldera alone. -/
theorem storeFrame_cal_only {g h : Gw} {x y : Frame} (hs : g.storeFrame x = some (h, y)) :
    h = { g with cal := h.cal } := by
  unfold Gw.storeFrame at hs
  dsimp only at hs
  split at hs
  · cases hs
  · obtain ⟨rfl, -⟩ := Prod.mk.inj (Option.some.inj hs)
    rfl

@[simp] theorem admitNew_str (g : Gw) (x : Frame) (ms : List Member) (o : Stamp) : (g.admitNew x ms o).1.str = g.str := by
  unfold Gw.admitNew
  split
  · next hs =>
    dsimp only
    rw [unclaim_str, admitFrame_str, storeFrame_cal_only hs]
  · rfl

/-! ### The catalogue: lookups, learning and removal (R144, R145, R166–R171) -/

@[simp] theorem slotError_str (g : Gw) (i : Nat) : (g.slotError i).str = g.str := by
  unfold Gw.slotError Gw.detect Gw.spoil
  split
  · rfl
  · split <;> rfl

@[simp] theorem dropEntry_str (g : Gw) (p i : Nat) (e : Entry) : (g.dropEntry p i e).str = g.str := by
  unfold Gw.dropEntry
  dsimp only
  split <;> rfl

@[simp] theorem noteEcc_str (g : Gw) (p key : Nat) : (g.noteEcc p key).str = g.str := by
  unfold Gw.noteEcc
  dsimp only
  split
  · rfl
  · rw [foldl_same Gw.str (fun g i => (dropEntry_str _ _ _ _).trans (slotError_str g i)), flag_str, bumpN_str]

@[simp] theorem setHit_str (g : Gw) (i : Nat) : (g.setHit i).str = g.str := by
  unfold Gw.setHit
  split <;> rfl

@[simp] theorem lookup_str (g : Gw) (p key : Nat) (mark : Bool) : (g.lookup p key mark).1.str = g.str := by
  unfold Gw.lookup
  dsimp only
  split
  · rw [bump_str]
    split
    · rw [setHit_str, noteEcc_str]
    · rw [noteEcc_str]
  · rw [bump_str, noteEcc_str]

@[simp] theorem putEntry_str (g : Gw) (i : Nat) (e : Entry) : (g.putEntry i e).str = g.str := by
  unfold Gw.putEntry
  dsimp only
  split <;> rfl

@[simp] theorem evict_str (g : Gw) (p : Nat) (v : (Nat × Entry) × Option Nat) : (g.evict p v).str = g.str := by
  unfold Gw.evict
  dsimp only
  split <;> rw [bump_str, dropEntry_str]

@[simp] theorem moveAway_str (g : Gw) (p key : Nat) : (g.moveAway p key).str = g.str := by
  refine foldl_same Gw.str (fun g q => ?_) _ g
  split
  · rfl
  · unfold Gw.probe
    dsimp only
    split
    · next h =>
      obtain ⟨rfl, -⟩ := Prod.mk.inj h
      split
      · exact noteEcc_str _ _ _
      · rw [bump_str, dropEntry_str, noteEcc_str]
    · next h =>
      obtain ⟨rfl, -⟩ := Prod.mk.inj h
      exact noteEcc_str _ _ _

@[simp] theorem create_str (g : Gw) (p f key : Nat) : (g.create p f key).str = g.str := by
  have hlearn : ∀ h : Gw, (h.learn f).str = h.str := fun _ => rfl
  have hserial : ∀ h : Gw, (h.takeSerial p).2.str = h.str := fun _ => rfl
  unfold Gw.create
  refine ite_str (bump_str _ _) (ite_str (bump_str _ _) ?_)
  split
  · rw [bump_str, hlearn, putEntry_str, hserial]
  · rw [bump_str, hlearn, putEntry_str, hserial, evict_str]
  · exact bump_str _ _

@[simp] theorem accession_str (g : Gw) (p f key : Nat) (learning : Bool) :
    (g.accession p f key learning).1.str = g.str := by
  have hmove : ∀ (h : Gw) (q : Nat), ((h.unlearn q).learn f).str = h.str := fun _ _ => rfl
  unfold Gw.accession
  dsimp only
  split
  · split
    · exact lookup_str _ _ _ _
    · rw [bump_str, putEntry_str, hmove, lookup_str]
  · dsimp only
    split
    · rw [create_str, moveAway_str, lookup_str]
    · exact lookup_str _ _ _ _

@[simp] theorem lookupT5_str (x : Frame) (bs : List Byte) (l : List Nat) (g : Gw) : (g.lookupT5 x bs l).1.str = g.str := by
  induction l generalizing g with
  | nil => rfl
  | cons s r ih =>
    have hlook := lookup_str g (8 + s) (t5Key x bs &&& g.param (Par.catT5Mask s)) true
    unfold Gw.lookupT5
    dsimp only
    split
    · next h => rwa [h] at hlook
    · next h =>
      rw [h] at hlook
      rw [ih, hlook]

@[simp] theorem lookupT1_str (g : Gw) (x : Frame) (bs : List Byte) : (g.lookupT1 x bs).1.str = g.str := by
  unfold Gw.lookupT1
  dsimp only
  split
  · rfl
  · split
    · next h => exact (congrArg (fun q => q.1.str) h).symm.trans (lookup_str _ _ _ _)
    · next h => rw [lookup_str]; exact (congrArg (fun q => q.1.str) h).symm.trans (lookup_str _ _ _ _)

@[simp] theorem lookupDst_str (key : Nat) (l : List Nat) (g : Gw) : (g.lookupDst key l).1.str = g.str := by
  induction l generalizing g with
  | nil => rfl
  | cons p r ih =>
    unfold Gw.lookupDst
    split
    · next h => exact (congrArg (fun q => q.1.str) h).symm.trans (lookup_str _ _ _ _)
    · next h => rw [ih]; exact (congrArg (fun q => q.1.str) h).symm.trans (lookup_str _ _ _ _)

@[simp] theorem classify_str (g : Gw) (x : Frame) (bs : List Byte) : (g.classify x bs).1.str = g.str := by
  have hT1 : ∀ h : Gw, (((h.lookupT5 x bs [0, 1, 2, 3]).1.lookupT1 x bs).1).str = h.str := fun h => by
    rw [lookupT1_str, lookupT5_str]
  unfold Gw.classify
  refine ite_fst_str (lookupT5_str _ _ _ _) ?_
  dsimp only
  rw [accession_str]
  exact ite_fst_str (hT1 g) (by rw [lookupDst_str, hT1])

/-! ### Policing (R234, R235) -/

@[simp] theorem meter_str (g : Gw) (i len : Nat) (o : Stamp) : (g.meter i len o).1.str = g.str := by
  have hset : ∀ m : Meter, (g.setMeter i m).str = g.str := fun _ => rfl
  rw [Gw.meter]
  split
  · rw [bump_str, hset]
  · rw [flag_str, bump_str, hset]

/-- What a frame's meter decides is counted. -/
theorem metered_str (r : Gw × Bool) (o : Nat) :
    (if r.2 then (r.1.bump o, true) else (r.1, false)).1.str = r.1.str := ite_fst_str (bump_str _ _) rfl

@[simp] theorem police_str (g : Gw) (e : Entry) (len : Nat) (o : Stamp) : (g.police e len o).1.str = g.str := by
  have hset : ∀ (h : Gw) (i : Nat) (f : Filter), (h.setFilter i f).str = h.str := fun _ _ _ => rfl
  simp only [Gw.police]
  split
  · rw [bump_str, bump_str]
  · split
    · split
      · rw [flag_str, hset, flag_str, bump_str, bump_str]
      · rw [flag_str, bump_str, bump_str]
    · split
      · rw [metered_str, meter_str, bump_str]
      · rw [bump_str, bump_str]

/-! ### Routes (R199–R215) -/

@[simp] theorem trigger_str (g : Gw) (k : Nat) (p : Pdu) (o : Stamp) : (g.trigger k p o).str = g.str := by
  unfold Gw.trigger
  split
  · exact bump_str _ _
  · dsimp only
    split
    · exact bump_str _ _
    · rfl

@[simp] theorem routeWrite_str (g : Gw) (r : Route) (v : Nat) (o : Stamp) : (g.routeWrite r v o).str = g.str := by
  have hset : ∀ (k : Nat) (p : Pdu), (g.setPdu k p).str = g.str := fun _ _ => rfl
  unfold Gw.routeWrite
  dsimp only
  split
  · exact ite_str rfl (ite_str (by rw [trigger_str, hset]) (hset _ _))
  · rfl

@[simp] theorem armTimeout_str (g : Gw) (i : Nat) (r : Route) (o : Stamp) : (g.armTimeout i r o).str = g.str := by
  unfold Gw.armTimeout
  split <;> rfl

@[simp] theorem applyRoute_str (g : Gw) (i : Nat) (e : Entry) (data : List Byte) (o : Stamp) :
    (g.applyRoute i e data o).str = g.str := by
  unfold Gw.applyRoute
  refine ite_str (by rw [flag_str, bump_str]) ?_
  dsimp only
  rw [routeWrite_str, armTimeout_str]
  exact ite_str (bump_str _ _) (by rw [flag_str, bump_str, bump_str])

/-- A lookup, and another one after a miss where `again` says so (R159, R211). -/
def Gw.lookupTwice (g : Gw) (p key next : Nat) (again : Prop) [Decidable again] : Gw × Option (Nat × Entry) :=
  match g.lookup p key true with
  | (g, some h) => (g, some h)
  | (g, none) => if again then g.lookup p next true else (g, none)

theorem lookupTwice_str (g : Gw) (p key next : Nat) (again : Prop) [Decidable again] :
    (g.lookupTwice p key next again).1.str = g.str := by
  unfold Gw.lookupTwice
  split
  · next h => exact (congrArg (fun q => q.1.str) h).symm.trans (lookup_str _ _ _ _)
  · next h =>
    have hmiss := (congrArg (fun q => q.1.str) h).symm.trans (lookup_str _ _ _ _)
    exact ite_fst_str ((lookup_str _ _ _ _).trans hmiss) hmiss

@[simp] theorem applyRoutes_str (b : BusFrame) (o : Stamp) (act : Bool) (l : List Nat) (g : Gw) :
    (g.applyRoutes b o act l).str = g.str := by
  induction l generalizing g with
  | nil => rfl
  | cons ord r ih =>
    have hlook := lookupTwice_str g 5 (ord * 2 ^ 40 + b.ident * 256 + b.bus) (ord * 2 ^ 40 + anyCyc b.ident * 256 + b.bus)
      (44 ≤ b.bus)
    unfold Gw.applyRoutes
    dsimp only
    split
    · next i e h =>
      have hhit := (congrArg (fun q => q.1.str) h).symm.trans hlook
      have hacted := ite_str (p := act = true) ((applyRoute_str _ i e b.data o).trans hhit) hhit
      exact ite_str hacted ((ih _).trans hacted)
    · next h => exact (congrArg (fun q => q.1.str) h).symm.trans hlook

/-! ### Tunnels (R217–R225) -/

@[simp] theorem tunnelOut_str (g : Gw) (x : Frame) (b : BusFrame) (e : Entry) (o : Stamp) :
    (g.tunnelOut x b e o).1.str = g.str := by
  unfold Gw.tunnelOut
  dsimp only
  split
  · rfl
  · rw [bump_str, admitNew_str]

@[simp] theorem trackStream_str (g : Gw) (stream seq : Nat) : (g.trackStream stream seq).str = g.str := by
  unfold Gw.trackStream
  split
  · dsimp only
    split <;> rfl
  · split <;> rfl

@[simp] theorem tunnelIn_str (g : Gw) (x : Frame) (bs : List Byte) (e : Entry) (o : Stamp) :
    (g.tunnelIn x bs e o).str = g.str := by
  unfold Gw.tunnelIn
  dsimp only
  split
  · rfl
  · rw [foldl_same Gw.str]
    · exact ite_str (by rw [bumpN_str, trackStream_str]) (by rw [flag_str, bumpN_str, trackStream_str])
    · intro g msg
      rw [foldl_same Gw.str, bump_str]
      intro g bus
      split
      · exact admitNew_str _ _ _ _
      · rfl

@[simp] theorem maybeUnpack_str (g : Gw) (x : Frame) (bs : List Byte) (o : Stamp) (deliver : Bool) :
    (g.maybeUnpack x bs o deliver).str = g.str := by
  unfold Gw.maybeUnpack
  split
  · split
    · next h =>
      have hlook := (congrArg (fun q => q.1.str) h).symm.trans (lookup_str _ _ _ _)
      split
      · rw [tunnelIn_str]
        exact hlook
      · exact hlook
    · next h => exact (congrArg (fun q => q.1.str) h).symm.trans (lookup_str _ _ _ _)
  · rfl

/-! ### The decisions of a frame and its release -/

@[simp] theorem decideEth_str (g : Gw) (x : Frame) (bs : List Byte) (o : Stamp) : (g.decideEth x bs o).1.str = g.str := by
  unfold Gw.decideEth
  split
  · exact admitFrame_str _ _ _ _
  · exact admitFrame_str _ _ _ _
  · split
    · rfl
    split
    · exact admitFrame_str _ _ _ _
    extract_lets r v pol ports adm g' mir
    have hpol : pol.1.str = g.str := by
      refine ite_fst_str (classify_str _ _ _) ?_
      split
      · exact (police_str _ _ _ _).trans (classify_str _ _ _)
      · exact classify_str _ _ _
    have hadm : g'.str = g.str := ite_fst_str ((admitFrame_str _ _ _ _).trans hpol) hpol
    have hmir : mir.1.str = g.str := by
      change (match v.mirror with
        | some ses => g'.admitFrame { x with mirror := some ses } [{ port := 21, cls := v.cls }] o
        | none => (g', 0)).1.str = g.str
      split
      · exact (admitFrame_str _ _ _ _).trans hadm
      · exact hadm
    exact ite_str hmir ((maybeUnpack_str _ _ _ _ _).trans hmir)

@[simp] theorem acceptFresh_str (g : Gw) (i : Nat) (e : Entry) (cand : Option Nat) : (g.acceptFresh i e cand).1.str = g.str := by
  unfold Gw.acceptFresh
  dsimp only
  split
  · split <;> rfl
  · rfl

@[simp] theorem decideBus_str (g : Gw) (x : Frame) (b : BusFrame) (o : Stamp) : (g.decideBus x b o).1.str = g.str := by
  unfold Gw.decideBus
  split
  · exact admitFrame_str _ _ _ _
  · extract_lets r3 fr g' key r4
    have hr3 : r3.1.str = g.str := ite_fst_str rfl (lookup_str _ _ _ _)
    have hfr : fr.1.str = g.str := by
      refine Eq.trans ?_ hr3
      unfold fr
      split
      · exact acceptFresh_str _ _ _ _
      · rfl
    have hg : g'.str = g.str := (applyRoutes_str _ _ _ _ _).trans hfr
    clear_value g'
    have hr4 : r4.1.str = g.str := (lookupTwice_str g' 7 (key b.ident) (key (anyCyc b.ident)) (44 ≤ b.bus)).trans hg
    clear_value r4
    obtain ⟨h, _ | ⟨i, e⟩⟩ := r4
    · exact hr4
    · exact ite_fst_str ((tunnelOut_str _ _ _ _ _).trans hr4) hr4

@[simp] theorem noteTxDrop_str (g : Gw) (x : Frame) (n : Nat) : (g.noteTxDrop x n).str = g.str := by
  unfold Gw.noteTxDrop
  split
  · split <;> rfl
  · rfl

@[simp] theorem capture_str (g : Gw) (p : Pend) (n : Nat) : (g.capture p n).str = g.str := by
  unfold Gw.capture
  dsimp only
  split
  · rfl
  · exact admitFrame_str _ _ _ _

@[simp] theorem noteLag_str (g : Gw) (p : Pend) : (g.noteLag p).str = g.str := by
  unfold Gw.noteLag
  dsimp only
  split <;> rfl

/-- The release of a frame takes it out of the pending ones, and Strata stays otherwise. -/
theorem release_str (g : Gw) (p : Pend) (ecc : List Nat) :
    (g.release p ecc).str = { g.str with pend := g.str.pend.filter (fun q => q.key != p.key) } := by
  unfold Gw.release
  dsimp only
  rw [unclaim_str, capture_str, noteTxDrop_str]
  split
  · rw [decideEth_str, noteLag_str]
    rfl
  · rw [decideBus_str, noteLag_str]
    rfl

end Sys2Proof.Machine
end

section
/-! SUPPORT. The release of a frame that the firmware names for one port and class (R863): its one queue admission (R99,
R102, R105), taken whole or dropped. -/

namespace Sys2Proof.Machine

/-! ### The frame that Strata may release (R48) -/

/-- It is pending and the frontier has reached its order stamp. -/
theorem readyPend_spec {g : Gw} {dram : List Host.Cell} {p : Pend} (h : g.readyPend dram = some p) :
    p ∈ g.str.pend ∧ p.key.o ≤ g.str.frontier := by
  unfold Gw.readyPend at h
  split at h
  · cases h
  · split at h
    · next q hq =>
      simp only [Option.ite_none_right_eq_some, Option.some.injEq, Bool.and_eq_true, decide_eq_true_eq] at h
      obtain ⟨⟨⟨hfront, -⟩, -⟩, rfl⟩ := h
      exact ⟨(List.mem_filter.mp (leastBy_mem hq)).1, hfront⟩
    · cases h

theorem exec_frameRelease {s : State} {p : Pend} (ecc : List Nat) (h : s.gw.readyPend s.dram = some p) :
    exec (.frameRelease ecc) s = .next (s.after (s.gw.release p ecc)) := by
  refine answer_of_withGw ?_
  rw [frameRelease, h]

/-! ### What the module is when the decisions of a released frame begin -/

/-- The frame has left the pending ones, reads in error are known, the sweeps are past and the lag is noted (R145, R163). -/
def Gw.ordered (g : Gw) (p : Pend) (ecc : List Nat) : Gw :=
  (({ g with str := { g.str with pend := g.str.pend.filter (fun q => q.key != p.key) },
             cat := { g.cat with eccBad := g.cat.eccBad ++ ecc } } : Gw).passTo p.key.o 6).noteLag p

/-- The frame with the sequence, order stamp and segment of its release. -/
def Gw.releasedFrame (g : Gw) (p : Pend) : Frame :=
  { p.frame with seq := p.key.seq, o := p.key.o, oSeg := g.str.relSeg }

theorem setRegN_shape (g : Gw) (o v : Nat) : ∃ rs, g.setRegN o v = { g with regs := rs } := ⟨_, rfl⟩
theorem bump_shape (g : Gw) (o : Nat) : ∃ rs, g.bump o = { g with regs := rs } := ⟨_, rfl⟩
theorem flag_shape (g : Gw) (o k : Nat) : ∃ rs, g.flag o k = { g with regs := rs } := ⟨_, rfl⟩

/-- The lag is noted in the registers of the catalogue. -/
theorem noteLag_shape (g : Gw) (p : Pend) : ∃ rs u, g.noteLag p = { g with regs := rs, undefLaunch := u } ∧
    ∀ o, o < Reg.catFlag → (g.noteLag p).reg o = g.reg o := by
  unfold Gw.noteLag
  extract_lets lag k
  obtain ⟨v, hv⟩ : ∃ v, k = g.setRegN Reg.catLagMax v := ⟨_, rfl⟩
  clear_value lag k
  subst hv
  obtain ⟨rs, hrs⟩ := setRegN_shape g Reg.catLagMax v
  have hlag : ∀ {o r : Nat}, Reg.catFlag ≤ r → o < Reg.catFlag → o ≠ r := fun hr ho =>
    Nat.ne_of_lt (Nat.lt_of_lt_of_le ho hr)
  have hmax : ∀ o, o < Reg.catFlag → (g.setRegN Reg.catLagMax v).reg o = g.reg o := fun o ho =>
    reg_setReg_ne g _ (hlag (by decide) ho)
  split
  · exact ⟨rs, g.undefLaunch, hrs, hmax⟩
  · obtain ⟨rs', hcount⟩ := bump_shape (g.setRegN Reg.catLagMax v) Reg.catLagCnt
    obtain ⟨rs'', hflag⟩ := flag_shape ((g.setRegN Reg.catLagMax v).bump Reg.catLagCnt) Reg.catFlag 0x80000000
    have hall : ((g.setRegN Reg.catLagMax v).bump Reg.catLagCnt).flag Reg.catFlag 0x80000000 = { g with regs := rs'' } := by
      rw [hflag, hcount, hrs]
    refine ⟨rs'', true, congrArg (fun h : Gw => { h with undefLaunch := true }) hall, fun o ho => ?_⟩
    have hlaunch : ∀ h : Gw, ({ h with undefLaunch := true } : Gw).reg o = h.reg o := fun _ => rfl
    rw [hlaunch, reg_flag_ne _ (hlag (by decide) ho), reg_bump_ne _ (hlag (by decide) ho), hmax o ho]

theorem ordered_shape (g : Gw) (p : Pend) (ecc : List Nat) : ∃ x k rs u,
    g.ordered p ecc = { g with str := x, cat := k, regs := rs, undefLaunch := u } ∧
    ∀ o, o < Reg.catFlag → (g.ordered p ecc).reg o = g.reg o := by
  obtain ⟨rs, u, he, hr⟩ := noteLag_shape (({ g with
    str := { g.str with pend := g.str.pend.filter (fun q => q.key != p.key) },
    cat := { g.cat with eccBad := g.cat.eccBad ++ ecc } } : Gw).passTo p.key.o 6) p
  exact ⟨_, _, rs, u, he, hr⟩

/-! ### One queue admission (R100, R102, R105) -/

theorem returnsUpTo_of_none {g : Gw} (h : g.cal.rets = []) (o : Stamp) : g.returnsUpTo o = g := by
  have hcal : { g.cal with rets := [] } = g.cal := by rw [← h]
  simp only [Gw.returnsUpTo, h, List.filter_nil, List.foldl_nil, hcal]

/-- The XOFF and XON decisions touch Caldera outside its queues, the MAC's pause queue and a counter. -/
theorem setIocc_shape (g : Gw) (p v : Nat) : ∃ k rs es, g.setIocc p v = { g with cal := k, regs := rs, eth := es } ∧
    k.occ = g.cal.occ := by
  unfold Gw.setIocc
  dsimp only
  split
  · split <;> exact ⟨_, _, _, rfl, rfl⟩
  · split
    · split <;> exact ⟨_, _, _, rfl, rfl⟩
    · exact ⟨_, _, _, rfl, rfl⟩

/-- Cells charged to a queue: its occupancy, and otherwise registers, XOFF decisions and the MAC's pause queue. -/
theorem charge_shape (g : Gw) (f c n p : Nat) : ∃ k rs es, g.charge f c n p = { g with cal := k, regs := rs, eth := es } ∧
    k.occ = mput g.cal.occ (8 * f + c) (g.occ f c + n) 0 := by
  unfold Gw.charge
  dsimp only
  split
  · obtain ⟨k, rs, es, he, hocc⟩ := setIocc_shape (Gw.bump
      { g with cal := { g.cal with occ := mput g.cal.occ (8 * f + c) (g.occ f c + n) 0 } }
      (Reg.egrHdepth (16 * (8 * f + c) + histBin (g.occ f c + n)))) p (mgetD g.cal.iocc p 0 + n)
    exact ⟨k, rs, es, he, hocc⟩
  · exact ⟨_, _, _, rfl, rfl⟩

/-- A claim that ends changes Caldera's stored frames alone. -/
theorem unclaim_shape (g : Gw) (fid : Nat) : ∃ k, g.unclaim fid = { g with cal := k } ∧ k.occ = g.cal.occ := by
  unfold Gw.unclaim
  split
  · split <;> exact ⟨_, rfl, rfl⟩
  · exact ⟨_, rfl, rfl⟩

/-- The copy of frame `x` that goes behind queue `c` of port `f`. -/
def Gw.copyFor (g : Gw) (x : Frame) (f c : Nat) (o : Stamp) : Copy :=
  { fid := x.fid, tag := (g.egrAt f).nextTag, frame := x, cls := c, leaf := g.leafOf f x.fport c, len := x.len,
    cells := cellsOf x.len, admO := o }

section
variable {g : Gw} {x : Frame} {f c : Nat} {o : Stamp} (hr : g.cal.rets = [])
include hr

/-- A copy that its queue admits goes behind it, and its cells are accounted. -/
theorem admitCopy_admitted (ha : g.admits f c (cellsOf x.len) = true) :
    ∃ h, g.admitCopy x { port := f, cls := c } o = (h, true) ∧ h.params = g.params ∧
      h.egr = mset g.egr f { g.egrAt f with
        queued := (g.egrAt f).queued ++ [g.copyFor x f c o], nextTag := (g.egrAt f).nextTag + 1 } ∧
      h.cal.occ = mput g.cal.occ (8 * f + c) (g.occ f c + cellsOf x.len) 0 := by
  obtain ⟨k, rs, es, he, hocc⟩ := charge_shape g f c (cellsOf x.len) x.fport
  unfold Gw.admitCopy
  simp only [returnsUpTo_of_none hr, ha, if_true, he, ite_self]
  exact ⟨_, rfl, rfl, rfl, hocc⟩

/-- A copy that its queue has no room for is dropped and counted. -/
theorem admitCopy_dropped (ha : g.admits f c (cellsOf x.len) = false) :
    g.admitCopy x { port := f, cls := c } o = (g.bump (Reg.fabQDrop (8 * f + c)), false) := by
  unfold Gw.admitCopy
  dsimp only
  rw [returnsUpTo_of_none hr, ha]
  rfl

end

/-! ### The release of a frame that the firmware names for one port and class -/

theorem bitList_two_pow {f : Nat} (h : f < 22) : bitList 22 (2 ^ f) = [f] := by
  interval_cases f <;> rfl

theorem noteTxDrop_of_admitted {g : Gw} {x : Frame} {n : Nat} (h : n ≠ 0) : g.noteTxDrop x n = g := by
  unfold Gw.noteTxDrop
  split
  · exact if_neg (by simp [h])
  · rfl

/-- A frame of a transmit ring that no queue admitted is counted among the ring's drops (R719): the registers outside those
of the rings stay. -/
theorem noteTxDrop_frame {g : Gw} {x : Frame} (n : Nat) (h : ∀ r, x.ring = some r → r < 32) :
    ∃ rs, g.noteTxDrop x n = { g with regs := rs } ∧ ∀ o, Reg.hdmaFlag ≤ o → (g.noteTxDrop x n).reg o = g.reg o := by
  unfold Gw.noteTxDrop
  split
  · next r hx =>
    split
    · refine ⟨_, rfl, fun o ho => reg_bump_ne g ?_⟩
      have hr := h r hx
      simp only [Reg.hdmaFlag, Reg.hdmaTxDrop] at *
      omega
    · exact ⟨g.regs, rfl, fun _ _ => rfl⟩
  · exact ⟨g.regs, rfl, fun _ _ => rfl⟩

/-- A frame that no capture ring takes leaves the capture idle. -/
theorem capture_of_none {g : Gw} {x : Frame} (h : g.captureRings x = 0) (p : Pend) (n : Nat) :
    g.capture { p with frame := x } n = g := by
  simp only [Gw.capture, h, decide_true, Bool.true_or, if_true]

theorem captureRings_congr {g h : Gw} (hp : h.params = g.params) (x : Frame) : h.captureRings x = g.captureRings x := by
  simp only [Gw.captureRings, param_congr hp]

theorem release_eth {g : Gw} {p : Pend} {bs : List Byte} (hbody : p.frame.body = .eth bs) (ecc : List Nat) :
    g.release p ecc = (let r := (g.ordered p ecc).decideEth (g.releasedFrame p) bs p.key.o
      ((r.1.noteTxDrop (g.releasedFrame p) r.2).capture { p with frame := g.releasedFrame p } r.2).unclaim p.frame.fid) := by
  have hseg : (g.ordered p ecc).str.relSeg = g.str.relSeg := by rw [Gw.ordered, noteLag_str]; rfl
  rw [Gw.releasedFrame, ← hseg]
  obtain ⟨x, o, e, k⟩ := p
  obtain ⟨⟩ := x
  subst hbody
  rfl

/-- The decisions of a frame that the firmware names for one port and class are the admission of one copy. -/
theorem decideEth_named (h : Gw) {x : Frame} {f c : Nat} (bs : List Byte) (o : Stamp) (hx : x.named = some (2 ^ f, c))
    (hf : f < 22) (hc : c < 8) :
    h.decideEth x bs o = (((h.admitCopy x { port := f, cls := c } o).1,
      if (h.admitCopy x { port := f, cls := c } o).2 then 1 else 0) : Gw × Nat) := by
  simp only [Gw.decideEth, hx, if_pos hc, Gw.members, bitList_two_pow hf, List.map_cons, List.map_nil, Gw.admitFrame,
    List.foldl_cons, List.foldl_nil, Nat.zero_add]

section
variable {g : Gw} {p : Pend} {bs : List Byte} {f c : Nat} (hbody : p.frame.body = .eth bs)
  (hnamed : p.frame.named = some (2 ^ f, c)) (hf : f < 22) (hc : c < 8) (hrets : g.cal.rets = [])
  (hcap : g.captureRings p.frame = 0)
include hbody hnamed hf hc

/-- The release of such a frame, after its one admission `r`: the ring's drop, the capture, the end of its claim. -/
theorem release_named (ecc : List Nat) {r : Gw × Bool}
    (hr : (g.ordered p ecc).admitCopy (g.releasedFrame p) { port := f, cls := c } p.key.o = r) :
    g.release p ecc = ((r.1.noteTxDrop (g.releasedFrame p) (if r.2 then 1 else 0)).capture
      { p with frame := g.releasedFrame p } (if r.2 then 1 else 0)).unclaim p.frame.fid := by
  have hd := decideEth_named (g.ordered p ecc) (x := g.releasedFrame p) bs p.key.o hnamed hf hc
  rw [hr] at hd
  rw [release_eth hbody, hd]

include hcap

theorem release_of_admitted (ecc : List Nat) {h : Gw}
    (hr : (g.ordered p ecc).admitCopy (g.releasedFrame p) { port := f, cls := c } p.key.o = (h, true))
    (hp : h.params = g.params) : g.release p ecc = h.unclaim p.frame.fid := by
  have hcap' : h.captureRings (g.releasedFrame p) = 0 := (captureRings_congr hp _).trans hcap
  rw [release_named hbody hnamed hf hc ecc hr, if_pos rfl, noteTxDrop_of_admitted (by decide),
    capture_of_none hcap']

theorem release_of_dropped (ecc : List Nat) {h : Gw}
    (hr : (g.ordered p ecc).admitCopy (g.releasedFrame p) { port := f, cls := c } p.key.o = (h, false))
    (hp : h.params = g.params) (hring : ∀ r, p.frame.ring = some r → r < 32) :
    ∃ rs, g.release p ecc = ({ h with regs := rs } : Gw).unclaim p.frame.fid ∧
      ∀ o, Reg.hdmaFlag ≤ o → ({ h with regs := rs } : Gw).reg o = h.reg o := by
  obtain ⟨rs, hdrop, hregs⟩ := noteTxDrop_frame (g := h) (x := g.releasedFrame p) 0 hring
  rw [hdrop] at hregs
  refine ⟨rs, ?_, hregs⟩
  have hcap' : ({ h with regs := rs } : Gw).captureRings (g.releasedFrame p) = 0 := (captureRings_congr hp _).trans hcap
  rw [release_named hbody hnamed hf hc ecc hr, if_neg Bool.false_ne_true, hdrop, capture_of_none hcap']

include hrets

/-- Admitted: the copy stands behind its queue with its cells accounted, and of the egress ports only this one changed. -/
theorem release_admitted (ecc : List Nat) (ha : g.admits f c (cellsOf p.frame.len) = true) :
    (g.release p ecc).egr = mset g.egr f { g.egrAt f with
        queued := (g.egrAt f).queued ++ [g.copyFor (g.releasedFrame p) f c p.key.o], nextTag := (g.egrAt f).nextTag + 1 } ∧
      (g.release p ecc).cal.occ = mput g.cal.occ (8 * f + c) (g.occ f c + cellsOf p.frame.len) 0 := by
  obtain ⟨x, k, rs, u, he, -⟩ := ordered_shape g p ecc
  obtain ⟨h, hadm, hparams, hegr, hocc⟩ := admitCopy_admitted
    (g := { g with str := x, cat := k, regs := rs, undefLaunch := u }) (x := g.releasedFrame p) (o := p.key.o) hrets ha
  rw [← he] at hadm
  obtain ⟨k', hun, hocc'⟩ := unclaim_shape h p.frame.fid
  rw [release_of_admitted hbody hnamed hf hc hcap ecc hadm hparams, hun]
  exact ⟨hegr, hocc'.trans hocc⟩

/-- Not admitted: it is dropped and counted, and no queue changes. -/
theorem release_dropped (ecc : List Nat) (ha : g.admits f c (cellsOf p.frame.len) = false)
    (hring : ∀ r, p.frame.ring = some r → r < 32) :
    (g.release p ecc).egr = g.egr ∧ (g.release p ecc).cal.occ = g.cal.occ ∧
      (g.release p ecc).reg (Reg.fabQDrop (8 * f + c)) = w32 (satAdd (g.regN (Reg.fabQDrop (8 * f + c))) 1) := by
  obtain ⟨x, k, rs, u, he, hregs⟩ := ordered_shape g p ecc
  have hadm := admitCopy_dropped (g := { g with str := x, cat := k, regs := rs, undefLaunch := u })
    (x := g.releasedFrame p) (o := p.key.o) hrets ha
  rw [← he] at hadm
  obtain ⟨rs', hrel, hregs'⟩ := release_of_dropped hbody hnamed hf hc hcap ecc hadm (by rw [he]; rfl) hring
  obtain ⟨k', hun, hocc⟩ := unclaim_shape ({ (g.ordered p ecc).bump (Reg.fabQDrop (8 * f + c)) with regs := rs' } : Gw)
    p.frame.fid
  have hq : Reg.hdmaFlag ≤ Reg.fabQDrop (8 * f + c) ∧ Reg.fabQDrop (8 * f + c) < Reg.catFlag := by
    simp only [Reg.hdmaFlag, Reg.fabQDrop, Reg.catFlag]
    omega
  have hsame : (g.ordered p ecc).egr = g.egr ∧ (g.ordered p ecc).cal = g.cal := by rw [he]; exact ⟨rfl, rfl⟩
  rw [hrel, hun]
  refine ⟨hsame.1, hocc.trans (congrArg Caldera.occ hsame.2), (hregs' _ hq.1).trans ?_⟩
  rw [reg_bump_same, Gw.regN, Gw.regN, hregs _ hq.2]

end

end Sys2Proof.Machine
end

section
/-! The statements on ordered admission. -/

namespace Sys2Proof.Machine

/-- Settles O16: the frame takes its count, and is pending at its admission stamp, or late just behind the frontier with
the overrun recorded; an engine's waiting frame is stored and goes on. -/
theorem arrivalAtStrata : Obligations.ArrivalAtStrata := by
  refine ⟨?inTime, ?late, ?engine⟩
  case inTime =>
    intro s f sub x rest hx hrun hp he hseg hstart hfrom hnear htime
    have harr := arrive_inTime (g := { s.gw with str := { s.gw.str with inbound := rest } })
      ⟨hrun, hp, he, hseg, hstart, hfrom, hnear⟩ htime
    exact congrArg (fun g => Host.Outcome.next (s.after g)) ((strataArrival_of_inbound hx).trans harr)
  case late =>
    intro s f sub x rest hx hrun hp he hseg hstart hfrom hnear htime hkeep
    obtain ⟨late, hpend, hregs⟩ := arrive_late (g := { s.gw with str := { s.gw.str with inbound := rest } })
      ⟨hrun, hp, he, hseg, hstart, hfrom, hnear⟩ htime hkeep
    rw [← strataArrival_of_inbound hx] at hpend hregs
    refine ⟨_, exec_strataArrival f sub s, ?pend, fun hf => ?regs⟩
    case pend => rw [after_gw, interrupts_str, hpend]; rfl
    case regs =>
      rw [regN_after _ _ (by simp only [Reg.fabStrOvrCnt]; omega), regN_after _ _ (by decide),
        regN_after _ _ (by decide), regN_after _ _ (by decide), regN_congr hregs, regN_congr hregs, regN_congr hregs,
        regN_congr hregs]
      exact noteOverrun_regs _ late hf
  case engine =>
    intro s f x rest hw hroom hfree
    obtain ⟨h, hstore, hres⟩ := resumeEngine_room hw hroom hfree
    exact ⟨h, hstore, congrArg (fun g => Host.Outcome.next (s.after g)) hres⟩

/-- Settles O17: the frame that may be released leaves the pending ones; named for one port and class, its one copy goes
behind its queue with its cells accounted, or is dropped and counted. (`frameRelease` alone is the function of the model.) -/
theorem Statements.frameRelease : Obligations.FrameRelease := by
  refine ⟨?leaves, ?admitted, ?dropped⟩
  case leaves =>
    intro s ecc p hp
    obtain ⟨hmem, hfront⟩ := readyPend_spec hp
    exact ⟨hmem, hfront, _, exec_frameRelease ecc hp, by rw [after_gw, interrupts_str, release_str]⟩
  case admitted =>
    intro s ecc p f c bs hp hbody hnamed hf hc hrets hcap ha
    obtain ⟨hegr, hocc⟩ := release_admitted hbody hnamed hf hc hrets hcap ecc ha
    refine ⟨_, exec_frameRelease ecc hp, ?queued, ?cells, fun k hk => ?others⟩
    case queued => rw [Gw.egrAt, after_gw, interrupts_egr, hegr, mgetD_mset_same]; rfl
    case cells => rw [Gw.occ, after_gw, interrupts_cal, hocc, mgetD_mput_same]
    case others => rw [Gw.egrAt, after_gw, interrupts_egr, hegr, mgetD_mset_ne _ _ _ hk]; rfl
  case dropped =>
    intro s ecc p f c bs hp hbody hnamed hf hc hrets hcap ha hring
    obtain ⟨hegr, hocc, hcount⟩ := release_dropped hbody hnamed hf hc hrets hcap ecc ha hring
    refine ⟨_, exec_frameRelease ecc hp, ?queues, ?cells, ?counted⟩
    case queues => rw [after_gw, interrupts_egr, hegr]
    case cells => rw [after_gw, interrupts_cal, hocc]
    case counted =>
      rw [regN_after _ _ (by simp only [Reg.fabQDrop]; omega), Gw.regN, hcount, ← reg_bump_same]
      exact regN_bump_same _ _

/-- Settles O18: visit by visit, and the close. -/
theorem sweepsAndSegmentClose : Obligations.SweepsAndSegmentClose := by
  refine ⟨?hit, ?unused, ?struck, ?alike, ?differs, ?spoilt, ?close⟩
  case hit =>
    intro s d p i pos e hd hev he hh
    rw [exec_ageingVisit hd hev, ageEntry_hit p he hh]
    rfl
  case unused =>
    intro s d p i pos e hd hev he hh hs
    rw [exec_ageingVisit hd hev, ageEntry_unused p he hh hs]
    rfl
  case struck =>
    intro s d p i pos e hd hev he hh hs
    have hp := ageing_of_mem_dues (readyDue_spec hd).1 hev
    obtain ⟨hslots, hregs⟩ := dropEntry_frame s.gw p i e
    refine ⟨_, exec_ageingVisit hd hev, ?slotsAged, ?posAged, ?countAged⟩
    case slotsAged =>
      rw [ageEntry_struck p he hh hs, after_gw, interrupts_cat]
      exact hslots
    case posAged =>
      rw [after_gw, interrupts_cat]
      rfl
    case countAged =>
      rw [ageEntry_struck p he hh hs, regN_after _ _ (by simp only [Reg.catAgedCnt]; omega), regN_ageMoved,
        regN_bump_same, regN_congr hregs]
  case alike =>
    intro s d p i pos hd hev hs hk
    rw [exec_vitrineVisit hd hev, vitVisit_alike hs hk]
    rfl
  case differs =>
    intro s d p i k pos hd hev hk hk0 hr hs
    subst hk
    have hvis := vitVisit_differs hs hk0 hr
    refine ⟨_, exec_vitrineVisit hd hev, ?slotsDiffers, ?posDiffers, ?countDiffers, ?flagDiffers, ?lastDiffers⟩
    case slotsDiffers => rw [hvis, after_gw, interrupts_cat, vitMoved_slots, setRegN_cat, flag_cat, bump_cat]
    case posDiffers => rw [after_gw, interrupts_cat, vitMoved_vitPos]
    case countDiffers =>
      rw [hvis, regN_after _ _ (by decide), regN_vitMoved, regN_setRegN_ne _ _ (by decide), regN_flag_ne _ (by decide),
        regN_bump_same]
    case flagDiffers =>
      rw [hvis, regN_after _ _ (by decide), regN_vitMoved, regN_setRegN_ne _ _ (by decide)]
      exact bit_regN_flag_of_mask _ _ (by decide) (by decide)
    case lastDiffers =>
      rw [hvis, reg_after _ _ (by decide), reg_vitMoved, reg_setRegN_same, Gw.copyAddr]
  case spoilt =>
    intro s d p i pos hd hev hs
    have hvis := vitVisit_spoilt (dram := s.dram) hs
    refine ⟨_, exec_vitrineVisit hd hev, ?slotsSpoilt, ?posSpoilt, ?countSpoilt, ?comparedSpoilt⟩
    case slotsSpoilt => rw [hvis, after_gw, interrupts_cat, vitMoved_slots, bump_cat]
    case posSpoilt => rw [after_gw, interrupts_cat, vitMoved_vitPos]
    case countSpoilt => rw [hvis, regN_after _ _ (by decide), regN_vitMoved, regN_bump_same]
    case comparedSpoilt => rw [hvis, regN_after _ _ (by decide), regN_vitMoved, regN_bump_ne _ (by decide)]
  case close =>
    intro s c hc hm
    obtain ⟨e, he⟩ := exec_segmentClose hc hm
    refine ⟨_, he, ?str, ?pdus⟩
    case str =>
      rw [after_gw, interrupts_str]
      rfl
    case pdus =>
      rw [after_gw, interrupts_rtr]
      simp [Gw.closeSegment]

end Sys2Proof.Machine
end

section
/-! SUPPORT. The registers of the host rings (R714–R724), and a transmit ring: the fetch of one frame, its injection at its
stamp, its completion. -/

namespace Sys2Proof.Machine

/-! ### The registers of a ring -/

theorem findReg_hdmaTxTail {r : Nat} (h : r < 32) : findReg (Reg.hdmaTxTail r) =
    some ({ name := "HDMA_TX_TAIL", base := 0x0004100C, n := 32, stride := 0x40, rw := 0xFFF }, r) := by
  interval_cases r <;> rfl

theorem findReg_hdmaRxTail {r : Nat} (h : r < 32) : findReg (Reg.hdmaRxTail r) =
    some ({ name := "HDMA_RX_TAIL", base := 0x0004000C, n := 32, stride := 0x40, rw := 0xFFF }, r) := by
  interval_cases r <;> rfl

theorem findReg_hdmaTxCtl {r : Nat} (h : r < 32) : findReg (Reg.hdmaTxCtl r) = some
    ({ name := "HDMA_TX_CTL", base := 0x00041008, n := 32, stride := 0x40, reset := 0xC000000, rw := 0xBC000001 }, r) := by
  interval_cases r <;> rfl

theorem findReg_hdmaRxCtl {r : Nat} (h : r < 32) : findReg (Reg.hdmaRxCtl r) = some
    ({ name := "HDMA_RX_CTL", base := 0x00040008, n := 32, stride := 0x40, reset := 0xC000000, rw := 0xBC0003FF }, r) := by
  interval_cases r <;> rfl

/-- A write of a register whose writable bits are all RW sets these bits and leaves the others (R9). -/
theorem plainWrite_of_rw (g : Gw) {off i : Nat} {row : RegRow} (v : W32) (hf : findReg off = some (row, i))
    (hc : row.w1c = 0) (hs : row.w1s = 0) : ∃ w, g.plainWrite off v = g.setReg off w ∧
      ∀ k, k < 32 → w.getLsbD k = if (w32 row.rw).getLsbD k then v.getLsbD k else (g.reg off).getLsbD k := by
  refine ⟨row.written (g.reg off) v, by simp only [Gw.plainWrite, hf], fun k hk => ?_⟩
  rw [getLsbD_written row _ v hk, hc, hs]
  simp only [w32, BitVec.getLsbD_zero, Bool.false_and, Bool.false_eq_true, if_false]

/-- A control register takes its fields. -/
theorem plainWrite_ctl (g : Gw) (tx : Bool) {r : Nat} (v : W32) (h : r < 32) :
    ∃ w, g.plainWrite (if tx then Reg.hdmaTxCtl r else Reg.hdmaRxCtl r) v =
        g.setReg (if tx then Reg.hdmaTxCtl r else Reg.hdmaRxCtl r) w ∧
      ∀ k, k < 32 → w.getLsbD k = if (w32 (if tx then 0xBC000001 else 0xBC0003FF)).getLsbD k then v.getLsbD k
        else (g.reg (if tx then Reg.hdmaTxCtl r else Reg.hdmaRxCtl r)).getLsbD k := by
  cases tx with
  | true => exact plainWrite_of_rw g v (findReg_hdmaTxCtl h) rfl rfl
  | false => exact plainWrite_of_rw g v (findReg_hdmaRxCtl h) rfl rfl

/-- A tail takes the low 12 bits. -/
theorem toNat_mod_of_tail {w v old : W32}
    (hw : ∀ k, k < 32 → w.getLsbD k = if (w32 0xFFF).getLsbD k then v.getLsbD k else old.getLsbD k) :
    w.toNat % 4096 = v.toNat % 4096 := by
  have hlow : ∀ k, k < 12 → (w32 0xFFF).getLsbD k = true := by decide
  refine Nat.eq_of_testBit_eq fun k => ?_
  rw [show 4096 = 2 ^ 12 from rfl, Nat.testBit_mod_two_pow, Nat.testBit_mod_two_pow]
  by_cases hk : k < 12
  · have hbit := hw k (by omega)
    rw [if_pos (hlow k hk)] at hbit
    rw [BitVec.testBit_toNat, BitVec.testBit_toNat, hbit]
  · simp only [hk, decide_false, Bool.false_and]

theorem ringSize_pos (ctl : Nat) : 0 < ringSize ctl := Nat.two_pow_pos _

theorem ringSize_le (ctl : Nat) : ringSize ctl ≤ 4096 := by
  unfold ringSize
  exact Nat.pow_le_pow_right (by decide) (show _ ≤ 12 by omega)

/-! ### A transmit ring (R61, R62, R714–R717) -/

/-- A send that completes without an error moves HEAD, writes DONE into its last descriptor and ends. -/
theorem completeTx_done (g : Gw) (r n : Nat) (irq : Bool) :
    (g.completeTx r n irq false 0).regN (Reg.hdmaTxHead r) = (g.regN (Reg.hdmaTxHead r) + n) % g.txSize r ∧
      ((g.completeTx r n irq false 0).txAt' r).send = none ∧
      (g.completeTx r n irq false 0).out = g.out ++
        [.hostWrite (g.txBase r + 32 * ((g.regN (Reg.hdmaTxHead r) + n - 1) % g.txSize r) + 31) [0x80]] := by
  have hlt : (g.regN (Reg.hdmaTxHead r) + n) % g.txSize r < 2 ^ 32 :=
    (Nat.mod_lt _ (ringSize_pos _)).trans_le ((ringSize_le _).trans (by decide))
  refine ⟨?head, by simp only [Gw.completeTx, txAt_setTx_same], rfl⟩
  exact regN_setRegN_same (g.emit _) _ hlt

/-- The segment of a one-descriptor frame `data` of descriptor `d`, and the send that it is. -/
def txSegOf (d data : List Byte) : TxSeg := ⟨data, fromLe (slice d 16 8), true⟩

def txSendOf (d data : List Byte) : TxSend :=
  ⟨[txSegOf d data], [], 1, dBit d 13, if dBit d 12 then some (fromLe (slice d 12 2)) else none,
    if dBit d 10 then some (bits (fromLe (slice d 10 2)) 9 5) else none, false⟩

theorem fromLe_lt (bs : List Byte) : fromLe bs < 256 ^ bs.length := by
  induction bs with
  | nil => exact Nat.one_pos
  | cons b bs ih =>
    have hb : b.toNat < 256 := b.isLt
    have hcons : fromLe (b :: bs) = b.toNat + 256 * fromLe bs := rfl
    rw [hcons, List.length_cons, Nat.pow_succ]
    omega

theorem fromLe_slice_lt (bs : List Byte) (o n : Nat) : fromLe (slice bs o n) < 256 ^ n :=
  (fromLe_lt _).trans_le (Nat.pow_le_pow_right (by decide) (List.length_take_le _ _))

theorem withFcs_length (bs : List Byte) : (withFcs bs).length = bs.length + 4 := by
  rw [withFcs, List.length_append, fcsOf, leBytes_length]

section
variable {g : Gw} {r : Nat} {d : List Byte} {rest : List (List Byte)} {data : List Byte} {bufs : List (List Byte)}

/-- One descriptor with EOP and no segmentation makes one frame, with the stamp it asks for. -/
theorem sendFrames_one (htso : dBit d 11 = false)
    (hdirect : dBit d 10 = true → directOk (bits (fromLe (slice d 10 2)) 9 5) = true)
    (hmin : 14 ≤ data.length) (hmax : data.length ≤ 16380) :
    sendFrames d data 1 [data.length] = .ok [txSegOf d data] := by
  have hlen : ([data.length].any fun n => decide (n = 0) || decide (16384 < n)) = false := by
    simp only [List.any_cons, List.any_nil, Bool.or_false, Bool.or_eq_false_iff, decide_eq_false_iff_not]
    omega
  have hdir : (dBit d 10 && !directOk (bits (fromLe (slice d 10 2)) 9 5)) = false := by
    cases h : dBit d 10 with
    | false => rfl
    | true => rw [hdirect h]; rfl
  have hstamp : (if fromLe (slice d 16 8) = 0 then 0 else (fromLe (slice d 16 8) + 0) % 2 ^ 64) = fromLe (slice d 16 8) := by
    split
    · next h => exact h.symm
    · exact Nat.mod_eq_of_lt (fromLe_slice_lt d 16 8)
  have hdata : ¬ (data.length < 14 ∨ 16380 < data.length) := by omega
  unfold sendFrames
  dsimp only
  rw [hlen, hdir, htso]
  simp only [hstamp, Bool.or_false, show ¬ 64 < 1 by decide, decide_false, Bool.false_eq_true, if_false, Bool.or_eq_true,
    decide_eq_true_eq, hdata]
  rfl

/-- An enabled ring fetches a complete one-descriptor frame (R715). -/
theorem txFetch_one (hr : r < 32) (hhost : g.hostOn = true) (hen : g.txEn r = true) (hsend : (g.txAt' r).send = none)
    (hposted : 0 < g.txPosted r) (heop : dBit d 14 = true) (htso : dBit d 11 = false)
    (hdirect : dBit d 10 = true → directOk (bits (fromLe (slice d 10 2)) 9 5) = true) (hlen : data.length = dLen d)
    (hmin : 14 ≤ data.length) (hmax : data.length ≤ 16380) :
    g.txFetch r (d :: rest) (data :: bufs) = g.sendOn r (txSendOf d data) [txSegOf d data] := by
  have hdescs : frameDescs (g.txPosted r) (d :: rest) = some [d] := by
    simp only [frameDescs, List.findIdx?_cons, heop, if_true, if_pos hposted]
    rfl
  have hpad : padTo (dLen d) data = data := by
    rw [padTo, ← hlen, List.take_length, Nat.sub_self, List.replicate_zero, List.append_nil]
  have hframes := hlen ▸ sendFrames_one htso hdirect hmin hmax
  unfold Gw.txFetch
  have hon : (decide (32 ≤ r) || !g.hostOn || !g.txEn r) = false := by
    rw [hhost, hen, decide_eq_false (by omega)]; rfl
  simp only [hon, Bool.false_eq_true, if_false, hsend, hdescs, List.headD_cons, List.map_cons, List.map_nil,
    List.zip_cons_cons, List.zip_nil_left, List.flatMap_cons, List.flatMap_nil, hpad, List.append_nil,
    List.length_singleton, hframes]
  rfl

end

section
variable {g : Gw} {r : Nat} {x : TxSeg} {snd : TxSend}
  (hhold : (g.setSend r snd).holdCells + cellsOf (x.bytes.length + 4) ≤ g.param Par.calHostHold)
include hhold

/-- With room, a frame that asks for no stamp is injected at once, and the send completes. -/
theorem sendOn_now {h : Gw} {y : Frame}
    (hstore : g.storeFrame { fport := g.ringPort r, body := .eth (withFcs x.bytes) } = some (h, y))
    (hheld : snd.held = []) (hlate : snd.late = false) (hat : x.at' = 0) :
    g.sendOn r snd [x] = (h.inject r snd x y.fid h.now false).completeTx r snd.descs snd.irq false 0 := by
  have hroom : ¬ g.param Par.calHostHold < (g.setSend r snd).holdCells + cellsOf (x.bytes.length + 4) := by omega
  rw [Gw.sendOn]
  simp only [if_neg hroom, hstore, hat]
  simp [Gw.sendOn, hheld, hlate]

/-- One that asks for a stamp up to 1 s ahead is held for it. -/
theorem sendOn_held {h : Gw} {y : Frame}
    (hstore : g.storeFrame { fport := g.ringPort r, body := .eth (withFcs x.bytes) } = some (h, y))
    (hheld : snd.held = []) (hat : x.at' ≠ 0) (hahead : h.now < (x.at' : Int)) (hnear : (x.at' : Int) ≤ h.now + 8000000000) :
    g.sendOn r snd [x] = h.setSend r { snd with segs := [], held := [(x, (x.at' : Int), h.tb.seg, y.fid)] } := by
  have hroom : ¬ g.param Par.calHostHold < (g.setSend r snd).holdCells + cellsOf (x.bytes.length + 4) := by omega
  have hnow : (decide (x.at' ≠ 0) && decide (h.now < Int.ofNat x.at') && decide (Int.ofNat x.at' ≤ h.now + 8000000000)) = true := by
    simp only [Bool.and_eq_true, decide_eq_true_eq]
    exact ⟨⟨hat, hahead⟩, hnear⟩
  rw [Gw.sendOn]
  simp only [if_neg hroom, hstore, if_pos hnow, hheld]
  rfl

end

/-! ### The injection of a held frame (R61) -/

theorem translate_same (g : Gw) (t : Stamp) (a : Nat) : g.translate t a a = t := by
  have hnone : ∀ l : List (Nat × Int), l.foldl (fun acc e => if a < e.1 && e.1 ≤ a then acc + e.2 else acc) (0 : Int) = 0 := by
    intro l
    refine foldl_same (fun b : Int => b) (fun b e => ?_) l 0
    exact if_neg (by simp only [Bool.and_eq_true, decide_eq_true_eq]; omega)
  rw [Gw.translate, hnone, Int.add_zero]

section
variable {g : Gw} {r : Nat} {snd : TxSend} {x : TxSeg} {t : Stamp} {fid : Nat} (hsend : (g.txAt' r).send = some snd)
  (hheld : snd.held = [(x, t, g.tb.seg, fid)])
include hsend hheld

/-- A held frame is injected with exactly its stamp, and its send completes with it. -/
theorem hostInjection_due (hsegs : snd.segs = []) (hlate : snd.late = false) (hdue : t ≤ g.now) :
    g.hostInjection r = (g.inject r snd x fid t false).completeTx r snd.descs snd.irq false 0 := by
  have hearly : ¬ g.now + 8000000000 < t := Int.not_lt.mpr (Int.le_trans hdue (Int.le_add_of_nonneg_right (by decide)))
  simp only [Gw.hostInjection, hsend, hheld, translate_same, hearly, hdue, decide_true, decide_false, Bool.or_false, if_true,
    hlate, hsegs]
  rfl

/-- Before its stamp it waits. -/
theorem hostInjection_early (hahead : g.now < t) (hnear : t ≤ g.now + 8000000000) : g.hostInjection r = g := by
  have hearly : ¬ g.now + 8000000000 < t := Int.not_lt.mpr hnear
  have hdue : ¬ t ≤ g.now := Int.not_le.mpr hahead
  simp only [Gw.hostInjection, hsend, hheld, translate_same, hearly, hdue, decide_false, Bool.or_false, Bool.false_eq_true,
    if_false]

end

end Sys2Proof.Machine
end

section
/-! SUPPORT. A receive ring: the frame that waits, delivered into posted buffers or cut, and a ring that stops with a DMA
error (R720–R724). -/

namespace Sys2Proof.Machine

/-! ### The cells of a frame that leaves for host memory (R106) -/

theorem giveBack_shape (g : Gw) (f c n p : Nat) : ∃ k es, g.giveBack f c n p = { g with cal := k, eth := es } := by
  have hregs := (giveBack_frame g f c n p).1
  have hshape : ∃ k rs es, g.giveBack f c n p = { g with cal := k, regs := rs, eth := es } := by
    unfold Gw.giveBack
    dsimp only
    split
    · obtain ⟨k, rs, es, he, -⟩ := setIocc_shape
        ({ g with cal := { g.cal with occ := mput g.cal.occ (8 * f + c) (g.occ f c - n) 0 } } : Gw) p
        (mgetD g.cal.iocc p 0 - n)
      exact ⟨k, rs, es, he⟩
    · exact ⟨_, g.regs, g.eth, rfl⟩
  obtain ⟨k, rs, es, he⟩ := hshape
  rw [he] at hregs
  subst hregs
  exact ⟨k, es, he⟩

theorem leaveHost_shape (g : Gw) (w : Sel) (f : Nat) : ∃ k es, g.leaveHost w f = { g with cal := k, eth := es } := by
  obtain ⟨k, es, he⟩ := giveBack_shape g f w.copy.cls w.copy.cells w.copy.frame.fport
  obtain ⟨k', hun, -⟩ := unclaim_shape ({ g with cal := k, eth := es } : Gw) w.copy.fid
  exact ⟨k', es, by rw [Gw.leaveHost, he, hun]⟩

/-! ### The frames that wait for a receive ring -/

theorem rxRun_of_empty {g : Gw} {r : Nat} (h : (g.rxAt r).queue = []) (n : Nat) : g.rxRun r n = g := by
  have hone : g.rxOne r = (g, false) := by simp only [Gw.rxOne, h]
  cases n with
  | zero => rfl
  | succ n => rw [Gw.rxRun, hone]; rfl

theorem rxWork_of_empty {g : Gw} {r : Nat} (h : (g.rxAt r).queue = []) : g.rxWork r = g := rxRun_of_empty h _

/-- A ring that is done with its one frame has no more to do. -/
theorem rxWork_one {g h : Gw} {r : Nat} (hone : g.rxOne r = (h, true))
    (hdone : (h.rxAt r).queue = []) : g.rxWork r = h := by
  rw [Gw.rxWork, Gw.rxRun, hone, if_pos rfl]
  exact rxRun_of_empty hdone _

section
variable {g : Gw} {r f : Nat} {w : Sel} (hq : (g.rxAt r).queue = [(f, w)])
include hq

/-- The one frame that waits, cut or dropped (R722, R723). -/
theorem cutFrame_one : g.cutFrame r =
    (((if (g.rxAt r).filled = [] then (g.bump (Reg.hdmaRxNobuf r)).flag Reg.hdmaFlag 0x10000000
        else ((g.writeBack r w (g.rxAt r).filled false).bump (Reg.hdmaRxTrunc r)).flag Reg.hdmaFlag
          0x20000000).leaveHost w f).setRx r { g.rxAt r with queue := [], filled := [], left := none, waitFrom := none }) := by
  simp only [Gw.cutFrame, hq, List.isEmpty_iff]

theorem cutFrame_queue : ((g.cutFrame r).rxAt r).queue = [] := by rw [cutFrame_one hq, rxAt_setRx_same]

/-- Cut, it leaves the ring nothing to do. -/
theorem rxWork_cutFrame : (g.cutFrame r).rxWork r = g.cutFrame r := rxWork_of_empty (cutFrame_queue hq)

/-- A ring that is stopped cuts it (R723). -/
theorem rxWork_stopped (hlive : g.rxLive r = false) : g.rxWork r = g.cutFrame r := by
  refine rxWork_one ?_ (cutFrame_queue hq)
  simp only [Gw.rxOne, hq, hlive, Bool.not_false, if_true]

/-- A posted buffer that holds all of it takes it: it goes out with its descriptor, HEAD moves on, and its cells come back
(R720, R721). -/
theorem rxWork_delivered {a n : Nat} (hlive : g.rxLive r = true) (hfilled : (g.rxAt r).filled = [])
    (hleft : (g.rxAt r).left = none) (hposted : (g.rxAt r).posted = [(a, n)]) (hn : bufSizeOk n = true)
    (hpos : 0 < w.copy.frame.body.bytes.length) (hle : w.copy.frame.body.bytes.length ≤ n) :
    ((g.rxWork r).rxAt r).queue = [] ∧
      (g.rxWork r).out = g.out ++ [.hostWrite a w.copy.frame.body.bytes,
        .hostWrite (g.rxBase r + 32 * (g.regN (Reg.hdmaRxHead r) % g.rxSize r) + 10)
          (g.rxDescBytes w w.copy.frame.body.bytes.length true true false)] ∧
      (g.rxWork r).regN (Reg.hdmaRxHead r) = (g.regN (Reg.hdmaRxHead r) + 1) % g.rxSize r := by
  obtain ⟨b, hb⟩ : ∃ b, b = w.copy.frame.body.bytes := ⟨_, rfl⟩
  rw [← hb] at hpos hle ⊢
  obtain ⟨i, hi⟩ : ∃ i, i = g.regN (Reg.hdmaRxHead r) % g.rxSize r := ⟨_, rfl⟩
  have hfill : fillBufs (g.rxSize r) [(a, n)] i b = ([(i, a, b)], [], [], none) := by
    have hne : b.isEmpty = false := List.isEmpty_eq_false_iff.mpr (List.ne_nil_of_length_pos hpos)
    simp only [fillBufs, hne, hn, Bool.not_true, Bool.false_eq_true, if_false, List.take_of_length_le hle,
      List.drop_of_length_le hle]
  obtain ⟨h, hh⟩ : ∃ h, h = g.setRx r { queue := [(f, w)], filled := [(i, a, b)], left := some [] } := ⟨_, rfl⟩
  obtain ⟨h', hh'⟩ : ∃ h', h' = (h.writeBack r w [(i, a, b)] true).bump (Reg.hdmaRxFrm r) := ⟨_, rfl⟩
  obtain ⟨k, es, hleave⟩ := leaveHost_shape h' w f
  have hone : g.rxOne r =
      ((h'.leaveHost w f).setRx r { h'.rxAt r with queue := [], filled := [], left := none }, true) := by
    simp only [Gw.rxOne, hq, hlive, hleft, Option.getD_none, hfilled, List.length_nil, Nat.add_zero, hposted, ← hi, ← hb,
      hfill, List.nil_append, Bool.not_true, Bool.false_eq_true, if_false, List.isEmpty_nil, if_true, ← hh, ← hh']
  rw [rxWork_one hone (by rw [rxAt_setRx_same]), hleave]
  refine ⟨by rw [rxAt_setRx_same], ?out, ?head⟩
  case out =>
    have hout : h'.out = g.out ++ [.hostWrite a b, .hostWrite (g.rxBase r + 32 * i + 10)
        (g.rxDescBytes w b.length true true false)] := by rw [hh', hh]; rfl
    rw [← hi]
    exact hout
  case head =>
    have hlt : (g.regN (Reg.hdmaRxHead r) + 1) % g.rxSize r < 2 ^ 32 :=
      (Nat.mod_lt _ (ringSize_pos _)).trans_le ((ringSize_le _).trans (by decide))
    have hhead : h'.regN (Reg.hdmaRxHead r) = (g.regN (Reg.hdmaRxHead r) + 1) % g.rxSize r := by
      rw [hh', regN_bump_ne _ (by simp only [Reg.hdmaRxHead, Reg.hdmaRxFrm]; omega), hh]
      exact regN_setRegN_same (Gw.emitAll _ _) _ hlt
    exact hhead

end

/-! ### The tail of a receive ring -/

/-- The descriptors up to the new tail are posted. -/
theorem rxTail_posts {g : Gw} {r k : Nat} (v : W32) (bufs : List (Nat × Nat)) (h : r < 32)
    (hwait : (g.rxAt r).waitFrom = none)
    (hk : k = ((g.plainWrite (Reg.hdmaRxTail r) v).regN (Reg.hdmaRxTail r) + g.rxSize r -
      g.regN (Reg.hdmaRxTail r) % g.rxSize r) % g.rxSize r) :
    g.rxTail r v bufs = ((g.plainWrite (Reg.hdmaRxTail r) v).setRx r
      { g.rxAt r with posted := (g.rxAt r).posted ++ bufs.take k }).rxWork r := by
  have hover : g.waitOver r true = false := by simp only [Gw.waitOver, hwait]
  obtain ⟨w, hw, -⟩ := plainWrite_of_rw g v (findReg_hdmaRxTail h) rfl rfl
  subst hk
  simp only [Gw.rxTail, hover, Bool.false_eq_true, if_false, hw]
  rfl

/-! ### WAIT_US (R722) -/

theorem waitOver_iff {g : Gw} {r k : Nat} (h : (g.rxAt r).waitFrom = some k) :
    g.waitOver r false = decide (k + ticksPerUs * min 1000 (g.rxWaitUs r) ≤ g.tb.tick) := by
  simp only [Gw.waitOver, h, Bool.false_eq_true, if_false]

/-! ### A DMA error (R724) -/

theorem bit_regN_setRegN (g : Gw) (o v : Nat) {k : Nat} (h : k < 32) : bit ((g.setRegN o v).regN o) k = bit v k := by
  simp only [bit, Gw.regN, Gw.setRegN, reg_setReg_same, w32, BitVec.toNat_ofNat, Nat.testBit_mod_two_pow, h, decide_true,
    Bool.true_and]

/-- A ring that stops with an error has EN 0, and the error's address and ring are recorded. -/
theorem stopRing_regs (g : Gw) (tx : Bool) {r : Nat} (addr : Nat) (h : r < 32) :
    bit ((g.stopRing tx r addr 0).regN (if tx then Reg.hdmaTxCtl r else Reg.hdmaRxCtl r)) 31 = false ∧
      bit ((g.stopRing tx r addr 0).regN Reg.hdmaFlag) 31 = true ∧
      (g.stopRing tx r addr 0).regN Reg.hdmaErrAddrLo = addr % 4294967296 ∧
      (g.stopRing tx r addr 0).regN Reg.hdmaErrAddrHi = addr / 4294967296 % 4294967296 ∧
      (g.stopRing tx r addr 0).regN Reg.hdmaErrInfo = (if tx then 2 ^ 31 else 0) + r := by
  obtain ⟨ctl, hctl⟩ : ∃ ctl, ctl = if tx then Reg.hdmaTxCtl r else Reg.hdmaRxCtl r := ⟨_, rfl⟩
  have hlow : ctl < Reg.hdmaFlag := by
    rw [hctl]
    simp only [Reg.hdmaTxCtl, Reg.hdmaRxCtl, Reg.hdmaFlag]
    split <;> omega
  have hne : ∀ {o}, Reg.hdmaFlag ≤ o → ctl ≠ o := fun ho => Nat.ne_of_lt (Nat.lt_of_lt_of_le hlow ho)
  have hinfo : atBit 31 tx + 0 + r % 32 = (if tx then 2 ^ 31 else 0) + r := by
    rw [Nat.add_zero, Nat.mod_eq_of_lt h]; rfl
  have hsmall : (if tx then 2 ^ 31 else 0) + r < 2 ^ 32 := by split <;> omega
  rw [← hctl]
  simp only [Gw.stopRing, ← hctl, hinfo]
  refine ⟨?en, ?flag, ?lo, ?hi, regN_setRegN_same _ _ hsmall⟩
  case en =>
    rw [regN_setRegN_ne _ _ (hne (by decide)), regN_setRegN_ne _ _ (hne (by decide)),
      regN_setRegN_ne _ _ (hne (by decide)), regN_flag_ne _ (hne (by decide)), bit_regN_setRegN _ _ _ (by decide)]
    exact bit_setBits_clear _ _
  case flag =>
    rw [regN_setRegN_ne _ _ (by decide), regN_setRegN_ne _ _ (by decide), regN_setRegN_ne _ _ (by decide)]
    exact bit_regN_flag_of_mask _ _ (by decide) (by decide)
  case lo =>
    rw [regN_setRegN_ne _ _ (by decide), regN_setRegN_ne _ _ (by decide)]
    exact regN_setRegN_same _ _ (Nat.mod_lt _ (by decide))
  case hi =>
    rw [regN_setRegN_ne _ _ (by decide)]
    exact regN_setRegN_same _ _ (Nat.mod_lt _ (by decide))

theorem stopRing_rxAt (g : Gw) (tx : Bool) (r addr info k : Nat) : (g.stopRing tx r addr info).rxAt k = g.rxAt k := by
  have hset : ∀ (h : Gw) (o v : Nat), (h.setRegN o v).rxAt k = h.rxAt k := fun _ _ _ => rfl
  have hflag : ∀ (h : Gw) (o v : Nat), (h.flag o v).rxAt k = h.rxAt k := fun _ _ _ => rfl
  simp only [Gw.stopRing, hset, hflag]

theorem unclaim_regs (g : Gw) (fid : Nat) : (g.unclaim fid).regs = g.regs := by
  obtain ⟨k, he, -⟩ := unclaim_shape g fid
  rw [he]

theorem dropHeld_regs (g : Gw) (r : Nat) : (g.dropHeld r).regs = g.regs := by
  unfold Gw.dropHeld
  split
  · exact foldl_same Gw.regs unclaim_regs _ _
  · rfl

/-- A send that ends with a DMA error changes two registers, those of its ring. -/
theorem completeTx_dmaError_reg (g : Gw) (r n : Nat) (irq late : Bool) {o : Nat} (hh : o ≠ Reg.hdmaTxHead r)
    (he : o ≠ Reg.hdmaTxErr r) : (g.completeTx r n irq late 2).reg o = g.reg o := by
  have hring : ∀ (h : Gw) (x : TxRing), (h.setTx r x).reg o = h.reg o := fun _ _ => rfl
  simp only [Gw.completeTx, OfNat.ofNat_ne_zero, if_false, show ¬ (2 : Nat) = 1 by decide, hring]
  rw [reg_bump_ne _ he]
  exact reg_setReg_ne (g.emit _) _ hh

/-- What an error does beyond stopping its ring changes no other register. -/
theorem dmaError_reg {g : Gw} {tx : Bool} {r : Nat} (addr : Nat) (frame : Option Nat)
    (hq : tx = true ∨ (g.rxAt r).queue = []) {o : Nat} (hh : o ≠ Reg.hdmaTxHead r) (he : o ≠ Reg.hdmaTxErr r) :
    (g.dmaError tx r addr frame).reg o = (g.stopRing tx r addr 0).reg o := by
  have hring : ∀ (h : Gw) (x : TxRing), (h.setTx r x).reg o = h.reg o := fun _ _ => rfl
  have hheld : ((g.stopRing true r addr 0).dropHeld r).reg o = (g.stopRing true r addr 0).reg o :=
    reg_congr (dropHeld_regs _ _) o
  unfold Gw.dmaError
  cases tx with
  | false =>
    have hempty : ((g.stopRing false r addr 0).rxAt r).queue = [] := by
      rw [stopRing_rxAt]
      exact hq.resolve_left Bool.false_ne_true
    simp only [Bool.not_false, if_true, Bool.false_eq_true, if_false, rxWork_of_empty hempty]
  | true =>
    simp only [Bool.not_true, if_true, Bool.false_eq_true, if_false]
    split
    · rw [completeTx_dmaError_reg _ _ _ _ _ hh he, hheld]
    · rw [completeTx_dmaError_reg _ _ _ _ _ hh he, hheld]
    · rw [hring, hheld]

end Sys2Proof.Machine
end

section
/-! SUPPORT. The commands of the host rings, for a ring of the module that is in reach. -/

namespace Sys2Proof.Machine

section
variable {s : State} {r : Nat} (hr : r < 32)
include hr

section
variable (hon : s.gw.islOn 14 = true)
include hon

theorem ring_in_reach : (decide (r < 32) && s.gw.islOn 14) = true := by
  rw [hon, decide_eq_true hr]
  rfl

theorem exec_hdmaTxTailWrite (v : W32) :
    exec (.hdmaTxTailWrite r v) s = .next (s.after (s.gw.plainWrite (Reg.hdmaTxTail r) v)) :=
  congrArg (fun g => Host.Outcome.next (s.after g)) (if_pos (ring_in_reach hr hon))

theorem exec_hostInjection : exec (.hostInjection r) s = .next (s.after (s.gw.hostInjection r)) :=
  congrArg (fun g => Host.Outcome.next (s.after g)) (if_pos (ring_in_reach hr hon))

theorem exec_hdmaRxTailWrite (v : W32) (bufs : List (Nat × Nat)) :
    exec (.hdmaRxTailWrite r v bufs) s = .next (s.after (s.gw.rxTail r v bufs)) :=
  congrArg (fun g => Host.Outcome.next (s.after g)) (if_pos (ring_in_reach hr hon))

theorem exec_hdmaRingEnWrite (tx : Bool) (v : W32) : exec (.hdmaRingEnWrite tx r v) s = .next (s.after
    (if tx then s.gw.plainWrite (Reg.hdmaTxCtl r) v else (s.gw.plainWrite (Reg.hdmaRxCtl r) v).rxWork r)) := by
  have hgo : ¬ (decide (32 ≤ r) || !s.gw.islOn 14) = true := by
    rw [hon, decide_eq_false (Nat.not_le.mpr hr)]
    exact Bool.false_ne_true
  exact congrArg (fun g => Host.Outcome.next (s.after g)) (if_neg hgo)

end

theorem exec_pcieDmaError (hhost : s.gw.hostOn = true) (tx : Bool) (addr : Nat) (frame : Option Nat) :
    exec (.pcieDmaError tx r addr frame) s = .next (s.after (s.gw.dmaError tx r addr frame)) := by
  have hgo : (decide (r < 32) && s.gw.hostOn) = true := by
    rw [hhost, decide_eq_true hr]
    rfl
  exact congrArg (fun g => Host.Outcome.next (s.after g)) (if_pos hgo)

end

theorem exec_hdmaTxFetch (r : Nat) (descs bufs : List (List Byte)) (s : State) :
    exec (.hdmaTxFetch r descs bufs) s = .next (s.after (s.gw.txFetch r descs bufs)) := rfl

theorem exec_hdmaRxWaitExpiry (r : Nat) (s : State) : exec (.hdmaRxWaitExpiry r) s =
    .next (s.after (if s.gw.waitOver r false then (s.gw.cutFrame r).rxWork r else s.gw)) := rfl

theorem txFetch_stopped {g : Gw} {r : Nat} (descs bufs : List (List Byte)) (h : g.txEn r = false) :
    g.txFetch r descs bufs = g := by
  unfold Gw.txFetch
  rw [h, Bool.not_false, Bool.or_true, if_pos rfl]

/-- A write with EN 0 stops a receive ring. -/
theorem rxLive_of_en0 (g : Gw) {r : Nat} {v : W32} (hr : r < 32) (hv : v.getLsbD 31 = false) :
    (g.plainWrite (Reg.hdmaRxCtl r) v).rxLive r = false := by
  obtain ⟨w, hw, hbits⟩ := plainWrite_of_rw g v (findReg_hdmaRxCtl hr) rfl rfl
  have hen : w.getLsbD 31 = false := (hbits 31 (by decide)).trans ((if_pos (by decide)).trans hv)
  have hreg : ((g.setReg (Reg.hdmaRxCtl r) w).regN (Reg.hdmaRxCtl r)) = w.toNat := by rw [Gw.regN, reg_setReg_same]
  rw [hw, Gw.rxLive, Gw.rxEn, hreg, bit, BitVec.testBit_toNat, hen, Bool.false_and]

/-- A descriptor's bytes need no register. -/
theorem rxDescBytes_congr {g h : Gw} (e : h.str = g.str) (w : Sel) (n : Nat) (sop eop cut : Bool) :
    h.rxDescBytes w n sop eop cut = g.rxDescBytes w n sop eop cut := by
  simp only [Gw.rxDescBytes, Gw.shownIngress, Gw.translate, e]

/-- A new tail with one buffer that holds the frame that waits: the frame is delivered into it (R720, R721). -/
theorem rxTail_delivers {g : Gw} {r f a n : Nat} {v : W32} {w : Sel} (hr : r < 32)
    (hwait : (g.rxAt r).waitFrom = none) (hlive : g.rxLive r = true) (hq : (g.rxAt r).queue = [(f, w)])
    (hposted : (g.rxAt r).posted = []) (hfilled : (g.rxAt r).filled = []) (hleft : (g.rxAt r).left = none)
    (hone : 1 = ((g.plainWrite (Reg.hdmaRxTail r) v).regN (Reg.hdmaRxTail r) + g.rxSize r -
      g.regN (Reg.hdmaRxTail r) % g.rxSize r) % g.rxSize r)
    (hn : bufSizeOk n = true) (hpos : 0 < w.copy.frame.body.bytes.length) (hle : w.copy.frame.body.bytes.length ≤ n) :
    ((g.rxTail r v [(a, n)]).rxAt r).queue = [] ∧
      (g.rxTail r v [(a, n)]).out = g.out ++ [.hostWrite a w.copy.frame.body.bytes,
        .hostWrite (g.rxBase r + 32 * (g.regN (Reg.hdmaRxHead r) % g.rxSize r) + 10)
          (g.rxDescBytes w w.copy.frame.body.bytes.length true true false)] ∧
      (g.rxTail r v [(a, n)]).regN (Reg.hdmaRxHead r) = (g.regN (Reg.hdmaRxHead r) + 1) % g.rxSize r := by
  obtain ⟨tail, htail, -⟩ := plainWrite_of_rw g v (findReg_hdmaRxTail hr) rfl rfl
  rw [rxTail_posts v _ hr hwait hone, htail]
  obtain ⟨h, hh⟩ : ∃ h, h = (g.setReg (Reg.hdmaRxTail r) tail).setRx r
      { g.rxAt r with posted := (g.rxAt r).posted ++ [(a, n)].take 1 } := ⟨_, rfl⟩
  have hreg : ∀ o, o ≠ Reg.hdmaRxTail r → h.regN o = g.regN o := fun o ho => by
    rw [hh]
    exact congrArg BitVec.toNat (reg_setReg_ne g tail ho)
  have hring : h.rxAt r = { g.rxAt r with posted := [(a, n)] } := by rw [hh, rxAt_setRx_same, hposted]; rfl
  have hctl : h.regN (Reg.hdmaRxCtl r) = g.regN (Reg.hdmaRxCtl r) :=
    hreg _ (by simp only [Reg.hdmaRxCtl, Reg.hdmaRxTail]; omega)
  have hhead : h.regN (Reg.hdmaRxHead r) = g.regN (Reg.hdmaRxHead r) :=
    hreg _ (by simp only [Reg.hdmaRxHead, Reg.hdmaRxTail]; omega)
  have hsize : h.rxSize r = g.rxSize r := congrArg ringSize hctl
  have hbase : h.rxBase r = g.rxBase r := by
    rw [Gw.rxBase, Gw.rxBase, hreg _ (by simp only [Reg.hdmaRxBaseLo, Reg.hdmaRxTail]; omega),
      hreg _ (by simp only [Reg.hdmaRxBaseHi, Reg.hdmaRxTail]; omega)]
  have hon : h.hostOn = g.hostOn := by rw [hh]; rfl
  have hlive' : h.rxLive r = true := by
    rw [Gw.rxLive, Gw.rxEn, hctl, hon]
    exact hlive
  have hbytes := rxDescBytes_congr (g := g) (h := h) (by rw [hh]; rfl) w w.copy.frame.body.bytes.length true true false
  obtain ⟨hqueue, hout, hhead'⟩ := rxWork_delivered (g := h) (r := r) (f := f) (w := w) (a := a) (n := n)
    (by rw [hring]; exact hq) hlive' (by rw [hring]; exact hfilled) (by rw [hring]; exact hleft) (by rw [hring]) hn hpos hle
  rw [hbase, hhead, hsize, hbytes] at hout
  rw [hhead, hsize] at hhead'
  rw [← hh]
  exact ⟨hqueue, hout.trans (by rw [hh]; rfl), hhead'⟩

end Sys2Proof.Machine
end

section
/-! The statement on the host rings. -/

namespace Sys2Proof.Machine

/-- Settles O49: the writes of tails and control registers, the fetch and injection of a frame, the delivery to a posted
buffer, the end of WAIT_US and a DMA error. -/
theorem hostRings : Obligations.HostRings := by
  refine ⟨?txTail, ?txFetch, ?txStopped, ?injection, ?completion, ?rxTail, ?waitExpiry, ?ringCtl, ?rxStopped, ?dmaError⟩
  case txTail =>
    intro s r v hr hon
    obtain ⟨w, hw, hbits⟩ := plainWrite_of_rw s.gw v (findReg_hdmaTxTail hr) rfl rfl
    exact ⟨w, by rw [exec_hdmaTxTailWrite hr hon, hw], toNat_mod_of_tail hbits⟩
  case txFetch =>
    intro s r d rest data bufs x snd hr hhost hen hsend hposted heop htso hdirect hlen hmin hmax hx hsnd hhold hfree
    subst hx hsnd
    have hsize : cellsOf (Frame.len { fport := s.gw.ringPort r, body := .eth (withFcs data) }) = cellsOf (data.length + 4) :=
      congrArg cellsOf (withFcs_length data)
    obtain ⟨k, hstore⟩ := storeFrame_of_free (g := s.gw) (by rw [hsize]; exact hfree)
    have hfetch := txFetch_one (rest := rest) (bufs := bufs) hr hhost hen hsend hposted heop htso hdirect hlen hmin hmax
    refine ⟨_, _, hstore, fun hat => ⟨?now, _, rfl, rfl, rfl, rfl, rfl, rfl⟩, fun hat hahead hnear => ?held⟩
    case now =>
      rw [exec_hdmaTxFetch, hfetch]
      exact congrArg (fun g => Host.Outcome.next (s.after g)) (sendOn_now (snd := txSendOf d data) hhold hstore rfl rfl hat)
    case held =>
      have hheld := sendOn_held (snd := txSendOf d data) (x := txSegOf d data) hhold hstore rfl hat hahead hnear
      rw [exec_hdmaTxFetch, hfetch]
      exact congrArg (fun g => Host.Outcome.next (s.after g)) hheld
  case txStopped =>
    intro s r descs bufs hen
    rw [exec_hdmaTxFetch, txFetch_stopped descs bufs hen, after_self]
  case injection =>
    intro s r fid snd x t hr hon hsend hheld hsegs hlate
    rw [exec_hostInjection hr hon]
    refine ⟨fun hdue => ?due, fun hahead hnear => ?early⟩
    case due => rw [hostInjection_due hsend hheld hsegs hlate hdue]
    case early => rw [hostInjection_early hsend hheld hahead hnear, after_self]
  case completion =>
    intro s r n irq _ _ g hg
    rw [hg]
    exact completeTx_done s.gw r n irq
  case rxTail =>
    intro s r v bufs g k hr hon hwait hg hk
    subst hg
    rw [exec_hdmaRxTailWrite hr hon]
    refine ⟨fun hempty => ?empty, fun f w a n b hlive hq hposted hfilled hleft hk1 hbufs hn hb hpos hle => ?delivered⟩
    case empty => rw [rxTail_posts v bufs hr hwait hk, rxWork_of_empty (by rw [rxAt_setRx_same]; exact hempty)]
    case delivered =>
      subst hb hbufs
      obtain ⟨hqueue, hout, hhead⟩ :=
        rxTail_delivers hr hwait hlive hq hposted hfilled hleft (hk1.symm.trans hk) hn hpos hle
      have hsent : ∀ o ∈ [Out.hostWrite a w.copy.frame.body.bytes,
          .hostWrite (s.gw.rxBase r + 32 * (s.gw.regN (Reg.hdmaRxHead r) % s.gw.rxSize r) + 10)
            (s.gw.rxDescBytes w w.copy.frame.body.bytes.length true true false)],
          (s.after (s.gw.rxTail r v [(a, n)])).gw.out.contains o = true := fun o ho =>
        List.contains_iff_mem.mpr (mem_out_interrupts s.gw (by rw [hout]; exact List.mem_append_right _ ho))
      refine ⟨_, rfl, ?queue, hsent _ List.mem_cons_self, hsent _ (List.mem_cons_of_mem _ List.mem_cons_self), ?head⟩
      case queue => rw [Gw.rxAt, after_gw, interrupts_rxRing]; exact hqueue
      case head => rw [regN_after _ _ (by simp only [Reg.hdmaRxHead]; omega), hhead]
  case waitExpiry =>
    intro s r f w k hwait
    rw [exec_hdmaRxWaitExpiry, waitOver_iff hwait]
    refine ⟨fun hbefore => ?before, fun hpast hq => ?past⟩
    case before => rw [decide_eq_false (by omega), if_neg Bool.false_ne_true, after_self]
    case past => rw [decide_eq_true hpast, if_pos rfl, rxWork_cutFrame hq, cutFrame_one hq]
  case ringCtl =>
    intro s tx r v hr hon hq
    obtain ⟨w, hw, hbits⟩ := plainWrite_ctl s.gw tx v hr
    refine ⟨w, ?_, hbits⟩
    rw [exec_hdmaRingEnWrite hr hon]
    cases tx with
    | true => exact congrArg (fun g => Host.Outcome.next (s.after g)) hw
    | false =>
      have hset : s.gw.plainWrite (Reg.hdmaRxCtl r) v = s.gw.setReg (Reg.hdmaRxCtl r) w := hw
      have hempty : ((s.gw.setReg (Reg.hdmaRxCtl r) w).rxAt r).queue = [] := hq.resolve_left Bool.false_ne_true
      simp only [Bool.false_eq_true, if_false, hset, rxWork_of_empty hempty]
  case rxStopped =>
    intro s r f w v hr hon hq hv
    have hwaiting : ((s.gw.plainWrite (Reg.hdmaRxCtl r) v).rxAt r).queue = [(f, w)] := by
      obtain ⟨u, hu, -⟩ := plainWrite_of_rw s.gw v (findReg_hdmaRxCtl hr) rfl rfl
      rw [hu]
      exact hq
    rw [exec_hdmaRingEnWrite hr hon, if_neg Bool.false_ne_true, rxWork_stopped hwaiting (rxLive_of_en0 s.gw hr hv)]
  case dmaError =>
    intro s tx r addr frame hr hhost hq
    obtain ⟨hen, hflag, hlo, hhi, hinfo⟩ := stopRing_regs s.gw tx addr hr
    have hreg : ∀ {o}, 0x3008 ≤ o → o ≠ Reg.hdmaTxHead r → o ≠ Reg.hdmaTxErr r →
        (s.after (s.gw.dmaError tx r addr frame)).gw.regN o = (s.gw.stopRing tx r addr 0).regN o := fun hlow hh he =>
      (regN_after s _ hlow).trans (congrArg BitVec.toNat (dmaError_reg addr frame hq hh he))
    have hhigh : ∀ {o}, Reg.hdmaFlag ≤ o →
        (s.after (s.gw.dmaError tx r addr frame)).gw.regN o = (s.gw.stopRing tx r addr 0).regN o := fun ho => by
      refine hreg (Nat.le_trans (by decide) ho) ?_ ?_ <;>
      · simp only [Reg.hdmaFlag, Reg.hdmaTxHead, Reg.hdmaTxErr] at *
        omega
    have hctl : (s.after (s.gw.dmaError tx r addr frame)).gw.regN (if tx then Reg.hdmaTxCtl r else Reg.hdmaRxCtl r) =
        (s.gw.stopRing tx r addr 0).regN (if tx then Reg.hdmaTxCtl r else Reg.hdmaRxCtl r) := by
      refine hreg ?_ ?_ ?_ <;>
      · simp only [Reg.hdmaTxCtl, Reg.hdmaRxCtl, Reg.hdmaTxHead, Reg.hdmaTxErr]
        split <;> omega
    refine ⟨_, exec_pcieDmaError hr hhost tx addr frame, ?_, ?_, ?_, ?_, ?_⟩
    · rw [hctl, hen]
    · rw [hhigh (Nat.le_refl _), hflag]
    · rw [hhigh (by decide), hlo]
    · rw [hhigh (by decide), hhi]
    · rw [hhigh (by decide), hinfo]

end Sys2Proof.Machine
end

section
/-! SUPPORT. A frame that a MAC receives (R280): the checks of a frame that is not preemptable, and its delivery towards Strata
(R108, R165, R760, R812). -/

namespace Sys2Proof.Machine

/-! ### Delivery towards Strata -/

/-- While its pipeline and the fabric run, a received frame is delivered. -/
theorem ingress_running {g : Gw} {x : Frame} (hpipe : g.islOn (1 + pipeOf x.fport) = true) (hfab : g.islOn 0 = true) :
    g.ingress x = g.deliver x := by
  have hcode : mgetD g.isl (1 + pipeOf x.fport) 0 = 1 := of_decide_eq_true hpipe
  have hfenced : g.islFenced (1 + pipeOf x.fport) = false := by rw [Gw.islFenced, hcode]; rfl
  simp [Gw.ingress, hfenced, hpipe, hfab]

/-- With cells and room free, it is stored under the next frame number and goes on to Strata (R108). -/
theorem deliver_stored {g : Gw} {x : Frame} (hfree : (g.freeCells (cellsOf x.len)).isSome = true)
    (hroom : g.pendCells x.fport + cellsOf x.len ≤ g.allotment x.fport) :
    ∃ h, g.storeFrame x = some (h, { x with fid := g.cal.nextFid }) ∧
      g.deliver x = { h with str := { h.str with inbound := g.str.inbound ++ [{ x with fid := g.cal.nextFid }] } } := by
  obtain ⟨k, hstore⟩ := storeFrame_of_free hfree
  refine ⟨_, hstore, ?_⟩
  simp [Gw.deliver, Nat.not_lt.mpr hroom, Gw.toStrata, hstore]

/-- With its port's allotment full, it is discarded and counted (R165). -/
theorem deliver_full {g : Gw} {x : Frame} (hfree : (g.freeCells (cellsOf x.len)).isSome = true)
    (hfull : g.allotment x.fport < g.pendCells x.fport + cellsOf x.len) :
    g.deliver x = { ((g.bump Reg.catLagdropCnt).flag Reg.catFlag 0x40000000) with undefEgress := 0xFF003FFFFF } := by
  simp [Gw.deliver, hfree, hfull]

/-! ### The checks of a frame that is not preemptable (R280) -/

theorem exec_ethFrameReceive (p : Nat) (rx : EthRx) (s : State) :
    exec (.ethFrameReceive p rx) s = .next (s.after (s.gw.ethReceive p rx)) := rfl

section
variable {g : Gw} {p : Nat} {rx : EthRx} (hc : g.carries p = true) (hv : rx.verify = false)
  (hpre : rx.preemptable = false)
include hc hv hpre

/-- A code error decides first. -/
theorem ethReceive_codeError (hpcs : rx.pcsError = true) : g.ethReceive p rx = g.rxDiscard p (Reg.ethRxPcs p) := by
  simp [Gw.ethReceive, hc, hv, hpre, hpcs]

/-- Then a wrong FCS. -/
theorem ethReceive_wrongFcs (hpcs : rx.pcsError = false) (hfcs : rx.bytes ≠ withFcs (stripFcs rx.bytes)) :
    g.ethReceive p rx = g.rxDiscard p (Reg.ethRxFcs p) := by
  simp [Gw.ethReceive, hc, hv, hpre, hpcs, hfcs]

/-- A frame without MACsec that passes both is judged by its length; what is left is MAC control or goes towards Strata. -/
theorem ethReceive_intact (hsec : g.secEn p = false) (hpcs : rx.pcsError = false) (hmcrc : rx.mcrcError = false)
    (hfcs : rx.bytes = withFcs (stripFcs rx.bytes)) (hlen : 4 ≤ rx.bytes.length) :
    g.ethReceive p rx =
      if rx.bytes.length < 64 then g.rxDiscard p (Reg.ethRxRunt p)
      else if g.maxFrame p < rx.bytes.length then g.rxDiscard p (Reg.ethRxOver p)
      else if firstType (stripFcs rx.bytes) = 0x8808 then
        g.macControl p (stripFcs rx.bytes) (g.stampIn (macIsland p) rx.phase)
      else (g.bump (Reg.ethRxOk p)).ingress (g.ethIngress p rx rx.bytes) := by
  have hopen : g.secRx p (stripFcs rx.bytes) rx.checkBad = (g, some (stripFcs rx.bytes)) := by simp [Gw.secRx, hsec]
  unfold Gw.ethReceive
  simp [hc, hv, hpre, hpcs, hmcrc, hsec, hopen, ← hfcs, Nat.not_lt.mpr hlen]

end

/-- A sound data frame without MACsec, not above MAX_FRAME, counts in RX_OK and goes towards Strata. -/
theorem ethReceive_data {g : Gw} {p : Nat} {rx : EthRx} (hc : g.carries p = true) (hv : rx.verify = false)
    (hs : soundFrame rx) (hsec : g.secEn p = false) (hmax : rx.bytes.length ≤ g.maxFrame p)
    (htype : firstType (stripFcs rx.bytes) ≠ 0x8808) (hpipe : g.islOn (1 + pipeOf (macFabric p)) = true)
    (hfab : g.islOn 0 = true) :
    g.ethReceive p rx = (g.bump (Reg.ethRxOk p)).deliver (g.ethIngress p rx rx.bytes) := by
  obtain ⟨hpcs, hmcrc, hpre, hfcs, hmin⟩ := hs
  rw [ethReceive_intact hc hv hpre hsec hpcs hmcrc hfcs (Nat.le_trans (by decide) hmin), if_neg (Nat.not_lt.mpr hmin),
    if_neg (Nat.not_lt.mpr hmax), if_neg htype]
  exact ingress_running hpipe hfab

end Sys2Proof.Machine
end

section
/-! The statement on the receive checks of an Ethernet port. -/

namespace Sys2Proof.Machine

/-- Settles O12, outcome by outcome. -/
theorem ethernetReceive : Obligations.EthernetReceive := by
  refine ⟨?delivered, ?codeError, ?wrongFcs, ?runt, ?tooLong, ?full⟩
  case delivered =>
    intro s p rx hc hv hs hsec hmax htype ⟨hpipe, hfab, hfree, hroom⟩
    obtain ⟨g, hstore, hdeliver⟩ := deliver_stored (g := s.gw.bump (Reg.ethRxOk p))
      (x := s.gw.ethIngress p rx rx.bytes) hfree hroom
    refine ⟨_, g, rfl, hstore, ?_⟩
    rw [exec_ethFrameReceive, ethReceive_data hc hv hs hsec hmax htype hpipe hfab, hdeliver]
    rfl
  case codeError =>
    intro s p rx hc hv hpre hpcs
    rw [exec_ethFrameReceive, ethReceive_codeError hc hv hpre hpcs]
    rfl
  case wrongFcs =>
    intro s p rx hc hv hpre hpcs hfcs
    rw [exec_ethFrameReceive, ethReceive_wrongFcs hc hv hpre hpcs hfcs]
    rfl
  case runt =>
    intro s p rx hc hv hsec hpre hpcs hmcrc hfcs hlen hshort
    rw [exec_ethFrameReceive, ethReceive_intact hc hv hpre hsec hpcs hmcrc hfcs hlen, if_pos hshort]
    rfl
  case tooLong =>
    intro s p rx hc hv hsec ⟨hpcs, hmcrc, hpre, hfcs, hmin⟩ hlong
    rw [exec_ethFrameReceive, ethReceive_intact hc hv hpre hsec hpcs hmcrc hfcs (Nat.le_trans (by decide) hmin),
      if_neg (Nat.not_lt.mpr hmin), if_pos hlong]
    rfl
  case full =>
    intro s p rx hc hv hs hsec hmax htype hpipe hfab hfree hfull
    rw [exec_ethFrameReceive, ethReceive_data hc hv hs hsec hmax htype hpipe hfab]
    exact congrArg (fun g => Host.Outcome.next (s.after g)) (deliver_full (g := s.gw.bump (Reg.ethRxOk p)) hfree hfull)

end Sys2Proof.Machine
end

section
/-! SUPPORT. The handover of a staged frame (R121, R123), its start on the wire or its discard by the MAC (R243, R281, R282), and
the reads of a TX timestamp queue (R309). -/

namespace Sys2Proof.Machine

theorem discTs_of_untagged (g : Gw) (f : Nat) {x : Frame} (h : x.tsTag = none) : g.discTs f x = g := by
  simp [Gw.discTs, h]

theorem ethAt_after (s : State) (g : Gw) (p : Nat) : (s.after g).gw.ethAt p = g.ethAt p := by
  rw [Gw.ethAt, after_gw, interrupts_eth, Gw.ethAt]

theorem egrAt_after (s : State) (g : Gw) (f : Nat) : (s.after g).gw.egrAt f = g.egrAt f := by
  rw [Gw.egrAt, after_gw, interrupts_egr, Gw.egrAt]

/-- What a claim's end leaves of Caldera depends on Caldera alone. -/
theorem unclaim_cal_congr {g h : Gw} (e : h.cal = g.cal) (fid : Nat) : (h.unclaim fid).cal = (g.unclaim fid).cal := by
  unfold Gw.unclaim
  rw [e]
  split
  · split <;> rfl
  · exact e

/-! ### The handover of the oldest staged frame (R121, R123) -/

theorem leaveStage_selected {e : EgrPort} {w : Sel} {rest : List Sel} (h : e.selected = w :: rest) :
    e.leaveStage.selected = rest := by
  simp [EgrPort.leaveStage, h, EgrPort.reserveStage]

theorem exec_stagedHandover {s : State} {f : Nat} (hf : f < 22) (hfab : s.gw.islOn 0 = true)
    (flip : Option (Nat × Nat)) (bad : Bool) :
    exec (.stagedHandover f ⟨flip, bad⟩) s = .next (s.after (s.gw.handover f flip bad)) := by
  have hgo : (decide (f < 22) && s.gw.islOn 0) = true := by rw [hfab, decide_eq_true hf]; rfl
  exact congrArg (fun g => Host.Outcome.next (s.after g)) (if_pos hgo)

/-- Only the aggregator's port can lack room for a staged frame. -/
theorem hasRoom_of_ne (g : Gw) {f : Nat} (w : Sel) (h : f ≠ 12) : g.hasRoom f w = true := by
  unfold Gw.hasRoom
  split <;> simp [h]

theorem takerHolds_of_on {g : Gw} {f : Nat} (h : g.islOn (stampIsland f) = true) : g.takerHolds f = false := by
  simp [Gw.takerHolds, h]

section
variable {g : Gw} {f : Nat} {w : Sel} {rest : List Sel} {flip : Option (Nat × Nat)}
  (hsel : (g.egrAt f).selected = w :: rest) (hstaged : (g.egrAt f).headStaged = true)
include hsel hstaged

/-- Every cell sound, it goes to its running MAC, behind the frames already there. -/
theorem handover_toMac (bad : Bool) (hwire : wirePort f = true) (hon : g.islOn (stampIsland f) = true)
    (hsound : g.badCell w.copy.fid flip = none) :
    g.handover f flip bad = (g.setEgr f (g.egrAt f).leaveStage).setEth (macIndex f)
      { g.ethAt (macIndex f) with jobs := (g.ethAt (macIndex f)).jobs ++ [{ sel := w, staged := g.now }] } := by
  have hroom : g.hasRoom f w = true := hasRoom_of_ne g w (by rintro rfl; exact absurd hwire (by decide))
  have hgo : (wirePort f && (g.setEgr f (g.egrAt f).leaveStage).islOn (stampIsland f)) = true := by
    rw [hwire]
    exact hon
  simp only [Gw.handover, hsel, hstaged, hsound, takerHolds_of_on hon, hroom, Bool.not_true, Bool.or_self,
    Bool.false_eq_true, if_false, Gw.handTo, if_pos hgo]
  rfl

/-- A cell that fails its CRC check discards it; outside the host ports its claim on the cells ends. -/
theorem handover_crcFailed {i cell : Nat} (bad : Bool) (hf : f < 16)
    (hcell : g.badCell w.copy.fid flip = some (i, cell)) :
    g.handover f flip bad =
      ((g.setEgr f (g.egrAt f).leaveStage).crcFailed f i cell w).unclaim w.copy.fid := by
  have hhost : ¬(f = 16 ∨ f = 17) := by omega
  simp only [Gw.handover, hsel, hstaged, hcell, Bool.not_true, Bool.false_eq_true, if_false, if_neg hhost]

end

/-- A detected error is reported and flagged in LCK_FLAG. -/
theorem detect_shape (g : Gw) (kind detail island unit : Nat) :
    ∃ rs, g.detect kind detail island unit = { g with
        regs := rs
        detected := g.detected ++ [{ kind := kind, detail := detail, island := island, unit := unit }] } ∧
      ∀ o, o ≠ Reg.lckFlag → (g.detect kind detail island unit).regN o = g.regN o :=
  ⟨_, rfl, fun _ h => regN_flag_ne _ h⟩

/-- The record of a failed cell CRC: count, flag, last failure and report (R123, R128). -/
def Gw.crcRecorded (g : Gw) (detail unit : Nat) : Gw :=
  (((g.bump Reg.fabCalCrcCnt).flag Reg.fabCalFlag 0x80000000).setRegN Reg.fabCalCrcLast detail).detect 4 detail 0 unit

theorem crcFailed_of_untagged (g : Gw) (f i cell : Nat) {w : Sel} (hts : w.copy.frame.tsTag = none) :
    g.crcFailed f i cell w = g.crcRecorded (f * 2 ^ 23 + i % 32 * 2 ^ 18 + cell % 262144)
      (0x100 + cell % 262144 / 16384) :=
  congrArg (fun h : Gw => h.detect 4 (f * 2 ^ 23 + i % 32 * 2 ^ 18 + cell % 262144) 0 (0x100 + cell % 262144 / 16384))
    (discTs_of_untagged _ f hts)

/-- It leaves all but registers and reports as they are. -/
theorem crcRecorded_effect (g : Gw) (detail unit : Nat) :
    ∃ rs, g.crcRecorded detail unit = { g with
        regs := rs
        detected := g.detected ++ [{ kind := 4, detail := detail, island := 0, unit := unit }] } ∧
      (g.crcRecorded detail unit).regN Reg.fabCalCrcCnt = satAdd (g.regN Reg.fabCalCrcCnt) 1 ∧
      bit ((g.crcRecorded detail unit).regN Reg.fabCalFlag) 31 = true := by
  obtain ⟨rs, he, hr⟩ := detect_shape (((g.bump Reg.fabCalCrcCnt).flag Reg.fabCalFlag 0x80000000).setRegN
    Reg.fabCalCrcLast detail) 4 detail 0 unit
  refine ⟨rs, he, ?count, ?flag⟩
  case count =>
    rw [Gw.crcRecorded, hr _ (by decide), regN_setRegN_ne _ _ (by decide), regN_flag_ne _ (by decide), regN_bump_same]
  case flag =>
    rw [Gw.crcRecorded, hr _ (by decide), regN_setRegN_ne _ _ (by decide)]
    exact bit_regN_flag_of_mask _ _ (by decide) (by decide)

/-! ### The start of a frame on the wire (R243, R281, R282) -/

theorem exec_macFrameStart {p : Nat} (hp : p < 14) (bad : Bool) (s : State) :
    exec (.macFrameStart ⟨p, bad⟩) s = .next (s.after (s.gw.macStart p bad)) :=
  congrArg (fun g => Host.Outcome.next (s.after g)) (if_neg (Nat.not_le.mpr hp))

theorem islOn_of_carries {g : Gw} {p : Nat} (h : g.carries p = true) : g.islOn (macIsland p) = true := by
  simp only [Gw.carries, Gw.linkUp, Bool.and_eq_true] at h
  obtain ⟨⟨⟨⟨⟨-, hon⟩, -⟩, -⟩, -⟩, -⟩ := h
  exact hon

/-- On a free wire a frame starts at its planned launch, or once it is staged if that is later, and preempts nothing. -/
theorem launchAt_of_free {g : Gw} {p : Nat} {j : MacJob}
    (h : (g.ethAt p).wireFree ≤ max (g.planned j.sel) (j.staged + g.txLat p)) :
    g.launchAt p j = (max (g.planned j.sel) (j.staged + g.txLat p), false) := if_pos h

/-- What is noted of the launch of a frame that is not reserved, slip and delay, are registers (R261, R262). -/
theorem noteLaunch_sampleDelay_shape (g : Gw) (p : Nat) {x : Sel} (t : Stamp) (h : x.reserved = false) :
    ∃ rs, (g.noteLaunch p x t).sampleDelay p x t = { g with regs := rs } := by
  have hnote : ∃ rs, g.noteLaunch p x t = { g with regs := rs } := by
    simp only [Gw.noteLaunch, h, Bool.and_false, Bool.false_eq_true, if_false]
    split
    · exact ⟨_, rfl⟩
    · exact ⟨g.regs, rfl⟩
  obtain ⟨rs, hnote⟩ := hnote
  rw [hnote]
  exact ⟨_, rfl⟩

/-- The port's record while frame `x` of `n` bytes is on the wire from `t` on, with `jobs` handed over behind it. -/
def Gw.onWireFrom (g : Gw) (p : Nat) (x : Sel) (t : Stamp) (n : Nat) : EthPort :=
  { g.ethAt p with
    wireFree := t + Int.ofNat (g.wireTime p t (n + 20))
    onWire := some { x with launch := t, ext := [] }
    wireLen := n }

/-- A frame that is not reserved and asks for no stamp takes the wire and goes out; the rest is registers. -/
theorem sendAt_plain (g : Gw) (p : Nat) {x : Sel} (t : Stamp) (bs : List Byte) (hres : x.reserved = false)
    (hts : x.copy.frame.tsTag = none) (hfw : x.copy.frame.fwTag = none)
    (hdef : bit g.undefEgress (macFabric p) = false) :
    ∃ rs, g.sendAt p x t false bs =
      ({ g with regs := rs }.setEth p (g.onWireFrom p x t bs.length)).emit (.ethFrame p t bs) := by
  have hbytes : g.shownBytes (macFabric p) bs = (bs, g) := by simp [Gw.shownBytes, hdef]
  obtain ⟨rs, hnote⟩ := noteLaunch_sampleDelay_shape g p t hres
  have hshown : ∀ h : Gw, h.shownLaunch x t = (t, h) := fun h => by simp [Gw.shownLaunch, hres]
  simp only [Gw.sendAt, hbytes, hnote, hshown, hts, hfw, Bool.false_and, Bool.false_eq_true, if_false]
  exact ⟨(({ g with regs := rs } : Gw).bump (Reg.ethTxOk p)).regs, rfl⟩

/-- A port without MACsec sends a frame as it is (R296). -/
theorem secTx_of_unprotected {g : Gw} {p : Nat} (h : g.secEn p = false) (sa : Option (Nat × Option (List Byte)))
    (bs : List Byte) (bad : Bool) : g.secTx p sa bs bad = (g, some bs) := by
  simp [Gw.secTx, h]

section
variable {g : Gw} {p : Nat} {j : MacJob} {rest : List MacJob} (hp : p < 14) (hjobs : (g.ethAt p).jobs = j :: rest)
  (hdue : (g.launchAt p j).1 - g.txLat p ≤ g.nowLast)
include hp hjobs hdue

/-- Without link the MAC discards the frame that is due and counts it (R272). -/
theorem macStart_linkDown (bad : Bool) (hon : g.islOn (macIsland p) = true) (hdown : g.carries p = false)
    (hts : j.sel.copy.frame.tsTag = none) :
    g.macStart p bad = (((g.setEth p { g.ethAt p with jobs := rest }).bump (Reg.ethTxLinkdn p)).flag (Reg.ethFlag p)
      0x40000000).unclaim j.sel.copy.fid := by
  simp [Gw.macStart, hjobs, Nat.not_le.mpr hp, hon, Int.not_lt.mpr hdue, hdown, discTs_of_untagged _ _ hts, Gw.ethFlag]

section
variable (hup : g.carries p = true) (hx : (g.ethAt p).xoffQueue = [])
  (hpause : g.pauseHolds p (g.launchAt p j).1 = false)
include hup hx hpause

/-- A frame above MAX_FRAME is discarded and counted (R282). -/
theorem macStart_above (bad : Bool)
    (hlong : g.maxFrame p < (g.txBytes p j.sel.copy.frame.body.bytes).length + 4)
    (hts : j.sel.copy.frame.tsTag = none) :
    g.macStart p bad =
      ((g.setEth p { g.ethAt p with jobs := rest }).bump (Reg.ethTxOver p)).unclaim j.sel.copy.fid := by
  simp [Gw.macStart, hjobs, Nat.not_le.mpr hp, islOn_of_carries hup, Int.not_lt.mpr hdue, hup, hx, hpause, hlong,
    discTs_of_untagged _ _ hts]

/-- Without MACsec any other starts, padded and with its FCS, and its claim on the cells ends (R105, R281). -/
theorem macStart_sent (bad : Bool) (hsec : g.secEn p = false)
    (hmax : (g.txBytes p j.sel.copy.frame.body.bytes).length + 4 ≤ g.maxFrame p) :
    g.macStart p bad = ((g.setEth p { g.ethAt p with jobs := rest }).sendAt p j.sel (g.launchAt p j).1
      (g.launchAt p j).2 (withFcs (g.txBytes p j.sel.copy.frame.body.bytes))).unclaim j.sel.copy.fid := by
  have hopen : ∀ x bs, (g.setEth p x).secTx p j.sel.sa bs bad = (g.setEth p x, some bs) := fun x bs =>
    secTx_of_unprotected (g := g.setEth p x) hsec _ _ _
  simp [Gw.macStart, hjobs, Nat.not_le.mpr hp, islOn_of_carries hup, Int.not_lt.mpr hdue, hup, hx, hpause,
    Nat.not_lt.mpr hmax, hopen]

end

end

/-- A start at stamp `t` of frame `bs` (its FCS not yet added) that the MAC does not delay, protect, stamp or discard. -/
structure PlainStart (g : Gw) (p : Nat) (j : MacJob) (t : Stamp) (bs : List Byte) : Prop where
  up : g.carries p = true
  noControl : (g.ethAt p).xoffQueue = []
  unprotected : g.secEn p = false
  launch : t = max (g.planned j.sel) (j.staged + g.txLat p)
  free : (g.ethAt p).wireFree ≤ t
  due : t - g.txLat p ≤ g.nowLast
  noPause : g.pauseHolds p t = false
  bytes : bs = g.txBytes p j.sel.copy.frame.body.bytes
  fits : bs.length + 4 ≤ g.maxFrame p
  unreserved : j.sel.reserved = false
  unstamped : j.sel.copy.frame.tsTag = none
  unheard : j.sel.copy.frame.fwTag = none
  defined : bit g.undefEgress (macFabric p) = false

/-- It goes out at `t`, the wire is taken for its bytes and 20 more, and its claim on the cells ends. -/
theorem macStart_plain {g : Gw} {p : Nat} {j : MacJob} {rest : List MacJob} {t : Stamp} {bs : List Byte} (hp : p < 14)
    (hjobs : (g.ethAt p).jobs = j :: rest) (hs : PlainStart g p j t bs) (bad : Bool) :
    ∃ h : Gw, g.macStart p bad = h.unclaim j.sel.copy.fid ∧ .ethFrame p t (withFcs bs) ∈ h.out ∧
      h.ethAt p = { g.onWireFrom p j.sel t (withFcs bs).length with jobs := rest } ∧
      (∀ q, q ≠ p → h.ethAt q = g.ethAt q) ∧ h.cal = g.cal ∧ h.egr = g.egr ∧ h.str = g.str := by
  obtain ⟨hup, hx, hsec, rfl, hfree, hdue, hpause, rfl, hmax, hres, hts, hfw, hdef⟩ := hs
  have hlaunch := launchAt_of_free hfree
  have hstart := macStart_sent hp hjobs (by rwa [hlaunch]) hup hx (by rwa [hlaunch]) bad hsec hmax
  obtain ⟨rs, hsend⟩ := sendAt_plain (g.setEth p { g.ethAt p with jobs := rest }) p
    (max (g.planned j.sel) (j.staged + g.txLat p)) (withFcs (g.txBytes p j.sel.copy.frame.body.bytes)) hres hts hfw hdef
  rw [hlaunch, hsend] at hstart
  refine ⟨_, hstart, List.mem_append_right _ (List.mem_singleton_self _), ?port, fun q hq => ?ports, rfl, rfl, rfl⟩
  case port =>
    refine (ethAt_setEth_same _ p _).trans ?_
    rw [Gw.onWireFrom, ethAt_setEth_same]
    rfl
  case ports =>
    refine (ethAt_setEth _ q p _).trans ((if_neg hq).trans ?_)
    exact (ethAt_setEth g q p _).trans (if_neg hq)

/-! ### The reads of a timestamp queue (R309) -/

section
variable {s : State} {q : Nat} (hq : q < 14) (hon : s.gw.islOn (macIsland q) = true)
include hq hon

theorem tsq_in_reach : (decide (q < 14) && s.gw.islOn (macIsland q)) = true := by
  rw [hon, decide_eq_true hq]
  rfl

theorem exec_tsqEnt0Read : exec (.tsqEnt0Read q) s = .next (s.after (s.gw.tsqRead0 q)) :=
  congrArg (fun g => Host.Outcome.next (s.after g)) (if_pos (tsq_in_reach hq hon))

theorem exec_tsqEnt3Read : exec (.tsqEnt3Read q) s = .next (s.after (s.gw.tsqRead3 q)) :=
  congrArg (fun g => Host.Outcome.next (s.after g)) (if_pos (tsq_in_reach hq hon))

end

/-- After a read of the first word, the read of the last removes the oldest entry. -/
theorem tsqRead3_armed {g : Gw} {q : Nat} (h : (g.ethAt q).tsArmed = true) :
    g.tsqRead3 q = (g.setEth q { g.ethAt q with tsArmed := false, tsq := (g.ethAt q).tsq.drop 1 }).emit
      (.readData (Reg.tsqEnt3 q) (w32 ((g.ethAt q).tsLatched.getD 3 0))) := by
  simp only [Gw.tsqRead3, h, if_true]

end Sys2Proof.Machine
end

section
/-! The statement on launches and timestamp queues. -/

namespace Sys2Proof.Machine

/-- Settles O15: the handover, the start or discard of a frame by its MAC, and the timestamp reads. -/
theorem launchAndTimestamps : Obligations.LaunchAndTimestamps := by
  refine ⟨?handover, ?crcFailed, ?sent, ?linkDown, ?above, ?firstWord, ?lastWord⟩
  case handover =>
    intro s f w rest hf hfab hon hwire hsel hstaged flip bad hsound
    refine ⟨leaveStage_selected hsel, ?_⟩
    rw [exec_stagedHandover hf hfab, handover_toMac hsel hstaged bad hwire hon hsound]
  case crcFailed =>
    intro s f i cell w rest hf hfab hsel hstaged hts flip bad hcell
    obtain ⟨rs, hfail, hcount, hflag⟩ := crcRecorded_effect (s.gw.setEgr f (s.gw.egrAt f).leaveStage)
      (f * 2 ^ 23 + i % 32 * 2 ^ 18 + cell % 262144) (0x100 + cell % 262144 / 16384)
    refine ⟨_, exec_stagedHandover (Nat.lt_trans hf (by decide)) hfab flip bad, ?_⟩
    rw [handover_crcFailed hsel hstaged bad hf hcell, crcFailed_of_untagged _ f i cell hts]
    obtain ⟨k, hun, -⟩ := unclaim_shape ((s.gw.setEgr f (s.gw.egrAt f).leaveStage).crcRecorded
      (f * 2 ^ 23 + i % 32 * 2 ^ 18 + cell % 262144) (0x100 + cell % 262144 / 16384)) w.copy.fid
    rw [hun]
    refine ⟨?selected, ?count, ?flag, ?eth, ?detected⟩
    case selected =>
      rw [egrAt_after, hfail]
      exact (congrArg EgrPort.selected (egrAt_setEgr_same s.gw f _)).trans (leaveStage_selected hsel)
    case count => exact (regN_after s _ (by decide)).trans hcount
    case flag => exact (congrArg (bit · 31) (regN_after s _ (by decide))).trans hflag
    case eth =>
      simp only [after_gw, interrupts_eth, hfail]
      rfl
    case detected =>
      simp only [after_gw, interrupts_detected, hfail]
      rfl
  case sent =>
    intro s p j rest t bs hp hjobs hup hx hsec ht hfree hdue hpause hbs hmax hres hts hfw hdef bad
    obtain ⟨h, hstart, hout, hport, hports, hcal, hegr, hstr⟩ := macStart_plain hp hjobs
      ⟨hup, hx, hsec, ht, hfree, hdue, hpause, hbs, hmax, hres, hts, hfw, hdef⟩ bad
    refine ⟨_, exec_macFrameStart hp bad s, ?_⟩
    rw [hstart]
    obtain ⟨k, hun, -⟩ := unclaim_shape h j.sel.copy.fid
    refine ⟨?out, ?port, ?cells, fun q hq => ?ports, ?egr, ?str⟩
    case out => exact mem_out_interrupts _ (by rw [hun]; exact hout)
    case port => rw [ethAt_after, hun]; exact hport
    case cells => rw [after_gw, interrupts_cal, unclaim_cal_congr hcal]
    case ports => rw [ethAt_after, hun]; exact hports q hq
    case egr => rw [after_gw, interrupts_egr, hun]; exact hegr
    case str => rw [after_gw, interrupts_str, hun]; exact hstr
  case linkDown =>
    intro s p j rest hp hon hjobs hdown hdue hts bad
    rw [exec_macFrameStart hp, macStart_linkDown hp hjobs hdue bad hon hdown hts]
  case above =>
    intro s p j rest hp hup hx hjobs hdue hpause hlong hts bad
    rw [exec_macFrameStart hp, macStart_above hp hjobs hdue hup hx hpause bad hlong hts]
  case firstWord =>
    intro s q hq hon
    rw [exec_tsqEnt0Read hq hon]
    rfl
  case lastWord =>
    intro s q hq hon harmed
    rw [exec_tsqEnt3Read hq hon, tsqRead3_armed harmed]

end Sys2Proof.Machine
end

section
/-! SUPPORT. The row of a change that is taken up in CONFIG: its effect at once, then its answer in the mailbox (R176, R552). -/

namespace Sys2Proof.Machine

@[simp] theorem reply_cat (g : Gw) (m st : Nat) (a : Stamp) (ws : List Nat) : (g.reply m st a ws).cat = g.cat := by
  obtain ⟨rs, ms, h, -⟩ := reply_shape g m st a ws
  rw [h]

section
variable {code m : Nat} {s : State} {eff : Nat → Stamp → State → State × Answer}
variable (h : s.gw.holds m code = true) (hs : s.gw.serving = false)

include h hs

/-- An effect that refuses the request with a status. -/
theorem changeRow_config_failWith {g : Gw} {st : Nat} (hf : eff m 0 s = (s.withGw g, failWith st)) :
    answer (changeRow code eff m) s = .next (s.after (g.reply m st 0 [])) := by
  refine answer_of_withGw ?_
  rw [changeRow_config eff h hs, hf]
  rfl

/-- An effect that answers with words at once. -/
theorem changeRow_config_words {t : State} {ws : List Nat} (hf : eff m 0 s = (t, { words := ws })) :
    ∃ u, answer (changeRow code eff m) s = .next u ∧ u.gw.cat = t.gw.cat ∧ u.dram = t.dram ∧
      (u.gw.mbxAt m).st = .done := by
  refine ⟨_, rfl, ?cat, ?dram, ?mailbox⟩ <;> rw [changeRow_config eff h hs, hf]
  case cat => exact (interrupts_cat _ _).trans (reply_cat _ _ _ _ _)
  case dram => rfl
  case mailbox =>
    rw [Gw.mbxAt, interrupts_mbx]
    exact reply_mbx_st _ _ _ _ _

/-- An effect that leaves the reply to a later event. -/
theorem changeRow_config_later {t : State} (hf : eff m 0 s = (t, { later := true })) :
    ∃ u, answer (changeRow code eff m) s = .next u ∧ u.gw.cat = t.gw.cat := by
  refine ⟨_, rfl, ?_⟩
  rw [changeRow_config eff h hs, hf]
  exact interrupts_cat _ _

end

end Sys2Proof.Machine
end

section
/-! SUPPORT. An entry that enters or leaves its slot: what its command changes of the catalogue and of DRAM, and
that parameters stay (R140, R141, R145, R179, R180). -/

namespace Sys2Proof.Machine

theorem vitCopy_congr {g h : Gw} (e : h.params = g.params) (p i : Nat) : h.vitCopy p i = g.vitCopy p i := by
  unfold Gw.vitCopy Gw.vitOff Gw.vitAddr Gw.partBase Gw.regionBase Gw.regionMib
  simp only [param_congr e]

/-! ### The errors that a lookup meets (R145) -/

theorem slotError_cat (g : Gw) (i : Nat) : (g.slotError i).cat = g.cat := by
  unfold Gw.slotError Gw.detect Gw.spoil
  split
  · rfl
  · split <;> rfl

theorem dropEntry_slots (g : Gw) (p i : Nat) (e : Entry) : (g.dropEntry p i e).cat.slots = merase g.cat.slots i := by
  unfold Gw.dropEntry
  dsimp only
  split <;> rfl

theorem dropEntry_serial (g : Gw) (p i : Nat) (e : Entry) : (g.dropEntry p i e).cat.serial = g.cat.serial := by
  unfold Gw.dropEntry
  dsimp only
  split <;> rfl

theorem dropEntry_params (g : Gw) (p i : Nat) (e : Entry) : (g.dropEntry p i e).params = g.params := by
  unfold Gw.dropEntry
  dsimp only
  split <;> rfl

/-- Entries in error go without a serial. -/
theorem noteEcc_serial (g : Gw) (p key : Nat) : (g.noteEcc p key).cat.serial = g.cat.serial := by
  unfold Gw.noteEcc
  dsimp only
  split
  · rfl
  · rw [foldl_same (fun g : Gw => g.cat.serial) (fun g i => by rw [dropEntry_serial, slotError_cat])]
    rfl

/-! ### What goes with an entry (R152, R212, R329, R526) -/

/-- Routes, SAs and freshness that go with an entry lie outside the catalogue and the parameters. -/
theorem entryGone_frame (g : Gw) (p i : Nat) (e : Entry) :
    (g.entryGone p i e).cat = g.cat ∧ (g.entryGone p i e).params = g.params := by
  unfold Gw.entryGone Gw.dropSa
  dsimp only
  split
  · split
    · split <;> exact ⟨rfl, rfl⟩
    · exact ⟨rfl, rfl⟩
  · split
    · split <;> exact ⟨rfl, rfl⟩
    · exact ⟨rfl, rfl⟩

theorem loadFilter_frame (g : Gw) (i : Nat) (e : Entry) :
    (g.loadFilter i e).cat = g.cat ∧ (g.loadFilter i e).params = g.params := by
  unfold Gw.loadFilter
  dsimp only
  split <;> exact ⟨rfl, rfl⟩

theorem loadSa_frame (g : Gw) (e : Entry) : (g.loadSa e).cat = g.cat ∧ (g.loadSa e).params = g.params := by
  unfold Gw.loadSa
  split <;> exact ⟨rfl, rfl⟩

theorem startFresh_frame (g : Gw) (c : Bool) (i : Nat) (e : Entry) :
    (g.startFresh c i e).cat = g.cat ∧ (g.startFresh c i e).params = g.params := by
  unfold Gw.startFresh
  dsimp only
  split
  · split <;> exact ⟨rfl, rfl⟩
  · split <;> exact ⟨rfl, rfl⟩

theorem armTimeout_frame (g : Gw) (i : Nat) (r : Route) (t : Stamp) :
    (g.armTimeout i r t).cat = g.cat ∧ (g.armTimeout i r t).params = g.params := by
  unfold Gw.armTimeout
  split <;> exact ⟨rfl, rfl⟩

/-- Routes, SAs and freshness that come with an entry lie outside the catalogue and the parameters. -/
theorem entryCame_frame (g : Gw) (p i : Nat) (e : Entry) (t : Stamp) :
    (g.entryCame p i e t).cat = g.cat ∧ (g.entryCame p i e t).params = g.params := by
  unfold Gw.entryCame
  split
  · split
    · exact armTimeout_frame g i _ t
    · exact ⟨rfl, rfl⟩
  · split
    · split
      · exact loadSa_frame g e
      · obtain ⟨hcat, hparams⟩ := loadFilter_frame (if g.str.run then g.startFresh false i e else g) i e
        rw [hcat, hparams]
        split
        · exact startFresh_frame g false i e
        · exact ⟨rfl, rfl⟩
    · exact ⟨rfl, rfl⟩

/-! ### An entry written into its slot (R141, R179) -/

theorem putEntry_frame (g : Gw) (i : Nat) (e : Entry) :
    (g.putEntry i e).cat.slots = mset g.cat.slots i e ∧ (g.putEntry i e).cat.serial = g.cat.serial ∧
      (g.putEntry i e).params = g.params := by
  unfold Gw.putEntry
  dsimp only
  split <;> exact ⟨rfl, rfl, rfl⟩

theorem takeCap_frame (g : Gw) (p : Nat) (e : Entry) :
    (g.takeCap p e).cat.slots = g.cat.slots ∧ (g.takeCap p e).cat.serial = g.cat.serial ∧
      (g.takeCap p e).params = g.params := by
  unfold Gw.takeCap
  split <;> exact ⟨rfl, rfl, rfl⟩

/-- An entry written with its port's count and what comes with it. -/
theorem written_frame (g : Gw) (p i : Nat) (e : Entry) (t : Stamp) :
    (((g.putEntry i e).takeCap p e).entryCame p i e t).cat.slots = mset g.cat.slots i e ∧
      (((g.putEntry i e).takeCap p e).entryCame p i e t).cat.serial = g.cat.serial ∧
      (((g.putEntry i e).takeCap p e).entryCame p i e t).params = g.params := by
  obtain ⟨hcat, hparams⟩ := entryCame_frame ((g.putEntry i e).takeCap p e) p i e t
  obtain ⟨hslots, hserial, hparams'⟩ := takeCap_frame (g.putEntry i e) p e
  rw [hcat, hparams, hslots, hserial, hparams']
  exact putEntry_frame g i e

/-- An entry replaced in place keeps ACC_SEQ, HIT and STRIKE and takes no serial. -/
theorem updateEntry_frame (g : Gw) (p i : Nat) (old e : Entry) (t : Stamp) :
    (g.updateEntry p i old e t).cat.slots =
        mset g.cat.slots i { e with accSeq := old.accSeq, hit := old.hit, strike := old.strike } ∧
      (g.updateEntry p i old e t).cat.serial = g.cat.serial := by
  unfold Gw.updateEntry
  dsimp only
  obtain ⟨hslots, hserial, -⟩ := written_frame
    ((if tableOf p = 0 && !old.static then g.unlearn old.port else g).entryGone p i old) p i
    { e with accSeq := old.accSeq, hit := old.hit, strike := old.strike } t
  rw [hslots, hserial, (entryGone_frame _ p i old).1]
  split <;> exact ⟨rfl, rfl⟩

/-- A new entry takes the partition's next serial. -/
theorem newEntry_frame (g : Gw) (p i : Nat) (e : Entry) (t : Stamp) :
    (g.newEntry p i e t).cat.slots = mset g.cat.slots i { e with accSeq := mgetD g.cat.serial p 0 } ∧
      mgetD (g.newEntry p i e t).cat.serial p 0 = mgetD g.cat.serial p 0 + 1 ∧
      (g.newEntry p i e t).params = g.params := by
  obtain ⟨hslots, hserial, hparams⟩ := written_frame (g.takeSerial p).2 p i
    { e with accSeq := mgetD g.cat.serial p 0 } t
  exact ⟨hslots, (congrArg (mgetD · p 0) hserial).trans (mgetD_mset_same _ _ _ _), hparams⟩

/-! ### Where an insertion goes (R179, R595) -/

section
variable {g : Gw} {p : Nat} {e : Entry} {replace : Bool} {t : Stamp}

theorem insert_badArg (h : g.entryOk p e = false) : g.insert p e replace t = .error stBadArg := by
  simp [Gw.insert, h]

theorem insert_noRoom (h : g.entryOk p e = true)
    (hfull : g.tableFull p e = true ∨ g.capReached p ((g.find p (e.key (tableOf p))).map (·.2)) e = true) :
    g.insert p e replace t = .error stNoRoom := by
  simp [Gw.insert, h, hfull]

theorem insert_found {i : Nat} {old : Entry} (h : g.entryOk p e = true) (hfull : g.tableFull p e = false)
    (hcap : g.capReached p (some old) e = false) (hfind : g.find p (e.key (tableOf p)) = some (i, old)) :
    g.insert p e replace t = .ok (g.updateEntry p i old e t, i, 1) := by
  simp [Gw.insert, h, hfull, hcap, hfind]

theorem insert_free {i : Nat} (h : g.entryOk p e = true) (hfull : g.tableFull p e = false)
    (hcap : g.capReached p none e = false) (hfind : g.find p (e.key (tableOf p)) = none)
    (hfree : g.freeSlot (g.bucketSlots p (e.key (tableOf p))) = some i) :
    g.insert p e replace t = .ok (g.newEntry p i e t, i, 0) := by
  simp [Gw.insert, h, hfull, hcap, hfind, hfree]

end

/-! ### CAT_INSERT and CAT_DELETE (R180, R184, R594–R596) -/

/-- DRAM after an entry was written into slot `i` of `h`: its vitrine copy follows where one is asked for (R184). -/
def copiedDram (d : List Host.Cell) (h : Gw) (p i : Nat) (vit : Bool) : List Host.Cell :=
  match (if vit then h.vitCopy p i else none) with
  | some a => dramWrite d a ((mgetD h.cat.slots i {}).bytes p)
  | none => d

theorem copiedDram_plain (d : List Host.Cell) (h : Gw) (p i : Nat) : copiedDram d h p i false = d := rfl

theorem copiedDram_vitrine (d : List Host.Cell) {h : Gw} {p i a : Nat} (ha : h.vitCopy p i = some a) :
    copiedDram d h p i true = dramWrite d a ((mgetD h.cat.slots i {}).bytes p) := by
  simp [copiedDram, ha]

/-- A partition of the catalogue, with a vitrine if one is asked for, passes the row's check of its arguments. -/
theorem insertArgs_ok {g : Gw} {p : Nat} {vit : Bool} (hp11 : p ≤ 11) (hvit : vit = false ∨ g.vitOff p ≠ none) :
    ¬(decide (11 < p) || vit && (g.vitOff p).isNone) = true := by
  rcases hvit with hv | hv <;> simp [hv, hp11]

section
variable {s : State} {m p : Nat} {e : Entry} {t : Stamp} (hp : p = bits (s.gw.arg m 0) 3 0) (hp11 : p ≤ 11)
variable (hvit : bit (s.gw.arg m 0) 9 = false ∨ s.gw.vitOff p ≠ none)
variable (he : e = s.gw.bodyEntry m p (decide (4 ≤ p) || bit (s.gw.arg m 0) 10))

include hp hp11 hvit he

/-- The insertion is made in the module that its lookup leaves, and a refusal changes nothing else. -/
theorem catInsert_error {st : Nat}
    (h : (s.gw.noteEcc p (e.key (tableOf p))).insert p e (bit (s.gw.arg m 0) 8) t = .error st) :
    catInsert m t s = (s.withGw (s.gw.noteEcc p (e.key (tableOf p))), failWith st) := by
  unfold catInsert
  dsimp only
  rw [← hp, ← he, if_neg (insertArgs_ok hp11 hvit), Gw.probe, h]

theorem catInsert_ok {h : Gw} {i result : Nat}
    (hok : (s.gw.noteEcc p (e.key (tableOf p))).insert p e (bit (s.gw.arg m 0) 8) t = .ok (h, i, result)) :
    catInsert m t s =
      ({ s with gw := h, dram := copiedDram s.dram h p i (bit (s.gw.arg m 0) 9 && e.static) },
        { words := [i, result] }) := by
  unfold catInsert
  dsimp only
  rw [← hp, ← he, if_neg (insertArgs_ok hp11 hvit), Gw.probe, hok]
  rfl

end

/-- DRAM after the entry of a slot was deleted: its vitrine copy reads 0 (R180). -/
def clearedDram (d : List Host.Cell) (copy : Option Nat) : List Host.Cell :=
  match copy with
  | some a => dramWrite d a (List.replicate 64 0)
  | none => d

/-- An entry deleted: what goes with it, then its slot; no serial is taken and no parameter changes. -/
theorem deleted_frame (g : Gw) (p i : Nat) (e : Entry) :
    ((g.entryGone p i e).dropEntry p i e).cat.slots = merase g.cat.slots i ∧
      ((g.entryGone p i e).dropEntry p i e).cat.serial = g.cat.serial ∧
      ((g.entryGone p i e).dropEntry p i e).params = g.params := by
  obtain ⟨hcat, hparams⟩ := entryGone_frame g p i e
  rw [dropEntry_slots, dropEntry_serial, dropEntry_params, hcat, hparams]
  exact ⟨rfl, rfl, rfl⟩

section
variable {s : State} {m p key : Nat} {t : Stamp} (hp : p = bits (s.gw.arg m 0) 3 0) (hp11 : p ≤ 11)
variable (hkey : key = s.gw.keyArg m p)

include hp hp11 hkey

theorem catDelete_found {i : Nat} {e : Entry} (h : (s.gw.noteEcc p key).find p key = some (i, e)) :
    catDelete m t s =
      ({ s with gw := ((s.gw.noteEcc p key).entryGone p i e).dropEntry p i e
                dram := clearedDram s.dram ((s.gw.noteEcc p key).vitCopy p i) }, { words := [i] }) := by
  rw [← vitCopy_congr (deleted_frame (s.gw.noteEcc p key) p i e).2.2]
  unfold catDelete Gw.probe
  dsimp only
  rw [← hp, ← hkey, if_neg (Nat.not_lt.mpr hp11), h]
  rfl

theorem catDelete_notFound (h : (s.gw.noteEcc p key).find p key = none) :
    catDelete m t s = (s.withGw (s.gw.noteEcc p key), failWith stNotFound) := by
  unfold catDelete Gw.probe
  dsimp only
  rw [← hp, ← hkey, if_neg (Nat.not_lt.mpr hp11), h]

end

end Sys2Proof.Machine
end

section
/-! The statements on the catalogue's commands. -/

namespace Sys2Proof.Machine

/-- Settles O31: an insertion is refused, updates the entry under its key in place or fills the lowest free slot; a deletion
frees the slot and zeroes its vitrine copy. -/
theorem catalogueWrites : Obligations.CatalogueWrites := by
  refine ⟨?insert, ?delete⟩
  case insert =>
    rintro s m p e _ hholds hconfig hp hp11 hvit he rfl
    refine ⟨fun hok => ?badArg, fun hok hfull => ?noRoom, fun i old hok hfull hcap hfind => ?found,
      fun i hok hfull hcap hfind hfree => ?free⟩
    case badArg =>
      exact changeRow_config_failWith hholds hconfig (catInsert_error hp hp11 hvit he (insert_badArg hok))
    case noRoom =>
      exact changeRow_config_failWith hholds hconfig (catInsert_error hp hp11 hvit he (insert_noRoom hok hfull))
    case found =>
      obtain ⟨t, hexec, hcat, hdram, hdone⟩ := changeRow_config_words (code := 0x0303) hholds hconfig
        (catInsert_ok hp hp11 hvit he (insert_found hok hfull hcap hfind))
      obtain ⟨hslots, hserial⟩ := updateEntry_frame (s.gw.noteEcc p (e.key (tableOf p))) p i old e 0
      refine ⟨t, hexec, by rw [hcat]; exact hslots, by rw [hcat]; exact hserial, hdone, fun hplain => ?_⟩
      rw [hplain, Bool.false_and, copiedDram_plain] at hdram
      exact hdram
    case free =>
      obtain ⟨t, hexec, hcat, hdram, hdone⟩ := changeRow_config_words (code := 0x0303) hholds hconfig
        (catInsert_ok hp hp11 hvit he (insert_free hok hfull hcap hfind hfree))
      obtain ⟨hslots, hserial, hparams⟩ := newEntry_frame (s.gw.noteEcc p (e.key (tableOf p))) p i e 0
      refine ⟨t, hexec, by rw [hcat]; exact hslots, by rw [hcat]; exact hserial, hdone, fun hbit hstatic a ha => ?_⟩
      have hcopy : (bit (s.gw.arg m 0) 9 && e.static) = true := by rw [hbit, hstatic, Bool.and_self]
      rw [hcopy] at hdram
      refine hdram.trans ?_
      rw [copiedDram_vitrine _ ((vitCopy_congr hparams p i).trans ha), hslots, mgetD_mset_same]
  case delete =>
    rintro s m p key _ hholds hconfig hp hp11 hkey rfl
    refine ⟨fun i e hfind => ?found, fun hfind => ?notFound⟩
    case found =>
      obtain ⟨t, hexec, hcat, hdram, hdone⟩ := changeRow_config_words (code := 0x0304) hholds hconfig
        (catDelete_found hp hp11 hkey hfind)
      obtain ⟨hslots, hserial, -⟩ := deleted_frame (s.gw.noteEcc p key) p i e
      exact ⟨t, hexec, by rw [hcat]; exact hslots, by rw [hcat]; exact hserial.trans (noteEcc_serial _ _ _), hdone,
        hdram⟩
    case notFound =>
      exact changeRow_config_failWith hholds hconfig (catDelete_notFound hp hp11 hkey hfind)

/-- A module in CONFIG under the default partitions, which end below index 131,072. Its slot 131,072 holds a dynamic entry
that names port 0, the parameter of a partition 15 that does not exist covers the slot, and mailbox 0 holds a taken-up
CAT_FLUSH_PORT of all T0 partitions (PART 15) and port 0. -/
def entryOutsidePartitions : State :=
  { gw := { fw := { state := .config }, mbx := [(0, { st := .busy, taken := true })]
            regs := [(mbxOff 0 0, 0x03050000), (mbxOff 0 4, 0xF)]
            params := [(Par.catPart 15, 2 ^ 49 + 1)], cat := { slots := [(131072, {})] } }
    dram := [], pending := [] }

/-- Refutes O32: for PART 15, all four T0 partitions (R181), the statement also counts a partition of number 15 among those
flushed. The flush takes partitions 0 to 3 alone, and does not hide an entry that only parameter 0x030F would cover. -/
theorem not_flushes : ¬ Obligations.Flushes := by
  rintro ⟨hport, -⟩
  have hholds : entryOutsidePartitions.gw.holds 0 0x0305 = true := by decide +kernel
  have hpart : bits (entryOutsidePartitions.gw.arg 0 0) 3 0 = 15 := by decide +kernel
  have hnone : (catFlushPort 0 0 entryOutsidePartitions.gw).1.cat.flushes = [⟨some 0, 0, [], 0⟩] := by decide +kernel
  have hlater : (catFlushPort 0 0 entryOutsidePartitions.gw).2 = { later := true } := by decide +kernel
  have hrange : entryOutsidePartitions.gw.partBase 15 ≤ 131072 ∧
      131072 < entryOutsidePartitions.gw.partBase 15 + entryOutsidePartitions.gw.partSize 15 := by decide +kernel
  obtain ⟨t, x, hexec, hflushes, -, -, -, hhidden⟩ := hport entryOutsidePartitions 0 15 0 hholds rfl hpart.symm
    (by decide +kernel) (.inr rfl) (by decide) (by decide)
  obtain ⟨u, hu, hcat⟩ := changeRow_config_later hholds rfl (eff := effAt catFlushPort)
    (Prod.ext rfl hlater : effAt catFlushPort 0 0 entryOutsidePartitions = (_, { later := true }))
  obtain rfl := Host.Outcome.next.inj (hu.symm.trans hexec)
  have hx : [x] = [⟨some 0, 0, [], 0⟩] := by rw [← hnone]; exact (hflushes.symm.trans (by rw [hcat]; rfl))
  obtain rfl := List.singleton_inj.mp hx
  exact List.not_mem_nil ((hhidden 131072).mpr
    ⟨{}, 15, by decide, rfl, .inl rfl, hrange.1, hrange.2, .inl ⟨rfl, by decide +kernel⟩⟩)

end Sys2Proof.Machine
end

section
/-! SUPPORT. The internal events of the signal router: a cyclic expiry (R205), a transmission event (R207–R209) and the expiry of
a timeout (R213). -/

namespace Sys2Proof.Machine

/-! ### The transmission of a PDU (R208, R209) -/

/-- A transmission at or after the scheduled event, if there is one, leaves none. -/
theorem transmitPdu_eventless {g : Gw} {p : Pdu} {t : Stamp} (k : Nat) (h : ∀ e, p.event = some e → e ≤ t) :
    g.transmitPdu k p t =
      ((g.setPdu k { p with gapRef := t, event := none }).admitNew (pduFrame p t g.str.relSeg)
        [{ port := 13, cls := p.desc.cls }] t).1.bump Reg.sigPduTxCnt := by
  have hnone : p.event.bind (fun e => if e ≤ t then none else some e) = none :=
    Option.bind_eq_none_iff.mpr fun e he => if_pos (h e he)
  unfold Gw.transmitPdu
  dsimp only
  rw [hnone]
  rfl

/-- A cyclic expiry without a scheduled event sends the PDU and moves its cyclic time alone. -/
theorem cyclicExpiry_eventless {g : Gw} {p : Pdu} (k : Nat) (t : Stamp) (h : p.event = none) :
    g.cyclicExpiry k p t =
      ((g.setPdu k { p with nextCyc := some (t + 8000000 * Int.ofNat p.desc.periodMs), gapRef := t }).admitNew
        (pduFrame p t g.str.relSeg) [{ port := 13, cls := p.desc.cls }] t).1.bump Reg.sigPduTxCnt := by
  rw [h]
  exact transmitPdu_eventless k fun e he => absurd (h.symm.trans he) (Option.some_ne_none e).symm

/-! ### The expiry of a timeout (R213) -/

/-- A timeout slot marked TIMED_OUT, counted and flagged. -/
def Gw.markTimedOut (g : Gw) (n : Nat) (ts : TimeoutSlot) : Gw :=
  ((g.setTmo n { ts with deadline := none, timedOut := true }).bump Reg.sigTmoCnt).flag Reg.sigFlag 0x20000000

/-- What an expiry does when its route stands in the catalogue: only mode 1 writes the substitute value. -/
theorem expireTimeout_route {g : Gw} {ts : TimeoutSlot} {e : Entry} (n : Nat) (t : Stamp)
    (h : mget? g.cat.slots ts.route = some e) :
    g.expireTimeout n ts t =
      if (routeOf e).tmoMode = 1 then
        (g.markTimedOut n ts).routeWrite (routeOf e) ((routeOf e).subst % 2 ^ (routeOf e).dlen) t
      else g.markTimedOut n ts := by
  have hcat : mget? (g.markTimedOut n ts).cat.slots ts.route = some e := h
  unfold Gw.expireTimeout
  dsimp only
  rw [← Gw.markTimedOut, hcat]

/-! ### The event that is due -/

section
variable {s : State} {d : Due}

theorem exec_composerCyclicExpiry {k : Nat} {p : Pdu} (hd : s.gw.readyDue s.dram = some d) (he : d.ev = .composer k)
    (hp : mget? s.gw.rtr.pdus k = some p) :
    exec .composerCyclicExpiry s = .next (s.after (s.gw.cyclicExpiry k p d.t)) := by
  refine answer_of_withGw ?_
  simp only [composerCyclic, hd, he, hp]

theorem exec_pduTransmissionEvent {k : Nat} {p : Pdu} (hd : s.gw.readyDue s.dram = some d) (he : d.ev = .pduEvent k)
    (hp : mget? s.gw.rtr.pdus k = some p) :
    exec .pduTransmissionEvent s = .next (s.after (s.gw.transmitPdu k p d.t)) := by
  refine answer_of_withGw ?_
  simp only [pduEvent, hd, he, hp]

theorem exec_signalTimeout {n : Nat} {ts : TimeoutSlot} (hd : s.gw.readyDue s.dram = some d) (he : d.ev = .timeout n)
    (hts : mget? s.gw.rtr.slots n = some ts) :
    exec .signalTimeout s = .next (s.after (s.gw.expireTimeout n ts d.t)) := by
  refine answer_of_withGw ?_
  simp only [signalTimeout, hd, he, hts]

end

end Sys2Proof.Machine
end

section
/-! SUPPORT. The commands of the signal router: the ranges of a PDU's descriptor (R204), SIG_PDU_SET and SIG_PDU_GET (R598–R600), and
the REROUTED flags (R215, R216, R601). -/

namespace Sys2Proof.Machine

/-! ### Replies at once in CONFIG -/

@[simp] theorem reply_rtr (g : Gw) (m st : Nat) (a : Stamp) (ws : List Nat) : (g.reply m st a ws).rtr = g.rtr := by
  obtain ⟨rs, ms, h, -⟩ := reply_shape g m st a ws
  rw [h]

theorem effAt_of_eq {f : Nat → Stamp → Gw → Gw × Answer} {m : Nat} {t : Stamp} {s : State} {g : Gw} {a : Answer}
    (h : f m t s.gw = (g, a)) : effAt f m t s = (s.withGw g, a) := by
  unfold effAt
  rw [h]

/-- An effect on the module that answers with words: exactly its change and the reply. -/
theorem changeRow_config_reply {code m : Nat} {s : State} {f : Nat → Stamp → Gw → Gw × Answer} {g : Gw} {ws : List Nat}
    (h : s.gw.holds m code = true) (hs : s.gw.serving = false) (hf : f m 0 s.gw = (g, { words := ws })) :
    answer (changeRow code (effAt f) m) s = .next (s.after (g.reply m 0 0 ws)) := by
  refine answer_of_withGw ?_
  rw [changeRow_config _ h hs, effAt_of_eq hf]
  rfl

/-! ### The ranges of a descriptor (R204) -/

theorem pduDesc_maxLen_le (d : PduDesc) : d.maxLen ≤ 2048 := by
  have hcan : ∀ n : Nat, [8, 64, 64, 2048].getD n 8 ≤ 2048
    | 0 | 1 | 2 | 3 | _ + 4 => by simp
  unfold PduDesc.maxLen
  split
  · exact hcan d.fmt
  · split <;> decide

theorem pduDesc_ok_iff (d : PduDesc) :
    d.ok = true ↔ d.bus ≤ 45 ∧ 1 ≤ d.len ∧ d.len ≤ d.maxLen ∧ d.phaseMs < max 1 d.periodMs := by
  simp [PduDesc.ok, and_assoc]

/-! ### SIG_PDU_SET (R205, R598, R599) -/

/-- The PDU that a request defines, started at a stamp. -/
def Gw.pduStarted (g : Gw) (m : Nat) (t : Stamp) : Pdu :=
  ({ desc := g.pduArg m, en := bit (g.arg m 0) 31, content := [], enable := t, gapRef := t } : Pdu).startAt t

theorem sigPduSet_badRange {g : Gw} {m : Nat} (t : Stamp) (h : (g.pduArg m).ok = false) :
    sigPduSet m t g = (g, failWith stBadArg) := by
  simp [sigPduSet, h]

/-- A request within the ranges is decided by the room in the data RAM alone. -/
theorem sigPduSet_inRange {g : Gw} {m : Nat} (t : Stamp) (hok : (g.pduArg m).ok = true)
    (hinit : bits (g.arg m 7) 9 0 ≤ 976) (hsealed : g.sealedLenOk (g.pduArg m) = true)
    (hroutes : g.routesFit (bits (g.arg m 0) 11 0) (g.pduArg m).len = true) :
    sigPduSet m t g =
      if 262144 < g.pduRam (bits (g.arg m 0) 11 0) + 8 * ceilDiv (g.pduArg m).len 8 then (g, failWith stNoRoom)
      else (g.setPdu (bits (g.arg m 0) 11 0) (g.pduStarted m t), {}) := by
  simp [sigPduSet, Gw.pduStarted, hok, hinit, hsealed, hroutes]

/-! ### SIG_PDU_GET (R600) -/

/-- PDU `k` as it is read: the descriptor, how many bytes follow, and the content from byte `off` on. -/
def Pdu.readWords (p : Pdu) (k off : Nat) : List Nat :=
  p.desc.words k p.en ++ [min 976 (p.desc.len - off)] ++ byteWords (slice p.content off (min 976 (p.desc.len - off)))

theorem sigPduGet_undefined {g : Gw} {m : Nat} (t : Stamp) (h : mget? g.rtr.pdus (bits (g.arg m 0) 11 0) = none) :
    sigPduGet m t g = (g, failWith stNotFound) := by
  simp [sigPduGet, h]

theorem sigPduGet_defined {g : Gw} {m : Nat} {p : Pdu} (t : Stamp) (h : mget? g.rtr.pdus (bits (g.arg m 0) 11 0) = some p)
    (hoff : bits (g.arg m 1) 10 0 < p.desc.len) :
    sigPduGet m t g = (g, { words := p.readWords (bits (g.arg m 0) 11 0) (bits (g.arg m 1) 10 0) }) := by
  simp [sigPduGet, Pdu.readWords, h, Nat.not_le.mpr hoff]

/-! ### One bit of a number -/

/-- A power of two added where its bit is clear sets that bit alone. -/
theorem bit_add_two_pow {v b : Nat} (h : bit v b = false) (i : Nat) :
    bit (v + 2 ^ b) i = if i = b then true else bit v i := by
  simp only [bit] at h ⊢
  rcases Nat.lt_trichotomy i b with hi | rfl | hi
  · rw [if_neg hi.ne, Nat.add_comm, Nat.testBit_two_pow_add_gt hi]
  · rw [if_pos rfl, Nat.add_comm, Nat.testBit_two_pow_add_eq, h, Bool.not_false]
  · obtain ⟨j, rfl⟩ := Nat.exists_eq_add_of_le' hi
    have heven : v / 2 ^ b % 2 ≠ 1 := by
      rw [Nat.testBit_eq_decide_div_mod_eq] at h
      exact of_decide_eq_false h
    have hupper : (v + 2 ^ b) / 2 ^ (b + 1) = v / 2 ^ (b + 1) := by
      rw [Nat.pow_succ, ← Nat.div_div_eq_div_mul, ← Nat.div_div_eq_div_mul, Nat.add_div_right _ (Nat.two_pow_pos b)]
      omega
    rw [if_neg hi.ne', Nat.testBit_add, hupper, ← Nat.testBit_add]

/-- A power of two taken away where its bit is set clears that bit alone. -/
theorem bit_sub_two_pow {v b : Nat} (h : bit v b = true) (i : Nat) :
    bit (v - 2 ^ b) i = if i = b then false else bit v i := by
  have hadd : v - 2 ^ b + 2 ^ b = v := Nat.sub_add_cancel (Nat.ge_two_pow_of_testBit h)
  have hclear : bit (v - 2 ^ b) b = false := by
    have hflip := Nat.testBit_two_pow_add_eq (v - 2 ^ b) b
    rw [Nat.add_comm, hadd] at hflip
    rw [bit, ← Bool.not_eq_true', ← hflip]
    exact h
  split
  · next hi => rw [hi, hclear]
  · next hi => rw [← (bit_add_two_pow hclear i).trans (if_neg hi), hadd]

/-! ### SIG_ALT_SET and the REROUTED flags (R215, R216, R601) -/

/-- A flag is set in the router's word of flags, the rest of the router staying. -/
theorem setRerouted_rtr (g : Gw) (b : Nat) (v : Bool) (t : Stamp) :
    (g.setRerouted b v t).rtr = { g.rtr with rerouted := (g.setRerouted b v t).rtr.rerouted } := by
  unfold Gw.setRerouted
  split <;> rfl

theorem bit_setRerouted (g : Gw) (b : Nat) (v : Bool) (t : Stamp) (i : Nat) :
    bit (g.setRerouted b v t).rtr.rerouted i = if i = b then v else bit g.rtr.rerouted i := by
  unfold Gw.setRerouted
  split
  · next hsame =>
    split
    · next hi => rw [hi, hsame]
    · rfl
  · next hchange =>
    cases v with
    | true => exact bit_add_two_pow (Bool.eq_false_of_not_eq_true hchange) i
    | false => exact bit_sub_two_pow (Bool.eq_true_of_not_eq_false hchange) i

/-- The buses of a list take their flags of `val`. -/
def Gw.rerouteTo (g : Gw) (val : Nat) (t : Stamp) (l : List Nat) : Gw :=
  l.foldl (fun g b => g.setRerouted b (bit val b) t) g

theorem rerouteTo_rtr (val : Nat) (t : Stamp) (l : List Nat) (g : Gw) :
    (g.rerouteTo val t l).rtr = { g.rtr with rerouted := (g.rerouteTo val t l).rtr.rerouted } := by
  induction l generalizing g with
  | nil => rfl
  | cons b r ih =>
    have htail := ih (g.setRerouted b (bit val b) t)
    rw [setRerouted_rtr] at htail
    exact htail

theorem bit_rerouteTo (val : Nat) (t : Stamp) (i : Nat) (l : List Nat) (g : Gw) :
    bit (g.rerouteTo val t l).rtr.rerouted i = if i ∈ l then bit val i else bit g.rtr.rerouted i := by
  induction l generalizing g with
  | nil => simp [Gw.rerouteTo]
  | cons b r ih =>
    rw [Gw.rerouteTo, List.foldl_cons, ← Gw.rerouteTo, ih, bit_setRerouted]
    by_cases hb : i = b
    · simp [hb]
    · simp [hb]

/-- Flags of the 46 buses stay flags of the 46 buses. -/
theorem rerouteTo_lt {g : Gw} (mask val : Nat) (t : Stamp) (h : g.rtr.rerouted < 2 ^ 46) :
    (g.rerouteTo val t (bitList 46 mask)).rtr.rerouted < 2 ^ 46 := by
  refine Nat.lt_pow_two_of_testBit _ fun i hi => (bit_rerouteTo val t i (bitList 46 mask) g).trans ?_
  rw [if_neg fun hmem => absurd (mem_bitList.mp hmem).1 (Nat.not_lt.mpr hi)]
  exact Nat.testBit_lt_two_pow (h.trans_le (Nat.pow_le_pow_right (by decide) hi))

theorem sigAltSet_eq (m : Nat) (t : Stamp) (g : Gw) :
    sigAltSet m t g = (g.rerouteTo (g.arg64 m 2) t (bitList 46 (g.arg64 m 0)),
      { words := splitWords 2 (g.rerouteTo (g.arg64 m 2) t (bitList 46 (g.arg64 m 0))).rtr.rerouted }) := rfl

end Sys2Proof.Machine
end

section
/-! The statements on the signal router. -/

namespace Sys2Proof.Machine

/-- Settles O19: a due cyclic expiry or transmission event sends the PDU once, and a due timeout writes its substitute in mode 1
only. -/
theorem composerAndTimeouts : Obligations.ComposerAndTimeouts := by
  refine ⟨?cyclic, ?event, ?marked, ?substituted⟩
  case cyclic =>
    intro s d k p hd hev hp hnone
    rw [exec_composerCyclicExpiry hd hev hp, cyclicExpiry_eventless k d.t hnone]
  case event =>
    intro s d k p e hd hev hp he hle
    have hpast : ∀ e', p.event = some e' → e' ≤ d.t := fun e' he' => Option.some.inj (he.symm.trans he') ▸ hle
    rw [exec_pduTransmissionEvent hd hev hp, transmitPdu_eventless k hpast]
  case marked =>
    intro s d n ts e hd hev hts he hmode
    rw [exec_signalTimeout hd hev hts, expireTimeout_route n d.t he, if_neg hmode]
    rfl
  case substituted =>
    intro s d n ts e hd hev hts he hmode
    rw [exec_signalTimeout hd hev hts, expireTimeout_route n d.t he, if_pos hmode]
    rfl

/-- Settles O33: SIG_PDU_SET by its ranges and its room, SIG_PDU_GET by whether the PDU is defined, SIG_ALT_SET bus by bus. -/
theorem pduCommands : Obligations.PduCommands := by
  refine ⟨?set, ?ranges, ?get, ?undefined, ?alt⟩
  case set =>
    rintro s m _ _ hholds hconfig rfl rfl
    refine ⟨fun hok hinit hsealed hroutes hroom => ?defined, fun hok => ?badArg,
      fun hok hinit hsealed hroutes hfull => ?noRoom⟩
    case defined =>
      refine ⟨s.gw.pduStarted m 0, rfl, rfl, rfl, rfl, rfl, rfl, ?cyclicTime, ?reply⟩
      case cyclicTime => simp [Gw.pduStarted, Pdu.startAt]
      case reply =>
        exact changeRow_config_reply hholds hconfig
          ((sigPduSet_inRange 0 hok hinit hsealed hroutes).trans (if_neg (Nat.not_lt.mpr hroom)))
    case badArg => exact changeRow_config_failWith hholds hconfig (effAt_of_eq (sigPduSet_badRange 0 hok))
    case noRoom =>
      exact changeRow_config_failWith hholds hconfig
        (effAt_of_eq ((sigPduSet_inRange 0 hok hinit hsealed hroutes).trans (if_pos hfull)))
  case ranges =>
    intro d hok
    obtain ⟨hbus, hpos, hlen, hphase⟩ := (pduDesc_ok_iff d).mp hok
    exact ⟨hbus, hpos, hlen.trans (pduDesc_maxLen_le d), by omega⟩
  case get =>
    intro s m p hholds hconfig hp hoff
    exact changeRow_config_reply hholds hconfig (sigPduGet_defined 0 hp hoff)
  case undefined =>
    intro s m hholds hconfig hp
    exact changeRow_config_failWith hholds hconfig (effAt_of_eq (sigPduGet_undefined 0 hp))
  case alt =>
    intro s m hholds hconfig hlt
    have hrtr := rerouteTo_rtr (s.gw.arg64 m 2) 0 (bitList 46 (s.gw.arg64 m 0)) s.gw
    refine ⟨_, changeRow_config_reply hholds hconfig (sigAltSet_eq m 0 s.gw), ?pdus, ?slots, fun b hb => ?flags, ?bound,
      ?done⟩
    case pdus => rw [after_gw, interrupts_rtr, reply_rtr, hrtr]
    case slots => rw [after_gw, interrupts_rtr, reply_rtr, hrtr]
    case flags =>
      rw [after_gw, interrupts_rtr, reply_rtr, bit_rerouteTo]
      simp only [mem_bitList, hb, true_and]
      rfl
    case bound =>
      rw [after_gw, interrupts_rtr, reply_rtr]
      exact rerouteTo_lt _ _ _ hlt
    case done =>
      rw [after_gw, Gw.mbxAt, interrupts_mbx]
      exact reply_mbx_st _ _ _ _ _

end Sys2Proof.Machine
end

section
/-! SUPPORT. The stream filters and meters (R233, R235): one read after a write of the same or of another, a range of them set
at once, and the commands POL_FILTER_SET, POL_METER_SET and POL_GET (R236, R605, R606). -/

namespace Sys2Proof.Machine

/-! ### One filter, one meter -/

theorem filterAt_setFilter (g : Gw) (i k : Nat) (x : Filter) :
    (g.setFilter k x).filterAt i = if i = k then x else g.filterAt i := mgetD_mput _ _ _ _ _

theorem meterAt_setMeter (g : Gw) (i k : Nat) (x : Meter) :
    (g.setMeter k x).meterAt i = if i = k then x else g.meterAt i := mgetD_mset _ _ _ _ _

/-! ### What the reply and the interrupt outputs leave -/

@[simp] theorem reply_filters (g : Gw) (m st : Nat) (a : Stamp) (ws : List Nat) :
    (g.reply m st a ws).filters = g.filters := by
  obtain ⟨rs, ms, h, -⟩ := reply_shape g m st a ws
  rw [h]

@[simp] theorem reply_meters (g : Gw) (m st : Nat) (a : Stamp) (ws : List Nat) :
    (g.reply m st a ws).meters = g.meters := by
  obtain ⟨rs, ms, h, -⟩ := reply_shape g m st a ws
  rw [h]

theorem filters_replied (s : State) (g : Gw) (m : Nat) (ws : List Nat) :
    (s.after (g.reply m 0 0 ws)).gw.filters = g.filters := by
  rw [after_gw, interrupts_filters, reply_filters]

theorem meters_replied (s : State) (g : Gw) (m : Nat) (ws : List Nat) :
    (s.after (g.reply m 0 0 ws)).gw.meters = g.meters := by
  rw [after_gw, interrupts_meters, reply_meters]

theorem done_replied (s : State) (g : Gw) (m : Nat) (ws : List Nat) :
    ((s.after (g.reply m 0 0 ws)).gw.mbxAt m).st = .done := by
  rw [after_gw, Gw.mbxAt, interrupts_mbx]
  exact reply_mbx_st _ _ _ _ _

/-! ### A range of items -/

/-- The items `first` to `first + n - 1` take a new value each, one after another, while a condition on the module stays. -/
theorem foldl_range_item {α : Type} {item : Gw → Nat → α} {put : Gw → Nat → Gw} {new : α → α} {p : Gw → Prop}
    (hput : ∀ g i k, p g → item (put g k) i = if i = k then new (item g k) else item g i)
    (hkeep : ∀ g k, p g → p (put g k)) {g : Gw} (hg : p g) (first n : Nat) :
    p ((List.range n).foldl (fun g k => put g (first + k)) g) ∧
      ∀ i, item ((List.range n).foldl (fun g k => put g (first + k)) g) i =
        if first ≤ i ∧ i < first + n then new (item g i) else item g i := by
  induction n with
  | zero => exact ⟨hg, fun i => (if_neg (by omega)).symm⟩
  | succ n ih =>
    obtain ⟨hp, hitem⟩ := ih
    simp only [List.range_succ, List.foldl_append, List.foldl_cons, List.foldl_nil]
    refine ⟨hkeep _ _ hp, fun i => ?_⟩
    rw [hput _ _ _ hp, hitem, hitem]
    by_cases hi : i = first + n
    · subst hi
      simp
    · have hrange : (first ≤ i ∧ i < first + n) ↔ (first ≤ i ∧ i < first + (n + 1)) := by omega
      simp only [if_neg hi, hrange]

/-! ### POL_FILTER_SET (R605) -/

/-- A filter with the settings that a control word gives it: its BLOCKED bit changes on request only. -/
def Filter.given (f : Filter) (c : Nat) : Filter :=
  { f with maxSdu := bits c 14 0, blockEn := bit c 16, blocked := bit c 18 || (f.blocked && !bit c 17) }

theorem Filter.given_eq (f : Filter) (c : Nat) : f.given c =
    ⟨bits c 14 0, bit c 16, if bit c 18 then true else if bit c 17 then false else f.blocked⟩ := by
  unfold Filter.given
  cases bit c 18 <;> cases bit c 17 <;> simp

/-- A filter takes the settings of a control word. -/
def Gw.giveFilter (g : Gw) (c i : Nat) : Gw := g.setFilter i ((g.filterAt i).given c)

/-- The filters `first` to `first + n - 1` take the settings of a control word. -/
def Gw.giveFilters (g : Gw) (first n c : Nat) : Gw :=
  (List.range n).foldl (fun (g : Gw) i => g.giveFilter c (first + i)) g

theorem giveFilters_filterAt (g : Gw) (first n c i : Nat) : (g.giveFilters first n c).filterAt i =
    if first ≤ i ∧ i < first + n then (g.filterAt i).given c else g.filterAt i :=
  (foldl_range_item (item := Gw.filterAt) (put := fun g k => g.giveFilter c k) (new := fun f => f.given c)
    (p := fun _ => True) (fun g i k _ => filterAt_setFilter g i k _) (fun _ _ _ => trivial) trivial first n).2 i

theorem giveFilters_meters (g : Gw) (first n c : Nat) : (g.giveFilters first n c).meters = g.meters :=
  foldl_same Gw.meters (f := fun g i => g.giveFilter c (first + i)) (fun _ _ => rfl) _ g

section
variable {g : Gw} {m : Nat}

theorem polFilterSet_badArg (t : Stamp)
    (h : 65536 < bits (g.arg m 0) 15 0 + bits (g.arg m 1) 16 0 ∨ (bit (g.arg m 2) 18 = true ∧ bit (g.arg m 2) 17 = true)) :
    polFilterSet m t g = (g, failWith stBadArg) := by
  refine if_pos ?_
  simp only [Bool.or_eq_true, Bool.and_eq_true, decide_eq_true_eq]
  exact h.elim (fun hlast => .inl (.inl (.inr hlast))) .inr

theorem polFilterSet_inRange (t : Stamp) (hn : 1 ≤ bits (g.arg m 1) 16 0)
    (hlast : bits (g.arg m 0) 15 0 + bits (g.arg m 1) 16 0 ≤ 65536) (hsdu : bits (g.arg m 2) 14 0 ≤ 16384)
    (hblock : ¬(bit (g.arg m 2) 18 = true ∧ bit (g.arg m 2) 17 = true)) :
    polFilterSet m t g = (g.giveFilters (bits (g.arg m 0) 15 0) (bits (g.arg m 1) 16 0) (g.arg m 2), {}) := by
  refine if_neg ?_
  simp only [Bool.or_eq_true, Bool.and_eq_true, decide_eq_true_eq]
  rintro (((h | h) | h) | h)
  · omega
  · omega
  · omega
  · exact hblock h

end

/-! ### POL_METER_SET (R236, R605) -/

/-- A meter set before a run: its level is its burst. -/
def Meter.full (x : Meter) (rate burst : Nat) : Meter := { x with rate := rate, burst := burst, level := burst * 64000000 }

theorem changeMeter_beforeRun {g : Gw} (h : g.str.run = false) (i rate burst : Nat) (t : Stamp) :
    g.changeMeter i rate burst t = g.setMeter i ((g.meterAt i).full rate burst) := by
  simp [Gw.changeMeter, Meter.full, h]

/-- In a segment without a step the level grows by the rate since the last update, up to the burst (R235). -/
theorem refill_sameSegment {g : Gw} {x : Meter} (hshift : g.str.shift = []) (t : Stamp) (seg : Nat) :
    g.refill x t seg = { x with
      level := min (x.burst * 64000000) (x.level + (t - x.t).toNat * x.rate), t := t, seg := seg } := by
  simp [Gw.refill, Gw.translate, hshift]

theorem changeMeter_inRun {g : Gw} (h : g.str.run = true) (i rate burst : Nat) (t : Stamp) :
    (g.changeMeter i rate burst t).meterAt i = { g.refill (g.meterAt i) t g.str.relSeg with
      rate := rate, burst := burst, level := min (g.refill (g.meterAt i) t g.str.relSeg).level (burst * 64000000) } := by
  simp [Gw.changeMeter, h, meterAt_setMeter]

/-- The meters `first` to `first + n - 1` changed at stamp `t`. -/
def Gw.changeMeters (g : Gw) (first n rate burst : Nat) (t : Stamp) : Gw :=
  (List.range n).foldl (fun (g : Gw) i => g.changeMeter (first + i) rate burst t) g

theorem changeMeters_filters (g : Gw) (first n rate burst : Nat) (t : Stamp) :
    (g.changeMeters first n rate burst t).filters = g.filters :=
  foldl_same Gw.filters (f := fun g i => g.changeMeter (first + i) rate burst t) (fun _ _ => rfl) _ g

theorem changeMeters_beforeRun {g : Gw} (h : g.str.run = false) (first n rate burst : Nat) (t : Stamp) (i : Nat) :
    (g.changeMeters first n rate burst t).meterAt i =
      if first ≤ i ∧ i < first + n then (g.meterAt i).full rate burst else g.meterAt i :=
  (foldl_range_item (item := Gw.meterAt) (put := fun g k => g.changeMeter k rate burst t) (new := fun x => x.full rate burst)
    (p := fun g => g.str.run = false) (fun g i k hg => by rw [changeMeter_beforeRun hg, meterAt_setMeter])
    (fun _ _ hg => hg) h first n).2 i

theorem polMeterSet_inRange {g : Gw} {m : Nat} (t : Stamp) (hn : 1 ≤ bits (g.arg m 1) 14 0)
    (hlast : bits (g.arg m 0) 13 0 + bits (g.arg m 1) 14 0 ≤ 16384) (hrate : bits (g.arg m 2) 24 0 ≤ 25000000) :
    polMeterSet m t g = (g.changeMeters (bits (g.arg m 0) 13 0) (bits (g.arg m 1) 14 0) (bits (g.arg m 2) 24 0)
      (bits (g.arg m 3) 23 0) t, {}) := by
  refine if_neg ?_
  simp only [Bool.or_eq_true, decide_eq_true_eq]
  omega

/-! ### POL_GET of a meter (R606) -/

theorem polGet_meter_beforeRun {g : Gw} {m : Nat} (t : Stamp) (hmeter : bit (g.arg m 0) 31 = true)
    (hi : bits (g.arg m 0) 15 0 < 16384) (hrun : g.str.run = false) :
    polGet m t g = (g, {
      words := [(g.meterAt (bits (g.arg m 0) 15 0)).rate, (g.meterAt (bits (g.arg m 0) 15 0)).burst] ++
        splitWords 2 (g.meterAt (bits (g.arg m 0) 15 0)).level }) := by
  simp [polGet, hmeter, Nat.not_le.mpr hi, hrun]

end Sys2Proof.Machine
end

section
/-! The statement on the policing commands. -/

namespace Sys2Proof.Machine

/-- Settles O35: the two SET commands item by item of their range, a meter's change during a run by its refill, POL_GET by its
words. -/
theorem policingCommands : Obligations.PolicingCommands := by
  refine ⟨?filterSet, ?filterSetRefused, ?meterSet, ?inRun, ?get⟩
  case filterSet =>
    rintro s m _ _ hholds hconfig rfl rfl hn hlast hsdu hblock
    refine ⟨_, changeRow_config_reply hholds hconfig (polFilterSet_inRange 0 hn hlast hsdu hblock), done_replied _ _ _ _,
      ?meters, fun i hfirst hend => ?inside, fun i hout => ?outside⟩
    case meters => rw [meters_replied, giveFilters_meters]
    case inside =>
      rw [Gw.filterAt, filters_replied, ← Gw.filterAt, giveFilters_filterAt, if_pos ⟨hfirst, hend⟩, Filter.given_eq]
    case outside => rw [Gw.filterAt, filters_replied, ← Gw.filterAt, giveFilters_filterAt, if_neg (by omega)]
  case filterSetRefused =>
    intro s m hholds hconfig hbad
    exact changeRow_config_failWith hholds hconfig (effAt_of_eq (polFilterSet_badArg 0 hbad))
  case meterSet =>
    rintro s m _ _ _ _ hholds hconfig rfl rfl hn hlast rfl hrate rfl hrun
    refine ⟨_, changeRow_config_reply hholds hconfig (polMeterSet_inRange 0 hn hlast hrate), done_replied _ _ _ _,
      ?filters, fun i hfirst hend => ?inside, fun i hout => ?outside⟩
    case filters => rw [filters_replied, changeMeters_filters]
    case inside =>
      rw [Gw.meterAt, meters_replied, ← Gw.meterAt, changeMeters_beforeRun hrun, if_pos ⟨hfirst, hend⟩]
      exact ⟨rfl, rfl, rfl⟩
    case outside => rw [Gw.meterAt, meters_replied, ← Gw.meterAt, changeMeters_beforeRun hrun, if_neg (by omega)]
  case inRun =>
    intro g i r b t hrun _ hshift
    rw [changeMeter_inRun hrun, refill_sameSegment hshift]
  case get =>
    intro s m hholds hconfig hmeter hi hrun
    exact changeRow_config_reply hholds hconfig (polGet_meter_beforeRun 0 hmeter hi hrun)

end Sys2Proof.Machine
end

section
/-! SUPPORT. The gate lists (R251, R252, R255): entries loaded into a bank, the bank that a commit activates, the first start
of a bank's cycles, and the switch that brings a commit into effect (R602, R603). -/

namespace Sys2Proof.Machine

@[simp] theorem reply_egr (g : Gw) (m st : Nat) (a : Stamp) (ws : List Nat) : (g.reply m st a ws).egr = g.egr := by
  obtain ⟨rs, ms, h, -⟩ := reply_shape g m st a ws
  rw [h]

theorem egrAt_replied (s : State) (g : Gw) (m : Nat) (ws : List Nat) (f : Nat) :
    (s.after (g.reply m 0 0 ws)).gw.egrAt f = g.egrAt f := by
  rw [egrAt_after, Gw.egrAt, reply_egr, Gw.egrAt]

/-! ### EGR_GATE_LOAD (R602) -/

/-- The words `new` put in place `off` of a list that is extended by zeros where it is too short. -/
def splice (l : List Nat) (off : Nat) (new : List Nat) : List Nat :=
  (l ++ List.replicate (off + new.length - l.length) 0).take off ++ new ++
    (l ++ List.replicate (off + new.length - l.length) 0).drop (off + new.length)

theorem getD_append_zeros (l : List Nat) (n i : Nat) : (l ++ List.replicate n 0).getD i 0 = l.getD i 0 := by
  rcases Nat.lt_or_ge i l.length with hi | hi
  · exact List.getD_append _ _ _ _ hi
  · rw [List.getD_append_right _ _ _ _ hi, List.getD_eq_default _ _ hi, List.getD_eq_getElem?_getD,
      List.getElem?_getD_replicate_default_eq]

theorem splice_getD (l : List Nat) (off : Nat) (new : List Nat) (i : Nat) :
    (splice l off new).getD i 0 =
      if off ≤ i ∧ i < off + new.length then new.getD (i - off) 0 else l.getD i 0 := by
  rw [← getD_append_zeros l (off + new.length - l.length) i]
  unfold splice
  generalize hp : l ++ List.replicate (off + new.length - l.length) 0 = p
  have hlen : off + new.length ≤ p.length := by
    rw [← hp, List.length_append, List.length_replicate]
    omega
  have hhead : (p.take off).length = off := List.length_take_of_le (Nat.le_of_add_right_le hlen)
  have hboth : (p.take off ++ new).length = off + new.length := by rw [List.length_append, hhead]
  simp only [List.getD_eq_getElem?_getD]
  rcases Nat.lt_or_ge i (off + new.length) with hi | hi
  · rw [List.getElem?_append_left (hboth ▸ hi)]
    rcases Nat.lt_or_ge i off with ho | ho
    · rw [List.getElem?_append_left (hhead.symm ▸ ho), List.getElem?_take_of_lt ho, if_neg (by omega)]
    · rw [List.getElem?_append_right (hhead.symm ▸ ho), hhead, if_pos ⟨ho, hi⟩]
  · rw [List.getElem?_append_right (hboth ▸ hi), hboth, List.getElem?_drop, Nat.add_sub_cancel' hi, if_neg (by omega)]

/-- A bank with words loaded from entry `off` on; how many of its words are in use stays. -/
def GateBank.load (b : GateBank) (off : Nat) (new : List Nat) : GateBank :=
  { b with entries := (splice (b.entries ++ b.rest) off new).take b.entries.length,
           rest := (splice (b.entries ++ b.rest) off new).drop b.entries.length }

theorem load_words (b : GateBank) (off : Nat) (new : List Nat) :
    (b.load off new).entries ++ (b.load off new).rest = splice (b.entries ++ b.rest) off new := List.take_append_drop _ _

/-- A port with words loaded into its inactive bank. -/
def EgrPort.loadInactive (e : EgrPort) (off : Nat) (new : List Nat) : EgrPort :=
  { e with banks := mset e.banks (1 - e.bank) ((e.bankAt (1 - e.bank)).load off new) }

/-- The entry words of a load request. -/
def Gw.loadWords (g : Gw) (m : Nat) : List Nat := (List.range (bits (g.arg m 0) 24 16)).map (fun i => g.arg m (1 + i))

theorem loadWords_length (g : Gw) (m : Nat) : (g.loadWords m).length = bits (g.arg m 0) 24 16 := by simp [Gw.loadWords]

theorem loadWords_getD (g : Gw) (m : Nat) {i : Nat} (h : i < bits (g.arg m 0) 24 16) :
    (g.loadWords m).getD i 0 = g.arg m (1 + i) := by simp [Gw.loadWords, h]

/-- Load requests within the limits of R602 differ in whether a commit of the port is pending. -/
theorem egrGateLoad_inLimits {g : Gw} {m f : Nat} (hf : f = bits (g.arg m 0) 4 0) (hwire : wirePort f = true)
    (hpos : 1 ≤ bits (g.arg m 0) 24 16) (hmost : bits (g.arg m 0) 24 16 ≤ 251)
    (hfit : bits (g.arg m 0) 15 8 + bits (g.arg m 0) 24 16 ≤ 256)
    (hintervals : ∀ i, i < bits (g.arg m 0) 24 16 → bits (g.arg m (1 + i)) 23 0 ≠ 0) :
    egrGateLoad m g =
      if g.commitPending f then (g, failWith stLocked)
      else (g.setEgr f ((g.egrAt f).loadInactive (bits (g.arg m 0) 15 8) (g.loadWords m)), {}) := by
  subst hf
  have hany : (g.loadWords m).any (fun e => decide (bits e 23 0 = 0)) = false := by
    simpa [Gw.loadWords] using hintervals
  have hgood : (!wirePort (bits (g.arg m 0) 4 0) || decide (bits (g.arg m 0) 24 16 = 0) ||
      decide (251 < bits (g.arg m 0) 24 16) || decide (256 < bits (g.arg m 0) 15 8 + bits (g.arg m 0) 24 16) ||
      (g.loadWords m).any (fun e => decide (bits e 23 0 = 0))) = false := by
    simp [hwire, hany]
    omega
  unfold EgrPort.loadInactive GateBank.load splice
  rw [loadWords_length]
  refine (if_neg (Bool.eq_false_iff.mp hgood)).trans ?_
  split <;> rfl

/-! ### The bank of a commit, and its cycles (R255, R603) -/

/-- The first start lies behind the time by what is left of a cycle there. -/
theorem firstStart_eq (b : GateBank) (t : Stamp) : b.firstStart t = t + (8 * b.base - t) % (8 * b.cycle) := by
  have hdiv := Int.mul_ediv_add_emod (8 * b.base - t) (8 * (b.cycle : Int))
  unfold GateBank.firstStart
  rw [Int.ofNat_eq_natCast, Int.neg_mul, Int.mul_comm _ (8 * (b.cycle : Int))]
  linarith

theorem firstStart_least {b : GateBank} (h : 0 < b.cycle) (t : Stamp) :
    t ≤ b.firstStart t ∧ b.firstStart t < t + 8 * b.cycle := by
  have hpos : 0 < 8 * (b.cycle : Int) := by omega
  have hlow := Int.emod_nonneg (8 * b.base - t) hpos.ne'
  have hhigh := Int.emod_lt_of_pos (8 * b.base - t) hpos
  rw [firstStart_eq]
  exact ⟨Int.le_add_of_nonneg_right hlow, Int.add_lt_add_left hhigh t⟩

theorem firstStart_onCycle (b : GateBank) (t : Stamp) : (b.firstStart t - 8 * b.base) % (8 * b.cycle) = 0 := by
  have hsum : b.firstStart t - 8 * b.base = -((8 * b.base - t) / (8 * (b.cycle : Int))) * (8 * b.cycle) := by
    unfold GateBank.firstStart
    rw [Int.ofNat_eq_natCast, add_sub_cancel_left]
  rw [hsum, Int.mul_emod_left]

/-- What a commit request with GATE_EN 1 makes of a bank. -/
def Gw.committedBank (g : Gw) (m : Nat) (b : GateBank) : GateBank :=
  { entries := (b.entries ++ b.rest ++ List.replicate (bits (g.arg m 4) 8 0 - (b.entries ++ b.rest).length) 0).take
      (bits (g.arg m 4) 8 0)
    rest := (b.entries ++ b.rest ++ List.replicate (bits (g.arg m 4) 8 0 - (b.entries ++ b.rest).length) 0).drop
      (bits (g.arg m 4) 8 0)
    base := asI64 (g.arg64 m 1)
    cycle := bits (g.arg m 3) 29 0 }

theorem committedBank_length (g : Gw) (m : Nat) (b : GateBank) :
    (g.committedBank m b).entries.length = bits (g.arg m 4) 8 0 := by
  simp only [Gw.committedBank, List.length_take, List.length_append, List.length_replicate]
  omega

/-- A port whose inactive bank takes the contents `b` and becomes the active one, with gates on and no commit pending. -/
def EgrPort.activate (e : EgrPort) (b : GateBank) : EgrPort :=
  { e with banks := mset e.banks (1 - e.bank) b, bank := 1 - e.bank, gateEn := true, commit := none }

theorem activate_bankAt (e : EgrPort) (b : GateBank) : (e.activate b).bankAt (e.activate b).bank = b := mgetD_mset_same _ _ _ _

/-- A commit with GATE_EN 1 that acts at once. -/
theorem withCommit_switch {g : Gw} {m : Nat} {e : EgrPort} (he : g.egrAt (bits (g.arg m 0) 4 0) = e)
    (hen : bit (g.arg m 0) 31 = true) (t : Stamp) :
    (g.withCommit m t).switch = e.activate (g.committedBank m (e.bankAt (1 - e.bank))) := by
  subst he
  simp only [Gw.withCommit, hen, if_true]
  rfl

theorem egrGateCommit_config {g : Gw} {m : Nat} (t : Stamp) (hok : g.commitOk m = true) (hrun : g.str.run = false) :
    egrGateCommit m t g = (g.setEgr (bits (g.arg m 0) 4 0) (g.withCommit m t).switch, {}) := by
  simp [egrGateCommit, hok, hrun]

/-- Before a run a commit is a change like any other. -/
theorem exec_egrGateCommit_config {s : State} (m : Nat) (hs : s.gw.serving = false) :
    exec (.egrGateCommit m) s = answer (changeRow 0x0502 (effAt egrGateCommit) m) s := by
  have hrow : gateCommitRow m s = changeRow 0x0502 (effAt egrGateCommit) m s := by simp [gateCommitRow, hs]
  change answer (gateCommitRow m) s = _
  unfold answer
  rw [hrow]

theorem gateCommitRow_busy {s : State} {m : Nat} (h : s.gw.holds m 0x0502 = true) (hs : s.gw.serving = true)
    (hpend : s.gw.commitPending (bits (s.gw.arg m 0) 4 0) = true) :
    gateCommitRow m s = s.withGw (s.gw.reply m stBusy 0 []) := by
  simp [gateCommitRow, h, hs, hpend]

/-! ### GATE_BANK_SWITCH -/

theorem switch_eq {e : EgrPort} {k : GateCommit} (h : e.commit = some k) : e.switch =
    { e with bank := k.bank.getD (1 - e.bank), gateEn := k.bank.isSome, commit := none } := by
  unfold EgrPort.switch
  rw [h]
  dsimp only
  cases k.bank <;> rfl

/-- Credits brought to a stamp change nothing else of the port. -/
theorem settleCredits_egrAt (g : Gw) (f : Nat) (t : Stamp) :
    ∃ cr, (g.settleCredits f t).egrAt f = { g.egrAt f with credits := cr } := by
  unfold Gw.settleCredits
  generalize List.range 8 = l
  induction l generalizing g with
  | nil => exact ⟨_, rfl⟩
  | cons c r ih =>
    rw [List.foldl_cons]
    obtain ⟨cr, hcr⟩ := ih (if (g.credit f c).t < t then g.setCredit f c { c := g.creditAt f c t, t := t } else g)
    refine ⟨cr, hcr.trans ?_⟩
    split
    · rw [Gw.setCredit, egrAt_setEgr_same]
    · rfl

/-- The commit of port `f` brought into effect at stamp `t`, every decision before it being final. -/
def Gw.switchGates (g : Gw) (f : Nat) (t : Stamp) : Gw :=
  ((g.settleCredits f t).setEgr f ((g.settleCredits f t).egrAt f).switch).settle f t

theorem switchGates_egrAt {g : Gw} {f : Nat} {k : GateCommit} (hk : (g.egrAt f).commit = some k) (t : Stamp) :
    ∃ cr st, (g.switchGates f t).egrAt f =
      { g.egrAt f with credits := cr, settled := st, bank := k.bank.getD (1 - (g.egrAt f).bank), gateEn := k.bank.isSome,
                       commit := none } := by
  obtain ⟨cr, hcr⟩ := settleCredits_egrAt g f t
  have hcommit : ((g.settleCredits f t).egrAt f).commit = some k := by rw [hcr]; exact hk
  refine ⟨cr, max (g.egrAt f).settled t, ?_⟩
  rw [Gw.switchGates, Gw.settle, egrAt_setEgr_same, egrAt_setEgr_same, switch_eq hcommit, hcr]

theorem gateBankSwitch_due {s : State} {f : Nat} {k : GateCommit} (hk : (s.gw.egrAt f).commit = some k)
    (hnow : k.at' ≤ s.gw.commitNow) (hqueued : s.gw.commitQueued f = false)
    (hlimit : k.at' - (s.gw.lambda8 f : Int) ≤ s.gw.txLimit s.dram)
    (htx : s.gw.nextTx f (k.at' - (s.gw.lambda8 f : Int) - 1) = none) :
    gateBankSwitch f s = s.withGw (s.gw.switchGates f (k.at' - (s.gw.lambda8 f : Int))) := by
  simp [gateBankSwitch, Gw.switchGates, hk, hnow, hqueued, hlimit, htx]

end Sys2Proof.Machine
end

section
/-! SUPPORT. Leaf maps and node weights (R246, R247, R604): tables of bytes stored key by key, and two classes that share a
leaf. -/

namespace Sys2Proof.Machine

/-! ### A table of values stored key by key -/

section
variable {key v : Nat → Nat}

theorem mgetD_foldl_mput_other {l : List Nat} {k : Nat} (h : ∀ i ∈ l, k ≠ key i) (m : Map Nat) :
    mgetD (l.foldl (fun a i => mput a (key i) (v i) 0) m) k 0 = mgetD m k 0 := by
  induction l generalizing m with
  | nil => rfl
  | cons i r ih =>
    rw [List.foldl_cons, ih (fun j hj => h j (List.mem_cons_of_mem i hj)), mgetD_mput_ne _ _ _ _ (h i List.mem_cons_self)]

theorem mgetD_foldl_mput_mem (hkey : Function.Injective key) {l : List Nat} {j : Nat} (h : j ∈ l) (m : Map Nat) :
    mgetD (l.foldl (fun a i => mput a (key i) (v i) 0) m) (key j) 0 = v j := by
  induction l generalizing m with
  | nil => exact absurd h List.not_mem_nil
  | cons i r ih =>
    rw [List.foldl_cons]
    by_cases hr : j ∈ r
    · exact ih hr _
    · obtain rfl : j = i := (List.mem_cons.mp h).resolve_right hr
      rw [mgetD_foldl_mput_other fun i hi hk => hr (by rwa [hkey hk]), mgetD_mput_same]

end

/-! ### EGR_LEAF_MAP -/

theorem byteAt_lt (bs : List Byte) (i : Nat) : byteAt bs i < 256 := (bs.getD i 0).isLt

theorem one_lt_length_iff {l : List Nat} (h : l.Nodup) : 1 < l.length ↔ ∃ c ∈ l, ∃ d ∈ l, c ≠ d := by
  rw [← List.toFinset_card_of_nodup h, Finset.one_lt_card]
  simp only [List.mem_toFinset]

theorem leafClash_iff (bs : List Byte) : leafClash bs = true ↔
    ∃ p q c d, p < 22 ∧ q < 22 ∧ c < 8 ∧ d < 8 ∧ c ≠ d ∧ byteAt bs (8 * p + c) = byteAt bs (8 * q + d) := by
  simp only [leafClash, List.any_eq_true, List.mem_range, decide_eq_true_eq, gt_iff_lt,
    one_lt_length_iff (List.nodup_range.filter _), List.mem_filter]
  constructor
  · rintro ⟨leaf, -, c, ⟨hc, p, hp, hleaf⟩, d, ⟨hd, q, hq, hleaf'⟩, hcd⟩
    exact ⟨p, q, c, d, hp, hq, hc, hd, hcd, hleaf.trans hleaf'.symm⟩
  · rintro ⟨p, q, c, d, hp, hq, hc, hd, hcd, hsame⟩
    exact ⟨_, byteAt_lt bs _, c, ⟨hc, p, hp, rfl⟩, d, ⟨hd, q, hq, hsame.symm⟩, hcd⟩

/-- The leaf map of a request's bytes. -/
def leavesOf (bs : List Byte) : Map Nat := (List.range 176).foldl (fun (a : Map Nat) i => mput a i (byteAt bs i) 0) []

theorem mgetD_leavesOf (bs : List Byte) {i : Nat} (h : i < 176) : mgetD (leavesOf bs) i 0 = byteAt bs i :=
  mgetD_foldl_mput_mem (key := id) Function.injective_id (List.mem_range.mpr h) []

theorem egrLeafMap_shared {g : Gw} {m : Nat} (t : Stamp) (h : leafClash (g.argBytes m 1 176) = true) :
    egrLeafMap m t g = (g, failWith stBadArg) := by
  simp [egrLeafMap, h]

theorem egrLeafMap_separate {g : Gw} {m f : Nat} (t : Stamp) (hf : f = bits (g.arg m 0) 4 0) (hport : f ≤ 21)
    (hmode : g.hier f = true) (h : leafClash (g.argBytes m 1 176) = false) :
    egrLeafMap m t g = (g.setEgr f { g.egrAt f with leafMap := leavesOf (g.argBytes m 1 176) }, {}) := by
  subst hf
  simp [egrLeafMap, leavesOf, h, hmode, Nat.not_lt.mpr hport]

/-! ### EGR_NODE_WEIGHT -/

/-- The weights of a request's domain bytes and service bytes. -/
def weightsOf (dw sw : List Byte) : Map Nat :=
  (List.range 256).foldl (fun (a : Map Nat) i => mput a (2000 + i) (byteAt sw i) 0)
    ((List.range 16).foldl (fun (a : Map Nat) d => mput a (1000 + d) (byteAt dw d) 0) [])

theorem mgetD_weightsOf_domain (dw sw : List Byte) {d : Nat} (h : d < 16) :
    mgetD (weightsOf dw sw) (1000 + d) 0 = byteAt dw d := by
  unfold weightsOf
  rw [mgetD_foldl_mput_other fun i _ => by omega]
  exact mgetD_foldl_mput_mem (add_right_injective _) (List.mem_range.mpr h) []

theorem mgetD_weightsOf_service (dw sw : List Byte) {i : Nat} (h : i < 256) :
    mgetD (weightsOf dw sw) (2000 + i) 0 = byteAt sw i :=
  mgetD_foldl_mput_mem (add_right_injective _) (List.mem_range.mpr h) _

theorem egrNodeWeight_inMode1 {g : Gw} {m f : Nat} (t : Stamp) (hf : f = bits (g.arg m 0) 4 0) (hport : f ≤ 21)
    (hmode : g.hier f = true) : egrNodeWeight m t g =
      (g.setEgr f { g.egrAt f with weights := weightsOf (g.argBytes m 1 16) (g.argBytes m 5 256) }, {}) := by
  subst hf
  simp [egrNodeWeight, weightsOf, hmode, Nat.not_lt.mpr hport]

theorem egrNodeWeight_badArg {g : Gw} {m : Nat} (t : Stamp)
    (h : 21 < bits (g.arg m 0) 4 0 ∨ g.hier (bits (g.arg m 0) 4 0) = false) :
    egrNodeWeight m t g = (g, failWith stBadArg) := by
  simp [egrNodeWeight, h]

end Sys2Proof.Machine
end

section
/-! The statement on gate lists, leaf maps and weights. -/

namespace Sys2Proof.Machine

/-- Settles O34: a load by the words of the bank it leaves, a commit in CONFIG and the due switch by the port they leave, the
tables key by key. -/
theorem gateListsLeafMapsAndWeights : Obligations.GateListsLeafMapsAndWeights := by
  refine ⟨?load, ?cycles, ?busy, ?commit, ?switch, ?leaves, ?weights, ?weightsRefused⟩
  case load =>
    rintro s m f _ _ hholds hf hwire rfl rfl hpos hmost hfit hintervals
    have hload := egrGateLoad_inLimits hf hwire hpos hmost hfit hintervals
    refine ⟨fun hpend => ?locked, fun hfree => ?loaded⟩
    case locked => exact answer_of_withGw (directRow_failWith hholds (hload.trans (if_pos hpend)))
    case loaded =>
      refine ⟨_, answer_of_withGw (directRow_words hholds (hload.trans (if_neg (Bool.eq_false_iff.mp hfree)))), rfl,
        fun i hi => ?new, fun i hi => ?old⟩
      case new =>
        rw [load_words, splice_getD, loadWords_length, if_pos (by omega), Nat.add_sub_cancel_left, loadWords_getD _ _ hi]
      case old => rw [load_words, splice_getD, loadWords_length, if_neg (by omega)]
  case cycles =>
    intro b t hcycle
    exact ⟨(firstStart_least hcycle t).1, (firstStart_least hcycle t).2, firstStart_onCycle b t⟩
  case busy =>
    intro s m hholds hserving hpend
    exact answer_of_withGw (gateCommitRow_busy hholds hserving hpend)
  case commit =>
    rintro s m _ hholds hconfig hrun rfl hok hen
    refine ⟨_, (exec_egrGateCommit_config m hconfig).trans
      (changeRow_config_reply hholds hconfig (egrGateCommit_config 0 hok hrun)), ?_⟩
    rw [egrAt_replied, egrAt_setEgr_same, withCommit_switch rfl hen, activate_bankAt]
    refine ⟨rfl, rfl, rfl, rfl, rfl, committedBank_length _ _ _, rfl, fun j hj => ?others⟩
    case others => rw [egrAt_replied, egrAt_setEgr, if_neg hj]
  case switch =>
    intro s f k hk hnow hqueued hlimit htx
    obtain ⟨cr, st, hport⟩ := switchGates_egrAt hk (k.at' - (s.gw.lambda8 f : Int))
    refine ⟨_, answer_of_withGw (gateBankSwitch_due hk hnow hqueued hlimit htx), ?_⟩
    rw [egrAt_after, hport]
    exact ⟨rfl, rfl, rfl, rfl, rfl⟩
  case leaves =>
    intro s m f hholds hconfig hf hport hmode
    refine ⟨fun hseparate => ?separate, fun p q c d hp hq hc hd hcd hsame => ?shared⟩
    case separate =>
      have hno : leafClash (s.gw.argBytes m 1 176) = false := by
        rw [← Bool.not_eq_true, leafClash_iff]
        rintro ⟨p, q, c, d, hp, hq, hc, hd, hcd, hsame⟩
        exact hseparate p q c d hp hq hc hd hcd hsame
      exact ⟨_, fun g c hg hc => mgetD_leavesOf _ (by omega),
        changeRow_config_reply hholds hconfig (egrLeafMap_separate 0 hf hport hmode hno)⟩
    case shared =>
      have hclash := (leafClash_iff (s.gw.argBytes m 1 176)).mpr ⟨p, q, c, d, hp, hq, hc, hd, hcd, hsame⟩
      exact changeRow_config_failWith hholds hconfig (effAt_of_eq (egrLeafMap_shared 0 hclash))
  case weights =>
    intro s m f hholds hconfig hf hport hmode
    exact ⟨_, fun d hd => mgetD_weightsOf_domain _ _ hd, fun i hi => mgetD_weightsOf_service _ _ hi,
      changeRow_config_reply hholds hconfig (egrNodeWeight_inMode1 0 hf hport hmode)⟩
  case weightsRefused =>
    intro s m hholds hconfig hbad
    exact changeRow_config_failWith hholds hconfig (effAt_of_eq (egrNodeWeight_badArg 0 hbad))

end Sys2Proof.Machine
end

section
/-! SUPPORT. A decision of the accounted transmitter (R239, R241, R242): the command takes the decision that is due, a choice
moves virtual times and tags alone, and what a fixed selection leaves of its port and its counter. The scrubber's visit
(R111). -/

namespace Sys2Proof.Machine

/-! ### A copy fixed with its start and departure -/

/-- The selection of copy `c` of port `f` from `s` to `d` (R241). -/
def Gw.selOf (g : Gw) (f : Nat) (c : Copy) (s d : Stamp) (x : List (Stamp × Nat)) (reserved : Bool) : Sel :=
  { copy := c, start := s, dep := d, launch := s + g.lambda8 f, reserved := reserved, ext := x, seg := g.str.relSeg,
    sa := g.saInUse f }

/-- Between `g` and `h` port `f` has selected `w`: the selection stands last, its copy has left the queue, and it is counted. -/
def Gw.Selects (g h : Gw) (f : Nat) (w : Sel) : Prop :=
  (h.egrAt f).selected = (g.egrAt f).selected ++ [w] ∧
    (h.egrAt f).queued = (g.egrAt f).queued.filter (fun x => x.tag != w.copy.tag) ∧
    h.regN (Reg.egrSelCnt f) = satAdd (g.regN (Reg.egrSelCnt f)) 1

theorem fixSel_selects (g : Gw) (f : Nat) (c : Copy) (s d : Stamp) (x : List (Stamp × Nat)) (reserved : Bool) :
    g.Selects (g.fixSel f c s d x reserved) f (g.selOf f c s d x reserved) := by
  have hret : ∀ (h : Gw) (r : Ret), g.Selects h f (g.selOf f c s d x reserved) →
      g.Selects (if f = 16 || f = 17 then h else h.addRet r) f (g.selOf f c s d x reserved) := by
    intro h r hh
    split <;> exact hh
  have hport : ((g.unqueue f c).bump (Reg.egrSelCnt f)).egrAt f = { g.egrAt f with
      queued := (g.egrAt f).queued.filter (fun x => x.tag != c.tag)
      resv := (g.egrAt f).resv.filter (fun r => r.copy.tag != c.tag) } := egrAt_setEgr_same _ _ _
  refine hret _ _ ⟨?selected, ?queued, ?count⟩
  case selected =>
    rw [egrAt_setEgr_same, EgrPort.reserveStage, hport]
    rfl
  case queued =>
    rw [egrAt_setEgr_same, EgrPort.reserveStage, hport]
    rfl
  case count => exact regN_bump_same (g.unqueue f c) _

/-- The interrupt outputs leave a selection as it is. -/
theorem Gw.Selects.after {g h : Gw} {f : Nat} {w : Sel} (k : g.Selects h f w) (s : State) :
    g.Selects (s.after h).gw f w := by
  obtain ⟨hsel, hqueue, hcount⟩ := k
  refine ⟨?_, ?_, ?_⟩
  · rw [egrAt_after, hsel]
  · rw [egrAt_after, hqueue]
  · rw [regN_after s h (by unfold Reg.egrSelCnt; omega), hcount]

/-- What a class spends of its credit is no part of a selection. -/
theorem Gw.Selects.spendCredit {g h : Gw} {f : Nat} {w : Sel} (k : g.Selects h f w) (c : Nat) (s d : Stamp) :
    g.Selects (h.spendCredit f c s d) f w := by
  obtain ⟨hsel, hqueue, hcount⟩ := k
  unfold Gw.spendCredit
  split
  · exact ⟨hsel, hqueue, hcount⟩
  · refine ⟨?_, ?_, hcount⟩
    · rw [Gw.setCredit, egrAt_setEgr_same]; exact hsel
    · rw [Gw.setCredit, egrAt_setEgr_same]; exact hqueue

/-! ### A choice among candidates (R247, R248) -/

/-- From `g` to `h` the egress ports alone have changed, and of port `f` neither the queue nor the selections. -/
def Gw.KeepsQueues (g h : Gw) (f : Nat) : Prop :=
  (∃ es, h = { g with egr := es }) ∧ (h.egrAt f).selected = (g.egrAt f).selected ∧ (h.egrAt f).queued = (g.egrAt f).queued

theorem Gw.KeepsQueues.refl (g : Gw) (f : Nat) : g.KeepsQueues g f := ⟨⟨_, rfl⟩, rfl, rfl⟩

theorem Gw.KeepsQueues.trans {g h k : Gw} {f : Nat} (a : g.KeepsQueues h f) (b : h.KeepsQueues k f) : g.KeepsQueues k f := by
  obtain ⟨⟨es, rfl⟩, hsel, hqueue⟩ := a
  obtain ⟨⟨es', rfl⟩, hsel', hqueue'⟩ := b
  exact ⟨⟨es', rfl⟩, hsel'.trans hsel, hqueue'.trans hqueue⟩

theorem setEgr_keepsQueues {g : Gw} {f : Nat} {e : EgrPort} (hsel : e.selected = (g.egrAt f).selected)
    (hqueue : e.queued = (g.egrAt f).queued) : g.KeepsQueues (g.setEgr f e) f := by
  refine ⟨⟨_, rfl⟩, ?_, ?_⟩
  · rw [egrAt_setEgr_same, hsel]
  · rw [egrAt_setEgr_same, hqueue]

theorem markChoice_keepsQueues (g : Gw) (f node : Nat) (r : Nat × Option Nat) : g.KeepsQueues (g.markChoice f node r) f := by
  unfold Gw.markChoice
  split
  · exact .refl g f
  · exact setEgr_keepsQueues rfl rfl

theorem select_keepsQueues {g h : Gw} {f : Nat} {cs : List Copy} {c : Copy} (hs : g.select f cs = some (c, h)) :
    g.KeepsQueues h f := by
  unfold Gw.select at hs
  split at hs
  · unfold Gw.selectHier at hs
    dsimp only at hs
    split at hs
    · obtain ⟨x, -, hx⟩ := Option.map_eq_some_iff.mp hs
      cases hx
      exact (markChoice_keepsQueues _ _ _ _).trans (markChoice_keepsQueues _ _ _ _)
    · exact absurd hs (Option.some_ne_none _).symm
  · unfold Gw.selectFlat at hs
    split at hs
    · obtain ⟨x, -, hx⟩ := Option.map_eq_some_iff.mp hs
      cases hx
      exact markChoice_keepsQueues _ _ _ _
    · exact absurd hs (Option.some_ne_none _).symm

/-- A selection is read alike from a module whose queues have been kept. -/
theorem Gw.KeepsQueues.selects {g h k : Gw} {f : Nat} {c : Copy} {s d : Stamp} {x : List (Stamp × Nat)} {reserved : Bool}
    (a : g.KeepsQueues h f) (b : h.Selects k f (h.selOf f c s d x reserved)) :
    g.Selects k f (g.selOf f c s d x reserved) := by
  obtain ⟨⟨es, rfl⟩, hsel, hqueue⟩ := a
  obtain ⟨hsel', hqueue', hcount⟩ := b
  exact ⟨by rw [hsel', hsel]; rfl, by rw [hqueue', hqueue]; rfl, hcount⟩

/-! ### The decision that is due -/

theorem exec_accountedSelection {s : State} {f : Nat} {t : Stamp} {a : TxAct} (hf : f < 22) (h20 : f ≠ 20)
    (hrun : s.gw.str.run = true) (hon : s.gw.islOn 5 = true) (htx : s.gw.nextTx f (s.gw.txLimit s.dram) = some (t, a)) :
    exec (.accountedSelection f) s = .next (s.after (s.gw.txStep f t a)) := by
  refine answer_of_withGw ?_
  simp [selection, hf, h20, hrun, hon, htx]

theorem txStep_serve (g : Gw) (f : Nat) (t : Stamp) (r : Resv) : g.txStep f t (.serve r) = g.serveResv f r := rfl

theorem txStep_pick (g : Gw) (f : Nat) (t : Stamp) : g.txStep f t .pick = g.pickAt f t := rfl

theorem txStep_discard (g : Gw) (f : Nat) (t : Stamp) (c : Copy) : g.txStep f t (.discard c) =
    ((g.discardCopy f c t).bump (Reg.egrGateOvsCnt f)).flag Reg.egrFlag 0x10000000 := rfl

theorem serveResv_selects {g : Gw} {f : Nat} {r : Resv} (h : g.aged f r.copy (r.start + r.tau) = false) :
    g.Selects (g.serveResv f r) f (g.selOf f r.copy r.start (r.start + r.tau) [] true) := by
  unfold Gw.serveResv
  rw [if_neg (by simp [h])]
  exact fixSel_selects _ _ _ _ _ _ _

theorem pickAt_selects {g g' : Gw} {f : Nat} {t d : Stamp} {c : Copy} {x : List (Stamp × Nat)}
    (hs : g.select f ((g.heads f t).filter (fun c => (g.candidate f c t).isSome)) = some (c, g'))
    (hc : g.candidate f c t = some (d, x)) (hage : g.aged f c (t + g.tau f c.len) = false) :
    g.Selects (g.pickAt f t) f (g.selOf f c t d x false) := by
  have hkeep : g.KeepsQueues (g'.setEgr f { g'.egrAt f with idleFrom := max (g'.egrAt f).idleFrom t }) f :=
    (select_keepsQueues hs).trans (setEgr_keepsQueues rfl rfl)
  have hpick : g.pickAt f t = ((g'.setEgr f { g'.egrAt f with idleFrom := max (g'.egrAt f).idleFrom t }).fixSel f c t d x
      false).spendCredit f c.cls t d := by
    simp only [Gw.pickAt, hs, hc, hage]
    rfl
  rw [hpick]
  exact (hkeep.selects (fixSel_selects _ _ _ _ _ _ _)).spendCredit _ _ _

/-! ### The scrubber -/

theorem scrub_expired {g : Gw} {f tag : Nat} {c : Copy} (hc : (g.egrAt f).queued.find? (fun c => c.tag = tag) = some c)
    (hlim : g.ageLimitUs f c.cls ≠ 0) (hscrub : c.scrubbed = false)
    (hage : g.translate c.frame.ing c.frame.ingSeg g.str.relSeg + Int.ofNat (8000 * g.ageLimitUs f c.cls) < g.str.frontier)
    (hsettled : g.txSettled (g.str.frontier + 1) = true) :
    g.scrub f tag = ((g.setEgr f { g.egrAt f with
      queued := (g.egrAt f).queued.map (fun x => if x.tag = tag then { x with scrubbed := true } else x) }).dropRefs
        f tag).unclaim c.fid := by
  unfold Gw.scrub
  dsimp only
  rw [hc]
  refine if_pos ?_
  rw [hscrub, hsettled, decide_eq_true hage, decide_eq_true hlim]
  rfl

end Sys2Proof.Machine
end

section
/-! The statement on the accounted transmitter. -/

namespace Sys2Proof.Machine

/-- Settles O20: the due decision is taken; a reservation and a pick add one selection, the last of its port; a discard and the
scrubber's visit by their effect. -/
theorem accountedTransmitter : Obligations.AccountedTransmitter := by
  refine ⟨?serve, ?pick, ?discard, ?scrub⟩
  case serve =>
    intro s f t r hf h20 hrun hon htx hage
    have hexec := exec_accountedSelection hf h20 hrun hon htx
    rw [txStep_serve] at hexec
    exact ⟨_, hexec, (serveResv_selects hage).after s⟩
  case pick =>
    intro s f x t d c g' hf h20 hrun hon htx hselect hcand hage
    have hexec := exec_accountedSelection hf h20 hrun hon htx
    rw [txStep_pick] at hexec
    exact ⟨_, hexec, (pickAt_selects hselect hcand hage).after s⟩
  case discard =>
    intro s f t c hf h20 hrun hon htx
    rw [exec_accountedSelection hf h20 hrun hon htx, txStep_discard]
  case scrub =>
    intro s f tag c hc hlim hscrub hage hsettled
    exact answer_of_withGw (congrArg s.withGw (scrub_expired hc hlim hscrub hage hsettled))

end Sys2Proof.Machine
end

section
/-! SUPPORT. The 10BASE-T1S ports (R274–R279): what a received frame, a collision, a lost or seen BEACON, the aggregator and the
start of a frame make of the module. -/

namespace Sys2Proof.Machine

theorem tisAt_after (s : State) (g : Gw) (p : Nat) : (s.after g).gw.tisAt p = g.tisAt p := by
  rw [Gw.tisAt, after_gw, interrupts_tis, Gw.tisAt]

theorem undefEgress_after (s : State) (g : Gw) : (s.after g).gw.undefEgress = g.undefEgress := interrupts_undefEgress _ _

/-- A bit set in a mask is set. -/
theorem bit_or_two_pow_same (v i : Nat) : bit (v ||| 2 ^ i) i = true := by
  rw [bit, Nat.testBit_or, Nat.testBit_two_pow_self, Bool.or_true]

/-! ### Reception (R277, R280) -/

theorem exec_tisFrameReceive (p : Nat) (rx : EthRx) (s : State) :
    exec (.tisFrameReceive p rx) s = .next (s.after (s.gw.tisReceive p rx)) := rfl

/-- The bytes of an untagged frame with the tag of its port, where the port has a VID. -/
def Gw.tisTagged (g : Gw) (p : Nat) (rx : EthRx) : List Byte :=
  if g.tisVid p = 0 then rx.bytes else withFcs (insertTag (stripFcs rx.bytes) (g.tisPcp p) (g.tisVid p))

/-- A frame received on an S port, as it goes to F12. -/
def Gw.tisIngress (g : Gw) (p : Nat) (rx : EthRx) (bytes : List Byte) : Frame :=
  { fport := 12, sub := p, body := .eth bytes, ing := rx.rawIngress, ingSeg := g.tb.seg - rx.ingSegBack,
    adm := g.stampIn 8 rx.phase, seg := g.tb.seg, dpcp := g.tisPcp p }

section
variable {g : Gw} {p : Nat} {rx : EthRx} (hon : g.tisOn p = true)
include hon

theorem tisReceive_wrongFcs (hfcs : rx.bytes ≠ withFcs (stripFcs rx.bytes)) :
    g.tisReceive p rx = (g.tisBusy p rx.bytes.length false).bump (Reg.tisRxErr p) := by
  simp [Gw.tisReceive, hon, hfcs]

/-- A sound frame of at most 1518 bytes is MAC control, tagged, or goes to F12. -/
theorem tisReceive_sound (hs : soundFrame rx) (hmax : rx.bytes.length ≤ 1518) : g.tisReceive p rx =
    if firstType (stripFcs rx.bytes) = 0x8808 then g.tisBusy p rx.bytes.length false
    else if hasTag (stripFcs rx.bytes) then (g.tisBusy p rx.bytes.length false).bump (Reg.tisTagDropCnt p)
    else ((g.tisBusy p rx.bytes.length false).bump (Reg.tisRxOk p)).ingress (g.tisIngress p rx (g.tisTagged p rx)) := by
  obtain ⟨hpcs, hmcrc, -, hfcs, hmin⟩ := hs
  have hpass : (rx.pcsError || rx.mcrcError || decide (rx.bytes.length < 64) || decide (1518 < rx.bytes.length) ||
      decide (rx.bytes ≠ withFcs (stripFcs rx.bytes))) = false := by
    simp [hpcs, hmcrc, ← hfcs, hmin, hmax]
  have hoff : ¬((!g.tisOn p) = true) := by simp [hon]
  refine (if_neg hoff).trans ((if_neg (Bool.eq_false_iff.mp hpass)).trans ?_)
  rfl

/-- A sound untagged data frame counts in RX_OK and goes towards Strata while F12's pipeline and the fabric run. -/
theorem tisReceive_data (hs : soundFrame rx) (hmax : rx.bytes.length ≤ 1518) (htype : firstType (stripFcs rx.bytes) ≠ 0x8808)
    (htag : hasTag (stripFcs rx.bytes) = false) (hpipe : g.islOn (1 + pipeOf 12) = true) (hfab : g.islOn 0 = true) :
    g.tisReceive p rx =
      ((g.tisBusy p rx.bytes.length false).bump (Reg.tisRxOk p)).deliver (g.tisIngress p rx (g.tisTagged p rx)) := by
  rw [tisReceive_sound hon hs hmax, if_neg htype, if_neg (Bool.eq_false_iff.mp htag)]
  exact ingress_running hpipe hfab

end

/-! ### Collisions (R276) -/

theorem exec_tisCollision (p : Nat) (s : State) : exec (.tisCollision p) s = .next (s.after (s.gw.tisCollision p)) := rfl

section
variable {g : Gw} {p : Nat} {b : List Byte × Option Nat} {r : List (List Byte × Option Nat)} (hon : g.tisOn p = true)
  (hbuf : (g.tisAt p).buffer = b :: r)
include hon hbuf

/-- Below MAX_ATT attempts the frame stays for a further one. -/
theorem tisCollision_retry (hatt : (g.tisAt p).attempts + 1 < bits (g.tisCfg p) 20 16) :
    g.tisCollision p = (g.bump (Reg.tisColCnt p)).setTis p
      { g.tisAt p with attempts := (g.tisAt p).attempts + 1 } := by
  have hmore : ¬(bits ((g.bump (Reg.tisColCnt p)).tisCfg p) 20 16 ≤ (g.tisAt p).attempts + 1) := Nat.not_le.mpr hatt
  simp [Gw.tisCollision, hbuf, hon, hmore]

/-- The module after the port gave up its oldest frame, `r` staying in the buffer. -/
def Gw.tisGivesUp (g : Gw) (p : Nat) (r : List (List Byte × Option Nat)) : Gw :=
  ((g.bump (Reg.tisColCnt p)).setTis p { g.tisAt p with buffer := r, attempts := 0 }).bump (Reg.tisExcolCnt p)

/-- The collision that makes MAX_ATT attempts drops the frame. -/
theorem tisCollision_drop (hatt : bits (g.tisCfg p) 20 16 ≤ (g.tisAt p).attempts + 1) :
    g.tisCollision p = if g.str.run then
      { g.tisGivesUp p r with undefEgress := g.undefEgress ||| 2 ^ (32 + p) } else g.tisGivesUp p r := by
  have hlast : bits ((g.bump (Reg.tisColCnt p)).tisCfg p) 20 16 ≤ (g.tisAt p).attempts + 1 := hatt
  simp only [Gw.tisCollision, hbuf, hon, hlast, Bool.not_true, Bool.false_eq_true, if_false, if_true]
  rfl

end

theorem tisGivesUp_tisAt (g : Gw) (p : Nat) (r : List (List Byte × Option Nat)) :
    (g.tisGivesUp p r).tisAt p = { g.tisAt p with buffer := r, attempts := 0 } :=
  tisAt_setTis_same (g.bump (Reg.tisColCnt p)) p _

/-- The drop counts once. -/
theorem tisGivesUp_excol (g : Gw) (p : Nat) (r : List (List Byte × Option Nat)) :
    (g.tisGivesUp p r).regN (Reg.tisExcolCnt p) = satAdd (g.regN (Reg.tisExcolCnt p)) 1 := by
  refine (regN_bump_same _ _).trans (congrArg (satAdd · 1) ?_)
  exact regN_bump_ne g (by simp only [Reg.tisExcolCnt, Reg.tisColCnt]; omega)

/-! ### BEACONs (R275) -/

theorem exec_plcaBeaconLoss (p : Nat) (s : State) : exec (.plcaBeaconLoss p) s = .next (s.after (s.gw.beaconLoss p)) := rfl

theorem exec_plcaBeaconReceive (p : Nat) (s : State) : exec (.plcaBeaconReceive p) s = .next (s.after (s.gw.beaconSeen p)) := rfl

theorem beaconLoss_due {g : Gw} {p : Nat} (hon : g.tisOn p = true) (hf : g.plcaFollower p = true)
    (hplca : (g.tisAt p).fallback = false) (hdue : (g.tisAt p).lastBeacon + 4 * ticksPerMs ≤ g.tb.tick) :
    g.beaconLoss p = (g.setTis p { g.tisAt p with fallback := true, beacon := false }).bump (Reg.tisBcnLossCnt p) := by
  simp [Gw.beaconLoss, hon, hf, hplca, hdue]

theorem beaconSeen_follower {g : Gw} {p : Nat} (hon : g.tisOn p = true) (hf : g.plcaFollower p = true) :
    g.beaconSeen p = g.setTis p
      { g.tisAt p with fallback := false, beacon := true, lastBeacon := g.tb.tick, sent := 0 } := by
  simp [Gw.beaconSeen, hon, hf]

/-! ### The aggregator (R278, R279) -/

/-- A copy as an S port sends it: without its tag on a port with a VID, padded to 60 bytes, with a fresh FCS. -/
def Gw.tisCopy (g : Gw) (p : Nat) (bs : List Byte) : List Byte :=
  let out := if g.tisVid p = 0 then stripFcs bs else removeTag (stripFcs bs)
  withFcs (out ++ List.replicate (60 - out.length) 0)

/-- The one S port of its VID takes a copy behind those that wait. -/
theorem tisTake_one {g : Gw} {p : Nat} {bs : List Byte} (h : g.tisTargets bs = [p]) (tag : Option Nat) :
    g.tisTake bs tag = g.setTis p
      { g.tisAt p with buffer := (g.tisAt p).buffer ++ [(g.tisCopy p bs, tag)] } := by
  rw [Gw.tisTake, h]
  rfl

theorem exec_aggregatorResume {s : State} (hfab : s.gw.islOn 0 = true) (p : Nat) :
    exec (.aggregatorResume p) s = .next (s.after (s.gw.aggregatorResume p)) :=
  congrArg (fun g => Host.Outcome.next (s.after g)) (if_pos hfab)

section
variable {g : Gw} {p : Nat} {w : Sel} {rest : List Sel} {bs : List Byte} (hon : g.islOn (stampIsland 12) = true)
  (hsel : (g.egrAt 12).selected = w :: rest) (hbody : w.copy.frame.body = .eth bs)
include hon hsel hbody

/-- F12 hands its oldest staged copy, every cell sound, to the aggregator, which has room for it. -/
theorem handover_toAggregator (hstaged : (g.egrAt 12).headStaged = true) (hsound : g.badCell w.copy.fid none = none)
    (hroom : g.tisRoom bs = true) :
    g.handover 12 none false =
      ((g.setEgr 12 (g.egrAt 12).leaveStage).unclaim w.copy.fid).tisTake bs w.copy.frame.fwTag := by
  have hfits : g.hasRoom 12 w = true := by simp [Gw.hasRoom, hbody, hroom]
  obtain ⟨k, hun, -⟩ := unclaim_shape (g.setEgr 12 (g.egrAt 12).leaveStage) w.copy.fid
  have hrun : ((g.setEgr 12 (g.egrAt 12).leaveStage).unclaim w.copy.fid).islOn (stampIsland 12) = true := by
    rw [hun]
    exact hon
  have hwire : wirePort 12 = false := by decide
  simp [Gw.handover, hsel, hstaged, hsound, takerHolds_of_on hon, hfits, Gw.handTo, hwire, hrun, hbody]

/-- Room for the S port of its VID lets the aggregator take that copy. -/
theorem aggregatorResume_takes (hstaged : (g.egrAt 12).headStaged = true) (hsound : g.badCell w.copy.fid none = none)
    (hport : g.tisTargets bs = [p]) (hroom : g.tisRoom bs = true) :
    g.aggregatorResume p = ((g.setEgr 12 (g.egrAt 12).leaveStage).unclaim w.copy.fid).setTis p
      { g.tisAt p with buffer := (g.tisAt p).buffer ++ [(g.tisCopy p bs, w.copy.frame.fwTag)] } := by
  have hhand : g.aggregatorResume p = g.handover 12 none false := by simp [Gw.aggregatorResume, hsel, hbody, hport]
  rw [hhand, handover_toAggregator hon hsel hbody hstaged hsound hroom]
  obtain ⟨k, hun, -⟩ := unclaim_shape (g.setEgr 12 (g.egrAt 12).leaveStage) w.copy.fid
  have hports : ((g.setEgr 12 (g.egrAt 12).leaveStage).unclaim w.copy.fid).tisTargets bs = [p] := by
    rw [hun]
    exact hport
  rw [tisTake_one hports, hun]
  rfl

end

/-! ### The start of a frame (R274, R279) -/

theorem exec_macFrameStart_tis (p : Nat) (bad : Bool) (s : State) :
    exec (.macFrameStart ⟨14 + p, bad⟩) s = .next (s.after (s.gw.tisSent p)) := by
  have hport : (if 14 ≤ 14 + p then s.gw.tisSent (14 + p - 14) else s.gw.macStart (14 + p) bad) = s.gw.tisSent p := by
    rw [if_pos (Nat.le_add_right 14 p), Nat.add_sub_cancel_left]
  exact congrArg (fun g => Host.Outcome.next (s.after g)) hport

/-- A frame that the firmware did not ask a stamp for goes out as it is, from a port with defined egress content. -/
theorem tisSent_plain {g : Gw} {p : Nat} {bs : List Byte} {r : List (List Byte × Option Nat)}
    (hmay : g.tisMaySend p = true) (hbuf : (g.tisAt p).buffer = (bs, none) :: r) (h12 : bit g.undefEgress 12 = false)
    (hdef : bit g.undefEgress (32 + p) = false) :
    g.tisSent p = (((g.setTis p { g.tisAt p with buffer := r, attempts := 0, sent := (g.tisAt p).sent + 1 }).tisBusy p
      bs.length ((g.tisAt p).sent + 1 ≤ bits (g.tisCfg p) 39 32)).bump (Reg.tisTxOk p)).emit (.tisFrame p bs) := by
  have hport : g.shownBytes (32 + p) bs = (bs, g) := by simp [Gw.shownBytes, hdef]
  have hfab : g.shownBytes 12 bs = (bs, g) := by simp [Gw.shownBytes, h12]
  simp [Gw.tisSent, hbuf, hmay, hport, hfab]

end Sys2Proof.Machine
end

section
/-! The statement on the S ports. -/

namespace Sys2Proof.Machine

/-- Settles O13, command by command. -/
theorem tisReceiveAndPlca : Obligations.TisReceiveAndPlca := by
  refine ⟨?untagged, ?tagged, ?wrongFcs, ?retry, ?drop, ?loss, ?seen, ?copy, ?sent⟩
  case untagged =>
    rintro s p rx hon hs hmax htype htag _ rfl ⟨hpipe, hfab, hfree, hroom⟩
    obtain ⟨g, hstore, hdeliver⟩ := deliver_stored
      (g := (s.gw.tisBusy p rx.bytes.length false).bump (Reg.tisRxOk p))
      (x := s.gw.tisIngress p rx (s.gw.tisTagged p rx)) hfree hroom
    refine ⟨_, g, rfl, hstore, ?_⟩
    rw [exec_tisFrameReceive, tisReceive_data hon hs hmax htype htag hpipe hfab, hdeliver]
    rfl
  case tagged =>
    intro s p rx hon hs hmax htype htag
    rw [exec_tisFrameReceive, tisReceive_sound hon hs hmax, if_neg htype, if_pos htag]
  case wrongFcs =>
    intro s p rx hon hfcs
    rw [exec_tisFrameReceive, tisReceive_wrongFcs hon hfcs]
  case retry =>
    intro s p b r hon hbuf hatt
    rw [exec_tisCollision, tisCollision_retry hon hbuf hatt]
  case drop =>
    intro s p b r hon hbuf hatt
    have hdrop := tisCollision_drop hon hbuf hatt
    refine ⟨_, exec_tisCollision p s, ?port, ?count, fun hrun => ?undefined⟩
    case port =>
      rw [tisAt_after, hdrop, ← tisGivesUp_tisAt]
      split <;> rfl
    case count =>
      rw [regN_after s _ (by simp only [Reg.tisExcolCnt]; omega), hdrop, ← tisGivesUp_excol s.gw p r]
      split <;> rfl
    case undefined =>
      rw [undefEgress_after, hdrop, if_pos hrun]
      exact bit_or_two_pow_same _ _
  case loss =>
    intro s p hon hf hplca hdue
    rw [exec_plcaBeaconLoss, beaconLoss_due hon hf hplca hdue]
  case seen =>
    intro s p hon hf
    rw [exec_plcaBeaconReceive, beaconSeen_follower hon hf]
  case copy =>
    intro s p w rest bs hfab hon hsel hbody hstaged hsound hport hroom
    refine ⟨_, rfl, ?_⟩
    rw [exec_aggregatorResume hfab, aggregatorResume_takes hon hsel hbody hstaged hsound hport hroom]
    rfl
  case sent =>
    intro s p bs r hmay hbuf h12 hdef bad
    rw [exec_macFrameStart_tis, tisSent_plain hmay hbuf h12 hdef]

end Sys2Proof.Machine
end

section
/-! SUPPORT. The MACs of E0–E11, K0 and K1: pause frames and received stops (R291–R293), link changes (R271, R272), and
preemption verification (R285). -/

namespace Sys2Proof.Machine

theorem ethFlag_ge (p : Nat) : 0x3008 ≤ Reg.ethFlag p := by simp only [Reg.ethFlag]; omega

theorem ethPauseWd_ne_ethFlag (p : Nat) : Reg.ethPauseWd p ≠ Reg.ethFlag p := by
  simp only [Reg.ethPauseWd, Reg.ethFlag]
  omega

/-- A flag that a port raises is set. -/
theorem bit_ethFlag (g : Gw) (p : Nat) {b : Nat} (hb : b < 32) : bit ((g.ethFlag p b).regN (Reg.ethFlag p)) b = true :=
  bit_regN_flag_of_mask g (Reg.ethFlag p) hb Nat.testBit_two_pow_self

theorem regN_setEth (g : Gw) (p : Nat) (x : EthPort) (o : Nat) : (g.setEth p x).regN o = g.regN o := rfl

/-- A change of a port that keeps its link and its ADMIN_DOWN keeps what its MAC reports. -/
theorem linkUp_setEth {g : Gw} {p : Nat} {x : EthPort} (hlink : x.link = (g.ethAt p).link)
    (hdown : x.adminDown = (g.ethAt p).adminDown) : (g.setEth p x).linkUp p = g.linkUp p := by
  simp only [Gw.linkUp, ethAt_setEth_same, hlink, hdown]
  rfl

theorem islOn_of_linkUp {g : Gw} {p : Nat} (h : g.linkUp p = true) : g.islOn (macIsland p) = true := by
  simp only [Gw.linkUp, Bool.and_eq_true] at h
  obtain ⟨⟨⟨⟨-, hon⟩, -⟩, -⟩, -⟩ := h
  exact hon

/-! ### Pause frames (R291) -/

theorem exec_pauseFrameSend (p : Nat) (s : State) :
    exec (.pauseFrameSend p) s = .next (s.after (s.gw.pauseFrom p s.gw.now)) := rfl

theorem exec_pauseRefresh (p : Nat) (s : State) : exec (.pauseRefresh p) s = .next (s.after (s.gw.pauseRefresh p)) := rfl

/-- The port's record once the pause frame of an XOFF (`off`) or XON decision has started at `t`, `rest` waiting behind it. -/
def Gw.pausing (g : Gw) (p : Nat) (off : Bool) (rest : List Bool) (t : Stamp) : EthPort :=
  { g.ethAt p with
    xoffQueue := rest
    refreshAt := if off then some (t - g.txLat p + Int.ofNat (g.bitTime p (512 * bits (g.param (Par.ethPause p)) 15 0)))
      else none
    wireFree := t + Int.ofNat (g.wireTime p t 84) }

/-- The bytes of the pause frame of a decision. -/
def Gw.pauseBytes (g : Gw) (p : Nat) (off : Bool) : List Byte :=
  withFcs (g.pauseFrame p (if off then bits (g.param (Par.ethPause p)) 31 16 else 0))

/-- With link, the oldest decision goes out once the wire is free. -/
theorem pauseFrom_sent {g : Gw} {p : Nat} {off : Bool} {rest : List Bool} {start t : Stamp}
    (hq : (g.ethAt p).xoffQueue = off :: rest) (htx : g.pauseTx p = true) (hup : g.linkUp p = true)
    (ht : t = max (g.ethAt p).wireFree (start + g.txLat p)) (hdue : t - g.txLat p ≤ g.nowLast) :
    g.pauseFrom p start =
      ((g.setEth p (g.pausing p off rest t)).bump (Reg.ethTxPause p)).emit (.ethControl p (g.pauseBytes p off)) := by
  have hgo : (!g.pauseTx p || !g.islOn (macIsland p) || decide (g.nowLast < t - g.txLat p)) = false := by
    simp [htx, islOn_of_linkUp hup, hdue]
  simp only [Gw.pauseFrom, hq, ← ht, hgo, hup, Bool.not_true, Bool.false_eq_true, if_false]
  rfl

/-- The port's record when its repeat is due: a further XOFF decision stands before those that wait. -/
def EthPort.repeating (x : EthPort) : EthPort := { x with refreshAt := none, xoffQueue := true :: x.xoffQueue }

/-- The repeat of a pause frame is the pause frame of that further decision. -/
theorem pauseRefresh_sent {g : Gw} {p : Nat} {r t : Stamp} (hr : (g.ethAt p).refreshAt = some r) (hdue : r ≤ g.nowLast)
    (hx : bit g.cal.xoff p = true) (htx : g.pauseTx p = true) (hup : g.linkUp p = true)
    (ht : t = max (g.ethAt p).wireFree (max g.now r + g.txLat p)) (hfree : t - g.txLat p ≤ g.nowLast) :
    g.pauseRefresh p = (((g.setEth p (g.ethAt p).repeating).setEth p
      (g.pausing p true (g.ethAt p).xoffQueue t)).bump (Reg.ethTxPause p)).emit (.ethControl p (g.pauseBytes p true)) := by
  have hlat : (g.setEth p (g.ethAt p).repeating).txLat p = g.txLat p := by
    simp only [Gw.txLat, ethAt_setEth_same]
    rfl
  have hport : (g.setEth p (g.ethAt p).repeating).ethAt p = (g.ethAt p).repeating := ethAt_setEth_same _ _ _
  have hsent := pauseFrom_sent (g := g.setEth p (g.ethAt p).repeating) (off := true) (rest := (g.ethAt p).xoffQueue)
    (start := max g.now r) (t := t) (by rw [hport]; rfl) htx ((linkUp_setEth (x := (g.ethAt p).repeating) rfl rfl).trans hup)
    (by rw [hport, hlat]; exact ht) (by rw [hlat]; exact hfree)
  have hrec : (g.setEth p (g.ethAt p).repeating).pausing p true (g.ethAt p).xoffQueue t =
      g.pausing p true (g.ethAt p).xoffQueue t := by
    simp only [Gw.pausing, hport, hlat]
    rfl
  rw [hrec] at hsent
  simp only [Gw.pauseRefresh, hr, hx, decide_eq_false (Int.not_lt.mpr hdue), Bool.not_true, Bool.or_self,
    Bool.false_eq_true, if_false]
  exact hsent

/-! ### Received stops (R292, R293) -/

theorem exec_pauseStopExpiry (p : Nat) (s : State) : exec (.pauseStopExpiry p) s = .next (s.after (s.gw.pauseExpiry p)) := rfl

theorem exec_pauseWatchdog (p : Nat) (s : State) : exec (.pauseWatchdog p) s = .next (s.after (s.gw.pauseWatchdog p)) := rfl

theorem exec_pauseHoldEnd (p : Nat) (s : State) : exec (.pauseHoldEnd p) s = .next (s.after (s.gw.pauseHoldEnd p)) := rfl

theorem pauseExpiry_due {g : Gw} {p : Nat} {u : Stamp} (hu : (g.ethAt p).pauseUntil = some u) (hdue : u ≤ g.nowLast) :
    g.pauseExpiry p = g.endStop p u := by
  simp [Gw.pauseExpiry, hu, hdue]

theorem pauseHoldEnd_due {g : Gw} {p : Nat} {u : Stamp} (hu : (g.ethAt p).ignoreUntil = some u) (hdue : u ≤ g.nowLast) :
    g.pauseHoldEnd p = g.setEth p { g.ethAt p with ignoreUntil := none } := by
  simp [Gw.pauseHoldEnd, hu, hdue]

theorem endStop_ethAt (g : Gw) (p : Nat) (t : Stamp) : (g.endStop p t).ethAt p =
    { g.ethAt p with pauseUntil := none, pauseSince := none, wireFree := max (g.ethAt p).wireFree (t + g.txLat p) } :=
  ethAt_setEth_same _ _ _

/-- The watchdog at `t`: the stop ends, is counted and flagged, and pause frames are ignored until `hold`. -/
def Gw.watchdogEnds (g : Gw) (p : Nat) (t hold : Stamp) : Gw :=
  (((g.endStop p t).bump (Reg.ethPauseWd p)).ethFlag p 29).setEth p
    { (g.endStop p t).ethAt p with ignoreUntil := some hold }

theorem pauseWatchdog_due {g : Gw} {p : Nat} {u b t : Stamp} (hu : (g.ethAt p).pauseUntil = some u)
    (hb : (g.ethAt p).pauseSince = some b) (ht : t = b + 8000 * Int.ofNat (bits (g.param (Par.ethPwd p)) 25 16))
    (hdue : t ≤ g.nowLast) (hstop : t ≤ u) :
    g.pauseWatchdog p = g.watchdogEnds p t (t + 8000 * Int.ofNat (bits (g.param (Par.ethPwd p)) 15 0)) := by
  subst ht
  have hgo : (decide (b + 8000 * Int.ofNat (bits (g.param (Par.ethPwd p)) 25 16) ≤ g.nowLast) &&
      decide (b + 8000 * Int.ofNat (bits (g.param (Par.ethPwd p)) 25 16) ≤ u)) = true := by
    rw [decide_eq_true hdue, decide_eq_true hstop]
    rfl
  simp only [Gw.pauseWatchdog, hu, hb, hgo, if_true]
  rfl

theorem watchdogEnds_counts (g : Gw) (p : Nat) (t hold : Stamp) :
    (g.watchdogEnds p t hold).regN (Reg.ethPauseWd p) = satAdd (g.regN (Reg.ethPauseWd p)) 1 := by
  rw [Gw.watchdogEnds, regN_setEth, Gw.ethFlag, regN_flag_ne _ (ethPauseWd_ne_ethFlag p), regN_bump_same]
  rfl

theorem watchdogEnds_flags (g : Gw) (p : Nat) (t hold : Stamp) :
    bit ((g.watchdogEnds p t hold).regN (Reg.ethFlag p)) 29 = true := by
  rw [Gw.watchdogEnds, regN_setEth]
  exact bit_ethFlag _ p (by decide)

/-! ### Link (R271, R272) -/

theorem exec_linkUp (p rate : Nat) (s : State) : exec (.linkUp p rate) s = .next (s.after (s.gw.linkComesUp p rate)) := rfl

section
variable {g : Gw} {p rate : Nat} (hp : p < 12) (hon : g.islOn (macIsland p) = true) (hdown : (g.ethAt p).adminDown = false)
  (hmode : g.ethMode p ≠ 0)
include hp hon hdown hmode

/-- A MAC that may have link follows the partner's rate: another one is an error under auto-negotiation. -/
theorem linkComesUp_eq : g.linkComesUp p rate =
    if g.anEn p && rate ≠ g.lineRate p then
      let h := if (g.ethAt p).link then g.linkGoesDown p else g
      (h.setEth p { h.ethAt p with rateErr := true }).ethFlag p 31
    else if (g.ethAt p).link then g else g.linkRises p := by
  have hmay : (decide (p ≥ 12) || !g.islOn (macIsland p) || (g.ethAt p).adminDown || decide (g.ethMode p = 0)) = false := by
    simp [hp, hon, hdown, hmode]
  exact if_neg (Bool.eq_false_iff.mp hmay)

theorem linkComesUp_rises (hlink : (g.ethAt p).link = false) (hrate : g.anEn p = false ∨ rate = g.lineRate p) :
    g.linkComesUp p rate = g.linkRises p := by
  have hfits : (g.anEn p && decide (rate ≠ g.lineRate p)) = false := by
    rcases hrate with h | h <;> simp [h]
  rw [linkComesUp_eq hp hon hdown hmode, hfits, hlink]
  rfl

end

/-- The module after the MAC of a port lost its link: its record and LINK_DN. -/
def Gw.linkLost (g : Gw) (p : Nat) : Gw :=
  (g.setEth p { g.ethAt p with link := false, verifySent := 0, onWire := none, pauseUntil := none, pauseSince := none }).ethFlag
    p 30

theorem linkGoesDown_up {g : Gw} {p : Nat} (h : (g.ethAt p).link = true) : g.linkGoesDown p =
    if g.str.run then { g.linkLost p with undefEgress := g.undefEgress ||| 2 ^ macFabric p } else g.linkLost p := by
  simp only [Gw.linkGoesDown, h, Bool.not_true, Bool.false_eq_true, if_false]
  rfl

theorem linkGoesDown_eth {g : Gw} {p : Nat} (h : (g.ethAt p).link = true) (q : Nat) :
    (g.linkGoesDown p).ethAt q = (g.linkLost p).ethAt q := by
  rw [linkGoesDown_up h]
  split <;> rfl

theorem linkGoesDown_regN {g : Gw} {p : Nat} (h : (g.ethAt p).link = true) (o : Nat) :
    (g.linkGoesDown p).regN o = (g.linkLost p).regN o := by
  rw [linkGoesDown_up h]
  split <;> rfl

theorem linkLost_ethAt_same (g : Gw) (p : Nat) : (g.linkLost p).ethAt p =
    { g.ethAt p with link := false, verifySent := 0, onWire := none, pauseUntil := none, pauseSince := none } :=
  ethAt_setEth_same _ _ _

theorem linkLost_ethAt_ne (g : Gw) {p q : Nat} (h : q ≠ p) : (g.linkLost p).ethAt q = g.ethAt q :=
  (ethAt_setEth g q p _).trans (if_neg h)

/-- Link is down after another rate than that of MODE, whether it was up or not. -/
theorem linkGoesDown_link (g : Gw) (p : Nat) :
    ((if (g.ethAt p).link then g.linkGoesDown p else g).ethAt p).link = false := by
  split
  · next h => rw [linkGoesDown_eth h, linkLost_ethAt_same]
  · next h => exact Bool.eq_false_iff.mpr h

theorem exec_linkDownTimeout {s : State} {p : Nat} (hp : p < 12) (hon : s.gw.islOn (macIsland p) = true) :
    exec (.linkDownTimeout p) s = .next (s.after (s.gw.linkGoesDown p)) := by
  have hmac : (decide (p < 14) && s.gw.islOn (macIsland p) && s.gw.unsynced p) = true := by
    simp [hon, Gw.unsynced, hp, Nat.lt_trans hp (by decide : 12 < 14)]
  exact congrArg (fun g => Host.Outcome.next (s.after g)) (if_pos hmac)

/-! ### Verification (R285) -/

theorem exec_verifyFrameTimer (p : Nat) (answered : Bool) (s : State) :
    exec (.verifyFrameTimer p answered) s = .next (s.after (s.gw.verifyTimer p answered)) := rfl

section
variable {g : Gw} {p : Nat} (hup : g.linkUp p = true) (hpre : g.preEn p = true) (hver : g.verifyEn p = true)
  (hrun : (g.ethAt p).verify = 1)
include hup hpre hver hrun

/-- A port that verifies: a response decides first, then the time of the next frame, then the count of those sent. -/
theorem verifyTimer_verifying (answered : Bool) : g.verifyTimer p answered =
    if answered && 1 ≤ (g.ethAt p).verifySent then g.setEth p { g.ethAt p with verify := 2 }
    else if g.tb.tick < (g.ethAt p).verifyAt then g
    else if 3 ≤ (g.ethAt p).verifySent then (g.setEth p { g.ethAt p with verify := 3 }).ethFlag p 28
    else
      (g.setEth p { g.ethAt p with
        verifySent := (g.ethAt p).verifySent + 1
        verifyAt := g.tb.tick + g.param (Par.ethVerify p) * ticksPerMs }).emit (.ethControl p (verifyFrame false)) := by
  have hon : (!g.linkUp p || !g.preEn p || !g.verifyEn p || decide ((g.ethAt p).verify ≠ 1)) = false := by
    simp [hup, hpre, hver, hrun]
  exact if_neg (Bool.eq_false_iff.mp hon)

theorem verifyTimer_sends {answered : Bool} (hno : answered = false ∨ (g.ethAt p).verifySent = 0)
    (hsent : (g.ethAt p).verifySent < 3) (hdue : (g.ethAt p).verifyAt ≤ g.tb.tick) :
    g.verifyTimer p answered = (g.setEth p { g.ethAt p with
      verifySent := (g.ethAt p).verifySent + 1
      verifyAt := g.tb.tick + g.param (Par.ethVerify p) * ticksPerMs }).emit (.ethControl p (verifyFrame false)) := by
  have hopen : ¬((answered && decide (1 ≤ (g.ethAt p).verifySent)) = true) := by
    rcases hno with h | h <;> simp [h]
  rw [verifyTimer_verifying hup hpre hver hrun, if_neg hopen, if_neg (Nat.not_lt.mpr hdue), if_neg (Nat.not_le.mpr hsent)]

theorem verifyTimer_succeeds (hsent : 1 ≤ (g.ethAt p).verifySent) :
    g.verifyTimer p true = g.setEth p { g.ethAt p with verify := 2 } := by
  rw [verifyTimer_verifying hup hpre hver hrun, if_pos (by rw [decide_eq_true hsent]; rfl)]

theorem verifyTimer_fails (hsent : 3 ≤ (g.ethAt p).verifySent) (hdue : (g.ethAt p).verifyAt ≤ g.tb.tick) :
    g.verifyTimer p false = (g.setEth p { g.ethAt p with verify := 3 }).ethFlag p 28 := by
  rw [verifyTimer_verifying hup hpre hver hrun, if_neg (by simp), if_neg (Nat.not_lt.mpr hdue), if_pos hsent]

end

theorem ethReceive_verify {g : Gw} {p : Nat} {rx : EthRx} (hc : g.carries p = true) (hv : rx.verify = true) :
    g.ethReceive p rx = g.verifyReceived p := by
  simp [Gw.ethReceive, hc, hv]

end Sys2Proof.Machine
end

section
/-! The statement on pause control, link changes and preemption verification. -/

namespace Sys2Proof.Machine

/-- Settles O14, event by event. -/
theorem pauseLinkAndVerify : Obligations.PauseLinkAndVerify := by
  refine ⟨?send, ?refresh, ?expiry, ?watchdog, ?hold, ?up, ?rateError, ?down, ?verify, ?success, ?failure, ?answer⟩
  case send =>
    intro s p off rest t hq htx hup ht hdue
    rw [exec_pauseFrameSend, pauseFrom_sent hq htx hup ht hdue]
    rfl
  case refresh =>
    intro s p r t hr hdue hx htx hup ht hfree
    have hsent := pauseRefresh_sent hr hdue hx htx hup ht hfree
    refine ⟨_, exec_pauseRefresh p s, ?frame, ?port⟩
    case frame =>
      refine mem_out_interrupts _ ?_
      rw [hsent]
      exact List.mem_append_right _ (List.mem_singleton_self _)
    case port =>
      rw [ethAt_after, hsent]
      exact ethAt_setEth_same _ _ _
  case expiry =>
    intro s p u hu hdue
    rw [exec_pauseStopExpiry, pauseExpiry_due hu hdue]
    rfl
  case watchdog =>
    intro s p u b t hu hb ht hdue hstop
    refine ⟨_, exec_pauseWatchdog p s, ?port, fun _ => ?registers⟩ <;> rw [pauseWatchdog_due hu hb ht hdue hstop]
    case port =>
      rw [ethAt_after, Gw.watchdogEnds, ethAt_setEth_same, endStop_ethAt]
    case registers =>
      rw [regN_after s _ (by simp only [Reg.ethPauseWd]; omega), regN_after s _ (ethFlag_ge p)]
      exact ⟨watchdogEnds_counts _ _ _ _, watchdogEnds_flags _ _ _ _⟩
  case hold =>
    intro s p u hu hdue
    rw [exec_pauseHoldEnd, pauseHoldEnd_due hu hdue]
  case up =>
    intro s p rate hp hon hdown hlink hmode hrate
    rw [exec_linkUp, linkComesUp_rises hp hon hdown hmode hlink hrate]
    rfl
  case rateError =>
    intro s p rate hp hon hdown hmode han hrate
    have hmis : (s.gw.anEn p && decide (rate ≠ s.gw.lineRate p)) = true := by simp [han, hrate]
    refine ⟨_, exec_linkUp p rate s, ?_⟩
    rw [linkComesUp_eq hp hon hdown hmode, if_pos hmis, ethAt_after, regN_after s _ (ethFlag_ge p)]
    dsimp only
    have hport := ethAt_setEth_same (if (s.gw.ethAt p).link = true then s.gw.linkGoesDown p else s.gw) p
      { (if (s.gw.ethAt p).link = true then s.gw.linkGoesDown p else s.gw).ethAt p with rateErr := true }
    refine ⟨(congrArg EthPort.link hport).trans (linkGoesDown_link s.gw p), congrArg EthPort.rateErr hport, ?flag⟩
    case flag => exact bit_ethFlag _ p (by decide)
  case down =>
    intro s p hp hon hlink
    have hfabric : macFabric p = p := if_pos (Nat.le_of_lt_succ hp)
    refine ⟨_, exec_linkDownTimeout hp hon, ?port, ?flag, fun hrun => ?undefined, fun hrun => ?defined, fun q hq => ?others⟩
    case port => rw [ethAt_after, linkGoesDown_eth hlink, linkLost_ethAt_same]
    case flag =>
      rw [regN_after s _ (ethFlag_ge p), linkGoesDown_regN hlink]
      exact bit_ethFlag _ p (by decide)
    case undefined =>
      rw [undefEgress_after, linkGoesDown_up hlink, if_pos hrun, hfabric]
      exact bit_or_two_pow_same _ _
    case defined =>
      rw [undefEgress_after, linkGoesDown_up hlink, if_neg (Bool.eq_false_iff.mp hrun)]
      rfl
    case others => rw [ethAt_after, linkGoesDown_eth hlink, linkLost_ethAt_ne _ hq]
  case verify =>
    intro s p answered hup hpre hver hrun hno hsent hdue
    rw [exec_verifyFrameTimer, verifyTimer_sends hup hpre hver hrun hno hsent hdue]
  case success =>
    intro s p hup hpre hver hrun hsent
    rw [exec_verifyFrameTimer, verifyTimer_succeeds hup hpre hver hrun hsent]
  case failure =>
    intro s p hup hpre hver hrun hsent hdue
    rw [exec_verifyFrameTimer, verifyTimer_fails hup hpre hver hrun hsent hdue]
    rfl
  case answer =>
    intro s p rx hc hv
    rw [exec_ethFrameReceive, ethReceive_verify hc hv]
    rfl

end Sys2Proof.Machine
end

section
/-! SUPPORT. ETH_PORT_CTL (R607): ADMIN_DOWN of a port with no running link; the rows of an opcode with two instructions, and
what a reply leaves of ports, controllers, outputs and registers. -/

namespace Sys2Proof.Machine

/-! ### Rows of two instructions, and what a reply leaves -/

theorem pickRow_mine {mine : Gw → Bool} {m : Nat} {s : State} (row : Nat → State → State) (h : mine s.gw = true) :
    pickRow mine row m s = row m s := if_pos h

theorem answer_pickRow {mine : Gw → Bool} {m : Nat} {s : State} {row : Nat → State → State} (h : mine s.gw = true) :
    answer (pickRow mine row m) s = answer (row m) s := by
  unfold answer
  rw [pickRow_mine row h]

theorem lt_of_holds {g : Gw} {m code : Nat} (h : g.holds m code = true) : m < 64 := by
  simp only [Gw.holds, Bool.and_eq_true, decide_eq_true_eq] at h
  obtain ⟨⟨⟨hm, -⟩, -⟩, -⟩ := h
  exact hm

@[simp] theorem reply_eth (g : Gw) (m st : Nat) (a : Stamp) (ws : List Nat) : (g.reply m st a ws).eth = g.eth := by
  obtain ⟨rs, ms, h, -⟩ := reply_shape g m st a ws
  rw [h]

@[simp] theorem reply_can (g : Gw) (m st : Nat) (a : Stamp) (ws : List Nat) : (g.reply m st a ws).can = g.can := by
  obtain ⟨rs, ms, h, -⟩ := reply_shape g m st a ws
  rw [h]

@[simp] theorem reply_out (g : Gw) (m st : Nat) (a : Stamp) (ws : List Nat) : (g.reply m st a ws).out = g.out := by
  obtain ⟨rs, ms, h, -⟩ := reply_shape g m st a ws
  rw [h]

theorem ethAt_replied (s : State) (g : Gw) (m p : Nat) (ws : List Nat) :
    (s.after (g.reply m 0 0 ws)).gw.ethAt p = g.ethAt p := by
  rw [ethAt_after, Gw.ethAt, reply_eth, Gw.ethAt]

theorem canAt_replied (s : State) (g : Gw) (m c : Nat) (ws : List Nat) :
    (s.after (g.reply m 0 0 ws)).gw.canAt c = g.canAt c := by
  rw [canAt_after, Gw.canAt, reply_can, Gw.canAt]

theorem regN_putWords_ne {m o : Nat} (ws : List Nat) (g : Gw) (i : Nat)
    (h : ∀ j, j < i + ws.length → o ≠ mbxOff m j) : (g.putWords m i ws).regN o = g.regN o := by
  induction ws generalizing g i with
  | nil => rfl
  | cons w r ih =>
    rw [Gw.putWords, ih _ (i + 1) fun j hj => h j (by rw [List.length_cons]; omega)]
    exact regN_setRegN_ne g w (h i (by rw [List.length_cons]; omega))

/-- A reply that fits its mailbox leaves the registers above the mailboxes and MBX_DONE. -/
theorem regN_reply_above (g : Gw) {m o : Nat} (st : Nat) (a : Stamp) (ws : List Nat) (hm : m < 64) (hws : ws.length ≤ 252)
    (ho : 0x30118 ≤ o) : (g.reply m st a ws).regN o = g.regN o := by
  have hword : ∀ j, j < 256 → o ≠ mbxOff m j := fun j hj => by
    simp only [mbxOff, Reg.mbxWord]
    omega
  have hdone : o ≠ Reg.mbxDone (m / 32) := by
    simp only [Reg.mbxDone]
    omega
  have hset : ∀ (h : Gw) (x : Mbx) (y : Option MbxRecord), (((h.setMbx m x).flag (Reg.mbxDone (m / 32)) (2 ^ (m % 32))).setMbx m
      { ((h.setMbx m x).flag (Reg.mbxDone (m / 32)) (2 ^ (m % 32))).mbxAt m with last := y }).regN o = h.regN o :=
    fun h x y => regN_flag_ne (h.setMbx m x) hdone
  have hhead : ∀ (h : Gw) (a b c d : Nat), ((((h.setRegN (mbxOff m 0) a).setRegN (mbxOff m 1) b).setRegN (mbxOff m 2)
      c).setRegN (mbxOff m 3) d).regN o = h.regN o := fun h a b c d => by
    rw [regN_setRegN_ne _ _ (hword 3 (by decide)), regN_setRegN_ne _ _ (hword 2 (by decide)),
      regN_setRegN_ne _ _ (hword 1 (by decide)), regN_setRegN_ne _ _ (hword 0 (by decide))]
  have hwords : ∀ h : Gw, (h.putWords m 4 ws).regN o = h.regN o := fun h =>
    regN_putWords_ne ws h 4 fun j hj => hword j (by omega)
  have hblank : ∀ h : Gw, (h.putWords m 5 (List.replicate 8 0)).regN o = h.regN o := fun h =>
    regN_putWords_ne _ h 5 fun j hj => hword j (by rw [List.length_replicate] at hj; omega)
  unfold Gw.reply Gw.replyRaw
  dsimp only
  rw [hset]
  split
  · rw [hblank, hwords, hhead]
  · rw [hwords, hhead]

/-! ### ADMIN_DOWN (R272, R607) -/

theorem linkRises_ethAt_ne (g : Gw) {p q : Nat} (h : q ≠ p) : (g.linkRises p).ethAt q = g.ethAt q :=
  (ethAt_setEth g q p _).trans (if_neg h)

theorem chainLink_ethAt_ne (g : Gw) {p q : Nat} (h : q ≠ p) : (g.chainLink p).ethAt q = g.ethAt q := by
  unfold Gw.chainLink
  dsimp only
  split
  · exact linkRises_ethAt_ne g h
  · rfl

/-- The link of a port that is no aligned chain port stays as it is. -/
theorem chainLink_stays {g : Gw} {p : Nat} (h : p ≤ 11 ∨ (mgetD g.chn.ports (p - 12) {}).aligned = false) :
    g.chainLink p = g := by
  refine if_neg fun hup => ?_
  simp only [Bool.and_eq_true, decide_eq_true_eq] at hup
  obtain ⟨⟨⟨hchain, haligned⟩, -⟩, -⟩ := hup
  rcases h with hp | hlack
  · omega
  · exact absurd haligned (by rw [hlack]; decide)

theorem chainLink_rises {g : Gw} {p : Nat} (hp : 12 ≤ p) (ha : (mgetD g.chn.ports (p - 12) {}).aligned = true)
    (hdown : (g.ethAt p).adminDown = false) (hlink : (g.ethAt p).link = false) : g.chainLink p = g.linkRises p := by
  simp [Gw.chainLink, hp, ha, hdown, hlink]

theorem linkRises_ethAt_same (g : Gw) (p : Nat) : (g.linkRises p).ethAt p =
    { g.ethAt p with link := true, rateErr := false, verify := if g.preEn p && g.verifyEn p then 1 else 0,
                     verifySent := 0, verifyAt := g.tb.tick } := ethAt_setEth_same _ _ _

/-- ADMIN_DOWN of a port is set or released, before a released chain port may link up. -/
def Gw.adminSet (g : Gw) (p : Nat) (down : Bool) : Gw :=
  let h := if down then g.linkGoesDown p else g
  h.setEth p { h.ethAt p with adminDown := down }

theorem setAdmin_eq (g : Gw) (p : Nat) (down : Bool) :
    g.setAdmin p down = if down then g.adminSet p down else (g.adminSet p down).chainLink p := rfl

section
variable {g : Gw} {p : Nat} (hlink : (g.ethAt p).link = false) (hrate : (g.ethAt p).rateErr = false)
include hlink hrate

/-- Without link there is nothing to bring down. -/
theorem linkGoesDown_idle : g.linkGoesDown p = g.setEth p (g.ethAt p) := by
  have hsame : { g.ethAt p with rateErr := false } = g.ethAt p := by rw [← hrate]
  exact (if_pos (by rw [hlink]; rfl)).trans (congrArg (g.setEth p) hsame)

theorem adminSet_idle (down : Bool) : (g.adminSet p down).chn = g.chn ∧
    (g.adminSet p down).ethAt p = { g.ethAt p with adminDown := down } ∧
    ∀ q, q ≠ p → (g.adminSet p down).ethAt q = g.ethAt q := by
  unfold Gw.adminSet
  dsimp only
  cases down with
  | false => exact ⟨rfl, ethAt_setEth_same _ _ _, fun q hq => (ethAt_setEth g q p _).trans (if_neg hq)⟩
  | true =>
    rw [if_pos rfl, linkGoesDown_idle hlink hrate]
    refine ⟨rfl, by rw [ethAt_setEth_same, ethAt_setEth_same], fun q hq => ?_⟩
    rw [ethAt_setEth, if_neg hq, ethAt_setEth, if_neg hq]

/-- A released aligned chain port links up; any other port changes its ADMIN_DOWN alone. -/
theorem setAdmin_stays {down : Bool} (h : down = true ∨ p ≤ 11 ∨ (mgetD g.chn.ports (p - 12) {}).aligned = false) :
    (g.setAdmin p down).ethAt p = { g.ethAt p with adminDown := down } := by
  obtain ⟨hchn, hport, -⟩ := adminSet_idle hlink hrate down
  rw [setAdmin_eq]
  split
  · exact hport
  · next hup => rw [chainLink_stays (by rw [hchn]; exact h.resolve_left hup), hport]

theorem setAdmin_rises (hp : 12 ≤ p) (ha : (mgetD g.chn.ports (p - 12) {}).aligned = true) :
    (g.setAdmin p false).ethAt p = { g.ethAt p with
      adminDown := false
      link := true
      rateErr := false
      verify := if g.preEn p && g.verifyEn p then 1 else 0
      verifySent := 0
      verifyAt := g.tb.tick } := by
  obtain ⟨hchn, hport, -⟩ := adminSet_idle hlink hrate false
  rw [setAdmin_eq, if_neg Bool.false_ne_true, chainLink_rises hp (by rw [hchn]; exact ha) (by rw [hport])
    (by rw [hport]; exact hlink), linkRises_ethAt_same, hport]
  rfl

theorem setAdmin_adminDown (down : Bool) : ((g.setAdmin p down).ethAt p).adminDown = down := by
  by_cases h : down = true ∨ p ≤ 11 ∨ (mgetD g.chn.ports (p - 12) {}).aligned = false
  · rw [setAdmin_stays hlink hrate h]
  · simp only [not_or, Bool.not_eq_true, Bool.not_eq_false, Nat.not_le] at h
    obtain ⟨rfl, hp, ha⟩ := h
    rw [setAdmin_rises hlink hrate hp ha]

theorem setAdmin_others (down : Bool) {q : Nat} (hq : q ≠ p) : (g.setAdmin p down).ethAt q = g.ethAt q := by
  obtain ⟨-, -, hothers⟩ := adminSet_idle hlink hrate down
  rw [setAdmin_eq]
  split
  · exact hothers q hq
  · exact (chainLink_ethAt_ne _ hq).trans (hothers q hq)

end

section
variable {s : State} {m : Nat} (h : s.gw.holds m 0x0601 = true)
include h

theorem exec_ethPortCtlAdmin (hadmin : bit (s.gw.arg m 0) 9 = false) (hp : bits (s.gw.arg m 0) 3 0 ≤ 13) :
    exec (.ethPortCtlAdmin m) s = .next (s.after
      ((s.gw.setAdmin (bits (s.gw.arg m 0) 3 0) (bit (s.gw.arg m 0) 8)).reply m 0 0
        [(s.gw.setAdmin (bits (s.gw.arg m 0) 3 0) (bit (s.gw.arg m 0) 8)).portStat (bits (s.gw.arg m 0) 3 0)])) :=
  answer_of_withGw ((pickRow_mine _ (by rw [hadmin]; rfl)).trans (directRow_words h (if_neg (Nat.not_lt.mpr hp))))

/-- ADMIN_DOWN set or released, and auto-negotiation restarted. -/
def Gw.anRestarted (g : Gw) (p : Nat) (down : Bool) : Gw := (g.setAdmin p down).emit (.anRestart p)

theorem exec_ethPortCtlAnRestart (han : bit (s.gw.arg m 0) 9 = true) (hp : bits (s.gw.arg m 0) 3 0 ≤ 11)
    (hmode : anMode (s.gw.ethMode (bits (s.gw.arg m 0) 3 0)) = true) :
    exec (.ethPortCtlAnRestart m) s = .next (s.after
      ((s.gw.anRestarted (bits (s.gw.arg m 0) 3 0) (bit (s.gw.arg m 0) 8)).reply m 0 0
        [(s.gw.anRestarted (bits (s.gw.arg m 0) 3 0) (bit (s.gw.arg m 0) 8)).portStat (bits (s.gw.arg m 0) 3 0)])) := by
  have hok : ¬((decide (11 < bits (s.gw.arg m 0) 3 0) || !anMode (s.gw.ethMode (bits (s.gw.arg m 0) 3 0))) = true) := by
    simp [hmode, hp]
  exact answer_of_withGw ((pickRow_mine _ han).trans (directRow_words h (if_neg hok)))

theorem exec_ethPortCtlAnRestart_refused (han : bit (s.gw.arg m 0) 9 = true)
    (hbad : 11 < bits (s.gw.arg m 0) 3 0 ∨ anMode (s.gw.ethMode (bits (s.gw.arg m 0) 3 0)) = false) :
    exec (.ethPortCtlAnRestart m) s = .next (s.after (s.gw.reply m 0x03 0 [])) := by
  have hno : (decide (11 < bits (s.gw.arg m 0) 3 0) || !anMode (s.gw.ethMode (bits (s.gw.arg m 0) 3 0))) = true := by
    simpa using hbad
  exact answer_of_withGw ((pickRow_mine _ han).trans (directRow_failWith h (if_pos hno)))

end

end Sys2Proof.Machine
end

section
/-! SUPPORT. CAN_RECOVER (R608) and CAN_OWN (R609): the recovery of a controller, and what a change of its owner does to it and
leaves of the others. -/

namespace Sys2Proof.Machine

/-! ### CAN_RECOVER (R355, R608) -/

section
variable {g : Gw} {m c : Nat} (hc : c = bits (g.arg m 0) 4 0)
include hc

theorem canRecover_onBus (hoff : (g.canAt c).busOff = false) : canRecover m g = (g, failWith stBadArg) := by
  subst hc
  exact if_pos (by rw [hoff]; rfl)

theorem canRecover_hostOwned (hoff : (g.canAt c).busOff = true) (hhost : (g.canAt c).host = true) :
    canRecover m g = (g, failWith stLocked) := by
  subst hc
  simp only [canRecover, hoff, hhost, Bool.not_true, Bool.false_eq_true, if_false, if_true]

theorem canRecover_begins (hoff : (g.canAt c).busOff = true) (hhost : (g.canAt c).host = false)
    (hidle : (g.canAt c).recovering = false) :
    canRecover m g = (g.setCan c { g.canAt c with recovering := true, recFrom := g.tb.tick }, {}) := by
  subst hc
  simp only [canRecover, Gw.beginRecovery, hoff, hhost, hidle, Bool.not_true, Bool.not_false, Bool.and_true,
    Bool.false_eq_true, if_false, if_true]

end

/-! ### What stays within one controller -/

/-- Nothing of another controller changes, and none of the frames that wait for a change of owner of `c` is lost. -/
structure WithinCan (g h : Gw) (c : Nat) : Prop where
  others : ∀ d, d ≠ c → h.canAt d = g.canAt d
  later : (h.canAt c).later = (g.canAt c).later

theorem WithinCan.refl (g : Gw) (c : Nat) : WithinCan g g c := ⟨fun _ _ => rfl, rfl⟩

theorem WithinCan.trans {g h k : Gw} {c : Nat} (a : WithinCan g h c) (b : WithinCan h k c) : WithinCan g k c :=
  ⟨fun d hd => (b.others d hd).trans (a.others d hd), b.later.trans a.later⟩

theorem canAt_congr {g h : Gw} (e : h.can = g.can) (c : Nat) : h.canAt c = g.canAt c := by rw [Gw.canAt, e, Gw.canAt]

theorem WithinCan.of_can {g h : Gw} (e : h.can = g.can) (c : Nat) : WithinCan g h c :=
  ⟨fun d _ => canAt_congr e d, congrArg CanCtl.later (canAt_congr e c)⟩

theorem withinCan_setCan {g : Gw} {c : Nat} {x : CanCtl} (h : x.later = (g.canAt c).later) : WithinCan g (g.setCan c x) c :=
  ⟨fun d hd => (canAt_setCan g d c x).trans (if_neg hd), by rw [canAt_setCan_same, h]⟩

@[simp] theorem mbEvent_can (g : Gw) (c n : Nat) : (g.mbEvent c n).can = g.can := by
  unfold Gw.mbEvent
  split <;> rfl

theorem putData_later (x : CanCtl) (i : Nat) (ws : List W32) : (x.putData i ws).later = x.later := by
  induction ws generalizing x i with
  | nil => rfl
  | cons w r ih => exact ih (x.setWord i w.toNat) (i + 1)

theorem setWord_later (x : CanCtl) (i v : Nat) : (x.setWord i v).later = x.later := rfl

theorem setCode_later (x : CanCtl) (n code : Nat) : (x.setCode n code).later = x.later := setWord_later _ _ _

theorem fill_later (x : CanCtl) (n : Nat) (b : BusFrame) (cnt : Nat) : (x.fill n b cnt).later = x.later := by
  unfold CanCtl.fill
  dsimp only
  rw [putData_later, setWord_later, setWord_later, setWord_later, setWord_later, setWord_later]

theorem mbCode_withinCan (g : Gw) (c n code : Nat) : WithinCan g (g.mbCode c n code) c := by
  have hcode : WithinCan g (g.setCan c ((g.canAt c).setCode n code)) c := withinCan_setCan (setCode_later _ _ _)
  unfold Gw.mbCode
  dsimp only
  split
  · exact hcode.trans (.of_can (mbEvent_can _ _ _) c)
  · exact hcode

theorem mbOutcome_withinCan (g : Gw) (c n code : Nat) (ts : Option Nat) : WithinCan g (g.mbOutcome c n code ts) c := by
  unfold Gw.mbOutcome
  dsimp only
  split
  · exact withinCan_setCan rfl
  · cases ts with
    | none => exact mbCode_withinCan g c n code
    | some t =>
      have hts : WithinCan g (g.setCan c ((g.canAt c).setWord (8 * n + 6) t)) c :=
        withinCan_setCan (setWord_later _ _ _)
      exact hts.trans (mbCode_withinCan _ c n code)

theorem releaseLock_withinCan (g : Gw) (c : Nat) : WithinCan g (g.releaseLock c) c := by
  unfold Gw.releaseLock
  dsimp only
  cases (g.canAt c).lock with
  | none => exact .refl g c
  | some l =>
    have hfree : WithinCan g (g.setCan c { g.canAt c with lock := none, shadow := none, done := none }) c :=
      withinCan_setCan rfl
    cases (g.canAt c).shadow with
    | none =>
      cases (g.canAt c).done with
      | none => exact hfree
      | some d => exact hfree.trans (mbOutcome_withinCan _ c l.1 d.1 d.2)
    | some f =>
      have hshadow := (hfree.trans (withinCan_setCan (fill_later _ l.1 f.1 f.2))).trans (.of_can (mbEvent_can _ c l.1) c)
      cases (g.canAt c).done with
      | none => exact hshadow
      | some d => exact hshadow.trans (mbOutcome_withinCan _ c l.1 d.1 d.2)

/-! ### The codes of the buffers (R332, R361) -/

theorem word_setWord (x : CanCtl) (i j v : Nat) : (x.setWord i v).word j =
    if j = i then (if 0x420 ≤ i && i < 0x600 then 0 else v % 2 ^ 32) else x.word j := by
  unfold CanCtl.word CanCtl.setWord
  dsimp only
  rw [mgetD_mput]
  by_cases hj : j = i
  · rw [if_pos hj, if_pos hj, hj, w32, BitVec.toNat_ofNat]
  · rw [if_neg hj, if_neg hj]

theorem code_setCode_inactive (x : CanCtl) (n k : Nat) : (x.setCode n 0).code k = if k = n then 0 else x.code k := by
  unfold CanCtl.code CanCtl.setCode CanCtl.hdr
  rw [word_setWord]
  by_cases hk : k = n
  · subst hk
    rw [if_pos (by omega), if_pos rfl]
    split
    · rfl
    · simp only [setBits, bits, Nat.shiftRight_eq_div_pow]
      omega
  · rw [if_neg (by omega), if_neg hk]

theorem code_foldl_inactive (l : List Nat) (x : CanCtl) (n : Nat) :
    (l.foldl (fun x n => x.setCode n 0) x).code n = if n ∈ l then 0 else x.code n := by
  induction l generalizing x with
  | nil => simp
  | cons k r ih =>
    rw [List.foldl_cons, ih, code_setCode_inactive]
    by_cases hk : n = k <;> simp [hk]

/-! ### The owner of a controller (R320, R361, R363) -/

/-- A controller without waiting frames is as it was once they are offered. -/
theorem offerLater_idle {g : Gw} {c : Nat} (h : (g.canAt c).later = []) : g.offerLater c = g.setCan c (g.canAt c) := by
  have hsame : { g.canAt c with later := [] } = g.canAt c := by rw [← h]
  rw [Gw.offerLater, h, hsame]
  rfl

theorem canAt_offerLater_idle {g : Gw} {c : Nat} (h : (g.canAt c).later = []) (d : Nat) :
    (g.offerLater c).canAt d = g.canAt d := by
  rw [offerLater_idle h, canAt_setCan]
  split
  · next hd => rw [hd]
  · rfl

theorem regN_offerLater_idle {g : Gw} {c : Nat} (h : (g.canAt c).later = []) (o : Nat) :
    (g.offerLater c).regN o = g.regN o := by
  rw [offerLater_idle h]
  rfl

/-- The module once a change of owner of `c` at stamp `t` is noted for the order, and the frames that waited for it are
offered. -/
def Gw.ownerChanged (g : Gw) (c : Nat) (t : Stamp) : Gw := (g.ownFrom c t).offerLater c

section
variable {g : Gw} {c : Nat} (t : Stamp) (h : (g.canAt c).later = [])
include h

theorem ownFrom_later : ((g.ownFrom c t).canAt c).later = [] := by
  rw [Gw.ownFrom, canAt_setCan_same, h]

theorem ownerChanged_canAt_same : (g.ownerChanged c t).canAt c =
    { g.canAt c with owners := (g.str.relSeg, t, (g.canAt c).host) :: (g.canAt c).owners } :=
  (canAt_offerLater_idle (ownFrom_later t h) c).trans (canAt_setCan_same _ _ _)

theorem ownerChanged_canAt_ne {d : Nat} (hd : d ≠ c) : (g.ownerChanged c t).canAt d = g.canAt d :=
  (canAt_offerLater_idle (ownFrom_later t h) d).trans ((canAt_setCan g d c _).trans (if_neg hd))

theorem ownerChanged_regN (o : Nat) : (g.ownerChanged c t).regN o = g.regN o :=
  regN_offerLater_idle (ownFrom_later t h) o

end

/-- Host software holds a controller through slot `k`: its buffers are INACTIVE and the slot names it. -/
structure HostHolds (g : Gw) (c k : Nat) : Prop where
  host : (g.canAt c).host = true
  slot : (g.canAt c).slot = some k
  inactive : ∀ n, n < 64 → (g.canAt c).code n = 0
  bound : g.regN (Reg.canDwSlot k) = 2 ^ 31 + c

/-- All 64 buffers INACTIVE. -/
def CanCtl.allInactive (x : CanCtl) : CanCtl := (List.range 64).foldl (fun x n => x.setCode n 0) x

theorem allInactive_later (x : CanCtl) : x.allInactive.later = x.later :=
  foldl_same CanCtl.later (fun x n => setCode_later x n 0) (List.range 64) x

theorem allInactive_code (x : CanCtl) {n : Nat} (hn : n < 64) : x.allInactive.code n = 0 := by
  rw [CanCtl.allInactive, code_foldl_inactive, if_pos (List.mem_range.mpr hn)]

/-- The controller once host software has it through slot `k`: no buffer in use, the gateway's frame on the bus (`q`, `t`) going
on to its end. -/
def CanCtl.taken (x : CanCtl) (k : Nat) (q : List GtqFrame) (t : Option CanTx) : CanCtl :=
  { x.allInactive with host := true, slot := some k, gtq := q, tx := t }

theorem taken_later (x : CanCtl) (k : Nat) (q : List GtqFrame) (t : Option CanTx) : (x.taken k q t).later = x.later := by
  unfold CanCtl.taken
  dsimp only
  exact allInactive_later x

theorem canTake_can (g : Gw) (c k : Nat) : ∃ q t,
    (g.canTake c k).can = ((g.releaseLock c).setCan c (((g.releaseLock c).canAt c).taken k q t)).can := ⟨_, _, rfl⟩

theorem canTake_withinCan (g : Gw) (c k : Nat) : WithinCan g (g.canTake c k) c := by
  obtain ⟨q, t, hcan⟩ := canTake_can g c k
  exact (releaseLock_withinCan g c).trans ((withinCan_setCan (taken_later _ k q t)).trans (.of_can hcan c))

theorem canTake_hostHolds (g : Gw) {c k : Nat} (hc : c < 32) : HostHolds (g.canTake c k) c k := by
  obtain ⟨q, t, hcan⟩ := canTake_can g c k
  have hport : (g.canTake c k).canAt c = ((g.releaseLock c).canAt c).taken k q t :=
    (canAt_congr hcan c).trans (canAt_setCan_same _ _ _)
  refine ⟨by rw [hport]; rfl, by rw [hport]; rfl, fun n hn => ?inactive, regN_setRegN_same _ _ (by omega)⟩
  case inactive =>
    rw [hport]
    exact allInactive_code _ hn

/-- The controller given back: what it still sends (`t`) aside, it stands as the configuration image has it. -/
def CanCtl.given (x : CanCtl) (t : Option CanTx) : CanCtl :=
  { x with host := false, slot := none, ram := x.image, tx := t, lock := none, shadow := none, done := none }

theorem canGive_canAt (g : Gw) (c : Nat) : ∃ t, (g.canGive c).canAt c = (g.canAt c).given t :=
  ⟨_, canAt_setCan_same _ _ _⟩

theorem canGive_slot {g : Gw} {c k : Nat} (hslot : (g.canAt c).slot = some k) (hk : k < 8) :
    (g.canGive c).regN (Reg.canDwSlot k) = 0 := by
  have hne : Reg.canDwSlot k ≠ Reg.canHctl c := by
    simp only [Reg.canDwSlot, Reg.canHctl]
    omega
  unfold Gw.canGive
  dsimp only
  rw [hslot, regN_setRegN_ne _ _ hne]
  exact regN_setRegN_same _ _ (by decide)

/-- The lowest free slot is found. -/
theorem freeSlotDw_some {g : Gw} {k : Nat} (hk : k < 8) (hfree : g.regN (Reg.canDwSlot k) = 0)
    (hlow : ∀ j, j < k → g.regN (Reg.canDwSlot j) ≠ 0) : g.freeSlotDw = some k := by
  rw [Gw.freeSlotDw, List.find?_range_eq_some]
  exact ⟨decide_eq_true hfree, List.mem_range.mpr hk, fun j hj => by simp [hlow j hj]⟩

theorem freeSlotDw_none {g : Gw} (h : ∀ k, k < 8 → g.regN (Reg.canDwSlot k) ≠ 0) : g.freeSlotDw = none := by
  rw [Gw.freeSlotDw, List.find?_eq_none]
  intro k hk
  simp [h k (List.mem_range.mp hk)]

section
variable {g : Gw} {m c : Nat} (hc : c = bits (g.arg m 0) 4 0) (t : Stamp)
include hc

theorem canOwnTake_taken (hhost : (g.canAt c).host = true) : canOwnTake m t g = (g.offerLater c, failWith stLocked) := by
  subst hc
  exact if_pos hhost

theorem canOwnTake_noSlot (hhost : (g.canAt c).host = false) (hslots : g.freeSlotDw = none) :
    canOwnTake m t g = (g.offerLater c, failWith stNoRoom) := by
  subst hc
  simp only [canOwnTake, hhost, hslots, Bool.false_eq_true, if_false]

theorem canOwnTake_binds {k : Nat} (hhost : (g.canAt c).host = false) (hslot : g.freeSlotDw = some k) :
    canOwnTake m t g = ((g.canTake c k).ownerChanged c t, { words := [2 ^ 31 + k] }) := by
  subst hc
  simp only [canOwnTake, hhost, hslot, Bool.false_eq_true, if_false, Gw.ownerChanged]

theorem canOwnGive_gateway (hhost : (g.canAt c).host = false) : canOwnGive m t g = (g.offerLater c, failWith stBadArg) := by
  subst hc
  exact if_neg (Bool.eq_false_iff.mp hhost)

theorem canOwnGive_returns (hhost : (g.canAt c).host = true) :
    canOwnGive m t g = ((g.canGive c).ownerChanged c t, { words := [0] }) := by
  subst hc
  exact if_pos hhost

end

theorem exec_canOwnTake {s : State} {m : Nat} (h : bit (s.gw.arg m 0) 31 = true) :
    exec (.canOwnTake m) s = answer (changeRow 0x0708 (effAt canOwnTake) m) s := answer_pickRow h

theorem exec_canOwnGive {s : State} {m : Nat} (h : bit (s.gw.arg m 0) 31 = false) :
    exec (.canOwnGive m) s = answer (changeRow 0x0708 (effAt canOwnGive) m) s := answer_pickRow (by rw [h]; rfl)

/-- A register of a direct-window slot after the reply of a request. -/
theorem regN_canDwSlot_replied (s : State) (g : Gw) {m code : Nat} (h : s.gw.holds m code = true) (k w : Nat) :
    (s.after (g.reply m 0 0 [w])).gw.regN (Reg.canDwSlot k) = g.regN (Reg.canDwSlot k) := by
  rw [regN_after s _ (by simp only [Reg.canDwSlot]; omega)]
  exact regN_reply_above g 0 0 [w] (lt_of_holds h) (by simp) (by simp only [Reg.canDwSlot]; omega)

end Sys2Proof.Machine
end

section
/-! The statement on the commands of ports and controllers. -/

namespace Sys2Proof.Machine

/-- Settles O36, command by command: a port by the record that it leaves, an owner's change by the controller that it leaves. -/
theorem portAndControllerCommands : Obligations.PortAndControllerCommands := by
  refine ⟨?admin, ?restart, ?recover, ?take, ?give⟩
  case admin =>
    rintro s m _ hholds hadmin rfl hp hlink hrate
    refine ⟨_, exec_ethPortCtlAdmin hholds hadmin hp, ?adminDown, fun hstays => ?stays, fun hup hchain ha => ?rises,
      fun q hq => ?others, done_replied _ _ _ _⟩ <;> rw [ethAt_replied]
    case adminDown => exact setAdmin_adminDown hlink hrate _
    case stays => exact setAdmin_stays hlink hrate hstays
    case rises => rw [hup, setAdmin_rises hlink hrate hchain ha]
    case others => exact setAdmin_others hlink hrate _ hq
  case restart =>
    rintro s m _ hholds han rfl
    refine ⟨fun hp hmode hlink hrate => ?restarts, exec_ethPortCtlAnRestart_refused hholds han⟩
    refine ⟨_, exec_ethPortCtlAnRestart hholds han hp hmode, ?out, ?adminDown, done_replied _ _ _ _⟩
    case out =>
      rw [List.contains_iff_mem]
      refine mem_out_interrupts _ ?_
      rw [reply_out]
      exact List.mem_append_right _ (List.mem_singleton_self _)
    case adminDown =>
      rw [ethAt_replied]
      exact setAdmin_adminDown hlink hrate _
  case recover =>
    intro s m c hholds hc
    refine ⟨fun hoff => ?onBus, fun hoff hhost => ?hostOwned, fun hoff hhost hidle => ?begins⟩
    case onBus => exact answer_of_withGw (directRow_failWith hholds (canRecover_onBus hc hoff))
    case hostOwned => exact answer_of_withGw (directRow_failWith hholds (canRecover_hostOwned hc hoff hhost))
    case begins => exact answer_of_withGw (directRow_words hholds (canRecover_begins hc hoff hhost hidle))
  case take =>
    intro s m c hholds hconfig htake hc
    rw [exec_canOwnTake htake]
    refine ⟨fun hhost => ?taken, fun hhost hslots => ?noSlot, fun k hlater hhost hk hfree hlow => ?binds⟩
    case taken => exact changeRow_config_failWith hholds hconfig (effAt_of_eq (canOwnTake_taken hc 0 hhost))
    case noSlot =>
      exact changeRow_config_failWith hholds hconfig (effAt_of_eq (canOwnTake_noSlot hc 0 hhost (freeSlotDw_none hslots)))
    case binds =>
      have hslot := freeSlotDw_some hk hfree hlow
      have hc32 : c < 32 := hc ▸ Nat.mod_lt _ (by decide)
      have hwithin := canTake_withinCan s.gw c k
      have hidle := hwithin.later.trans hlater
      obtain ⟨hown, hbound, hcodes, hreg⟩ := canTake_hostHolds s.gw (k := k) hc32
      refine ⟨_, changeRow_config_reply hholds hconfig (canOwnTake_binds hc 0 hhost hslot), ?_⟩
      simp only [canAt_replied, regN_canDwSlot_replied s _ hholds, ownerChanged_canAt_same 0 hidle,
        ownerChanged_regN 0 hidle]
      refine ⟨hown, hbound, hreg, hcodes, fun d hd => ?others⟩
      rw [ownerChanged_canAt_ne 0 hidle hd, hwithin.others d hd]
  case give =>
    intro s m c hholds hconfig hgive hc
    rw [exec_canOwnGive hgive]
    refine ⟨fun hhost => ?gateway, fun k hlater hhost hslot hk => ?returns⟩
    case gateway => exact changeRow_config_failWith hholds hconfig (effAt_of_eq (canOwnGive_gateway hc 0 hhost))
    case returns =>
      obtain ⟨tx, hport⟩ := canGive_canAt s.gw c
      have hidle : ((s.gw.canGive c).canAt c).later = [] := by rw [hport]; exact hlater
      refine ⟨_, changeRow_config_reply hholds hconfig (canOwnGive_returns hc 0 hhost), ?_⟩
      rw [canAt_replied, regN_canDwSlot_replied s _ hholds, ownerChanged_canAt_same 0 hidle, ownerChanged_regN 0 hidle,
        hport]
      exact ⟨rfl, rfl, rfl, canGive_slot hslot hk⟩

end Sys2Proof.Machine
end

section
/-! SUPPORT. The words of a message buffer (R331, R332): what a header or data word reads after a write, after a received frame
(R333) and after an owner's header write. -/

namespace Sys2Proof.Machine

/-! ### Fields of a number -/

theorem bits_lt (v : Nat) {hi lo : Nat} : bits v hi lo < 2 ^ (hi - lo + 1) := Nat.mod_lt _ (Nat.two_pow_pos _)

theorem bits_and (v m hi lo : Nat) : bits (v &&& m) hi lo = bits v hi lo &&& bits m hi lo := by
  simp only [bits, Nat.shiftRight_and_distrib, Nat.and_mod_two_pow]

/-- A mask of ones over a field leaves it. -/
theorem bits_and_of_ones (v : Nat) {m hi lo : Nat} (h : bits m hi lo = 2 ^ (hi - lo + 1) - 1) :
    bits (v &&& m) hi lo = bits v hi lo := by
  rw [bits_and, h, Nat.and_two_pow_sub_one_eq_mod, Nat.mod_eq_of_lt (bits_lt v)]

theorem atBit_le (i : Nat) (b : Bool) : atBit i b ≤ 2 ^ i := by
  cases b
  · exact Nat.zero_le _
  · exact Nat.le_refl _

theorem setBits_code {v k : Nat} (hv : v < 2 ^ 32) (hk : k < 16) : setBits v 31 28 k = k * 2 ^ 28 + v % 2 ^ 28 := by
  simp only [setBits, bits, Nat.shiftRight_eq_div_pow]
  omega

theorem bits_code {k r : Nat} (hk : k < 16) (hr : r < 2 ^ 28) : bits (k * 2 ^ 28 + r) 31 28 = k := by
  simp only [bits, Nat.shiftRight_eq_div_pow]
  omega

theorem setBits_code_lt {v k : Nat} (hv : v < 2 ^ 32) (hk : k < 16) : setBits v 31 28 k < 2 ^ 32 := by
  rw [setBits_code hv hk]
  omega

theorem bits_setBits_code {v k : Nat} (hv : v < 2 ^ 32) (hk : k < 16) : bits (setBits v 31 28 k) 31 28 = k := by
  rw [setBits_code hv hk]
  exact bits_code hk (Nat.mod_lt _ (by decide))

/-- A new CODE leaves the length. -/
theorem bits_length_setBits_code {v k : Nat} (hv : v < 2 ^ 32) (hk : k < 16) :
    bits (setBits v 31 28 k) 11 0 = bits v 11 0 := by
  rw [setBits_code hv hk]
  simp only [bits, Nat.shiftRight_eq_div_pow]
  omega

/-! ### Header and data words -/

theorem word_lt (x : CanCtl) (i : Nat) : x.word i < 2 ^ 32 := by
  unfold CanCtl.word
  split
  · decide
  · exact (mgetD x.ram i 0).isLt

theorem word_congr {x y : CanCtl} (h : y.ram = x.ram) (i : Nat) : y.word i = x.word i := by simp only [CanCtl.word, h]

theorem hdr_congr {x y : CanCtl} (h : y.ram = x.ram) (n i : Nat) : y.hdr n i = x.hdr n i := word_congr h _

theorem code_congr {x y : CanCtl} (h : y.ram = x.ram) (n : Nat) : y.code n = x.code n := by
  simp only [CanCtl.code, hdr_congr h]

theorem word_setWord_same (x : CanCtl) {i : Nat} (v : Nat) (h : i < 0x420 ∨ 0x600 ≤ i) :
    (x.setWord i v).word i = v % 2 ^ 32 := by
  rw [word_setWord, if_pos rfl, if_neg]
  simp only [Bool.and_eq_true, decide_eq_true_eq]
  omega

theorem word_setWord_ne (x : CanCtl) {i j : Nat} (v : Nat) (h : j ≠ i) : (x.setWord i v).word j = x.word j := by
  rw [word_setWord, if_neg h]

/-- A header word read after a write of a header word of the same buffer. -/
theorem hdr_setWord (x : CanCtl) {n : Nat} (hn : n < 64) (i j v : Nat) (hi : i < 8) :
    (x.setWord (8 * n + i) v).hdr n j = if j = i then v % 2 ^ 32 else x.hdr n j := by
  unfold CanCtl.hdr
  split
  · next h => rw [h, word_setWord_same _ _ (.inl (by omega))]
  · next h => exact word_setWord_ne _ _ (by omega)

theorem hdr_setHead (x : CanCtl) {n : Nat} (hn : n < 64) (j v : Nat) :
    (x.setWord (8 * n) v).hdr n j = if j = 0 then v % 2 ^ 32 else x.hdr n j := hdr_setWord x hn 0 j v (by decide)

/-- The CODE of a new word 0. -/
theorem code_setHead (x : CanCtl) {n v : Nat} (hn : n < 64) (hv : v < 2 ^ 32) :
    (x.setWord (8 * n) v).code n = bits v 31 28 := by
  rw [CanCtl.code, hdr_setHead x hn, if_pos rfl, Nat.mod_eq_of_lt hv]

theorem code_setCode (x : CanCtl) {n k : Nat} (hn : n < 64) (hk : k < 16) : (x.setCode n k).code n = k := by
  have hold : x.hdr n 0 < 2 ^ 32 := word_lt x _
  rw [CanCtl.setCode, code_setHead x hn (setBits_code_lt hold hk), bits_setBits_code hold hk]

theorem dataWord_ge (x : CanCtl) (n : Nat) : 0x600 ≤ x.dataWord n := Nat.le_add_right _ _

/-- Data words leave the words before them. -/
theorem word_putData_before (ws : List W32) (x : CanCtl) {i j : Nat} (h : j < i) : (x.putData i ws).word j = x.word j := by
  induction ws generalizing x i with
  | nil => rfl
  | cons w r ih => rw [CanCtl.putData, ih _ (Nat.lt_succ_of_lt h), word_setWord_ne _ _ (Nat.ne_of_lt h)]

theorem hdr_putData (ws : List W32) (x : CanCtl) {n i j : Nat} (hn : n < 64) (hi : 0x600 ≤ i) (hj : j < 8) :
    (x.putData i ws).hdr n j = x.hdr n j := word_putData_before ws x (by omega)

/-- Each data word reads as it was put. -/
theorem word_putData (ws : List W32) (x : CanCtl) {i k : Nat} (hi : 0x600 ≤ i) (hk : k < ws.length) :
    (x.putData i ws).word (i + k) = (ws.getD k 0).toNat := by
  induction ws generalizing x i k with
  | nil => exact absurd hk (Nat.not_lt_zero _)
  | cons w r ih =>
    rw [CanCtl.putData]
    cases k with
    | zero =>
      change CanCtl.word _ i = w.toNat
      rw [word_putData_before r _ (Nat.lt_add_one i), word_setWord_same _ _ (.inr hi)]
      exact Nat.mod_eq_of_lt w.isLt
    | succ k =>
      rw [show i + (k + 1) = i + 1 + k by omega, ih _ (Nat.le_succ_of_le hi) (Nat.lt_of_succ_lt_succ hk), List.getD_cons_succ]

/-- A controller that differs in its RAM alone. -/
def CanCtl.SameButRam (x y : CanCtl) : Prop := ∃ r, y = { x with ram := r }

theorem CanCtl.SameButRam.trans {x y z : CanCtl} (a : x.SameButRam y) (b : y.SameButRam z) : x.SameButRam z := by
  obtain ⟨r, rfl⟩ := a
  obtain ⟨q, rfl⟩ := b
  exact ⟨q, rfl⟩

theorem CanCtl.SameButRam.shadow {x y : CanCtl} (h : x.SameButRam y) : y.shadow = x.shadow := by
  obtain ⟨r, rfl⟩ := h
  rfl

theorem CanCtl.SameButRam.locked {x y : CanCtl} (h : x.SameButRam y) (n : Nat) : y.locked n = x.locked n := by
  obtain ⟨r, rfl⟩ := h
  rfl

theorem setWord_sameButRam (x : CanCtl) (i v : Nat) : x.SameButRam (x.setWord i v) := ⟨_, rfl⟩

theorem putData_sameButRam (ws : List W32) (x : CanCtl) (i : Nat) : x.SameButRam (x.putData i ws) := by
  induction ws generalizing x i with
  | nil => exact ⟨x.ram, rfl⟩
  | cons w r ih => exact (setWord_sameButRam x i w.toNat).trans (ih _ (i + 1))

theorem wordsOf_ne_nil {bs : List Byte} (h : bs ≠ []) : wordsOf bs ≠ [] := by
  unfold wordsOf
  split
  · exact absurd rfl h
  · exact List.cons_ne_nil _ _
  · exact List.cons_ne_nil _ _

/-! ### A received frame in a buffer (R332, R333) -/

theorem hdrFlags_lt (b : BusFrame) : hdrFlags b < 2 ^ 25 := by
  have h24 := atBit_le 24 b.xlf
  have h23 := atBit_le 23 b.fdf
  have h22 := atBit_le 22 b.brs
  have h21 := atBit_le 21 b.esi
  have h20 := atBit_le 20 b.rtr
  have h19 := atBit_le 19 (bit b.ident 31)
  unfold hdrFlags
  omega

section
variable (x : CanCtl) (n : Nat) (b : BusFrame)

/-- Word 0 as a received frame leaves it: RX_FULL or RX_OVERWRITTEN, LOST as it stood, SEALED_OK, the format flags and the
length. -/
def CanCtl.fillHead : Nat :=
  (if x.code n = 1 then 2 else 3) * 2 ^ 28 + atBit 26 (bit (x.hdr n 0) 26) + atBit 25 b.sealedOk + hdrFlags b +
    b.data.length % 4096

theorem fillHead_eq : ∃ r, r < 2 ^ 28 ∧ x.fillHead n b = (if x.code n = 1 then 2 else 3) * 2 ^ 28 + r := by
  have hlost := atBit_le 26 (bit (x.hdr n 0) 26)
  have hseal := atBit_le 25 b.sealedOk
  have hflags := hdrFlags_lt b
  refine ⟨atBit 26 (bit (x.hdr n 0) 26) + atBit 25 b.sealedOk + hdrFlags b + b.data.length % 4096, by omega, ?_⟩
  unfold CanCtl.fillHead
  omega

/-- The header words of a received frame in buffer `n`, without its data. -/
def CanCtl.headed (cnt : Nat) : CanCtl :=
  ((((x.setWord (8 * n) (x.fillHead n b)).setWord (8 * n + 1) b.ident).setWord
    (8 * n + 4) (b.sdt % 256 * 2 ^ 24 + b.vcid % 256 * 2 ^ 16 + atBit 15 b.sec)).setWord (8 * n + 5) b.af).setWord
      (8 * n + 6) cnt

end

section
variable (x : CanCtl) {n : Nat} (hn : n < 64) (b : BusFrame) (cnt : Nat)
include hn

theorem fill_eq : x.fill n b cnt = (x.headed n b cnt).putData (x.dataWord n) (wordsOf b.data) := by
  have hunit (w v u : Nat) : (((x.setWord (8 * n) w).setWord (8 * n + 1) v).setWord (8 * n + 4) u).dataWord n =
      x.dataWord n := by simp [CanCtl.dataWord, CanCtl.doff, hdr_setWord _ hn, hdr_setHead _ hn]
  dsimp only [CanCtl.fill]
  rw [hunit]
  rfl

theorem hdr_fill {j : Nat} (hj : j < 8) : (x.fill n b cnt).hdr n j = (x.headed n b cnt).hdr n j := by
  rw [fill_eq x hn, hdr_putData _ _ hn (dataWord_ge x n) hj]

/-- RX_EMPTY becomes RX_FULL, any other code RX_OVERWRITTEN. -/
theorem code_fill : (x.fill n b cnt).code n = if x.code n = 1 then 2 else 3 := by
  obtain ⟨r, hr, hhead⟩ := fillHead_eq x n b
  have hcode : (if x.code n = 1 then 2 else 3) < 16 := by split <;> decide
  rw [CanCtl.code, hdr_fill x hn b cnt (by decide)]
  simp only [CanCtl.headed, hdr_setWord _ hn, hdr_setHead _ hn, Nat.reduceLT, Nat.reduceEqDiff, if_true, if_false]
  rw [hhead, Nat.mod_eq_of_lt (by omega), bits_code hcode hr]

theorem ident_fill (h : b.ident < 2 ^ 32) : (x.fill n b cnt).hdr n 1 = b.ident := by
  rw [hdr_fill x hn b cnt (by decide)]
  simpa [CanCtl.headed, hdr_setWord _ hn] using h

theorem stamp_fill (h : cnt < 2 ^ 32) : (x.fill n b cnt).hdr n 6 = cnt := by
  rw [hdr_fill x hn b cnt (by decide)]
  simpa [CanCtl.headed, hdr_setWord _ hn] using h

theorem data_fill (h : b.data ≠ []) : (x.fill n b cnt).word (x.dataWord n) = ((wordsOf b.data).headD 0).toNat := by
  obtain ⟨w, r, hw⟩ := List.exists_cons_of_ne_nil (wordsOf_ne_nil h)
  rw [fill_eq x hn, hw]
  exact word_putData (w :: r) _ (k := 0) (dataWord_ge x n) (Nat.succ_pos _)

theorem fill_sameButRam : x.SameButRam (x.fill n b cnt) := by
  have hheaded : x.SameButRam (x.headed n b cnt) :=
    ((((setWord_sameButRam _ _ _).trans (setWord_sameButRam _ _ _)).trans (setWord_sameButRam _ _ _)).trans
      (setWord_sameButRam _ _ _)).trans (setWord_sameButRam _ _ _)
  rw [fill_eq x hn]
  exact hheaded.trans (putData_sameButRam _ _ _)

end

/-! ### An owner's header write (R332–R335) -/

/-- Word 0 of buffer `n` as an owner writes it: reserved bits keep nothing. -/
def CanCtl.headWritten (x : CanCtl) (n v : Nat) : CanCtl := x.setWord (8 * n) (v &&& hdrMask 0)

/-- A request with word 0 and the time it was made. -/
def CanCtl.requested (x : CanCtl) (n v : Nat) (t : Stamp) : CanCtl :=
  { x.headWritten n v with reqTime := mset x.reqTime n t }

theorem tx_headWritten (x : CanCtl) (n v : Nat) : (x.headWritten n v).tx = x.tx := rfl

theorem tx_requested (x : CanCtl) (n v : Nat) (t : Stamp) : (x.requested n v t).tx = x.tx := rfl

theorem reqTime_requested (x : CanCtl) (n v : Nat) (t : Stamp) : mgetD (x.requested n v t).reqTime n 0 = t :=
  mgetD_mset_same _ _ _ _

/-- A request on the bus that was asked to end. -/
def CanCtl.aborting (x : CanCtl) (n : Nat) (t : CanTx) : CanCtl :=
  { x.setCode n 0xA with tx := some { t with abort := true } }

theorem tx_aborting (x : CanCtl) (n : Nat) (t : CanTx) : (x.aborting n t).tx = some { t with abort := true } := rfl

section
variable (x : CanCtl) {n v : Nat} (hn : n < 64)
include hn

theorem code_aborting (t : CanTx) : (x.aborting n t).code n = 0xA := by
  have hram : (x.aborting n t).ram = (x.setCode n 0xA).ram := by rw [CanCtl.aborting]
  rw [code_congr hram, code_setCode x hn (by decide)]

theorem hdr_headWritten (j : Nat) : (x.headWritten n v).hdr n j = if j = 0 then v &&& 0xF7F80FFF else x.hdr n j := by
  have hmask : v &&& 0xF7F80FFF < 2 ^ 32 := Nat.lt_of_le_of_lt Nat.and_le_right (by decide)
  rw [CanCtl.headWritten, hdr_setHead x hn]
  split
  · exact Nat.mod_eq_of_lt hmask
  · rfl

theorem code_headWritten : (x.headWritten n v).code n = bits v 31 28 := by
  rw [CanCtl.code, hdr_headWritten x hn, if_pos rfl, bits_and_of_ones v (by decide)]

theorem length_headWritten : bits ((x.headWritten n v).hdr n 0) 11 0 = bits v 11 0 := by
  rw [hdr_headWritten x hn, if_pos rfl, bits_and_of_ones v (by decide)]

theorem hdr_requested (t : Stamp) (j : Nat) : (x.requested n v t).hdr n j = if j = 0 then v &&& 0xF7F80FFF else x.hdr n j :=
  (hdr_congr (x := x.headWritten n v) rfl n j).trans (hdr_headWritten x hn j)

theorem word_requested (t : Stamp) {i : Nat} (h : 512 ≤ i) : (x.requested n v t).word i = x.word i :=
  (word_congr (x := x.headWritten n v) rfl i).trans (word_setWord_ne _ _ (by omega))

theorem code_requested (t : Stamp) : (x.requested n v t).code n = bits v 31 28 :=
  (code_congr (x := x.headWritten n v) rfl n).trans (code_headWritten x hn)

theorem length_requested (t : Stamp) : bits ((x.requested n v t).hdr n 0) 11 0 = bits v 11 0 := by
  rw [hdr_requested x hn, if_pos rfl, bits_and_of_ones v (by decide)]

end

end Sys2Proof.Machine
end

section
/-! SUPPORT. The lock of a controller's buffers (R337–R340), the owner's accesses to them (R320, R333–R335), and REC (R365). -/

namespace Sys2Proof.Machine

theorem mset_mset {α : Type} (m : Map α) (k : Nat) (v w : α) : mset (mset m k v) k w = mset m k w := by
  induction m with
  | nil => simp [mset]
  | cons e r ih =>
    obtain ⟨j, u⟩ := e
    by_cases hlt : k < j
    · simp [mset, hlt]
    · by_cases heq : j = k
      · simp [mset, heq]
      · simp [mset, hlt, heq, ih]

@[simp] theorem setCan_setCan (g : Gw) (c : Nat) (x y : CanCtl) : (g.setCan c x).setCan c y = g.setCan c y := by
  simp only [Gw.setCan, mset_mset]

theorem canAt_mbEvent (g : Gw) (c n d : Nat) : (g.mbEvent c n).canAt d = g.canAt d := canAt_congr (mbEvent_can g c n) d

/-! ### The release of the lock -/

/-- A controller whose lock is free, with nothing kept for its holder. -/
def CanCtl.unlocked (x : CanCtl) : CanCtl := { x with lock := none, shadow := none, done := none }

theorem locked_of_lock {x : CanCtl} {k l : Nat} (h : x.lock = some (k, l)) (n : Nat) : x.locked n = decide (k = n) := by
  simp [CanCtl.locked, h]

theorem locked_of_free {x : CanCtl} (h : x.lock = none) (n : Nat) : x.locked n = false := by simp [CanCtl.locked, h]

section
variable {g : Gw} {c : Nat}

theorem releaseLock_free (h : (g.canAt c).lock = none) : g.releaseLock c = g := by simp [Gw.releaseLock, h]

theorem releaseLock_empty {l : Nat × Nat} (hlock : (g.canAt c).lock = some l) (hshadow : (g.canAt c).shadow = none)
    (hdone : (g.canAt c).done = none) : g.releaseLock c = g.setCan c { g.canAt c with lock := none } := by
  simp only [Gw.releaseLock, hlock, hshadow, hdone]

/-- The shadow frame stands in the buffer that held the lock, with its event (R338). -/
theorem releaseLock_shadow {k l cnt : Nat} {b : BusFrame} (hlock : (g.canAt c).lock = some (k, l))
    (hshadow : (g.canAt c).shadow = some (b, cnt)) (hdone : (g.canAt c).done = none) :
    g.releaseLock c = (g.setCan c ((g.canAt c).unlocked.fill k b cnt)).mbEvent c k := by
  simp only [Gw.releaseLock, hlock, hshadow, hdone, canAt_setCan_same, setCan_setCan, CanCtl.unlocked]

end

/-! ### Reads -/

section
variable {g : Gw} {c n : Nat}

/-- A header is read, then the lock taken, once another holder's is released (R337). -/
theorem mbHdrRead_takes (h : (g.canAt c).locked n = false) : g.mbHdrRead c n =
    ((g.releaseLock c).setCan c { (g.releaseLock c).canAt c with
        lock := some (n, bits (((g.releaseLock c).canAt c).hdr n 0) 11 0) },
      ((g.releaseLock c).canAt c).hdrRead n) := by
  simp [Gw.mbHdrRead, h]

theorem mbHdrRead_free (h : (g.canAt c).lock = none) : g.mbHdrRead c n =
    (g.setCan c { g.canAt c with lock := some (n, bits ((g.canAt c).hdr n 0) 11 0) }, (g.canAt c).hdr n 0) := by
  rw [mbHdrRead_takes (locked_of_free h n), releaseLock_free h]
  simp [CanCtl.hdrRead, locked_of_free h n, atBit]

theorem mbHdrRead_holder {l : Nat} (h : (g.canAt c).lock = some (n, l)) :
    g.mbHdrRead c n = (g, (g.canAt c).hdr n 0 + 2 ^ 27) := by
  have hlocked : (g.canAt c).locked n = true := by simp [locked_of_lock h]
  simp [Gw.mbHdrRead, CanCtl.hdrRead, hlocked, atBit]

end

/-- Read while another buffer holds the lock over a shadow frame: that frame stands in its buffer, and buffer `n` has the lock. -/
theorem mbHdrRead_afterShadow {g : Gw} {c n k l cnt : Nat} {b : BusFrame} (hother : (g.canAt c).locked n = false)
    (hlock : (g.canAt c).lock = some (k, l)) (hshadow : (g.canAt c).shadow = some (b, cnt)) (hdone : (g.canAt c).done = none) :
    ∃ d, (g.mbHdrRead c n).1.canAt c = { (g.canAt c).unlocked.fill k b cnt with lock := some (n, d) } ∧
      ∀ e, e ≠ c → (g.mbHdrRead c n).1.canAt e = g.canAt e := by
  have hreleased : (g.releaseLock c).canAt c = (g.canAt c).unlocked.fill k b cnt := by
    rw [releaseLock_shadow hlock hshadow hdone, canAt_mbEvent, canAt_setCan_same]
  rw [mbHdrRead_takes hother]
  refine ⟨bits (((g.canAt c).unlocked.fill k b cnt).hdr n 0) 11 0, ?_, fun e he => ?_⟩
  · rw [canAt_setCan_same, hreleased]
  · rw [canAt_setCan, if_neg he, (releaseLock_withinCan g c).others e he]

section
variable {s : State} {c n : Nat} {host : Bool} (howner : s.gw.mbOwner c n host = true)
include howner

theorem exec_canMbHdrRead : exec (.canMbHdrRead c n host) s = .next (s.after ((s.gw.mbHdrRead c n).1.emit
    (.readData (0x400000 + 0x4000 * c + 32 * n) (w32 (s.gw.mbHdrRead c n).2)))) := by
  refine (answer_onGw _ s).trans ?_
  simp only [howner, if_true]

theorem exec_canMbLastWordRead {l : Nat} (hlock : (s.gw.canAt c).lock = some (n, l)) :
    exec (.canMbLastWordRead c n host) s = .next (s.after ((s.gw.releaseLock c).emit
      (.readData (0x400000 + 0x4000 * c + 4 * (s.gw.canAt c).lastWord n l)
        (w32 ((s.gw.canAt c).word ((s.gw.canAt c).lastWord n l)))))) := by
  refine (answer_onGw _ s).trans ?_
  simp only [hlock, howner, decide_true, Bool.and_true, if_true]

end

theorem exec_canMbLastWordRead_free {s : State} {c : Nat} (n : Nat) (host : Bool) (h : (s.gw.canAt c).lock = none) :
    exec (.canMbLastWordRead c n host) s = .next s := by
  refine answer_same ?_
  simp only [onGw, h]

theorem mbOwner_of_host_ne {g : Gw} {c : Nat} {host : Bool} (h : (g.canAt c).host ≠ host) (n : Nat) :
    g.mbOwner c n host = false := by simp [Gw.mbOwner, h]

section
variable {s : State} {c n : Nat} {host : Bool} (h : (s.gw.canAt c).host ≠ host)
include h

theorem exec_canMbHdrRead_other : exec (.canMbHdrRead c n host) s = .next s := by
  refine answer_same ?_
  simp [onGw, mbOwner_of_host_ne h]

theorem exec_canMbLastWordRead_other : exec (.canMbLastWordRead c n host) s = .next s := by
  refine answer_same ?_
  cases hlock : (s.gw.canAt c).lock <;> simp [onGw, hlock, mbOwner_of_host_ne h]

end

/-! ### Header writes -/

theorem exec_canMbHdrWrite (c n : Nat) (host : Bool) (v : W32) (s : State) : exec (.canMbHdrWrite c n host v) s =
    .next (s.after (s.gw.mbHdrWriteBy c n host v.toNat)) := rfl

theorem exec_canTxPendingWrite (c n : Nat) (host : Bool) (v : W32) (s : State) : exec (.canTxPendingWrite c n host v) s =
    .next (s.after (s.gw.mbHdrWriteBy c n host (setBits v.toNat 31 28 9))) := rfl

theorem exec_canTxTtWrite (c n : Nat) (host : Bool) (v : W32) (s : State) : exec (.canTxTtWrite c n host v) s =
    .next (s.after (s.gw.mbHdrWriteBy c n host (setBits v.toNat 31 28 0xE))) := rfl

theorem exec_canTxAbortReq (c n : Nat) (host : Bool) (s : State) : exec (.canTxAbortReq c n host) s =
    .next (s.after (s.gw.mbHdrWriteBy c n host 0xA0000000)) := rfl

section
variable {g : Gw} {c n : Nat}

theorem mbHdrWriteBy_owner {host : Bool} (h : g.mbOwner c n host = true) (v : Nat) :
    g.mbHdrWriteBy c n host v = g.mbHdrWrite c n v := if_pos h

theorem mbHdrWriteBy_other {host : Bool} (h : (g.canAt c).host ≠ host) (v : Nat) : g.mbHdrWriteBy c n host v = g :=
  if_neg (by simp [mbOwner_of_host_ne h])

section
variable (hfree : (g.canAt c).locked n = false) {v : Nat}
include hfree

/-- INACTIVE, RX_EMPTY, TX_IDLE and TX_TT are stored as written. -/
theorem mbHdrWrite_stores (hcode : bits v 31 28 ∈ [0, 1, 8, 0xE]) :
    g.mbHdrWrite c n v = g.setCan c ((g.canAt c).headWritten n v) := by
  simp only [List.mem_cons, List.not_mem_nil, or_false] at hcode
  rcases hcode with hc | hc | hc | hc <;> simp [Gw.mbHdrWrite, hfree, hc, CanCtl.headWritten]

/-- TX_PENDING is stored with the time of the request. -/
theorem mbHdrWrite_requests (hcode : bits v 31 28 = 9) :
    g.mbHdrWrite c n v = g.setCan c ((g.canAt c).requested n v g.now) := by
  simp [Gw.mbHdrWrite, hfree, hcode]
  rfl

theorem mbHdrWrite_withdraws (hcode : bits v 31 28 = 0xA) : g.mbHdrWrite c n v = g.mbAbort c n := by
  simp [Gw.mbHdrWrite, hfree, hcode]

theorem mbHdrWrite_other (hcode : bits v 31 28 ∉ [0, 1, 8, 9, 0xA, 0xE]) : g.mbHdrWrite c n v = g := by
  simp only [Gw.mbHdrWrite, hfree, Bool.false_eq_true, if_false, if_neg hcode]

end

/-- A request not on the bus is withdrawn at once, with its event (R334, R341). -/
theorem mbAbort_waiting (h : (g.canAt c).tx = none) :
    g.mbAbort c n = (g.setCan c ((g.canAt c).setCode n 0xB)).mbEvent c n := by
  simp [Gw.mbAbort, h, Gw.mbCode]

/-- A request on the bus is withdrawn at its end (R334). -/
theorem mbAbort_onBus {t : CanTx} (h : (g.canAt c).tx = some t) (hsrc : t.src = .mb n ∨ t.src = .tt n) :
    g.mbAbort c n = g.setCan c ((g.canAt c).aborting n t) := by
  rcases hsrc with hsrc | hsrc <;> simp [Gw.mbAbort, h, hsrc, CanCtl.aborting]

end

/-! ### REC -/

theorem exec_canHctlRecWrite (c : Nat) (s : State) :
    exec (.canHctlRecWrite c) s = .next (s.after (s.gw.recWrite c)) := rfl

theorem recWrite_begins {g : Gw} {c : Nat} (hhost : (g.canAt c).host = true) (hoff : (g.canAt c).busOff = true)
    (hidle : (g.canAt c).recovering = false) :
    g.recWrite c = (g.setCan c { g.canAt c with recovering := true, recFrom := g.tb.tick }).setRec c true := by
  simp [Gw.recWrite, Gw.beginRecovery, hhost, hoff, hidle]

theorem recWrite_gateway {g : Gw} {c : Nat} (hhost : (g.canAt c).host = false) : g.recWrite c = g := by
  simp [Gw.recWrite, hhost]

end Sys2Proof.Machine
end

section
/-! The statement on the owner's accesses to message buffers. -/

namespace Sys2Proof.Machine

/-- Settles O52: each access is its rule for an owner, on a buffer that holds the lock or does not; what buffer a shadow frame
fills and how its words then read are laws of the release and of `fill`. -/
theorem canBufferAccess : Obligations.CanBufferAccess := by
  refine ⟨?reads, ?writes, ?others, ?rec⟩
  case reads =>
    intro s c n host howner
    refine ⟨fun hfree => ?taken, fun l hlock => ?held, fun k l cnt b hk hkn hlock hshadow hdone hident hcnt => ?shadow,
      fun l i hlock hi hshadow hdone => ?lastWord, exec_canMbLastWordRead_free n host⟩
    case taken => rw [exec_canMbHdrRead howner, mbHdrRead_free hfree]
    case held => rw [exec_canMbHdrRead howner, mbHdrRead_holder hlock]
    case shadow =>
      have hother : (s.gw.canAt c).locked n = false := by rw [locked_of_lock hlock]; exact decide_eq_false hkn
      obtain ⟨d, hread, hothers⟩ := mbHdrRead_afterShadow hother hlock hshadow hdone
      have hcode := code_fill (s.gw.canAt c).unlocked hk b cnt
      have hword := ident_fill (s.gw.canAt c).unlocked hk b cnt hident
      have hstamp := stamp_fill (s.gw.canAt c).unlocked hk b cnt hcnt
      have hdata := data_fill (s.gw.canAt c).unlocked hk b cnt
      have hshape := fill_sameButRam (s.gw.canAt c).unlocked hk b cnt
      generalize (s.gw.canAt c).unlocked.fill k b cnt = y at hread hcode hword hstamp hdata hshape
      refine ⟨_, exec_canMbHdrRead howner, ?_⟩
      simp only [canAt_after, canAt_congr (emit_can _ _), hread]
      exact ⟨⟨d, rfl⟩, hshape.shadow, hcode, hword, hstamp, hdata, hothers⟩
    case lastWord =>
      subst hi
      rw [exec_canMbLastWordRead howner hlock, releaseLock_empty hlock hshadow hdone]
  case writes =>
    intro s c n host v howner hfree
    have hn : n < 64 := by
      simp only [Gw.mbOwner, Bool.and_eq_true, decide_eq_true_eq] at howner
      exact howner.1.1.2
    rw [exec_canMbHdrWrite, exec_canTxPendingWrite, exec_canTxTtWrite, exec_canTxAbortReq]
    simp only [mbHdrWriteBy_owner howner]
    have hpending := bits_setBits_code v.isLt (k := 9) (by decide)
    have htt := bits_setBits_code v.isLt (k := 0xE) (by decide)
    refine ⟨fun hcode => ?stored, fun hcode => ?ignored, ?pending, ?tt, fun htx => ?waiting, fun t htx hsrc => ?onBus⟩
    case stored => rw [mbHdrWrite_stores hfree hcode]; rfl
    case ignored => rw [mbHdrWrite_other hfree hcode, after_self]
    case pending =>
      rw [mbHdrWrite_requests hfree hpending]
      refine ⟨_, rfl, (code_requested _ hn _).trans hpending, reqTime_requested _ _ _ _, ?_, tx_requested _ _ _ _⟩
      rw [length_requested _ hn, bits_length_setBits_code v.isLt (by decide)]
    case tt =>
      rw [mbHdrWrite_stores hfree (by rw [htt]; decide)]
      refine ⟨_, rfl, (code_headWritten _ hn).trans htt, ?_, tx_headWritten _ _ _⟩
      rw [length_headWritten _ hn, bits_length_setBits_code v.isLt (by decide)]
    case waiting => rw [mbHdrWrite_withdraws hfree (by decide), mbAbort_waiting htx]
    case onBus =>
      rw [mbHdrWrite_withdraws hfree (by decide), mbAbort_onBus htx hsrc]
      exact ⟨_, rfl, code_aborting _ hn t, tx_aborting _ _ _⟩
  case others =>
    intro s c n host v hhost
    rw [exec_canMbHdrWrite, exec_canTxPendingWrite, exec_canTxTtWrite, exec_canTxAbortReq]
    simp only [mbHdrWriteBy_other hhost, after_self, and_true]
    exact ⟨exec_canMbHdrRead_other hhost, exec_canMbLastWordRead_other hhost⟩
  case rec =>
    intro s c
    rw [exec_canHctlRecWrite]
    exact ⟨fun hhost hoff hidle => by rw [recWrite_begins hhost hoff hidle],
      fun hhost => by rw [recWrite_gateway hhost, after_self]⟩

end Sys2Proof.Machine
end

section
/-! The statement on CAN frames and errors, refuted; and the one fact on pending requests that it takes. -/

namespace Sys2Proof.Machine

/-- Without a pending change made by a request of a kind, none of it comes before a stamp. -/
theorem requestBefore_of_none {g : Gw} {kind : Nat → Bool}
    (h : ∀ x ∈ g.str.changes, ∀ m, x.act = .mailbox m → kind m = false) (seg : Nat) (o : Stamp) :
    g.requestBefore seg o kind = false := by
  refine List.any_eq_false.mpr fun x hx => ?_
  cases hact : x.act with
  | mailbox m => simp [h x hx m hact]
  | firmware f => simp

/-- Controller 1 on its bus with F13_EN, an empty buffer 0 that every frame matches, and the allotment of F13 full. A change
stands in the queue under mailbox 1088, a number that no mailbox has: its command word is CAT_STAT, which holds CMD 0x0708
(CAN_OWN), and its first payload word is CAT_LAGDROP_CNT, which is 0 and so names controller 0. -/
def ownRequestInLagdrop : State :=
  { gw := { isl := [(9, 1)], params := [(Par.canCfg 1, 2 ^ 57), (Par.strPcfg 13, 0)], regs := [(Reg.catStat, 0x07080000)]
            can := [(1, { ram := [(0, 0x10000000)], pairs := [{ cnt := 0, st := 0, seg := 0 }] })]
            str := { inbound := List.replicate 1152 { fport := 13, body := .bus {} }
                     changes := [{ t := -10 ^ 12, rank := 0, seq := 0, act := .mailbox 1088, seg := 0 }] } }
    dram := [], pending := [] }

/-- Refutes O53: that no change of owner is pending is asked of the state before the frame, and of any mailbox number. The
frame finds no room at F13 and counts in CAT_LAGDROP_CNT, which makes the change one of its own controller: the frame then
waits for it, and buffer 0 stays empty. -/
theorem not_canFramesAndErrors : ¬ Obligations.CanFramesAndErrors := by
  rintro ⟨hreceive, -⟩
  have hready : canReady ownRequestInLagdrop.gw 1 0 0 (0, 0) (0, 0) :=
    ⟨by decide +kernel, by decide +kernel, by decide +kernel⟩
  have hcmd : ownRequestInLagdrop.gw.reqCode 1088 = 0x0708 := by decide +kernel
  have harg : ownRequestInLagdrop.gw.arg 1088 0 = 0 := by decide +kernel
  have hempty : (ownRequestInLagdrop.gw.canAt 1).matches' 0 { bus := 1 } = true ∧
      (ownRequestInLagdrop.gw.canAt 1).effCode 0 = 1 ∧ (ownRequestInLagdrop.gw.canAt 1).locked 0 = false := by decide +kernel
  have hstays : ((ownRequestInLagdrop.gw.canReceive 1 0 0 {}).canAt 1).code 0 = 1 := by decide +kernel
  have honly : ∀ x ∈ ownRequestInLagdrop.gw.str.changes, ∀ m, x.act = .mailbox m → m = 1088 := by
    intro x hx m hact
    obtain rfl := List.mem_singleton.mp hx
    exact (ChangeAct.mailbox.inj hact).symm
  have hfilter : ∀ h, ownRequestInLagdrop.gw.filterPending h = false := fun h =>
    requestBefore_of_none (fun x hx m hact => by rw [honly x hx m hact, hcmd]; rfl) h.seg h.adm
  have howner : ∀ h, ownRequestInLagdrop.gw.ownPending 1 h = false := fun h =>
    requestBefore_of_none (fun x hx m hact => by rw [honly x hx m hact, harg]; simp [bits]) h.seg _
  obtain ⟨hplain, -⟩ := hreceive ownRequestInLagdrop 1 0 0 {} { bus := 1 } (0, 0) (0, 0) hready rfl (by decide +kernel)
  obtain ⟨t, hexec, -, -, hfills⟩ := hplain (by decide +kernel) (by decide +kernel) (fun h _ _ => hfilter h)
  obtain ⟨hmatch, hcode, hfree⟩ := hempty
  obtain ⟨hfull, -⟩ := hfills 0 (by decide) hmatch hcode hfree (fun h _ _ => howner h)
    (fun k hk => absurd hk (Nat.not_lt_zero k)) (by decide) (by decide)
  obtain rfl := Host.Outcome.next.inj (hexec.symm.trans (answer_onGw _ ownRequestInLagdrop))
  rw [canAt_after] at hfull
  exact absurd (hstays.symm.trans hfull) (by decide)

end Sys2Proof.Machine
end

section
/-! SUPPORT. Time-triggered CAN: a column of the matrix (R350), the reference message received, begun and sent, and its timeout
(R348, R352). -/

namespace Sys2Proof.Machine

/-! ### A column of the matrix (R350) -/

theorem exec_canTtColumn (c k : Nat) (idle : Bool) (s : State) :
    exec (.canTtColumn c k idle) s = .next (s.after (s.gw.ttColumn c k idle)) := rfl

/-- A controller with a column of its matrix done. -/
def CanCtl.columnDone (x : CanCtl) (k : Nat) : CanCtl := { x with ttDone := k :: x.ttDone }

/-- The buffer of a cell is sent: nothing that waits comes before it, or its cell does not arbitrate. -/
theorem ttStart_unopposed {g : Gw} {c : Nat} {arbitrates : Bool} (k n : Nat)
    (h : arbitrates = false ∨ ((g.canAt c).gtq = [] ∧ g.mbRequests c = [])) :
    g.ttStart c k n arbitrates = g.setCan c { g.canAt c with
      tx := some { src := .tt n, cnt := g.canNow }, ttDone := k :: (g.canAt c).ttDone } := by
  rcases h with rfl | ⟨hgtq, hreqs⟩
  · simp [Gw.ttStart, Gw.startTx]
  · simp [Gw.ttStart, Gw.startTx, hgtq, hreqs]

section
variable {g : Gw} {c k n mark : Nat} (hmark : mark = bits ((g.canAt c).word (0x200 + k)) 15 0)
  (hcell : n = (g.canAt c).cell ((g.canAt c).cycle % g.cycles c) k)
include hmark hcell

/-- A matrix that does not run, a cell that sends nothing, a mark to come or a column done: nothing happens. -/
theorem ttColumn_rests (idle : Bool) (h : (g.canAt c).ttRun = false ∨ n / 64 = 0 ∨ n / 64 = 3 ∨ g.cycleTime c < mark ∨
    (g.canAt c).ttDone.contains k = true) : g.ttColumn c k idle = g := by
  subst hmark hcell
  unfold Gw.ttColumn
  rcases h with h | h | h | h | h
  · simp [h]
  · simp [h]
  · simp [h]
  · simp [h]
  · simp [List.contains_iff_mem.mp h]

/-- A cell whose mark has come is sent within its window, when its buffer can be; else it is missed. -/
theorem ttColumn_due (hlive : g.canLive c = true) (hen : g.ttEn c = true) (hk : k < 32)
    (hvalid : bit ((g.canAt c).word (0x200 + k)) 31 = true) (idle : Bool) (hrun : (g.canAt c).ttRun = true)
    (htimed : n / 64 = 1 ∨ n / 64 = 2) (hreached : mark ≤ g.cycleTime c)
    (hopen : (g.canAt c).ttDone.contains k = false) :
    g.ttColumn c k idle =
      if (g.canAt c).code (n % 64) = 0xE ∧ g.mbFree c (n % 64) = true ∧ g.canLom c = false ∧
          g.cycleTime c ≤ mark + bits (g.param (Par.canTt c)) 55 48 then
        if idle = true ∧ (g.canAt c).tx = none then g.ttStart c k (n % 64) (decide (n / 64 = 2)) else g
      else (g.setCan c ((g.canAt c).columnDone k)).bump (Reg.canTtMiss c) := by
  have honBus : (decide (c < 32) && g.islOn 9 && !(g.canAt c).pairs.isEmpty) = true := by
    simp only [Gw.canLive, Bool.and_eq_true] at hlive ⊢
    exact hlive.1.1
  have hcellTimed : (decide (n / 64 = 1) || decide (n / 64 = 2)) = true := by simpa using htimed
  subst hmark hcell
  unfold Gw.ttColumn
  dsimp only
  rw [honBus, hcellTimed, hopen]
  simp [hlive, hen, hk, hvalid, hrun, Nat.not_lt.mpr hreached, and_assoc, CanCtl.columnDone]

end

/-! ### The reference message (R348, R352) -/

theorem exec_canTtReference (c : Nat) (sent : Bool) (sof : Nat) (ref : TtRef) (s : State) :
    exec (.canTtReference c sent sof ref) s = .next (s.after (s.gw.ttReference c sent sof ref.prio ref.cycle)) := rfl

theorem exec_canTtRefTimeout (c : Nat) (s : State) : exec (.canTtRefTimeout c) s = .next (s.after (s.gw.ttTimeout c)) := rfl

theorem exec_canTxDone (c outcome : Nat) (s : State) :
    exec (.canTxDone c outcome) s = .next (s.after (s.gw.canTxDone c outcome)) := rfl

theorem refStart_master {g : Gw} {c : Nat} (hmaster : g.ttMasterCfg c = true) (hlom : g.canLom c = false)
    (hidle : (g.canAt c).tx = none) (hfree : (g.canAt c).locked 0 = false)
    (hformat : g.sendsFormat c (g.refFrame c (g.nextCycle c)) = true) :
    g.refStart c = g.setCan c { g.canAt c with tx := some { src := .ref, cnt := g.canNow } } := by
  simp [Gw.refStart, Gw.startTx, hmaster, hlom, hidle, hfree, hformat]

theorem refStart_follower {g : Gw} {c : Nat} (h : g.ttMasterCfg c = false) : g.refStart c = g := by
  simp [Gw.refStart, h]

theorem ttTimeout_early {g : Gw} {c : Nat} (h : g.cycleTime c < 2 * g.cycleNtu c) : g.ttTimeout c = g := by
  simp [Gw.ttTimeout, h]

section
variable {g : Gw} {c : Nat} (hlive : g.canLive c = true) (hen : g.ttEn c = true)
include hlive hen

theorem ttReference_received (sof prio cycle : Nat) :
    g.ttReference c false sof prio cycle = g.ttHeard c sof prio cycle := by simp [Gw.ttReference, hlive, hen]

/-- A controller begins its own reference message on its turn: before the matrix runs, or after CYCLE_NTU as no follower. -/
theorem ttReference_own (sof prio cycle : Nat) : g.ttReference c true sof prio cycle =
    if (g.canAt c).ttRun = false ∨ ((g.canAt c).ttFollow = false ∧ g.cycleNtu c ≤ g.cycleTime c) then g.refStart c
    else g := by simp [Gw.ttReference, hlive, hen]

theorem ttTimeout_master (hdue : 2 * g.cycleNtu c ≤ g.cycleTime c) (hmaster : g.ttMasterCfg c = true)
    (hlom : g.canLom c = false) : g.ttTimeout c = g.refStart c := by
  simp [Gw.ttTimeout, hlive, hen, Nat.not_lt.mpr hdue, hmaster, hlom]

theorem ttTimeout_follower (hdue : 2 * g.cycleNtu c ≤ g.cycleTime c) (hmaster : g.ttMasterCfg c = false) :
    g.ttTimeout c = (g.setCan c { g.canAt c with ttRun := false }).canFlag c 24 := by
  simp [Gw.ttTimeout, hlive, hen, Nat.not_lt.mpr hdue, hmaster]

end

/-! ### The reference message sent (R327, R352) -/

/-- What the controllers and their stamps rest on: the controllers, the timebase and the start of the island. -/
structure SameCan (g h : Gw) : Prop where
  can : h.can = g.can
  tb : h.tb = g.tb
  canStart : h.canStart = g.canStart

theorem SameCan.refl (g : Gw) : SameCan g g := ⟨rfl, rfl, rfl⟩

theorem SameCan.trans {g h k : Gw} (a : SameCan g h) (b : SameCan h k) : SameCan g k :=
  ⟨b.can.trans a.can, b.tb.trans a.tb, b.canStart.trans a.canStart⟩

theorem bump_sameCan (g : Gw) (o : Nat) : SameCan g (g.bump o) := ⟨bump_can g o, bump_tb g o, bump_canStart g o⟩

theorem capAppend_sameCan (g : Gw) (i : Nat) (bs : List Byte) : SameCan g (g.capAppend i bs) := by
  unfold Gw.capAppend
  dsimp only
  split <;> exact ⟨rfl, rfl, rfl⟩

theorem capLost_sameCan (g : Gw) (i : Nat) : SameCan g (g.capLost i) := by
  unfold Gw.capLost
  dsimp only
  split
  · exact .refl g
  · have happend := capAppend_sameCan { g with capFifo := mset g.capFifo i { g.fifo i with lost := 0 } } i
      (capHeader 12 3 0 (g.fifo i).lost 0)
    exact ⟨happend.can, happend.tb, happend.canStart⟩

theorem capItem_sameCan (g : Gw) (i kind flags cnt ident : Nat) (data : List Byte) :
    SameCan g (g.capItem i kind flags cnt ident data) := by
  unfold Gw.capItem
  dsimp only
  split
  · exact .refl g
  · split
    · exact (capLost_sameCan g i).trans ⟨rfl, rfl, rfl⟩
    · exact (capLost_sameCan g i).trans (capAppend_sameCan _ _ _)

theorem shownFrame_sameCan (g : Gw) (c : Nat) (b : BusFrame) : SameCan g (g.shownFrame c b).2 := by
  unfold Gw.shownFrame
  split <;> exact ⟨rfl, rfl, rfl⟩

/-- A sent frame lowers TEC of its controller; its other traces are no part of the controllers. -/
theorem sentFrame_sameCan (g : Gw) (c cnt : Nat) (b : BusFrame) :
    SameCan (g.setCan c { g.canAt c with tec := (g.canAt c).tec - 1 }) (g.sentFrame c cnt b) := by
  unfold Gw.sentFrame
  dsimp only
  generalize hq : g.shownFrame c (g.asSent c b) = q
  have hshown : SameCan g q.2 := by rw [← hq]; exact shownFrame_sameCan _ _ _
  have hitem : SameCan g ((q.2.bump (Reg.canTxOk c)).capItem c 1 (capFlags q.1) cnt q.1.ident q.1.data) :=
    (hshown.trans (bump_sameCan _ _)).trans (capItem_sameCan _ _ _ _ _ _ _)
  refine ⟨?_, hitem.tb, hitem.canStart⟩
  rw [emit_can, Gw.setCan, Gw.setCan, canAt_congr hitem.can, hitem.can]

theorem canAt_sentFrame (g : Gw) (c cnt : Nat) (b : BusFrame) :
    (g.sentFrame c cnt b).canAt c = { g.canAt c with tec := (g.canAt c).tec - 1 } := by
  rw [canAt_congr (sentFrame_sameCan g c cnt b).can, canAt_setCan_same]

theorem tickOf_congr {g h : Gw} (ht : h.tb = g.tb) (hs : h.canStart = g.canStart) (cnt : Nat) : h.tickOf cnt = g.tickOf cnt := by
  simp only [Gw.tickOf, Gw.canNow, ht, hs]

/-- What a controller holds about its cycle and the frame on the bus. -/
structure TtView where
  tx : Option CanTx
  master : Bool
  run : Bool
  refTick : Nat
  cycle : Nat

def CanCtl.ttView (x : CanCtl) : TtView :=
  { tx := x.tx, master := x.ttMaster, run := x.ttRun, refTick := x.refTick, cycle := x.cycle }

theorem CanCtl.SameButRam.ttView {x y : CanCtl} (h : x.SameButRam y) : y.ttView = x.ttView := by
  obtain ⟨r, rfl⟩ := h
  rfl

theorem canAt_mbCode (g : Gw) (c n code : Nat) : (g.mbCode c n code).canAt c = (g.canAt c).setCode n code := by
  unfold Gw.mbCode
  dsimp only
  split
  · rw [canAt_mbEvent, canAt_setCan_same]
  · rw [canAt_setCan_same]

/-- The outcome of an attempt is written into its buffer or kept in the completion latch. -/
theorem mbOutcome_ttView (g : Gw) (c n code cnt : Nat) :
    ((g.mbOutcome c n code (some cnt)).canAt c).ttView = (g.canAt c).ttView := by
  unfold Gw.mbOutcome
  dsimp only
  split
  · rw [canAt_setCan_same]
    rfl
  · rw [canAt_mbCode, canAt_setCan_same]
    exact ((setWord_sameButRam _ _ _).trans (setWord_sameButRam _ _ _)).ttView

theorem refSent_ttView (g : Gw) (c cnt : Nat) : ((g.refSent c cnt).canAt c).ttView =
    { tx := (g.canAt c).tx, master := true, run := true, refTick := g.tickOf cnt, cycle := g.nextCycle c } := by
  have hsent := sentFrame_sameCan g c cnt (g.refFrame c (g.nextCycle c))
  unfold Gw.refSent
  dsimp only
  rw [mbOutcome_ttView, canAt_setCan_same, canAt_sentFrame, tickOf_congr hsent.tb hsent.canStart]
  rfl

theorem canTxDone_ref {g : Gw} {c : Nat} {x : CanTx} (htx : (g.canAt c).tx = some x) (hsrc : x.src = .ref) :
    g.canTxDone c 0 = (g.setCan c { g.canAt c with tx := none }).refSent c x.cnt := by simp [Gw.canTxDone, htx, hsrc]

end Sys2Proof.Machine
end

section
/-! SUPPORT. The bus time messages (R419–R424): what the firmware leaves in MB_62 and MB_63 with SYNC, FOLLOW and EPOCH. -/

namespace Sys2Proof.Machine

/-! ### A request that the firmware writes (R332) -/

/-- Buffer `n` is a request for a classical frame: TX_PENDING, its identifier, length and age limit, and its bytes in a data
unit. -/
structure CanCtl.HoldsRequest (y : CanCtl) (n ident age unit : Nat) (data : List Byte) : Prop where
  code : y.code n = 9
  ident : y.hdr n 1 = ident
  length : bits (y.hdr n 0) 11 0 = data.length
  age : bits (y.hdr n 7) 31 16 = age % 65536
  unit : y.doff n = unit
  words : ∀ i, i < (wordsOf data).length → y.word (y.dataWord n + i) = ((wordsOf data).getD i 0).toNat

theorem CanCtl.HoldsRequest.of_ram {y z : CanCtl} {n ident age unit : Nat} {data : List Byte}
    (h : y.HoldsRequest n ident age unit data) (hram : z.ram = y.ram) : z.HoldsRequest n ident age unit data := by
  have hunit : z.doff n = y.doff n := by simp only [CanCtl.doff, hdr_congr hram]
  refine ⟨?_, ?_, ?_, ?_, hunit.trans h.unit, fun i hi => ?_⟩
  · rw [code_congr hram, h.code]
  · rw [hdr_congr hram, h.ident]
  · rw [hdr_congr hram, h.length]
  · rw [hdr_congr hram, h.age]
  · rw [word_congr hram, CanCtl.dataWord, hunit]
    exact h.words i hi

/-- The units that the firmware takes lie in the pool. -/
theorem btmUnit_lt (x : CanCtl) {n : Nat} (hn : 62 ≤ n) : x.btmUnit n < 160 := by
  unfold CanCtl.btmUnit
  dsimp only
  rw [List.getD_eq_getElem?_getD]
  generalize hfree : (List.range 160).reverse.filter _ = free
  cases hget : free[n - 62]? with
  | none => simp; omega
  | some u =>
    have hmem : u ∈ free := List.mem_of_getElem? hget
    rw [← hfree, List.mem_filter, List.mem_reverse, List.mem_range] at hmem
    exact hmem.1

theorem wordsOf_length (bs : List Byte) : (wordsOf bs).length = ceilDiv bs.length 4 := by
  induction bs using wordsOf.induct with
  | case1 => rfl
  | case2 a b c d r ih => simp [wordsOf, ih, ceilDiv]; omega
  | case3 r hnil hshort =>
    match r with
    | [] => exact absurd rfl hnil
    | [_] => simp [wordsOf, ceilDiv]
    | [_, _] => simp [wordsOf, ceilDiv]
    | [_, _, _] => simp [wordsOf, ceilDiv]
    | a :: b :: c :: d :: q => exact absurd rfl (hshort a b c d q)

/-- The words of a request but for word 0: its unit, identifier and age limit, and its data. -/
def CanCtl.composed (x : CanCtl) (n ident age : Nat) (data : List Byte) : CanCtl :=
  (((x.setWord (8 * n + 3) (x.btmUnit n * 2 ^ 24)).setWord (8 * n + 1) ident).setWord (8 * n + 7) (age * 65536)).putData
    (0x600 + 16 * x.btmUnit n) (wordsOf data)

section
variable (x : CanCtl) {n : Nat} (hn64 : n < 64) (ident age : Nat) (data : List Byte)
include hn64

theorem hdr_composed {j : Nat} (hj : j < 8) : (x.composed n ident age data).hdr n j =
    if j = 7 then age * 65536 % 2 ^ 32 else if j = 1 then ident % 2 ^ 32
    else if j = 3 then x.btmUnit n * 2 ^ 24 % 2 ^ 32 else x.hdr n j := by
  rw [CanCtl.composed, hdr_putData _ _ hn64 (Nat.le_add_right _ _) hj, hdr_setWord _ hn64 _ _ _ (by decide),
    hdr_setWord _ hn64 _ _ _ (by decide), hdr_setWord _ hn64 _ _ _ (by decide)]

variable (hn : 62 ≤ n)
include hn

theorem doff_unitSet : (x.setWord (8 * n + 3) (x.btmUnit n * 2 ^ 24)).doff n = x.btmUnit n := by
  have hunit := btmUnit_lt x hn
  rw [CanCtl.doff, hdr_setWord _ hn64 _ _ _ (by decide), if_pos rfl]
  simp only [bits, Nat.shiftRight_eq_div_pow]
  omega

theorem composed_requested {v : Nat} (t : Stamp) (hident : ident < 2 ^ 32) (hcode : bits v 31 28 = 9)
    (hlen : bits v 11 0 = data.length) :
    ((x.composed n ident age data).requested n v t).HoldsRequest n ident age (x.btmUnit n) data := by
  have hunit := btmUnit_lt x hn
  have hdoff : ((x.composed n ident age data).requested n v t).doff n = x.btmUnit n := by
    rw [CanCtl.doff, hdr_requested _ hn64, if_neg (by decide), hdr_composed x hn64 _ _ _ (by decide)]
    simp only [bits, Nat.shiftRight_eq_div_pow, Nat.reduceEqDiff, if_false, if_true]
    omega
  refine ⟨?_, ?_, ?_, ?_, hdoff, fun i hi => ?_⟩
  · rw [code_requested _ hn64, hcode]
  · rw [hdr_requested _ hn64, if_neg (by decide), hdr_composed x hn64 _ _ _ (by decide)]
    simpa using hident
  · rw [length_requested _ hn64, hlen]
  · rw [hdr_requested _ hn64, if_neg (by decide), hdr_composed x hn64 _ _ _ (by decide), if_pos rfl]
    simp only [bits, Nat.shiftRight_eq_div_pow]
    omega
  · rw [CanCtl.dataWord, hdoff, word_requested _ hn64 _ (by omega : 512 ≤ 0x600 + 16 * x.btmUnit n + i),
      CanCtl.composed]
    exact word_putData _ _ (Nat.le_add_right _ _) hi

end

/-- Non-RAM parts that a written request leaves. -/
theorem composed_sameButRam (x : CanCtl) (n ident age : Nat) (data : List Byte) :
    x.SameButRam (x.composed n ident age data) :=
  (((setWord_sameButRam _ _ _).trans (setWord_sameButRam _ _ _)).trans (setWord_sameButRam _ _ _)).trans
    (putData_sameButRam _ _ _)

/-- The firmware writes a request into an unlocked buffer: its words and the time of the request, and nothing else. -/
theorem btmWrite_holds {g : Gw} {c n ident : Nat} (age : Nat) {data : List Byte} (hn : 62 ≤ n) (hn64 : n < 64)
    (hfree : (g.canAt c).locked n = false) (hident : ident < 2 ^ 32) (hdata : data.length < 2048) :
    ∃ r q, g.btmWrite c n ident age data = g.setCan c { g.canAt c with ram := r, reqTime := q } ∧
      ({ g.canAt c with ram := r, reqTime := q } : CanCtl).HoldsRequest n ident age ((g.canAt c).btmUnit n) data := by
  have hshape := composed_sameButRam (g.canAt c) n ident age data
  have hflag := atBit_le 19 (bit ident 31)
  have hhead : bits (9 * 2 ^ 28 + atBit 19 (bit ident 31) + data.length) 31 28 = 9 := by
    rw [Nat.add_assoc]
    exact bits_code (by decide) (by omega)
  have hlen : bits (9 * 2 ^ 28 + atBit 19 (bit ident 31) + data.length) 11 0 = data.length := by
    have hbit : atBit 19 (bit ident 31) = 0 ∨ atBit 19 (bit ident 31) = 2 ^ 19 := by
      cases bit ident 31
      · exact .inl rfl
      · exact .inr rfl
    simp only [bits, Nat.shiftRight_eq_div_pow]
    rcases hbit with hbit | hbit <;> rw [hbit] <;> omega
  have hholds := composed_requested (g.canAt c) hn64 ident age data hn g.now hident hhead hlen
  have hwrite : g.btmWrite c n ident age data = g.setCan c (((g.canAt c).composed n ident age data).requested n
      (9 * 2 ^ 28 + atBit 19 (bit ident 31) + data.length) g.now) := by
    have hunit : ((g.canAt c).setWord (8 * n + 3) ((g.canAt c).btmUnit n * 2 ^ 24)).dataWord n =
        0x600 + 16 * (g.canAt c).btmUnit n := by rw [CanCtl.dataWord, doff_unitSet _ hn64 hn]
    have hlocked : ((g.setCan c ((g.canAt c).composed n ident age data)).canAt c).locked n = false := by
      rw [canAt_setCan_same, hshape.locked, hfree]
    dsimp only [Gw.btmWrite]
    rw [hunit]
    refine (mbHdrWrite_requests hlocked hhead).trans ?_
    rw [setCan_setCan, canAt_setCan_same]
    rfl
  rw [hwrite]
  generalize (g.canAt c).composed n ident age data = y at hshape hholds ⊢
  obtain ⟨r, rfl⟩ := hshape
  exact ⟨_, _, rfl, hholds⟩

end Sys2Proof.Machine
end

section
/-! SUPPORT. The commands of the bus time messages (R420–R424): BTM_SYNC_TIMER and BTM_FOLLOW_WRITE. -/

namespace Sys2Proof.Machine

theorem exec_btmSyncTimer (c : Nat) (s : State) : exec (.btmSyncTimer c) s = .next (s.after
    (if s.gw.btmOn c then s.gw.every (timerBtm c) (10 * ticksPerMs * bits (s.gw.btmCfg c) 57 48) (fun g => g.btmSync c)
      else s.gw)) := rfl

theorem exec_btmFollowWrite (c : Nat) (s : State) : exec (.btmFollowWrite c) s = .next (s.after (s.gw.btmFollow c)) := rfl

/-- A periodic action whose period has gone by takes place. -/
theorem every_due {g : Gw} {key period : Nat} (f : Gw → Gw) (h : ∀ k, mget? g.timers key = some k → k + period ≤ g.tb.tick) :
    g.every key period f = f { g with timers := mset g.timers key g.tb.tick } := by
  unfold Gw.every
  cases hk : mget? g.timers key with
  | none => rfl
  | some k => simp [h k hk]

/-! ### SYNC (R420, R423) -/

/-- The next SYNC is under way: its SEQ is kept for its FOLLOW. -/
def CanCtl.syncBegun (x : CanCtl) : CanCtl :=
  { x with btmSyncSeq := x.btmSeq, btmSeq := (x.btmSeq + 1) % 256, btmStage := 1 }

theorem syncBytes_length (g : Gw) (c seq : Nat) : (g.syncBytes c seq).length = 4 := by simp [Gw.syncBytes]

theorem btmSync_on {g : Gw} {c : Nat} (h : g.btmOn c = true) : g.btmSync c =
    (g.setCan c (g.canAt c).syncBegun).btmWrite c 62 (g.btmIdent c) (5 * bits (g.btmCfg c) 57 48)
      (g.syncBytes c (g.canAt c).btmSeq) := by
  simp only [Gw.btmSync, h, Bool.not_true, Bool.false_eq_true, if_false]
  rfl

/-! ### FOLLOW and EPOCH (R421–R424) -/

theorem followBytes_length (g : Gw) (c : Nat) (t : Int) (step : Bool) : (g.followBytes c t step).length = 8 := by
  simp [Gw.followBytes]

theorem epochBytes_length (g : Gw) (c seq : Nat) (t : Int) : (g.epochBytes c seq t).length = 8 := by simp [Gw.epochBytes]

theorem btmFollow_off {g : Gw} {c : Nat} (h : g.btmOn c = false) : g.btmFollow c = g := by simp [Gw.btmFollow, h]

theorem btmFollow_epoch {g : Gw} {c seq : Nat} {t : Int} (hon : g.btmOn c = true)
    (hepoch : (g.canAt c).btmEpoch = some (seq, t)) (hsent : (g.canAt c).code 63 = 0xC) :
    g.btmFollow c = g.btmEpochWrite c seq t := by simp [Gw.btmFollow, hon, hepoch, hsent]

section
variable {g : Gw} {c : Nat} (hon : g.btmOn c = true) (hepoch : (g.canAt c).btmEpoch = none)
include hon hepoch

/-- No SYNC awaits its FOLLOW. -/
theorem btmFollow_rests (h : (g.canAt c).btmStage = 0) : g.btmFollow c = g := by simp [Gw.btmFollow, hon, hepoch, h]

/-- A SYNC that ended unsent has no FOLLOW. -/
theorem btmFollow_ends (hstage : (g.canAt c).btmStage = 1) (h : (g.canAt c).code 62 = 0xB ∨ (g.canAt c).code 62 = 0xD) :
    g.btmFollow c = g.setCan c { g.canAt c with btmStage := 0 } := by
  rcases h with h | h <;> simp [Gw.btmFollow, hon, hepoch, hstage, h]

/-- A SYNC that was sent has its FOLLOW once MB_63 is free. -/
theorem btmFollow_sends {st : Stamp} {seg : Nat} (hstage : (g.canAt c).btmStage = 1) (hsent : (g.canAt c).code 62 = 0xC)
    (hfree : (g.canAt c).code 63 ≠ 9) (hstamp : stampOf (g.canAt c).pairs 0 ((g.canAt c).hdr 62 6) = some (st, seg)) :
    g.btmFollow c = g.btmFollowSend c st seg := by
  simp [Gw.btmFollow, hon, hepoch, hstage, hsent, hfree, hstamp]

end

theorem btmIdent_lt (g : Gw) (c : Nat) : g.btmIdent c < 2 ^ 32 := bits_lt _

section
variable {g : Gw} {c : Nat} (hfree : (g.canAt c).locked 63 = false)
include hfree

/-- FOLLOW stands in MB_63 as a request, and EPOCH is kept for after it where it is due. -/
theorem btmFollowSend_holds (st : Stamp) (seg : Nat) :
    ∃ r q, (g.btmFollowSend c st seg).canAt c = { g.canAt c with
        ram := r, reqTime := q, btmFollowSeg := some seg, btmStage := 0
        btmEpoch := if (g.canAt c).btmSyncSeq % g.param Par.btmEpochEvery = 0
          then some ((g.canAt c).btmSyncSeq, g.btmTime c st seg) else none } ∧
      ((g.btmFollowSend c st seg).canAt c).HoldsRequest 63 (g.btmIdent c) 0 ((g.canAt c).btmUnit 63)
        (g.followBytes c (g.btmTime c st seg) ((g.canAt c).btmFollowSeg.any (fun sg => sg != seg))) := by
  obtain ⟨r, q, hwrite, hholds⟩ := btmWrite_holds (g := g) (c := c) 0 (by decide) (by decide) hfree (btmIdent_lt g c)
    (data := g.followBytes c (g.btmTime c st seg) ((g.canAt c).btmFollowSeg.any (fun sg => sg != seg)))
    (by rw [followBytes_length]; decide)
  dsimp only [Gw.btmFollowSend]
  rw [hwrite, canAt_setCan_same, canAt_setCan_same]
  exact ⟨r, q, rfl, hholds.of_ram rfl⟩

/-- EPOCH stands in MB_63 as a request and is due no more. -/
theorem btmEpochWrite_holds (seq : Nat) (t : Int) :
    ∃ r q, (g.btmEpochWrite c seq t).canAt c = { g.canAt c with ram := r, reqTime := q, btmEpoch := none } ∧
      ((g.btmEpochWrite c seq t).canAt c).HoldsRequest 63 (g.btmIdent c) 0 ((g.canAt c).btmUnit 63)
        (g.epochBytes c seq t) := by
  obtain ⟨r, q, hwrite, hholds⟩ := btmWrite_holds (g := g) (c := c) 0 (by decide) (by decide) hfree (btmIdent_lt g c)
    (data := g.epochBytes c seq t) (by rw [epochBytes_length]; decide)
  dsimp only [Gw.btmEpochWrite]
  rw [hwrite, canAt_setCan_same, canAt_setCan_same]
  exact ⟨r, q, rfl, hholds.of_ram rfl⟩

end

/-- SYNC stands in MB_62 as a request that lasts half its period. -/
theorem btmSync_holds {g : Gw} {c : Nat} (hon : g.btmOn c = true) (hfree : (g.canAt c).locked 62 = false) :
    ∃ r q, (g.btmSync c).canAt c = { (g.canAt c).syncBegun with ram := r, reqTime := q } ∧
      ((g.btmSync c).canAt c).HoldsRequest 62 (g.btmIdent c) (5 * bits (g.btmCfg c) 57 48) ((g.canAt c).btmUnit 62)
        (g.syncBytes c (g.canAt c).btmSeq) := by
  have hlocked : ((g.setCan c (g.canAt c).syncBegun).canAt c).locked 62 = false := by rw [canAt_setCan_same]; exact hfree
  obtain ⟨r, q, hwrite, hholds⟩ := btmWrite_holds (5 * bits (g.btmCfg c) 57 48) (by decide) (by decide) hlocked
    (btmIdent_lt g c) (data := g.syncBytes c (g.canAt c).btmSeq) (by rw [syncBytes_length]; decide)
  rw [btmSync_on hon, hwrite, canAt_setCan_same]
  rw [canAt_setCan_same] at hholds ⊢
  exact ⟨r, q, rfl, hholds⟩

end Sys2Proof.Machine
end

section
/-! The statement on time-triggered CAN and the bus time messages. -/

namespace Sys2Proof.Machine

/-- Settles O54: each command is its rule on the module; what a time message leaves in its buffer is what a written request
holds. -/
theorem timeTriggeredAndTimeMessages : Obligations.TimeTriggeredAndTimeMessages := by
  refine ⟨?column, ?heard, ?own, ?sent, ?sync, ?follow, ?epoch, ?off⟩
  case column =>
    intro s c k n mark idle hlive hen hk hvalid hmark hcell
    rw [exec_canTtColumn]
    refine ⟨fun h => ?rests, fun hrun htimed hreached hopen => ?due⟩
    case rests => rw [ttColumn_rests hmark hcell idle h, after_self]
    case due =>
      rw [ttColumn_due hmark hcell hlive hen hk hvalid idle hrun htimed hreached hopen]
      refine ⟨fun hcode hfree hlom hwindow => ?inWindow, fun h => ?missed⟩
      case inWindow =>
        rw [if_pos ⟨hcode, hfree, hlom, hwindow⟩]
        refine ⟨fun hidle htx hplain => ?starts, fun h => ?busy⟩
        case starts =>
          rw [if_pos ⟨hidle, htx⟩, ttStart_unopposed]
          exact hplain.imp_left fun hexclusive => decide_eq_false (by omega)
        case busy =>
          rw [if_neg, after_self]
          rintro ⟨hidle, htx⟩
          rcases h with h | h
          · exact absurd (h.symm.trans hidle) (by decide)
          · exact absurd htx (Option.isSome_iff_ne_none.mp h)
      case missed =>
        rw [if_neg]
        · rfl
        · rintro ⟨hcode, hfree, hlom, hwindow⟩
          rcases h with h | h | h | h
          · exact h hcode
          · exact absurd (h.symm.trans hfree) (by decide)
          · exact absurd (h.symm.trans hlom) (by decide)
          · exact absurd hwindow (Nat.not_le.mpr h)
  case heard =>
    rintro s c sof prio cyc follows hlive hen rfl
    rw [exec_canTtReference, ttReference_received hlive hen]
    rfl
  case own =>
    intro s c sof prio cyc hlive hen
    rw [exec_canTtReference, exec_canTtRefTimeout, ttReference_own hlive hen]
    refine ⟨fun hmaster hlom htx hfree hformat => ⟨fun hturn => ?begins, fun hdue => ?timeout⟩,
      fun hmaster => ⟨?noMaster, fun hdue => ?stops⟩, fun hearly => ?early⟩
    case begins => rw [if_pos hturn, refStart_master hmaster hlom htx hfree hformat]
    case timeout => rw [ttTimeout_master hlive hen hdue hmaster hlom, refStart_master hmaster hlom htx hfree hformat]
    case noMaster => rw [refStart_follower hmaster, ite_self, after_self]
    case stops => rw [ttTimeout_follower hlive hen hdue hmaster]
    case early => rw [ttTimeout_early hearly, after_self]
  case sent =>
    intro s c x htx hsrc
    have hview := refSent_ttView (s.gw.setCan c { s.gw.canAt c with tx := none }) c x.cnt
    rw [← canTxDone_ref htx hsrc, canAt_setCan_same] at hview
    refine ⟨_, exec_canTxDone c 0 s, ?_⟩
    rw [canAt_after]
    simp only [CanCtl.ttView, TtView.mk.injEq] at hview
    obtain ⟨hidle, hmaster, hrun, htick, hcycle⟩ := hview
    refine ⟨hidle, hmaster, hrun, htick, hcycle.trans ?_⟩
    simp only [Gw.nextCycle, canAt_setCan_same]
    rfl
  case sync =>
    intro s c hon hfree _ hperiod
    obtain ⟨r, q, hat, hholds⟩ := btmSync_holds
      (g := { s.gw with timers := mset s.gw.timers (timerBtm c) s.gw.tb.tick }) (c := c) hon hfree
    refine ⟨_, exec_btmSyncTimer c s, ?_⟩
    rw [canAt_after, if_pos hon, every_due _ hperiod]
    refine ⟨hholds.code, hholds.ident, hholds.length.trans (syncBytes_length _ _ _), hholds.age, hholds.unit, ?_,
      by rw [hat]; rfl, by rw [hat]; rfl, by rw [hat]; rfl⟩
    rw [List.headD_eq_head?, List.head?_eq_getElem?, ← List.getD_eq_getElem?_getD]
    exact hholds.words 0 (by rw [wordsOf_length, syncBytes_length]; decide)
  case follow =>
    intro s c st seg hon hfree hepoch hstamp
    rw [exec_btmFollowWrite]
    refine ⟨fun step hstage hsent hnot hstep => ?sends, fun hstage h => ?ends, fun h => ?rests⟩
    case sends =>
      obtain ⟨r, q, hat, hholds⟩ := btmFollowSend_holds hfree st seg
      refine ⟨_, rfl, ?_⟩
      rw [canAt_after, btmFollow_sends hon hepoch hstage hsent hnot hstamp]
      have hbytes : step = (s.gw.canAt c).btmFollowSeg.any (fun sg => sg != seg) := by
        rw [hstep]
        cases (s.gw.canAt c).btmFollowSeg <;> rfl
      refine ⟨hholds.code, by rw [hat], by rw [hat], by rw [hat], hholds.unit, fun i hi => ?_⟩
      rw [hbytes]
      exact hholds.words i (by rw [wordsOf_length, followBytes_length]; exact hi)
    case ends => rw [btmFollow_ends hon hepoch hstage h]
    case rests => rw [btmFollow_rests hon hepoch h, after_self]
  case epoch =>
    intro s c seq t hon hfree hepoch hsent
    obtain ⟨r, q, hat, hholds⟩ := btmEpochWrite_holds hfree seq t
    refine ⟨_, exec_btmFollowWrite c s, ?_⟩
    rw [canAt_after, btmFollow_epoch hon hepoch hsent]
    refine ⟨hholds.code, by rw [hat], fun i hi => hholds.words i ?_⟩
    rw [wordsOf_length, epochBytes_length]
    exact hi
  case off =>
    intro s c hoff
    rw [exec_btmSyncTimer, exec_btmFollowWrite, btmFollow_off hoff, if_neg (by rw [hoff]; decide), after_self]
    exact ⟨rfl, rfl⟩

end Sys2Proof.Machine
end

section
/-! SUPPORT. LIN_TABLE (R380, R610): the tables and controllers that it takes, and what it asks of a schedule that runs or
stands; FLX_CMD (R611): the one row that its five instructions share. -/

namespace Sys2Proof.Machine

/-! ### LIN_TABLE -/

theorem linTableOk_iff (g : Gw) (l k : Nat) : g.linTableOk l k = true ↔
    l ≤ 11 ∧ g.linCmdr l = true ∧ g.linLom l = false ∧ (k ≤ 3 ∨ k = 15) := by
  simp [Gw.linTableOk, and_assoc]

theorem linTableCmd_taken {g : Gw} {m l k : Nat} (t : Stamp) (hl : l = bits (g.arg m 0) 3 0) (hk : k = bits (g.arg m 0) 11 8)
    (hok : g.linTableOk l k = true) : linTableCmd m t g = (g.linTable l k t, {}) := by
  subst hl hk
  exact if_pos hok

theorem linTableCmd_refused {g : Gw} {m : Nat} (t : Stamp)
    (h : ¬ g.linTableOk (bits (g.arg m 0) 3 0) (bits (g.arg m 0) 11 8) = true) :
    linTableCmd m t g = (g, failWith stBadArg) := if_neg h

theorem linTable_running {g : Gw} {l : Nat} (k : Nat) (t : Stamp) (h : (g.linAt l).running = true) :
    g.linTable l k t = g.setLin l { g.linAt l with want := some k } := if_pos h

theorem linTable_starts {g : Gw} {l k : Nat} (t : Stamp) (h : (g.linAt l).running = false) (hk : k ≠ 15) :
    g.linTable l k t = g.setLin l { g.linAt l with
      running := true, table := k, slot := 0, nextSlot := some t, want := none, resume := [] } := by
  simp [Gw.linTable, h, hk]

theorem linTable_stands {g : Gw} {l : Nat} (t : Stamp) (h : (g.linAt l).running = false) : g.linTable l 15 t = g := by
  simp [Gw.linTable, h]

theorem exec_linTableStart {m : Nat} {s : State} (h : bits (s.gw.arg m 0) 11 8 ≠ 15) :
    exec (.linTableStart m) s = answer (changeRow 0x0710 (effAt linTableCmd) m) s :=
  answer_pickRow (decide_eq_true h)

theorem exec_linTableStop {m : Nat} {s : State} (h : bits (s.gw.arg m 0) 11 8 = 15) :
    exec (.linTableStop m) s = answer (changeRow 0x0710 (effAt linTableCmd) m) s :=
  answer_pickRow (decide_eq_true h)

/-- In CONFIG a table that the controller takes acts at stamp 0 and is answered at once. -/
theorem linTableRow_taken {m l k : Nat} {s : State} {g : Gw} (h : s.gw.holds m 0x0710 = true) (hs : s.gw.serving = false)
    (hl : l = bits (s.gw.arg m 0) 3 0) (hk : k = bits (s.gw.arg m 0) 11 8) (hok : s.gw.linTableOk l k = true)
    (hg : s.gw.linTable l k 0 = g) :
    answer (changeRow 0x0710 (effAt linTableCmd) m) s = .next (s.after (g.reply m 0 0 [])) := by
  subst hg
  exact changeRow_config_reply h hs (linTableCmd_taken 0 hl hk hok)

/-! ### FLX_CMD -/

/-- The row of the operation that the request names: it acts where it is allowed, and answers with the POC state. -/
theorem answer_flxRow {op m : Nat} {s : State} (allowed : Nat → Gw → Bool) (act : Nat → Gw → Gw)
    (h : s.gw.holds m 0x0720 = true) (hop : bits (s.gw.arg m 0) 2 0 = op) :
    answer (flxRow op allowed act m) s = .next (s.after (
      if allowed m s.gw = true then (act m s.gw).reply m 0 0 [(act m s.gw).flx.poc]
      else s.gw.reply m 0x03 0 [s.gw.flx.poc])) := by
  have hmine : s.gw.flxOp m = op := hop
  refine answer_of_withGw ?_
  rw [flxRow]
  simp only [hmine, decide_true, Bool.true_or, if_true]
  rw [directRow_effGw _ h, flxCmd, hmine]
  by_cases hallowed : allowed m s.gw = true
  · simp [hallowed, Gw.finish]
  · simp [hallowed, Gw.finish, stBadArg]

end Sys2Proof.Machine
end

section
/-! The statement on LIN_TABLE and FLX_CMD. -/

namespace Sys2Proof.Machine

/-- Settles O37: LIN_TABLE by what runs and what is asked for, FLX_CMD by the row of its five operations. -/
theorem linAndFlexRayCommands : Obligations.LinAndFlexRayCommands := by
  refine ⟨?taken, ?refused, ?flexRay⟩
  case taken =>
    intro s m l k hm hs hl hk hle hcmdr hlom
    have hok : k ≤ 3 ∨ k = 15 → s.gw.linTableOk l k = true :=
      fun h => (linTableOk_iff _ _ _).mpr ⟨hle, hcmdr, hlom, h⟩
    have hstart : k ≤ 3 → bits (s.gw.arg m 0) 11 8 ≠ 15 := fun h => by omega
    refine ⟨fun h hstands => ?starts, fun h hruns => ?switches, fun h hruns => ?stops, fun h hstands => ?nothing⟩
    case starts =>
      rw [exec_linTableStart (hstart h)]
      exact linTableRow_taken hm hs hl hk (hok (.inl h)) (linTable_starts 0 hstands (by omega))
    case switches =>
      rw [exec_linTableStart (hstart h)]
      exact linTableRow_taken hm hs hl hk (hok (.inl h)) (linTable_running k 0 hruns)
    case stops =>
      rw [exec_linTableStop (hk.symm.trans h)]
      exact linTableRow_taken hm hs hl hk (hok (.inr h)) (h ▸ linTable_running k 0 hruns)
    case nothing =>
      rw [exec_linTableStop (hk.symm.trans h)]
      exact linTableRow_taken hm hs hl hk (hok (.inr h)) (h ▸ linTable_stands 0 hstands)
  case refused =>
    intro s m hm hs hstart hbad
    rw [exec_linTableStart hstart]
    refine changeRow_config_failWith hm hs (effAt_of_eq (linTableCmd_refused 0 fun hok => ?_))
    obtain ⟨-, hcmdr, hlom, htable⟩ := (linTableOk_iff _ _ _).mp hok
    rcases hbad with hbad | hbad | hbad
    · omega
    · exact absurd hcmdr (by rw [hbad]; decide)
    · exact absurd hbad (by rw [hlom]; decide)
  case flexRay =>
    intro s m op hm hop
    refine ⟨fun h => ?run, fun h => ?coldstart, fun h => ?wakeup, fun h => ?halt, fun h => ?freeze⟩
    all_goals refine (answer_flxRow _ _ hm (hop.symm.trans h)).trans ?_
    case run => simp only [decide_eq_true_eq]
    case coldstart => simp only [Bool.and_eq_true, decide_eq_true_eq, Bool.not_eq_true', and_assoc]
    case wakeup => simp only [Bool.and_eq_true, Bool.or_eq_true, decide_eq_true_eq, Bool.not_eq_true', and_assoc, emit_flx]
    case halt => simp only [Bool.or_eq_true, decide_eq_true_eq]
    case freeze => simp only [if_true]

end Sys2Proof.Machine
end

section
/-! SUPPORT. The buses of F13: what a capture item changes (R726–R728), the committed buffers (R369, R370), and a received frame
on its way to Strata (R376, R387). -/

namespace Sys2Proof.Machine

/-! ### Capture items -/

/-- `h` is `g` but for the capture FIFOs and registers, and the registers of the LIN controllers and of FR0 read as in `g`. -/
structure CapturesOnly (g h : Gw) : Prop where
  shape : ∃ rs fs, h = { g with regs := rs, capFifo := fs }
  busRegs : ∀ o, 0x1A0000 ≤ o → h.regN o = g.regN o

theorem CapturesOnly.refl (g : Gw) : CapturesOnly g g := ⟨⟨_, _, rfl⟩, fun _ _ => rfl⟩

theorem CapturesOnly.trans {g h k : Gw} (a : CapturesOnly g h) (b : CapturesOnly h k) : CapturesOnly g k := by
  obtain ⟨rs, fs, rfl⟩ := a.shape
  obtain ⟨rs', fs', rfl⟩ := b.shape
  exact ⟨⟨_, _, rfl⟩, fun o ho => (b.busRegs o ho).trans (a.busRegs o ho)⟩

theorem CapturesOnly.of_fifo (g : Gw) (fs : Map CapFifo) : CapturesOnly g { g with capFifo := fs } :=
  ⟨⟨_, _, rfl⟩, fun _ _ => rfl⟩

theorem CapturesOnly.flag (g : Gw) {o : Nat} (k : Nat) (ho : o < 0x1A0000) : CapturesOnly g (g.flag o k) :=
  ⟨⟨_, _, rfl⟩, fun p hp => regN_flag_ne g (by omega)⟩

theorem CapturesOnly.bump (g : Gw) {o : Nat} (ho : o < 0x1A0000) : CapturesOnly g (g.bump o) :=
  ⟨⟨_, _, rfl⟩, fun p hp => regN_bump_ne g (by omega)⟩

theorem capAppend_capturesOnly (g : Gw) {i : Nat} (bs : List Byte) (hi : i < 46) : CapturesOnly g (g.capAppend i bs) := by
  have hfifo := CapturesOnly.of_fifo g (mset g.capFifo i { g.fifo i with bytes := (g.fifo i).bytes ++ bs })
  unfold Gw.capAppend
  dsimp only
  split
  · exact hfifo.trans (.flag _ _ (by simp only [Reg.arcCapStat]; omega))
  · exact hfifo

theorem capLost_capturesOnly (g : Gw) {i : Nat} (hi : i < 46) : CapturesOnly g (g.capLost i) := by
  unfold Gw.capLost
  dsimp only
  split
  · exact .refl g
  · exact (CapturesOnly.of_fifo g _).trans (capAppend_capturesOnly _ _ hi)

theorem capItem_capturesOnly (g : Gw) {i : Nat} (kind flags cnt ident : Nat) (data : List Byte) (hi : i < 46) :
    CapturesOnly g (g.capItem i kind flags cnt ident data) := by
  unfold Gw.capItem
  dsimp only
  split
  · exact .refl g
  · refine (capLost_capturesOnly g hi).trans ?_
    split
    · exact ((CapturesOnly.of_fifo _ _).trans (.bump _ (by simp only [Reg.arcCapLost]; omega))).trans
        (.flag _ _ (by decide))
    · exact capAppend_capturesOnly _ _ hi

section
variable (g : Gw) {i : Nat} (kind flags cnt ident : Nat) (data : List Byte) (hi : i < 46)
include hi

theorem capItem_str : (g.capItem i kind flags cnt ident data).str = g.str := by
  obtain ⟨rs, fs, h⟩ := (capItem_capturesOnly g kind flags cnt ident data hi).shape
  rw [h]

theorem capItem_lin : (g.capItem i kind flags cnt ident data).lin = g.lin := by
  obtain ⟨rs, fs, h⟩ := (capItem_capturesOnly g kind flags cnt ident data hi).shape
  rw [h]

theorem capItem_flx : (g.capItem i kind flags cnt ident data).flx = g.flx := by
  obtain ⟨rs, fs, h⟩ := (capItem_capturesOnly g kind flags cnt ident data hi).shape
  rw [h]

end

/-! ### Committed buffers -/

/-- A content goes to its place in its buffer, of which the newest contents stay, one at least. -/
theorem commitOne_take (g : Gw) (x : Committed) (l : List Committed) :
    ∃ n, g.commitOne x l = (l.takeWhile (fun y => decide (g.commitStamp x < g.commitStamp y)) ++
      x :: l.dropWhile (fun y => decide (g.commitStamp x < g.commitStamp y))).take (n + 1) := by
  unfold Gw.commitOne
  dsimp only
  generalize List.takeWhile _ l ++ x :: _ = placed
  split
  · exact ⟨_, rfl⟩
  · exact ⟨placed.length, (List.take_of_length_le (Nat.le_succ _)).symm⟩

theorem commitOne_nil (g : Gw) (x : Committed) : g.commitOne x [] = [x] := by
  obtain ⟨n, h⟩ := commitOne_take g x []
  rw [h, List.takeWhile_nil, List.dropWhile_nil, List.nil_append]
  exact List.take_of_length_le (Nat.le_add_left 1 n)
/-- A waiting frame whose stamp has come becomes the content of its empty buffer. -/
theorem commitUpTo_due {g : Gw} {m : Map (List Committed)} {w : CommitWait} {t : Stamp} (hw : g.present w.c w.seg ≤ t)
    (hm : mget? m w.buf = none) : g.commitUpTo m [w] t = (mset m w.buf [⟨w.data, w.c, w.seg, true⟩], []) := by
  simp [Gw.commitUpTo, hw, Gw.commitInto, mgetD, hm, commitOne_nil]

theorem commitUpTo_early {g : Gw} {w : CommitWait} {t : Stamp} (m : Map (List Committed)) (hw : t < g.present w.c w.seg) :
    g.commitUpTo m [w] t = (m, [w]) := by
  simp [Gw.commitUpTo, Int.not_le.mpr hw]

theorem commitBus_lin (g : Gw) {l : Nat} (hl : l < 12) : g.commitBus (32 + l) = g.setLin l { g.linAt l with
    commits := (g.commitUpTo (g.linAt l).commits (g.linAt l).waits g.nowLast).1
    waits := (g.commitUpTo (g.linAt l).commits (g.linAt l).waits g.nowLast).2 } := by
  have hbus : (decide (32 ≤ 32 + l) && decide (32 + l ≤ 43)) = true := by
    simp only [Bool.and_eq_true, decide_eq_true_eq]
    omega
  simp only [Gw.commitBus, hbus, if_true, Nat.add_sub_cancel_left]

theorem commitBus_flx (g : Gw) {ch : Nat} (hch : ch < 2) : g.commitBus (44 + ch) = { g with flx := { g.flx with
    commits := (g.commitUpTo g.flx.commits g.flx.waits g.nowLast).1
    waits := (g.commitUpTo g.flx.commits g.flx.waits g.nowLast).2 } } := by
  have hlin : (decide (32 ≤ 44 + ch) && decide (44 + ch ≤ 43)) = false := by
    simp only [Bool.and_eq_false_iff, decide_eq_false_iff_not]
    omega
  have hflx : (decide (44 + ch = 44) || decide (44 + ch = 45)) = true := by
    simp only [Bool.or_eq_true, decide_eq_true_eq]
    omega
  simp only [Gw.commitBus, hlin, hflx, if_true, Bool.false_eq_true, if_false]

theorem exec_committedBufferCommit (bus : Nat) (s : State) :
    exec (.committedBufferCommit bus) s = .next (s.after (s.gw.commitBus bus)) := rfl

/-! ### A received frame on its way to Strata -/

/-- A frame that F13 has room for enters the frames on their way to Strata, whatever else than Caldera, Strata and the fences has
changed since. -/
theorem deliver_at13 {g h : Gw} {x : Frame} (hcal : h.cal = g.cal) (hstr : h.str = g.str) (hflt : h.flt = g.flt)
    (hport : x.fport = 13) (hroom : roomAt13 g x) :
    (h.deliver x).str.inbound = g.str.inbound ++ [{ x with fid := g.cal.nextFid }] ∧ (h.deliver x).lin = h.lin := by
  obtain ⟨hfree, hpend⟩ := hroom
  have hcells : h.freeCells = g.freeCells := by
    funext n
    unfold Gw.freeCells Gw.cellBusy
    rw [hcal, hflt]
  have hused : h.pendCells = g.pendCells := by
    funext f
    unfold Gw.pendCells
    rw [hstr]
  have hallot : h.allotment 13 = g.allotment 13 := rfl
  obtain ⟨k, hstore⟩ := storeFrame_of_free (g := h) (x := x) (by rw [hcells]; exact hfree)
  obtain ⟨h', hstore', hdeliver⟩ := deliver_stored (g := h) (x := x) (by rw [hcells]; exact hfree)
    (by rw [hport, hused, hallot]; exact hpend)
  obtain ⟨rfl, -⟩ := Prod.mk.inj (Option.some.inj (hstore.symm.trans hstore'))
  rw [hdeliver, hstr, hcal]
  exact ⟨rfl, rfl⟩

/-- The interrupt outputs of a change keep an output of it. -/
theorem out_contains_after (s : State) {g : Gw} {x : Out} (h : x ∈ g.out) : (s.after g).gw.out.contains x = true :=
  List.contains_iff_mem.mpr (mem_out_interrupts s.gw h)

end Sys2Proof.Machine
end

section
/-! SUPPORT. FR0 (R383–R387, R391, R392): an action point in normal active, a received frame, and the end of a cycle. -/

namespace Sys2Proof.Machine

theorem exec_flxActionPoint (ch sl cnt : Nat) (s : State) :
    exec (.flxActionPoint ch sl ⟨cnt⟩) s = .next (s.after (s.gw.flxAction ch sl cnt)) := rfl

theorem exec_flxFrameReceive (ch sof eof : Nat) (b : BusFrame) (bad : Bool) (s : State) :
    exec (.flxFrameReceive ch sof eof b bad) s = .next (s.after (s.gw.flxReceive ch sof eof b bad)) := rfl

theorem exec_flxCycleEnd (integrated synced limit : Bool) (s : State) :
    exec (.flxCycleEnd integrated synced limit) s = .next (s.after (s.gw.flxCycle integrated synced limit)) := rfl

theorem exec_flxWakeupReceive (ch : Nat) (s : State) : exec (.flxWakeupReceive ch) s =
    .next (s.after (if s.gw.flxOn ch then s.gw.flag Reg.flxFlag 0x04000000 else s.gw)) := rfl

theorem flx_after (s : State) (g : Gw) : (s.after g).gw.flx = g.flx := by rw [after_gw, interrupts_flx]

theorem channel_lt_of_flxOn {g : Gw} {ch : Nat} (h : g.flxOn ch = true) : ch < 2 := by
  simp only [Gw.flxOn, Bool.and_eq_true, decide_eq_true_eq] at h
  obtain ⟨⟨-, hch⟩, -⟩ := h
  exact hch

/-! ### Action points (R385, R386) -/

/-- The output of a slot: its place in the cluster, and SYNC and STARTUP in the key slot (R383). -/
def Gw.flxOut (g : Gw) (ch sl : Nat) (null : Bool) (data : List Byte) : Out :=
  .flxFrame ch sl g.flx.cycle null (g.flx.cluster.keySlot = sl && bit g.flxCfg 55)
    (g.flx.cluster.keySlot = sl && bit g.flxCfg 56) data

/-- What FR0 does at the action point of a slot that it owns, with the slot's content or without one. -/
def Gw.flxSlot (g : Gw) (f : FlxSlot) (ch sl cnt : Nat) : Option Committed → Gw
  | some k =>
    if f.dynamic && !g.flx.fits g.flxRate ch sl k.data.length then g
    else
      let q := g.flxContent ch k
      ((({ q.2 with flx := if f.dynamic then q.2.flx.miniFrame q.2.flxRate ch sl k.data.length else q.2.flx } : Gw).bump
        Reg.flxTxOk).capItem (44 + ch) 1 0 cnt (sl + g.flx.cycle * 2048) q.1).emit (g.flxOut ch sl false q.1)
  | none => if f.dynamic then g else (g.bump Reg.flxNullTxCnt).emit (g.flxOut ch sl true [])

/-- In normal active the commits that have come by the action point are made, and the slot has the content that then stands. -/
theorem flxAction_active {g : Gw} {ch sl cnt : Nat} {f : FlxSlot} {t0 : Stamp × Nat} {t : Stamp} {fl : FlxCtl}
    (hon : g.flxOn ch = true) (hlom : g.flxLom = false)
    (hfind : g.flx.owned.find? (fun x => x.hits ch sl g.flx.cycle) = some f)
    (hstamp : stampOf g.flx.pairs (bits g.flxCfg 15 0) cnt = some t0) (hpoc : g.flx.poc = 5)
    (ht : t = g.translate t0.1 t0.2 g.tb.seg)
    (hfl : fl = { g.flx with commits := (g.commitUpTo g.flx.commits g.flx.waits t).1
                             waits := (g.commitUpTo g.flx.commits g.flx.waits t).2 }) :
    g.flxAction ch sl cnt =
      ({ g with flx := fl } : Gw).flxSlot f ch sl cnt (g.contentAt fl.commits (2048 * ch + sl) t) := by
  have hleads : (decide (g.flx.poc = 4) && g.flx.coldAllowed &&
      (decide (g.flx.cluster.keySlot = sl) && bit g.flxCfg 56)) = false := by rw [hpoc]; rfl
  have hsends : (!g.flxOn ch || g.flxLom || (decide (g.flx.poc ≠ 5) && !false)) = false := by rw [hon, hlom, hpoc]; rfl
  subst hfl ht
  unfold Gw.flxAction
  rw [hfind, hstamp]
  simp only [hleads, hsends, Bool.false_eq_true, if_false]
  rfl

section
variable {g : Gw} {f : FlxSlot} {ch sl : Nat} {k : Committed} (cnt : Nat)

/-- A dynamic frame that does not fit into the minislots left is not sent. -/
theorem flxSlot_unfit (hdyn : f.dynamic = true) (hfit : g.flx.fits g.flxRate ch sl k.data.length = false) :
    g.flxSlot f ch sl cnt (some k) = g := if_pos (by rw [hdyn, hfit]; rfl)

/-- Committed content is sent; a dynamic frame moves the minislot counter on. -/
theorem flxSlot_sends (hfit : f.dynamic = false ∨ g.flx.fits g.flxRate ch sl k.data.length = true)
    (hdef : bit g.undefBus (44 + ch) = false) : g.flxSlot f ch sl cnt (some k) =
      ((({ g with flx := if f.dynamic then g.flx.miniFrame g.flxRate ch sl k.data.length else g.flx } : Gw).bump
        Reg.flxTxOk).capItem (44 + ch) 1 0 cnt (sl + g.flx.cycle * 2048) k.data).emit (g.flxOut ch sl false k.data) := by
  have hcontent : g.flxContent ch k = (k.data, g) := if_neg (by rw [hdef]; decide)
  have hroom : (f.dynamic && !g.flx.fits g.flxRate ch sl k.data.length) = false := by
    rcases hfit with h | h
    · rw [h]; rfl
    · rw [h, Bool.not_true, Bool.and_false]
  rw [Gw.flxSlot, hroom, hcontent]
  rfl

theorem flxSlot_sends_out (hfit : f.dynamic = false ∨ g.flx.fits g.flxRate ch sl k.data.length = true)
    (hdef : bit g.undefBus (44 + ch) = false) : g.flxOut ch sl false k.data ∈ (g.flxSlot f ch sl cnt (some k)).out := by
  rw [flxSlot_sends cnt hfit hdef]
  exact List.mem_append_right _ (List.mem_singleton.mpr rfl)

theorem flxSlot_sends_flx (hch : ch < 2) (hfit : f.dynamic = false ∨ g.flx.fits g.flxRate ch sl k.data.length = true)
    (hdef : bit g.undefBus (44 + ch) = false) : (g.flxSlot f ch sl cnt (some k)).flx =
      if f.dynamic then g.flx.miniFrame g.flxRate ch sl k.data.length else g.flx := by
  rw [flxSlot_sends cnt hfit hdef, emit_flx, capItem_flx _ _ _ _ _ _ (by omega), bump_flx]

theorem flxSlot_silent (hdyn : f.dynamic = true) : g.flxSlot f ch sl cnt none = g := if_pos hdyn

theorem flxSlot_null (hstatic : f.dynamic = false) :
    g.flxSlot f ch sl cnt none = (g.bump Reg.flxNullTxCnt).emit (g.flxOut ch sl true []) :=
  if_neg (by rw [hstatic]; decide)

end

/-- Outside startup and normal active, and in slots that it does not own, FR0 sends nothing. -/
theorem flxAction_idle {g : Gw} {ch sl : Nat} (cnt : Nat) (h : (g.flx.poc ≠ 4 ∧ g.flx.poc ≠ 5) ∨
    g.flx.owned.find? (fun x => x.hits ch sl g.flx.cycle) = none) : g.flxAction ch sl cnt = g := by
  unfold Gw.flxAction
  rcases h with ⟨h4, h5⟩ | hnone
  · split
    · exact if_pos (by simp [h4, h5])
    · rfl
  · rw [hnone]

/-! ### Received frames (R387) -/

theorem miniFrame_shape (x : FlxCtl) (rate ch sl n : Nat) : ∃ m, x.miniFrame rate ch sl n = { x with mini := m } := by
  unfold FlxCtl.miniFrame
  split <;> exact ⟨_, rfl⟩

/-- A frame as its channel gives it on: with its source, and its cycle within its identifier. -/
def flxFrameOn (ch : Nat) (b : BusFrame) : BusFrame :=
  { b with bus := 44 + ch, ident := b.ident % 2048 + b.cycle % 64 * 2048, cycle := b.cycle % 64 }

/-- FR0 once it has counted and captured a sound frame. -/
def Gw.flxHeard (g : Gw) (ch sof : Nat) (b : BusFrame) : Gw :=
  (({ g with flx := if g.flx.cluster.statics < b.ident % 2048
      then g.flx.miniFrame g.flxRate ch (b.ident % 2048) b.data.length else g.flx } : Gw).bump
    (if ch = 0 then Reg.flxRxOkA else Reg.flxRxOkB)).capItem (44 + ch) 0 0 sof b.ident b.data

/-- A sound frame goes on towards Strata when its stamps are known and a receive buffer takes it. -/
def Gw.flxOnward (g : Gw) (ch sof eof : Nat) (b : BusFrame) : Gw :=
  match stampOf g.flx.pairs (bits g.flxCfg 15 0) sof, stampOf g.flx.pairs (bits g.flxCfg 15 0) eof with
  | some i, some a =>
    if bit g.flxCfg 61 && g.flx.rxBufs.any (fun f => f.hits ch (b.ident % 2048) b.cycle) then
      g.deliver { fport := 13, sub := 44 + ch, body := .bus b, ing := i.1, ingSeg := i.2, adm := a.1, seg := a.2 }
    else g
  | _, _ => g

theorem flxOnward_buffered {g : Gw} {ch sof eof : Nat} {b : BusFrame} {i a : Stamp × Nat}
    (hi : stampOf g.flx.pairs (bits g.flxCfg 15 0) sof = some i) (ha : stampOf g.flx.pairs (bits g.flxCfg 15 0) eof = some a)
    (hen : bit g.flxCfg 61 = true) (hbuf : g.flx.rxBufs.any (fun f => f.hits ch (b.ident % 2048) b.cycle) = true) :
    g.flxOnward ch sof eof b = g.deliver
      { fport := 13, sub := 44 + ch, body := .bus b, ing := i.1, ingSeg := i.2, adm := a.1, seg := a.2 } := by
  unfold Gw.flxOnward
  rw [hi, ha]
  exact if_pos (by rw [hen, hbuf]; rfl)

theorem flxReceive_off {g : Gw} {ch : Nat} (hoff : g.flxOn ch = false) (sof eof : Nat) (b : BusFrame) (bad : Bool) :
    g.flxReceive ch sof eof b bad = g := if_pos (by rw [hoff]; rfl)

section
variable {g : Gw} {ch : Nat} (hon : g.flxOn ch = true)
include hon

theorem flxReceive_sound (sof eof : Nat) (b : BusFrame) : g.flxReceive ch sof eof b false =
    (g.flxHeard ch sof (flxFrameOn ch b)).flxOnward ch sof eof (flxFrameOn ch b) := by
  unfold Gw.flxReceive
  rw [hon]
  rfl

/-- What FR0 changes before a sound frame goes on is no part of Caldera, of Strata or of its own configuration. -/
theorem flxHeard_keeps (sof : Nat) (b : BusFrame) : (g.flxHeard ch sof b).cal = g.cal ∧
    (g.flxHeard ch sof b).str = g.str ∧ (g.flxHeard ch sof b).flt = g.flt ∧ (g.flxHeard ch sof b).params = g.params ∧
    (g.flxHeard ch sof b).flx.pairs = g.flx.pairs ∧ (g.flxHeard ch sof b).flx.rxBufs = g.flx.rxBufs := by
  have hch := channel_lt_of_flxOn hon
  have hmini : ∃ m, (if g.flx.cluster.statics < b.ident % 2048
      then g.flx.miniFrame g.flxRate ch (b.ident % 2048) b.data.length else g.flx) = { g.flx with mini := m } := by
    split
    · exact miniFrame_shape _ _ _ _ _
    · exact ⟨_, rfl⟩
  obtain ⟨m, hm⟩ := hmini
  obtain ⟨rs, fs, hitem⟩ := (capItem_capturesOnly (({ g with flx := { g.flx with mini := m } } : Gw).bump
    (if ch = 0 then Reg.flxRxOkA else Reg.flxRxOkB)) 0 0 sof b.ident b.data (by omega : 44 + ch < 46)).shape
  rw [Gw.flxHeard, hm, hitem]
  exact ⟨rfl, rfl, rfl, rfl, rfl, rfl⟩

/-- A frame that a receive buffer takes, and that F13 has room for, is on its way to Strata with its stamps. -/
theorem flxReceive_buffered {sof eof : Nat} {b : BusFrame} {i a : Stamp × Nat} {x : Frame}
    (hi : stampOf g.flx.pairs (bits g.flxCfg 15 0) sof = some i) (ha : stampOf g.flx.pairs (bits g.flxCfg 15 0) eof = some a)
    (hen : bit g.flxCfg 61 = true)
    (hbuf : g.flx.rxBufs.any (fun f => f.hits ch ((flxFrameOn ch b).ident % 2048) (flxFrameOn ch b).cycle) = true)
    (hx : x = { fport := 13, sub := 44 + ch, body := .bus (flxFrameOn ch b), ing := i.1, ingSeg := i.2, adm := a.1, seg := a.2 })
    (hroom : roomAt13 g x) :
    (g.flxReceive ch sof eof b false).str.inbound = g.str.inbound ++ [{ x with fid := g.cal.nextFid }] := by
  obtain ⟨hcal, hstr, hflt, hparams, hpairs, hbufs⟩ := flxHeard_keeps hon sof (flxFrameOn ch b)
  have hcfg : (g.flxHeard ch sof (flxFrameOn ch b)).flxCfg = g.flxCfg := param_congr hparams _
  have honward := flxOnward_buffered (g := g.flxHeard ch sof (flxFrameOn ch b)) (b := flxFrameOn ch b)
    (by rw [hpairs, hcfg, hi]) (by rw [hpairs, hcfg, ha]) (by rw [hcfg, hen]) (by rw [hbufs, hbuf])
  obtain ⟨hinbound, -⟩ := deliver_at13 hcal hstr hflt (by rw [hx]) hroom
  rw [flxReceive_sound hon, honward, ← hx, hinbound]

/-- A frame with a coding error sets the flag of its channel, and none goes on. -/
theorem flxReceive_badCoding (sof eof : Nat) (b : BusFrame) :
    (g.flxReceive ch sof eof b true).str = g.str ∧
      bit ((g.flxReceive ch sof eof b true).regN Reg.flxFlag) (29 - ch) = true := by
  have hch := channel_lt_of_flxOn hon
  have hmask : bit (if ch = 0 then 0x20000000 else 0x10000000) (29 - ch) = true := by
    interval_cases ch <;> decide
  have hitem : 44 + ch < 46 := by omega
  have hrecv : g.flxReceive ch sof eof b true = ((g.bump (if ch = 0 then Reg.flxSyntaxCntA else Reg.flxSyntaxCntB)).flag
      Reg.flxFlag (if ch = 0 then 0x20000000 else 0x10000000)).capItem (44 + ch) 2 1 g.canNow 0 [] := by
    rw [Gw.flxReceive, hon]
    rfl
  rw [hrecv, capItem_str _ _ _ _ _ _ hitem, (capItem_capturesOnly _ _ _ _ _ _ hitem).busRegs _ (by decide)]
  exact ⟨rfl, bit_regN_flag_of_mask _ _ (by omega) hmask⟩

end

/-! ### The end of a cycle (R391, R392, R611) -/

theorem flxCycle_off {g : Gw} (hoff : g.flxLive = false) (integrated synced limit : Bool) :
    g.flxCycle integrated synced limit = g := if_pos (by rw [hoff]; rfl)

/-- FR0 in the cycle after the present one, with its minislot counters anew. -/
def FlxCtl.nextCycle (x : FlxCtl) : FlxCtl := { x with cycle := (x.cycle + 1) % 64, mini := [] }

section
variable {g : Gw} (hlive : g.flxLive = true) (hpoc : 4 ≤ g.flx.poc) (hrun : g.flx.poc ≠ 7) (integrated synced : Bool)
include hlive hpoc hrun

theorem flxCycle_halts (hhalt : g.flx.haltPending = true) : g.flxCycle integrated synced false =
    { g with flx := { g.flx.nextCycle with poc := 7, haltPending := false } } := by
  simp [Gw.flxCycle, hlive, Nat.not_lt.mpr hpoc, hrun, hhalt, FlxCtl.nextCycle]

omit hpoc hrun in
theorem flxCycle_startup (hhalt : g.flx.haltPending = false) (h4 : g.flx.poc = 4) : g.flxCycle integrated synced false =
    { g with flx := { g.flx.nextCycle with poc := if integrated then 5 else 4, noCorr := 0 } } := by
  simp [Gw.flxCycle, hlive, h4, hhalt, FlxCtl.nextCycle]

theorem flxCycle_synced (hhalt : g.flx.haltPending = false) (h4 : g.flx.poc ≠ 4) : g.flxCycle integrated true false =
    { g with flx := { g.flx.nextCycle with poc := 5, noCorr := 0 } } := by
  simp [Gw.flxCycle, hlive, Nat.not_lt.mpr hpoc, hrun, h4, hhalt, FlxCtl.nextCycle]

theorem flxCycle_unsynced (hhalt : g.flx.haltPending = false) (h4 : g.flx.poc ≠ 4) : g.flxCycle integrated false false =
    ({ g with flx := { g.flx.nextCycle with
        noCorr := g.flx.noCorr + 1
        poc := if g.flx.maxFatal ≤ g.flx.noCorr + 1 then 7
          else if g.flx.maxPassive ≤ g.flx.noCorr + 1 then 6 else g.flx.poc } } : Gw).flag Reg.flxFlag 0x80000000 := by
  simp [Gw.flxCycle, hlive, Nat.not_lt.mpr hpoc, hrun, h4, hhalt, FlxCtl.nextCycle]

/-- Whatever the POC state becomes, the next cycle follows. -/
theorem flxCycle_cycle : (g.flxCycle integrated synced false).flx.cycle = (g.flx.cycle + 1) % 64 := by
  cases hhalt : g.flx.haltPending with
  | true => rw [flxCycle_halts hlive hpoc hrun _ _ hhalt]; rfl
  | false =>
    by_cases h4 : g.flx.poc = 4
    · rw [flxCycle_startup hlive _ _ hhalt h4]; rfl
    · cases synced with
      | true => rw [flxCycle_synced hlive hpoc hrun _ hhalt h4]; rfl
      | false => rw [flxCycle_unsynced hlive hpoc hrun _ hhalt h4]; rfl

end

end Sys2Proof.Machine
end

section
/-! The statement on FlexRay. -/

namespace Sys2Proof.Machine

/-- Settles O56: action points by the slot and its content, received frames, the four ways a cycle ends, and wakeup patterns. -/
theorem flexRayFramesAndCycles : Obligations.FlexRayFramesAndCycles := by
  refine ⟨?active, ?idle, ?received, ?cycleEnd, ?wakeup, ?off⟩
  case active =>
    intro s ch sl cnt f t0 t1 fl hon hlom hfind hstamp hpoc ht hfl
    have hch := channel_lt_of_flxOn hon
    refine ⟨fun k hk => ⟨fun hdyn hfit => ?unfit, fun hfit hdef => ?sends⟩,
      fun hk => ⟨fun hstatic => ?null, fun hdyn => ?silent⟩⟩
    all_goals rw [exec_flxActionPoint, flxAction_active hon hlom hfind hstamp hpoc ht hfl, hk]
    case unfit => rw [flxSlot_unfit (g := { s.gw with flx := fl }) cnt hdyn hfit]
    case sends =>
      refine ⟨_, rfl, ?out, ?flx⟩
      case out =>
        subst hfl
        exact out_contains_after s (flxSlot_sends_out cnt hfit hdef)
      case flx => rw [flx_after, flxSlot_sends_flx (g := { s.gw with flx := fl }) cnt hch hfit hdef]; rfl
    case null =>
      rw [flxSlot_null (g := { s.gw with flx := fl }) cnt hstatic]
      subst hfl
      rfl
    case silent => rw [flxSlot_silent (g := { s.gw with flx := fl }) cnt hdyn]
  case idle =>
    intro s ch sl cnt h
    rw [exec_flxActionPoint, flxAction_idle cnt h, after_self]
  case received =>
    intro s ch sof eof b hon
    refine ⟨fun i a id x hi ha hen hid hbuf hx hroom => ?buffered, ?badCoding⟩
    case buffered =>
      subst hid
      refine ⟨_, exec_flxFrameReceive ch sof eof b false s, ?_⟩
      rw [after_gw, interrupts_str]
      exact flxReceive_buffered hon hi ha hen hbuf hx hroom
    case badCoding =>
      obtain ⟨hstr, hflag⟩ := flxReceive_badCoding hon sof eof b
      refine ⟨_, exec_flxFrameReceive ch sof eof b true s, ?_, ?_⟩
      · rw [after_gw, interrupts_str, hstr]
      · rw [regN_after s _ (by decide), hflag]
  case cycleEnd =>
    intro s integrated synced hlive hpoc hrun
    refine ⟨_, exec_flxCycleEnd integrated synced false s, ?cycle, fun hhalt => ?halts, fun hhalt h4 => ?startup,
      fun hhalt h4 hsynced => ?synced, fun hhalt h4 hsynced => ?unsynced⟩
    case cycle => rw [flx_after, flxCycle_cycle hlive hpoc hrun]
    case halts =>
      rw [flx_after, flxCycle_halts hlive hpoc hrun _ _ hhalt]
      exact ⟨rfl, rfl⟩
    case startup => rw [flx_after, flxCycle_startup hlive _ _ hhalt h4]
    case synced =>
      subst hsynced
      rw [flx_after, flxCycle_synced hlive hpoc hrun _ hhalt h4]
      exact ⟨rfl, rfl⟩
    case unsynced =>
      subst hsynced
      rw [flx_after, regN_after s _ (by decide), flxCycle_unsynced hlive hpoc hrun _ hhalt h4]
      exact ⟨rfl, bit_regN_flag_of_mask _ _ (by decide) (by decide), rfl⟩
  case wakeup =>
    intro s ch hon
    rw [exec_flxWakeupReceive, if_pos hon]
  case off =>
    intro s ch sof eof b x y z
    refine ⟨fun hoff => ⟨?frame, ?pattern⟩, fun hoff => ?cycleEnd⟩
    case frame => rw [exec_flxFrameReceive, flxReceive_off hoff, after_self]
    case pattern => rw [exec_flxWakeupReceive, if_neg (by rw [hoff]; decide), after_self]
    case cycleEnd => rw [exec_flxCycleEnd, flxCycle_off hoff, after_self]

end Sys2Proof.Machine
end

section
/-! SUPPORT. LIN schedules and headers (R370, R377–R381): a slot start, a header at its wire time, and the content of a
response. -/

namespace Sys2Proof.Machine

theorem exec_linHeaderStart (l : Nat) (s : State) :
    exec (.linHeaderStart l) s = .next (s.after (s.gw.linHeader l)) := rfl

theorem exec_linResponse (l pe pid : Nat) (s : State) :
    exec (.linResponse l pe pid) s = .next (s.after (s.gw.linRespond l pe pid)) := rfl

theorem linAt_congr {g h : Gw} (e : h.lin = g.lin) (l : Nat) : h.linAt l = g.linAt l := by rw [Gw.linAt, e, Gw.linAt]

theorem linAt_after (s : State) (g : Gw) (l : Nat) : (s.after g).gw.linAt l = g.linAt l :=
  linAt_congr (interrupts_lin s.gw g) l

theorem lt_of_linLive {g : Gw} {l : Nat} (h : g.linLive l = true) : l < 12 := by
  simp only [Gw.linLive, Bool.and_eq_true, decide_eq_true_eq] at h
  obtain ⟨⟨⟨hl, -⟩, -⟩, -⟩ := h
  exact hl

/-! ### Slot starts (R377, R380) -/

theorem linSlotStart_due {s : State} {d : Due} {l : Nat} (hd : s.gw.readyDue s.dram = some d) (hev : d.ev = .linSlot l) :
    linSlotStart s = s.withGw (s.gw.linSlot l d.t) := by
  unfold linSlotStart
  rw [hd]
  dsimp only
  rw [hev]

theorem linSlotStart_idle {s : State} (hd : s.gw.readyDue s.dram = none) : linSlotStart s = s := by
  unfold linSlotStart
  rw [hd]

/-- A slot that others follow in its table gives the present header and the next slot start. -/
theorem linSlot_begins {g : Gw} {l : Nat} {x : LinCtl} {sl : LinSlot} (t : Stamp) (hx : x = (g.linAt l).switch)
    (hrun : x.running = true) (hslot : x.tableSlots[x.slot]? = some sl) (hnext : x.slot + 1 < x.tableSlots.length) :
    g.linSlot l t = g.setLin l { x with
      header := some { slot := sl, wire := t + Int.ofNat g.lambdaG8, seg := g.str.relSeg }
      curTable := x.table
      curSlot := x.slot
      nextSlot := some (t + 8000000 * Int.ofNat sl.delayMs)
      slot := x.slot + 1 } := by
  subst hx
  unfold Gw.linSlot
  simp only [hrun, hslot, Nat.not_le.mpr hnext, Bool.not_true, Bool.false_eq_true, if_false, decide_false]

/-- A stop asked for ends the table at the next slot start. -/
theorem linSlot_stops {g : Gw} {l : Nat} (t : Stamp) (hwant : (g.linAt l).want = some 15) :
    g.linSlot l t = g.setLin l { g.linAt l with
      running := false, nextSlot := none, want := none, resume := [], resolve := none } := by
  have hswitch : (g.linAt l).switch = { g.linAt l with
      running := false, nextSlot := none, want := none, resume := [], resolve := none } := by
    unfold LinCtl.switch
    rw [hwant]
    rfl
  unfold Gw.linSlot
  rw [hswitch]
  rfl

/-! ### The content of a response (R370, R374) -/

/-- The stamps of contents, and so what is committed by a stamp, rest on the timebase and the steps that Strata knows alone. -/
theorem commitStamp_congr {g h : Gw} (hstr : h.str = g.str) (htb : h.tb = g.tb) (x : Committed) :
    h.commitStamp x = g.commitStamp x := by
  unfold Gw.commitStamp Gw.present Gw.translate
  rw [hstr, htb]

theorem contentAt_congr {g h : Gw} (hstr : h.str = g.str) (htb : h.tb = g.tb) (m : Map (List Committed)) (k : Nat)
    (t : Stamp) : h.contentAt m k t = g.contentAt m k t := by
  unfold Gw.contentAt
  simp only [commitStamp_congr hstr htb]

theorem commitUpTo_congr {g h : Gw} (hstr : h.str = g.str) (htb : h.tb = g.tb) (m : Map (List Committed))
    (ws : List CommitWait) (t : Stamp) : h.commitUpTo m ws t = g.commitUpTo m ws t := by
  have hinto : h.commitInto = g.commitInto := by
    funext m w
    unfold Gw.commitInto Gw.commitOne Gw.now
    simp only [commitStamp_congr hstr htb, htb]
  have hpresent : h.present = g.present := by
    funext t seg
    unfold Gw.present Gw.translate
    rw [hstr, htb]
  unfold Gw.commitUpTo
  rw [hinto, hpresent]

/-- Content committed by the start of the response is sent with its length. -/
theorem linContent_committed {g : Gw} {l i : Nat} {t : Stamp} {k : Committed}
    (hk : g.contentAt (g.commitUpTo (g.linAt l).commits (g.linAt l).waits t).1 i t = some k)
    (hdef : bit g.undefBus (32 + l) = false) :
    ∃ x, g.linContent l i t = (g.setLin l x, padTo (mgetD (g.linAt l).frames i {}).len k.data) := by
  unfold Gw.linContent
  dsimp only
  split
  · next c hc =>
    obtain rfl : c = k := Option.some.inj (hc.symm.trans hk)
    exact ⟨_, if_neg (by rw [Bool.not_eq_true]; exact hdef)⟩
  · next hnone => exact absurd (hnone.symm.trans hk) (by simp)

/-- A response of committed content goes out with its checksum, and the controller is sending it. -/
theorem linAnswer_committed {g : Gw} {l i : Nat} {t : Stamp} {k : Committed} {bs : List Byte}
    (hk : g.contentAt (g.commitUpTo (g.linAt l).commits (g.linAt l).waits t).1 i t = some k)
    (hdef : bit g.undefBus (32 + l) = false) (hbs : bs = padTo (mgetD (g.linAt l).frames i {}).len k.data) :
    (g.linAnswer l i t).out = g.out ++ [.linResponse l i bs (linChecksum (linPid i) ((g.linAt l).enhanced i) bs)] ∧
      ((g.linAnswer l i t).linAt l).sending = some (i, bs) := by
  obtain ⟨x, hcontent⟩ := linContent_committed hk hdef
  rw [← hbs] at hcontent
  rw [Gw.linAnswer, hcontent]
  exact ⟨rfl, congrArg LinCtl.sending (linAt_setLin_same _ l _)⟩

/-! ### Headers (R378, R379) -/

/-- The header of identifier `i` goes out. -/
def Gw.linHeaderOut (g : Gw) (l : Nat) (h : LinHeader) (i : Nat) : Gw :=
  (g.setLin l { g.linAt l with header := some { h with ident := i, started := true } }).emit (.linHeader l (linPid i))

@[simp] theorem linHeaderOut_str (g : Gw) (l : Nat) (h : LinHeader) (i : Nat) : (g.linHeaderOut l h i).str = g.str := rfl
@[simp] theorem linHeaderOut_tb (g : Gw) (l : Nat) (h : LinHeader) (i : Nat) : (g.linHeaderOut l h i).tb = g.tb := rfl

theorem linHeaderOut_linAt (g : Gw) (l : Nat) (h : LinHeader) (i : Nat) : (g.linHeaderOut l h i).linAt l =
    { g.linAt l with header := some { h with ident := i, started := true } } := linAt_setLin_same g l _

section
variable {g : Gw} {l : Nat} {h : LinHeader} (hhdr : (g.linAt l).header = some h)
include hhdr

theorem linHeader_early (hearly : g.nowLast < g.present h.wire h.seg) : g.linHeader l = g := by
  unfold Gw.linHeader
  dsimp only
  rw [hhdr]
  exact if_pos (by rw [decide_eq_true hearly, Bool.or_true])

/-- At its wire time a commander's header goes out with the identifier of its slot, and with the response of a published one. -/
theorem linHeader_due (hlive : g.linLive l = true) (hlom : g.linLom l = false) (hcmdr : g.linCmdr l = true)
    (hstarted : h.started = false) {wire : Stamp} {m : Map (List Committed)} (hwire : wire = g.present h.wire h.seg)
    (hm : m = (g.commitUpTo (g.linAt l).commits (g.linAt l).waits wire).1) (hdue : wire ≤ g.nowLast) :
    g.linHeader l = (g.linSends h.slot m wire).elim (g.setLin l { g.linAt l with header := none }) fun i =>
      if (mgetD (g.linAt l).frames i {}).dir = 1 then (g.linHeaderOut l h i).linAnswer l i wire
      else g.linHeaderOut l h i := by
  have hsends : (h.started || !g.linLive l || g.linLom l || !g.linCmdr l || decide (g.nowLast < wire)) = false := by
    rw [hstarted, hlive, hlom, hcmdr, decide_eq_false (Int.not_lt.mpr hdue)]
    rfl
  subst hwire hm
  unfold Gw.linHeader
  dsimp only
  rw [hhdr]
  dsimp only
  rw [hsends]
  cases g.linSends h.slot (g.commitUpTo (g.linAt l).commits (g.linAt l).waits (g.present h.wire h.seg)).1
    (g.present h.wire h.seg) <;> rfl

end

/-- The response of a published identifier follows its header with the content committed by the header's wire time. -/
theorem linHeaderOut_answered {g : Gw} {l i : Nat} {wire : Stamp} {k : Committed} {bs : List Byte} (h : LinHeader)
    (hk : g.contentAt (g.commitUpTo (g.linAt l).commits (g.linAt l).waits wire).1 i wire = some k)
    (hdef : bit g.undefBus (32 + l) = false) (hbs : bs = padTo (mgetD (g.linAt l).frames i {}).len k.data) :
    ((g.linHeaderOut l h i).linAnswer l i wire).out = g.out ++ [.linHeader l (linPid i)] ++
        [.linResponse l i bs (linChecksum (linPid i) ((g.linAt l).enhanced i) bs)] ∧
      (((g.linHeaderOut l h i).linAnswer l i wire).linAt l).sending = some (i, bs) := by
  have hstr := linHeaderOut_str g l h i
  have htb := linHeaderOut_tb g l h i
  have hctl := linHeaderOut_linAt g l h i
  have henhanced : ((g.linHeaderOut l h i).linAt l).enhanced i = (g.linAt l).enhanced i := by rw [hctl]; rfl
  have hcontent : (g.linHeaderOut l h i).contentAt ((g.linHeaderOut l h i).commitUpTo ((g.linHeaderOut l h i).linAt l).commits
      ((g.linHeaderOut l h i).linAt l).waits wire).1 i wire = some k := by
    rw [contentAt_congr hstr htb, commitUpTo_congr hstr htb, hctl]
    exact hk
  obtain ⟨hout, hsending⟩ := linAnswer_committed (bs := bs) hcontent hdef (by rw [hctl]; exact hbs)
  rw [henhanced] at hout
  exact ⟨hout, hsending⟩

/-! ### Responses of a responder (R381) -/

section
variable {g : Gw} {l pid : Nat} (hlive : g.linLive l = true) (hlom : g.linLom l = false) (hcmdr : g.linCmdr l = false)
  (hpid : pid = linPid (pid % 64)) (pe : Nat)
include hlive hlom hcmdr hpid

theorem linRespond_published {a : Stamp × Nat} (hdir : (mgetD (g.linAt l).frames (pid % 64) {}).dir = 1)
    (ha : stampOf (g.linAt l).pairs (bits (g.linCfg l) 15 0) pe = some a) :
    g.linRespond l pe pid = g.linAnswer l (pid % 64) (g.translate a.1 a.2 g.tb.seg) := by
  unfold Gw.linRespond
  simp only [hlive, hlom, hcmdr, ← hpid, hdir, ha, Bool.not_true, Bool.or_self, Bool.false_eq_true, if_false, ne_eq,
    not_true_eq_false]

theorem linRespond_unpublished (hdir : (mgetD (g.linAt l).frames (pid % 64) {}).dir ≠ 1) : g.linRespond l pe pid = g := by
  unfold Gw.linRespond
  simp only [hlive, hlom, hcmdr, ← hpid, hdir, Bool.not_true, Bool.or_self, Bool.false_eq_true, if_false, ne_eq,
    not_true_eq_false, not_false_eq_true, if_true]

end

end Sys2Proof.Machine
end

section
/-! SUPPORT. LIN frames and errors (R374–R376, R382): the error of a frame, what an error leaves, and a frame that is received,
ignored or read back. -/

namespace Sys2Proof.Machine

theorem exec_linFrameReceive (l sof eof pid : Nat) (data : List Byte) (ck err : Nat) (s : State) :
    exec (.linFrameReceive l sof eof pid data ck err) s = .next (s.after (s.gw.linReceive l sof eof pid data ck err)) := rfl

theorem exec_linNoResponse (l i pe : Nat) (s : State) :
    exec (.linNoResponse l ⟨i, pe⟩) s = .next (s.after (s.gw.linNoResp l i pe)) := rfl

theorem linFlag_high (l : Nat) : 0x3008 ≤ Reg.linFlag l := by
  simp only [Reg.linFlag]
  omega

/-! ### Errors (R382) -/

/-- An error outside an event-triggered slot ends the header and the sending, and sets its flag. -/
theorem linError_flags {g : Gw} {l : Nat} (e : Nat) (hl : l < 12) (hhdr : (g.linAt l).header = none) :
    (g.linError l e).str = g.str ∧ (g.linError l e).linAt l = { g.linAt l with header := none, sending := none } ∧
      ∀ i, i < 32 → bit (linErrMask e) i = true → bit ((g.linError l e).regN (Reg.linFlag l)) i = true := by
  have hbus : 32 + l < 46 := by omega
  have herror : g.linError l e = ((((g.capItem (32 + l) 2 e g.canNow 0 []).setLin l
      { g.linAt l with header := none, sending := none }).bump (linErrCnt e l)).flag (Reg.linFlag l) (linErrMask e)) := by
    unfold Gw.linError
    dsimp only
    rw [hhdr]
  rw [herror]
  exact ⟨capItem_str g 2 e g.canNow 0 [] hbus, linAt_setLin_same _ l _,
    fun i hi hmask => bit_regN_flag_of_mask _ _ hi hmask⟩

section
variable {x : LinCtl} {cmdr : Bool} {pid ck err : Nat} {data : List Byte}

/-- A wrong parity comes before every error but that of the sync field. -/
theorem errorOf_parity (herr : err ≠ 5) (hpid : pid ≠ linPid (pid % 64)) : x.errorOf cmdr pid ck err data = 6 := by
  simp [LinCtl.errorOf, herr, hpid]

section
variable (hpid : pid = linPid (pid % 64)) (h4 : err ≠ 4) (h5 : err ≠ 5)
include hpid h4 h5

/-- Without an error of the header or a framing error, the entry of the identifier decides. -/
theorem errorOf_intact : x.errorOf cmdr pid ck err data =
    if (mgetD x.frames (pid % 64) {}).dir = 0 then 0
    else if (mgetD x.frames (pid % 64) {}).dir = 1 then (if err = 1 then 1 else 0)
    else if data.length < (mgetD x.frames (pid % 64) {}).len then 3
    else if ck ≠ linChecksum pid (x.enhanced (pid % 64)) data then 2
    else 0 := by
  unfold LinCtl.errorOf
  simp only [h4, h5, ← hpid, ne_eq, not_true_eq_false, decide_false, Bool.false_and, Bool.false_eq_true, if_false]

theorem errorOf_ignored (hdir : (mgetD x.frames (pid % 64) {}).dir = 0) : x.errorOf cmdr pid ck err data = 0 := by
  rw [errorOf_intact hpid h4 h5, if_pos hdir]

theorem errorOf_published (hdir : (mgetD x.frames (pid % 64) {}).dir = 1) :
    x.errorOf cmdr pid ck err data = if err = 1 then 1 else 0 := by
  rw [errorOf_intact hpid h4 h5, if_neg (by rw [hdir]; decide), if_pos hdir]

/-- A whole subscribed response is judged by its checksum. -/
theorem errorOf_subscribed (hdir : (mgetD x.frames (pid % 64) {}).dir = 2)
    (hlen : data.length = (mgetD x.frames (pid % 64) {}).len) : x.errorOf cmdr pid ck err data =
      if ck ≠ linChecksum pid (x.enhanced (pid % 64)) data then 2 else 0 := by
  rw [errorOf_intact hpid h4 h5, if_neg (by rw [hdir]; decide), if_neg (by rw [hdir]; decide),
    if_neg (by rw [hlen]; exact lt_irrefl _)]

end
end

/-! ### Received frames (R375, R376) -/

/-- The controller with a subscribed frame noted as the last one on its bus. -/
def LinCtl.noted (x : LinCtl) (sof eof : Nat) : LinCtl := { x with lastFrame := some (sof, eof) }

/-- A controller once it has counted and captured a sound subscribed frame. -/
def Gw.linHeard (g : Gw) (l sof ident : Nat) (data : List Byte) : Gw :=
  ((g.setLin l { g.linAt l with header := none }).bump (Reg.linRxOk l)).capItem (32 + l) 0 0 sof ident data

/-- A sound subscribed frame goes on towards Strata when its stamps are known. -/
def Gw.linOnward (g : Gw) (l sof eof ident : Nat) (data : List Byte) (ps : List CanPair) : Gw :=
  match stampOf ps (bits (g.linCfg l) 15 0) sof, stampOf ps (bits (g.linCfg l) 15 0) eof with
  | some i, some a =>
    if bit (g.linCfg l) 60 then
      g.deliver { fport := 13, sub := 32 + l, body := .bus { bus := 32 + l, ident := ident, data := data },
                  ing := i.1, ingSeg := i.2, adm := a.1, seg := a.2 }
    else g
  | _, _ => g

theorem linOnward_delivered {g : Gw} {l sof eof ident : Nat} {data : List Byte} {ps : List CanPair} {i a : Stamp × Nat}
    (hi : stampOf ps (bits (g.linCfg l) 15 0) sof = some i) (ha : stampOf ps (bits (g.linCfg l) 15 0) eof = some a)
    (hen : bit (g.linCfg l) 60 = true) : g.linOnward l sof eof ident data ps = g.deliver
      { fport := 13, sub := 32 + l, body := .bus { bus := 32 + l, ident := ident, data := data },
        ing := i.1, ingSeg := i.2, adm := a.1, seg := a.2 } := by
  unfold Gw.linOnward
  rw [hi, ha]
  exact if_pos hen

theorem givenUp_of_noResp {x : LinCtl} {pe : Nat} (h : x.noResp = some pe) (sof eof : Nat) :
    x.givenUp sof eof = inFrame pe sof eof := by
  rw [LinCtl.givenUp, h, Option.any_some]

/-- A frame whose response was given up is discarded. -/
theorem linReceive_discarded {g : Gw} {l sof eof pid : Nat} (hdir : (mgetD (g.linAt l).frames (pid % 64) {}).dir = 2)
    (hgiven : (g.linAt l).givenUp sof eof = true) (data : List Byte) (ck err : Nat) :
    g.linReceive l sof eof pid data ck err = g := if_pos (by simp [hdir, hgiven])

section
variable {g : Gw} {l pid : Nat} {data : List Byte} {ck err : Nat} (sof eof : Nat) (hlive : g.linLive l = true)
  (hlen : data.length = (mgetD (g.linAt l).frames (pid % 64) {}).len)
include hlive hlen

theorem linReceive_unsubscribed_error {e : Nat} (hdir : (mgetD (g.linAt l).frames (pid % 64) {}).dir ≠ 2)
    (he : (g.linAt l).errorOf (g.linCmdr l) pid ck err data = e) (hne : e ≠ 0) :
    g.linReceive l sof eof pid data ck err = g.linError l e := by
  subst he
  unfold Gw.linReceive
  simp [hlive, hdir, ← hlen, hne]

theorem linReceive_ignored (hdir : (mgetD (g.linAt l).frames (pid % 64) {}).dir = 0)
    (he : (g.linAt l).errorOf (g.linCmdr l) pid ck err data = 0) : g.linReceive l sof eof pid data ck err = g := by
  unfold Gw.linReceive
  simp [hlive, hdir, ← hlen, he]

/-- A response that reads back as it was sent ends the sending, and nothing goes on towards Strata. -/
theorem linReceive_readBack {w : List Byte} (hdir : (mgetD (g.linAt l).frames (pid % 64) {}).dir = 1)
    (he : (g.linAt l).errorOf (g.linCmdr l) pid ck err data = 0) (hsending : (g.linAt l).sending = some (pid % 64, w)) :
    (g.linReceive l sof eof pid data ck err).str = g.str ∧
      ((g.linReceive l sof eof pid data ck err).linAt l).sending = none := by
  have hl := lt_of_linLive hlive
  have hread : g.linReceive l sof eof pid data ck err =
      ((g.setLin l { g.linAt l with sending := none, header := none }).bump (Reg.linTxOk l)).capItem (32 + l) 1 0 sof
        (pid % 64) w := by
    unfold Gw.linReceive
    simp [hlive, hdir, ← hlen, he, hsending]
  rw [hread, capItem_str _ _ _ _ _ _ (by omega), linAt_congr (capItem_lin _ _ _ _ _ _ (by omega))]
  exact ⟨rfl, congrArg LinCtl.sending (linAt_setLin_same g l _)⟩

section
variable {sof eof} (hgiven : (g.linAt l).givenUp sof eof = false) (hdir : (mgetD (g.linAt l).frames (pid % 64) {}).dir = 2)
include hgiven hdir

theorem linReceive_subscribed_error {e : Nat} (he : (g.linAt l).errorOf (g.linCmdr l) pid ck err data = e) (hne : e ≠ 0) :
    g.linReceive l sof eof pid data ck err = (g.setLin l ((g.linAt l).noted sof eof)).linError l e := by
  subst he
  have herr :
      ((g.linAt l).noted sof eof).errorOf ((g.setLin l ((g.linAt l).noted sof eof)).linCmdr l) pid ck err data ≠ 0 := hne
  unfold Gw.linReceive
  simp only [hlive, hgiven, hdir, decide_true, Bool.not_true, Bool.false_or, Bool.and_false, Bool.false_eq_true, if_false,
    if_true, ← hlen, List.take_length]
  exact if_pos herr

theorem linReceive_subscribed (he : (g.linAt l).errorOf (g.linCmdr l) pid ck err data = 0) :
    g.linReceive l sof eof pid data ck err =
      ((g.setLin l ((g.linAt l).noted sof eof)).linHeard l sof (pid % 64) data).linOnward l sof eof (pid % 64) data
        (g.linAt l).pairs := by
  have herr :
      ¬ ((g.linAt l).noted sof eof).errorOf ((g.setLin l ((g.linAt l).noted sof eof)).linCmdr l) pid ck err data ≠ 0 :=
    not_not_intro he
  unfold Gw.linReceive
  simp only [hlive, hgiven, hdir, decide_true, Bool.not_true, Bool.false_or, Bool.and_false, Bool.false_eq_true, if_false,
    if_true, ← hlen, List.take_length]
  refine (if_neg herr).trans ?_
  rw [if_neg (by decide), Gw.linHeard, linAt_setLin_same]
  rfl

end
end

/-- An error of a frame outside an event-triggered slot: nothing goes on towards Strata, and the error's flag is set. -/
theorem linReceive_error {g : Gw} {l sof eof pid ck err e : Nat} {data : List Byte} (hlive : g.linLive l = true)
    (hlen : data.length = (mgetD (g.linAt l).frames (pid % 64) {}).len) (hgiven : (g.linAt l).givenUp sof eof = false)
    (hhdr : (g.linAt l).header = none) (he : (g.linAt l).errorOf (g.linCmdr l) pid ck err data = e) (hne : e ≠ 0) :
    (g.linReceive l sof eof pid data ck err).str = g.str ∧
      ((g.linReceive l sof eof pid data ck err).linAt l).sending = none ∧ ∀ i, i < 32 → bit (linErrMask e) i = true →
        bit ((g.linReceive l sof eof pid data ck err).regN (Reg.linFlag l)) i = true := by
  have hl := lt_of_linLive hlive
  by_cases hdir : (mgetD (g.linAt l).frames (pid % 64) {}).dir = 2
  · obtain ⟨hstr, hctl, hflag⟩ := linError_flags (g := g.setLin l ((g.linAt l).noted sof eof)) e hl
      (by rw [linAt_setLin_same]; exact hhdr)
    rw [linReceive_subscribed_error hlive hlen hgiven hdir he hne, hctl]
    exact ⟨hstr, rfl, hflag⟩
  · obtain ⟨hstr, hctl, hflag⟩ := linError_flags e hl hhdr
    rw [linReceive_unsubscribed_error sof eof hlive hlen hdir he hne, hctl]
    exact ⟨hstr, rfl, hflag⟩

/-- What a sound subscribed frame changes before it goes on is its controller, and nothing of Caldera, Strata or the
parameters. -/
theorem linHeard_keeps (g : Gw) {l : Nat} (hl : l < 12) (sof ident : Nat) (data : List Byte) :
    (g.linHeard l sof ident data).cal = g.cal ∧ (g.linHeard l sof ident data).str = g.str ∧
      (g.linHeard l sof ident data).flt = g.flt ∧ (g.linHeard l sof ident data).params = g.params ∧
      ((g.linHeard l sof ident data).linAt l).header = none := by
  obtain ⟨rs, fs, hitem⟩ := (capItem_capturesOnly ((g.setLin l { g.linAt l with header := none }).bump (Reg.linRxOk l))
    0 0 sof ident data (by omega : 32 + l < 46)).shape
  rw [Gw.linHeard, hitem]
  exact ⟨rfl, rfl, rfl, rfl, congrArg LinCtl.header (linAt_setLin_same g l _)⟩

/-- A sound subscribed frame that F13 has room for is on its way to Strata with its stamps, and ends its header. -/
theorem linReceive_delivered {g : Gw} {l sof eof pid ck err : Nat} {data : List Byte} {i a : Stamp × Nat} {x : Frame}
    (hlive : g.linLive l = true) (hlen : data.length = (mgetD (g.linAt l).frames (pid % 64) {}).len)
    (hgiven : (g.linAt l).givenUp sof eof = false) (hdir : (mgetD (g.linAt l).frames (pid % 64) {}).dir = 2)
    (he : (g.linAt l).errorOf (g.linCmdr l) pid ck err data = 0)
    (hi : stampOf (g.linAt l).pairs (bits (g.linCfg l) 15 0) sof = some i)
    (ha : stampOf (g.linAt l).pairs (bits (g.linCfg l) 15 0) eof = some a) (hen : bit (g.linCfg l) 60 = true)
    (hx : x = { fport := 13, sub := 32 + l, body := .bus { bus := 32 + l, ident := pid % 64, data := data },
                ing := i.1, ingSeg := i.2, adm := a.1, seg := a.2 }) (hroom : roomAt13 g x) :
    (g.linReceive l sof eof pid data ck err).str.inbound = g.str.inbound ++ [{ x with fid := g.cal.nextFid }] ∧
      ((g.linReceive l sof eof pid data ck err).linAt l).header = none := by
  obtain ⟨hcal, hstr, hflt, hparams, hheader⟩ :=
    linHeard_keeps (g.setLin l ((g.linAt l).noted sof eof)) (lt_of_linLive hlive) sof (pid % 64) data
  rw [linReceive_subscribed hlive hlen hgiven hdir he]
  generalize (g.setLin l ((g.linAt l).noted sof eof)).linHeard l sof (pid % 64) data = heard at *
  have hcfg : heard.linCfg l = g.linCfg l := param_congr hparams _
  obtain ⟨hinbound, hlin⟩ := deliver_at13 hcal hstr hflt (by rw [hx]) hroom
  rw [linOnward_delivered (by rw [hcfg, hi]) (by rw [hcfg, ha]) (by rw [hcfg, hen]), ← hx, hinbound, linAt_congr hlin,
    hheader]
  exact ⟨rfl, rfl⟩

/-! ### Missing responses (R382) -/

section
variable {g : Gw} {l i pe : Nat}

/-- A subscribed response that is overdue is given up: the identifier's end is noted, and the error's flag is set. -/
theorem linNoResp_due (hlive : g.linLive l = true) (hdir : (mgetD (g.linAt l).frames i {}).dir = 2)
    (hhdr : (g.linAt l).header = none) (hnew : (g.linAt l).noResp ≠ some pe)
    (hlast : (g.linAt l).lastFrame.any (fun q => inFrame pe q.1 q.2) = false)
    (hlate : g.linBits l (14 * ((mgetD (g.linAt l).frames i {}).len + 1)) ≤ cntDiff g.canNow pe) :
    (g.linNoResp l i pe).linAt l = { g.linAt l with noResp := some pe, header := none, sending := none } ∧
      bit ((g.linNoResp l i pe).regN (Reg.linFlag l)) 29 = true := by
  have hgives : g.linNoResp l i pe = (g.setLin l { g.linAt l with noResp := some pe }).linError l 3 := by
    unfold Gw.linNoResp
    simp [hlive, hdir, hnew, hlast, hlate]
  obtain ⟨-, hctl, hflag⟩ := linError_flags (g := g.setLin l { g.linAt l with noResp := some pe }) 3 (lt_of_linLive hlive)
    (by rw [linAt_setLin_same]; exact hhdr)
  rw [hgives, hctl, linAt_setLin_same]
  exact ⟨rfl, hflag 29 (by decide) (by decide)⟩

theorem linNoResp_idle (h : (mgetD (g.linAt l).frames i {}).dir ≠ 2 ∨
    (g.linAt l).lastFrame.any (fun q => inFrame pe q.1 q.2) = true ∨
    cntDiff g.canNow pe < g.linBits l (14 * ((mgetD (g.linAt l).frames i {}).len + 1))) : g.linNoResp l i pe = g := by
  refine if_neg fun hdue => ?_
  simp only [Bool.and_eq_true, decide_eq_true_eq, Bool.not_eq_true'] at hdue
  obtain ⟨⟨⟨⟨-, hdir⟩, hlate⟩, -⟩, hlast⟩ := hdue
  rcases h with h | h | h
  · exact h hdir
  · exact absurd h (by rw [hlast]; decide)
  · omega

end

end Sys2Proof.Machine
end

section
/-! The statement on LIN. -/

namespace Sys2Proof.Machine

/-- Settles O55: commits, slot starts, headers and responses with the content of their stamps, and a bus frame by the entry of
its identifier and its error. -/
theorem linSchedulesAndFrames : Obligations.LinSchedulesAndFrames := by
  refine ⟨?linCommit, ?flxCommit, ?slotStart, ?noSlotStart, ?header, ?frame, ?response, ?noResponse⟩
  case linCommit =>
    intro s l w hl hwaits
    have hcommit := exec_committedBufferCommit (32 + l) s
    refine ⟨fun hdue hempty => ⟨_, hcommit, ?due⟩, fun hearly => ⟨_, hcommit, ?early⟩⟩
    all_goals rw [linAt_after, commitBus_lin s.gw hl, linAt_setLin_same, hwaits]
    case due =>
      rw [commitUpTo_due hdue hempty]
      exact ⟨rfl, mgetD_mset_same _ _ _ _⟩
    case early =>
      rw [commitUpTo_early _ hearly]
      exact ⟨rfl, rfl⟩
  case flxCommit =>
    intro s ch w hch hwaits hdue hempty
    refine ⟨_, exec_committedBufferCommit _ s, ?_⟩
    rw [flx_after, commitBus_flx s.gw hch, hwaits, commitUpTo_due hdue hempty]
    exact ⟨rfl, mgetD_mset_same _ _ _ _⟩
  case slotStart =>
    intro s d l x hd hev hx
    have hstart := answer_of_withGw (linSlotStart_due hd hev)
    refine ⟨fun sl hrun hslot hnext => ?begins, fun hwant => ⟨_, hstart, ?stops⟩⟩
    case begins =>
      rw [linSlot_begins d.t hx hrun hslot hnext] at hstart
      exact hstart
    case stops =>
      rw [linAt_after, linSlot_stops d.t hwant, linAt_setLin_same]
      exact ⟨rfl, rfl⟩
  case noSlotStart =>
    intro s hd
    exact answer_same (linSlotStart_idle hd)
  case header =>
    intro s l h wire m hlive hlom hcmdr hhdr hstarted hwire hm
    rw [exec_linHeaderStart]
    refine ⟨fun hdue => ?due, fun hearly => ?early⟩
    case due =>
      rw [linHeader_due hhdr hlive hlom hcmdr hstarted hwire hm hdue]
      refine ⟨fun hsends => ?silent, fun i hsends hdir => ?alone, fun i k hsends hdir hk hdef => ?answered⟩
      all_goals rw [hsends, Option.elim]
      case alone => rw [if_neg hdir]; rfl
      case answered =>
        rw [hm] at hk
        rw [if_pos hdir]
        obtain ⟨houts, hsending⟩ := linHeaderOut_answered h hk hdef rfl
        refine ⟨_, rfl, out_contains_after s ?_, out_contains_after s ?_,
          (congrArg LinCtl.sending (linAt_after s _ l)).trans hsending⟩
        · rw [houts]
          exact List.mem_append_left _ (List.mem_append_right _ (List.mem_singleton.mpr rfl))
        · rw [houts]
          exact List.mem_append_right _ (List.mem_singleton.mpr rfl)
    case early => rw [linHeader_early hhdr (hearly.trans_eq hwire), after_self]
  case frame =>
    intro s l sof eof pid ck err data e hlive he hlen hgiven
    subst he
    have hhigh : 0x3008 ≤ Reg.linFlag l := linFlag_high l
    refine ⟨fun hdir hpid h4 h5 => ?ignored, fun i a x hdir herr hpid hck hi ha hen hx hroom => ?delivered,
      fun w hdir herr hpid hsending => ?readBack, fun hhdr => ⟨fun h5 hpid => ?parity, fun hdir herr hpid => ?readWrong,
        fun hdir hpid herr hck => ?checksum⟩⟩
    all_goals rw [exec_linFrameReceive]
    case ignored =>
      rw [linReceive_ignored sof eof hlive hlen hdir (errorOf_ignored hpid h4 h5 hdir), after_self]
    case delivered =>
      subst herr
      have he : (s.gw.linAt l).errorOf (s.gw.linCmdr l) pid ck 0 data = 0 :=
        (errorOf_subscribed hpid (by decide) (by decide) hdir hlen).trans (if_neg (not_not_intro hck))
      obtain ⟨hinbound, hheader⟩ := linReceive_delivered hlive hlen hgiven hdir he hi ha hen hx hroom
      refine ⟨_, rfl, ?_, (congrArg LinCtl.header (linAt_after s _ l)).trans hheader⟩
      rw [after_gw, interrupts_str, hinbound]
    case readBack =>
      subst herr
      have he : (s.gw.linAt l).errorOf (s.gw.linCmdr l) pid ck 0 data = 0 :=
        errorOf_published hpid (by decide) (by decide) hdir
      obtain ⟨hstr, hended⟩ := linReceive_readBack sof eof hlive hlen hdir he hsending
      refine ⟨_, rfl, (congrArg LinCtl.sending (linAt_after s _ l)).trans hended, ?_⟩
      rw [after_gw, interrupts_str, hstr]
    case parity =>
      obtain ⟨hstr, -, hflag⟩ := linReceive_error hlive hlen hgiven hhdr (errorOf_parity h5 hpid) (by decide : 6 ≠ 0)
      refine ⟨_, rfl, ?_, by rw [after_gw, interrupts_str, hstr]⟩
      rw [regN_after s _ hhigh, hflag 26 (by decide) (by decide)]
    case readWrong =>
      subst herr
      have he : (s.gw.linAt l).errorOf (s.gw.linCmdr l) pid ck 1 data = 1 :=
        errorOf_published hpid (by decide) (by decide) hdir
      obtain ⟨hstr, hended, hflag⟩ := linReceive_error hlive hlen hgiven hhdr he (by decide)
      refine ⟨_, rfl, ?_, (congrArg LinCtl.sending (linAt_after s _ l)).trans hended,
        by rw [after_gw, interrupts_str, hstr]⟩
      rw [regN_after s _ hhigh, hflag 31 (by decide) (by decide)]
    case checksum =>
      subst herr
      have he : (s.gw.linAt l).errorOf (s.gw.linCmdr l) pid ck 0 data = 2 :=
        (errorOf_subscribed hpid (by decide) (by decide) hdir hlen).trans (if_pos hck)
      obtain ⟨hstr, -, hflag⟩ := linReceive_error hlive hlen hgiven hhdr he (by decide)
      refine ⟨_, rfl, ?_, by rw [after_gw, interrupts_str, hstr]⟩
      rw [regN_after s _ hhigh, hflag 30 (by decide) (by decide)]
  case response =>
    intro s l pe pid hlive hlom hcmdr
    rw [exec_linResponse]
    refine ⟨fun a k hpid hdir ha hk hdef => ⟨_, rfl, ?published⟩, fun hpid hdir => ?unpublished⟩
    case published =>
      obtain ⟨hout, -⟩ := linAnswer_committed hk hdef rfl
      rw [linRespond_published hlive hlom hcmdr hpid pe hdir ha]
      refine out_contains_after s ?_
      rw [hout, ← hpid]
      exact List.mem_append_right _ (List.mem_singleton.mpr rfl)
    case unpublished => rw [linRespond_unpublished hlive hlom hcmdr hpid pe hdir, after_self]
  case noResponse =>
    intro s l i pe hlive
    refine ⟨fun hdir hhdr hnew hlast hlate => ?due, fun h => ?idle⟩
    case due =>
      obtain ⟨hgone, hflag⟩ := linNoResp_due hlive hdir hhdr hnew hlast hlate
      have hctl := (linAt_after s (s.gw.linNoResp l i pe) l).trans hgone
      refine ⟨_, exec_linNoResponse l i pe s, ?flag, by rw [hctl], by rw [hctl],
        fun sof eof pid data ck err hin hpid => ?discarded⟩
      case flag => rw [regN_after s _ (linFlag_high l), hflag]
      case discarded =>
        rw [exec_linFrameReceive, linReceive_discarded (by rw [hctl, hpid]; exact hdir)
          (by rw [givenUp_of_noResp (by rw [hctl]), hin]), after_self]
    case idle =>
      have hidle := linNoResp_idle h
      rw [exec_linNoResponse, hidle, after_self]

end Sys2Proof.Machine
end

section
/-! SUPPORT. What a module's sends leave alone (R450–R453, R455, R460), and what a port that may carry a message
does with it. -/

namespace Sys2Proof.Machine

/-! ### Leave to carry a message -/

theorem chainAt_after (s : State) (g : Gw) (k : Nat) : (s.after g).gw.chainAt k = g.chainAt k := by
  simp only [Gw.chainAt, after_gw, interrupts_chn]

/-- What a port may carry depends on its alignment, its state and its block. -/
theorem mayCarry_congr {g h : Gw} {k : Nat} (hisl : h.isl = g.isl) (hrole : h.chn.role = g.chn.role)
    (haligned : (h.chainAt k).aligned = (g.chainAt k).aligned) (hstate : (h.chainAt k).state = (g.chainAt k).state)
    (hblocked : (h.chainAt k).blocked = (g.chainAt k).blocked) (m : SideMsg) : h.mayCarry k m = g.mayCarry k m := by
  simp only [Gw.mayCarry, Gw.chainUsed, islOn_congr hisl, hrole, haligned, hstate, hblocked]

/-- A port with a message queued behind those that wait. -/
def ChainPort.queued (x : ChainPort) (m : SideMsg) : ChainPort := { x with sendQ := x.sendQ ++ [(m.cls, sideChunks m)] }

theorem sideSend_carried {g : Gw} {k : Nat} {m : SideMsg} (h : g.mayCarry k m = true) :
    g.sideSend k m = ((g.setChain k ((g.chainAt k).queued m)).bump (Reg.chnScTx k)).emit (.side k m) := if_pos h

theorem sideSend_refused {g : Gw} {k : Nat} {m : SideMsg} (h : g.mayCarry k m = false) : g.sideSend k m = g :=
  if_neg (by rw [h]; decide)

/-! ### What sending leaves alone -/

/-- From `g` to `h` messages were sent or dropped: the queues of ports, counters and outputs changed, nothing else. -/
structure Sends (g h : Gw) : Prop where
  shape : ∃ ps rs os, h = { g with chn := { g.chn with ports := ps }, regs := rs, out := os }
  port : ∀ j, ∃ q, h.chainAt j = { g.chainAt j with sendQ := q }
  out : ∀ x ∈ g.out, x ∈ h.out
  chnFlag : h.regN Reg.chnFlag = g.regN Reg.chnFlag

namespace Sends

theorem refl (g : Gw) : Sends g g := ⟨⟨_, _, _, rfl⟩, fun _ => ⟨_, rfl⟩, fun _ h => h, rfl⟩

theorem trans {g h k : Gw} (a : Sends g h) (b : Sends h k) : Sends g k where
  shape := by
    obtain ⟨_, _, _, e⟩ := a.shape
    obtain ⟨ps, rs, os, e'⟩ := b.shape
    exact ⟨ps, rs, os, by rw [e', e]⟩
  port j := by
    obtain ⟨_, e⟩ := a.port j
    obtain ⟨q, e'⟩ := b.port j
    exact ⟨q, by rw [e', e]⟩
  out x hx := b.out x (a.out x hx)
  chnFlag := b.chnFlag.trans a.chnFlag

section
variable {g h : Gw} (a : Sends g h)
include a

theorem isl : h.isl = g.isl := by obtain ⟨_, _, _, e⟩ := a.shape; rw [e]
theorem params : h.params = g.params := by obtain ⟨_, _, _, e⟩ := a.shape; rw [e]
theorem tb : h.tb = g.tb := by obtain ⟨_, _, _, e⟩ := a.shape; rw [e]
theorem str : h.str = g.str := by obtain ⟨_, _, _, e⟩ := a.shape; rw [e]
theorem eth : h.eth = g.eth := by obtain ⟨_, _, _, e⟩ := a.shape; rw [e]
theorem fw : h.fw = g.fw := by obtain ⟨_, _, _, e⟩ := a.shape; rw [e]

/-- Of the chain, only the ports change. -/
theorem chn : ∃ ps, h.chn = { g.chn with ports := ps } := by
  obtain ⟨ps, _, _, e⟩ := a.shape
  exact ⟨ps, by rw [e]⟩

theorem role : h.chn.role = g.chn.role := by obtain ⟨_, e⟩ := a.chn; rw [e]
theorem reach : h.chn.reach = g.chn.reach := by obtain ⟨_, e⟩ := a.chn; rw [e]
theorem inbox : h.chn.inbox = g.chn.inbox := by obtain ⟨_, e⟩ := a.chn; rw [e]
theorem faultBy : h.chn.faultBy = g.chn.faultBy := by obtain ⟨_, e⟩ := a.chn; rw [e]
theorem failedOver : h.chn.failedOver = g.chn.failedOver := by obtain ⟨_, e⟩ := a.chn; rw [e]

theorem mayCarry (k : Nat) (m : SideMsg) : h.mayCarry k m = g.mayCarry k m := by
  obtain ⟨q, e⟩ := a.port k
  exact mayCarry_congr a.isl a.role (by rw [e]) (by rw [e]) (by rw [e]) m

theorem param (i : Nat) : h.param i = g.param i := param_congr a.params i

theorem ringOwner : h.ringOwner = g.ringOwner := by
  simp only [Gw.ringOwner, Gw.ringMember, a.role, a.param]

end

end Sends

theorem sends_bump (g : Gw) {o : Nat} (h : o ≠ Reg.chnFlag) : Sends g (g.bump o) where
  shape := by
    obtain ⟨rs, e⟩ := bump_shape g o
    exact ⟨g.chn.ports, rs, g.out, e⟩
  port j := ⟨(g.chainAt j).sendQ, rfl⟩
  out _ hx := hx
  chnFlag := regN_bump_ne g h.symm

theorem chnScTx_ne (k : Nat) : Reg.chnScTx k ≠ Reg.chnFlag := by simp only [Reg.chnScTx, Reg.chnFlag]; omega

theorem chnScDrop_ne (k : Nat) : Reg.chnScDrop k ≠ Reg.chnFlag := by simp only [Reg.chnScDrop, Reg.chnFlag]; omega

theorem sends_queued (g : Gw) (k : Nat) (m : SideMsg) : Sends g (g.setChain k ((g.chainAt k).queued m)) where
  shape := ⟨_, g.regs, g.out, rfl⟩
  port j := by
    rw [chainAt_setChain]
    split
    · next h => exact ⟨_, by rw [h]; rfl⟩
    · exact ⟨_, rfl⟩
  out _ hx := hx
  chnFlag := rfl

theorem sends_emit (g : Gw) (x : Out) : Sends g (g.emit x) where
  shape := ⟨g.chn.ports, g.regs, _, rfl⟩
  port j := ⟨(g.chainAt j).sendQ, rfl⟩
  out _ hx := List.mem_append_left _ hx
  chnFlag := rfl

theorem sends_sideSend (g : Gw) (k : Nat) (m : SideMsg) : Sends g (g.sideSend k m) := by
  cases h : g.mayCarry k m with
  | true =>
    rw [sideSend_carried h]
    exact ((sends_queued g k m).trans (sends_bump _ (chnScTx_ne k))).trans (sends_emit _ _)
  | false =>
    rw [sideSend_refused h]
    exact .refl g

/-- A message that the module sends on both of its ports. -/
def Gw.sendBoth (g : Gw) (m : SideMsg) : Gw := (g.sideSend 0 m).sideSend 1 m

theorem floodOwn_eq (g : Gw) (typ : Nat) (body : List Int) : g.floodOwn typ body =
    g.sendBoth { cls := 1, typ := typ, dst := 0xFFF, src := g.chnAddr, hops := 4094, body := body } := rfl

theorem sends_sendBoth (g : Gw) (m : SideMsg) : Sends g (g.sendBoth m) :=
  (sends_sideSend g 0 m).trans (sends_sideSend _ 1 m)

theorem sends_floodOwn (g : Gw) (typ : Nat) (body : List Int) : Sends g (g.floodOwn typ body) := sends_sendBoth g _

theorem sends_passOn (g : Gw) (i o : Nat) (m : SideMsg) : Sends g (g.passOn i o m) := by
  unfold Gw.passOn
  split
  · exact sends_bump g (chnScDrop_ne i)
  · exact sends_sideSend g o _

theorem sends_floodOn (g : Gw) (x : Inbound) : Sends g (g.floodOn x) := by
  unfold Gw.floodOn
  split
  · exact .refl g
  · exact sends_passOn g _ _ _

/-! ### What a port that may carry a message does with it -/

theorem sideSend_chainAt_same {g : Gw} {k : Nat} {m : SideMsg} (h : g.mayCarry k m = true) :
    (g.sideSend k m).chainAt k = (g.chainAt k).queued m := by
  rw [sideSend_carried h]
  exact chainAt_setChain_same _ _ _

theorem sideSend_chainAt_ne (g : Gw) {j k : Nat} (h : j ≠ k) (m : SideMsg) :
    (g.sideSend k m).chainAt j = g.chainAt j := by
  cases hc : g.mayCarry k m with
  | true =>
    rw [sideSend_carried hc]
    exact (chainAt_setChain g j k _).trans (if_neg h)
  | false => rw [sideSend_refused hc]

theorem sideSend_out {g : Gw} {k : Nat} {m : SideMsg} (h : g.mayCarry k m = true) :
    .side k m ∈ (g.sideSend k m).out := by
  rw [sideSend_carried h]
  exact List.mem_append_right _ (List.mem_singleton.mpr rfl)

/-- Each port that may carry it sends a message of the module's own. -/
theorem sendBoth_carried {g : Gw} {k : Nat} {m : SideMsg} (hk : k < 2) (h : g.mayCarry k m = true) :
    .side k m ∈ (g.sendBoth m).out ∧ (g.sendBoth m).chainAt k = (g.chainAt k).queued m := by
  have hport : k = 0 ∨ k = 1 := by omega
  rcases hport with rfl | rfl
  · exact ⟨(sends_sideSend _ 1 m).out _ (sideSend_out h),
      (sideSend_chainAt_ne _ (by decide) m).trans (sideSend_chainAt_same h)⟩
  · have h1 : (g.sideSend 0 m).mayCarry 1 m = true := ((sends_sideSend g 0 m).mayCarry 1 m).trans h
    refine ⟨sideSend_out h1, (sideSend_chainAt_same h1).trans ?_⟩
    rw [sideSend_chainAt_ne g (by decide)]

end Sys2Proof.Machine
end

section
/-! SUPPORT. The commands of areas 0x08 and 0x09: TIME_STATUS (R615), TIME_STEP on this module and over the chain (R398,
R399, R616, R617), CHN_TOPO (R618), CHN_RING (R619) and RMT_EXEC (R620). -/

namespace Sys2Proof.Machine

theorem exec_timeStatus (m : Nat) (s : State) :
    exec (.timeStatus m) s = answer (directRow 0x0801 (effGw timeStatus) m) s := rfl

theorem exec_chnTopo (m : Nat) (s : State) :
    exec (.chnTopo m) s = answer (directRow 0x0901 (effGw chnTopo) m) s := rfl

theorem exec_rmtExec (m : Nat) (s : State) :
    exec (.rmtExec m) s = answer (directRow 0x0903 (effGw rmtExec) m) s := rfl

/-! ### 16-tick boundaries (R396, R398) -/

/-- The boundary at or after a tick: within 16 ticks of it, or the tick at which the timebase started. -/
theorem boundary_spec (g : Gw) (t : Nat) : t ≤ g.boundary t ∧ g.tb.start ≤ g.boundary t ∧
    g.boundary t < max t g.tb.start + 16 ∧ (g.boundary t - g.tb.start) % 16 = 0 := by
  unfold Gw.boundary ceilDiv
  omega

/-! ### What turns a TIME_STEP away (R399, R616) -/

theorem stepBusy_iff (g : Gw) :
    g.stepBusy = true ↔ g.str.closing ≠ none ∨ g.tb.step ≠ none ∨ g.tb.stepQueue ≠ [] := by
  simp [Gw.stepBusy, Option.isSome_iff_ne_none, or_assoc]

section
variable {g : Gw} {m : Nat}

theorem stepRefusal_zero (hd : stepDelta g m = 0) : stepRefusal g m = stBadArg := if_pos hd

theorem stepRefusal_locked (hd : stepDelta g m ≠ 0) (hs : g.tb.servo = .acquiring ∨ g.tb.servo = .locked) :
    stepRefusal g m = stLocked := by
  rw [stepRefusal, if_neg hd, if_pos (by simpa using hs)]

variable (hd : stepDelta g m ≠ 0) (ha : g.tb.servo ≠ .acquiring) (hl : g.tb.servo ≠ .locked)
include hd ha hl

theorem stepRefusal_free : stepRefusal g m = if g.stepBusy then stBusy else stOk := by
  rw [stepRefusal, if_neg hd, if_neg (by simp [ha, hl])]

theorem stepRefusal_busy (hb : g.str.closing ≠ none ∨ g.tb.step ≠ none ∨ g.tb.stepQueue ≠ []) :
    stepRefusal g m = stBusy := by
  rw [stepRefusal_free hd ha hl, if_pos ((stepBusy_iff g).mpr hb)]

theorem stepRefusal_none (hc : g.str.closing = none) (hs : g.tb.step = none) (hq : g.tb.stepQueue = []) :
    stepRefusal g m = stOk := by
  rw [stepRefusal_free hd ha hl, if_neg]
  rw [stepBusy_iff]
  simp [hc, hs, hq]

end

/-! ### TIME_STEP (R398, R417, R616, R617) -/

section
variable {s : State} {m : Nat}

theorem exec_timeStep (h : bit (s.gw.arg m 3) 0 = false) :
    exec (.timeStep m) s = answer (directRow 0x0803 (effGw timeStep) m) s := answer_pickRow (by rw [h]; rfl)

theorem exec_timeStepChain (h : bit (s.gw.arg m 3) 0 = true) :
    exec (.timeStepChain m) s = answer (directRow 0x0803 (effGw timeStepChain) m) s := answer_pickRow h

variable {st : Nat} (hm : s.gw.holds m 0x0803 = true)
include hm

/-- Either instruction of TIME_STEP answers a refused request with its status. -/
theorem exec_timeStep_refused {c : Instr} {chain : Bool} (hbit : bit (s.gw.arg m 3) 0 = chain)
    (hc : (c, chain) ∈ [(Instr.timeStep m, false), (Instr.timeStepChain m, true)])
    (hroot : chain = true → s.gw.param Par.tbTimeRoot = 1) (hst : stepRefusal s.gw m = st) (hne : st ≠ stOk) :
    exec c s = .next (s.after (s.gw.reply m st 0 [])) := by
  simp only [List.mem_cons, Prod.mk.injEq, List.not_mem_nil, or_false] at hc
  rcases hc with ⟨rfl, rfl⟩ | ⟨rfl, rfl⟩
  · rw [exec_timeStep hbit]
    exact answer_of_withGw (directRow_failWith hm (by simp [timeStep, hst, hne]))
  · rw [exec_timeStepChain hbit]
    exact answer_of_withGw (directRow_failWith hm (by simp [timeStepChain, hroot, hst, hne]))

/-- A module that is not the time root refuses a chain-wide step. -/
theorem exec_timeStepChain_notRoot (hbit : bit (s.gw.arg m 3) 0 = true) (hroot : s.gw.param Par.tbTimeRoot ≠ 1) :
    exec (.timeStepChain m) s = .next (s.after (s.gw.reply m stBadArg 0 [])) := by
  rw [exec_timeStepChain hbit]
  exact answer_of_withGw (directRow_failWith hm (by simp [timeStepChain, hroot, stBadArg, stOk]))

theorem exec_timeStep_asked (hbit : bit (s.gw.arg m 3) 0 = false) (hst : stepRefusal s.gw m = stOk) :
    exec (.timeStep m) s = .next (s.after ((s.gw.askStep (stepDelta s.gw m) none (some m)).setMbx m
      { s.gw.mbxAt m with taken := false })) := by
  rw [exec_timeStep hbit]
  exact answer_of_withGw (directRow_later hm (by simp [timeStep, hst]))

/-- The root announces delta and T_s before it asks for its own step. -/
theorem exec_timeStepChain_asked (hbit : bit (s.gw.arg m 3) 0 = true) (hroot : s.gw.param Par.tbTimeRoot = 1)
    (hst : stepRefusal s.gw m = stOk) {ts : Int}
    (hts : ts = (s.gw.tb.dt40 / 2 ^ 40 : Nat) + 1000 * (s.gw.param Par.tbChainStepLeadUs : Int)) :
    exec (.timeStepChain m) s = .next (s.after
      (((s.gw.floodOwn 4 [stepDelta s.gw m, ts]).askStep (stepDelta s.gw m) (some (8 * ts)) (some m)).setMbx m
        { (s.gw.floodOwn 4 [stepDelta s.gw m, ts]).mbxAt m with taken := false })) := by
  subst hts
  rw [exec_timeStepChain hbit]
  exact answer_of_withGw (directRow_later hm (by simp [timeStepChain, hroot, hst]))

end

/-! ### CHN_TOPO (R618) -/

theorem chnTopo_words {g : Gw} {m : Nat} {es : List (Nat × Reach)}
    (hes : es = g.chn.reach.filter (fun (q : Nat × Reach) =>
      bits (g.arg m 0) 11 0 < q.1 && q.1 != g.chnAddr && q.2.best.isSome)) :
    chnTopo m g = (g, { words := (atBit 31 (decide (es.length ≤ 62)) + min 62 es.length) ::
      (es.take 62).flatMap (fun (q : Nat × Reach) => q.2.words q.1) }) := by
  subst hes
  rw [← List.length_take]
  rfl

/-! ### CHN_RING (R619) -/

section
variable {s : State} {m : Nat}

theorem exec_chnRingFailover (h : bits (s.gw.arg m 0) 1 0 ≠ 2) :
    exec (.chnRingFailover m) s = answer (ringRow 1 2 m) s := answer_pickRow (decide_eq_true h)

theorem exec_chnRingRestore (h : bits (s.gw.arg m 0) 1 0 ≠ 1) :
    exec (.chnRingRestore m) s = answer (ringRow 2 3 m) s := answer_pickRow (decide_eq_true h)

/-- The instruction of CHN_RING that names its own operation. -/
theorem exec_chnRing_own {op : Nat} {c : Instr} (hop : op = bits (s.gw.arg m 0) 1 0)
    (hc : (c, op) ∈ [(Instr.chnRingFailover m, 1), (Instr.chnRingRestore m, 2)]) :
    exec c s = answer (ringRow op (op + 1) m) s := by
  simp only [List.mem_cons, Prod.mk.injEq, List.not_mem_nil, or_false] at hc
  rcases hc with ⟨rfl, rfl⟩ | ⟨rfl, rfl⟩
  · exact exec_chnRingFailover (by rw [← hop]; decide)
  · exact exec_chnRingRestore (by rw [← hop]; decide)

theorem ringRefusal_badArg {g : Gw} {op : Nat}
    (h : g.ringOwner = false ∨ g.param Par.chnRingAuto ≠ 0 ∨ op = 0 ∨ op = 3) : ringRefusal g op = stBadArg :=
  if_pos (by simpa [or_assoc] using h)

theorem ringRefusal_owner {g : Gw} {op : Nat} (hown : g.ringOwner = true) (hauto : g.param Par.chnRingAuto = 0)
    (hop : op = 1 ∨ op = 2) : ringRefusal g op =
      if (op = 1 ∧ (g.ringBroken = false ∨ g.chn.failedOver = true)) ∨ (op = 2 ∧ g.ringBack = false) then stBusy
      else stOk := by
  rcases hop with rfl | rfl <;> simp [ringRefusal, hown, hauto]

/-- A change without a requested stamp joins the queue at the earliest one. -/
theorem queueChange_soonest {g : Gw} (h : g.reqApply m = 0) : ∃ c, c.t = g.soonest ∧
    (g.queueChange m).str.changes = g.str.changes ++ [c] := by
  refine ⟨{ t := g.soonest, rank := m, seq := g.str.accepted, act := .mailbox m, seg := g.tb.seg }, rfl, ?_⟩
  simp [Gw.queueChange, h]

variable (hm : s.gw.holds m 0x0902 = true)
include hm

theorem ringRow_refused {st : Nat} (op typ : Nat) (hst : ringRefusal s.gw (bits (s.gw.arg m 0) 1 0) = st)
    (hne : st ≠ stOk) :
    answer (ringRow op typ m) s = .next (s.after (s.gw.reply m st 0 [])) :=
  answer_of_withGw (by simp [ringRow, hm, hst, hne])

/-- The accepted request queues its change and floods the stamp that it got. -/
theorem ringRow_accepted {op : Nat} (typ : Nat) (hop : op = bits (s.gw.arg m 0) 1 0) (hst : ringRefusal s.gw op = stOk)
    (happly : s.gw.reqApply m = 0) :
    answer (ringRow op typ m) s = .next (s.after ((s.gw.queueChange m).floodOwn typ [1, s.gw.soonest])) := by
  obtain ⟨c, ht, hq⟩ := queueChange_soonest happly
  rw [hop] at hst
  exact answer_of_withGw (by simp [ringRow, hm, hst, hq, hop, ht])

end

/-! ### RMT_EXEC (R471, R620) -/

section
variable {g : Gw} {m : Nat}

theorem execOpsOk_of_badOp {op n : Nat} (hop : op = bits (g.arg m 0) 31 28) (hn : n = g.reqLen m - 3)
    (h : op = 0 ∨ 5 < op ∨ (op ≠ 4 ∧ n ≠ 0) ∨ (op = 4 ∧ (n % 4 ≠ 0 ∨ n = 0 ∨ 32 < n))) : execOpsOk g m = false := by
  rw [execOpsOk, ← hop, ← hn]
  by_cases h4 : op = 4
  · rw [if_pos h4]
    simp only [Bool.and_eq_false_iff, decide_eq_false_iff_not]
    omega
  · rw [if_neg h4]
    simp only [Bool.and_eq_false_iff, decide_eq_false_iff_not]
    omega

theorem freeBridgeSlot_eq : g.freeBridgeSlot =
    (List.range' 16 16).find? (fun i => (g.rmtAt i).state ≠ 1 && (g.rmtAt i).mbx.isNone) := rfl

/-- A slot is not free while its operation is under way or its mailbox waits for it. -/
theorem notFree_iff {x : RmtSlot} : (!(decide (x.state ≠ 1) && x.mbx.isNone)) = true ↔ x.state = 1 ∨ x.mbx ≠ none := by
  simp [Option.isSome_iff_ne_none]

theorem freeBridgeSlot_none (h : ∀ i, 16 ≤ i → i < 32 → (g.rmtAt i).state = 1 ∨ (g.rmtAt i).mbx ≠ none) :
    g.freeBridgeSlot = none := by
  rw [freeBridgeSlot_eq, List.find?_range'_eq_none]
  exact fun i h16 h32 => notFree_iff.mpr (h i h16 h32)

theorem freeBridgeSlot_some {i : Nat} (h16 : 16 ≤ i) (h32 : i < 32) (hst : (g.rmtAt i).state ≠ 1)
    (hmbx : (g.rmtAt i).mbx = none) (h : ∀ j, 16 ≤ j → j < i → (g.rmtAt j).state = 1 ∨ (g.rmtAt j).mbx ≠ none) :
    g.freeBridgeSlot = some i := by
  rw [freeBridgeSlot_eq, List.find?_range'_eq_some]
  refine ⟨by simp [hst, hmbx], List.mem_range'_1.mpr ⟨h16, h32⟩,
    fun j hj hji => notFree_iff.mpr (h j hj hji)⟩

theorem rmtExec_badArg (h : execOpsOk g m = false) : rmtExec m g = (g, failWith stBadArg) := by simp [rmtExec, h]

theorem rmtExec_full (h : execOpsOk g m = true) (hfull : g.freeBridgeSlot = none) :
    rmtExec m g = (g, failWith stBusy) := by simp [rmtExec, h, hfull]

/-- The slot of an accepted request starts its operation, and the reply comes with the slot's end. -/
theorem rmtExec_starts {i : Nat} (h : execOpsOk g m = true) (hfree : g.freeBridgeSlot = some i) :
    rmtExec m g = (g.rmtStart i
      { op := bits (g.arg m 0) 31 28, tgt := bits (g.arg m 0) 11 0, hops := bits (g.arg m 0) 27 16, addr := g.arg m 1,
        wdata := g.arg m 2, seq := if bits (g.arg m 0) 31 28 = 4 then execOps g m else [], mbx := some m },
      { later := true }) := by simp [rmtExec, h, hfree]

end

end Sys2Proof.Machine
end

section
/-! The statement on time, chain and remote commands. -/

namespace Sys2Proof.Machine

/-- Settles O38, command by command: a request by what turns it away, else by what it asks for. -/
theorem timeChainAndRemoteCommands : Obligations.TimeChainAndRemoteCommands := by
  refine ⟨?status, ?step, ?notRoot, ?topo, ?ring, ?ringOther, ?remote⟩
  case status =>
    rintro s m i own hm rfl rfl
    rw [exec_timeStatus]
    exact answer_of_withGw (directRow_words hm rfl)
  case step =>
    intro s m d c chain hm hd hbit hc hroot
    change d = stepDelta s.gw m at hd
    subst hd
    have hrefused := fun st => exec_timeStep_refused (st := st) hm hbit hc hroot
    refine ⟨fun h0 => ?zero, fun hd hservo => ?locked, fun hd ha hl hbusy => ?busy,
      fun hd ha hl hclosing hstep hqueue => ⟨?own, ?chain⟩⟩
    case zero => exact hrefused _ (stepRefusal_zero h0) (by decide)
    case locked => exact hrefused _ (stepRefusal_locked hd hservo) (by decide)
    case busy => exact hrefused _ (stepRefusal_busy hd ha hl hbusy) (by decide)
    case own =>
      rintro rfl
      obtain ⟨hle, hstart, hlt, hmod⟩ := boundary_spec s.gw (s.gw.tb.tick + 256)
      refine ⟨s.gw.boundary (s.gw.tb.tick + 256), hle, by omega, hstart, hmod, ?_⟩
      obtain rfl : c = .timeStep m := by simpa using hc
      exact exec_timeStep_asked hm hbit (stepRefusal_none hd ha hl hclosing hstep hqueue)
    case chain =>
      rintro rfl ts hts
      obtain rfl : c = .timeStepChain m := by simpa using hc
      have htb := (sends_floodOwn s.gw 4 [stepDelta s.gw m, ts]).tb
      generalize hg : s.gw.floodOwn 4 [stepDelta s.gw m, ts] = g at htb ⊢
      obtain ⟨hle, -, -, hmod⟩ := boundary_spec g g.tb.tick
      refine ⟨g.boundary g.tb.tick, htb ▸ hle, htb ▸ hmod, ?_⟩
      rw [exec_timeStepChain_asked hm hbit (hroot rfl) (stepRefusal_none hd ha hl hclosing hstep hqueue) hts, hg]
      rfl
  case notRoot =>
    intro s m hm hbit hroot
    exact exec_timeStepChain_notRoot hm hbit hroot
  case topo =>
    intro s m es hm hes
    rw [exec_chnTopo]
    exact answer_of_withGw (directRow_words hm (chnTopo_words hes))
  case ring =>
    intro s m op c hm hop hc
    have hcase : op = 1 ∨ op = 2 := by
      simp only [List.mem_cons, Prod.mk.injEq, List.not_mem_nil, or_false] at hc
      exact hc.imp And.right And.right
    rw [exec_chnRing_own hop hc]
    refine ⟨fun h => ?refused, fun hown hauto => ⟨fun h => ?busy, fun T happly hT h => ?accepted⟩⟩
    case refused => exact ringRow_refused hm _ _ (ringRefusal_badArg (h.imp_right .inl)) (by decide)
    case busy =>
      refine ringRow_refused hm (st := stBusy) _ _ ?_ (by decide)
      rw [← hop, ringRefusal_owner hown hauto hcase, if_pos h]
    case accepted =>
      subst hT
      refine ringRow_accepted hm _ hop ?_ happly
      rw [ringRefusal_owner hown hauto hcase, if_neg]
      rcases h with ⟨rfl, hbroken, hover⟩ | ⟨rfl, hback⟩
      · simp [hbroken, hover]
      · simp [hback]
  case ringOther =>
    intro s m hm hop
    have hst := ringRefusal_badArg (g := s.gw) (.inr (.inr hop))
    rw [exec_chnRingFailover (by omega), exec_chnRingRestore (by omega)]
    exact ⟨ringRow_refused hm _ _ hst (by decide), ringRow_refused hm _ _ hst (by decide)⟩
  case remote =>
    intro s m op n hm hop hn
    rw [exec_rmtExec]
    refine ⟨fun h => ?badArg, fun hok => ⟨fun h => ?full, fun i x h16 h32 hst hmbx hlower hx => ?starts⟩⟩
    case badArg => exact answer_of_withGw (directRow_failWith hm (rmtExec_badArg (execOpsOk_of_badOp hop hn h)))
    case full => exact answer_of_withGw (directRow_failWith hm (rmtExec_full hok (freeBridgeSlot_none h)))
    case starts =>
      subst hop hx
      exact answer_of_withGw (directRow_later hm (rmtExec_starts hok (freeBridgeSlot_some h16 h32 hst hmbx hlower)))

end Sys2Proof.Machine
end

section
/-! SUPPORT. Time-event outputs (R426–R430): a host's write of TEV_OUT_CFG, the copy of the staged set, events and
pulse ends. -/

namespace Sys2Proof.Machine

/-! ### The commands of an output -/

section
variable {s : State} {n : Nat} (hn : n < 16) (h12 : s.gw.islOn 12 = true)
include hn h12

theorem event_in_reach : (decide (n < 16) && s.gw.islOn 12) = true := by rw [h12, decide_eq_true hn]; rfl

theorem exec_tevOutArm (v : W32) :
    exec (.tevOutArm n v) s = .next (s.after (s.gw.tevCfgWrite n (v ||| 0x80000000))) :=
  answer_of_withGw (congrArg s.withGw (if_pos (event_in_reach hn h12)))

theorem exec_tevOutModeOff (v : W32) :
    exec (.tevOutModeOff n v) s = .next (s.after (s.gw.tevCfgWrite n (v &&& 0xCFFFFFFF))) :=
  answer_of_withGw (congrArg s.withGw (if_pos (event_in_reach hn h12)))

theorem exec_tevOutSetCopy : exec (.tevOutSetCopy n) s = .next (s.after (s.gw.tevCopy n)) :=
  answer_of_withGw (congrArg s.withGw (if_pos (event_in_reach hn h12)))

theorem exec_tevOutEvent : exec (.tevOutEvent n) s = .next (s.after (s.gw.tevEvent n)) :=
  answer_of_withGw (congrArg s.withGw (if_pos (event_in_reach hn h12)))

theorem exec_tevOutPulseEnd : exec (.tevOutPulseEnd n) s = .next (s.after (s.gw.tevPulseEnd n)) := by
  have hreach : (decide (n ≤ 16) && s.gw.islOn 12) = true := by rw [h12, decide_eq_true (by omega)]; rfl
  have hn16 : n ≠ 16 := by omega
  exact answer_of_withGw (congrArg s.withGw ((if_pos hreach).trans (if_neg hn16)))

end

theorem tevAt_after (s : State) (g : Gw) (n : Nat) : (s.after g).gw.tevAt n = g.tevAt n := by
  simp only [Gw.tevAt, after_gw, interrupts_tevOut]

theorem tevOutCfg_high (n : Nat) : 0x3008 ≤ Reg.tevOutCfg n := by simp only [Reg.tevOutCfg]; omega

/-! ### A host's write of TEV_OUT_CFG (R427, R429, R430, R432) -/

theorem bits_eq_of_testBit {v w hi lo : Nat} (h : ∀ i ≤ hi - lo, v.testBit (lo + i) = w.testBit (lo + i)) :
    bits v hi lo = bits w hi lo := by
  refine Nat.eq_of_testBit_eq fun i => ?_
  simp only [bits, Nat.testBit_mod_two_pow, Nat.testBit_shiftRight]
  by_cases hi' : i < hi - lo + 1
  · rw [h i (by omega)]
  · simp only [hi', decide_false, Bool.false_and]

theorem findReg_tevOutCfg {n : Nat} (h : n < 16) : findReg (Reg.tevOutCfg n) = some
    ({ name := "TEV_OUT_CFG", base := 0x00061000, n := 16, stride := 0x40,
       rw := 0x38000000, w1s := 0x80000000 }, n) := by
  interval_cases n <;> rfl

theorem plainWrite_tevOutCfg (g : Gw) {n : Nat} (h : n < 16) (v : W32) :
    ∃ w, g.plainWrite (Reg.tevOutCfg n) v = g.setReg (Reg.tevOutCfg n) w ∧ bits w.toNat 29 28 = bits v.toNat 29 28 := by
  refine ⟨_, by simp only [Gw.plainWrite, findReg_tevOutCfg h]; rfl, bits_eq_of_testBit fun i hi => ?_⟩
  have hmode : i = 0 ∨ i = 1 := by omega
  rw [BitVec.testBit_toNat, BitVec.testBit_toNat, getLsbD_written _ _ _ (by omega)]
  rcases hmode with rfl | rfl
  · rfl
  · rfl

/-- What a host's write leaves of an output: ARM asks for the copy at `b`, MODE 0 (or 3) stops it when no pulse is under
way. -/
def TevOut.cfgWritten (x : TevOut) (b : Nat) (v : W32) : TevOut :=
  let x := if bit v.toNat 31 then { x with armTick := some b } else x
  if bits v.toNat 29 28 % 3 = 0 && x.pulseEnd.isNone then { x with active := false, level := false } else x

theorem tevCfgWrite_firmware {g : Gw} {n : Nat} (v : W32) (h : bit (g.param Par.tevOwn) n = true) :
    g.tevCfgWrite n v = g :=
  if_pos h

theorem driven_or_not (g : Gw) (c : Prop) [Decidable c] (n : Nat) (b : Bool) (t : Stamp) :
    ∃ os, (if c then g else g.tevDrive n b t) = { g with out := os } := by
  split
  · exact ⟨g.out, rfl⟩
  · exact ⟨_, rfl⟩

/-- A host's write sets the register and the output's record, and drives the ball when its level changes. -/
theorem tevCfgWrite_host {g : Gw} {n : Nat} (v : W32) (hn : n < 16) (h : bit (g.param Par.tevOwn) n = false) :
    ∃ w os, bits w.toNat 29 28 = bits v.toNat 29 28 ∧ g.tevCfgWrite n v =
      { (g.setReg (Reg.tevOutCfg n) w).setTev n ((g.tevAt n).cfgWritten (g.boundary (g.tb.tick + 1)) v) with
        out := os } := by
  obtain ⟨w, hw, hbits⟩ := plainWrite_tevOutCfg g hn v
  unfold Gw.tevCfgWrite
  rw [if_neg (by rw [h]; decide), hw]
  refine ⟨w, exists_and_left.mpr ⟨hbits, ?_⟩⟩
  exact driven_or_not ((g.setReg (Reg.tevOutCfg n) w).setTev n
    ((g.tevAt n).cfgWritten (g.boundary (g.tb.tick + 1)) v)) _ _ _ _

theorem tevCfgWrite_tevAt {g : Gw} {n : Nat} (v : W32) (hn : n < 16) (h : bit (g.param Par.tevOwn) n = false) :
    (g.tevCfgWrite n v).tevAt n = (g.tevAt n).cfgWritten (g.boundary (g.tb.tick + 1)) v := by
  obtain ⟨w, os, -, hw⟩ := tevCfgWrite_host v hn h
  rw [hw]
  exact tevAt_setTev_same _ _ _

theorem tevCfgWrite_mode {g : Gw} {n : Nat} (v : W32) (hn : n < 16) (h : bit (g.param Par.tevOwn) n = false) :
    bits ((g.tevCfgWrite n v).regN (Reg.tevOutCfg n)) 29 28 = bits v.toNat 29 28 := by
  obtain ⟨w, os, hbits, hw⟩ := tevCfgWrite_host v hn h
  rw [hw, ← hbits]
  exact congrArg (fun r : W32 => bits r.toNat 29 28) (reg_setReg_same g _ w)

section
variable (x : TevOut) (b : Nat) {v : W32}

theorem cfgWritten_armed (h : bit v.toNat 31 = true) : (x.cfgWritten b v).armTick = some b := by
  simp only [TevOut.cfgWritten, h, if_true]
  split <;> rfl

theorem cfgWritten_off (h : bits v.toNat 29 28 = 0) (hp : x.pulseEnd = none) :
    (x.cfgWritten b v).active = false ∧ (x.cfgWritten b v).level = false := by
  cases hv : bit v.toNat 31 <;> simp [TevOut.cfgWritten, h, hp, hv]

/-- A pulse in progress goes on. -/
theorem cfgWritten_pulsing (hp : x.pulseEnd ≠ none) :
    (x.cfgWritten b v).active = x.active ∧ (x.cfgWritten b v).level = x.level := by
  cases hv : bit v.toNat 31 <;> simp [TevOut.cfgWritten, hp, hv]

end

theorem armed_bit (v : W32) : bit (v ||| 0x80000000).toNat 31 = true := by
  rw [bit, BitVec.toNat_or, Nat.testBit_or]
  exact Bool.or_true _

theorem armed_mode (v : W32) : bits (v ||| 0x80000000).toNat 29 28 = bits v.toNat 29 28 := by
  refine bits_eq_of_testBit fun i hi => ?_
  have hmode : i = 0 ∨ i = 1 := by omega
  rw [BitVec.toNat_or, Nat.testBit_or]
  rcases hmode with rfl | rfl
  · exact Bool.or_false _
  · exact Bool.or_false _

theorem off_mode (v : W32) : bits (v &&& 0xCFFFFFFF).toNat 29 28 = 0 := by
  rw [BitVec.toNat_and, bits_and]
  exact Nat.and_zero _

/-! ### The copy of the staged set (R429, R430) -/

theorem tevCopy_early {g : Gw} {n k : Nat} (hk : (g.tevAt n).armTick = some k) (h : g.tb.tick < k) :
    g.tevCopy n = g := by
  simp [Gw.tevCopy, hk, h]

theorem tevMiss_zero (g : Gw) (n : Nat) : g.tevMiss n 0 = g := by
  simp [Gw.tevMiss]

/-- No event of a set falls before a stamp that its start does not fall before. -/
theorem tevBefore_ahead {g : Gw} {n : Nat} {x : TevOut} {b : Stamp} (h : b ≤ x.start + g.paramI (Par.tevAdj n)) :
    g.tevBefore n x b = 0 := by
  have hd : (b - x.start - g.paramI (Par.tevAdj n)).toNat = 0 :=
    Int.toNat_of_nonpos (Int.sub_nonpos_of_le (Int.sub_left_le_of_le_add h))
  simp only [Gw.tevBefore, hd, if_true]
  split
  · exact Nat.zero_min _
  · rfl

theorem tevStaged_setRegN (g : Gw) (n v : Nat) : (g.setRegN (Reg.tevOutCfg n) v).tevStaged n = g.tevStaged n := by
  have hne : ∀ o, o ≠ Reg.tevOutCfg n → (g.setRegN (Reg.tevOutCfg n) v).regN o = g.regN o :=
    fun _ h => regN_setRegN_ne g v h
  simp only [Gw.tevStaged]
  rw [hne _ (by simp [Reg.tevOutStartLo, Reg.tevOutCfg]), hne _ (by simp [Reg.tevOutStartHi, Reg.tevOutCfg]),
    hne _ (by simp [Reg.tevOutPerFrac, Reg.tevOutCfg]), hne _ (by simp [Reg.tevOutPerLo, Reg.tevOutCfg]),
    hne _ (by simp [Reg.tevOutPerHi, Reg.tevOutCfg]), hne _ (by simp [Reg.tevOutWidth, Reg.tevOutCfg]),
    hne _ (by simp [Reg.tevOutCount, Reg.tevOutCfg])]

theorem now_setRegN (g : Gw) (o v : Nat) : (g.setRegN o v).now = g.now := by
  unfold Gw.now
  rfl

theorem tevBefore_setRegN (g : Gw) (o v n : Nat) (x : TevOut) (b : Stamp) :
    (g.setRegN o v).tevBefore n x b = g.tevBefore n x b := by
  have hadj : ∀ k, (g.setRegN o v).paramI k = g.paramI k :=
    fun k => congrArg asI32 (param_congr (setRegN_params g o v) k)
  simp only [Gw.tevBefore, hadj]

theorem now_nonneg (g : Gw) : 0 ≤ g.now := Int.natCast_nonneg _

/-- A set whose start lies 32 ns ahead becomes the active one whole, and ARM is cleared. -/
theorem tevCopy_due {g : Gw} {n k : Nat} (hk : (g.tevAt n).armTick = some k) (ht : k ≤ g.tb.tick)
    (hp : (g.tevAt n).pulseEnd = none) (hs : g.now + 256 ≤ (g.tevStaged n).start + g.paramI (Par.tevAdj n)) :
    g.tevCopy n = (g.setRegN (Reg.tevOutCfg n) (setBits (g.regN (Reg.tevOutCfg n)) 31 31 0)).setTev n
      { g.tevStaged n with level := (g.tevAt n).level } := by
  have hmiss : max (g.now + 256) 0 ≤ (g.tevStaged n).start + g.paramI (Par.tevAdj n) :=
    max_le hs (Int.le_trans (Int.add_nonneg (now_nonneg g) (by decide)) hs)
  simp only [Gw.tevCopy, hk, if_neg (Nat.not_lt.mpr ht), hp, tevStaged_setRegN, Option.getD_none]
  rw [now_setRegN, tevBefore_setRegN, tevBefore_ahead, tevMiss_zero]
  · rfl
  · exact hmiss

theorem setBits_top_lt {v : Nat} (h : v < 2 ^ 32) : setBits v 31 31 0 < 2 ^ 32 := by
  have hle : setBits v 31 31 0 ≤ v := by simp [setBits]
  exact Nat.lt_of_le_of_lt hle h

theorem regN_setTev (g : Gw) (n : Nat) (x : TevOut) (o : Nat) : (g.setTev n x).regN o = g.regN o := rfl

theorem disarmed_bit (g : Gw) (o : Nat) : bit ((g.setRegN o (setBits (g.regN o) 31 31 0)).regN o) 31 = false := by
  have hlt : g.regN o < 2 ^ 32 := (g.reg o).isLt
  rw [regN_setRegN_same g o (setBits_top_lt hlt)]
  exact bit_setBits_clear _ _

/-! ### Events and pulse ends (R426, R427, R430) -/

theorem tevPulseEnd_early {g : Gw} {n : Nat} {t : Stamp} (h : (g.tevAt n).pulseEnd = some t) (ht : g.nowLast < t) :
    g.tevPulseEnd n = g := by
  simp [Gw.tevPulseEnd, h, ht]

theorem tevPulseEnd_due {g : Gw} {n : Nat} {t : Stamp} (h : (g.tevAt n).pulseEnd = some t) (ht : t ≤ g.nowLast) :
    g.tevPulseEnd n = (g.setTev n { g.tevAt n with
      level := false, pulseEnd := none
      active := (g.tevAt n).active && !decide (g.tevMode n % 3 = 0) }).tevDrive n false t := by
  simp only [Gw.tevPulseEnd, h, if_neg (Int.not_lt.mpr ht)]

/-- An output after an event that leaves its ball at a level, until the end of a pulse. -/
def TevOut.fired (x : TevOut) (level : Bool) (ending : Option Stamp) : TevOut :=
  { x with k := x.k + 1, level := level, pulseEnd := ending, active := x.events != some (x.k + 1) }

/-- The end of a pulse leaves the ball at its inactive level. -/
theorem tevPulseEnd_pin {g : Gw} {n : Nat} {t : Stamp} (h : (g.tevAt n).pulseEnd = some t) (ht : t ≤ g.nowLast) :
    .pin "TEV_OUT" n (false != g.tevPol n) t ∈ (g.tevPulseEnd n).out := by
  rw [tevPulseEnd_due h ht]
  exact List.mem_append_right _ (List.mem_singleton.mpr rfl)

theorem tevPulseEnd_tevAt {g : Gw} {n : Nat} {t : Stamp} (h : (g.tevAt n).pulseEnd = some t) (ht : t ≤ g.nowLast) :
    (g.tevPulseEnd n).tevAt n = { g.tevAt n with
      level := false, pulseEnd := none, active := (g.tevAt n).active && !decide (g.tevMode n % 3 = 0) } := by
  rw [tevPulseEnd_due h ht]
  exact tevAt_setTev_same _ _ _

section
variable {g : Gw} {n : Nat} {t : Stamp} (ht : t = g.tevTime n (g.tevAt n) (g.tevAt n).k)
include ht

theorem tevEvent_early (h : g.nowLast < t) : g.tevEvent n = g := by
  subst ht
  simp [Gw.tevEvent, h]

variable (ha : (g.tevAt n).active = true) (hdue : t ≤ g.nowLast)
include ha hdue

theorem tevEvent_pulse (hmode : g.tevMode n = 1) (hp : (g.tevAt n).pulseEnd = none) : g.tevEvent n =
    (g.setTev n ((g.tevAt n).fired true (some (t + Int.ofNat (g.tevAt n).width)))).tevDrive n true t := by
  subst ht
  simp [Gw.tevEvent, TevOut.fired, ha, hmode, hp, Int.not_lt.mpr hdue]

/-- An event after the end of the pulse before it: that pulse ends first. -/
theorem tevEvent_nextPulse {e : Stamp} (hmode : g.tevMode n = 1) (hp : (g.tevAt n).pulseEnd = some e) (he : e ≤ t) :
    g.tevEvent n = ((g.tevPulseEnd n).setTev n
      (((g.tevPulseEnd n).tevAt n).fired true
        (some (t + Int.ofNat ((g.tevPulseEnd n).tevAt n).width)))).tevDrive n true t := by
  subst ht
  simp [Gw.tevEvent, TevOut.fired, ha, hmode, hp, he, Int.not_lt.mpr hdue]

theorem tevEvent_nextPulse_tevAt {e : Stamp} (hmode : g.tevMode n = 1) (hp : (g.tevAt n).pulseEnd = some e)
    (he : e ≤ t) :
    (g.tevEvent n).tevAt n = (g.tevAt n).fired true (some (t + Int.ofNat (g.tevAt n).width)) := by
  rw [tevEvent_nextPulse ht ha hdue hmode hp he, tevPulseEnd_tevAt hp (Int.le_trans he hdue)]
  exact tevAt_setTev_same _ _ _

theorem tevEvent_toggle (hmode : g.tevMode n = 2) (hp : (g.tevAt n).pulseEnd = none) : g.tevEvent n =
    (g.setTev n ((g.tevAt n).fired (!(g.tevAt n).level) none)).tevDrive n (!(g.tevAt n).level) t := by
  subst ht
  simp [Gw.tevEvent, TevOut.fired, ha, hmode, hp, Int.not_lt.mpr hdue]

end

end Sys2Proof.Machine
end

section
/-! SUPPORT. Time-event inputs (R433, R434), PPS_OUT (R435) and PPS_IN (R436). -/

namespace Sys2Proof.Machine

/-! ### The commands of an input -/

section
variable {s : State} {n : Nat} (hn : n < 16) (h12 : s.gw.islOn 12 = true)
include hn h12

theorem exec_tevInEdge (rise : Bool) (ph : Nat) :
    exec (.tevInEdge n rise ph) s = .next (s.after (s.gw.tevEdge n rise ph)) :=
  answer_of_withGw (congrArg s.withGw (if_pos (event_in_reach hn h12)))

theorem exec_tevInEnt0Read : exec (.tevInEnt0Read n) s = .next (s.after (s.gw.tevInRead0 n)) :=
  answer_of_withGw (congrArg s.withGw (if_pos (event_in_reach hn h12)))

theorem exec_tevInEnt3Read : exec (.tevInEnt3Read n) s = .next (s.after (s.gw.tevInRead3 n)) :=
  answer_of_withGw (congrArg s.withGw (if_pos (event_in_reach hn h12)))

end

theorem tevInAt_after (s : State) (g : Gw) (n : Nat) : (s.after g).gw.tevInAt n = g.tevInAt n := by
  simp only [Gw.tevInAt, after_gw, interrupts_tevIn]

theorem tevInStat_high (n : Nat) : 0x3008 ≤ Reg.tevInStat n := by simp only [Reg.tevInStat]; omega

/-! ### Edges (R433, R434) -/

theorem tevEdge_off {g : Gw} {n : Nat} (rise : Bool) (ph : Nat) (h : bit (g.regN (Reg.tevInCfg n)) 31 = false) :
    g.tevEdge n rise ph = g := if_pos (by rw [h]; rfl)

/-- The record of an input once an edge has been stamped: the entry joins the queue unless that is full. -/
def Gw.edgeNoted (g : Gw) (n : Nat) (rise : Bool) (ph : Nat) : TevIn :=
  { g.tevInAt n with
    last := some (g.tb.stamp ph), seq := ((g.tevInAt n).seq + 1) % 65536
    queue := if 32 ≤ (g.tevInAt n).queue.length then (g.tevInAt n).queue
      else (g.tevInAt n).queue ++ [⟨g.tb.stamp ph, rise, g.tb.seg, (g.tevInAt n).seq⟩] }

theorem tevEdge_first {g : Gw} {n : Nat} {rise : Bool} (ph : Nat) (hen : bit (g.regN (Reg.tevInCfg n)) 31 = true)
    (hedge : bit (g.regN (Reg.tevInCfg n)) (if rise then 29 else 30) = true) (hl : (g.tevInAt n).last = none) :
    g.tevEdge n rise ph = if 32 ≤ (g.tevInAt n).queue.length then
        ((g.setTevIn n (g.edgeNoted n rise ph)).flag (Reg.tevInStat n) 0x80000000).bump (Reg.tevInLost n)
      else g.setTevIn n (g.edgeNoted n rise ph) := by
  simp only [Gw.tevEdge, hen, hedge, hl, Gw.edgeNoted]
  simp

theorem tevEdge_tevInAt {g : Gw} {n : Nat} {rise : Bool} (ph : Nat) (hen : bit (g.regN (Reg.tevInCfg n)) 31 = true)
    (hedge : bit (g.regN (Reg.tevInCfg n)) (if rise then 29 else 30) = true) (hl : (g.tevInAt n).last = none) :
    (g.tevEdge n rise ph).tevInAt n = g.edgeNoted n rise ph := by
  rw [tevEdge_first ph hen hedge hl]
  split
  · exact tevInAt_setTevIn_same _ _ _
  · exact tevInAt_setTevIn_same _ _ _

/-- A full queue loses the edge and says so. -/
theorem tevEdge_full {g : Gw} {n : Nat} {rise : Bool} (ph : Nat) (hen : bit (g.regN (Reg.tevInCfg n)) 31 = true)
    (hedge : bit (g.regN (Reg.tevInCfg n)) (if rise then 29 else 30) = true) (hl : (g.tevInAt n).last = none)
    (hfull : 32 ≤ (g.tevInAt n).queue.length) : bit ((g.tevEdge n rise ph).regN (Reg.tevInStat n)) 31 = true := by
  have hne : Reg.tevInStat n ≠ Reg.tevInLost n := by simp [Reg.tevInStat, Reg.tevInLost]
  rw [tevEdge_first ph hen hedge hl, if_pos hfull, regN_bump_ne _ hne]
  exact bit_regN_flag_of_mask _ _ (by decide) (by decide)

theorem tevInRead3_armed {g : Gw} {n : Nat} (h : (g.tevInAt n).armed = true) : g.tevInRead3 n =
    (g.setTevIn n { g.tevInAt n with armed := false, queue := (g.tevInAt n).queue.drop 1 }).emit
      (.readData (Reg.tevInEnt3 n) (w32 ((g.tevInAt n).latched.getD 3 0))) := by
  simp only [Gw.tevInRead3, h, if_true]

/-! ### PPS_OUT (R435) -/

theorem exec_ppsOutPulse {s : State} (h12 : s.gw.islOn 12 = true) :
    exec .ppsOutPulse s = .next (s.after s.gw.ppsPulse) := answer_of_withGw (congrArg s.withGw (if_pos h12))

theorem ppsPulse_early {g : Gw} {t : Stamp} (h : g.tb.ppsNext = some t) (ht : g.nowLast < t) : g.ppsPulse = g := by
  simp only [Gw.ppsPulse, h, Option.getD_some, if_pos ht]
  rw [← h]

theorem ppsPulse_open {g : Gw} {t : Stamp} (h : g.tb.ppsNext = some t) (ht : t ≤ g.nowLast) (ho : g.ppsOpen = true) :
    g.ppsPulse = ({ g with tb := { g.tb with
      ppsNext := some (t + 8000000000), ppsOn := true
      ppsEnd := some (t + 8000 * Int.ofNat (bits g.ppsCfg 51 32)) } } : Gw).emit (.pin "PPS_OUT" 0 true t) := by
  simp only [Gw.ppsPulse, h, Option.getD_some, if_neg (Int.not_lt.mpr ht)]
  exact if_pos ho

/-! ### PPS_IN (R433, R436) -/

theorem exec_ppsInEdge {s : State} (h12 : s.gw.islOn 12 = true) (rise : Bool) (ph : Nat) :
    exec (.ppsInEdge rise ph) s = .next (s.after (s.gw.ppsEdge rise ph)) :=
  answer_of_withGw (congrArg s.withGw (if_pos h12))

theorem ppsEdge_off {g : Gw} (rise : Bool) (ph : Nat) (h : bit g.ppsCfg 62 = false) : g.ppsEdge rise ph = g :=
  if_pos (by rw [h]; rfl)

theorem ppsEdge_close {g : Gw} (rise : Bool) {ph : Nat} {l : Stamp} (hl : g.tb.ppsInLast = some l)
    (h : g.tb.stamp ph - l < 32) : g.ppsEdge rise ph = g := by
  simp [Gw.ppsEdge, hl, h]

/-- The phase of an edge against the nearest whole second, in 2⁻¹⁶ ns. -/
def Gw.ppsPhase (g : Gw) (ph : Nat) : Int := -(((g.tb.stamp ph + 4000000000) % 8000000000 - 4000000000) * 8192)

/-- A stamped edge is counted and is a sample of source 3. -/
theorem ppsEdge_stamped {g : Gw} {rise : Bool} {ph : Nat} (hen : bit g.ppsCfg 62 = true)
    (hedge : rise ≠ bit g.ppsCfg 61)
    (hl : ∀ l, g.tb.ppsInLast = some l → 32 ≤ g.tb.stamp ph - l) : g.ppsEdge rise ph =
      (({ g with tb := { g.tb with ppsIn := g.tb.stamp ph, ppsInLast := some (g.tb.stamp ph) } } : Gw).bump
        Reg.tbPpsInCnt).sourceSample 3 (g.ppsPhase ph + g.wholeSeconds (g.ppsPhase ph)) := by
  have hfar : g.tb.ppsInLast.any (fun l => decide (g.tb.stamp ph - l < 32)) = false := by
    cases h : g.tb.ppsInLast with
    | none => rfl
    | some l => exact decide_eq_false (Int.not_lt.mpr (hl l h))
  have hopen : (!bit g.ppsCfg 62 || decide (rise = bit g.ppsCfg 61)) = false := by simp [hen, hedge]
  simp only [Gw.ppsEdge, hopen, hfar]
  rfl

theorem wholeSeconds_other {g : Gw} (h1 : g.param Par.tbSrcSec ≠ 1) (h2 : g.param Par.tbSrcSec ≠ 2) (p : Int) :
    g.wholeSeconds p = 0 := by
  simp [Gw.wholeSeconds, h1, h2]

/-- The whole seconds bring a phase nearest to the offset of the secondary source. -/
theorem wholeSeconds_nearest {g : Gw} {p o : Int} (h1 : g.param Par.tbSrcSec = 1) (ho : mget? g.tb.samples 1 = some o) :
    g.wholeSeconds p % 65536000000000 = 0 ∧ 2 * (o - p - g.wholeSeconds p).natAbs ≤ 65536000000000 := by
  have hw : g.wholeSeconds p = (o - p + 65536000000000 / 2) / 65536000000000 * 65536000000000 := by
    simp [Gw.wholeSeconds, h1, ho]
  rw [hw]
  omega

end Sys2Proof.Machine
end

section
/-! SUPPORT. gPTP instances (R407–R410, R413): received messages, and what a gPTP clock sends at its intervals. -/

namespace Sys2Proof.Machine

/-! ### What a sent frame leaves -/

/-- A frame on its way to Strata leaves the instances as they are. -/
@[simp] theorem toStrata_gptp (g : Gw) (x : Frame) : (g.toStrata x).gptp = g.gptp := by
  unfold Gw.toStrata
  split
  · next h => rw [storeFrame_cal_only h]
  · rfl

@[simp] theorem gptpSend_gptp (g : Gw) (p : Nat) (bs : List Byte) (tag : Option Nat) :
    (g.gptpSend p bs tag).gptp = g.gptp := by
  have hinternal : ∀ x, (g.deliverInternal x).gptp = g.gptp := fun x => by
    unfold Gw.deliverInternal
    split
    · rfl
    · exact toStrata_gptp g x
  unfold Gw.gptpSend
  split
  · exact hinternal _
  · exact hinternal _

theorem gptpAt_congr {g h : Gw} (e : h.gptp = g.gptp) (i : Nat) : h.gptpAt i = g.gptpAt i := by simp only [Gw.gptpAt, e]

theorem gptpAt_after (s : State) (g : Gw) (i : Nat) : (s.after g).gw.gptpAt i = g.gptpAt i :=
  gptpAt_congr (interrupts_gptp s.gw g) i

theorem spanSend_shape (g : Gw) (i : Nat) : ∃ ps rs os,
    g.spanSend i = { g with chn := { g.chn with ports := ps }, regs := rs, out := os } := by
  unfold Gw.spanSend
  dsimp only
  split
  · split
    · exact (sends_floodOwn _ _ _).shape
    · exact ⟨_, _, _, rfl⟩
  · exact ⟨_, _, _, rfl⟩

@[simp] theorem spanSend_gptp (g : Gw) (i : Nat) : (g.spanSend i).gptp = g.gptp := by
  obtain ⟨_, _, _, h⟩ := spanSend_shape g i
  rw [h]

@[simp] theorem spanSend_str (g : Gw) (i : Nat) : (g.spanSend i).str = g.str := by
  obtain ⟨_, _, _, h⟩ := spanSend_shape g i
  rw [h]

/-! ### Received messages -/

theorem exec_gptpMessage {p : Nat} (h : p < 20) (i : Nat) (m : GptpMsg) (s : State) :
    exec (.gptpMessage i p m) s = .next (s.after ((s.gw.gptpReceive i p m).gmWatch s.gw)) := by
  have hp : p ≠ 20 := by omega
  exact answer_of_withGw (congrArg s.withGw (congrArg (Gw.gmWatch · s.gw) (if_neg hp)))

/-- While every grandmaster stays, the timebase keeps its source. -/
theorem gmWatch_same {g b : Gw} (h : ∀ w, (g.gptpAt w).gm = (b.gptpAt w).gm) : g.gmWatch b = g := by
  simp [Gw.gmWatch, h]

theorem gm_setGptp {g : Gw} {i : Nat} {x : Gptp} (h : x.gm = (g.gptpAt i).gm) (w : Nat) :
    ((g.setGptp i x).gptpAt w).gm = (g.gptpAt w).gm := by
  rw [gptpAt_setGptp]
  split
  · next hw => rw [hw, h]
  · rfl

theorem setGptp_setGptp (g : Gw) (i : Nat) (x y : Gptp) : (g.setGptp i x).setGptp i y = g.setGptp i y := by
  simp only [Gw.setGptp, mset_mset]

theorem gptpReceive_idle {g : Gw} {i p : Nat} (m : GptpMsg) (h : g.gptpOn i = false ∨ g.gptpRole i p = 0) :
    g.gptpReceive i p m = g := by
  refine if_pos ?_
  rcases h with h | h
  · simp [h]
  · simp [h]

section
variable {g : Gw} {i p : Nat} {m : GptpMsg} (hon : g.gptpOn i = true) (hp : p < 20)
include hon hp

/-- A two-step Sync waits for its Follow_Up. -/
theorem gptpReceive_sync (ht : m.typ = 0) (h2 : m.twoStep = true) (hr : g.gptpRole i p = 2)
    (hc : g.asCapable i p = true) :
    g.gptpReceive i p m = g.setGptp i { g.gptpAt i with
      syncTick := g.tb.tick
      syncPending := mset (g.gptpAt i).syncPending p (m.seq, m.rx * 8192, g.tb.seg - m.segBack) } := by
  have hp' : ¬ 20 ≤ p := by omega
  simp [Gw.gptpReceive, hon, hp', ht, h2, hr, hc, setGptp_setGptp, fine]

theorem gptpReceive_followUp {rx : Int} {sg : Nat} (ht : m.typ = 1) (hr : g.gptpRole i p = 2)
    (hw : mget? (g.gptpAt i).syncPending p = some (m.seq, rx, sg)) : g.gptpReceive i p m =
      (g.setGptp i { g.gptpAt i with syncPending := merase (g.gptpAt i).syncPending p }).gotTime i
        { origin := m.time, corr := m.corr + g.linkDelay i p, rx := rx, seg := sg } (g.rateRatio i p m.rate) := by
  have hp' : ¬ 20 ≤ p := by omega
  simp [Gw.gptpReceive, hon, hp', ht, hr, hw]

/-- The clock that holds the port's peer delay keeps who asked, and answers with the request's stamp. -/
theorem gptpReceive_pdelayReq {j : Nat} (ht : m.typ = 2) (h12 : p < 12) (hr : g.gptpRole i p ≠ 0)
    (hj : j = g.pdOwner i p) :
    ∃ h : Gw, g.gptpReceive i p m = h.gptpSend p
        (h.gptpBytes j p 3 0x0208 m.seq 0 0x7F (ptpStamp (m.rx / 8) ++ beBytes 10 m.source))
        (some (gptpTag 2 j p m.seq)) ∧
      h = g.setGptp j { g.gptpAt j with
        pd := mset (g.gptpAt j).pd p { mgetD (g.gptpAt j).pd p {} with asker := m.source, askSeq := m.seq } } := by
  have hp' : ¬ 20 ≤ p := by omega
  have h12' : ¬ 12 ≤ p := by omega
  subst hj
  exact ⟨_, by simp [Gw.gptpReceive, hon, hp', ht, h12', hr], rfl⟩

end

/-! ### The time that a gPTP clock receives (R409, R410) -/

/-- A gPTP clock once it has received a time in the present segment. -/
def Gptp.timed (x : Gptp) (l : SyncInfo) (rate : Int) : Gptp :=
  { x with last := some l, rate := rate, offset := l.origin * 65536 + l.corr - l.rx, offAt := l.rx }

theorem gotTime_present {g : Gw} {l : SyncInfo} (i : Nat) (rate : Int) (hseg : l.seg = g.tb.seg) : g.gotTime i l rate =
    if g.param Par.tbWorkDom = i then
      (g.setGptp i ((g.gptpAt i).timed l rate)).sourceSample 1 (l.origin * 65536 + l.corr - l.rx)
    else g.setGptp i ((g.gptpAt i).timed l rate) := by
  have hrx : l.rx + fine (g.translate 0 l.seg g.tb.seg) = l.rx := by
    rw [hseg, translate_same]
    exact Int.add_zero _
  simp only [Gw.gotTime, hrx]
  rfl

section
variable {g : Gw} {l : SyncInfo} (i : Nat) (rate : Int) (hseg : l.seg = g.tb.seg)
include hseg

theorem gotTime_gptp : (g.gotTime i l rate).gptp = (g.setGptp i ((g.gptpAt i).timed l rate)).gptp := by
  rw [gotTime_present i rate hseg]
  split
  · rfl
  · rfl

theorem gotTime_sample (hw : g.param Par.tbWorkDom = i) :
    mget? (g.gotTime i l rate).tb.samples 1 = some (l.origin * 65536 + l.corr - l.rx) := by
  rw [gotTime_present i rate hseg, if_pos hw]
  exact mget?_mset_same _ _ _

end

/-- A Follow_Up of a Sync received in the present segment brings the clock its time, and the servo a sample when the
timebase follows that clock. -/
theorem gptpReceive_timed {g : Gw} {i p : Nat} {m : GptpMsg} {l : SyncInfo} (hon : g.gptpOn i = true) (hp : p < 20)
    (ht : m.typ = 1) (hr : g.gptpRole i p = 2)
    (hw : mget? (g.gptpAt i).syncPending p = some (m.seq, l.rx, g.tb.seg))
    (hl : l = ⟨m.time, m.corr + g.linkDelay i p, l.rx, g.tb.seg⟩) :
    (g.gptpReceive i p m).gptp = (g.setGptp i (({ g.gptpAt i with
        syncPending := merase (g.gptpAt i).syncPending p } : Gptp).timed l (g.rateRatio i p m.rate))).gptp ∧
      (g.param Par.tbWorkDom = i →
        mget? (g.gptpReceive i p m).tb.samples 1 = some (l.origin * 65536 + l.corr - l.rx)) := by
  rw [gptpReceive_followUp hon hp ht hr hw, ← hl]
  have hseg : l.seg = g.tb.seg := congrArg SyncInfo.seg hl
  refine ⟨?_, fun hwork => gotTime_sample (g := g.setGptp i _) i _ hseg hwork⟩
  rw [gotTime_gptp (g := g.setGptp i _) i _ hseg, gptpAt_setGptp_same, setGptp_setGptp]

/-! ### What a gPTP clock sends at its intervals (R407, R409, R413) -/

/-- A periodic action waits for its period. -/
theorem every_early {g : Gw} {key period k : Nat} (f : Gw → Gw) (hk : mget? g.timers key = some k)
    (h : g.tb.tick < k + period) : g.every key period f = g := by
  simp [Gw.every, hk, h]

theorem exec_gptpSyncTransmit (i : Nat) (s : State) : exec (.gptpSyncTransmit i) s = .next (s.after
    (if s.gw.gptpOn i then s.gw.every (timerSync i) (logTicks 1 (bits (s.gw.gptpCfg i) 31 24)) (fun g => g.gptpSync i)
      else s.gw)) := rfl

theorem exec_gptpAnnounceTimer (i : Nat) (s : State) : exec (.gptpAnnounceTimer i) s = .next (s.after
    (if s.gw.gptpOn i then s.gw.every (timerAnnounce i) (logTicks 1 (bits (s.gw.gptpCfg i) 23 16))
        (fun g => (g.gptpAnnounce i).spanSend i)
      else s.gw)) := rfl

theorem exec_gptpPdelayTimer (i : Nat) (s : State) : exec (.gptpPdelayTimer i) s = .next (s.after
    (if s.gw.gptpOn i then s.gw.every (timerPdelay i) (logTicks 1 (bits (s.gw.gptpCfg i) 15 8))
        (fun g => g.gptpPdelay i)
      else s.gw)) := rfl

/-- The module once a periodic action has been noted. -/
def Gw.timerSet (g : Gw) (key : Nat) : Gw := { g with timers := mset g.timers key g.tb.tick }

theorem every_acts {g : Gw} {key period : Nat} (f : Gw → Gw)
    (h : ∀ k, mget? g.timers key = some k → k + period ≤ g.tb.tick) : g.every key period f = f (g.timerSet key) :=
  every_due f h

theorem every_cases (g : Gw) (key period : Nat) (f : Gw → Gw) :
    g.every key period f = g ∨ g.every key period f = f (g.timerSet key) := by
  cases hk : mget? g.timers key with
  | none => exact .inr (every_acts f (by simp [hk]))
  | some k =>
    by_cases h : k + period ≤ g.tb.tick
    · exact .inr (every_acts f (by simp [hk, h]))
    · exact .inl (every_early f hk (Nat.not_le.mp h))

/-- The ports whose peer delay a gPTP clock holds. -/
def Gw.pdelayPorts (g : Gw) (i : Nat) : List Nat :=
  (List.range 12).filter (fun q => g.gptpRole i q ≠ 0 && g.pdOwner i q = i)

/-! What a gPTP clock is on its ports does not depend on the timers. -/

section
variable (g : Gw) (key i : Nat)

theorem gptpOn_timerSet : (g.timerSet key).gptpOn i = g.gptpOn i := rfl

theorem gptpMasters_timerSet : (g.timerSet key).gptpMasters i = g.gptpMasters i := rfl

theorem shownRoot_timerSet : (g.timerSet key).shownRoot i = g.shownRoot i := rfl

theorem pdelayPorts_timerSet : (g.timerSet key).pdelayPorts i = g.pdelayPorts i := rfl

end

/-- A gPTP clock that has taken the next sequence number of Sync on a port. -/
def Gptp.syncNext (x : Gptp) (p : Nat) : Gptp :=
  { x with seqSync := mset x.seqSync p ((mgetD x.seqSync p 0 + 1) % 65536) }

def Gptp.announceNext (x : Gptp) (p : Nat) : Gptp :=
  { x with seqAnn := mset x.seqAnn p ((mgetD x.seqAnn p 0 + 1) % 65536) }

/-- A gPTP clock that begins an exchange of peer delay on a port. -/
def Gptp.pdelayNext (x : Gptp) (p : Nat) : Gptp :=
  { x with
    seqPd := mset x.seqPd p ((mgetD x.seqPd p 0 + 1) % 65536)
    pd := mset x.pd p { mgetD x.pd p {} with seq := mgetD x.seqPd p 0, t1 := none, t4 := none } }

section
variable {g : Gw} {i p : Nat} (hon : g.gptpOn i = true)
include hon

theorem gptpSync_one (hr : g.shownRoot i / 2 ^ 104 ≠ 255) (hm : g.gptpMasters i = [p]) :
    g.gptpSync i = (g.setGptp i ((g.gptpAt i).syncNext p)).gptpSend p
      ((g.setGptp i ((g.gptpAt i).syncNext p)).gptpBytes i p 0 0x0208 (mgetD (g.gptpAt i).seqSync p 0) 0
        (bits (g.gptpCfg i) 31 24) (List.replicate 10 0)) (some (gptpTag 0 i p (mgetD (g.gptpAt i).seqSync p 0))) := by
  have hgo : (!g.gptpOn i || decide (g.shownRoot i / 2 ^ 104 = 255)) = false := by rw [hon, decide_eq_false hr]; rfl
  simp only [Gw.gptpSync, hgo, hm]
  rfl

theorem gptpAnnounce_one (hm : g.gptpMasters i = [p]) :
    ∃ bs, g.gptpAnnounce i = (g.setGptp i ((g.gptpAt i).announceNext p)).gptpSend p bs none := by
  simp only [Gw.gptpAnnounce, hon, hm]
  exact ⟨_, rfl⟩

theorem gptpPdelay_one (hm : g.pdelayPorts i = [p]) :
    ∃ bs tag, g.gptpPdelay i = (g.setGptp i ((g.gptpAt i).pdelayNext p)).gptpSend p bs tag := by
  rw [Gw.pdelayPorts] at hm
  simp only [Gw.gptpPdelay, hon, hm]
  exact ⟨_, _, rfl⟩

end

theorem gptpSync_none {g : Gw} {i : Nat} (hm : g.gptpMasters i = []) : g.gptpSync i = g := by
  simp [Gw.gptpSync, hm]

theorem gptpAnnounce_none {g : Gw} {i : Nat} (hm : g.gptpMasters i = []) : g.gptpAnnounce i = g := by
  simp [Gw.gptpAnnounce, hm]

/-- Without a master port, the intervals of Sync and Announce leave Strata and the instances as they are. -/
theorem syncInterval_idle {g : Gw} {i : Nat} (hm : g.gptpMasters i = []) (key period : Nat) :
    (g.every key period (fun g => g.gptpSync i)).str = g.str ∧
      (g.every key period (fun g => g.gptpSync i)).gptp = g.gptp := by
  rcases every_cases g key period (fun g => g.gptpSync i) with h | h
  · rw [h]; exact ⟨rfl, rfl⟩
  · rw [h, gptpSync_none ((gptpMasters_timerSet g key i).trans hm)]; exact ⟨rfl, rfl⟩

theorem announceInterval_idle {g : Gw} {i : Nat} (hm : g.gptpMasters i = []) (key period : Nat) :
    (g.every key period (fun g => (g.gptpAnnounce i).spanSend i)).str = g.str ∧
      (g.every key period (fun g => (g.gptpAnnounce i).spanSend i)).gptp = g.gptp := by
  rcases every_cases g key period (fun g => (g.gptpAnnounce i).spanSend i) with h | h
  · rw [h]; exact ⟨rfl, rfl⟩
  · rw [h, gptpAnnounce_none ((gptpMasters_timerSet g key i).trans hm), spanSend_str, spanSend_gptp]; exact ⟨rfl, rfl⟩

/-- What stands under a gPTP clock after it has sent a message on a port. -/
theorem gptpAt_sent (g : Gw) (i : Nat) (x : Gptp) (p : Nat) (bs : List Byte) (tag : Option Nat) :
    ((g.setGptp i x).gptpSend p bs tag).gptpAt i = x :=
  (gptpAt_congr (gptpSend_gptp _ _ _ _) i).trans (gptpAt_setGptp_same g i x)

end Sys2Proof.Machine
end

section
/-! The statement on time events and gPTP instances. -/

namespace Sys2Proof.Machine

/-- Settles O58, command by command. -/
theorem timeEventsAndInstances : Obligations.TimeEventsAndInstances := by
  refine ⟨?write, ?copy, ?event, ?pulseEnd, ?input, ?ppsOut, ?ppsIn, ?message, ?interval, ?notRun⟩
  case write =>
    intro s n v hn h12
    rw [exec_tevOutArm hn h12, exec_tevOutModeOff hn h12]
    refine ⟨fun hown => ?firmware, fun hown => ⟨⟨_, rfl, ?_, ?_⟩, ⟨_, rfl, ?_, ?_⟩⟩⟩
    case firmware => rw [tevCfgWrite_firmware _ hown, tevCfgWrite_firmware _ hown, after_self]; exact ⟨rfl, rfl⟩
    · rw [tevAt_after, tevCfgWrite_tevAt _ hn hown, cfgWritten_armed _ _ (armed_bit v)]
    · rw [regN_after s _ (tevOutCfg_high n), tevCfgWrite_mode _ hn hown, armed_mode]
    · rw [regN_after s _ (tevOutCfg_high n), tevCfgWrite_mode _ hn hown, off_mode]
    · rw [tevAt_after, tevCfgWrite_tevAt _ hn hown]
      exact ⟨cfgWritten_off _ _ (off_mode v), cfgWritten_pulsing _ _⟩
  case copy =>
    intro s n k hn h12 hk
    rw [exec_tevOutSetCopy hn h12]
    refine ⟨fun hearly => ?early, fun hdue hp hstart => ⟨_, rfl, ?set, ?disarmed⟩⟩
    case early => rw [tevCopy_early hk hearly, after_self]
    case set => rw [tevAt_after, tevCopy_due hk hdue hp hstart, tevAt_setTev_same]
    case disarmed =>
      rw [regN_after s _ (tevOutCfg_high n), tevCopy_due hk hdue hp hstart, regN_setTev, disarmed_bit]
  case event =>
    rintro s n t0 x hn h12 rfl ha ht
    rw [exec_tevOutEvent hn h12]
    refine ⟨fun hdue hmode hp => ?pulse, fun e hdue hmode hp he => ⟨_, rfl, ?_⟩, fun hdue hmode hp => ?toggle,
      fun hearly => ?early⟩
    case pulse => rw [tevEvent_pulse ht ha hdue hmode hp]; rfl
    case toggle => rw [tevEvent_toggle ht ha hdue hmode hp]; rfl
    case early => rw [tevEvent_early ht hearly, after_self]
    · rw [tevAt_after, tevEvent_nextPulse_tevAt ht ha hdue hmode hp he]
      refine ⟨rfl, out_contains_after s ?_⟩
      rw [tevEvent_nextPulse ht ha hdue hmode hp he]
      exact List.mem_append_left _ (tevPulseEnd_pin hp (Int.le_trans he hdue))
  case pulseEnd =>
    intro s n t0 hn h12 hp
    rw [exec_tevOutPulseEnd hn h12]
    refine ⟨fun hdue => ⟨_, rfl, ?level, ?ended, out_contains_after s (tevPulseEnd_pin hp hdue)⟩, fun hearly => ?early⟩
    case early => rw [tevPulseEnd_early hp hearly, after_self]
    all_goals rw [tevAt_after, tevPulseEnd_tevAt hp hdue]
  case input =>
    intro s n ph rise hn h12
    rw [exec_tevInEdge hn h12, exec_tevInEnt0Read hn h12, exec_tevInEnt3Read hn h12]
    refine ⟨fun hoff => ?off, fun hen hedge hl => ⟨_, rfl, ?_⟩, fun w hw => ?read0, fun ha => ⟨_, rfl, ?_⟩⟩
    case off => rw [tevEdge_off rise ph hoff, after_self]
    · rw [tevInAt_after, tevEdge_tevInAt ph hen hedge hl, regN_after s _ (tevInStat_high n)]
      exact ⟨rfl, fun hroom => if_neg (Nat.not_le.mpr hroom),
        fun hfull => ⟨if_pos hfull, tevEdge_full ph hen hedge hl hfull⟩⟩
    case read0 => subst hw; rfl
    · rw [tevInAt_after, tevInRead3_armed ha]
      exact ⟨congrArg TevIn.queue (tevInAt_setTevIn_same _ _ _),
        out_contains_after s (List.mem_append_right _ (List.mem_singleton.mpr rfl))⟩
  case ppsOut =>
    intro s t0 h12 ht
    rw [exec_ppsOutPulse h12]
    refine ⟨fun hdue hopen => ⟨_, rfl, ?_⟩, fun hearly => ?early⟩
    case early => rw [ppsPulse_early ht hearly, after_self]
    · rw [ppsPulse_open ht hdue hopen]
      refine ⟨?_, ?_, out_contains_after s (List.mem_append_right _ (List.mem_singleton.mpr rfl))⟩
      all_goals rw [after_gw, interrupts_tb]; rfl
  case ppsIn =>
    intro s rise ph h12
    rw [exec_ppsInEdge h12]
    refine ⟨fun hen hedge hl => ⟨_, rfl, ?_⟩, fun h1 h2 p => wholeSeconds_other h1 h2 p,
      fun p o h1 ho => wholeSeconds_nearest h1 ho, fun l hl hclose => ?close, fun hoff => ?off⟩
    case close => rw [ppsEdge_close rise hl hclose, after_self]
    case off => rw [ppsEdge_off rise ph hoff, after_self]
    · rw [ppsEdge_stamped hen hedge hl, after_gw, interrupts_tb]
      exact ⟨rfl, bit_or_two_pow_same _ 3, mget?_mset_same _ _ _⟩
  case message =>
    intro s i p m hon hp
    rw [exec_gptpMessage hp]
    refine ⟨fun ht h2 hr hc => ?sync, fun rx ht hr hw => ⟨_, rfl, ?_⟩, fun j ht h12 hr hj => ?request, fun hr => ?idle⟩
    case sync =>
      rw [gptpReceive_sync hon hp ht h2 hr hc, gmWatch_same]
      exact gm_setGptp rfl
    · obtain ⟨hgptp, hsample⟩ := gptpReceive_timed (l := ⟨m.time, m.corr + s.gw.linkDelay i p, rx, s.gw.tb.seg⟩)
        hon hp ht hr hw rfl
      have hgm : ∀ w, ((s.gw.gptpReceive i p m).gptpAt w).gm = (s.gw.gptpAt w).gm := fun w => by
        rw [gptpAt_congr hgptp, gm_setGptp]
        rfl
      rw [gmWatch_same hgm, gptpAt_after,
        gptpAt_congr hgptp, gptpAt_setGptp_same, after_gw, interrupts_tb]
      exact ⟨rfl, rfl, hsample, rfl, rfl⟩
    case request =>
      obtain ⟨h, hsent, hh⟩ := gptpReceive_pdelayReq hon hp ht h12 hr hj
      exact ⟨h, by rw [hsent], hh⟩
    case idle => rw [gptpReceive_idle m (.inr hr), gmWatch_same (fun _ => rfl), after_self]
  case interval =>
    intro s i p g hon
    rw [exec_gptpSyncTransmit, exec_gptpAnnounceTimer, exec_gptpPdelayTimer, if_pos hon, if_pos hon, if_pos hon]
    refine ⟨fun hdue hm hr hg => ?sync, fun k hk h => ?syncEarly, fun hdue hm => ⟨_, rfl, ?announce⟩,
      fun k hk h => ?announceEarly, fun hm => ⟨⟨_, rfl, ?_⟩, ⟨_, rfl, ?_⟩⟩, fun hdue hm => ⟨_, rfl, ?pdelay⟩⟩
    case sync =>
      subst hg
      rw [every_acts _ hdue, gptpSync_one ((gptpOn_timerSet _ _ i).trans hon) (by rwa [shownRoot_timerSet])
        ((gptpMasters_timerSet _ _ i).trans hm)]
      rfl
    case syncEarly => rw [every_early _ hk h, after_self]
    case announce =>
      obtain ⟨bs, hsent⟩ := gptpAnnounce_one ((gptpOn_timerSet s.gw (timerAnnounce i) i).trans hon)
        ((gptpMasters_timerSet _ _ i).trans hm)
      rw [gptpAt_after, every_acts _ hdue, gptpAt_congr (spanSend_gptp _ _), hsent, gptpAt_sent]
      exact mget?_mset_same _ _ _
    case announceEarly => rw [every_early _ hk h, after_self]
    · rw [after_gw, interrupts_str, interrupts_gptp]
      exact syncInterval_idle hm _ _
    · rw [after_gw, interrupts_str, interrupts_gptp]
      exact announceInterval_idle hm _ _
    case pdelay =>
      obtain ⟨bs, tag, hsent⟩ := gptpPdelay_one ((gptpOn_timerSet s.gw (timerPdelay i) i).trans hon)
        ((pdelayPorts_timerSet _ _ i).trans hm)
      rw [gptpAt_after, every_acts _ hdue, hsent, gptpAt_sent]
      exact ⟨mget?_mset_same _ _ _, congrArg PeerDelay.seq (mgetD_mset_same _ _ _ _)⟩
  case notRun =>
    intro s i p m hoff hp
    rw [exec_gptpMessage hp, exec_gptpSyncTransmit, exec_gptpAnnounceTimer, exec_gptpPdelayTimer,
      gptpReceive_idle m (.inl hoff), gmWatch_same (fun _ => rfl), hoff, after_self]
    exact ⟨rfl, congrArg _ (after_self s), congrArg _ (after_self s), congrArg _ (after_self s)⟩

end Sys2Proof.Machine
end

section
/-! SUPPORT. Side messages that arrive (R449–R455), time words and echoes (R414, R415, R454), and chain-wide
steps (R417). -/

namespace Sys2Proof.Machine

/-! ### Chunks on a port (R449, R450, R455) -/

theorem exec_sideMessageReceive (k : Nat) (m : SideMsg) (chunks : List (List Byte)) (ago : Nat) (s : State) :
    exec (.sideMessageReceive k m chunks ago) s = .next (s.after (s.gw.sideReceive k m chunks ago)) := rfl

theorem sideReceive_unaligned {g : Gw} {k : Nat} (m : SideMsg) (chunks : List (List Byte)) (ago : Nat)
    (h : (g.chainAt k).aligned = false) : g.sideReceive k m chunks ago = g := if_pos (by rw [h]; exact Bool.or_true _)

/-- Chunks that arrive fill the unfinished messages of a port. -/
theorem foldl_takeChunk_shape (chunks : List (List Byte)) (x : ChainPort) :
    ∃ ps, chunks.foldl ChainPort.takeChunk x = { x with part := ps } := by
  induction chunks generalizing x with
  | nil => exact ⟨x.part, rfl⟩
  | cons c r ih =>
    obtain ⟨ps, h⟩ := ih (x.takeChunk c)
    refine ⟨ps, h.trans ?_⟩
    unfold ChainPort.takeChunk
    split
    · rfl
    · rfl

section
variable {g h : Gw} {k ago c : Nat} {m : SideMsg} {chunks : List (List Byte)} {y : ChainPort} {mark : Int}
  (hused : g.chainUsed k = true) (hal : (g.chainAt k).aligned = true) (hlen : (chunks.headD []).length = 7)
  (hsom : chunkSom (chunks.headD []) = true) (hc : c = chunkCls (chunks.getLastD []))
  (hmark : mark = ((g.tb.acc.toNat / 16777216 : Nat) : Int) - ((ago * g.tb.incr / (250 * 16777216) : Nat) : Int))
  (hy : y = { chunks.foldl ChainPort.takeChunk (g.chainAt k) with mark := mark })
  (hh : h = (g.setChain k { y with part := merase y.part c }).bump (Reg.chnScRx k))
include hused hal hlen hsom hc hmark hy

include hh

/-- A message that has begun waits for its last chunk; then its check sum decides. -/
theorem sideReceive_begun : g.sideReceive k m chunks ago =
    if !chunkEom (chunks.getLastD []) || c = 7 then g.setChain k y
    else if !sideCrcOk (y.partOf c) then h.bump (Reg.chnScCrc k)
    else if m.cls = c && y.partOf c = sideWire m then h.sideTake k m else g := by
  have hstart : (decide ((chunks.headD []).length = 7) && chunkSom (chunks.headD [])) = true := by rw [hsom, hlen]; rfl
  subst hc hmark hy hh
  unfold Gw.sideReceive
  dsimp only
  rw [if_neg (by rw [hused, hal]; decide), if_pos hstart]
  rfl

theorem sideReceive_partial (he : chunkEom (chunks.getLastD []) = false ∨ c = 7) :
    g.sideReceive k m chunks ago = g.setChain k y := by
  rw [sideReceive_begun hused hal hlen hsom hc hmark hy hh, if_pos]
  rcases he with he | he
  · rw [he]; rfl
  · rw [he]; exact Bool.or_true _

variable (he : chunkEom (chunks.getLastD []) = true) (h7 : c ≠ 7)
include he h7

theorem sideReceive_badCrc (hcrc : sideCrcOk (y.partOf c) = false) :
    g.sideReceive k m chunks ago = h.bump (Reg.chnScCrc k) := by
  rw [sideReceive_begun hused hal hlen hsom hc hmark hy hh, if_neg (by rw [he, decide_eq_false h7]; decide),
    if_pos (by rw [hcrc]; rfl)]

theorem sideReceive_whole (hcrc : sideCrcOk (y.partOf c) = true) (hcls : m.cls = c) (hwire : y.partOf c = sideWire m) :
    g.sideReceive k m chunks ago = h.sideTake k m := by
  rw [sideReceive_begun hused hal hlen hsom hc hmark hy hh, if_neg (by rw [he, decide_eq_false h7]; decide),
    if_neg (by rw [hcrc]; decide), if_pos (by rw [decide_eq_true hcls, decide_eq_true hwire]; rfl)]

omit hused hal hlen hsom hc hmark he h7

/-- The module that has a whole message carries what it carried. -/
theorem received_mayCarry (j : Nat) (m' : SideMsg) : h.mayCarry j m' = g.mayCarry j m' := by
  have hat : h.chainAt j = if j = k then { y with part := merase y.part c } else g.chainAt j := by
    rw [hh]
    exact chainAt_setChain g j k _
  obtain ⟨ps, hps⟩ := foldl_takeChunk_shape chunks (g.chainAt k)
  rw [hps] at hy
  have hport : (h.chainAt j).aligned = (g.chainAt j).aligned ∧ (h.chainAt j).state = (g.chainAt j).state ∧
      (h.chainAt j).blocked = (g.chainAt j).blocked := by
    rw [hat]
    split
    · next hj =>
      rw [hj, hy]
      exact ⟨rfl, rfl, rfl⟩
    · exact ⟨rfl, rfl, rfl⟩
  obtain ⟨hal, hst, hbl⟩ := hport
  exact mayCarry_congr (by rw [hh]; rfl) (by rw [hh]; rfl) hal hst hbl m'

omit hy

theorem received_mark (hmk : y.mark = mark) : (h.chainAt k).mark = mark := by
  subst hh
  exact (congrArg ChainPort.mark (chainAt_setChain_same _ _ _)).trans hmk

theorem received_chnAddr : h.chnAddr = g.chnAddr := by
  subst hh
  exact param_congr (g := g) rfl _

theorem received_routeTo (a : Nat) : h.routeTo a = g.routeTo a := by
  subst hh
  rfl

end

/-! ### A whole message (R451, R455) -/

section
variable {g : Gw} {k : Nat} {m : SideMsg}

theorem sideTake_dropped (h : 4 ≤ m.cls ∨ g.mayCarry k m = false) : g.sideTake k m = g.bump (Reg.chnScDrop k) :=
  if_pos (by simpa using h)

section
variable (hcls : m.cls < 4) (hcarry : g.mayCarry k m = true)
include hcls hcarry

theorem sideTake_carried : g.sideTake k m =
    if m.cls ≤ 1 then g.terminate k (g.chainAt k).mark m
    else if m.dst = g.chnAddr && g.chnAddr ≠ 0 then
      if m.cls = 2 && m.typ = 0 && !g.islOn 10 then g.refuse k m 2
      else if m.cls = 2 && m.typ = 0 && 64 ≤ g.requestsHeld then g.refuse k m 7
      else g.terminate k (g.chainAt k).mark m
    else if m.dst = 0xFFF then g.terminate k (g.chainAt k).mark m
    else match g.routeTo m.dst with
      | some out => if m.cls = 3 && m.typ = 2 then g.terminate k (g.chainAt k).mark m else g.passOn k out m
      | none => if m.cls = 2 && m.typ = 0 then g.refuse k m 6 else g.bump (Reg.chnScDrop k) :=
  if_neg (by simp [hcls, hcarry])

end

theorem sideTake_control (hcls : m.cls ≤ 1) (hcarry : g.mayCarry k m = true) :
    g.sideTake k m = g.terminate k (g.chainAt k).mark m := by
  rw [sideTake_carried (by omega) hcarry, if_pos hcls]

theorem sideTake_own (hcls : m.cls = 3) (hcarry : g.mayCarry k m = true) (hdst : m.dst = g.chnAddr)
    (h0 : g.chnAddr ≠ 0) :
    g.sideTake k m = g.terminate k (g.chainAt k).mark m := by
  rw [sideTake_carried (by omega) hcarry, if_neg (by omega), if_pos (by simp [hdst, h0]), if_neg (by simp [hcls]),
    if_neg (by simp [hcls])]

theorem sideTake_onward {o : Nat} (hcls : m.cls = 2 ∨ (m.cls = 3 ∧ m.typ ≠ 2)) (hcarry : g.mayCarry k m = true)
    (hdst : m.dst ≠ g.chnAddr) (hall : m.dst ≠ 0xFFF) (hroute : g.routeTo m.dst = some o) :
    g.sideTake k m = g.passOn k o m := by
  have hstay : ¬(decide (m.cls = 3) && decide (m.typ = 2)) = true := by
    rcases hcls with h | ⟨-, h⟩ <;> simp [h]
  rw [sideTake_carried (by omega) hcarry, if_neg (by omega), if_neg (by simp [hdst]), if_neg hall, hroute]
  exact if_neg hstay

theorem passOn_dropped {o : Nat} (h : m.hops ≤ 1 ∨ g.mayCarry o m = false) :
    g.passOn k o m = g.bump (Reg.chnScDrop k) :=
  if_pos (by simpa using h)

theorem passOn_sent {o : Nat} (hhops : 1 < m.hops) (h : g.mayCarry o m = true) :
    g.passOn k o m = g.sideSend o { m with hops := m.hops - 1 } := if_neg (by simp [h, hhops])

end

/-! ### Waiting messages -/

/-- The module with another list of waiting messages. -/
def Gw.withInbox (g : Gw) (l : List Inbound) : Gw := { g with chn := { g.chn with inbox := l } }

theorem takeMsg_shape {g g' : Gw} {cls typ : Nat} {x : Inbound} (h : g.takeMsg cls typ = some (x, g')) :
    ∃ l, g' = g.withInbox l := by
  obtain ⟨r, -, hr⟩ := Option.map_eq_some_iff.mp h
  exact ⟨r.2, (congrArg Prod.snd hr).symm⟩

/-! ### Time words and their echoes (R414, R415, R454) -/

theorem exec_chainTimeWordSend (k : Nat) (s : State) :
    exec (.chainTimeWordSend k) s = .next (s.after (s.gw.wordSend k)) := rfl

theorem exec_chainTimeWordReceive (s : State) : exec .chainTimeWordReceive s = .next (s.after s.gw.wordReceive) := rfl

theorem exec_timeWordEcho (s : State) : exec .timeWordEcho s = .next (s.after s.gw.echoReceive) := rfl

section
variable {g : Gw} {k e : Nat} {m : SideMsg} (h12 : g.islOn 12 = true) (he : e = g.tickNo / 65536)
include he

theorem wordSend_late (h : (g.chainAt k).nextSide g.tb.tick ≠ (g.chainAt k).nextSide (g.tb.start + 65536 * e) ∨
    (g.chainAt k).lastWord = some e) : g.wordSend k = g := by
  subst he
  exact if_pos (by rcases h with h | h <;> simp [h])

include h12

/-- The first side block of an epoch takes the time word of the epoch. -/
theorem wordSend_first
    (hm : m = { cls := 0, typ := 0, src := g.chnAddr,
                body := [(e : Int), g.wordTime k, ((g.tb.seg % 65536 : Nat) : Int)] })
    (hfirst : (g.chainAt k).nextSide g.tb.tick = (g.chainAt k).nextSide (g.tb.start + 65536 * e))
    (hlast : (g.chainAt k).lastWord ≠ some e) (hcarry : g.mayCarry k m = true) :
    g.wordSend k = (g.setChain k { g.chainAt k with
      wordSent := some (e, g.wordTime k), lastWord := some e }).sideSend k m := by
  subst he hm
  exact (if_neg (by simp [h12, hfirst, hlast])).trans (if_pos hcarry)

end

theorem mayCarry_setChain_word (g : Gw) (k : Nat) (w : Option (Nat × Int)) (l : Option Nat) (m : SideMsg) :
    (g.setChain k { g.chainAt k with wordSent := w, lastWord := l }).mayCarry k m = g.mayCarry k m := by
  refine mayCarry_congr (by rfl) (by rfl) ?_ ?_ ?_ m <;> rw [chainAt_setChain_same]

theorem upstream_congr {g h : Gw} (hreach : h.chn.reach = g.chn.reach) (hp : h.params = g.params) :
    h.upstream = g.upstream := by
  have hroute : h.routeTo = g.routeTo := by funext a; simp only [Gw.routeTo, hreach]
  simp only [Gw.upstream, Gw.chnAddr, hreach, param_congr hp, hroute]
  rfl

theorem markAt_congr {g h : Gw} (heth : h.eth = g.eth) (x : Inbound) : h.markAt x = g.markAt x := by
  simp only [Gw.markAt, Gw.ethAt, heth]

theorem Sends.upstream {g h : Gw} (a : Sends g h) : h.upstream = g.upstream := upstream_congr a.reach a.params

theorem Sends.delayDown {g h : Gw} (a : Sends g h) (k : Nat) : h.delayDown k = g.delayDown k := by
  obtain ⟨_, hport⟩ := a.port k
  simp only [Gw.delayDown, Gw.paramI, param_congr a.params, hport]

section
variable (g : Gw) (l : List Inbound)

theorem upstream_withInbox : (g.withInbox l).upstream = g.upstream := upstream_congr rfl rfl

theorem delayDown_withInbox (k : Nat) : (g.withInbox l).delayDown k = g.delayDown k := rfl

theorem markAt_withInbox (x : Inbound) : (g.withInbox l).markAt x = g.markAt x := markAt_congr rfl x

end

/-- A time word is echoed, and from upstream it is a sample. -/
theorem wordReceive_taken {g g' : Gw} {x : Inbound} (h : g.takeMsg 0 0 = some (x, g')) : ∃ h', Sends g' h' ∧
    g.wordReceive = if g.upstream = some x.port then
      h'.sourceSample 2 (x.msg.body.getD 1 0 + g.delayDown x.port - g.markAt x) else h' := by
  obtain ⟨l, rfl⟩ := takeMsg_shape h
  rw [← upstream_withInbox g l, ← delayDown_withInbox g l, ← markAt_withInbox g l]
  generalize g.withInbox l = g' at h ⊢
  have hs := sends_sideSend g' x.port { cls := 0, typ := 1, src := g'.chnAddr, body :=
    [x.msg.body.getD 0 0, (g'.wordTime x.port - g'.markAt x) / 8192] }
  simp only [Gw.wordReceive, h]
  generalize g'.sideSend _ _ = h' at hs ⊢
  exact ⟨h', hs, by rw [hs.upstream, hs.delayDown, markAt_congr hs.eth]⟩

theorem wordReceive_none {g : Gw} (h : g.takeMsg 0 0 = none) : g.wordReceive = g := by
  simp only [Gw.wordReceive, h]

theorem echoReceive_none {g : Gw} (h : g.takeMsg 0 1 = none) : g.echoReceive = g := by
  simp only [Gw.echoReceive, h]

/-- Half of the round trip of a word less the turnaround is the delay of the link. -/
theorem echoReceive_taken {g g' : Gw} {x : Inbound} {e : Nat} {t : Int} (h : g.takeMsg 0 1 = some (x, g'))
    (hsent : (g'.chainAt x.port).wordSent = some (e, t)) (hword : x.msg.body.getD 0 0 = (e : Int)) :
    g.echoReceive = g'.setChain x.port { g'.chainAt x.port with
      delay := (g'.markAt x - t - x.msg.body.getD 1 0 * 8192) / 2, wordSent := none } := by
  simp only [Gw.echoReceive, h, hsent]
  exact if_pos hword

/-! ### Calibration (R415) -/

theorem exec_chainCalibration (k rx tx : Nat) (s : State) : exec (.chainCalibration k rx tx) s = .next (s.after
    (if s.gw.chainUsed k then s.gw.every (timerCal k) (s.gw.param Par.chnCalPeriodMs * ticksPerMs)
      (fun g => g.setEth (12 + k) { g.ethAt (12 + k) with rxCal := rx, txCal := tx }) else s.gw)) := rfl

/-! ### Steps of the whole chain (R417) -/

theorem exec_chainStepAnnounce (s : State) : exec .chainStepAnnounce s = .next (s.after
    (if s.gw.pairRuns 0 then s.gw.stepAnnounce else s.gw)) := rfl

/-- A step that another module announces goes on along the chain and is scheduled. -/
theorem stepAnnounce_taken {g g' : Gw} {x : Inbound} (h : g.takeMsg 1 4 = some (x, g'))
    (hsrc : x.msg.src ≠ g'.chnAddr) :
    ∃ h', Sends g' h' ∧ g.stepAnnounce = h'.announced (x.msg.body.getD 0 0) (8 * x.msg.body.getD 1 0) := by
  have hs := sends_floodOn g' x
  refine ⟨_, hs, ?_⟩
  have haddr : (g'.floodOn x).chnAddr = g'.chnAddr := hs.param _
  simp only [Gw.stepAnnounce, h]
  exact if_neg (haddr ▸ hsrc)

theorem stepBusy_congr {g h : Gw} (htb : h.tb = g.tb) (hstr : h.str = g.str) : h.stepBusy = g.stepBusy := by
  simp only [Gw.stepBusy, htb, hstr]

theorem announced_free {g : Gw} (delta : Int) (t : Stamp) (h : g.stepBusy = false) :
    (g.announced delta t).tb.step = some ⟨delta, g.boundary g.tb.tick, some t, none⟩ :=
  congrArg (fun g : Gw => g.tb.step) (if_neg (by rw [h]; decide) : g.announced delta t = g.askStep delta (some t) none)

theorem announced_busy {g : Gw} (delta : Int) (t : Stamp) (h : g.stepBusy = true) :
    g.announced delta t = { g with tb := { g.tb with stepQueue := g.tb.stepQueue ++ [⟨delta, 0, some t, none⟩] } } :=
  if_pos h

end Sys2Proof.Machine
end

section
/-! SUPPORT. Alignment and state of chain ports (R448, R459), hellos, the reach table (R459–R461), and rings (R465,
R466). -/

namespace Sys2Proof.Machine

/-! ### Alignment (R448) -/

section
variable {s : State} {k : Nat} (hused : s.gw.chainUsed k = true)
include hused

/-- A used port that gains alignment: its link may come up, and its calibration is due. -/
theorem exec_blockAlignment (h : (s.gw.chainAt k).aligned = false) : exec (.blockAlignment k) s = .next (s.after
    (({ s.gw with timers := merase s.gw.timers (timerCal k) }.setChain k
      { s.gw.chainAt k with aligned := true, failed := false, alignedAt := s.gw.tb.tick }).chainLink (12 + k))) :=
  answer_of_withGw (congrArg s.withGw (if_neg (by rw [hused, h]; decide)))

omit hused in
theorem exec_blockAlignment_aligned (h : (s.gw.chainAt k).aligned = true) : exec (.blockAlignment k) s = .next s :=
  (answer_of_withGw (congrArg s.withGw (if_pos (by rw [h]; exact Bool.or_true _)))).trans (by rw [after_self])

theorem exec_alignmentLost (h : (s.gw.chainAt k).aligned = true) : exec (.alignmentLost k) s = .next (s.after
    (s.gw.setChain k { s.gw.chainAt k with aligned := false, lackSince := s.gw.tb.tick, sendQ := [] })) :=
  answer_of_withGw (congrArg s.withGw (if_pos (by rw [hused, h]; rfl)))

omit hused

theorem exec_alignmentLost_unaligned (h : (s.gw.chainAt k).aligned = false) : exec (.alignmentLost k) s = .next s :=
  (answer_of_withGw (congrArg s.withGw (if_neg (by rw [h, Bool.and_false]; decide)))).trans (by rw [after_self])

end

theorem chainLink_chainAt (g : Gw) (p k : Nat) : (g.chainLink p).chainAt k = g.chainAt k := by
  unfold Gw.chainLink
  dsimp only
  split
  · rfl
  · rfl

/-- An aligned port that no ADMIN_DOWN holds has link. -/
theorem chainLink_link {g : Gw} {k : Nat} (ha : (g.chainAt k).aligned = true)
    (hdown : (g.ethAt (12 + k)).adminDown = false) :
    ((g.chainLink (12 + k)).ethAt (12 + k)).link = true := by
  cases hlink : (g.ethAt (12 + k)).link with
  | true => simp [Gw.chainLink, hlink]
  | false =>
    rw [chainLink_rises (by omega) (by rwa [Nat.add_sub_cancel_left]) hdown hlink, linkRises_ethAt_same]

/-! ### What floods and ring faults leave alone (R465) -/

/-- From `g` to `h` the ports changed in their queues only, and the flags of the chain did not. -/
structure Floods (g h : Gw) : Prop where
  port : ∀ j, ∃ q, h.chainAt j = { g.chainAt j with sendQ := q }
  chnFlag : h.regN Reg.chnFlag = g.regN Reg.chnFlag

namespace Floods

theorem refl (g : Gw) : Floods g g := ⟨fun _ => ⟨_, rfl⟩, rfl⟩

theorem trans {g h k : Gw} (a : Floods g h) (b : Floods h k) : Floods g k where
  port j := by
    obtain ⟨_, e⟩ := a.port j
    obtain ⟨q, e'⟩ := b.port j
    exact ⟨q, by rw [e', e]⟩
  chnFlag := b.chnFlag.trans a.chnFlag

end Floods

theorem floods_floodFailover (g : Gw) (t : Stamp) : Floods g (g.floodFailover t) :=
  have hs := sends_floodOwn g 2 [1, t]
  ⟨hs.port, hs.chnFlag⟩

theorem floodFailover_faultBy (g : Gw) (t : Stamp) : (g.floodFailover t).chn.faultBy = g.chn.faultBy :=
  (sends_floodOwn g 2 [1, t]).faultBy

/-- A change of the firmware's own joins the queue. -/
theorem fwChangeAt_changes (g : Gw) (c : FwChange) (t : Stamp) : ∃ x : Change, x.act = .firmware c ∧
    (g.fwChangeAt c t).str.changes = g.str.changes ++ [x] ∧ (x.t = t ∨ x.t = g.soonest) := by
  refine ⟨_, rfl, rfl, ?_⟩
  dsimp only
  split
  · exact .inr rfl
  · exact .inl rfl

theorem autoFailover_cases (g : Gw) : g.autoFailover = g ∨ g.autoFailover = g.floodFailover g.soonest := by
  unfold Gw.autoFailover
  dsimp only
  split
  · exact .inr rfl
  · exact .inl rfl

theorem floods_autoFailover (g : Gw) : Floods g g.autoFailover := by
  rcases autoFailover_cases g with h | h
  · rw [h]; exact .refl g
  · rw [h]; exact floods_floodFailover g _

theorem autoFailover_faultBy (g : Gw) : g.autoFailover.chn.faultBy = g.chn.faultBy := by
  rcases autoFailover_cases g with h | h
  · rw [h]
  · rw [h, floodFailover_faultBy]

/-- The owner of an automatic ring has a failover in its queue. -/
theorem autoFailover_queued {g : Gw} (hown : g.ringOwner = true) (hauto : g.param Par.chnRingAuto = 1)
    (hover : g.chn.failedOver = false) (hfw : g.fw.state ≠ .handover) :
    ∃ c ∈ g.autoFailover.str.changes, c.act = .firmware .ringFailover := by
  cases hwaits : g.str.changes.any (fun c => c.act = .firmware .ringFailover) with
  | true =>
    obtain ⟨c, hc, hact⟩ := List.any_eq_true.mp hwaits
    rw [show g.autoFailover = g from if_neg (by simp [hwaits])]
    exact ⟨c, hc, of_decide_eq_true hact⟩
  | false =>
    obtain ⟨c, hact, hq, -⟩ := fwChangeAt_changes (g.floodOwn 2 [1, g.soonest]) .ringFailover g.soonest
    rw [show g.autoFailover = g.floodFailover g.soonest from if_pos (by simp [hown, hauto, hover, hwaits, hfw])]
    exact ⟨c, by rw [Gw.floodFailover, hq]; exact List.mem_append_right _ (List.mem_singleton.mpr rfl), hact⟩

/-- A member that has found a fault reports it through its other port. -/
def Gw.faultSent (g : Gw) (k : Nat) : Gw :=
  ({ g with chn := { g.chn with faultBy := some g.chnAddr } } : Gw).sideSend (1 - k)
    { cls := 1, typ := 2, dst := 0xFFF, src := g.chnAddr, hops := 4094, body := [0] }

theorem sends_faultSent (g : Gw) (k : Nat) :
    Sends { g with chn := { g.chn with faultBy := some g.chnAddr } } (g.faultSent k) := sends_sideSend _ _ _

theorem ringFaultFound_member {g : Gw} (k : Nat) (hm : g.ringMember = true) (hp : g.pairRuns 0 = true) :
    g.ringFaultFound k = (g.faultSent k).autoFailover := if_neg (by rw [hm, hp]; decide)

theorem floods_ringFaultFound (g : Gw) (k : Nat) : Floods g (g.ringFaultFound k) := by
  by_cases h : (!g.ringMember || !g.pairRuns 0) = true
  · rw [show g.ringFaultFound k = g from if_pos h]
    exact .refl g
  · rw [show g.ringFaultFound k = (g.faultSent k).autoFailover from if_neg h]
    have hs := sends_faultSent g k
    exact Floods.trans ⟨hs.port, hs.chnFlag⟩ (floods_autoFailover _)

/-! ### A port that goes down (R448, R459) -/

/-- A port leaves its state, and the addresses behind it are no longer reached through it. -/
def Gw.reachLost (g : Gw) (k : Nat) : Gw :=
  let reach := g.chn.reach.map (fun (q : Nat × Reach) =>
    (q.1, if k = 0 then { q.2 with hops0 := none } else { q.2 with hops1 := none }))
  let g := g.setChain k { g.chainAt k with state := 0 }
  { g with chn := { g.chn with reach := reach.filter (fun q => q.2.best.isSome) } }

/-- In a run, what a port that goes down has to send is undefined. -/
def Gw.egressLost (g : Gw) (k : Nat) : Gw :=
  if g.str.run then { g with undefEgress := g.undefEgress ||| 2 ^ (14 + k) } else g

theorem egressLost_shape (g : Gw) (k : Nat) : ∃ u, g.egressLost k = { g with undefEgress := u } := by
  unfold Gw.egressLost
  split
  · exact ⟨_, rfl⟩
  · exact ⟨g.undefEgress, rfl⟩

theorem chainDown_up {g : Gw} {k : Nat} (h : (g.chainAt k).state ≠ 0) :
    g.chainDown k = ((g.reachLost k).egressLost k).ringFaultFound k := if_neg h

theorem chainDown_spec (g : Gw) (k : Nat) : ((g.chainDown k).chainAt k).state = 0 ∧
    ((g.chainDown k).chainAt k).failed = (g.chainAt k).failed ∧
    (g.chainDown k).regN Reg.chnFlag = g.regN Reg.chnFlag := by
  by_cases h0 : (g.chainAt k).state = 0
  · rw [show g.chainDown k = g from if_pos h0]
    exact ⟨h0, rfl, rfl⟩
  · rw [chainDown_up h0]
    obtain ⟨u, hu⟩ := egressLost_shape (g.reachLost k) k
    have hport : ((g.reachLost k).egressLost k).chainAt k = { g.chainAt k with state := 0 } := by
      rw [hu]
      exact chainAt_setChain_same _ _ _
    have hflag : ((g.reachLost k).egressLost k).regN Reg.chnFlag = g.regN Reg.chnFlag := by
      rw [hu]
      rfl
    obtain ⟨hports, hkept⟩ := floods_ringFaultFound ((g.reachLost k).egressLost k) k
    obtain ⟨q, hq⟩ := hports k
    rw [hq, hport]
    exact ⟨rfl, rfl, hkept.trans hflag⟩

theorem exec_chainPortFail (k : Nat) (s : State) : exec (.chainPortFail k) s = .next (s.after (s.gw.portFail k)) := rfl

section
variable {g : Gw} {k : Nat}

theorem portFail_early (h : g.tb.tick < (g.chainAt k).lackSince + g.param Par.chnFailUs * ticksPerUs) :
    g.portFail k = g :=
  if_pos (by rw [decide_eq_true h]; exact Bool.or_true _)

/-- A used port that has lacked alignment too long is failed, flagged and down. -/
theorem portFail_due (hused : g.chainUsed k = true) (ha : (g.chainAt k).aligned = false)
    (hf : (g.chainAt k).failed = false) (h : (g.chainAt k).lackSince + g.param Par.chnFailUs * ticksPerUs ≤ g.tb.tick) :
    ((g.portFail k).chainAt k).failed = true ∧ ((g.portFail k).chainAt k).state = 0 ∧
      bit ((g.portFail k).regN Reg.chnFlag) 26 = true := by
  have hrun : ∃ g' : Gw, (g'.chainAt k).failed = true ∧ bit (g'.regN Reg.chnFlag) 26 = true ∧
      Floods (g'.chainDown k) (g.portFail k) := by
    refine ⟨((g.setChain k { g.chainAt k with failed := true }).bump (Reg.chnFail k)).flag Reg.chnFlag 0x04000000,
      congrArg ChainPort.failed (chainAt_setChain_same _ _ _), bit_regN_flag_of_mask _ _ (by decide) (by decide), ?_⟩
    unfold Gw.portFail
    dsimp only
    rw [if_neg (by simp [hused, ha, hf, h])]
    split
    · exact .refl _
    · exact floods_ringFaultFound _ _
  obtain ⟨g', hfailed, hflag, hports, hkept⟩ := hrun
  obtain ⟨hst, hfail, hflag'⟩ := chainDown_spec g' k
  obtain ⟨q, hq⟩ := hports k
  rw [hq, hkept, hflag']
  exact ⟨hfail.trans hfailed, hst, hflag⟩

end

/-! ### Hellos (R459) -/

theorem exec_helloTimeout (k : Nat) (s : State) : exec (.helloTimeout k) s = .next (s.after
    (if k < 2 && (s.gw.chainAt k).state ≠ 0 && (s.gw.chainAt k).helloTick + s.gw.helloLimit ≤ s.gw.tb.tick
      then s.gw.chainDown k else s.gw)) := rfl

/-- The hello that the module sends. -/
def Gw.ownHello (g : Gw) : SideMsg :=
  { cls := 1, typ := 0, src := g.chnAddr,
    body := [g.chnAddr, g.chn.role, moduleIdentity, g.chainVersion].map Int.ofNat }

theorem exec_helloTimer (s : State) : exec .helloTimer s = .next (s.after
    (if !s.gw.pairRuns 0 then s.gw
      else s.gw.every timerHello (s.gw.param Par.chnHelloMs * ticksPerMs) (fun g => g.sendBoth g.ownHello))) := rfl

theorem exec_helloReceive (s : State) : exec .helloReceive s = .next (s.after
    (if s.gw.pairRuns 0 then s.gw.helloReceive else s.gw)) := rfl

section
variable {g g' : Gw} {x : Inbound} {v : Nat} (h : g.takeMsg 1 0 = some (x, g'))
  (ha : (g'.chainAt x.port).aligned = true) (hl : g'.linkUp (12 + x.port) = true) (hv : v = (x.msg.body.getD 3 0).toNat)
include h ha hl hv

/-- A hello over a port with link sets its neighbour and its state. -/
theorem helloReceive_taken : ∃ y : ChainPort, g.helloReceive.chainAt x.port = y ∧ y.helloTick = g'.tb.tick ∧
    y.nbrAddr = (x.msg.body.getD 0 0).toNat ∧
    y.state = (if v ≤ g'.chainVersion + 1 && g'.chainVersion ≤ v + 1 then 1 else 2) ∧
    g.helloReceive.regN Reg.chnFlag = (if v ≤ g'.chainVersion + 1 && g'.chainVersion ≤ v + 1 then g'
      else g'.flag Reg.chnFlag 0x40000000).regN Reg.chnFlag := by
  subst hv
  simp only [Gw.helloReceive, h, ha, hl]
  refine ⟨_, chainAt_setChain_same _ _ _, ?_, rfl, rfl, rfl⟩
  dsimp only
  split
  · rfl
  · rfl

end

/-! ### Topology (R460–R462) -/

/-- The announcement of the module's own. -/
def Gw.ownTopology (g : Gw) : List Int :=
  [g.chnAddr, moduleIdentity, g.chn.role, g.ringOwner.toNat, g.param Par.tbTimeRoot, g.chainVersion,
    (if (g.chainAt 0).state = 1 then (g.chainAt 0).nbrAddr else 0),
    (if (g.chainAt 1).state = 1 then (g.chainAt 1).nbrAddr else 0)].map Int.ofNat

theorem exec_topologyAnnounceTimer (s : State) : exec .topologyAnnounceTimer s = .next (s.after
    (if !s.gw.pairRuns 0 then s.gw
      else s.gw.every timerTopology (s.gw.param Par.chnHelloMs * ticksPerMs)
        (fun g => g.floodOwn 1 g.ownTopology))) := rfl

theorem exec_topologyAnnounceReceive (s : State) : exec .topologyAnnounceReceive s = .next (s.after
    (if s.gw.pairRuns 0 then s.gw.topology else s.gw)) := rfl

section
variable {g g' : Gw} {x : Inbound} {a : Nat} (h : g.takeMsg 1 1 = some (x, g'))
  (hb : (g'.chainAt x.port).blocked = false) (ha : a = (x.msg.body.getD 0 0).toNat) (h0 : a ≠ 0)
include h hb ha h0

/-- The first announcement of an address makes its reach entry. -/
theorem topology_new (hother : a ≠ g'.chnAddr) (hnew : mget? g'.chn.reach a = none) :
    ∃ r, mget? g.topology.chn.reach a = some r ∧ r.ident = (x.msg.body.getD 1 0).toNat ∧ r.dup = false ∧
      (if x.port = 0 then r.hops0 else r.hops1) = some (4095 - x.msg.hops, g'.tb.tick) := by
  subst ha
  simp only [Gw.topology, h, hb, hother, h0, mgetD, hnew, Option.getD_none, ne_eq, not_true_eq_false, decide_false,
    Bool.false_and, Bool.false_or, Bool.false_eq_true, if_false, (sends_passOn _ _ _ _).reach, mget?_mset_same]
  refine ⟨_, rfl, rfl, rfl, ?_⟩
  split <;> rfl

/-- A foreign identity at the module's own address is flagged. -/
theorem topology_clash (hown : a = g'.chnAddr) (hid : (x.msg.body.getD 1 0).toNat ≠ moduleIdentity) :
    bit (g.topology.regN Reg.chnFlag) 31 = true ∧ g.topology.chn.reach = g'.chn.reach := by
  have hs : Sends ((g'.flag Reg.chnFlag 0x80000000).note "duplicate address" [a]) g.topology := by
    have heq : g.topology =
        ((g'.flag Reg.chnFlag 0x80000000).note "duplicate address" [a]).passOn x.port (1 - x.port) x.msg := by
      subst ha
      simp only [Gw.topology, h, hb, hown, hid, hown ▸ h0]
      rfl
    rw [heq]
    exact sends_passOn _ _ _ _
  rw [hs.chnFlag, hs.reach]
  exact ⟨bit_regN_flag_of_mask _ _ (by decide) (by decide), rfl⟩

end

theorem exec_reachEntryTimeout (a : Nat) (s : State) :
    exec (.reachEntryTimeout a) s = .next (s.after (s.gw.reachTimeout a)) := rfl

/-- A reach entry without the ports over which no announcement has come within `limit`. -/
def Reach.fresh (r : Reach) (limit tick : Nat) : Reach :=
  let live := fun (h : Option (Nat × Nat)) => h.bind (fun x => if x.2 + limit ≤ tick then none else some x)
  { r with hops0 := live r.hops0, hops1 := live r.hops1 }

theorem reachTimeout_entry {g : Gw} {a : Nat} {r : Reach} (h : mget? g.chn.reach a = some r) :
    g.reachTimeout a = { g with chn := { g.chn with reach :=
      (if (r.fresh g.helloLimit g.tb.tick).best.isNone then merase g.chn.reach a
        else mset g.chn.reach a (r.fresh g.helloLimit g.tb.tick)) } } := by
  unfold Gw.reachTimeout
  rw [h]
  rfl

section
variable {r : Reach} {h0 k0 limit tick : Nat} (h1 : r.hops1 = none) (hr : r.hops0 = some (h0, k0))
include h1 hr

theorem fresh_due (hk : k0 + limit ≤ tick) : (r.fresh limit tick).best.isNone = true := by
  simp [Reach.fresh, Reach.best, h1, hr, hk]

theorem fresh_early (hk : tick < k0 + limit) : r.fresh limit tick = r := by
  obtain ⟨⟩ := r
  subst h1 hr
  simp [Reach.fresh, hk]

end

section
variable {g : Gw} {a h0 k0 : Nat} {r : Reach} (h : mget? g.chn.reach a = some r) (h1 : r.hops1 = none)
  (hr : r.hops0 = some (h0, k0))
include h h1 hr

theorem reachTimeout_due (hk : k0 + g.helloLimit ≤ g.tb.tick) :
    g.reachTimeout a = { g with chn := { g.chn with reach := merase g.chn.reach a } } := by
  rw [reachTimeout_entry h, if_pos (fresh_due h1 hr hk)]

theorem reachTimeout_early (hk : g.tb.tick < k0 + g.helloLimit) : mget? (g.reachTimeout a).chn.reach a = some r := by
  have hbest : ¬ r.best.isNone = true := by simp [Reach.best, h1, hr]
  rw [reachTimeout_entry h, fresh_early h1 hr hk, if_neg hbest]
  exact mget?_mset_same _ _ _

end

/-! ### Faults and restores of a ring (R465, R466) -/

theorem exec_ringFault (s : State) : exec .ringFault s = .next (s.after s.gw.ringFault) := rfl

theorem exec_ringWtrExpiry (s : State) : exec .ringWtrExpiry s = .next (s.after s.gw.wtrExpiry) := rfl

section
variable {g : Gw} (hp : g.pairRuns 0 = true) (h2 : g.takeMsg 1 2 = none) (h3 : g.takeMsg 1 3 = none)
include hp h2 h3

theorem ringFault_idle (h : ∀ j, j < 2 → (g.chainAt j).failed = false) : g.ringFault = g := by
  simp [Gw.ringFault, hp, h2, h3, h]

/-- The lower of the failed ports is the one that a member reports. -/
theorem ringFault_found {k : Nat} (hk : k < 2) (hf : (g.chainAt k).failed = true)
    (hlow : k = 1 → (g.chainAt 0).failed = false) (hby : g.chn.faultBy = none) : g.ringFault = g.ringFaultFound k := by
  have hport : k = 0 ∨ k = 1 := by omega
  rcases hport with rfl | rfl
  · simp [Gw.ringFault, hp, h2, h3, hf, hby]
  · simp [Gw.ringFault, hp, h2, h3, hf, hlow, hby]

end

theorem ringFault_paused {g : Gw} (h : g.pairRuns 0 = false) : g.ringFault = g := if_pos (by rw [h]; rfl)

theorem wtrExpiry_paused {g : Gw} (h : g.pairRuns 0 = false) : g.wtrExpiry = g := if_neg (by simp [h])

/-- The tick at which the owner may restore its ring. -/
def Gw.wtrTick (g : Gw) : Nat :=
  max (g.chn.backSince.getD g.tb.tick) (max (g.chainAt 0).upSince (g.chainAt 1).upSince) +
    g.param Par.chnRingWtrMs * ticksPerMs

theorem wtrExpiry_early {g : Gw} (h : g.tb.tick < g.wtrTick) : g.wtrExpiry = g :=
  if_neg (by rw [Bool.and_eq_true, decide_eq_true_eq]; exact fun hall => absurd hall.2 (Nat.not_le.mpr h))

theorem wtrExpiry_due {g : Gw} (hp : g.pairRuns 0 = true) (hown : g.ringOwner = true)
    (hbroken : g.chn.failedOver = true ∨ g.chn.faultBy.isSome = true) (hback : g.ringBack = true)
    (hfw : g.fw.state ≠ .handover) (hwaits : g.str.changes.any (fun c => c.act = .firmware .ringRestore) = false)
    (h : g.wtrTick ≤ g.tb.tick) : g.wtrExpiry = g.floodRestore g.soonest := by
  have hbroken' : (g.chn.failedOver || g.chn.faultBy.isSome) = true := Bool.or_eq_true_iff.mpr hbroken
  refine if_pos ?_
  simp only [hown, hp, hbroken', hback, hwaits, Bool.and_true, Bool.true_and, Bool.not_false, Bool.and_eq_true,
    decide_eq_true_eq]
  exact ⟨hfw, h⟩

/-- A restore at the earliest stamp keeps that stamp. -/
theorem floodRestore_soonest (g : Gw) : ∃ c ∈ (g.floodRestore g.soonest).str.changes,
    c.act = .firmware .ringRestore ∧ c.t = g.soonest := by
  have hs := sends_floodOwn g 3 [1, g.soonest]
  have hsoon : (g.floodOwn 3 [1, g.soonest]).soonest = g.soonest := by
    generalize g.floodOwn 3 [1, g.soonest] = g' at hs
    simp only [Gw.soonest, Gw.now, hs.tb, hs.str]
  obtain ⟨c, hact, hq, ht⟩ := fwChangeAt_changes (g.floodOwn 3 [1, g.soonest]) .ringRestore g.soonest
  refine ⟨c, ?_, hact, ?_⟩
  · rw [Gw.floodRestore, hq]
    exact List.mem_append_right _ (List.mem_singleton.mpr rfl)
  · rw [hsoon] at ht
    exact ht.elim id id

end Sys2Proof.Machine
end

section
/-! The statement on chain messages and topology. -/

namespace Sys2Proof.Machine

/-- Settles O59, clause by clause: side messages, time words, calibration and steps, ports, hellos, topology, rings. -/
theorem chainMessagesAndTopology : Obligations.ChainMessagesAndTopology := by
  refine ⟨?receive, ?wordSend, ?wordReceive, ?echo, ?noWord, ?calibration, ?step, ?alignment, ?helloTimer, ?hello,
    ?helloTimeout, ?announce, ?topology, ?reach, ?fault, ?restore, ?paused⟩
  case receive =>
    intro s k m chunks ago hused
    rw [exec_sideMessageReceive]
    refine ⟨fun h => by rw [sideReceive_unaligned m chunks ago h, after_self], ?_⟩
    intro hal hlen hsom y mark c h hc hmark hy hh
    have hcarry := received_mayCarry hy hh
    have haddr : h.chnAddr = s.gw.chnAddr := received_chnAddr hh
    refine ⟨fun he => ?partly, fun he h7 hcrc => ?badCrc, fun he h7 hcrc hcls hwire => ?whole⟩
    case partly => rw [sideReceive_partial hused hal hlen hsom hc hmark hy hh he]
    case badCrc => rw [sideReceive_badCrc hused hal hlen hsom hc hmark hy hh he h7 hcrc]
    case whole =>
      rw [sideReceive_whole hused hal hlen hsom hc hmark hy hh he h7 hcrc hcls hwire]
      refine ⟨fun hdrop => ?dropped, fun hk => ⟨fun hend => ?ended, fun o hcl hdst hall hroute => ?onward⟩⟩
      case dropped => rw [sideTake_dropped (by rwa [hcls, hcarry])]
      case ended =>
        have hmk : (h.chainAt k).mark = mark := received_mark hh (by rw [hy])
        rcases hend with hctrl | ⟨h3, hdst, h0⟩
        · rw [sideTake_control hctrl (by rwa [hcarry]), hmk]
        · rw [sideTake_own h3 (by rwa [hcarry]) (by rw [haddr, hdst]) (by rwa [haddr]), hmk]
      case onward =>
        rw [sideTake_onward hcl (by rwa [hcarry]) (by rwa [haddr]) hall ((received_routeTo hh _).trans hroute)]
        refine ⟨fun hstop => by rw [passOn_dropped (by rwa [hcarry])], fun hhops hgo => ?_⟩
        rw [passOn_sent hhops (by rwa [hcarry])]
        have hgo' : h.mayCarry o { m with hops := m.hops - 1 } = true := (hcarry o _).trans hgo
        refine ⟨_, rfl, out_contains_after s (sideSend_out hgo'), ?_⟩
        rw [after_gw, interrupts_chn, sideSend_carried hgo']
        rfl
  case wordSend =>
    intro s k e m h12 he hm
    rw [exec_chainTimeWordSend]
    refine ⟨fun hfirst hlast hcarry => ?sent, fun h => by rw [wordSend_late he h, after_self]⟩
    have hcarry' := (mayCarry_setChain_word s.gw k (some (e, s.gw.wordTime k)) (some e) m).trans hcarry
    rw [wordSend_first h12 he hm hfirst hlast hcarry]
    refine ⟨_, rfl, out_contains_after s (sideSend_out hcarry'), ?_⟩
    rw [chainAt_after, sideSend_chainAt_same hcarry', chainAt_setChain_same, hm]
    exact ⟨rfl, rfl, rfl⟩
  case wordReceive =>
    intro s x g h
    obtain ⟨l, rfl⟩ := takeMsg_shape h
    obtain ⟨h', hs, heq⟩ := wordReceive_taken h
    rw [exec_chainTimeWordReceive, heq]
    refine ⟨_, rfl, ?inbox, fun hup => ?sample, fun hup => ?other⟩
    case inbox =>
      rw [after_gw, interrupts_chn]
      split
      · exact hs.inbox
      · exact hs.inbox
    case sample =>
      rw [if_pos hup, after_gw, interrupts_tb]
      exact ⟨bit_or_two_pow_same _ 2, mget?_mset_same _ _ _⟩
    case other =>
      rw [if_neg hup, after_gw, interrupts_tb]
      exact hs.tb
  case echo =>
    intro s x g e t0 h hsent hword
    obtain ⟨l, rfl⟩ := takeMsg_shape h
    rw [exec_timeWordEcho, echoReceive_taken h hsent hword]
    rfl
  case noWord =>
    intro s
    exact ⟨fun h => by rw [exec_chainTimeWordReceive, wordReceive_none h, after_self],
      fun h => by rw [exec_timeWordEcho, echoReceive_none h, after_self]⟩
  case calibration =>
    intro s k rx tx
    rw [exec_chainCalibration]
    refine ⟨fun hused hdue => ?due, fun q hq hearly => ?early, fun hunused => ?unused⟩
    case due =>
      rw [if_pos hused, every_due _ hdue]
      rfl
    case early =>
      rw [every_early _ hq hearly, ite_self, after_self]
    case unused => rw [if_neg (by rw [hunused]; decide), after_self]
  case step =>
    intro s x g hp h hsrc
    obtain ⟨l, rfl⟩ := takeMsg_shape h
    obtain ⟨h', hs, heq⟩ := stepAnnounce_taken h hsrc
    have hbusy : h'.stepBusy = s.gw.stepBusy := stepBusy_congr hs.tb hs.str
    rw [exec_chainStepAnnounce, if_pos hp, heq]
    refine ⟨_, rfl, ?_⟩
    rw [after_gw, interrupts_tb, ← hbusy]
    refine ⟨fun hfree => ?_, fun hfull => ?_⟩
    · rw [announced_free _ _ hfree]
      simp only [Gw.boundary, hs.tb]
      rfl
    · rw [announced_busy _ _ hfull]
      simp only [hs.tb]
      exact ⟨rfl, rfl⟩
  case alignment =>
    intro s k hused
    refine ⟨fun ha => ⟨?gained, exec_alignmentLost_unaligned ha⟩,
      fun ha => ⟨exec_alignmentLost hused ha, exec_blockAlignment_aligned ha⟩,
      fun ha hf => ⟨fun hdue => ?fails, fun h => ?waits⟩⟩
    case gained =>
      rw [exec_blockAlignment hused ha]
      refine ⟨_, rfl, ?_, fun hdown => ?_⟩
      · rw [chainAt_after, chainLink_chainAt, chainAt_setChain_same]
      · rw [ethAt_after]
        exact chainLink_link (by rw [chainAt_setChain_same]) hdown
    case fails =>
      rw [exec_chainPortFail]
      refine ⟨_, rfl, ?_⟩
      rw [chainAt_after, regN_after _ _ (by decide)]
      exact portFail_due hused ha hf hdue
    case waits => rw [exec_chainPortFail, portFail_early h, after_self]
  case helloTimer =>
    rintro s m hp rfl
    rw [exec_helloTimer, if_neg (by rw [hp]; decide)]
    refine ⟨fun hdue => ?_, fun q hq hearly => by rw [every_early _ hq hearly, after_self]⟩
    rw [every_acts _ hdue]
    refine ⟨_, rfl, fun k hk hcarry => ?_⟩
    obtain ⟨hout, hport⟩ := sendBoth_carried (g := s.gw.timerSet timerHello) (m := s.gw.ownHello) hk hcarry
    refine ⟨out_contains_after s hout, ?_⟩
    rw [chainAt_after]
    exact hport
  case hello =>
    intro s x g v hp h ha hl hv
    obtain ⟨l, rfl⟩ := takeMsg_shape h
    obtain ⟨y, hy, htick, haddr, hst, hflag⟩ := helloReceive_taken h ha hl hv
    have hver : (s.gw.withInbox l).chainVersion = s.gw.chainVersion := rfl
    rw [hver] at hst hflag
    rw [exec_helloReceive, if_pos hp]
    refine ⟨_, rfl, ?_⟩
    rw [chainAt_after, regN_after _ _ (by decide), hy]
    refine ⟨htick, haddr, fun hle hge => ?near, fun hfar => ?far⟩
    case near => rw [hst, if_pos (by simp [hle, hge])]
    case far =>
      have hnot : ¬ (decide (v ≤ s.gw.chainVersion + 1) && decide (s.gw.chainVersion ≤ v + 1)) = true := by
        rw [Bool.and_eq_true, decide_eq_true_eq, decide_eq_true_eq]
        omega
      rw [hst, hflag, if_neg hnot, if_neg hnot]
      exact ⟨rfl, bit_regN_flag_of_mask _ _ (by decide) (by decide)⟩
  case helloTimeout =>
    intro s k hk hst
    rw [exec_helloTimeout]
    refine ⟨fun hdue => ⟨_, rfl, ?_⟩, fun hearly => ?_⟩
    · rw [if_pos (by simp [hk, hst, hdue]), chainAt_after]
      exact (chainDown_spec s.gw k).1
    · rw [if_neg (by rw [Bool.and_eq_true, decide_eq_true_eq]; exact fun h => Nat.not_le.mpr hearly h.2), after_self]
  case announce =>
    rintro s m hp rfl
    rw [exec_topologyAnnounceTimer, if_neg (by rw [hp]; decide)]
    refine ⟨fun hdue => ?_, fun q hq hearly => by rw [every_early _ hq hearly, after_self]⟩
    rw [every_acts _ hdue, floodOwn_eq]
    refine ⟨_, rfl, ?_, fun k hk hcarry => ?_⟩
    · rw [after_gw, interrupts_chn, (sends_sendBoth _ _).reach]
      rfl
    · obtain ⟨hout, hport⟩ := sendBoth_carried (g := s.gw.timerSet timerTopology) hk hcarry
      refine ⟨out_contains_after s hout, ?_⟩
      rw [chainAt_after]
      exact hport
  case topology =>
    intro s x g a hp h hb ha
    obtain ⟨l, rfl⟩ := takeMsg_shape h
    rw [exec_topologyAnnounceReceive, if_pos hp]
    refine ⟨fun h0 hother hnew => ?_, fun hown h0 hid => ⟨_, rfl, ?_⟩⟩
    · obtain ⟨r, hr, hentry⟩ := topology_new h hb ha h0 hother hnew
      exact ⟨_, r, rfl, by rwa [after_gw, interrupts_chn], hentry⟩
    · obtain ⟨hflag, hreach⟩ := topology_clash h hb ha h0 hown hid
      rw [regN_after _ _ (by decide), after_gw, interrupts_chn]
      exact ⟨hflag, hreach⟩
  case reach =>
    intro s a r h0 k0 h h1 hr
    rw [exec_reachEntryTimeout]
    refine ⟨fun hdue => by rw [reachTimeout_due h h1 hr hdue], fun hearly => ⟨_, rfl, ?_⟩⟩
    rw [after_gw, interrupts_chn]
    exact reachTimeout_early h h1 hr hearly
  case fault =>
    intro s k hp h2 h3
    rw [exec_ringFault]
    refine ⟨fun hk hf hlow hby hm => ?_, fun h => by rw [ringFault_idle hp h2 h3 h, after_self]⟩
    have hs := sends_faultSent s.gw k
    rw [ringFault_found hp h2 h3 hk hf hlow hby, ringFaultFound_member k hm hp]
    refine ⟨_, rfl, ?_, fun hown hauto hover hfw => ?_⟩
    · rw [after_gw, interrupts_chn, autoFailover_faultBy, hs.faultBy]
    · rw [after_gw, interrupts_str]
      exact autoFailover_queued (hs.ringOwner.trans hown) ((hs.param _).trans hauto) (hs.failedOver.trans hover)
        (by rw [hs.fw]; exact hfw)
  case restore =>
    intro s hp hown hbroken hback hfw hwaits
    rw [exec_ringWtrExpiry]
    refine ⟨fun hdue => ?_, fun hearly => by rw [wtrExpiry_early hearly, after_self]⟩
    obtain ⟨c, hc, hact, ht⟩ := floodRestore_soonest s.gw
    rw [wtrExpiry_due hp hown hbroken hback hfw hwaits hdue]
    exact ⟨_, c, rfl, by rwa [after_gw, interrupts_str], hact, ht⟩
  case paused =>
    intro s hp
    have hidle : ¬ s.gw.pairRuns 0 = true := by rw [hp]; decide
    have hpaused : (!s.gw.pairRuns 0) = true := by rw [hp]; rfl
    rw [exec_ringFault, ringFault_paused hp, exec_ringWtrExpiry, wtrExpiry_paused hp, exec_helloTimer, if_pos hpaused,
      exec_helloReceive, if_neg hidle, exec_topologyAnnounceTimer, if_pos hpaused, exec_topologyAnnounceReceive,
      if_neg hidle, exec_chainStepAnnounce, if_neg hidle, after_self]
    exact ⟨rfl, rfl, rfl, rfl, rfl, rfl, rfl⟩

end Sys2Proof.Machine
end

section
/-! SUPPORT. A module that counts a root bank as its own while no bank holds a root (R497, R535). -/

namespace Sys2Proof.Machine

/-- A module as at reset, but with bank 0 named as the bank in use though no bank holds a root. -/
def bankWithoutRoot : State :=
  { gw := { isl := [(15, 1)], keys := { bank := some 0 } }, dram := [], pending := [] }

/-- Opening the seal loop burns no bank where none holds a root, and the bank in use stays named. -/
theorem writeAll_tamper_bankWithoutRoot : (bankWithoutRoot.gw.tamper true).writeAll.keys.bank = some 0 := rfl

theorem exec_tamperLoopOpen (vaonOk : Bool) (s : State) :
    exec (.tamperLoopOpen vaonOk) s = answer (onGw (fun g => (g.tamper vaonOk).writeAll)) s := rfl

end Sys2Proof.Machine
end

section
/-! The statement on the crypto queues. -/

namespace Sys2Proof.Machine

/-- Refutes O50: an open seal loop forgets the bank in use only when it burns one, so a module that names bank 0 while
no bank holds a root still names it after TAMPER_LOOP_OPEN with VAON in range. -/
theorem not_cryptoQueues : ¬ Obligations.CryptoQueues := by
  unfold Obligations.CryptoQueues
  intro h
  obtain ⟨-, -, -, -, -, -, htamper, -, -⟩ := h
  obtain ⟨t, hstep, -, -, -, hbank⟩ := htamper bankWithoutRoot true
  rw [exec_tamperLoopOpen, answer_onGw] at hstep
  cases hstep
  have hnone := hbank rfl
  rw [after_gw, interrupts_keys, writeAll_tamper_bankWithoutRoot] at hnone
  exact absurd hnone (by decide)

end Sys2Proof.Machine
end

section
/-! SUPPORT. What a reset of the gateway die leaves (R806, R807): the cleared die, its registers, and the interrupt outputs
of a module in which no source is enabled. -/

namespace Sys2Proof.Machine

/-! ### Outputs of a die that falls silent -/

theorem outputsLow_shape (g : Gw) :
    ∃ os, g.outputsLow = { g with tevOut := [], out := os } ∧ ∀ x ∈ g.out, x ∈ os := by
  by_cases hpps : g.tb.ppsOn = true
  · exact ⟨_, if_pos hpps, fun x hx => List.mem_append_left _ (List.mem_append_left _ hx)⟩
  · exact ⟨_, if_neg hpps, fun x hx => List.mem_append_left _ hx⟩

/-- What a reset of every island but AON leaves of the module, whatever goes out meanwhile. -/
def Gw.inReset (g : Gw) (os : List Out) : Gw :=
  { isl := [(15, 1)], fw := { presence := g.fw.presence }, out := os, free := g.free,
    keys := { banks := g.keys.banks, loopOpen := g.keys.loopOpen, fusePending := g.keys.fusePending,
              roots := g.keys.roots, journal := g.keys.journal },
    hostSpi := g.hostSpi, chn := { role := g.chn.role }, pdie := g.pdie, partN := g.partN, aon := g.aon,
    flt := { dbg := g.flt.dbg.map (fun t => t - Int.ofNat g.tb.tick), powerFail := g.flt.powerFail },
    flash := g.flash, boot := { rootNew := g.boot.rootNew } }

theorem cleared_eq_inReset (g : Gw) : ∃ os, g.cleared = g.inReset os ∧ ∀ x ∈ g.out, x ∈ os := by
  obtain ⟨os, heq, hsub⟩ := outputsLow_shape g
  unfold Gw.cleared
  rw [heq]
  by_cases hospi : g.ospiRun = true
  · exact ⟨os ++ [.pin "OSPI_RST_N" 0 false g.now], by simp [hospi, Gw.emit, Gw.inReset]; rfl,
      fun x hx => List.mem_append_left _ (hsub x hx)⟩
  · exact ⟨os, by simp [hospi, Gw.inReset], hsub⟩

/-! ### Registers -/

theorem reg_of_no_regs {g : Gw} (h : g.regs = []) (o : Nat) : g.reg o = regReset o := by
  unfold Gw.reg
  rw [h]
  rfl

theorem regsReset_of_no_regs {g : Gw} (h : g.regs = []) : regsReset g := reg_of_no_regs h

theorem mget?_filter_key {α : Type} (p : Nat → Bool) (m : Map α) (k : Nat) :
    mget? (m.filter (fun e => p e.1)) k = if p k then mget? m k else none := by
  induction m with
  | nil => simp [mget?]
  | cons e r ih =>
    obtain ⟨j, v⟩ := e
    by_cases hjk : j = k
    · subst hjk
      by_cases hp : p j = true
      · simp [hp, mget?]
      · simpa [List.filter_cons, hp] using ih
    · by_cases hp : p j = true
      · simp [hp, mget?, hjk, ih]
      · simp [hp, mget?, hjk, ih]

/-- Of registers filtered by their offset, the ones that stay read as they did and the others as after reset. -/
theorem reg_filter (g : Gw) (p : Nat → Bool) (o : Nat) :
    ({ g with regs := g.regs.filter (fun (e : Nat × W32) => p e.1) } : Gw).reg o =
      if p o then g.reg o else regReset o := by
  unfold Gw.reg mgetD
  rw [mget?_filter_key p g.regs o]
  split <;> rfl

/-! ### A module in which no interrupt source is enabled -/

theorem intEn_reset : ∀ n < 8, regReset (Reg.intEn n) = 0 := by decide

theorem enabledSources_of_intEn_zero {g : Gw} (h : ∀ n < 8, g.reg (Reg.intEn n) = 0) : g.enabledSources = [] := by
  unfold Gw.enabledSources Gw.regN
  rw [List.flatMap_eq_nil_iff]
  intro n hn
  rw [h n (List.mem_range.mp hn)]
  rfl

/-- Without an enabled source in the new state a change sends no message; at most INT_N moves. -/
theorem interrupts_of_no_source (a : Gw) {g : Gw} (h : g.enabledSources = []) :
    ∃ os, a.interrupts g = { g with out := os } ∧ ∀ x ∈ g.out, x ∈ os := by
  have hnone : g.pendingVectors = [] := by unfold Gw.pendingVectors; rw [h]; rfl
  unfold Gw.interrupts
  rw [hnone]
  by_cases hlow : a.intLow = g.intLow
  · exact ⟨g.out, by simp [hlow], fun x hx => hx⟩
  · exact ⟨g.out ++ [.pin "INT_N" 0 (!g.intLow) g.now], by simp [hlow, Gw.emit], fun x hx => List.mem_append_left _ hx⟩

/-- A module whose registers are all at reset keeps them through the interrupt outputs of the change. -/
theorem interrupts_regsReset (a : Gw) {g : Gw} (h : regsReset g) : regsReset (a.interrupts g) := by
  obtain ⟨os, heq, -⟩ := interrupts_of_no_source a
    (enabledSources_of_intEn_zero (fun n hn => (h (Reg.intEn n)).trans (intEn_reset n hn)))
  rw [heq]
  exact h

/-! ### The resets -/

theorem warmReset_eq (g : Gw) : ∃ os,
    g.warmReset = if g.aon.released && !g.aon.testMode then (g.inReset os).released else g.inReset os := by
  obtain ⟨os, heq, -⟩ := cleared_eq_inReset g
  refine ⟨os, ?_⟩
  unfold Gw.warmReset
  rw [heq]
  rfl

theorem warmReset_regs (g : Gw) : g.warmReset.regs = [] := by
  obtain ⟨os, heq⟩ := warmReset_eq g
  rw [heq]
  split <;> rfl

theorem warmReset_fw (g : Gw) : g.warmReset.fw = { presence := g.fw.presence } := by
  obtain ⟨os, heq⟩ := warmReset_eq g
  rw [heq]
  split <;> rfl

theorem exec_porstN (ns straps : Nat) (s : State) : exec (.porstN ns straps) s =
    answer (fun s => { s with gw := s.gw.porst ns straps, dram := if ns < 1000 then s.dram else [] }) s := rfl
theorem exec_srstN (ns : Nat) (s : State) :
    exec (.srstN ns) s = answer (onGw (fun g => if ns < 100 then g else g.warmReset)) s := rfl
theorem exec_pciePerstN (ns : Nat) (s : State) : exec (.pciePerstN ns) s = answer (onGw (fun g =>
    if ns < 100 then g else { g with regs := g.regs.filter (fun (e : Nat × W32) => !inEndpoint e.1) })) s := rfl

end Sys2Proof.Machine
end

section
/-! SUPPORT. The islands, the power supply and the power die through a reset (R564, R689, R802–R806). -/

namespace Sys2Proof.Machine

/-! ### Islands -/

theorem islOn_aon_only {g : Gw} (h : g.isl = [(15, 1)]) (i : Nat) : g.islOn i = decide (i = 15) := by
  unfold Gw.islOn mgetD
  rw [h]
  by_cases hi : i = 15
  · simp [hi, mget?]
  · simp [hi, mget?, Ne.symm hi]

theorem released_islOn (g : Gw) (i : Nat) : g.released.islOn i = (g.islOn i || (decide (i = 14) || decide (i = 10))) := by
  have h : g.released.islOn i = ((g.setIsl 14 1).setIsl 10 1).islOn i := rfl
  rw [h, islOn_setIsl, islOn_setIsl]
  by_cases h10 : i = 10
  · simp [h10]
  · by_cases h14 : i = 14 <;> simp [h10, h14]

theorem islOn_interrupts (a g : Gw) (i : Nat) : (a.interrupts g).islOn i = g.islOn i := by
  unfold Gw.islOn
  rw [interrupts_isl]

theorem inReset_islOn (g : Gw) (os : List Out) (i : Nat) : (g.inReset os).islOn i = decide (i = 15) := islOn_aon_only rfl i

/-! ### A warm reset -/

theorem aon_released_self {a : Aon} (h : a.released = true) : { a with released := true } = a := by
  cases a
  cases h
  rfl

theorem warmReset_aon (g : Gw) : g.warmReset.aon = g.aon := by
  obtain ⟨os, heq⟩ := warmReset_eq g
  rw [heq]
  by_cases h : (g.aon.released && !g.aon.testMode) = true
  · rw [if_pos h]
    exact aon_released_self (Bool.and_eq_true_iff.mp h).1
  · rw [if_neg h]
    rfl

theorem warmReset_islOn (g : Gw) (i : Nat) : g.warmReset.islOn i =
    (decide (i = 15) || (g.aon.released && !g.aon.testMode && (decide (i = 14) || decide (i = 10)))) := by
  obtain ⟨os, heq⟩ := warmReset_eq g
  rw [heq]
  by_cases h : (g.aon.released && !g.aon.testMode) = true
  · rw [if_pos h, h, released_islOn, inReset_islOn]
    rfl
  · rw [if_neg h, Bool.eq_false_iff.mpr h, inReset_islOn]
    simp

/-- A warm reset keeps what lies outside the islands it stops. -/
theorem warmReset_keeps (g : Gw) : g.warmReset.flash = g.flash ∧ g.warmReset.keys.banks = g.keys.banks ∧
    g.warmReset.keys.journal = g.keys.journal ∧ g.warmReset.pdie = g.pdie ∧ g.warmReset.hostSpi = g.hostSpi ∧
    g.warmReset.chn.role = g.chn.role := by
  obtain ⟨os, heq⟩ := warmReset_eq g
  rw [heq]
  split <;> exact ⟨rfl, rfl, rfl, rfl, rfl, rfl⟩

/-! ### PORST_N -/

theorem pdReset_eq (g : Gw) : ∃ os p, g.pdReset = { g with out := os, pdie := p } ∧ (g.partN = false → p.chans = []) := by
  unfold Gw.pdReset
  by_cases hn : g.partN = true
  · exact ⟨g.out, g.pdie, by rw [if_pos hn], fun h => absurd (hn.symm.trans h) (by decide)⟩
  · exact ⟨_, _, by rw [if_neg hn]; rfl, fun _ => rfl⟩

/-- What a PORST_N that is long enough leaves: a die in reset, AON anew with the straps sampled, presence lost, and the power
die anew or, where it was told to keep, out of keeper mode. -/
theorem porst_eq (g : Gw) {ns : Nat} (straps : Nat) (h : 1000 ≤ ns) : ∃ os p, g.porst ns straps =
    { g.inReset os with
      pdie := p, fw := {}, flt := {}, boot := {}, hostSpi := bit straps 2, chn := { role := bits straps 4 3 },
      aon := { testMode := g.aon.testMode, bootSel := bits straps 1 0, pdieKeep := bit straps 5 } } ∧
    (g.pdie.keep = true → p = { g.pdie with keeper := false }) ∧
    (g.pdie.keep = false → g.partN = false → p.chans = []) := by
  obtain ⟨os, heq, -⟩ := cleared_eq_inReset g
  unfold Gw.porst
  rw [if_neg (by omega), heq]
  by_cases hkeep : g.pdie.keep = true
  · have hk : (g.inReset os).pdie.keep = true := hkeep
    refine ⟨os, { g.pdie with keeper := false }, ?_, fun _ => rfl, fun hf => absurd (hkeep.symm.trans hf) (by decide)⟩
    dsimp only
    rw [if_pos hk]
    rfl
  · have hk : ¬ (g.inReset os).pdie.keep = true := hkeep
    obtain ⟨os', p, hpd, hchans⟩ := pdReset_eq (g.inReset os)
    refine ⟨os', p, ?_, fun ht => absurd ht hkeep, fun _ hn => hchans hn⟩
    dsimp only
    rw [if_neg hk, hpd]
    rfl

/-! ### The firmware reset and PCIE_PERST_N -/

theorem fwReset_due {g : Gw} {k : Nat} (hk : g.fw.resetAt = some k) (hdue : k ≤ g.tb.tick) :
    g.fwReset = { g.warmReset with regs := g.regs.filter (fun (e : Nat × W32) => inEndpoint e.1) } := by
  unfold Gw.fwReset
  rw [hk]
  exact if_pos hdue

theorem pba_in_endpoint : ∀ o ∈ pba, inEndpoint o = true := by decide

/-! ### The commit of sleep and presence -/

theorem setFw_presence (g : Gw) (st : FwState) : (g.setFw st).fw.presence = g.fw.presence := by
  unfold Gw.setFw
  split
  · rfl
  · dsimp only
    split <;> rfl

theorem sleepDecide_presence (g : Gw) : g.sleepDecide.fw.presence = g.fw.presence := by
  unfold Gw.sleepDecide Gw.enterPrep
  split
  · rw [setFw_presence]
    rfl
  · rfl

theorem sleepDecide_not_serving {g : Gw} (h : g.serving = false) : g.sleepDecide = g := by
  unfold Gw.sleepDecide
  rw [h]
  rfl

theorem commitSleep_eq (g : Gw) : ∃ os, .dieLink 9 [] ∈ os ∧ g.commitSleep =
    { g.inReset os with
      pdie := { g.pdie with keeper := true, hold := false, hbBack := false },
      aon := { g.aon with asleep := true, armed := true, sleepTick := g.aon.tick, pwrEn := false, released := false },
      log := [{ what := "sleep commit", at' := g.now }] } := by
  obtain ⟨os, heq, hsub⟩ := cleared_eq_inReset
    { g.emit (.dieLink 9 []) with pdie := { g.pdie with keeper := true, hold := false, hbBack := false } }
  refine ⟨os, hsub _ (by simp [Gw.emit]), ?_⟩
  have hshape : g.commitSleep =
    { ({ g.emit (.dieLink 9 []) with pdie := { g.pdie with keeper := true, hold := false, hbBack := false } } : Gw).cleared with
      aon := { ({ g.emit (.dieLink 9 []) with
                  pdie := { g.pdie with keeper := true, hold := false, hbBack := false } } : Gw).cleared.aon with
        asleep := true, armed := true,
        sleepTick := ({ g.emit (.dieLink 9 []) with
                  pdie := { g.pdie with keeper := true, hold := false, hbBack := false } } : Gw).cleared.aon.tick
        pwrEn := false, released := false }
      log := [{ what := "sleep commit", at' := g.now }] } := rfl
  rw [hshape, heq]
  rfl

/-- A command whose effect on the whole state is the state `t`. -/
theorem answer_of_eq {f : State → State} {s t : State} (h : f s = t) :
    answer f s = .next { t with gw := s.gw.interrupts t.gw } := by
  rw [← h]
  rfl

/-! ### The commands -/

theorem exec_porstN_long {ns : Nat} (straps : Nat) (s : State) (h : 1000 ≤ ns) : exec (.porstN ns straps) s =
    .next { s with gw := s.gw.interrupts (s.gw.porst ns straps), dram := [] } :=
  (exec_porstN ns straps s).trans
    (answer_of_eq (t := { s with gw := s.gw.porst ns straps, dram := [] }) (by rw [if_neg (by omega)]))

theorem exec_switchedRailLoss (s : State) : exec .switchedRailLoss s = answer (fun s =>
    if s.gw.aon.released && !s.gw.aon.asleep then
      { s with gw := { s.gw.cleared with aon := { s.gw.cleared.aon with released := false } }, dram := [] }
    else s) s := rfl

theorem exec_switchedRailLoss_awake {s : State} (hrel : s.gw.aon.released = true) (hawake : s.gw.aon.asleep = false) :
    exec .switchedRailLoss s = .next { s with
      gw := s.gw.interrupts { s.gw.cleared with aon := { s.gw.cleared.aon with released := false } }, dram := [] } :=
  (exec_switchedRailLoss s).trans (answer_of_eq
    (t := { s with gw := { s.gw.cleared with aon := { s.gw.cleared.aon with released := false } }, dram := [] })
    (if_pos (by rw [hrel, hawake]; rfl)))

theorem exec_commitTick (s : State) : exec .commitTick s =
    answer (fun s => if s.gw.commitDue then { s with gw := s.gw.commitSleep, dram := [] } else s) s := rfl

theorem exec_commitTick_due {s : State} (h : s.gw.commitDue = true) : exec .commitTick s =
    .next { s with gw := s.gw.interrupts s.gw.commitSleep, dram := [] } :=
  (exec_commitTick s).trans (answer_of_eq (t := { s with gw := s.gw.commitSleep, dram := [] }) (if_pos h))

theorem exec_testModeChange (level : Bool) (s : State) :
    exec (.testModeChange level) s = answer (onGw (fun g => g.testMode level)) s := rfl
theorem exec_firmwareReset (s : State) : exec .firmwareReset s = answer (onGw Gw.fwReset) s := rfl
theorem exec_railsGoodRelease (s : State) : exec .railsGoodRelease s =
    answer (onGw (fun g => if g.aon.pwrEn && !g.aon.released && !g.aon.testMode then g.released else g)) s := rfl
theorem exec_railsTimeout (s : State) : exec .railsTimeout s = answer (onGw (fun g =>
    if g.aon.pwrEn && !g.aon.released && g.aon.pwrTick + railLimit ≤ g.aon.tick then
      { g with aon := { g.aon with pwrEn := false, retryAt := some (g.aon.tick + aonSecond) } }
    else g)) s := rfl
theorem exec_aonWakeStart (s : State) :
    exec .aonWakeStart s = answer (onGw (fun g => if g.aon.asleep then g.wakeStart else g)) s := rfl
theorem exec_aonCrystalTakeover (s : State) : exec .aonCrystalTakeover s =
    answer (onGw (fun g => { g with aon := { g.aon with crystal := true } })) s := rfl
theorem exec_presenceAcquired (s : State) : exec .presenceAcquired s = answer (onGw (fun g =>
    { g with fw := { g.fw with presence := true }, keys := { g.keys with loopOpen := false } })) s := rfl
theorem exec_presenceLost (s : State) : exec .presenceLost s =
    answer (onGw (fun g => ({ g with fw := { g.fw with presence := false } } : Gw).sleepDecide)) s := rfl

end Sys2Proof.Machine
end

section
/-! The statements on resets, rails, sleep and presence. -/

namespace Sys2Proof.Machine

/-- Settles O9: the bound on the pulse decides, and a die in reset has no stored register, so none differs from its reset
value. -/
theorem shortResetPulsesIgnored : Obligations.ShortResetPulsesIgnored := by
  unfold Obligations.ShortResetPulsesIgnored
  refine ⟨fun s ns straps hlong => ?_, fun s ns straps hshort => ?_, fun s ns hlong => ?_, fun s ns hshort => ?_,
    fun s ns hlong => ?_, fun s ns hshort => ?_⟩
  · obtain ⟨os, p, heq, -, -⟩ := porst_eq s.gw straps hlong
    rw [exec_porstN_long straps s hlong, heq]
    refine ⟨_, rfl, interrupts_regsReset _ (regsReset_of_no_regs rfl), ?_⟩
    rw [interrupts_fw]
  · rw [exec_porstN]
    exact answer_same (by simp [hshort, Gw.porst])
  · rw [exec_srstN, answer_onGw, if_neg (by omega)]
    refine ⟨_, rfl, interrupts_regsReset _ (regsReset_of_no_regs (warmReset_regs _)), ?_⟩
    rw [after_gw, interrupts_fw, warmReset_fw]
  · rw [exec_srstN]
    exact answer_same (by simp [onGw, hshort])
  · rw [exec_pciePerstN, answer_onGw, if_neg (by omega)]
    refine ⟨_, rfl, fun o hin hpba => ?_⟩
    rw [after_gw, interrupts_reg _ _ hpba, reg_filter s.gw (fun o => !inEndpoint o), hin]
    rfl
  · rw [exec_pciePerstN]
    exact answer_same (by simp [onGw, hshort])

/-- Settles O10: each reset leaves a die of which only AON runs, released at once where its rails are good, and what lies
outside the stopped islands is carried over field by field. -/
theorem resetsKeepWhatTheyMust : Obligations.ResetsKeepWhatTheyMust := by
  unfold Obligations.ResetsKeepWhatTheyMust
  refine ⟨fun s ns straps hlong => ?_, fun s ns hlong => ?_, fun s level hlevel => ?_, fun s k hk hdue => ?_,
    fun s ns hlong => ?_, fun s hen hheld htest => ?_, fun s hen hheld hlate => ?_, fun s hrel hawake => ?_⟩
  · obtain ⟨os, p, heq, hkeep, hchans⟩ := porst_eq s.gw straps hlong
    rw [exec_porstN_long straps s hlong, heq]
    refine ⟨_, rfl, fun i => ?_, rfl, ?_⟩
    · rw [islOn_interrupts]
      exact islOn_aon_only rfl i
    · rw [interrupts_flash, interrupts_keys, interrupts_aon, interrupts_hostSpi, interrupts_chn, interrupts_fw,
        interrupts_pdie]
      refine ⟨rfl, rfl, rfl, rfl, rfl, ?_, rfl, rfl, hchans, fun hk => by rw [hkeep hk]⟩
      exact congrArg (· % 4) (Nat.shiftRight_eq_div_pow straps 3)
  · obtain ⟨hflash, hbanks, hjournal, hpdie, hspi, hrole⟩ := warmReset_keeps s.gw
    rw [exec_srstN, answer_onGw, if_neg (by omega)]
    refine ⟨_, rfl, fun i => ?_, ?_⟩
    · rw [after_gw, islOn_interrupts, warmReset_islOn]
    · simp only [after_gw, interrupts_flash, interrupts_keys, interrupts_aon, interrupts_hostSpi, interrupts_chn,
        interrupts_pdie]
      exact ⟨hflash, hbanks, hjournal, warmReset_aon _, hpdie, hspi, hrole⟩
  · obtain ⟨hflash, -, -, hpdie, -, -⟩ := warmReset_keeps { s.gw with aon := { s.gw.aon with testMode := level } }
    have hchange : s.gw.testMode level = ({ s.gw with aon := { s.gw.aon with testMode := level } } : Gw).warmReset :=
      if_neg hlevel
    rw [exec_testModeChange, answer_onGw, hchange]
    refine ⟨_, rfl, interrupts_regsReset _ (regsReset_of_no_regs (warmReset_regs _)), fun i => ?_, ?_⟩
    · rw [after_gw, islOn_interrupts, warmReset_islOn]
    · simp only [after_gw, interrupts_flash, interrupts_aon, interrupts_pdie]
      exact ⟨warmReset_aon _, hflash, hpdie⟩
  · obtain ⟨hflash, -, hjournal, hpdie, -, -⟩ := warmReset_keeps s.gw
    rw [exec_firmwareReset, answer_onGw, fwReset_due hk hdue]
    refine ⟨_, rfl, fun o hpba => ?_, fun i => ?_, ?_⟩
    · rw [after_gw, interrupts_reg _ _ hpba]
      exact reg_filter s.gw inEndpoint o
    · rw [after_gw, islOn_interrupts]
      exact warmReset_islOn s.gw i
    · simp only [after_gw, interrupts_flash, interrupts_keys, interrupts_aon, interrupts_fw, interrupts_pdie]
      exact ⟨by rw [warmReset_fw], hflash, hjournal, warmReset_aon _, hpdie⟩
  · rw [exec_pciePerstN, answer_onGw, if_neg (by omega)]
    obtain ⟨os, rs, heq, -⟩ := interrupts_shape s.gw
      { s.gw with regs := s.gw.regs.filter (fun (e : Nat × W32) => !inEndpoint e.1) }
    refine ⟨_, os, rs, rfl, heq, fun o hout => ?_⟩
    have hpba : o ∉ pba := fun hmem => absurd (pba_in_endpoint o hmem) (by rw [hout]; decide)
    rw [after_gw, interrupts_reg _ _ hpba, reg_filter s.gw (fun o => !inEndpoint o), hout]
    rfl
  · rw [exec_railsGoodRelease, answer_onGw, if_pos (by simp [hen, hheld, htest])]
    refine ⟨_, rfl, ?_, ?_, ?_⟩
    · rw [after_gw, interrupts_aon]; rfl
    · rw [after_gw, islOn_interrupts, released_islOn]; simp
    · rw [after_gw, islOn_interrupts, released_islOn]; simp
  · rw [exec_railsTimeout, answer_onGw, if_pos (by simp [hen, hheld]; exact hlate)]
    exact ⟨_, rfl, by rw [after_gw, interrupts_aon], by rw [after_gw, interrupts_aon]; rfl⟩
  · obtain ⟨os, heq, -⟩ := cleared_eq_inReset s.gw
    rw [exec_switchedRailLoss_awake hrel hawake, heq]
    refine ⟨_, rfl, ?_, rfl, fun i => ?_⟩
    · rw [interrupts_aon]
    · rw [islOn_interrupts]; exact islOn_aon_only rfl i

/-- Settles O11: the commands act under their guards, and the commit leaves a die in reset with AON asleep. -/
theorem railsSleepAndPresence : Obligations.RailsSleepAndPresence := by
  unfold Obligations.RailsSleepAndPresence
  refine ⟨fun s hen hheld htest => ?_, fun s hen hheld hlate => ?_, fun s hrel hawake => ?_, fun s hdue => ?_,
    fun s r hasleep hwaking => ?_, fun s => ?_, fun s => ?_, fun s => ?_⟩
  · rw [exec_railsGoodRelease, answer_onGw, if_pos (by simp [hen, hheld, htest])]
    refine ⟨_, rfl, ?_, ?_, ?_, ?_, fun i h14 h10 => ?_⟩
    · rw [after_gw, interrupts_aon]; rfl
    · rw [after_gw, islOn_interrupts, released_islOn]; simp
    · rw [after_gw, islOn_interrupts, released_islOn]; simp
    · rw [after_gw, interrupts_boot]; rfl
    · rw [after_gw, islOn_interrupts, released_islOn]; simp [h14, h10]
  · rw [exec_railsTimeout, answer_onGw, if_pos (by simp [hen, hheld]; exact hlate)]
    rfl
  · obtain ⟨os, heq, -⟩ := cleared_eq_inReset s.gw
    rw [exec_switchedRailLoss_awake hrel hawake, heq]
    refine ⟨_, rfl, rfl, fun i => ?_, ?_, ?_, ?_, ?_⟩
    · rw [islOn_interrupts]; exact islOn_aon_only rfl i
    · rw [interrupts_aon]; rfl
    · rw [interrupts_pdie]; rfl
    · exact interrupts_regsReset _ (regsReset_of_no_regs rfl)
    · rw [interrupts_flash]; rfl
  · obtain ⟨os, hmem, heq⟩ := commitSleep_eq s.gw
    rw [exec_commitTick_due hdue, heq]
    refine ⟨_, rfl, rfl, fun i => ?_, ?_⟩
    · rw [islOn_interrupts]
      exact islOn_aon_only rfl i
    · rw [interrupts_pdie, interrupts_log, interrupts_aon, interrupts_str, interrupts_upd]
      refine ⟨rfl, mem_out_interrupts _ hmem, rfl, rfl, rfl, rfl, rfl, rfl, rfl, rfl, fun m => ?_⟩
      unfold Gw.mbxAt
      rw [interrupts_mbx]
      rfl
  · rw [exec_aonWakeStart, answer_onGw, if_pos hasleep]
    unfold Gw.wakeStart
    rw [hwaking]
  · rw [exec_aonCrystalTakeover, answer_onGw]
  · rw [exec_presenceAcquired, answer_onGw]
  · rw [exec_presenceLost, answer_onGw]
    refine ⟨_, rfl, ?_, fun hidle => ?_⟩
    · rw [after_gw, interrupts_fw, sleepDecide_presence]
    · rw [sleepDecide_not_serving (g := { s.gw with fw := { s.gw.fw with presence := false } }) hidle]

end Sys2Proof.Machine
end

section
/-! SUPPORT. Doorbells, the choice of a rung mailbox, and the words of a reply (R545–R560). -/

namespace Sys2Proof.Machine

/-! ### Doorbells (R549) -/

/-- A one-bit field cleared takes away that bit and no other. -/
theorem bit_setBits_zero (v n k : Nat) : bit (setBits v n n 0) k = (decide (k ≠ n) && bit v k) := by
  have hone : setBits v n n 0 = v - v / 2 ^ n % 2 * 2 ^ n := by
    unfold setBits bits
    rw [Nat.shiftRight_eq_div_pow, Nat.sub_self, Nat.zero_mod, Nat.zero_mul, Nat.add_zero, Nat.zero_add, Nat.pow_one]
  by_cases hk : k = n
  · rw [hk, bit_setBits_clear]
    simp
  · rw [hone]
    by_cases hset : bit v n = true
    · have hodd : v / 2 ^ n % 2 = 1 := by
        rw [bit, Nat.testBit_eq_decide_div_mod_eq] at hset
        exact of_decide_eq_true hset
      rw [hodd, Nat.one_mul, bit_sub_two_pow hset]
      simp [hk]
    · have heven : v / 2 ^ n % 2 = 0 := by
        rw [bit, Nat.testBit_eq_decide_div_mod_eq, decide_eq_true_iff] at hset
        omega
      rw [heven, Nat.zero_mul, Nat.sub_zero]
      simp [hk]

theorem exec_mbxDbRing (m : Nat) (v : W32) (s : State) : exec (.mbxDbRing m v) s =
    answer (onGw (fun g => if m < 64 && g.islOn 10 && v.toNat % 2 = 1 then g.ring m else g)) s := rfl

theorem exec_mbxDbRing_rung {m : Nat} {v : W32} {s : State} (hm : m < 64) (hon : s.gw.islOn 10 = true)
    (hv : v.toNat % 2 = 1) : exec (.mbxDbRing m v) s = .next (s.after (s.gw.ring m)) := by
  rw [exec_mbxDbRing, answer_onGw, if_pos (by simp [hm, hon, hv])]

/-! ### Take-up (R553–R560) -/

theorem exec_mailboxTakeUp (s : State) : exec .mailboxTakeUp s = answer (onGw Gw.takeNext) s := rfl

theorem exec_mailboxTakeUp_next {s : State} {m : Nat} (hrun : s.gw.boot.stage = 3) (hho : s.gw.fw.state ≠ .handover)
    (hnext : s.gw.nextMailbox = some m) : exec .mailboxTakeUp s = .next (s.after (s.gw.takeUp m)) := by
  rw [exec_mailboxTakeUp, answer_onGw]
  unfold Gw.takeNext
  rw [if_neg (by simp [hrun, hho]), hnext]

/-- The mailbox taken up was rung and its pair runs, and a service mailbox that waits goes first. -/
theorem nextMailbox_spec {g : Gw} {m : Nat} (h : g.nextMailbox = some m) :
    m ∈ g.rung ∧ g.takerRuns m = true ∧ ∀ k ∈ g.rung, g.takerRuns k = true → k < 4 → m < 4 := by
  unfold Gw.nextMailbox at h
  dsimp only at h
  split at h
  next j hfind =>
    cases h
    obtain ⟨hmem, hruns⟩ := List.mem_filter.mp (List.mem_of_find?_eq_some hfind)
    have hservice : decide (m < 4) = true := List.find?_some (p := fun m => decide (m < 4)) hfind
    exact ⟨hmem, hruns, fun _ _ _ _ => of_decide_eq_true hservice⟩
  next hfind =>
    obtain ⟨hmem, hruns⟩ := List.mem_filter.mp (List.mem_of_mem_head? h)
    refine ⟨hmem, hruns, fun k hk hkr hk4 => absurd (decide_eq_true hk4) ?_⟩
    exact List.find?_eq_none.mp hfind k (List.mem_filter.mpr ⟨hk, hkr⟩)

/-- The first check: a known code with DIR 0 is never BAD_CMD. -/
theorem requestStatus_badCmd_iff (g : Gw) (m : Nat) :
    g.requestStatus m = stBadCmd ↔ findCmd (g.reqCode m) = none ∨ g.reqDir m = true := by
  unfold Gw.requestStatus
  dsimp only
  split
  next hnone => simp [hnone]
  next r hsome =>
    by_cases hdir : g.reqDir m = true
    · simp [hdir]
    · simp only [hsome, hdir, Bool.false_eq_true, if_false, or_false, reduceCtorEq, iff_false]
      split_ifs <;> decide

theorem requestStatus_ne_badCmd {g : Gw} {m : Nat} {r : CmdRow} (hrow : findCmd (g.reqCode m) = some r)
    (hdir : g.reqDir m = false) : g.requestStatus m ≠ stBadCmd := by
  rw [Ne, requestStatus_badCmd_iff, hrow, hdir]
  simp

/-- The checks of a known request in their order. -/
theorem requestStatus_known {g : Gw} {m : Nat} {r : CmdRow} (hrow : findCmd (g.reqCode m) = some r)
    (hdir : g.reqDir m = false) : g.requestStatus m =
      if g.partN = true ∧ g.reqCode m / 256 = 0x0B then 0x0E
      else if 252 < g.reqLen m ∨ g.reqLen m ≠ r.words.getD (g.impliedLen m (g.reqCode m)) then 0x03
      else if g.fw.state ∉ r.states then 0x04
      else if g.needsPresence m (g.reqCode m) = true ∧ (3 < m ∨ g.fw.presence = false) then 0x05
      else if g.blockFenced m (g.reqCode m) = true then 0x0D else 0 := by
  unfold Gw.requestStatus
  simp only [hrow, hdir, Bool.and_eq_true, Bool.or_eq_true, decide_eq_true_eq, Bool.not_eq_true', List.contains_iff_mem,
    Bool.false_eq_true, if_false, ← Bool.not_eq_true]
  rfl

theorem writeGroups_rung (g : Gw) (l : List Nat) (m n i : Nat) :
    ({ g with rung := l } : Gw).writeGroups m n i = g.writeGroups m n i := by
  induction n generalizing i with
  | zero => rfl
  | succ n ih =>
    rw [Gw.writeGroups, Gw.writeGroups, ← ih]
    rfl

/-- The checks look at the request and the module, not at the queue of doorbells. -/
theorem requestStatus_rung (g : Gw) (l : List Nat) (m : Nat) :
    ({ g with rung := l } : Gw).requestStatus m = g.requestStatus m := by
  have himplied : ({ g with rung := l } : Gw).impliedLen m (g.reqCode m) = g.impliedLen m (g.reqCode m) := by
    unfold Gw.impliedLen
    simp only [writeGroups_rung]
    rfl
  unfold Gw.requestStatus
  have hcode : ({ g with rung := l } : Gw).reqCode m = g.reqCode m := rfl
  rw [hcode]
  dsimp only
  rw [himplied]
  rfl

/-- A repeat: the request carries the code and the sequence number of the mailbox's last executed one. -/
theorem repeats_eq_some {g : Gw} {m : Nat} {x : MbxRecord} (hlast : (g.mbxAt m).last = some x)
    (hcode : x.code = g.reqCode m) (hseq : x.seq = g.reqSeq m) : g.repeats m = some x := by
  simp [Gw.repeats, hlast, hcode, hseq, Option.filter]

theorem repeats_eq_none {g : Gw} {m : Nat}
    (h : ∀ x, (g.mbxAt m).last = some x → x.code ≠ g.reqCode m ∨ x.seq ≠ g.reqSeq m) : g.repeats m = none := by
  unfold Gw.repeats
  rw [Option.filter_eq_none_iff]
  intro x hx
  rcases h x hx with hne | hne <;> simp [hne]

/-! ### The words of a mailbox after a reply (R551, R552) -/

theorem regN_setRegN (g : Gw) (o p v : Nat) : (g.setRegN o v).regN p = if p = o then v % 2 ^ 32 else g.regN p := by
  by_cases h : p = o
  · rw [if_pos h, h, Gw.regN, reg_setRegN_same, w32, BitVec.toNat_ofNat]
  · rw [if_neg h, regN_setRegN_ne g v h]

theorem mbxOff_inj {m i j : Nat} : mbxOff m i = mbxOff m j ↔ i = j := by
  unfold mbxOff Reg.mbxWord
  omega

theorem mbxWord_setRegN (g : Gw) (m i j v : Nat) :
    (g.setRegN (mbxOff m i) v).mbxWord m j = if j = i then v % 2 ^ 32 else g.mbxWord m j := by
  unfold Gw.mbxWord
  rw [regN_setRegN]
  simp only [mbxOff_inj]

theorem mbxWord_putWords (m : Nat) (ws : List Nat) (g : Gw) (i j : Nat) : (g.putWords m i ws).mbxWord m j =
    if i ≤ j ∧ j < i + ws.length then ws.getD (j - i) 0 % 2 ^ 32 else g.mbxWord m j := by
  induction ws generalizing g i with
  | nil => exact (if_neg (by simp)).symm
  | cons w r ih =>
    rw [Gw.putWords, ih, mbxWord_setRegN, List.length_cons]
    rcases Nat.lt_trichotomy j i with hlt | rfl | hgt
    · rw [if_neg (by omega), if_neg (by omega), if_neg (by omega)]
    · rw [if_neg (by omega), if_pos rfl, if_pos (by omega), Nat.sub_self]
      rfl
    · obtain ⟨d, rfl⟩ := Nat.exists_eq_add_of_lt hgt
      have hget : (w :: r).getD (i + d + 1 - i) 0 = r.getD (i + d + 1 - (i + 1)) 0 := by
        rw [show i + d + 1 - i = d + 1 by omega, show i + d + 1 - (i + 1) = d by omega]
        rfl
      rw [hget, if_neg (show ¬ i + d + 1 = i by omega)]
      exact if_congr (by omega) rfl rfl

/-- The header word of a reply. -/
def replyHeader (code seq n : Nat) (rep : Bool) : Nat := code * 65536 + seq * 256 + 128 + atBit 6 rep + n % 16

/-- A mailbox with the four header words of a reply of `n` payload words. -/
def Gw.replyHead (g : Gw) (m status : Nat) (a : Stamp) (n : Nat) : Gw :=
  (((g.setRegN (mbxOff m 0) (replyHeader (g.reqCode m) (g.reqSeq m) n false)).setRegN (mbxOff m 1)
    (status * 256 + n / 16)).setRegN (mbxOff m 2) (stampLo a)).setRegN (mbxOff m 3) (stampHi a)

theorem mbxWord_replyHead (g : Gw) (m status : Nat) (a : Stamp) (n j : Nat) : (g.replyHead m status a n).mbxWord m j =
    if j = 3 then stampHi a % 2 ^ 32 else if j = 2 then stampLo a % 2 ^ 32
    else if j = 1 then (status * 256 + n / 16) % 2 ^ 32
    else if j = 0 then replyHeader (g.reqCode m) (g.reqSeq m) n false % 2 ^ 32 else g.mbxWord m j := by
  unfold Gw.replyHead
  rw [mbxWord_setRegN, mbxWord_setRegN, mbxWord_setRegN, mbxWord_setRegN]

theorem reqCode_lt (g : Gw) (m : Nat) : g.reqCode m < 2 ^ 16 := bits_lt _
theorem reqSeq_lt (g : Gw) (m : Nat) : g.reqSeq m < 2 ^ 8 := bits_lt _

theorem replyHeader_lt {c q : Nat} (n : Nat) (hc : c < 2 ^ 16) (hq : q < 2 ^ 8) : replyHeader c q n false < 2 ^ 32 := by
  unfold replyHeader atBit
  rw [if_neg (by decide)]
  omega

/-- The fields of the header word of a reply that is no repeat. -/
theorem replyHeader_fields {c q : Nat} (n : Nat) (hc : c < 2 ^ 16) (hq : q < 2 ^ 8) :
    bits (replyHeader c q n false) 31 16 = c ∧ bits (replyHeader c q n false) 15 8 = q ∧
      bit (replyHeader c q n false) 7 = true ∧ bit (replyHeader c q n false) 6 = false ∧
      bits (replyHeader c q n false) 3 0 = n % 16 := by
  unfold replyHeader atBit bits bit
  rw [if_neg (by decide)]
  simp only [Nat.shiftRight_eq_div_pow, Nat.testBit_eq_decide_div_mod_eq, decide_eq_true_eq, decide_eq_false_iff_not]
  omega

/-- The reply of a command other than KEY_PROVISION: header and payload words, then DONE and the done bit, then the record
for repeats. -/
theorem reply_eq {g : Gw} {m : Nat} (status : Nat) (a : Stamp) (ws : List Nat) (hcode : g.reqCode m ≠ 0x0A01) :
    ∃ x : Mbx, x.st = .done ∧
      x.last = some { code := g.reqCode m, seq := g.reqSeq m, status := status, apply := a } ∧
      g.reply m status a ws = ((((g.replyHead m status a ws.length).putWords m 4 ws).setMbx m
        { g.mbxAt m with st := .done, taken := false }).flag (Reg.mbxDone (m / 32)) (2 ^ (m % 32))).setMbx m x := by
  have hword : ((g.replyHead m status a ws.length).putWords m 4 ws).mbxWord m 0 =
      replyHeader (g.reqCode m) (g.reqSeq m) ws.length false := by
    rw [mbxWord_putWords, if_neg (by omega), mbxWord_replyHead]
    exact Nat.mod_eq_of_lt (replyHeader_lt _ (reqCode_lt g m) (reqSeq_lt g m))
  have hkept : ((g.replyHead m status a ws.length).putWords m 4 ws).reqCode m = g.reqCode m := by
    unfold Gw.reqCode
    rw [hword]
    exact (replyHeader_fields _ (reqCode_lt g m) (reqSeq_lt g m)).1
  obtain ⟨rs, hput⟩ := putWords_shape (g.replyHead m status a ws.length) m 4 ws
  have hmbx : ((g.replyHead m status a ws.length).putWords m 4 ws).mbxAt m = g.mbxAt m := by
    rw [hput]
    rfl
  have hraw : g.replyRaw m status a ws false = (((g.replyHead m status a ws.length).putWords m 4 ws).setMbx m
      { g.mbxAt m with st := .done, taken := false }).flag (Reg.mbxDone (m / 32)) (2 ^ (m % 32)) := by
    unfold Gw.replyRaw
    dsimp only
    have hcond : ¬ ((g.replyHead m status a ws.length).putWords m 4 ws).reqCode m = 0x0A01 := hkept ▸ hcode
    exact (congrArg (fun h : Gw => (h.setMbx m { h.mbxAt m with st := .done, taken := false }).flag
      (Reg.mbxDone (m / 32)) (2 ^ (m % 32))) (if_neg hcond)).trans
      (congrArg (fun y : Mbx => (((g.replyHead m status a ws.length).putWords m 4 ws).setMbx m
        { y with st := .done, taken := false }).flag (Reg.mbxDone (m / 32)) (2 ^ (m % 32))) hmbx)
  refine ⟨{ (g.replyRaw m status a ws false).mbxAt m with
    last := some { code := g.reqCode m, seq := g.reqSeq m, status := status, apply := a } }, ?_, rfl, ?_⟩
  · rw [hraw, mbxAt_flag, mbxAt_setMbx, if_pos rfl]
  · rw [← hraw]
    rfl

theorem mbxWord_ne_mbxDone {m i k : Nat} (hm : m < 64) (hi : i < 256) (hk : k < 2) : mbxOff m i ≠ Reg.mbxDone k := by
  unfold mbxOff Reg.mbxWord Reg.mbxDone
  omega

/-- A register outside the mailbox's done word reads after a reply as the payload words left it. -/
theorem reg_reply {g : Gw} {m : Nat} (status : Nat) (a : Stamp) (ws : List Nat) (hcode : g.reqCode m ≠ 0x0A01) {o : Nat}
    (ho : o ≠ Reg.mbxDone (m / 32)) :
    (g.reply m status a ws).reg o = ((g.replyHead m status a ws.length).putWords m 4 ws).reg o := by
  obtain ⟨x, -, -, heq⟩ := reply_eq status a ws hcode
  rw [heq, reg_setMbx, reg_flag_ne _ ho, reg_setMbx]

theorem mbxWord_reply {g : Gw} {m : Nat} (status : Nat) (a : Stamp) (ws : List Nat) (hcode : g.reqCode m ≠ 0x0A01)
    (hm : m < 64) {i : Nat} (hi : i < 256) : (g.reply m status a ws).mbxWord m i =
      if 4 ≤ i ∧ i < 4 + ws.length then ws.getD (i - 4) 0 % 2 ^ 32
      else (g.replyHead m status a ws.length).mbxWord m i := by
  rw [← mbxWord_putWords]
  exact congrArg BitVec.toNat (reg_reply status a ws hcode (mbxWord_ne_mbxDone hm hi (by omega)))

theorem reg_eq_of_regN_eq {g h : Gw} {o : Nat} (heq : h.regN o = g.regN o) : h.reg o = g.reg o := BitVec.eq_of_toNat_eq heq

end Sys2Proof.Machine
end

section
/-! The statements on mailboxes. -/

namespace Sys2Proof.Machine

/-- Settles O21: a doorbell write is `Gw.ring` under its guard, and clearing one bit of MBX_DONE leaves the others. -/
theorem mailboxDoorbell : Obligations.MailboxDoorbell := by
  unfold Obligations.MailboxDoorbell
  refine ⟨fun x => ?_, fun s m v hm hon hv hfree => ?_, fun s m v hm hon hv hbusy => ?_, fun s m v hv => ?_⟩
  · cases x.st with
    | idle => exact .inl rfl
    | busy => exact .inr (.inl rfl)
    | done => exact .inr (.inr rfl)
  · refine ⟨w32 (setBits (s.gw.regN (Reg.mbxDone (m / 32))) (m % 32) (m % 32) 0), fun k hk => ?_, ?_⟩
    · have hword : ∀ u : Nat, (w32 u).getLsbD k = bit u k := fun u => by
        rw [BitVec.getLsbD, w32, BitVec.toNat_ofNat, Nat.testBit_mod_two_pow, decide_eq_true hk, Bool.true_and, bit]
      rw [hword, bit_setBits_zero]
      rfl
    · rw [exec_mbxDbRing_rung hm hon hv]
      unfold Gw.ring
      rw [if_neg hfree]
      rfl
  · rw [exec_mbxDbRing_rung hm hon hv]
    unfold Gw.ring
    rw [if_pos hbusy]
    rfl
  · rw [exec_mbxDbRing, answer_onGw, if_neg (by simp [hv]), after_self]

/-- Settles O22: the take-up answers by the first failing check, a repeat before all checks but the first. -/
theorem mailboxTakeUp : Obligations.MailboxTakeUp := by
  unfold Obligations.MailboxTakeUp
  refine ⟨fun g m hnext => nextMailbox_spec hnext, fun s m hrun hho hnext hbad => ?_,
    fun s m r x hrun hho hnext hrow hdir hlast hcode hseq => ?_,
    fun s m r hrun hho hnext hrow hdir hfresh => ⟨s.gw.requestStatus m, ?_, requestStatus_known hrow hdir⟩⟩
  · rw [exec_mailboxTakeUp_next hrun hho hnext]
    unfold Gw.takeUp
    have hst := (requestStatus_badCmd_iff { s.gw with rung := s.gw.rung.filter (fun k => k ≠ m) } m).mpr hbad
    rw [if_pos hst, hst]
    rfl
  · rw [exec_mailboxTakeUp_next hrun hho hnext]
    unfold Gw.takeUp
    have hst := requestStatus_ne_badCmd (g := { s.gw with rung := s.gw.rung.filter (fun k => k ≠ m) }) hrow hdir
    have hrep := repeats_eq_some (g := { s.gw with rung := s.gw.rung.filter (fun k => k ≠ m) }) hlast hcode hseq
    rw [if_neg hst, hrep]
  · rw [exec_mailboxTakeUp_next hrun hho hnext]
    unfold Gw.takeUp
    have hst := requestStatus_ne_badCmd (g := { s.gw with rung := s.gw.rung.filter (fun k => k ≠ m) }) hrow hdir
    have hrep := repeats_eq_none (g := { s.gw with rung := s.gw.rung.filter (fun k => k ≠ m) }) hfresh
    rw [if_neg hst, hrep]
    dsimp only
    rw [requestStatus_rung]
    rfl

/-- Settles O23: the words of the mailbox are read off the header and the payload that the reply writes in turn. -/
theorem replyLeavesInMailbox : Obligations.ReplyLeavesInMailbox := by
  unfold Obligations.ReplyLeavesInMailbox
  intro g m status a ws hm hstatus hlen hcode
  obtain ⟨hfc, hfq, hfd, hfr, hfn⟩ := replyHeader_fields ws.length (reqCode_lt g m) (reqSeq_lt g m)
  have hhead : ∀ i < 4, (g.reply m status a ws).mbxWord m i = (g.replyHead m status a ws.length).mbxWord m i :=
    fun i hi => by rw [mbxWord_reply status a ws hcode hm (by omega), if_neg (by omega)]
  have hw0 : (g.reply m status a ws).mbxWord m 0 = replyHeader (g.reqCode m) (g.reqSeq m) ws.length false := by
    rw [hhead 0 (by decide), mbxWord_replyHead]
    exact Nat.mod_eq_of_lt (replyHeader_lt _ (reqCode_lt g m) (reqSeq_lt g m))
  have hw1 : (g.reply m status a ws).mbxWord m 1 = status * 256 + ws.length / 16 := by
    rw [hhead 1 (by decide), mbxWord_replyHead]
    exact Nat.mod_eq_of_lt (by omega)
  obtain ⟨x, hdone, hlast, heq⟩ := reply_eq status a ws hcode
  have hx : (g.reply m status a ws).mbxAt m = x := by rw [heq, mbxAt_setMbx, if_pos rfl]
  refine ⟨by rw [hx, hdone], ?_, ?_, ?_, ?_, ?_, ?_, ?_, ?_, fun i hi => ?_, fun i hlo hhi => ?_, ?_,
    by rw [hx, hlast], fun k hk => ?_, fun o hd ho => ?_⟩
  · unfold Gw.reqCode
    rw [hw0]
    exact hfc
  · unfold Gw.reqSeq
    rw [hw0]
    exact hfq
  · unfold Gw.reqDir
    rw [hw0]
    exact hfd
  · rw [hw0]
    exact hfr
  · rw [hw1]
    unfold bits
    rw [Nat.shiftRight_eq_div_pow]
    omega
  · unfold Gw.reqLen
    rw [hw0, hw1, hfn]
    unfold bits
    rw [Nat.shiftRight_eq_div_pow]
    omega
  · rw [hhead 2 (by decide), mbxWord_replyHead]
    rfl
  · rw [hhead 3 (by decide), mbxWord_replyHead]
    rfl
  · unfold Gw.arg
    rw [mbxWord_reply status a ws hcode hm (by omega), if_pos (by omega), Nat.add_sub_cancel_left]
  · unfold Gw.arg
    rw [mbxWord_reply status a ws hcode hm (by omega), if_neg (by omega), mbxWord_replyHead, if_neg (by omega),
      if_neg (by omega), if_neg (by omega), if_neg (by omega)]
  · have hflag : (g.reply m status a ws).regN (Reg.mbxDone (m / 32)) =
        ((((g.replyHead m status a ws.length).putWords m 4 ws).setMbx m
          { g.mbxAt m with st := .done, taken := false }).flag (Reg.mbxDone (m / 32)) (2 ^ (m % 32))).regN
          (Reg.mbxDone (m / 32)) := by rw [heq]; rfl
    rw [hflag]
    exact bit_regN_flag_of_mask _ _ (Nat.mod_lt _ (by decide)) (Nat.testBit_two_pow_self)
  · obtain ⟨rs, ms, -, -, -, hothers⟩ := reply_shape g m status a ws
    exact hothers k hk
  · rw [reg_reply status a ws hcode hd]
    apply reg_eq_of_regN_eq
    rw [regN_putWords_ne ws _ 4 (fun j hj => ho j (by omega))]
    unfold Gw.replyHead
    rw [regN_setRegN_ne _ _ (ho 3 (by decide)), regN_setRegN_ne _ _ (ho 2 (by decide)),
      regN_setRegN_ne _ _ (ho 1 (by decide)), regN_setRegN_ne _ _ (ho 0 (by decide))]

end Sys2Proof.Machine
end

section
/-! SUPPORT. The key store under the key commands (R499–R511, R533, R543), and what a change of keys leaves of the queues
and the registers (R508, R514). -/

namespace Sys2Proof.Machine

/-! ### One slot of the store -/

theorem KeyStore.at'_set (ks : KeyStore) (i j : Nat) (k : KeySlot) :
    (ks.set i k).at' j = if j = i then k else ks.at' j := mgetD_mput ks.slots j i k {}

@[simp] theorem KeyStore.at'_set_same (ks : KeyStore) (i : Nat) (k : KeySlot) : (ks.set i k).at' i = k := by
  rw [KeyStore.at'_set, if_pos rfl]

/-- What the store holds besides its slots. -/
def KeyStore.besidesSlots (ks : KeyStore) : KeyStore := { ks with slots := [] }

theorem KeyStore.besidesSlots_set (ks : KeyStore) (i : Nat) (k : KeySlot) :
    (ks.set i k).besidesSlots = ks.besidesSlots := rfl

theorem KeyStore.root_of_besidesSlots {a b : KeyStore} (h : a.besidesSlots = b.besidesSlots) : a.root = b.root := by
  have hroot := congrArg KeyStore.root h
  exact hroot

theorem KeyStore.journal_of_besidesSlots {a b : KeyStore} (h : a.besidesSlots = b.besidesSlots) : a.journal = b.journal := by
  have hjournal := congrArg KeyStore.journal h
  exact hjournal

/-- Slots rewritten one after another keep what the rewriting keeps of each. -/
theorem KeyStore.foldl_set_keeps {γ : Type} (p : KeySlot → γ) (f : KeyStore → Nat → KeySlot)
    (h : ∀ ks i, p (f ks i) = p (ks.at' i)) (l : List Nat) (ks : KeyStore) (j : Nat) :
    p ((l.foldl (fun ks i => ks.set i (f ks i)) ks).at' j) = p (ks.at' j) := by
  refine foldl_same (fun ks : KeyStore => p (ks.at' j)) (fun ks i => ?_) l ks
  rw [KeyStore.at'_set]
  split
  · next hji => rw [h, hji]
  · rfl

theorem KeyStore.foldl_set_besidesSlots (f : KeyStore → Nat → KeySlot) (l : List Nat) (ks : KeyStore) :
    (l.foldl (fun ks i => ks.set i (f ks i)) ks).besidesSlots = ks.besidesSlots :=
  foldl_same KeyStore.besidesSlots (f := fun ks i => ks.set i (f ks i)) (fun _ _ => rfl) l ks

/-! ### GEN, DEPTH and revocation -/

/-- A slot without its GEN. -/
def KeySlot.besidesGen (k : KeySlot) : KeySlot := { k with gen := 0 }

theorem KeyStore.bumpGen_besidesGen (ks : KeyStore) (a j : Nat) :
    ((ks.bumpGen a).at' j).besidesGen = (ks.at' j).besidesGen :=
  KeyStore.foldl_set_keeps KeySlot.besidesGen (fun ks i => { ks.at' i with gen := ((ks.at' i).gen + 1) % 65536 })
    (fun _ _ => rfl) (ks.family a) ks j

theorem KeyStore.bumpGen_besidesSlots (ks : KeyStore) (a : Nat) : (ks.bumpGen a).besidesSlots = ks.besidesSlots :=
  KeyStore.foldl_set_besidesSlots (fun ks i => { ks.at' i with gen := ((ks.at' i).gen + 1) % 65536 }) (ks.family a) ks

theorem KeyStore.bumpGen_state (ks : KeyStore) (a j : Nat) : ((ks.bumpGen a).at' j).state = (ks.at' j).state :=
  (congrArg KeySlot.state (ks.bumpGen_besidesGen a j) :)

theorem KeyStore.bumpGen_attr (ks : KeyStore) (a j : Nat) : ((ks.bumpGen a).at' j).attr = (ks.at' j).attr :=
  (congrArg KeySlot.attr (ks.bumpGen_besidesGen a j) :)

theorem KeyStore.bumpGen_value (ks : KeyStore) (a j : Nat) : ((ks.bumpGen a).at' j).value = (ks.at' j).value :=
  (congrArg KeySlot.value (ks.bumpGen_besidesGen a j) :)

theorem KeyStore.derive_state (ks : KeyStore) (i : Nat) (k : KeySlot) : ((ks.derive i k).at' i).state = k.state := by
  have hfold := KeyStore.foldl_set_keeps KeySlot.state (fun ks j => { ks.at' j with depth := ks.depthOf 6 j })
    (fun _ _ => rfl) ((ks.set i k).family i) (ks.set i k) i
  rw [KeyStore.at'_set_same] at hfold
  exact hfold

theorem KeyStore.derive_besidesSlots (ks : KeyStore) (i : Nat) (k : KeySlot) :
    (ks.derive i k).besidesSlots = ks.besidesSlots :=
  KeyStore.foldl_set_besidesSlots (fun ks j => { ks.at' j with depth := ks.depthOf 6 j }) ((ks.set i k).family i)
    (ks.set i k)

/-- A slot once set REVOKED stays so while the rest of its family is. -/
theorem KeyStore.foldl_revoke_state (l : List Nat) (ks : KeyStore) (j : Nat) (h : (ks.at' j).state = 2) :
    ((l.foldl (fun ks i => ks.set i { ks.at' i with state := 2 }) ks).at' j).state = 2 := by
  induction l generalizing ks with
  | nil => exact h
  | cons i r ih =>
    refine ih _ ?_
    rw [KeyStore.at'_set]
    split
    · rfl
    · exact h

theorem KeyStore.revoke_state (ks : KeyStore) (i : Nat) : ((ks.revoke i).at' i).state = 2 := by
  unfold KeyStore.revoke KeyStore.family
  rw [List.foldl_cons]
  exact KeyStore.foldl_revoke_state _ _ _ (by rw [KeyStore.at'_set_same])

theorem KeyStore.revoke_besidesSlots (ks : KeyStore) (i : Nat) : (ks.revoke i).besidesSlots = ks.besidesSlots :=
  KeyStore.foldl_set_besidesSlots (fun ks j => { ks.at' j with state := 2 }) (ks.family i) ks

/-- A key command changes slots only. -/
theorem keyAfter_besidesSlots (g : Gw) (m : Nat) (ks : KeyStore) : (g.keyAfter m ks).besidesSlots = ks.besidesSlots := by
  unfold Gw.keyAfter
  dsimp only
  split_ifs
  · rfl
  · rw [KeyStore.bumpGen_besidesSlots, KeyStore.besidesSlots_set]
  · rw [KeyStore.bumpGen_besidesSlots, KeyStore.derive_besidesSlots]
  · rw [KeyStore.bumpGen_besidesSlots, KeyStore.revoke_besidesSlots]

/-- The slot that a key command names, once it has taken effect. -/
theorem keyAfter_target {g : Gw} {m : Nat} {ks : KeyStore} (hok : g.keyStatus m ks = 0) :
    (g.reqCode m = 0x0A01 → ((g.keyAfter m ks).at' (g.keyTarget m)).state = 1 ∧
      ((g.keyAfter m ks).at' (g.keyTarget m)).value = (g.provisionSlot m).value) ∧
    (g.reqCode m = 0x0A02 → ((g.keyAfter m ks).at' (g.keyTarget m)).state = 1) ∧
    (g.reqCode m = 0x0A03 → ((g.keyAfter m ks).at' (g.keyTarget m)).state = 2) := by
  have hst : ¬ g.keyStatus m ks ≠ stOk := fun h => h hok
  unfold Gw.keyAfter
  rw [if_neg hst]
  dsimp only
  refine ⟨fun hcode => ?_, fun hcode => ?_, fun hcode => ?_⟩
  · rw [if_pos hcode, KeyStore.bumpGen_state, KeyStore.bumpGen_value, KeyStore.at'_set_same]
    exact ⟨rfl, rfl⟩
  · rw [if_neg (by rw [hcode]; decide), if_pos hcode, KeyStore.bumpGen_state, KeyStore.derive_state]
    rfl
  · rw [if_neg (by rw [hcode]; decide), if_neg (by rw [hcode]; decide), KeyStore.bumpGen_state, KeyStore.revoke_state]

/-! ### Completions and invalidation leave the rest of the module -/

/-- From `g` to `h` only queues, outputs and the completion tail of queue `q` change. -/
def CompletesOnly (q : Nat) (g h : Gw) : Prop :=
  (∃ c os rs, h = { g with cryQ := c, out := os, regs := rs }) ∧ ∀ o, o ≠ Reg.cryQCtail q → h.reg o = g.reg o

theorem CompletesOnly.refl (q : Nat) (g : Gw) : CompletesOnly q g g := ⟨⟨_, _, _, rfl⟩, fun _ _ => rfl⟩

theorem CompletesOnly.trans {q : Nat} {a b c : Gw} (hab : CompletesOnly q a b) (hbc : CompletesOnly q b c) :
    CompletesOnly q a c := by
  obtain ⟨⟨_, _, _, rfl⟩, hreg⟩ := hab
  obtain ⟨⟨_, _, _, rfl⟩, hreg'⟩ := hbc
  exact ⟨⟨_, _, _, rfl⟩, fun o ho => (hreg' o ho).trans (hreg o ho)⟩

theorem CompletesOnly.setCry (q p : Nat) (g : Gw) (x : CryQueue) : CompletesOnly q g (g.setCry p x) :=
  ⟨⟨_, _, _, rfl⟩, fun _ _ => rfl⟩

theorem CompletesOnly.emit (q : Nat) (g : Gw) (x : Out) : CompletesOnly q g (g.emit x) :=
  ⟨⟨_, _, _, rfl⟩, fun _ _ => rfl⟩

theorem CompletesOnly.tail (q : Nat) (g : Gw) (v : Nat) : CompletesOnly q g (g.setRegN (Reg.cryQCtail q) v) :=
  ⟨⟨_, _, _, rfl⟩, fun _ ho => reg_setReg_ne g _ ho⟩

theorem writeDone_completesOnly (q n : Nat) (g : Gw) : CompletesOnly q g (g.writeDone q n) := by
  induction n generalizing g with
  | zero => exact CompletesOnly.refl q g
  | succ n ih =>
    unfold Gw.writeDone
    dsimp only
    split
    next j r hjobs =>
      split
      next st hstatus =>
        split
        next hhost =>
          refine CompletesOnly.trans ?_ (ih _)
          refine CompletesOnly.trans ?_ (CompletesOnly.tail q _ _)
          refine CompletesOnly.trans ?_ (CompletesOnly.emit q _ _)
          split
          · exact CompletesOnly.setCry q q g _
          · exact (CompletesOnly.setCry q q g _).trans (CompletesOnly.emit q _ _)
        next hfirmware => exact (CompletesOnly.setCry q q g _).trans (ih _)
      next => exact CompletesOnly.refl q g
    next => exact CompletesOnly.refl q g

theorem writeDone_keys (g : Gw) (q n : Nat) : (g.writeDone q n).keys = g.keys := by
  obtain ⟨⟨c, os, rs, heq⟩, -⟩ := writeDone_completesOnly q n g
  rw [heq]

theorem writeAll_keys (g : Gw) : g.writeAll.keys = g.keys :=
  foldl_same Gw.keys (fun a q => writeDone_keys a q 256) (List.range 16) g

theorem writeAll_cryFlag (g : Gw) : g.writeAll.reg Reg.cryFlag = g.reg Reg.cryFlag :=
  foldl_same (fun g : Gw => g.reg Reg.cryFlag) (fun a q => by
    exact (writeDone_completesOnly q 256 a).2 _ (by unfold Reg.cryFlag Reg.cryQCtail; omega)) (List.range 16) g

theorem invalidate_shape (g : Gw) (fam : List Nat) : ∃ h : Gw, ∃ n c d,
    g.invalidate fam = (h.bumpN Reg.cryRevFailCnt n).flag Reg.cryFlag 0x20000000 ∧ h = { g with cryQ := c, cryCache := d } := by
  have hfold : ∀ (l : List Nat) (a : Gw), ∃ c, l.foldl (fun (g : Gw) q => g.setCry q { g.cryAt q with
      stale := (g.cryAt q).stale ++ [(g.cryPosted q, fam)] }) a = { a with cryQ := c } := by
    intro l
    induction l with
    | nil => exact fun a => ⟨_, rfl⟩
    | cons q r ih =>
      intro a
      obtain ⟨c, hc⟩ := ih (a.setCry q { a.cryAt q with stale := (a.cryAt q).stale ++ [(a.cryPosted q, fam)] })
      exact ⟨c, hc⟩
  unfold Gw.invalidate
  dsimp only
  obtain ⟨c, hc⟩ := hfold (List.filter _ (List.range 16)) { g with cryQ := _, cryCache := _ }
  rw [hc]
  exact ⟨_, _, _, _, rfl, rfl⟩

theorem invalidate_keys (g : Gw) (fam : List Nat) : (g.invalidate fam).keys = g.keys := by
  obtain ⟨h, n, c, d, heq, hh⟩ := invalidate_shape g fam
  rw [heq, hh]
  rfl

theorem invalidate_cryFlag (g : Gw) (fam : List Nat) : bit ((g.invalidate fam).regN Reg.cryFlag) 29 = true := by
  obtain ⟨h, n, c, d, heq, -⟩ := invalidate_shape g fam
  rw [heq]
  exact bit_regN_flag_of_mask _ _ (by decide) (by decide)

end Sys2Proof.Machine
end

section
/-! SUPPORT. The rows of the key commands, KEY_PRIV_GO and the key services (R621–R627). -/

namespace Sys2Proof.Machine

/-! ### The rows of KEY_PROVISION, KEY_DERIVE and KEY_REVOKE -/

theorem exec_keyProvision (m : Nat) (s : State) : exec (.keyProvision m) s = answer (keyRow 0x0A01 m) s := rfl
theorem exec_keyDerive (m : Nat) (s : State) : exec (.keyDerive m) s = answer (keyRow 0x0A02 m) s := rfl
theorem exec_keyRevoke (m : Nat) (s : State) : exec (.keyRevoke m) s = answer (keyRow 0x0A03 m) s := rfl

/-- The three key commands are rows of one kind. -/
theorem exec_keyCommand {c : Instr} {code m : Nat} (s : State)
    (hc : (c, code) ∈ [(Instr.keyProvision m, 0x0A01), (Instr.keyDerive m, 0x0A02), (Instr.keyRevoke m, 0x0A03)]) :
    exec c s = answer (keyRow code m) s ∧ (code = 0x0A01 ∨ code = 0x0A02 ∨ code = 0x0A03) := by
  simp only [List.mem_cons, Prod.mk.injEq, List.not_mem_nil, or_false] at hc
  obtain ⟨rfl, rfl⟩ | ⟨rfl, rfl⟩ | ⟨rfl, rfl⟩ := hc
  · exact ⟨exec_keyProvision m s, .inl rfl⟩
  · exact ⟨exec_keyDerive m s, .inr (.inl rfl)⟩
  · exact ⟨exec_keyRevoke m s, .inr (.inr rfl)⟩

theorem reqCode_of_holds {g : Gw} {m code : Nat} (h : g.holds m code = true) : g.reqCode m = code := by
  unfold Gw.holds at h
  simp only [Bool.and_eq_true, decide_eq_true_eq] at h
  exact h.2

section
variable {s : State} {m code : Nat} (h : s.gw.holds m code = true) (hp : code = 0x0A01 → s.gw.fw.presence = true)
include h

theorem keyRow_absent (hcode : code = 0x0A01) (hp : s.gw.fw.presence = false) :
    keyRow code m s = s.withGw (s.gw.reply m stPresence 0 []) := by
  unfold keyRow
  dsimp only
  rw [if_neg (by simp [h]), if_pos ⟨hcode, hp⟩]

include hp

/-- A key command that would fail now is refused and changes no key. -/
theorem keyEffect_fails (hst : s.gw.keyStatus m s.gw.keys ≠ 0) :
    s.gw.keyEffect m = (s.gw, failWith (s.gw.keyStatus m s.gw.keys)) := by
  have hpresent : ¬ (s.gw.reqCode m = 0x0A01 && !s.gw.fw.presence) = true := by
    rw [reqCode_of_holds h]
    intro hc
    simp only [Bool.and_eq_true, decide_eq_true_eq, Bool.not_eq_true'] at hc
    exact absurd ((hp hc.1).symm.trans hc.2) (by decide)
  unfold Gw.keyEffect
  rw [if_neg hpresent]
  exact if_pos hst

theorem keyEffect_acts (hst : s.gw.keyStatus m s.gw.keys = 0) : ∃ w, s.gw.keyEffect m =
    ({ (s.gw.invalidate (s.gw.keys.family (s.gw.keyTarget m))) with keys := s.gw.keyAfter m s.gw.keys },
      { words := [w] }) := by
  have hpresent : ¬ (s.gw.reqCode m = 0x0A01 && !s.gw.fw.presence) = true := by
    rw [reqCode_of_holds h]
    intro hc
    simp only [Bool.and_eq_true, decide_eq_true_eq, Bool.not_eq_true'] at hc
    exact absurd ((hp hc.1).symm.trans hc.2) (by decide)
  have hok : ¬ s.gw.keyStatus m s.gw.keys ≠ stOk := fun hne => hne hst
  unfold Gw.keyEffect
  rw [if_neg hpresent]
  dsimp only
  rw [if_neg hok]
  exact ⟨_, rfl⟩

theorem keyRow_config_refused (hs : s.gw.serving = false) (hst : s.gw.keyStatus m s.gw.keys ≠ 0) :
    keyRow code m s = s.withGw (s.gw.reply m (s.gw.keyStatus m s.gw.keys) 0 []) := by
  have hpresent : ¬ (code = 0x0A01 ∧ s.gw.fw.presence = false) :=
    fun hc => absurd ((hp hc.1).symm.trans hc.2) (by decide)
  have hchange : keyChange m s.gw = (s.gw, failWith (s.gw.keyStatus m s.gw.keys)) := by
    unfold keyChange
    rw [keyEffect_fails h hp hst]
    exact if_neg hst
  unfold keyRow
  dsimp only
  rw [if_neg (by simp [h]), if_neg hpresent, if_neg (by simp [hs]), hchange]
  exact congrArg (fun g : Gw => s.withGw (g.finish m 0 (failWith (s.gw.keyStatus m s.gw.keys)))) (if_neg hst)

/-- In CONFIG a key command takes effect at once, with its record in the journal. -/
theorem keyRow_config_done (hs : s.gw.serving = false) (hst : s.gw.keyStatus m s.gw.keys = 0) : ∃ (g : Gw) (w : Nat),
    keyRow code m s = s.withGw (g.reply m 0 0 [w]) ∧
    g.keys = { s.gw.keyAfter m s.gw.keys with journal := s.gw.keys.journal ++ [s.gw.keyRecord m] } := by
  have hpresent : ¬ (code = 0x0A01 ∧ s.gw.fw.presence = false) :=
    fun hc => absurd ((hp hc.1).symm.trans hc.2) (by decide)
  obtain ⟨w, heff⟩ := keyEffect_acts h hp hst
  obtain ⟨g, hg⟩ : ∃ g, g = ({ (s.gw.invalidate (s.gw.keys.family (s.gw.keyTarget m))) with
      keys := s.gw.keyAfter m s.gw.keys } : Gw).writeAll := ⟨_, rfl⟩
  have hkeys : g.keys = s.gw.keyAfter m s.gw.keys := by
    rw [hg, writeAll_keys]
  have hchange : keyChange m s.gw = (g, { words := [w] }) := by
    unfold keyChange
    rw [heff, hg]
    exact if_pos rfl
  have hjournal : g.keys.journal = s.gw.keys.journal := by
    rw [hkeys]
    exact KeyStore.journal_of_besidesSlots (keyAfter_besidesSlots s.gw m s.gw.keys)
  refine ⟨{ g with keys := { g.keys with journal := g.keys.journal ++ [s.gw.keyRecord m] } }, w, ?_, ?_⟩
  · unfold keyRow
    dsimp only
    rw [if_neg (by simp [h]), if_neg hpresent, if_neg (by simp [hs]), hchange]
    rfl
  · rw [hjournal, hkeys]

theorem keyRow_run_early (hs : s.gw.serving = true) (hreq : s.gw.reqApply m ≠ 0)
    (hearly : (s.gw.reqApply m : Int) < s.gw.now + 800000) :
    keyRow code m s = s.withGw (s.gw.reply m stBadArg (max s.gw.soonest (s.gw.now + 800000)) []) := by
  have hpresent : ¬ (code = 0x0A01 ∧ s.gw.fw.presence = false) :=
    fun hc => absurd ((hp hc.1).symm.trans hc.2) (by decide)
  have hsoon : (Int.ofNat (s.gw.reqApply m) ≠ 0 ∧
      Int.ofNat (s.gw.reqApply m) < max s.gw.soonest (s.gw.now + 800000)) :=
    ⟨fun h0 => hreq (Int.ofNat.inj h0), lt_of_lt_of_le hearly (le_max_right _ _)⟩
  unfold keyRow
  dsimp only
  rw [if_neg (by simp [h]), if_neg hpresent, if_pos hs, if_pos hsoon]

/-- The change of a key command that names no stamp: 100 µs from now at the soonest (R510). -/
def Gw.soonestKeyChange (g : Gw) (m : Nat) : Change :=
  { t := max g.soonest (g.now + 800000), rank := m, seq := g.str.accepted, act := .mailbox m, seg := g.tb.seg }

/-- A key command without a stamp of its own takes the soonest that R510 allows. -/
theorem keyRow_run_soonest (hs : s.gw.serving = true) (hreq : s.gw.reqApply m = 0) :
    keyRow code m s =
      if s.gw.keyStatus m (s.gw.keysAt s.gw.tb.seg (max s.gw.soonest (s.gw.now + 800000))) ≠ 0 then
        s.withGw (s.gw.reply m
          (s.gw.keyStatus m (s.gw.keysAt s.gw.tb.seg (max s.gw.soonest (s.gw.now + 800000)))) 0 [])
      else s.withGw { ((s.gw.journal (some s.gw.str.accepted) (s.gw.keyRecord m)).setMbx m
          { s.gw.mbxAt m with taken := false }) with
        str := { s.gw.str with
          changes := s.gw.str.changes ++ [s.gw.soonestKeyChange m],
          accepted := s.gw.str.accepted + 1 } } := by
  have hpresent : ¬ (code = 0x0A01 ∧ s.gw.fw.presence = false) :=
    fun hc => absurd ((hp hc.1).symm.trans hc.2) (by decide)
  unfold keyRow
  dsimp only
  rw [if_neg (by simp [h]), if_neg hpresent, if_pos hs, hreq]
  rfl

end

/-! ### The journal -/

theorem exec_journalRecordCommit (s : State) :
    exec .journalRecordCommit s = answer (onGw (fun g => g.commitRecord g.sealIndex)) s := rfl

theorem commitRecord_keys {g : Gw} {q : Option Nat} {r : JRec} {rest : List (Option Nat × JRec)} (f : Nat → Option Nat)
    (h : g.keys.pending = (q, r) :: rest) :
    (g.commitRecord f).keys = { g.keys with pending := rest, journal := g.keys.journal ++ [r] } := by
  unfold Gw.commitRecord
  rw [h]
  dsimp only
  split
  · split <;> rfl
  · rfl

/-! ### KEY_PRIV_GO -/

theorem exec_keyPrivGo (ctl : W32) (data : List Byte) (s : State) : exec (.keyPrivGo ctl data) s =
    answer (onGw (fun g => if g.privTakes ctl.toNat data then
      (g.privGo (bits ctl.toNat 5 0) (privSlot ctl.toNat data)).writeAll else g)) s := rfl

theorem length_padTo (n : Nat) (bs : List Byte) : (padTo n bs).length = n := by
  unfold padTo
  rw [List.length_append, List.length_take, List.length_replicate]
  omega

/-- A slot that KEY_MKA_SLOTS leaves to KEY_PROVISION takes the value of one in hand, under presence. -/
theorem privTakes_service {g : Gw} {ctl : Nat} {data : List Byte} (hmka : g.mkaSlot (bits ctl 5 0) = false)
    (hon : g.islOn 11 = true) (hgo : bit ctl 31 = true) : g.privTakes ctl data = true ↔ g.fw.presence = true ∧
      ∃ m < 4, g.holds m 0x0A01 = true ∧ bits (g.arg m 0) 5 0 = bits ctl 5 0 ∧ g.provisionSlot m = privSlot ctl data := by
  unfold Gw.privTakes
  simp [hmka, hon, hgo, and_assoc]

/-- A slot that KEY_MKA_SLOTS reserves takes a SAK that the module has drawn. -/
theorem privTakes_mka {g : Gw} {ctl : Nat} {data : List Byte} (hmka : g.mkaSlot (bits ctl 5 0) = true)
    (hon : g.islOn 11 = true) (hgo : bit ctl 31 = true) : g.privTakes ctl data = true ↔
      ∃ q ∈ g.mka, (q.2.encSlot = some (bits ctl 5 0) ∨ q.2.decSlot = some (bits ctl 5 0)) ∧ bit ctl 10 = true ∧
        q.2.sak.length = 32 ∧ padTo 32 data = q.2.sak := by
  unfold Gw.privTakes
  simp [hmka, hon, hgo, and_assoc]

theorem privGo_keys (g : Gw) (i : Nat) (k : KeySlot) : ((g.privGo i k).keys.at' i).state = k.state ∧
    ((g.privGo i k).keys.at' i).attr = k.attr ∧ ((g.privGo i k).keys.at' i).value = k.value ∧
    (g.privGo i k).keys.journal = g.keys.journal ++ [.priv i k g.keys.root] := by
  have hstore : (g.privGo i k).keys = { (g.keys.set i { k with gen := (g.keys.at' i).gen }).bumpGen i with
      journal := ((g.keys.set i { k with gen := (g.keys.at' i).gen }).bumpGen i).journal ++
        [.priv i k ((g.keys.set i { k with gen := (g.keys.at' i).gen }).bumpGen i).root] } := by
    unfold Gw.privGo
    dsimp only
    rw [invalidate_keys]
  have hrest := ((g.keys.set i { k with gen := (g.keys.at' i).gen }).bumpGen_besidesSlots i).trans
    (KeyStore.besidesSlots_set g.keys i { k with gen := (g.keys.at' i).gen })
  have hset := g.keys.at'_set_same i { k with gen := (g.keys.at' i).gen }
  rw [hstore]
  refine ⟨?_, ?_, ?_, ?_⟩
  · exact (KeyStore.bumpGen_state _ i i).trans (by rw [hset])
  · exact (KeyStore.bumpGen_attr _ i i).trans (by rw [hset])
  · exact (KeyStore.bumpGen_value _ i i).trans (by rw [hset])
  · exact congrArg₂ (fun l r => l ++ [JRec.priv i k r]) (KeyStore.journal_of_besidesSlots hrest)
      (KeyStore.root_of_besidesSlots hrest)

theorem privGo_cryFlag (g : Gw) (i : Nat) (k : KeySlot) : bit ((g.privGo i k).regN Reg.cryFlag) 29 = true :=
  invalidate_cryFlag g (g.keys.family i)

/-! ### KEY_ROOT_NEW, KEY_INFO and KEY_ATTEST -/

theorem exec_keyRootNew (m : Nat) (s : State) :
    exec (.keyRootNew m) s = answer (directRow 0x0A04 (effGw keyRootNew) m) s := rfl
theorem exec_keyInfo (m : Nat) (s : State) :
    exec (.keyInfo m) s = answer (directRow 0x0A05 (effGw keyInfo) m) s := rfl
theorem exec_keyAttest (m : Nat) (s : State) : exec (.keyAttest m) s = answer (directRow 0x0A06 keyAttest m) s := rfl

theorem find?_range_lowest {p : Nat → Bool} {n b : Nat} (hb : b < n) (hp : p b = true) (hlow : ∀ j < b, p j = false) :
    (List.range n).find? p = some b :=
  List.find?_range_eq_some.mpr ⟨hp, List.mem_range.mpr hb, fun j hj => by rw [hlow j hj]; rfl⟩

/-- The root comes into the lowest bank that is unused and not revoked. -/
theorem keyRootNew_acts {g : Gw} {m b : Nat} {x : RootBank} (hp : g.fw.presence = true) (hstat : g.keys.rootStat = 2)
    (hb : b < 4) (hx : g.keys.banks[b]? = some x) (hroot : x.root = none) (hrev : x.revoked = false)
    (hlow : ∀ j y, j < b → g.keys.banks[j]? = some y → y.root ≠ none ∨ y.revoked = true) (htrng : g.trngOk = true) :
    keyRootNew m g = ({ g with
      boot := { g.boot with rootNew := true }
      fw := { g.fw with resetAt := some (g.tb.tick + 500000) } }, { words := [b] }) := by
  unfold keyRootNew
  rw [if_neg (by simp [hp]), if_neg (by simp [hstat]), find?_range_lowest hb]
  · exact if_neg (by simp [htrng])
  · simp [hx, hroot, hrev]
  · intro j hj
    cases hy : g.keys.banks[j]? with
    | none => rfl
    | some y =>
      rcases hlow j y hj hy with hne | hrevoked
      · simp [hne]
      · simp [hrevoked]

/-- The bytes that KEY_ATTEST writes: the public key, or the header and the signature of the report. -/
def attestOut (g : Gw) (m r : Nat) : List Byte :=
  if bit (g.arg m 9) 0 then padTo 2592 (mldsaPublic (attestSeed r))
  else g.attestHeader (g.argBytes m 0 32) ++
    padTo 4627 (mldsaSign (attestSeed r) (sha3x512 (g.attestHeader (g.argBytes m 0 32))))

theorem keyAttest_acts {s : State} {m r : Nat} (halign : s.gw.arg m 8 % 64 = 0)
    (hroom : s.gw.arg m 8 + (if bit (s.gw.arg m 9) 0 then 2592 else 4755) ≤ s.gw.regionMib 5 * mib)
    (hroot : s.gw.keys.root = some r) : keyAttest m s =
      ({ s with dram := dramWrite s.dram (s.gw.regionBase 5 * mib + s.gw.arg m 8) (attestOut s.gw m r) },
        { words := [if bit (s.gw.arg m 9) 0 then 2592 else 4755] }) := by
  unfold keyAttest
  dsimp only
  rw [if_neg (by simp [halign]; omega), hroot]
  rfl

theorem keyAttest_refused {s : State} {m : Nat} (h : s.gw.arg m 8 % 64 ≠ 0 ∨
    s.gw.regionMib 5 * mib < s.gw.arg m 8 + (if bit (s.gw.arg m 9) 0 then 2592 else 4755)) :
    keyAttest m s = (s, failWith stBadArg) :=
  if_pos (by simpa using h)

end Sys2Proof.Machine
end

section
/-! The statement on key commands. -/

namespace Sys2Proof.Machine

/-- Settles O39: each row is read off its branches; a key command rewrites slots alone, its target last of all by GEN, and
the completions that it ends leave the store. -/
theorem keyCommands : Obligations.KeyCommands := by
  unfold Obligations.KeyCommands
  refine ⟨fun s m h hp => ?absent, fun s m code c hs h hp hc => ?config, fun s m code c hs h hp hc => ?run,
    fun s q r rest hpend => ?commit, fun s ctl data i k hon hgo hi hk => ?priv, fun s m h hp => ?rootNew,
    fun s m i h hi => ?info, fun s m len h hlen => ?attest⟩
  case absent =>
    rw [exec_keyProvision]
    exact answer_of_withGw (keyRow_absent h rfl hp)
  case config =>
    obtain ⟨hexec, hcode⟩ := exec_keyCommand s hc
    rw [hexec]
    refine ⟨fun hst => answer_of_withGw (keyRow_config_refused h hp hs hst), fun hst => ?_⟩
    obtain ⟨g, w, hrow, hkeys⟩ := keyRow_config_done h hp hs hst
    obtain ⟨rs, ms, hreply, hdone, -⟩ := reply_shape g m 0 0 [w]
    have hstore : (s.after (g.reply m 0 0 [w])).gw.keys =
        { s.gw.keyAfter m s.gw.keys with journal := s.gw.keys.journal ++ [s.gw.keyRecord m] } := by
      rw [after_gw, interrupts_keys, hreply, ← hkeys]
    obtain ⟨hprovision, hderive, hrevoke⟩ := keyAfter_target hst
    rw [reqCode_of_holds h] at hprovision hderive hrevoke
    refine ⟨_, answer_of_withGw hrow, ?_, ?_, fun hc1 => ?_, by rw [hstore]⟩
    · rw [after_gw, Gw.mbxAt, interrupts_mbx]
      exact hdone
    · rw [hstore]
      obtain rfl | rfl | rfl := hcode
      · exact (hprovision rfl).1
      · exact hderive rfl
      · exact hrevoke rfl
    · rw [hstore]
      exact (hprovision hc1).2
  case run =>
    obtain ⟨hexec, -⟩ := exec_keyCommand s hc
    rw [hexec]
    refine ⟨fun hreq hearly => answer_of_withGw (keyRow_run_early h hp hs hreq hearly), fun hreq hst => ?_,
      fun hreq hst => ?_⟩
    · exact answer_of_withGw ((keyRow_run_soonest h hp hs hreq).trans (if_pos hst))
    · refine ⟨_, s.gw.soonestKeyChange m, answer_of_withGw ((keyRow_run_soonest h hp hs hreq).trans (if_neg (not_not.mpr hst))),
        ?_, ?_, ?_, ?_, ?_⟩
      · rw [after_gw, interrupts_str]
      · rfl
      · exact le_max_right _ _
      · rw [after_gw, interrupts_keys]
        rfl
      · rw [Gw.recordWaits, after_gw, interrupts_keys]
        simp [Gw.journal, Gw.setMbx, Gw.soonestKeyChange]
  case commit =>
    rw [exec_journalRecordCommit, answer_onGw]
    refine ⟨_, rfl, ?_⟩
    rw [after_gw, interrupts_keys, commitRecord_keys _ hpend]
    exact ⟨rfl, rfl, rfl⟩
  case priv =>
    subst hi hk
    rw [exec_keyPrivGo, answer_onGw]
    refine ⟨fun hmka hno => ?_, fun hmka hno => ?_, fun hyes => ?_⟩
    · rw [if_neg, after_self]
      rw [privTakes_service hmka hon hgo]
      rintro ⟨hp, m, hm, hh, hslot, hval⟩
      rcases hno with habsent | hother
      · exact absurd (hp.symm.trans habsent) (by decide)
      · exact (hother m hm hh).elim (fun hne => hne hslot) (fun hne => hne hval)
    · rw [if_neg, after_self]
      rw [privTakes_mka hmka hon hgo]
      rintro ⟨q, hq, hslot, -, -, hsak⟩
      rcases hno q hq with ⟨henc, hdec⟩ | hne
      · exact hslot.elim henc hdec
      · exact hne hsak
    · have htakes : s.gw.privTakes ctl.toNat data = true := by
        rcases hyes with ⟨hmka, hp, m, hm, hh, hslot, hval⟩ | ⟨hmka, hlen, q, hq, hslot, hsak⟩
        · exact (privTakes_service hmka hon hgo).mpr ⟨hp, m, hm, hh, hslot, hval⟩
        · exact (privTakes_mka hmka hon hgo).mpr ⟨q, hq, hslot, hlen, hsak ▸ length_padTo 32 data, hsak⟩
      obtain ⟨hstate, hattr, hvalue, hjournal⟩ := privGo_keys s.gw (bits ctl.toNat 5 0) (privSlot ctl.toNat data)
      rw [if_pos htakes]
      refine ⟨_, rfl, ?_⟩
      rw [after_gw, interrupts_keys, writeAll_keys]
      refine ⟨hstate, hattr, hvalue, hjournal, ?_⟩
      have hflag : (s.gw.interrupts (s.gw.privGo (bits ctl.toNat 5 0) (privSlot ctl.toNat data)).writeAll).regN Reg.cryFlag =
          (s.gw.privGo (bits ctl.toNat 5 0) (privSlot ctl.toNat data)).regN Reg.cryFlag :=
        (regN_after s _ (by decide)).trans (congrArg BitVec.toNat (writeAll_cryFlag _))
      rw [hflag]
      exact privGo_cryFlag _ _ _
  case rootNew =>
    rw [exec_keyRootNew]
    refine ⟨fun hstat => ?_, fun b x hstat hb hx hroot hrev hlow htrng => ?_⟩
    · refine answer_of_withGw (directRow_failWith h ?_)
      unfold keyRootNew
      rw [if_neg (by simp [hp]), if_pos hstat]
      rfl
    · exact answer_of_withGw (directRow_words h (keyRootNew_acts hp hstat hb hx hroot hrev hlow htrng))
  case info =>
    subst hi
    rw [exec_keyInfo]
    refine answer_of_withGw (directRow_words h ?_)
    unfold keyInfo
    simp only [Bool.and_eq_true, decide_eq_true_eq]
  case attest =>
    subst hlen
    rw [exec_keyAttest]
    refine ⟨fun hbad => ?_, fun r halign hroom hroot => ⟨attestOut s.gw m r, ?_, fun hpub => ?_, fun hrep => ?_⟩⟩
    · refine answer_of_withGw ?_
      rw [directRow_holds _ h, keyAttest_refused hbad]
      rfl
    · have hrow : directRow 0x0A06 keyAttest m s = { s with
          gw := s.gw.reply m 0 0 [if bit (s.gw.arg m 9) 0 then 2592 else 4755],
          dram := dramWrite s.dram (s.gw.regionBase 5 * mib + s.gw.arg m 8) (attestOut s.gw m r) } := by
        rw [directRow_holds _ h, keyAttest_acts halign hroom hroot]
        rfl
      rw [answer_of_eq hrow]
      rfl
    · rw [attestOut, if_pos hpub, length_padTo]
    · rw [attestOut, if_neg (by simp [hrep])]
      rfl

end Sys2Proof.Machine
end

section
/-! SUPPORT. The power die at a reading of its counter: event messages, commanded states over all channels, and folds that
visit each channel once (R648–R672). -/

namespace Sys2Proof.Machine

/-! ### A fold that visits each key once -/

/-- Where each step changes the value of its own key alone and keeps an invariant, the fold over keys without repeats leaves
at a key of the list what its step makes of a state with the same value there. -/
theorem foldl_at_key {σ κ : Type} (value : σ → Nat → κ) (inv : σ → Prop) (step : σ → Nat → σ)
    (hother : ∀ s n k, k ≠ n → value (step s n) k = value s k) (hinv : ∀ s n, inv s → inv (step s n))
    {l : List Nat} (hl : l.Nodup) {k : Nat} (hk : k ∈ l) {s : σ} (hs : inv s) :
    ∃ u, inv u ∧ value u k = value s k ∧ value (l.foldl step s) k = value (step u k) k := by
  induction l generalizing s with
  | nil => cases hk
  | cons n r ih =>
    obtain ⟨hn, hr⟩ := List.nodup_cons.mp hl
    rcases List.mem_cons.mp hk with rfl | hmem
    · refine ⟨s, hs, rfl, ?_⟩
      have hrest : ∀ (m : List Nat) (v : σ), k ∉ m → value (m.foldl step v) k = value v k := by
        intro m
        induction m with
        | nil => exact fun _ _ => rfl
        | cons j t iht =>
          intro v hj
          obtain ⟨hne, ht⟩ := not_or.mp (fun h => hj (List.mem_cons.mpr h))
          exact (iht _ ht).trans (hother v j k hne)
      exact hrest r _ hn
    · obtain ⟨u, hu, hval, hfold⟩ := ih hr hmem (hinv s n hs)
      have hne : k ≠ n := fun h => hn (h ▸ hmem)
      exact ⟨u, hu, hval.trans (hother s n k hne), hfold⟩

/-! ### Commands at a time of the power die's counter -/

/-- The power die's counter read as `us`. -/
def Gw.pdTime (g : Gw) (us : Nat) : Gw := { g with pdie := { g.pdie with us := us } }

theorem answer_pdAt {s : State} {us : Nat} (f : Gw → Gw) (hn : s.gw.partN = false) (hus : s.gw.pdie.us ≤ us) :
    answer (onGw (fun g => g.pdAt us f)) s = .next (s.after (f (s.gw.pdTime us))) := by
  rw [answer_onGw, pdAt_of_le f hn hus]
  rfl

theorem pdie_after (s : State) (g : Gw) : (s.after g).gw.pdie = g.pdie := interrupts_pdie s.gw g

theorem die_after (s : State) (g : Gw) : (s.after g).gw.die = g.die := interrupts_die s.gw g

theorem pwrFlag_after (s : State) (g : Gw) : (s.after g).gw.regN Reg.pwrFlag = g.regN Reg.pwrFlag :=
  regN_after s g (by decide)

/-! ### Event messages (R668) -/

theorem pdEvent_pdie (g : Gw) (n : Option Nat) {f : Gw → Gw} (hf : ∀ h, (f h).pdie = h.pdie) :
    (g.pdEvent n f).pdie = g.pdie := by
  unfold Gw.pdEvent
  split
  · exact hf _
  · rfl

/-- An event that the firmware hears: what the message does to the gateway die follows the noted state. -/
theorem pdEvent_heard {g : Gw} (n : Option Nat) (f : Gw → Gw) (h : g.pairRuns 1 = true) : ∃ d : DieLink,
    g.pdEvent n f = f { g with die := d } ∧ d.seen.hold = g.pdie.hold := by
  unfold Gw.pdEvent
  rw [if_pos (show g.hears = true from h)]
  cases n with
  | none => exact ⟨_, rfl, rfl⟩
  | some k => exact ⟨_, rfl, rfl⟩

theorem pdCount_pdie (n cause : Nat) (g : Gw) : (pdCount n cause g).pdie = g.pdie := by
  unfold pdCount
  split_ifs <;> rfl

/-- The flag bit of a latch-off cause (R658). -/
theorem pdCount_flag (n : Nat) {cause : Nat} (g : Gw) (h : cause = 1 ∨ cause = 2) :
    bit ((pdCount n cause g).regN Reg.pwrFlag) (if cause = 1 then 31 else 29) = true := by
  rcases h with rfl | rfl
  · exact bit_regN_flag_of_mask _ _ (by decide) (by decide)
  · exact bit_regN_flag_of_mask _ _ (by decide) (by decide)

/-! ### The commanded state (R649, R651) -/

/-- What neither switching on nor switching off alters stays as the command makes it. -/
theorem command_keeps {γ : Type} (q : PdChan → γ) (hon : ∀ (p : Pdie) n c, q (p.turnOn n c) = q c)
    (hoff : ∀ c : PdChan, q c.turnOff = q c) (hduty : ∀ (c : PdChan) d, q { c with actDuty := d } = q c)
    (p : Pdie) (n : Nat) (f : PdChan → PdChan) : q ((p.command n f).chan n) = q (f (p.chan n)) := by
  unfold Pdie.command
  dsimp only
  split_ifs
  · rw [chan_setChan, if_pos rfl]
  · rw [chan_setChan, if_pos rfl, hon]
  · rw [chan_setChan, if_pos rfl, hoff]
  · rw [chan_setChan, if_pos rfl, hduty]
  · rw [chan_setChan, if_pos rfl]

theorem command_latched (p : Pdie) (n : Nat) (f : PdChan → PdChan) :
    ((p.command n f).chan n).latched = (f (p.chan n)).latched :=
  command_keeps PdChan.latched (fun _ _ _ => rfl) (fun _ => rfl) (fun _ _ => rfl) p n f

theorem command_supply (p : Pdie) (n : Nat) (f : PdChan → PdChan) : (p.command n f).supply = p.supply := by
  unfold Pdie.command Pdie.noteLimitEnd
  dsimp only
  split_ifs <;> rfl

/-- With the supply in range the output of a channel that is not latched follows its commanded state. -/
theorem command_out {p : Pdie} {n : Nat} {f : PdChan → PdChan} (hlatch : (f (p.chan n)).latched = false)
    (hsupply : p.supply = 0) (hf : (f (p.chan n)).out = (p.chan n).out) :
    ((p.command n f).chan n).out = (f (p.chan n)).wants := by
  unfold Pdie.command
  dsimp only
  rw [if_neg (by simp [hlatch, hsupply])]
  by_cases hwants : (f (p.chan n)).wants = true
  · by_cases hout : (p.chan n).out = true
    · rw [if_neg (by simp [hout]), if_neg (by simp [hwants])]
      split <;> rw [chan_setChan, if_pos rfl] <;> exact (hf.trans hout).trans hwants.symm
    · rw [if_pos (by simp [hout, hwants]), chan_setChan, if_pos rfl, hwants]
      rfl
  · by_cases hout : (p.chan n).out = true
    · rw [if_neg (by simp [hout]), if_pos (by simp [hout, hwants]), chan_setChan, if_pos rfl,
        Bool.eq_false_iff.mpr hwants]
      rfl
    · rw [if_neg (by simp [hwants]), if_neg (by simp [hout])]
      split <;> rw [chan_setChan, if_pos rfl] <;>
        exact (hf.trans (Bool.eq_false_iff.mpr hout)).trans (Bool.eq_false_iff.mpr hwants).symm

/-- One commanded state given to all sixteen channels, at one of them. -/
theorem foldl_command_at (f : PdChan → PdChan) (p : Pdie) {k : Nat} (hk : k < 16) : ∃ q : Pdie,
    q.supply = p.supply ∧ q.chan k = p.chan k ∧
      ((List.range 16).foldl (fun (p : Pdie) n => p.command n f) p).chan k = (q.command k f).chan k :=
  foldl_at_key Pdie.chan (fun q => q.supply = p.supply) (fun p n => p.command n f)
    (fun p _ _ h => command_other p f h) (fun q n h => (command_supply q n f).trans h)
    List.nodup_range (List.mem_range.mpr hk) rfl

theorem foldl_all {σ : Type} (p : Pdie) (step : σ → Nat × PdChan → σ) (s : σ) :
    p.all.foldl step s = (List.range 16).foldl (fun s n => step s (n, p.chan n)) s := List.foldl_map ..

theorem chan_safeDone (p : Pdie) (b : Bool) (n : Nat) : ({ p with safeDone := b } : Pdie).chan n = p.chan n := rfl

/-! ### Hold and the safe states (R669, R670) -/

/-- A channel commanded to its safe state. -/
def PdChan.toSafe (c : PdChan) : PdChan := { c with cmd := 3 }

theorem safeStates_pdie (g : Gw) : g.safeStates.pdie =
    { (List.range 16).foldl (fun (p : Pdie) n => p.command n PdChan.toSafe) g.pdie with safeDone := true } := by
  unfold Gw.safeStates
  exact pdEvent_pdie _ _ (f := fun g => g.flag Reg.pwrFlag 0x01000000) (fun _ => rfl)

theorem toSafe_wants (c : PdChan) : c.toSafe.wants = (c.prof.safe != 0) := by
  rw [Bool.eq_iff_iff]
  simp only [PdChan.wants, PdChan.toSafe, Nat.reduceEqDiff, decide_false, decide_true, Bool.false_or, Bool.true_and,
    bne_iff_ne]
  exact decide_eq_true_iff

theorem safeStates_chan (g : Gw) {n : Nat} (hn : n < 16) : (g.safeStates.pdie.chan n).cmd = 3 ∧
    ((g.safeStates.pdie.chan n).latched = false → g.pdie.supply = 0 →
      (g.safeStates.pdie.chan n).out = ((g.pdie.chan n).prof.safe != 0)) := by
  obtain ⟨q, hsupply, hval, hfold⟩ := foldl_command_at PdChan.toSafe g.pdie hn
  have hchan : g.safeStates.pdie.chan n = (q.command n PdChan.toSafe).chan n := by
    rw [safeStates_pdie]
    exact (chan_safeDone _ true n).trans hfold
  rw [hchan]
  refine ⟨by rw [command_cmd]; rfl, fun hlatch hin => ?_⟩
  rw [command_latched] at hlatch
  rw [command_out hlatch (hsupply.trans hin) rfl, hval, toSafe_wants]

/-! ### Telemetry (R667) -/

/-- A channel with the telemetry of a status message. -/
def PdChan.measured (c : PdChan) (n : Nat) (cur : List Nat) (tj : List Int) : PdChan :=
  { c with cur := min 4095 (cur.getD n 0 / telemetryLsb n), tj := tj.getD n c.tj }

/-- The power die with the telemetry of a status message in every channel. -/
def Pdie.measured (p : Pdie) (cur : List Nat) (tj : List Int) : Pdie :=
  (List.range 16).foldl (fun (q : Pdie) n => q.setChan n ((q.chan n).measured n cur tj)) p

theorem measured_chan (p : Pdie) (cur : List Nat) (tj : List Int) {n : Nat} (hn : n < 16) :
    (p.measured cur tj).chan n = (p.chan n).measured n cur tj := by
  obtain ⟨q, -, hval, hfold⟩ := foldl_at_key Pdie.chan (fun _ => True)
    (fun (q : Pdie) n => q.setChan n ((q.chan n).measured n cur tj))
    (fun q j k h => by rw [chan_setChan, if_neg h]) (fun _ _ _ => trivial) List.nodup_range (List.mem_range.mpr hn)
    (s := p) trivial
  rw [Pdie.measured, hfold, chan_setChan, if_pos rfl, hval]

theorem measured_disc (p : Pdie) (cur : List Nat) (tj : List Int) : (p.measured cur tj).disc = p.disc :=
  foldl_same Pdie.disc (f := fun (q : Pdie) n => q.setChan n ((q.chan n).measured n cur tj)) (fun _ _ => rfl) _ p

/-- The fields of a status message that belong to no channel. -/
def Pdie.withReport (q : Pdie) (vbat : Nat) (temp : Int) (seq us : Nat) : Pdie :=
  { q with vbat := vbat, temp := temp, seq := seq, lastStatus := us }

theorem withReport_disc (q : Pdie) (vbat : Nat) (temp : Int) (seq us : Nat) :
    (q.withReport vbat temp seq us).disc = q.disc := rfl

theorem withReport_chan (q : Pdie) (vbat : Nat) (temp : Int) (seq us n : Nat) :
    (q.withReport vbat temp seq us).chan n = q.chan n := rfl

/-- The power die as a status message reports it. -/
def Pdie.reported (p : Pdie) (cur : List Nat) (tj : List Int) (vbat : Nat) (temp : Int) : Pdie :=
  (p.measured cur tj).withReport vbat temp ((p.seq + 1) % 65536) p.us

theorem reported_disc (p : Pdie) (cur : List Nat) (tj : List Int) (vbat : Nat) (temp : Int) :
    (p.reported cur tj vbat temp).disc = p.disc := by
  rw [Pdie.reported, withReport_disc, measured_disc]

theorem reported_chan (p : Pdie) (cur : List Nat) (tj : List Int) (vbat : Nat) (temp : Int) {n : Nat} (hn : n < 16) :
    (p.reported cur tj vbat temp).chan n = (p.chan n).measured n cur tj := by
  rw [Pdie.reported, withReport_chan, measured_chan p cur tj hn]

/-- A status message taken by the firmware: the report is noted, and its two marks are cleared. -/
def Gw.statusTaken (g : Gw) (q : Pdie) : Gw :=
  { g with
    pdie := { q with disc := false, adopt := q.adopt && !g.hears }
    die := { g.die with seen := q, link := true, sample := (g.now / 8).toNat } }

theorem statusMessage_heard {g : Gw} (cur : List Nat) (tj : List Int) (vbat : Nat) (temp : Int)
    (hdue : g.pdie.lastStatus + 500 ≤ g.pdie.us) (hrun : g.hears = true) {q : Pdie}
    (hq : q = g.pdie.reported cur tj vbat temp) : ∃ h : Gw,
      h = (if q.disc then (g.statusTaken q).flag Reg.pwrFlag 0x00800000 else g.statusTaken q) ∧
      g.statusMessage cur tj vbat temp =
        if q.adopt then h.note "power states adopted" (q.all.map (fun x => Int.ofNat x.2.cmd)) else h := by
  subst hq
  have hears : ∀ p, ({ g with pdie := p } : Gw).hears = true := fun _ => hrun
  refine ⟨_, rfl, ?_⟩
  unfold Gw.statusMessage
  rw [if_pos hdue]
  dsimp only
  rw [if_pos (hears _)]
  unfold Gw.statusTaken Pdie.reported Pdie.withReport Pdie.measured PdChan.measured
  generalize List.foldl _ g.pdie (List.range 16) = q
  rfl

/-! ### Supply (R648, R654) -/

/-- The power die with every conducting channel switched off. -/
def Pdie.allOff (p : Pdie) : Pdie :=
  p.all.foldl (fun (q : Pdie) x => if x.2.out then (q.noteLimitEnd x.2).setChan x.1 x.2.turnOff else q) p

theorem allOff_chan (p : Pdie) {n : Nat} (hn : n < 16) :
    (p.allOff.chan n).out = false ∧ (p.allOff.chan n).cmd = (p.chan n).cmd := by
  obtain ⟨q, -, hval, hfold⟩ := foldl_at_key Pdie.chan (fun _ => True)
    (fun (q : Pdie) n => if (p.chan n).out then (q.noteLimitEnd (p.chan n)).setChan n (p.chan n).turnOff else q)
    (fun q j k h => by
      split
      · rw [chan_setChan, if_neg h, chan_noteLimitEnd]
      · rfl) (fun _ _ _ => trivial) List.nodup_range (List.mem_range.mpr hn) (s := p) trivial
  rw [Pdie.allOff, foldl_all, hfold]
  by_cases hout : (p.chan n).out = true
  · rw [if_pos hout, chan_setChan, if_pos rfl]
    exact ⟨rfl, rfl⟩
  · rw [if_neg hout, hval]
    exact ⟨Bool.eq_false_iff.mpr hout, rfl⟩

theorem supplyOff_pdie {g : Gw} {code : Nat} (hne : g.pdie.supply ≠ code) (hcode : code = 1 ∨ code = 2) :
    (g.supplyOff code).pdie.supply = code ∧ (g.supplyOff code).pdie.chans = g.pdie.allOff.chans := by
  have hacts : (g.supplyOff code).pdie = if code = 1 then
      { g.pdie.allOff with supply := 1, uvChanges := g.pdie.allOff.uvChanges + 1 }
    else { g.pdie.allOff with supply := 2, ovChanges := g.pdie.allOff.ovChanges + 1 } := by
    unfold Gw.supplyOff
    rw [if_neg hne]
    exact pdEvent_pdie _ none (f := fun g => g.flag Reg.pwrFlag (if code = 1 then 0x08000000 else 0x04000000))
      (fun _ => rfl)
  rw [hacts]
  rcases hcode with rfl | rfl <;> exact ⟨rfl, rfl⟩

/-- The power die with the supply back in range, before the channels follow. -/
def Pdie.supplied (p : Pdie) : Pdie :=
  if p.supply = 1 then { p with supply := 0, uvChanges := p.uvChanges + 1 }
  else { p with supply := 0, ovChanges := p.ovChanges + 1 }

theorem supplied_supply (p : Pdie) : p.supplied.supply = 0 := by
  unfold Pdie.supplied
  split <;> rfl

theorem supplied_chan (p : Pdie) (n : Nat) : p.supplied.chan n = p.chan n := by
  unfold Pdie.supplied
  split <;> rfl

theorem supplyBack_pdie {g : Gw} (hne : g.pdie.supply ≠ 0) :
    g.supplyBack.pdie = (List.range 16).foldl (fun (q : Pdie) n => q.command n id) g.pdie.supplied := by
  have hall : ∀ q : Pdie, ((g.withPd (q.all.foldl (fun (q : Pdie) x => q.command x.1 id) q)).pdEvent none id).pdie =
      (List.range 16).foldl (fun (q : Pdie) n => q.command n id) q := by
    intro q
    rw [pdEvent_pdie _ none (f := id) (fun _ => rfl), withPd_pdie, foldl_all]
  unfold Gw.supplyBack
  rw [if_neg hne]
  exact hall g.pdie.supplied

theorem supplyBack_chan {g : Gw} (hne : g.pdie.supply ≠ 0) {n : Nat} (hn : n < 16)
    (hlatch : (g.pdie.chan n).latched = false) : (g.supplyBack.pdie.chan n).out = (g.pdie.chan n).wants := by
  obtain ⟨q, hsupply, hval, hfold⟩ := foldl_command_at id g.pdie.supplied hn
  rw [supplied_supply] at hsupply
  rw [supplied_chan] at hval
  rw [supplyBack_pdie hne, hfold, command_out (by rw [hval]; exact hlatch) hsupply rfl, hval]
  rfl

theorem supplyBack_supply {g : Gw} (hne : g.pdie.supply ≠ 0) : g.supplyBack.pdie.supply = 0 := by
  rw [supplyBack_pdie hne, foldl_same Pdie.supply (f := fun (q : Pdie) n => q.command n id)
    (fun q n => command_supply q n id), supplied_supply]

/-! ### The commands -/

theorem exec_heartbeatSend (us : Nat) (s : State) :
    exec (.heartbeatSend us) s = answer (onGw (fun g => g.pdAt us Gw.heartbeat)) s := rfl
theorem exec_heartbeatLoss (us : Nat) (s : State) :
    exec (.heartbeatLoss us) s = answer (onGw (fun g => g.pdAt us Gw.heartbeatLoss)) s := rfl
theorem exec_holdTimeout (us : Nat) (s : State) :
    exec (.holdTimeout us) s = answer (onGw (fun g => g.pdAt us Gw.holdTimeout)) s := rfl
theorem exec_heartbeatReturn (us : Nat) (s : State) :
    exec (.heartbeatReturn us) s = answer (onGw (fun g => g.pdAt us Gw.heartbeatReturn)) s := rfl
theorem exec_statusMessage (us : Nat) (cur : List Nat) (tj : List Int) (vbat : Nat) (temp : Int) (s : State) :
    exec (.statusMessage us cur tj vbat temp) s =
      answer (onGw (fun g => g.pdAt us (fun g => g.statusMessage cur tj vbat temp))) s := rfl
theorem exec_vbatUndervoltage (us : Nat) (s : State) :
    exec (.vbatUndervoltage us) s = answer (onGw (fun g => g.pdAt us (fun g => g.supplyOff 1))) s := rfl
theorem exec_vbatOvervoltage (us : Nat) (s : State) :
    exec (.vbatOvervoltage us) s = answer (onGw (fun g => g.pdAt us (fun g => g.supplyOff 2))) s := rfl
theorem exec_vbatReturn (us : Nat) (s : State) :
    exec (.vbatReturn us) s = answer (onGw (fun g => g.pdAt us Gw.supplyBack)) s := rfl
theorem exec_powerDieReset (us : Nat) (s : State) :
    exec (.powerDieReset us) s = answer (onGw (fun g => g.pdAt us Gw.pdReset)) s := rfl

/-- Both ways in which the supply leaves its range. -/
theorem exec_supplyLost {c : Instr} {us code : Nat} (s : State)
    (hc : (c, code) ∈ [(Instr.vbatUndervoltage us, 1), (Instr.vbatOvervoltage us, 2)]) :
    exec c s = answer (onGw (fun g => g.pdAt us (fun g => g.supplyOff code))) s ∧ (code = 1 ∨ code = 2) := by
  simp only [List.mem_cons, Prod.mk.injEq, List.not_mem_nil, or_false] at hc
  obtain ⟨rfl, rfl⟩ | ⟨rfl, rfl⟩ := hc
  · exact ⟨exec_vbatUndervoltage us s, .inl rfl⟩
  · exact ⟨exec_vbatOvervoltage us s, .inr rfl⟩

end Sys2Proof.Machine
end

section
/-! The statement on heartbeats, hold and supply. -/

namespace Sys2Proof.Machine

/-- Settles O41: each command acts on the power die at its time, and an event message leaves the die. -/
theorem heartbeatHoldAndSupply : Obligations.HeartbeatHoldAndSupply := by
  unfold Obligations.HeartbeatHoldAndSupply
  refine ⟨fun s us hn hus hrun hdue hho => ?heartbeat, fun s us hn hus hhold hkeeper hlate hms => ?loss,
    fun s us hn hus hkeeper => ?keeper, fun s us hn hus hhold hsafe hlate => ?timeout,
    fun s us hn hus hhold hback => ?back, fun s us vbat cur tj temp hn hus hdue hrun => ?status,
    fun s us code c hn hus hne hc => ?lost, fun s us hn hus hne => ?found, fun s us hn hus => ?reset⟩
  case heartbeat =>
    rw [exec_heartbeatSend, answer_pdAt Gw.heartbeat hn hus]
    have hdue' : (match s.gw.die.hbTick with
        | some t => decide (t + s.gw.param Par.pwrHbMs * ticksPerMs ≤ s.gw.tb.tick)
        | none => true) = true := by
      cases hk : s.gw.die.hbTick with
      | none => rfl
      | some k => exact decide_eq_true (hdue k hk)
    have hacts : (s.gw.pdTime us).heartbeat = ({ s.gw with
        die := { s.gw.die with hbTick := some s.gw.tb.tick }
        pdie := { s.gw.pdie with us := us, lastHb := us, hbBack := s.gw.pdie.hold, keeper := false }
        ho := s.gw.ho.map (fun (h : Handover) => if bit h.pairsNew 1 then { h with heartbeat := true } else h) } :
          Gw).emit (.dieLink 0 []) :=
      if_pos (Bool.and_eq_true_iff.mpr ⟨hrun, hdue'⟩)
    have hmap : s.gw.ho.map (fun (h : Handover) => if bit h.pairsNew 1 then { h with heartbeat := true } else h) =
        s.gw.ho := by
      rw [hho]
      rfl
    rw [hacts, hmap]
  case loss =>
    rw [exec_heartbeatLoss, answer_pdAt Gw.heartbeatLoss hn hus]
    obtain ⟨h, hh⟩ : ∃ h : Gw, h = { s.gw.pdTime us with
      pdie := { s.gw.pdie with us := us, hold := true, holdFrom := us, hbBack := false, safeDone := false } } := ⟨_, rfl⟩
    have hacts : (s.gw.pdTime us).heartbeatLoss = h.pdEvent none (fun g => g.flag Reg.pwrFlag 0x02000000) := by
      subst hh
      refine (if_pos ?_).trans (if_neg hms)
      have h1 : (s.gw.pdTime us).pdie.hold = false := hhold
      have h2 : (s.gw.pdTime us).pdie.keeper = false := hkeeper
      rw [h1, h2]
      exact decide_eq_true hlate
    have hpdie : (h.pdEvent none (fun g => g.flag Reg.pwrFlag 0x02000000)).pdie = h.pdie :=
      pdEvent_pdie h none (f := fun g => g.flag Reg.pwrFlag 0x02000000) (fun _ => rfl)
    rw [hacts]
    refine ⟨_, rfl, ?_, ?_, ?_, fun n => ?_, fun hrun => ?_⟩
    · rw [pdie_after, hpdie, hh]
    · rw [pdie_after, hpdie, hh]
    · rw [pdie_after, hpdie, hh]
    · rw [pdie_after, hpdie, hh]
      rfl
    · have hears : h.pairRuns 1 = true := by
        rw [hh]
        exact hrun
      obtain ⟨d, hev, hhold'⟩ := pdEvent_heard none (fun g => g.flag Reg.pwrFlag 0x02000000) hears
      rw [pwrFlag_after, die_after, hev]
      refine ⟨bit_regN_flag_of_mask _ _ (by decide) (by decide), hhold'.trans ?_⟩
      rw [hh]
  case keeper =>
    rw [exec_heartbeatLoss, answer_pdAt Gw.heartbeatLoss hn hus]
    unfold Gw.heartbeatLoss
    have hk : (s.gw.pdTime us).pdie.keeper = true := hkeeper
    dsimp only
    rw [if_neg (by simp [hk])]
    rfl
  case timeout =>
    rw [exec_holdTimeout, answer_pdAt Gw.holdTimeout hn hus]
    have hacts : (s.gw.pdTime us).holdTimeout = (s.gw.pdTime us).safeStates := by
      refine if_pos ?_
      have h1 : (s.gw.pdTime us).pdie.hold = true := hhold
      have h2 : (s.gw.pdTime us).pdie.safeDone = false := hsafe
      rw [h1, h2]
      exact decide_eq_true hlate
    rw [hacts]
    refine ⟨_, rfl, ?_, fun n hn16 => ?_⟩
    · rw [pdie_after, safeStates_pdie]
    · rw [pdie_after]
      exact safeStates_chan (s.gw.pdTime us) hn16
  case back =>
    rw [exec_heartbeatReturn, answer_pdAt Gw.heartbeatReturn hn hus]
    refine ⟨_, rfl, ?_⟩
    rw [pdie_after]
    unfold Gw.heartbeatReturn
    have h1 : (s.gw.pdTime us).pdie.hold = true := hhold
    have h2 : (s.gw.pdTime us).pdie.hbBack = true := hback
    rw [if_pos (by rw [h1, h2]; rfl)]
    exact pdEvent_pdie _ none (f := id) (fun _ => rfl)
  case status =>
    rw [exec_statusMessage, answer_pdAt _ hn hus]
    obtain ⟨q, hq⟩ : ∃ q, q = (s.gw.pdTime us).pdie.reported cur tj vbat temp := ⟨_, rfl⟩
    obtain ⟨h, hh, hacts⟩ := statusMessage_heard (g := s.gw.pdTime us) cur tj vbat temp hdue hrun hq
    obtain ⟨hdie, hpdie, hflag⟩ : h.die = ((s.gw.pdTime us).statusTaken q).die ∧
        h.pdie = ((s.gw.pdTime us).statusTaken q).pdie ∧
        (q.disc = true → bit (h.regN Reg.pwrFlag) 23 = true) := by
      rw [hh]
      split
      next => exact ⟨rfl, rfl, fun _ => bit_regN_flag_of_mask _ _ (by decide) (by decide)⟩
      next hd => exact ⟨rfl, rfl, fun ht => absurd ht hd⟩
    obtain ⟨k, hk, hkd, hkp, hkr⟩ : ∃ k : Gw, (s.gw.pdTime us).statusMessage cur tj vbat temp = k ∧ k.die = h.die ∧
        k.pdie = h.pdie ∧ k.regN Reg.pwrFlag = h.regN Reg.pwrFlag := by
      refine ⟨_, hacts, ?_⟩
      split <;> exact ⟨rfl, rfl, rfl⟩
    have hears : (s.gw.pdTime us).hears = true := hrun
    have hmarks : h.pdie.disc = false ∧ h.pdie.adopt = false := by
      rw [hpdie, Gw.statusTaken, hears]
      exact ⟨rfl, Bool.and_false _⟩
    have hseen : h.die.link = true ∧ h.die.seen = q := by
      rw [hdie]
      exact ⟨rfl, rfl⟩
    have hfields : q.vbat = vbat ∧ q.seq = (s.gw.pdie.seq + 1) % 65536 := by
      rw [hq]
      exact ⟨rfl, rfl⟩
    rw [hk]
    refine ⟨_, rfl, ?_⟩
    rw [die_after, pdie_after, pwrFlag_after, hkd, hkp, hkr, hseen.2]
    refine ⟨hseen.1, hfields.1, hfields.2, hmarks.1, hmarks.2, fun hd => hflag ?_, fun n hn16 => ?_⟩
    · rw [hq, reported_disc]
      exact hd
    · rw [hq, reported_chan _ cur tj vbat temp hn16]
      rfl
  case lost =>
    obtain ⟨hexec, hcode⟩ := exec_supplyLost s hc
    rw [hexec, answer_pdAt _ hn hus]
    obtain ⟨hsupply, hchans⟩ := supplyOff_pdie (g := s.gw.pdTime us) hne hcode
    refine ⟨_, rfl, ?_, fun n hn16 => ?_⟩
    · rw [pdie_after]
      exact hsupply
    · have hchan : ((s.gw.pdTime us).supplyOff code).pdie.chan n = (s.gw.pdTime us).pdie.allOff.chan n :=
        congrArg (fun m => mgetD m n (pdDefault n)) hchans
      rw [pdie_after, hchan]
      exact allOff_chan (s.gw.pdTime us).pdie hn16
  case found =>
    rw [exec_vbatReturn, answer_pdAt Gw.supplyBack hn hus]
    refine ⟨_, rfl, ?_, fun n hn16 hlatch => ?_⟩
    · rw [pdie_after]
      exact supplyBack_supply (g := s.gw.pdTime us) hne
    · rw [pdie_after]
      exact supplyBack_chan (g := s.gw.pdTime us) hne hn16 hlatch
  case reset =>
    rw [exec_powerDieReset, answer_pdAt Gw.pdReset hn hus]
    have hacts : (s.gw.pdTime us).pdReset.pdie =
        { us := us, lastHb := us, lastStatus := us, lastFuse := us, lastComp := us } := by
      unfold Gw.pdReset
      rw [if_neg (by rw [show (s.gw.pdTime us).partN = s.gw.partN from rfl, hn]; decide)]
      rfl
    refine ⟨_, rfl, ?_, fun n => ?_⟩
    · rw [pdie_after, hacts]
    · rw [pdie_after, hacts]
      rfl

end Sys2Proof.Machine
end

section
/-! SUPPORT. The protections of one channel of the power die (R650–R666). -/

namespace Sys2Proof.Machine

theorem setChan_same (p : Pdie) (n : Nat) (c : PdChan) : (p.setChan n c).chan n = c := by
  rw [chan_setChan, if_pos rfl]

theorem setChan_other (p : Pdie) {n k : Nat} (c : PdChan) (h : k ≠ n) : (p.setChan n c).chan k = p.chan k := by
  rw [chan_setChan, if_neg h]

/-- A power-die command on a channel that exists. -/
theorem answer_pdAt_channel {s : State} {n us : Nat} (f : Gw → Gw) (hn : s.gw.partN = false) (hus : s.gw.pdie.us ≤ us)
    (hn16 : n < 16) : answer (onGw (fun g => g.pdAt us (fun g => if n < 16 then f g else g))) s =
      .next (s.after (f (s.gw.pdTime us))) := by
  rw [answer_pdAt _ hn hus, if_pos hn16]

/-- A flag that the message of an event sets whatever stands before. -/
theorem pdEvent_flag {g : Gw} (n : Option Nat) {f : Gw → Gw} {o i : Nat} (hrun : g.pairRuns 1 = true)
    (hf : ∀ k, bit ((f k).regN o) i = true) : bit ((g.pdEvent n f).regN o) i = true := by
  obtain ⟨d, hev, -⟩ := pdEvent_heard n f hrun
  rw [hev]
  exact hf _

/-! ### Limit events (R655, R665) -/

theorem limitEvent_pdie (g : Gw) (n : Nat) : (g.limitEvent n).pdie =
    { g.pdie.setChan n { g.pdie.chan n with limitEv := true } with frozen := true } :=
  pdEvent_pdie _ (some n) (f := fun g => g.bump (Reg.pwrLimevCnt n)) (fun _ => rfl)

/-- A conducting channel that reaches its limit begins to limit, and out of blanking a limit event freezes F. -/
theorem currentLimit_pdie {g : Gw} {n cur : Nat} (hout : (g.pdie.chan n).out = true)
    (hlim : (g.pdie.chan n).limit = false) (hev : (g.pdie.chan n).limitEv = false)
    (hcur : (g.pdie.chan n).limitMa n g.pdie.us ≤ cur) : ∃ c : PdChan,
      c = { g.pdie.chan n with
        limit := true, limitFrom := g.pdie.us, limitEv := (g.pdie.chan n).blankFrom.isNone } ∧
      (g.currentLimit n cur).pdie.chan n = c ∧ (∀ k, k ≠ n → (g.currentLimit n cur).pdie.chan k = g.pdie.chan k) ∧
      ((g.pdie.chan n).blankFrom = none → (g.currentLimit n cur).pdie.frozen = true) := by
  obtain ⟨h, hh⟩ : ∃ h : Gw, h = { g with
      pdie := g.pdie.setChan n { g.pdie.chan n with limit := true, limitFrom := g.pdie.us } } := ⟨_, rfl⟩
  have hacts : g.currentLimit n cur =
      if ((g.pdie.chan n).blankFrom.isNone && !(g.pdie.chan n).limitEv) = true then h.limitEvent n else h := by
    rw [hh]
    exact if_pos (by rw [hout, hlim]; exact decide_eq_true hcur)
  have hsame : h.pdie.chan n = { g.pdie.chan n with limit := true, limitFrom := g.pdie.us } := by
    rw [hh]
    exact setChan_same _ _ _
  have hother : ∀ k, k ≠ n → h.pdie.chan k = g.pdie.chan k := fun k hk => by
    rw [hh]
    exact setChan_other _ _ hk
  refine ⟨_, rfl, ?_⟩
  rw [hacts, hev, Bool.not_false, Bool.and_true]
  by_cases hblank : (g.pdie.chan n).blankFrom = none
  · rw [hblank, if_pos (show Option.isNone (none : Option Nat) = true from rfl), limitEvent_pdie]
    refine ⟨?_, fun k hk => ?_, fun _ => rfl⟩
    · refine (setChan_same h.pdie n { h.pdie.chan n with limitEv := true }).trans ?_
      rw [hsame]
      rfl
    · exact (setChan_other h.pdie { h.pdie.chan n with limitEv := true } hk).trans (hother k hk)
  · have hsome : (g.pdie.chan n).blankFrom.isNone = false := by
      rw [Bool.eq_false_iff]
      simpa using hblank
    rw [hsome, if_neg (by decide)]
    refine ⟨?_, hother, fun h => absurd h hblank⟩
    rw [hsame, ← hev]

/-! ### Latch-off (R656–R659) -/

/-- A channel that is not latched latches off with its cause, and the others stay. -/
theorem pdLatch_pdie {g : Gw} {n cause : Nat} (hfree : (g.pdie.chan n).latched = false) :
    (g.pdLatch n cause).pdie = (g.pdie.noteLimitEnd (g.pdie.chan n)).setChan n
      { (g.pdie.chan n).turnOff with latched := true, cause := cause, latchAt := g.pdie.us } := by
  unfold Gw.pdLatch
  rw [if_neg (by rw [hfree]; decide)]
  refine pdEvent_pdie _ (some n) (fun h => ?_)
  dsimp only
  split
  · exact pdCount_pdie n cause h
  · exact pdCount_pdie n cause h

theorem pdLatch_latched {g : Gw} {n cause : Nat} (h : (g.pdie.chan n).latched = true) : g.pdLatch n cause = g := by
  unfold Gw.pdLatch
  exact if_pos h

theorem pdLatch_other (g : Gw) {n k : Nat} (cause : Nat) (hk : k ≠ n) :
    (g.pdLatch n cause).pdie.chan k = g.pdie.chan k := by
  by_cases h : (g.pdie.chan n).latched = true
  · rw [pdLatch_latched h]
  · rw [pdLatch_pdie (Bool.eq_false_iff.mpr h), setChan_other _ _ hk, chan_noteLimitEnd]

theorem pdLatch_flag {g : Gw} {n cause : Nat} (hfree : (g.pdie.chan n).latched = false) (hrun : g.pairRuns 1 = true)
    (hcause : cause = 1 ∨ cause = 2) :
    bit ((g.pdLatch n cause).regN Reg.pwrFlag) (if cause = 1 then 31 else 29) = true := by
  unfold Gw.pdLatch
  rw [if_neg (by rw [hfree]; decide)]
  refine pdEvent_flag (some n) hrun (fun k => ?_)
  dsimp only
  split
  · refine bit_regN_flag_of_set _ ?_ (pdCount_flag n k hcause)
    split <;> decide
  · exact pdCount_flag n k hcause

/-- The two commands that latch a channel off at once. -/
theorem exec_latchOff {c : Instr} {n us cause : Nat} {s : State}
    (hc : (c, cause) ∈ [(Instr.shortDetect n us, 1), (Instr.thermalShutdown n us, 2)])
    (hn : s.gw.partN = false) (hus : s.gw.pdie.us ≤ us) (hn16 : n < 16)
    (hshort : cause = 1 → (s.gw.pdie.chan n).limit = true ∧ (s.gw.pdie.chan n).limitFrom + 10 ≤ us ∧
      ((s.gw.pdie.chan n).prof.typ = 4 → (s.gw.pdie.chan n).blankFrom = none)) :
    exec c s = .next (s.after ((s.gw.pdTime us).pdLatch n cause)) ∧ (cause = 1 ∨ cause = 2) := by
  simp only [List.mem_cons, Prod.mk.injEq, List.not_mem_nil, or_false] at hc
  obtain ⟨rfl, rfl⟩ | ⟨rfl, rfl⟩ := hc
  · refine ⟨?_, .inl rfl⟩
    obtain ⟨hlim, hlong, hblank⟩ := hshort rfl
    have hexec : exec (.shortDetect n us) s =
      answer (onGw (fun g => g.pdAt us (fun g => if n < 16 then g.shortDetect n else g))) s := rfl
    rw [hexec, answer_pdAt_channel _ hn hus hn16]
    have hcond : ((s.gw.pdie.chan n).limit && decide ((s.gw.pdie.chan n).limitFrom + 10 ≤ us) &&
        !(decide ((s.gw.pdie.chan n).prof.typ = 4) && (s.gw.pdie.chan n).blankFrom.isSome)) = true := by
      rw [hlim, decide_eq_true hlong]
      by_cases htyp : (s.gw.pdie.chan n).prof.typ = 4
      · rw [hblank htyp]
        simp
      · simp [htyp]
    have hacts : (s.gw.pdTime us).shortDetect n = (s.gw.pdTime us).pdLatch n 1 := if_pos hcond
    rw [hacts]
  · refine ⟨?_, .inr rfl⟩
    have hexec : exec (.thermalShutdown n us) s =
      answer (onGw (fun g => g.pdAt us (fun g => if n < 16 then g.pdLatch n 2 else g))) s := rfl
    rw [hexec, answer_pdAt_channel _ hn hus hn16]

/-! ### The fuse model (R659) -/

/-- The fuse step of one channel. -/
def Gw.fuseChannel (sq : List Nat) (g : Gw) (n : Nat) : Gw :=
  let c := g.pdie.chan n
  let w := c.nextW n (sq.getD n 0)
  let g := { g with pdie := g.pdie.setChan n { c with w := w } }
  if 1 ≤ w then g.pdLatch n 3 else g

theorem fuseChannel_other (sq : List Nat) (g : Gw) {n k : Nat} (hk : k ≠ n) :
    (Gw.fuseChannel sq g n).pdie.chan k = g.pdie.chan k := by
  unfold Gw.fuseChannel
  dsimp only
  split
  · rw [pdLatch_other _ 3 hk]
    exact setChan_other _ _ hk
  · exact setChan_other _ _ hk

theorem fuseChannel_lastFuse (sq : List Nat) (g : Gw) (n : Nat) :
    (Gw.fuseChannel sq g n).pdie.lastFuse = g.pdie.lastFuse := by
  unfold Gw.fuseChannel
  dsimp only
  split
  next =>
    by_cases h : (({ g with pdie := g.pdie.setChan n { g.pdie.chan n with
        w := (g.pdie.chan n).nextW n (sq.getD n 0) } } : Gw).pdie.chan n).latched = true
    · rw [pdLatch_latched h]
      rfl
    · rw [pdLatch_pdie (Bool.eq_false_iff.mpr h)]
      unfold Pdie.noteLimitEnd
      split <;> rfl
  next => rfl

theorem fuseChannel_same (sq : List Nat) (g : Gw) (n : Nat) :
    ((Gw.fuseChannel sq g n).pdie.chan n).w = (g.pdie.chan n).nextW n (sq.getD n 0) ∧
      ((g.pdie.chan n).latched = false → 1 ≤ (g.pdie.chan n).nextW n (sq.getD n 0) →
        ((Gw.fuseChannel sq g n).pdie.chan n).latched = true ∧ ((Gw.fuseChannel sq g n).pdie.chan n).cause = 3 ∧
        ((Gw.fuseChannel sq g n).pdie.chan n).out = false) := by
  obtain ⟨h, hh⟩ : ∃ h : Gw, h = { g with pdie := g.pdie.setChan n { g.pdie.chan n with
      w := (g.pdie.chan n).nextW n (sq.getD n 0) } } := ⟨_, rfl⟩
  have hchan : h.pdie.chan n = { g.pdie.chan n with w := (g.pdie.chan n).nextW n (sq.getD n 0) } := by
    rw [hh]
    exact setChan_same _ _ _
  have hacts : Gw.fuseChannel sq g n = if 1 ≤ (g.pdie.chan n).nextW n (sq.getD n 0) then h.pdLatch n 3 else h := by
    rw [hh]
    rfl
  rw [hacts]
  by_cases hw : 1 ≤ (g.pdie.chan n).nextW n (sq.getD n 0)
  · rw [if_pos hw]
    by_cases hl : (h.pdie.chan n).latched = true
    · rw [pdLatch_latched hl, hchan]
      refine ⟨rfl, fun hfree => ?_⟩
      rw [hchan] at hl
      exact absurd (hfree.symm.trans hl) (by decide)
    · rw [pdLatch_pdie (Bool.eq_false_iff.mpr hl), setChan_same, hchan]
      exact ⟨rfl, fun _ _ => ⟨rfl, rfl, rfl⟩⟩
  · rw [if_neg hw, hchan]
    exact ⟨rfl, fun _ h1 => absurd h1 hw⟩

theorem fuseStep_due {g : Gw} (sq : List Nat) (h : g.pdie.lastFuse + 100 ≤ g.pdie.us) : g.fuseStep sq =
    (List.range 16).foldl (Gw.fuseChannel sq) { g with pdie := { g.pdie with lastFuse := g.pdie.us } } :=
  if_pos h

/-- A due fuse step, at one channel. -/
theorem fuseStep_chan {g : Gw} (sq : List Nat) (h : g.pdie.lastFuse + 100 ≤ g.pdie.us) {n : Nat} (hn : n < 16) :
    ∃ k : Gw, k.pdie.chan n = g.pdie.chan n ∧ (g.fuseStep sq).pdie.chan n = (Gw.fuseChannel sq k n).pdie.chan n := by
  obtain ⟨k, -, hval, hfold⟩ := foldl_at_key (fun (g : Gw) n => g.pdie.chan n) (fun _ => True) (Gw.fuseChannel sq)
    (fun g _ _ hk => fuseChannel_other sq g hk) (fun _ _ _ => trivial) List.nodup_range (List.mem_range.mpr hn)
    (s := { g with pdie := { g.pdie with lastFuse := g.pdie.us } }) trivial
  exact ⟨k, hval, by rw [fuseStep_due sq h, hfold]⟩

theorem fuseStep_lastFuse {g : Gw} (sq : List Nat) (h : g.pdie.lastFuse + 100 ≤ g.pdie.us) :
    (g.fuseStep sq).pdie.lastFuse = g.pdie.us := by
  rw [fuseStep_due sq h, foldl_same (fun g : Gw => g.pdie.lastFuse) (fuseChannel_lastFuse sq)]

/-! ### Restarts (R661–R663) -/

/-- A channel that its policy lets restart is released with one retry fewer. -/
theorem restartTimer_chan {g : Gw} {n : Nat} {tj : Int} (hl : (g.pdie.chan n).latched = true)
    (hpolicy : (g.pdie.chan n).prof.policy = 1) (hleft : 0 < (g.pdie.chan n).retriesLeft)
    (hlate : (g.pdie.chan n).latchAt + 1000000 ≤ g.pdie.us) (hmay : (g.pdie.chan n).mayRestart g.pdie.us tj = true) :
    ((g.restartTimer n tj).pdie.chan n).latched = false ∧ ((g.restartTimer n tj).pdie.chan n).cause = 0 ∧
      ((g.restartTimer n tj).pdie.chan n).retriesLeft = (g.pdie.chan n).retriesLeft - 1 := by
  obtain ⟨h, hh⟩ : ∃ h : Gw, h = { g with pdie := g.pdie.setChan n { g.pdie.chan n with
      retriesLeft := if (g.pdie.chan n).prof.policy = 1 then (g.pdie.chan n).retriesLeft - 1
        else (g.pdie.chan n).retriesLeft } } := ⟨_, rfl⟩
  have hacts : g.restartTimer n tj = h.pdRestart n := by
    rw [hh]
    exact if_pos (by rw [hl, hpolicy, hmay, decide_eq_true hlate, decide_eq_true hleft]; rfl)
  have hpdie : (h.pdRestart n).pdie = h.pdie.release n := by
    unfold Gw.pdRestart
    refine pdEvent_pdie _ (some n) (fun k => ?_)
    split <;> rfl
  have hchan : (h.pdie.chan n).retriesLeft = (g.pdie.chan n).retriesLeft - 1 := by
    rw [hh]
    refine (congrArg PdChan.retriesLeft (setChan_same _ _ _)).trans ?_
    exact if_pos hpolicy
  rw [hacts, hpdie, ← hchan]
  unfold Pdie.release
  refine ⟨by rw [command_latched], ?_, ?_⟩
  · rw [command_keeps PdChan.cause (fun _ _ _ => rfl) (fun _ => rfl) (fun _ _ => rfl)]
  · rw [command_keeps PdChan.retriesLeft (fun _ _ _ => rfl) (fun _ => rfl) (fun _ _ => rfl)]

/-! ### Timers that rewrite one channel or F -/

/-- Blanking ends outside the limit: nothing but the blanking changes. -/
theorem blankingEnd_unlimited {g : Gw} {n b : Nat} (low : Bool) (hb : (g.pdie.chan n).blankFrom = some b)
    (hend : b + (g.pdie.chan n).prof.blanking ≤ g.pdie.us) (hlim : (g.pdie.chan n).limit = false) :
    g.blankingEnd n low = { g with pdie := g.pdie.setChan n { g.pdie.chan n with blankFrom := none } } := by
  unfold Gw.blankingEnd
  dsimp only
  split
  next t ht =>
    cases ht.symm.trans hb
    exact (if_pos hend).trans ((if_neg (by simp [hlim])).trans (if_neg (by simp [hlim])))
  next hnone => exact absurd (hnone.symm.trans hb) (by simp)

theorem retriesReload_due {g : Gw} {n k : Nat} (hk : (g.pdie.chan n).onFrom = some k)
    (hpolicy : (g.pdie.chan n).prof.policy = 1) (hfree : (g.pdie.chan n).latched = false)
    (hlong : k + 60000000 ≤ g.pdie.us) : g.retriesReload n =
      { g with pdie := g.pdie.setChan n { g.pdie.chan n with retriesLeft := (g.pdie.chan n).prof.retries } } := by
  unfold Gw.retriesReload
  dsimp only
  split
  next t ht =>
    cases ht.symm.trans hk
    exact if_pos (by simp [hpolicy, hfree, hlong])
  next hnone => exact absurd (hnone.symm.trans hk) (by simp)

theorem compUpdate_due {g : Gw} {vbat : Nat} (hdue : g.pdie.lastComp + 1000 ≤ g.pdie.us) (hvbat : vbat ≠ 0) :
    g.compUpdate vbat = { g with pdie := if g.pdie.frozen then g.pdie
      else { g.pdie with fNum := g.pdie.vnom, fDen := vbat, lastComp := g.pdie.us } } := by
  unfold Gw.compUpdate
  by_cases hf : g.pdie.frozen = true
  · rw [if_neg (by simp [hf]), if_pos hf]
  · rw [if_pos (by simp [hf, hdue, hvbat]), if_neg hf]

/-- A period of a switching channel starts: its duty and frequency take effect. -/
theorem pwmPeriod_next {g : Gw} {n b : Nat} (hout : (g.pdie.chan n).out = true)
    (hconst : g.pdie.constant n (g.pdie.chan n) = false) (hb : (g.pdie.chan n).pwmFrom = some b)
    (hnext : periodStart n (max 1 (g.pdie.chan n).actFreq) b ≤ g.pdie.us) :
    (g.pwmPeriod n).pdie.chan n = { g.pdie.chan n with
      actDuty := g.pdie.effDuty n (g.pdie.chan n).target.1, actFreq := (g.pdie.chan n).target.2,
      pwmFrom := some (periodStart n (max 1 (g.pdie.chan n).actFreq) b) } := by
  unfold Gw.pwmPeriod
  dsimp only
  split
  next t ht =>
    cases ht.symm.trans hb
    rw [if_pos (by simp [hout, hconst, hnext])]
    exact setChan_same _ _ _
  next hnone => exact absurd (hnone.symm.trans hb) (by simp)

/-! ### The commands -/

theorem exec_currentLimitReached (n us cur : Nat) (s : State) : exec (.currentLimitReached n us cur) s =
    answer (onGw (fun g => g.pdAt us (fun g => if n < 16 then g.currentLimit n cur else g))) s := rfl
theorem exec_fuseStep (us : Nat) (sq : List Nat) (s : State) :
    exec (.fuseStep us sq) s = answer (onGw (fun g => g.pdAt us (fun g => g.fuseStep sq))) s := rfl
theorem exec_blankingEnd (n us : Nat) (low : Bool) (s : State) : exec (.blankingEnd n us low) s =
    answer (onGw (fun g => g.pdAt us (fun g => if n < 16 then g.blankingEnd n low else g))) s := rfl
theorem exec_limitEventEnd (n us : Nat) (s : State) : exec (.limitEventEnd n us) s =
    answer (onGw (fun g => g.pdAt us (fun g => if n < 16 then g.limitEventEnd n else g))) s := rfl
theorem exec_restartTimer (n us : Nat) (tj : Int) (s : State) : exec (.restartTimer n us tj) s =
    answer (onGw (fun g => g.pdAt us (fun g => if n < 16 then g.restartTimer n tj else g))) s := rfl
theorem exec_retriesReload (n us : Nat) (s : State) : exec (.retriesReload n us) s =
    answer (onGw (fun g => g.pdAt us (fun g => if n < 16 then g.retriesReload n else g))) s := rfl
theorem exec_openLoadTimer (n us : Nat) (low : Bool) (s : State) : exec (.openLoadTimer n us low) s =
    answer (onGw (fun g => g.pdAt us (fun g => if n < 16 then g.openLoad n low else g))) s := rfl
theorem exec_compUpdate (us vbat : Nat) (s : State) :
    exec (.compUpdate us vbat) s = answer (onGw (fun g => g.pdAt us (fun g => g.compUpdate vbat))) s := rfl
theorem exec_freezeEnd (us : Nat) (s : State) :
    exec (.freezeEnd us) s = answer (onGw (fun g => g.pdAt us Gw.freezeEnd)) s := rfl
theorem exec_pwmPeriodStart (n us : Nat) (s : State) : exec (.pwmPeriodStart n us) s =
    answer (onGw (fun g => g.pdAt us (fun g => if n < 16 then g.pwmPeriod n else g))) s := rfl

end Sys2Proof.Machine
end

section
/-! The statement on the protections of a channel. -/

namespace Sys2Proof.Machine

/-- Settles O42: each timer rewrites its own channel under its condition; a latch-off is one operation with its cause. -/
theorem channelProtection : Obligations.ChannelProtection := by
  unfold Obligations.ChannelProtection
  refine ⟨fun s n us cur hn hus hn16 hout hlim hev hcur => ?limit,
    fun s n us cause c hn hus hn16 hc hshort => ?latch, fun s us n sq hn hus hdue hn16 => ?fuse,
    fun s n us b low hn hus hn16 hblank hend hlim => ?blanking, fun s n us hn hus hn16 hlim hlong => ?limitEnd,
    fun s n us tj hn hus hn16 hl hpolicy hleft hlate hmay => ?restart,
    fun s n us k hn hus hn16 hfree hpolicy hon hlong => ?reload,
    fun s n us hn hus hn16 hol heval hlong => ?openLoad, fun s us vbat hn hus hdue hvbat => ?comp,
    fun s us hn hus hfrozen hnone hlong => ?freeze, fun s n us b hn hus hn16 hout hconst hpwm hnext => ?pwm⟩
  case limit =>
    rw [exec_currentLimitReached, answer_pdAt_channel _ hn hus hn16]
    obtain ⟨c, hc, hchan, hothers, hfrozen⟩ := currentLimit_pdie (g := s.gw.pdTime us) hout hlim hev hcur
    refine ⟨_, rfl, ?_⟩
    rw [pdie_after]
    exact ⟨hchan.trans hc, hfrozen, hothers⟩
  case latch =>
    obtain ⟨hexec, hcause⟩ := exec_latchOff hc hn hus hn16 hshort
    rw [hexec]
    refine ⟨fun hfree => ?_, fun hl => ?_⟩
    · refine ⟨_, rfl, ?_⟩
      have hchan := congrArg (fun p : Pdie => p.chan n) (pdLatch_pdie (g := s.gw.pdTime us) (cause := cause) hfree)
      rw [setChan_same] at hchan
      rw [pdie_after, pwrFlag_after, hchan]
      exact ⟨rfl, rfl, rfl, rfl, rfl, fun k hk => pdLatch_other (s.gw.pdTime us) cause hk,
        fun hrun => pdLatch_flag (g := s.gw.pdTime us) hfree hrun hcause⟩
    · rw [pdLatch_latched (g := s.gw.pdTime us) hl]
      rfl
  case fuse =>
    rw [exec_fuseStep, answer_pdAt _ hn hus]
    obtain ⟨k, hval, hchan⟩ := fuseStep_chan (g := s.gw.pdTime us) sq hdue hn16
    obtain ⟨hw, hblow⟩ := fuseChannel_same sq k n
    rw [hval] at hw hblow
    refine ⟨_, rfl, ?_⟩
    rw [pdie_after, hchan]
    exact ⟨fuseStep_lastFuse (g := s.gw.pdTime us) sq hdue, hw, hblow⟩
  case blanking =>
    rw [exec_blankingEnd, answer_pdAt_channel _ hn hus hn16]
    rw [blankingEnd_unlimited (g := s.gw.pdTime us) low hblank hend hlim]
    rfl
  case limitEnd =>
    rw [exec_limitEventEnd, answer_pdAt_channel _ hn hus hn16]
    obtain ⟨p, hp⟩ : ∃ p : Pdie, p = (({ s.gw.pdie with us := us } : Pdie).noteLimitEnd (s.gw.pdie.chan n)).setChan n
        { s.gw.pdie.chan n with limit := false, limitEv := false } := ⟨_, rfl⟩
    have hacts : ((s.gw.pdTime us).limitEventEnd n).pdie = p := by
      have hcond : ((s.gw.pdie.chan n).limit && decide ((s.gw.pdie.chan n).limitFrom + 100 ≤ us)) = true := by
        rw [hlim, decide_eq_true hlong]
        rfl
      rw [hp]
      exact (congrArg Gw.pdie (if_pos hcond)).trans (pdEvent_pdie _ (some n) (f := id) (fun _ => rfl))
    refine ⟨_, rfl, ?_⟩
    rw [pdie_after, hacts, hp, setChan_same]
    refine ⟨rfl, fun hev => ?_⟩
    unfold Pdie.noteLimitEnd
    rw [hev]
    rfl
  case restart =>
    rw [exec_restartTimer, answer_pdAt_channel _ hn hus hn16]
    refine ⟨_, rfl, ?_⟩
    rw [pdie_after]
    exact restartTimer_chan (g := s.gw.pdTime us) hl hpolicy hleft hlate hmay
  case reload =>
    rw [exec_retriesReload, answer_pdAt_channel _ hn hus hn16]
    rw [retriesReload_due (g := s.gw.pdTime us) hon hpolicy hfree hlong]
    rfl
  case openLoad =>
    rw [exec_openLoadTimer, answer_pdAt_channel _ hn hus hn16]
    obtain ⟨h, hh⟩ : ∃ h : Gw, h = { s.gw.pdTime us with
        pdie := { s.gw.pdie with us := us }.setChan n { s.gw.pdie.chan n with openLoad := true, olFrom := us } } := ⟨_, rfl⟩
    have hacts : (s.gw.pdTime us).openLoad n true =
        h.pdEvent (some n) (fun g => (g.bump (Reg.pwrOlCnt n)).flag Reg.pwrFlag 0x10000000) := by
      have hcond : (true && !(s.gw.pdie.chan n).openLoad && (s.gw.pdie.chan n).evaluates) = true := by
        rw [hol, heval]
        rfl
      rw [hh]
      exact (if_neg (Nat.not_lt.mpr hlong)).trans (if_pos hcond)
    have hpdie : (h.pdEvent (some n) (fun g => (g.bump (Reg.pwrOlCnt n)).flag Reg.pwrFlag 0x10000000)).pdie = h.pdie :=
      pdEvent_pdie h (some n) (f := fun g => (g.bump (Reg.pwrOlCnt n)).flag Reg.pwrFlag 0x10000000) (fun _ => rfl)
    rw [hacts]
    refine ⟨_, rfl, ?_, fun hrun => ?_⟩
    · rw [pdie_after, hpdie, hh]
      exact setChan_same _ _ _
    · rw [pwrFlag_after]
      refine pdEvent_flag (some n) ?_ (fun k => bit_regN_flag_of_mask _ _ (by decide) (by decide))
      rw [hh]
      exact hrun
  case comp =>
    rw [exec_compUpdate, answer_pdAt _ hn hus]
    rw [compUpdate_due (g := s.gw.pdTime us) hdue hvbat]
    rfl
  case freeze =>
    rw [exec_freezeEnd, answer_pdAt _ hn hus]
    have hacts : (s.gw.pdTime us).freezeEnd = { s.gw with pdie := { s.gw.pdie with us := us, frozen := false } } := by
      have hall : (s.gw.pdTime us).pdie.all.all (fun x => !x.2.limitEv) = true := by
        rw [List.all_eq_true]
        intro x hx
        obtain ⟨n, hn16, rfl⟩ := List.mem_map.mp hx
        exact Bool.not_eq_true' _ |>.mpr (hnone n (List.mem_range.mp hn16))
      have hf : (s.gw.pdTime us).pdie.frozen = true := hfrozen
      exact if_pos (by rw [hf, hall]; exact decide_eq_true hlong)
    rw [hacts]
  case pwm =>
    rw [exec_pwmPeriodStart, answer_pdAt_channel _ hn hus hn16]
    refine ⟨_, rfl, ?_⟩
    rw [pdie_after, pwmPeriod_next (g := s.gw.pdTime us) hout hconst hpwm hnext]
    exact ⟨rfl, rfl⟩

end Sys2Proof.Machine
end

section
/-! SUPPORT. What the data path holds, and the rest of the module, which its operations leave alone: the entries, buffers and
ports that an island loses and loads again (R810, R811) and the start of a run (R585). -/

namespace Sys2Proof.Machine

/-- The module without its registers, its records and all that its data path holds: what the firmware and the Curator keep,
the islands, the order of Strata and the tick stay. -/
def Gw.control (g : Gw) : Gw :=
  { g with regs := [], latches := [], out := [], log := [], tb := { tick := g.tb.tick }, tevOut := [], tevIn := [], gptp := [],
           cal := {}, cat := {}, rtr := {}, egr := [], filters := [], meters := [], mirrors := [], eth := [], tis := [],
           undefEgress := 0, undefLaunch := false, lin := [], flx := {}, fvLast := [], txRing := [], cryQ := [], keys := {},
           cryUp := 0, cryCache := [], fvTx := [], fvRes := [], fvJrnl := [], can := [], canStart := 0, undefBus := 0,
           chn := {}, flt := { g.flt with badWords := [] }, rxRing := [], arc := {} }

theorem control_bump (g : Gw) (o : Nat) : (g.bump o).control = g.control := rfl
theorem control_setEth (g : Gw) (p : Nat) (e : EthPort) : (g.setEth p e).control = g.control := rfl
theorem control_setCan (g : Gw) (c : Nat) (x : CanCtl) : (g.setCan c x).control = g.control := rfl

theorem control_unclaim (g : Gw) (fid : Nat) : (g.unclaim fid).control = g.control := by
  unfold Gw.unclaim
  split
  · split <;> rfl
  · rfl

theorem control_entryGone (g : Gw) (p i : Nat) (e : Entry) : (g.entryGone p i e).control = g.control := by
  unfold Gw.entryGone
  split
  · dsimp only
    split
    · split <;> rfl
    · rfl
  · split
    · split
      · unfold Gw.dropSa
        split <;> rfl
      · rfl
    · rfl

theorem control_putEntry (g : Gw) (i : Nat) (e : Entry) : (g.putEntry i e).control = g.control := by
  unfold Gw.putEntry
  by_cases h : i < 131072
  · simp only [if_pos h]
    rfl
  · simp only [if_neg h]
    rfl

theorem control_takeCap (g : Gw) (p : Nat) (e : Entry) : (g.takeCap p e).control = g.control := by
  unfold Gw.takeCap
  split <;> rfl

theorem control_loadFilter (g : Gw) (i : Nat) (e : Entry) : (g.loadFilter i e).control = g.control := by
  unfold Gw.loadFilter
  dsimp only
  split <;> rfl

theorem control_loadSa (g : Gw) (e : Entry) : (g.loadSa e).control = g.control := by
  unfold Gw.loadSa
  split <;> rfl

theorem control_startFresh (g : Gw) (b : Bool) (i : Nat) (e : Entry) : (g.startFresh b i e).control = g.control := by
  unfold Gw.startFresh
  dsimp only
  split
  · split <;> rfl
  · split <;> rfl

theorem control_entryCame (g : Gw) (p i : Nat) (e : Entry) (t : Stamp) : (g.entryCame p i e t).control = g.control := by
  unfold Gw.entryCame
  split
  · split
    · unfold Gw.armTimeout
      split <;> rfl
    · rfl
  · split
    · split
      · exact control_loadSa g e
      · rw [control_loadFilter]
        split
        · exact control_startFresh g false i e
        · rfl
    · rfl

theorem control_updateEntry (g : Gw) (p i : Nat) (old e : Entry) (t : Stamp) :
    (g.updateEntry p i old e t).control = g.control := by
  unfold Gw.updateEntry
  dsimp only
  rw [control_entryCame, control_takeCap, control_putEntry, control_entryGone]
  split <;> rfl

theorem control_newEntry (g : Gw) (p i : Nat) (e : Entry) (t : Stamp) : (g.newEntry p i e t).control = g.control := by
  unfold Gw.newEntry
  dsimp only
  rw [control_entryCame, control_takeCap, control_putEntry]
  rfl

theorem control_loadEntry {g t : Gw} {p : Nat} {e : Entry} (h : g.loadEntry p e = some t) : t.control = g.control := by
  unfold Gw.loadEntry at h
  dsimp only at h
  split at h
  · cases h
  · split at h
    · cases h
      exact control_updateEntry ..
    · obtain ⟨i, -, rfl⟩ := Option.map_eq_some_iff.mp h
      exact control_newEntry ..

theorem control_loadEntries (l : List (Nat × Entry)) (g : Gw) : (g.loadEntries l).1.control = g.control := by
  induction l generalizing g with
  | nil => rfl
  | cons q r ih =>
    obtain ⟨p, e⟩ := q
    unfold Gw.loadEntries
    split
    · rename_i t ht
      rw [ih, control_loadEntry ht]
    · rfl

theorem control_loadPdus (g : Gw) (x : CfgContent) : (g.loadPdus x).control = g.control := by
  unfold Gw.loadPdus
  refine foldl_same Gw.control ?_ _ _
  intro g q
  rfl

theorem control_flxEnable (g : Gw) : g.flxEnable.control = g.control := by
  unfold Gw.flxEnable
  dsimp only
  split
  · rfl
  · split <;> rfl

theorem control_flxReady (g : Gw) : g.flxReady.control = g.control := by
  unfold Gw.flxReady
  split <;> rfl

theorem control_loadBuses (g : Gw) (x : CfgContent) : (g.loadBuses x).control = g.control := by
  unfold Gw.loadBuses
  dsimp only
  rw [control_flxEnable]
  rfl

theorem control_reloadFilters (g : Gw) : g.reloadFilters.control = g.control := by
  unfold Gw.reloadFilters
  refine foldl_same Gw.control ?_ _ _
  intro g q
  exact control_loadFilter g q.1 q.2

theorem control_reloadSas (g : Gw) (ports : List Nat) : (g.reloadSas ports).control = g.control := by
  unfold Gw.reloadSas
  refine foldl_same Gw.control ?_ _ _
  intro g q
  split
  · exact control_loadSa g q.2
  · rfl

theorem control_ringBlock (g : Gw) : g.ringBlock.control = g.control := by
  unfold Gw.ringBlock
  split <;> rfl

theorem control_tisRoles (g : Gw) (l : List Nat) : (l.foldl Gw.tisRole g).control = g.control := by
  refine foldl_same Gw.control ?_ _ _
  intro g t
  rfl

theorem control_dropEntry (g : Gw) (p i : Nat) (e : Entry) : (g.dropEntry p i e).control = g.control := by
  unfold Gw.dropEntry
  dsimp only
  split <;> rfl

theorem control_outputsLow (g : Gw) : g.outputsLow.control = g.control := by
  unfold Gw.outputsLow
  dsimp only
  split <;> rfl

theorem control_portReset (g : Gw) (p : Nat) : (g.portReset p).control = g.control := by
  unfold Gw.portReset
  dsimp only
  rw [control_setEth]
  exact foldl_same Gw.control (fun g (j : MacJob) => control_unclaim g j.sel.copy.fid) _ _

theorem control_setIocc (g : Gw) (p v : Nat) : (g.setIocc p v).control = g.control := by
  unfold Gw.setIocc
  dsimp only
  split
  · rw [control_bump]
    split <;> rfl
  · split
    · split <;> rfl
    · rfl

theorem control_giveBack (g : Gw) (f c n p : Nat) : (g.giveBack f c n p).control = g.control := by
  unfold Gw.giveBack
  dsimp only
  split
  · exact control_setIocc ..
  · rfl

theorem control_dropHeld (g : Gw) (r : Nat) : (g.dropHeld r).control = g.control := by
  unfold Gw.dropHeld
  split
  · exact foldl_same Gw.control (fun g fid => control_unclaim g fid) _ _
  · rfl

/-- Loading an island again changes what the data path holds and nothing else. -/
theorem control_reapply (g : Gw) (i : Nat) : (g.reapply i).control = g.control := by
  unfold Gw.reapply
  split
  · exact control_loadPdus ..
  split
  · exact control_loadEntries ..
  split
  · dsimp only
    split
    · rw [control_ringBlock]
      exact (control_tisRoles ..).trans (control_reloadSas ..)
    · exact control_reloadSas ..
  split
  · rw [control_flxReady, control_reloadFilters, control_loadBuses]
  split
  · rfl
  split
  · rfl
  · rfl

theorem control_mbEvent (g : Gw) (c n : Nat) : (g.mbEvent c n).control = g.control := by
  unfold Gw.mbEvent
  split <;> rfl

theorem control_mbEvents (g : Gw) (c : Nat) (l : List Nat) :
    (l.foldl (fun (g : Gw) n => g.mbEvent c n) g).control = g.control := by
  refine foldl_same Gw.control ?_ _ _
  intro g n
  exact control_mbEvent g c n

theorem control_setRegN (g : Gw) (o v : Nat) : (g.setRegN o v).control = g.control := rfl

theorem control_canGive (g : Gw) (c : Nat) : (g.canGive c).control = g.control := by
  unfold Gw.canGive
  rw [control_setRegN, control_setCan]
  split
  · rw [control_setRegN]
    exact control_mbEvents ..
  · exact control_mbEvents ..

/-- Every controller that the gateway has not given back is given back. -/
theorem control_canGives (g : Gw) (l : List Nat) :
    (l.foldl (fun (g : Gw) c => if (g.canAt c).host then g.canGive c else g) g).control = g.control := by
  refine foldl_same Gw.control ?_ _ _
  intro g c
  split
  · exact control_canGive g c
  · rfl

theorem control_startPorts (g : Gw) (t : Stamp) : (g.startPorts t).control = g.control := by
  have hgives := control_canGives g (List.range 32)
  unfold Gw.startPorts
  generalize List.foldl (fun (g : Gw) c => if (g.canAt c).host then g.canGive c else g) g (List.range 32) = k at hgives ⊢
  exact Eq.trans rfl hgives

theorem control_storeFrame {g t : Gw} {x y : Frame} (h : g.storeFrame x = some (t, y)) : t.control = g.control := by
  unfold Gw.storeFrame at h
  dsimp only at h
  split at h
  · cases h
  · cases h
    rfl

theorem control_restoreHeld (g : Gw) : g.restoreHeld.control = g.control := by
  unfold Gw.restoreHeld
  refine foldl_same Gw.control ?_ _ _
  intro g q
  split
  · rename_i d hd
    refine Eq.trans rfl (foldl_same (fun (a : Gw × List (TxSeg × Stamp × Nat × Nat)) => a.1.control) ?_ d.held (g, []))
    intro a h
    split
    · rename_i k z hz
      exact control_storeFrame hz
    · rfl
  · rfl

theorem control_startSeals (g : Gw) (l : List (Nat × Entry)) :
    (l.foldl (fun (g : Gw) ie => g.startFresh true ie.1 ie.2) g).control = g.control := by
  refine foldl_same Gw.control ?_ _ _
  intro g q
  exact control_startFresh g true q.1 q.2

theorem control_startCatalogue (g : Gw) (t : Stamp) : (g.startCatalogue t).control = g.control := rfl
theorem control_startRouter (g : Gw) (t : Stamp) : (g.startRouter t).control = g.control := rfl
theorem control_startArchive (g : Gw) : g.startArchive.control = g.control := rfl

/-- The order of a run as it starts at a stamp. -/
def Gw.runFrom (g : Gw) (start : Stamp) : Strata :=
  { run := true, startStamp := start, startSeg := g.tb.seg, relSeg := g.tb.seg,
    frontier := max g.str.frontier (g.now - 8 * Int.ofNat g.hNs), shift := g.str.shift, accepted := g.str.accepted,
    changes := g.str.changes }

/-- The start of a run replaces the order and what the data path holds, and nothing else. -/
theorem control_startRun (g : Gw) (t : Stamp) : (g.startRun t).control = { g with str := g.runFrom t }.control := by
  unfold Gw.startRun
  rw [control_startSeals, control_startArchive, control_startRouter, control_startCatalogue, control_restoreHeld,
    control_startPorts]
  rfl

/-! ### What the parts of the module are after an operation that keeps them -/

section
variable {g t : Gw} (h : t.control = g.control)
include h

theorem isl_of_control : t.isl = g.isl := by have := congrArg Gw.isl h; exact this
theorem islRst_of_control : t.islRst = g.islRst := by have := congrArg Gw.islRst h; exact this
theorem str_of_control : t.str = g.str := by have := congrArg Gw.str h; exact this
theorem fw_of_control : t.fw = g.fw := by have := congrArg Gw.fw h; exact this
theorem mbx_of_control : t.mbx = g.mbx := by have := congrArg Gw.mbx h; exact this
theorem pairs_of_control : t.pairs = g.pairs := by have := congrArg Gw.pairs h; exact this

end

/-! ### Islands that lose what they hold and start again -/

/-- The module without the data path's contents and without the order of the run. -/
def Gw.calm (g : Gw) : Gw := { g.control with str := {} }

theorem calm_of_control {g t : Gw} (h : t.control = g.control) : t.calm = g.calm := by
  unfold Gw.calm
  rw [h]

theorem calm_endRun (g : Gw) : g.endRun.calm = g.calm := by
  have hgone : ((g.str.inbound ++ g.str.pend.map Pend.frame).foldl (fun (g : Gw) (x : Frame) => g.unclaim x.fid) g).calm =
      g.calm := by
    refine calm_of_control (foldl_same Gw.control ?_ _ _)
    intro g x
    exact control_unclaim g x.fid
  unfold Gw.endRun
  generalize (g.str.inbound ++ g.str.pend.map Pend.frame).foldl (fun (g : Gw) (x : Frame) => g.unclaim x.fid) g = k at hgone ⊢
  refine Eq.trans ?_ hgone
  dsimp only
  split <;> rfl

theorem control_dropEntries (g : Gw) (p : Nat) (l : List (Nat × Entry)) :
    (l.foldl (fun (g : Gw) q => g.dropEntry p q.1 q.2) g).control = g.control := by
  refine foldl_same Gw.control ?_ _ _
  intro g q
  exact control_dropEntry g p q.1 q.2

theorem control_portResets (g : Gw) (l : List Nat) : (l.foldl Gw.portReset g).control = g.control :=
  foldl_same Gw.control control_portReset l g

theorem control_dropHelds (g : Gw) (l : List Nat) : (l.foldl Gw.dropHeld g).control = g.control :=
  foldl_same Gw.control control_dropHeld l g

/-- Frames held for the host give back their places and cells. -/
theorem control_giveBacks (g : Gw) (l : List (Nat × Sel)) :
    (l.foldl (fun (g : Gw) (q : Nat × Sel) =>
      (g.giveBack q.1 q.2.copy.cls q.2.copy.cells q.2.copy.frame.fport).unclaim q.2.copy.fid) g).control = g.control := by
  refine foldl_same Gw.control ?_ _ _
  intro g q
  rw [control_unclaim, control_giveBack]

/-- An island that loses what it holds: registers and the data path, and of the order of the run what hangs on it. -/
theorem clearIsland_acts (g : Gw) (i : Nat) :
    (g.clearIsland i).calm = g.calm ∧ (g.clearIsland i).str.run = g.str.run := by
  have hlow : (if i = 12 then g.outputsLow else g).control = g.control := by
    split
    · exact control_outputsLow g
    · rfl
  unfold Gw.clearIsland
  generalize (if i = 12 then g.outputsLow else g) = k at hlow ⊢
  have hkeep : ∀ {t : Gw}, t.control = k.control → t.calm = g.calm ∧ t.str.run = g.str.run := by
    intro t ht
    exact ⟨calm_of_control (ht.trans hlow), by rw [str_of_control (ht.trans hlow)]⟩
  have hrun : k.str.run = g.str.run := by rw [str_of_control hlow]
  dsimp only
  split
  · exact ⟨Eq.trans (b := k.calm) rfl (calm_of_control hlow), hrun⟩
  split
  · exact hkeep ((control_dropEntries ..).trans rfl)
  split
  · split
    · exact hkeep (Eq.trans rfl ((control_portResets _ (islandPorts i)).trans rfl))
    · exact hkeep ((control_portResets ..).trans rfl)
  split
  · exact hkeep rfl
  split
  · exact hkeep rfl
  split
  · exact ⟨Eq.trans (b := k.calm) rfl (calm_of_control hlow), hrun⟩
  split
  · exact hkeep (Eq.trans rfl ((control_dropHelds _ _).trans ((control_giveBacks _ _).trans rfl)))
  · exact hkeep rfl

section
variable {g t : Gw} (h : t.calm = g.calm)
include h

theorem isl_of_calm : t.isl = g.isl := by have := congrArg Gw.isl h; exact this
theorem tick_of_calm : t.tb.tick = g.tb.tick := by have := congrArg (fun x : Gw => x.tb.tick) h; exact this

end

theorem control_setIsl_reset (g : Gw) (i : Nat) :
    (({ g with islRst := merase g.islRst i } : Gw).setIsl i 1).isl = mput g.isl i 1 0 ∧
      (({ g with islRst := merase g.islRst i } : Gw).setIsl i 1).islRst = merase g.islRst i := ⟨rfl, rfl⟩

/-- An island started again runs and is no longer in its reset; the states of the others stay. -/
theorem startIsland_acts (g : Gw) (i : Nat) :
    (g.startIsland i).isl = mput g.isl i 1 0 ∧ (g.startIsland i).islRst = merase g.islRst i := by
  obtain ⟨hisl, hrst⟩ := control_setIsl_reset g i
  unfold Gw.startIsland
  generalize ({ g with islRst := merase g.islRst i } : Gw).setIsl i 1 = j at hisl hrst ⊢
  have hloaded := control_reapply j i
  dsimp only
  generalize j.reapply i = k at hloaded ⊢
  have hk : k.isl = mput g.isl i 1 0 ∧ k.islRst = merase g.islRst i :=
    ⟨(isl_of_control hloaded).trans hisl, (islRst_of_control hloaded).trans hrst⟩
  split
  · have hstart := control_startRun k (startAfter k.now)
    exact ⟨(isl_of_control hstart).trans hk.1, (islRst_of_control hstart).trans hk.2⟩
  · exact hk

theorem islOn_setIsl_one {g : Gw} {i : Nat} {l : Map Nat} (h : g.isl = mput l i 1 0) : g.islOn i = true := by
  unfold Gw.islOn
  rw [h, mgetD_mput_same]
  rfl

end Sys2Proof.Machine
end

section
/-! SUPPORT. Debug access, self-tests and the last-gasp record (R642, R749, R769, R770). -/

namespace Sys2Proof.Machine

theorem exec_diagSelftest (m us : Nat) (pass : Bool) (s : State) :
    exec (.diagSelftest m pass us) s = answer (directRow 0x0F01 (effGw (diagSelftest pass us)) m) s := rfl
theorem exec_diagErrlog (m : Nat) (s : State) : exec (.diagErrlog m) s = answer (directRow 0x0F02 (effGw diagErrlog) m) s := rfl
theorem exec_diagDebugUnlock {m : Nat} {s : State} (h : bit (s.gw.arg m 0) 0 = true) :
    exec (.diagDebugUnlock m) s = answer (directRow 0x0F03 (effGw debugUnlock) m) s := answer_pickRow h
theorem exec_diagDebugLock {m : Nat} {s : State} (h : bit (s.gw.arg m 0) 0 = false) :
    exec (.diagDebugLock m) s = answer (directRow 0x0F03 (effGw (fun _ g => (setDebug g none, {}))) m) s :=
  answer_pickRow (by rw [h]; rfl)
theorem exec_debugAutolock (s : State) : exec .debugAutolock s = answer (onGw Gw.debugAutolock) s := rfl
theorem exec_debuggerAccess (k op : Nat) (s : State) :
    exec (.debuggerAccess k op) s = answer (onGw (fun g => g.debugger k op)) s := rfl
theorem exec_diagLastgasp (m : Nat) (s : State) :
    exec (.diagLastgasp m) s = answer (directRow 0x0F04 (effGw diagLastgasp) m) s := rfl
theorem exec_pwrFailNFall (s : State) : exec .pwrFailNFall s = answer (onGw Gw.powerFails) s := rfl
theorem exec_pwrFailNRise (s : State) : exec .pwrFailNRise s = answer (onGw Gw.powerReturns) s := rfl

/-! ### Self-tests -/

theorem diagSelftest_barred {m i us : Nat} {pass : Bool} {g : Gw} (hi : i = bits (g.arg m 0) 3 0) (h : i = 10 ∨ 14 ≤ i) :
    diagSelftest pass us m g = (g, failWith stBadArg) := by
  subst hi
  unfold diagSelftest
  exact if_pos (by simpa using h)

section
variable {m i us : Nat} {g : Gw} (hi : i = bits (g.arg m 0) 3 0) (h10 : i ≠ 10) (h14 : i < 14)
include hi h10 h14

theorem diagSelftest_open (pass : Bool) : diagSelftest pass us m g =
    if g.fw.state = .config then
      if !pass then (g.fenceIsland i, { words := [atBit 0 (!pass), min us 5000] })
      else if g.islFenced i then (g, { words := [atBit 0 (!pass), min us 5000] })
      else ((g.clearIsland i).startIsland i, { words := [atBit 0 (!pass), min us 5000] })
    else if g.islFenced i then (g, { words := [atBit 0 (!pass), min us 5000] }) else (g, failWith stBadArg) := by
  subst hi
  unfold diagSelftest
  exact if_neg (by simp [h10, h14])

end

theorem islFenced_fenceIsland (g : Gw) (i : Nat) : (g.fenceIsland i).islFenced i = true := by
  unfold Gw.islFenced Gw.fenceIsland Gw.setIsl
  dsimp only
  rw [mgetD_mput_same]
  rfl

@[simp] theorem reply_isl (g : Gw) (m st : Nat) (t : Stamp) (ws : List Nat) : (g.reply m st t ws).isl = g.isl := by
  obtain ⟨rs, ms, h, -⟩ := reply_shape g m st t ws
  rw [h]

/-- What a self-test that passes leaves of its island, after its reply: fenced as before, and running unless fenced. -/
theorem diagSelftest_pass (g : Gw) (i m : Nat) (ws : List Nat) :
    (((g.clearIsland i).startIsland i).reply m 0 0 ws).islOn i = true ∧
      (((g.clearIsland i).startIsland i).reply m 0 0 ws).islFenced i = false := by
  have hisl : (((g.clearIsland i).startIsland i).reply m 0 0 ws).isl = mput (g.clearIsland i).isl i 1 0 := by
    rw [reply_isl, (startIsland_acts _ i).1]
  refine ⟨islOn_setIsl_one hisl, ?_⟩
  unfold Gw.islFenced
  rw [hisl, mgetD_mput_same]
  rfl

theorem islFenced_of_isl {g t : Gw} (h : t.isl = g.isl) (i : Nat) : t.islFenced i = g.islFenced i := by
  unfold Gw.islFenced
  rw [h]

theorem islOn_after (s : State) (g : Gw) (i : Nat) : (s.after g).gw.islOn i = g.islOn i := islOn_interrupts s.gw g i

theorem islFenced_after (s : State) (g : Gw) (i : Nat) : (s.after g).gw.islFenced i = g.islFenced i :=
  islFenced_of_isl (interrupts_isl s.gw g) i

/-! ### Debug access -/

theorem debugger_acts {g : Gw} {k : Nat} (op : Nat) (hk : k < 2) (hdbg : g.flt.dbg ≠ none) (hon : g.islOn 10 = true) :
    g.debugger k op = { g with pairs := mset g.pairs k { mgetD g.pairs k {} with
      halted := if op = 0 then true else if op = 1 then false else (mgetD g.pairs k {}).halted } } := by
  have hsome : g.flt.dbg.isNone = false := by
    rw [Option.isNone_eq_false_iff, Option.isSome_iff_ne_none]
    exact hdbg
  unfold Gw.debugger
  exact if_neg (by simp [hsome, hon]; omega)

theorem debugger_locked {g : Gw} (k op : Nat) (hdbg : g.flt.dbg = none) : g.debugger k op = g := by
  unfold Gw.debugger
  exact if_pos (by simp [hdbg])

/-! ### The last-gasp record -/

theorem length_gaspBody (g : Gw) : g.gaspBody.length = 4088 := length_padTo _ _

theorem gaspRecord_marker (g : Gw) :
    g.gaspRecord.drop 4088 = (sha3x256 (g.gaspRecord.take 4088)).take 8 := by
  have hlen := length_gaspBody g
  unfold Gw.gaspRecord
  dsimp only
  rw [List.drop_left' hlen, List.take_left' hlen]

theorem take_padTo {n k : Nat} {bs : List Byte} (hk : k ≤ n) (hl : k ≤ bs.length) : (padTo n bs).take k = bs.take k := by
  unfold padTo
  rw [List.take_append_of_le_length (by rw [List.length_take]; omega), List.take_take, Nat.min_eq_left hk]

theorem gaspRecord_head (g : Gw) : g.gaspRecord.take 4 = [0x5A, 0x39, 0x36, 0x4C] := by
  unfold Gw.gaspRecord
  dsimp only
  rw [List.take_append_of_le_length (by rw [length_gaspBody]; omega)]
  unfold Gw.gaspBody
  dsimp only
  rw [take_padTo (by omega)]
  · rfl
  · simp only [List.cons_append, List.length_cons]
    omega

/-- Of two written slots the older is erased: at most one stays. -/
theorem eraseOldGasp_one (g : Gw) :
    ¬((mget? g.eraseOldGasp.flash.gasp 0).isSome = true ∧ (mget? g.eraseOldGasp.flash.gasp 1).isSome = true) := by
  have hslot : g.gaspSlot = 0 ∨ g.gaspSlot = 1 := by
    unfold Gw.gaspSlot
    split
    · exact .inl rfl
    · exact .inr rfl
    · split
      · exact .inl rfl
      · exact .inr rfl
  rintro ⟨h0, h1⟩
  unfold Gw.eraseOldGasp at h0 h1
  split at h0
  next a b ha hb =>
    dsimp only at h0 h1
    rw [ha, hb] at h1
    rcases hslot with hs | hs
    · rw [hs, mget?_merase_same] at h0
      cases h0
    · rw [hs, mget?_merase_same] at h1
      cases h1
  next hnot =>
    split at h1
    next a b ha hb => exact hnot a b ha hb
    next =>
      obtain ⟨a, ha⟩ := Option.isSome_iff_exists.mp h0
      obtain ⟨b, hb⟩ := Option.isSome_iff_exists.mp h1
      exact hnot a b ha hb

theorem regN_eraseOldGasp (g : Gw) (o : Nat) : g.eraseOldGasp.regN o = g.regN o := by
  unfold Gw.eraseOldGasp
  split <;> rfl

theorem eraseOldGasp_flt (g : Gw) : g.eraseOldGasp.flt = g.flt := by
  unfold Gw.eraseOldGasp
  split <;> rfl

theorem debugUnlock_eq (m : Nat) (g : Gw) :
    debugUnlock m g = if g.fw.presence then (setDebug g (some (Int.ofNat g.tb.tick)), {}) else (g, failWith stPresence) := rfl

theorem diagLastgasp_unaligned {m off : Nat} {g : Gw} (hoff : off = bits (g.arg m 0) 11 0) (h : off % 4 ≠ 0) :
    diagLastgasp m g = (g, failWith stBadArg) := by
  subst hoff
  exact if_pos h

theorem diagLastgasp_aligned {m off : Nat} {g : Gw} (hoff : off = bits (g.arg m 0) 11 0) (h : off % 4 = 0) :
    diagLastgasp m g = (g, ⟨0, (atBit 31 g.newestGasp.isSome + min 960 (4096 - off)) ::
      byteWords (slice (padTo 4096 ((g.newestGasp.map (fun r => r.2.2)).getD [])) off (min 960 (4096 - off))), false, none⟩) := by
  subst hoff
  exact if_neg (not_not.mpr h)

theorem debugAutolock_due {g : Gw} {k : Int} (hk : g.flt.dbg = some k) (hp : g.param Par.diagDebugAutolockS ≠ 0)
    (hdue : k + (g.param Par.diagDebugAutolockS : Int) * 500000000 ≤ (g.tb.tick : Int)) :
    g.debugAutolock = setDebug g none := by
  unfold Gw.debugAutolock
  dsimp only
  rw [hk]
  refine if_pos ?_
  have hticks : (1000 * ticksPerMs : Nat) = 500000000 := rfl
  simp only [ne_eq, Bool.and_eq_true, decide_eq_true_eq, decide_not, Bool.not_eq_true']
  refine ⟨by simp [hp], ?_⟩
  rw [Nat.mul_assoc, hticks]
  simp only [Int.ofNat_eq_natCast, Nat.cast_mul]
  exact hdue

theorem powerFails_writes {g : Gw} (hpf : g.flt.powerFail = false) (hrun : g.pairRuns 1 = true) (hb : g.fw.state ≠ .boot)
    (hs : g.fw.state ≠ .sleep) : g.powerFails = { g with
      flash := { g.flash with gasp := mset g.flash.gasp g.gaspSlot (g.flash.gaspSeq + 1, g.gaspRecord),
                              gaspSeq := g.flash.gaspSeq + 1 },
      flt := { g.flt with powerFail := true, gaspWritten := true } } := by
  have hw : (g.pairRuns 1 && g.fw.state ≠ .boot && g.fw.state ≠ .sleep) = true := by simp [hrun, hb, hs]
  unfold Gw.powerFails
  rw [if_neg (by simp [hpf])]
  dsimp only
  rw [hw]
  rfl

theorem powerReturns_acts {g : Gw} (hpf : g.flt.powerFail = true) : g.powerReturns.flt.powerFail = false ∧
    (g.flt.gaspWritten = true → bit (g.powerReturns.regN Reg.lckFlag) 22 = true ∧
      ¬((mget? g.powerReturns.flash.gasp 0).isSome = true ∧ (mget? g.powerReturns.flash.gasp 1).isSome = true)) := by
  unfold Gw.powerReturns
  rw [if_neg (by simp [hpf])]
  dsimp only
  by_cases hw : g.flt.gaspWritten = true
  · rw [if_pos hw]
    refine ⟨by rw [eraseOldGasp_flt]; rfl, fun _ => ⟨?_, eraseOldGasp_one _⟩⟩
    rw [regN_eraseOldGasp]
    exact bit_regN_flag_of_mask _ _ (by omega) (by decide)
  · rw [if_neg hw]
    exact ⟨rfl, fun h => absurd h hw⟩

end Sys2Proof.Machine
end

section
/-! The statement on self-tests, the error log, debug access and the last-gasp record (R642–R644, R749, R769, R770). -/

namespace Sys2Proof.Machine

/-- Settles O48: by the row or event of each clause; a self-test that passes starts its island again. -/
theorem diagnosticsAndPowerFail : Obligations.DiagnosticsAndPowerFail := by
  unfold Obligations.DiagnosticsAndPowerFail
  refine ⟨fun s m i us pass h hi => ⟨fun hbar => ?_, fun h10 h14 hcfg => ⟨fun hp => ?_, fun hp => ?_⟩, fun h10 h14 hcfg => ?_⟩,
    fun s m h => ⟨_, ?_, rfl⟩, fun s m h hb => ?_, fun s m h hb => ?_, fun s k hk hp hdue => ?_,
    fun s k op hk hdbg hon => ?_, fun s k op hdbg => ?_, fun s m off h hoff => ⟨fun hal => ?_, fun hal => ?_⟩,
    fun s hpf hrun hb hs => ?_, fun s hpf => ?_⟩
  · rw [exec_diagSelftest]
    exact answer_of_withGw (directRow_failWith h (diagSelftest_barred hi hbar))
  · rw [exec_diagSelftest]
    refine ⟨answer_of_withGw (directRow_words h ?_), islFenced_fenceIsland _ _⟩
    rw [diagSelftest_open hi h10 h14, if_pos hcfg, hp]
    rfl
  · rw [exec_diagSelftest]
    subst hp
    cases hf : s.gw.islFenced i
    · have hrow : diagSelftest true us m s.gw =
          ((s.gw.clearIsland i).startIsland i, { words := [atBit 0 (!true), min us 5000] }) := by
        rw [diagSelftest_open hi h10 h14, if_pos hcfg, if_neg (by decide), if_neg (by simp [hf])]
      obtain ⟨hon, hfenced⟩ := diagSelftest_pass s.gw i m [atBit 0 (!true), min us 5000]
      refine ⟨_, answer_of_withGw (directRow_words h hrow), ?_, fun _ => ?_⟩
      · exact (islFenced_after _ _ _).trans hfenced
      · exact (islOn_after _ _ _).trans hon
    · have hrow : diagSelftest true us m s.gw = (s.gw, { words := [atBit 0 (!true), min us 5000] }) := by
        rw [diagSelftest_open hi h10 h14, if_pos hcfg, if_neg (by decide), if_pos hf]
      refine ⟨_, answer_of_withGw (directRow_words h hrow), ?_, fun hno => by cases hno⟩
      exact (islFenced_after _ _ _).trans ((islFenced_of_isl (reply_isl ..) i).trans hf)
  · rw [exec_diagSelftest]
    have hopen := diagSelftest_open (us := us) hi h10 h14 pass
    rw [if_neg hcfg] at hopen
    by_cases hf : s.gw.islFenced i = true
    · rw [if_pos hf] at hopen ⊢
      refine answer_of_withGw ((directRow_words h hopen).trans ?_)
      cases pass <;> rfl
    · rw [if_neg hf] at hopen ⊢
      exact answer_of_withGw (directRow_failWith h hopen)
  · rw [exec_diagErrlog]
    refine answer_of_withGw ((directRow_words h rfl).trans ?_)
    simp only [atBit, decide_eq_true_eq]
  · rw [exec_diagDebugUnlock hb]
    have heq := debugUnlock_eq m s.gw
    by_cases hp : s.gw.fw.presence = true
    · rw [if_pos hp] at heq ⊢
      exact answer_of_withGw (directRow_words h heq)
    · rw [if_neg hp] at heq ⊢
      exact answer_of_withGw (directRow_failWith h heq)
  · rw [exec_diagDebugLock hb]
    exact answer_of_withGw (directRow_words h rfl)
  · rw [exec_debugAutolock, answer_onGw, debugAutolock_due hk hp hdue]
    rfl
  · rw [exec_debuggerAccess, answer_onGw]
    have hact := debugger_acts op hk hdbg hon
    have hpair : ∀ st, mgetD (s.after (s.gw.debugger k op)).gw.pairs k st = { mgetD s.gw.pairs k {} with
        halted := if op = 0 then true else if op = 1 then false else (mgetD s.gw.pairs k {}).halted } := by
      intro st
      rw [after_gw, interrupts_pairs, hact]
      exact mgetD_mset_same ..
    refine ⟨_, rfl, fun h0 => ?_, fun h1 => ?_, ?_⟩
    · unfold Gw.pairRuns
      rw [hpair, h0]
      simp
    · rw [hpair, h1]
      rfl
    · unfold Gw.pairState
      rw [hpair]
  · rw [exec_debuggerAccess, answer_onGw, debugger_locked k op hdbg, after_self]
  · rw [exec_diagLastgasp]
    exact answer_of_withGw (directRow_failWith h (diagLastgasp_unaligned hoff hal))
  · rw [exec_diagLastgasp]
    exact answer_of_withGw (directRow_words h (diagLastgasp_aligned hoff hal))
  · rw [exec_pwrFailNFall, answer_onGw]
    have hact := powerFails_writes hpf hrun hb hs
    refine ⟨_, rfl, ?_, ?_, s.gw.gaspSlot, s.gw.gaspRecord, ?_, gaspRecord_head _, gaspRecord_marker _⟩
    · rw [after_gw, interrupts_flt, hact]
    · rw [after_gw, interrupts_flash, hact]
    · rw [after_gw, interrupts_flash, hact]
      exact mget?_mset_same ..
  · rw [exec_pwrFailNRise, answer_onGw]
    obtain ⟨hoff, herase⟩ := powerReturns_acts hpf
    refine ⟨_, rfl, ?_, fun hw => ⟨?_, ?_⟩⟩
    · rw [after_gw, interrupts_flt]
      exact hoff
    · rw [regN_after _ _ (by decide)]
      exact (herase hw).1
    · rw [after_gw, interrupts_flash]
      exact (herase hw).2

end Sys2Proof.Machine
end

section
/-! SUPPORT. Detected errors, targeted tests, fences, pair restarts and per-island resets (R744, R752–R764, R810). -/

namespace Sys2Proof.Machine

theorem exec_lockstepMismatch (k lane : Nat) (s : State) :
    exec (.lockstepMismatch k lane) s = answer (onGw (fun g => g.mismatch k lane)) s := rfl
theorem exec_inputSkew (k : Nat) (persists : Option Nat) (s : State) :
    exec (.inputSkew k persists) s = answer (onGw (fun g => g.inputSkew k persists)) s := rfl
theorem exec_detectedErrorHandling (kind detail island unit : Nat) (code : Bool) (s : State) :
    exec (.detectedErrorHandling kind detail island unit code) s =
      answer (onGw (fun g => g.errorEvent kind detail island unit code)) s := rfl
theorem exec_targetedTestComplete (i : Nat) (pass : Bool) (s : State) : exec (.targetedTestComplete i pass) s =
    answer (fun s => retireWords s.gw (onGw (fun g => g.testComplete i pass) s)) s := rfl
theorem exec_pairRestart (k lanes : Nat) (s : State) : exec (.pairRestart k lanes) s = answer (pairRestart k lanes) s := rfl
theorem exec_lckIslRst (v : W32) (s : State) :
    exec (.lckIslRst v) s = answer (onGw (fun g => if g.islOn 10 then g.islandResets v.toNat else g)) s := rfl
theorem exec_islandStart (i : Nat) (s : State) : exec (.islandStart i) s = answer (onGw (fun g => g.islandStart i)) s := rfl

/-! ### Pairs -/

theorem pairState_of_pairs {g t : Gw} (h : t.pairs = g.pairs) (k : Nat) : t.pairState k = g.pairState k := by
  unfold Gw.pairState
  rw [h]

theorem pairState_setPair_same (g : Gw) (k st : Nat) : (g.setPair k st).pairState k = st := by
  unfold Gw.pairState Gw.setPair
  dsimp only
  rw [mgetD_mset_same]

theorem pairState_setPair_ne (g : Gw) {j k : Nat} (st : Nat) (h : j ≠ k) : (g.setPair k st).pairState j = g.pairState j := by
  unfold Gw.pairState Gw.setPair
  dsimp only
  rw [mgetD_mset_ne _ _ _ h]

theorem pairState_after (s : State) (g : Gw) (k : Nat) : (s.after g).gw.pairState k = g.pairState k :=
  pairState_of_pairs (interrupts_pairs s.gw g) k

theorem other_pair_ne {k : Nat} (hk : k < 2) : 1 - k ≠ k := by omega

/-! ### A lockstep mismatch -/

section
variable {g : Gw} {k : Nat} (lane : Nat) (hk : k < 2) (hst : g.pairState k = 1) (hon : g.islOn 10 = true)
include hk hst hon

/-- A mismatch of a pair while the other runs: the pair stops, the error is counted and waits for its handling. -/
theorem mismatch_detects (hother : g.pairState (1 - k) = 1) :
    g.mismatch k lane = ((g.setPair k 2).bump (Reg.lckMisCnt k)).detect 1 (16 * k + lane % 8) 10 k := by
  unfold Gw.mismatch
  rw [if_neg (by simp [hst, hon]; omega)]
  exact if_neg (by simp [hother])

/-- A mismatch of the only pair that runs resets the die. -/
theorem mismatch_resets (hother : g.pairState (1 - k) ≠ 1) (hho : g.handing = false) :
    ∃ t : Gw, g.mismatch k lane = t.warmReset ∧ t.aon = g.aon := by
  unfold Gw.mismatch
  rw [if_neg (by simp [hst, hon]; omega)]
  exact ⟨_, if_pos (by simp [hother, hho]), rfl⟩

theorem inputSkew_resolved : g.inputSkew k none = g.bump (Reg.lckSkewCnt k) := by
  unfold Gw.inputSkew
  exact if_neg (by simp [hst, hon]; omega)

theorem inputSkew_persists : g.inputSkew k (some lane) = g.mismatch k lane := by
  unfold Gw.inputSkew
  exact if_neg (by simp [hst, hon]; omega)

end

/-- A warm reset with the rails good and TEST_MODE low: the boot ROM starts and the firmware does not run. -/
theorem warmReset_starts {g : Gw} (hrel : g.aon.released = true) (htest : g.aon.testMode = false) :
    g.warmReset.boot.stage = 1 ∧ g.warmReset.fw.running = false := by
  refine ⟨?_, by rw [warmReset_fw]⟩
  obtain ⟨os, heq⟩ := warmReset_eq g
  rw [heq, if_pos (by rw [hrel, htest]; rfl)]
  rfl

/-! ### An error that is handled -/

/-- Taking a unit out of service for its test leaves the errors that wait, the log and the tests alone. -/
theorem takeOut_keeps (g : Gw) (r : ErrReport) : (g.takeOut r).detected = g.detected ∧
    (g.takeOut r).flt.log = g.flt.log ∧ (g.takeOut r).flt.tests = g.flt.tests := by
  have hlost : ((g.endRun.clearIsland r.island).setIsl r.island 3).detected = g.detected ∧
      ((g.endRun.clearIsland r.island).setIsl r.island 3).flt.log = g.flt.log ∧
      ((g.endRun.clearIsland r.island).setIsl r.island 3).flt.tests = g.flt.tests := by
    have hcalm := (clearIsland_acts g.endRun r.island).1.trans (calm_endRun g)
    have hdet := congrArg Gw.detected hcalm
    have hlog := congrArg (fun x : Gw => x.flt.log) hcalm
    have htests := congrArg (fun x : Gw => x.flt.tests) hcalm
    exact ⟨hdet, hlog, htests⟩
  unfold Gw.takeOut
  split
  · exact ⟨rfl, rfl, rfl⟩
  split
  · exact ⟨rfl, rfl, rfl⟩
  split
  · split
    · exact ⟨rfl, rfl, rfl⟩
    · exact hlost
  split
  · exact ⟨rfl, rfl, rfl⟩
  · exact ⟨rfl, rfl, rfl⟩

/-- With no test open, an error goes into the log as pending and its test runs. -/
theorem handleError_acts {g : Gw} (r : ErrReport) (h : g.flt.tests = []) : ∃ e x,
    (g.handleError r).detected = g.detected ∧ (g.handleError r).flt.log = g.flt.log ++ [e] ∧ e.kind = r.kind ∧
    e.island = r.island ∧ e.cls = 0 ∧ e.detail = r.detail ∧ (g.handleError r).flt.tests = [x] ∧ x.rep = r ∧
    x.running = true := by
  obtain ⟨hdet, hlog, htests⟩ := takeOut_keeps (g.logError r 0) r
  have hopen : (g.logError r 0).flt.tests = [] := h
  unfold Gw.handleError
  rw [if_neg (by simp [h])]
  refine ⟨_, { rep := r, seq := g.flt.nextSeq % 65536, running := true }, hdet, hlog, rfl, rfl, rfl, rfl, ?_, rfl, rfl⟩
  dsimp only
  rw [htests, hopen, h]
  rfl

/-- The oldest report is handled when its pair runs. -/
theorem errorEvent_oldest {g : Gw} {r : ErrReport} {rest : List ErrReport} {code : Bool} {a b c : Nat}
    (hdet : g.detected = r :: rest) (hho : g.handing = false) (hrun : g.pairRuns (g.handler r) = true) :
    g.errorEvent 0 a b c code = ({ g with detected := rest } : Gw).handleError r := by
  have hfirst : takeFirst (fun r => !g.handing && g.pairRuns (g.handler r)) (r :: rest) = some (r, rest) :=
    if_pos (by simp [hho, hrun])
  unfold Gw.errorEvent
  rw [if_neg (by decide)]
  dsimp only
  rw [hdet, hfirst]

/-! ### A test that ends -/

/-- What a test that ends leaves after the words of retired pages are copied: the module as the test leaves it, but for
the list of bad words. -/
theorem targetedTest_acts (i : Nat) (pass : Bool) (s : State) : ∃ t ws,
    exec (.targetedTestComplete i pass) s = .next t ∧
    t.gw = s.gw.interrupts ({ s.gw.testComplete i pass with
      flt := { (s.gw.testComplete i pass).flt with badWords := ws } }) := by
  rw [exec_targetedTestComplete]
  exact ⟨_, _, rfl, rfl⟩

theorem bit_setBits_set (v n : Nat) : bit (setBits v n n 1) n = true := by
  have hdiv : (v - v / 2 ^ n % 2 * 2 ^ n) / 2 ^ n = v / 2 ^ n - v / 2 ^ n % 2 := by
    rw [Nat.mul_comm, Nat.sub_mul_div]
  have hone : (v - v / 2 ^ n % 2 * 2 ^ n + 1 * 2 ^ n) / 2 ^ n = (v - v / 2 ^ n % 2 * 2 ^ n) / 2 ^ n + 1 :=
    Nat.add_mul_div_right _ _ (Nat.two_pow_pos n)
  simp only [bit, setBits, bits, Nat.shiftRight_eq_div_pow, Nat.sub_self, Nat.zero_add, Nat.pow_one,
    Nat.testBit_eq_decide_div_mod_eq, decide_eq_true_eq, Nat.mod_eq_of_lt (by omega : 1 < 2)]
  rw [hone, hdiv]
  omega

theorem regN_interrupts_above (a g : Gw) {o : Nat} (h : 0x3008 ≤ o) : (a.interrupts g).regN o = g.regN o := by
  unfold Gw.regN
  rw [interrupts_reg a g (not_mem_pba h)]

/-- The classification of the record with a SEQ. -/
theorem cls_setErrClass {g : Gw} {seq cls : Nat} : ∀ e ∈ (g.setErrClass seq cls).flt.log, e.seq = seq → e.cls = cls := by
  intro e he hseq
  unfold Gw.setErrClass at he
  dsimp only at he
  obtain ⟨x, -, rfl⟩ := List.mem_map.mp he
  by_cases hx : x.seq = seq
  · rw [if_pos hx]
  · rw [if_neg hx] at hseq
    exact absurd hseq hx

section
variable {g : Gw} {x : FaultTest} (hone : g.flt.tests = [x]) (hrun : x.running = true)
include hone hrun

theorem takeFirst_test : takeFirst (fun (t : FaultTest) => t.running && t.rep.island = x.rep.island) g.flt.tests =
    some (x, []) := by
  rw [hone]
  exact if_pos (by simp [hrun])

/-- The module once its only open test has ended. -/
def Gw.testsDone (g : Gw) : Gw := { g with flt := { g.flt with tests := [] } }

theorem testComplete_transient (hmust : x.mustFail = false) (hfew : g.recentTransients x.rep.key < 3) :
    g.testComplete x.rep.island true = ({ (g.testsDone.setErrClass x.seq 1).bump (Reg.lckTransCnt (x.rep.kind - 1)) with
      flt := { ((g.testsDone.setErrClass x.seq 1).bump (Reg.lckTransCnt (x.rep.kind - 1))).flt with
        transients := g.flt.transients ++ [(x.rep.key.1, x.rep.key.2.1, x.rep.key.2.2, g.heartbeatMs)] } } : Gw).putBack x.rep := by
  unfold Gw.testComplete
  rw [takeFirst_test hone hrun]
  have hgo : (true && !x.mustFail && decide (g.testsDone.recentTransients x.rep.key < 3)) = true := by
    rw [hmust]
    exact decide_eq_true hfew
  exact if_pos hgo

theorem testComplete_lasting : g.testComplete x.rep.island false = (g.testsDone.setErrClass x.seq 2).lasting x.rep := by
  unfold Gw.testComplete
  rw [takeFirst_test hone hrun]
  rfl

end

theorem putBack_engine (g : Gw) {r : ErrReport} (h : r.kind = 3) :
    g.putBack r = { g with cryUp := setBits g.cryUp (r.unit % 10) (r.unit % 10) 1 } := by
  unfold Gw.putBack
  rw [if_neg (by omega), if_pos h]

/-! ### A lasting fault -/

/-- A change of the firmware's state: the state, a flag of the mailboxes and the deadlines of the NM buses. -/
theorem setFw_shape (g : Gw) (st : FwState) : ∃ rs n,
    g.setFw st = { g with fw := { g.fw with state := st }, regs := rs, nm := n } ∧
    ∀ o, o ≠ Reg.mbxFlag → (g.setFw st).regN o = g.regN o := by
  unfold Gw.setFw
  by_cases h : g.fw.state = st
  · rw [if_pos h]
    subst h
    exact ⟨_, _, rfl, fun _ _ => rfl⟩
  · rw [if_neg h]
    dsimp only
    split
    · exact ⟨_, _, rfl, fun o ho => regN_flag_ne _ ho⟩
    · exact ⟨_, _, rfl, fun o ho => regN_flag_ne _ ho⟩

/-- A fence leads from RUN to DEGRADED; nothing else follows from it. -/
theorem degrade_shape (g : Gw) : ∃ rs n f,
    g.degrade = { g with fw := f, regs := rs, nm := n } ∧ (∀ o, o ≠ Reg.mbxFlag → g.degrade.regN o = g.regN o) ∧
    (g.fw.state = .run → f.state = .degraded) := by
  unfold Gw.degrade
  by_cases h : g.fw.state = .run
  · rw [if_pos h]
    obtain ⟨rs, n, heq, hreg⟩ := setFw_shape g .degraded
    exact ⟨rs, n, _, heq, hreg, fun _ => rfl⟩
  · rw [if_neg h]
    exact ⟨_, _, _, rfl, fun _ _ => rfl, fun hrun => absurd hrun h⟩

theorem mustReset_congr {g t : Gw} (hisl : t.isl = g.isl) (h : (t.pairState 0 = 4 ∧ t.pairState 1 = 4) →
    g.pairState 0 = 4 ∧ g.pairState 1 = 4) (hg : g.mustReset = false) : t.mustReset = false := by
  unfold Gw.mustReset at hg ⊢
  simp only [islFenced_of_isl hisl]
  simp only [Bool.or_eq_false_iff] at hg ⊢
  refine ⟨hg.1, ?_⟩
  have := hg.2
  simp only [Bool.and_eq_false_iff, decide_eq_false_iff_not] at this ⊢
  tauto

/-- What counts and records a lasting fault does before its unit is fenced. -/
def Gw.lastingNoted (g : Gw) (r : ErrReport) : Gw :=
  { (g.bump (Reg.lckLastCnt (r.kind - 1))).flag Reg.lckFlag 0x01000000 with
    flash := { g.flash with faultSlot := g.flash.faultSlot ++ [r] } }

theorem lasting_eq (g : Gw) (r : ErrReport) : g.lasting r =
    if (((g.lastingNoted r).fenceUnit r).degrade).mustReset then (((g.lastingNoted r).fenceUnit r).degrade).warmReset
    else ((g.lastingNoted r).fenceUnit r).degrade := rfl

theorem lckFlag_lastingNoted (g : Gw) (r : ErrReport) : bit ((g.lastingNoted r).regN Reg.lckFlag) 24 = true :=
  bit_regN_flag_of_mask _ _ (by omega) (by decide)

theorem lckLastCnt_lastingNoted (g : Gw) (r : ErrReport) : (g.lastingNoted r).regN (Reg.lckLastCnt (r.kind - 1)) =
    satAdd (g.regN (Reg.lckLastCnt (r.kind - 1))) 1 :=
  (regN_flag_ne _ (by simp only [Reg.lckLastCnt, Reg.lckFlag]; omega)).trans (regN_bump_same g _)

/-- The fence of one AES core while another still works: its bit among the engines, and nothing else. -/
theorem fenceUnit_aes (g : Gw) {r : ErrReport} (hkind : r.kind = 3) (hunit : r.unit < 8) (hall : g.flt.aes = 0) :
    g.fenceUnit r = { g with flt := { g.flt with aes := 2 ^ r.unit } } := by
  unfold Gw.fenceUnit
  rw [if_neg (by omega), if_neg (by omega), if_pos hkind]
  have hcore : ¬ 8 ≤ r.unit := by omega
  have hnot : 2 ^ r.unit % 256 ≠ 255 := by
    generalize r.unit = u at hunit
    interval_cases u <;> decide
  simp only [if_neg hcore, hall, Nat.zero_or, if_neg hnot]

/-- A lasting fault of one AES core while the others work and nothing is fenced that the module needs. -/
theorem lasting_aes {g : Gw} {r : ErrReport} (hkind : r.kind = 3) (hunit : r.unit < 8) (hall : g.flt.aes = 0)
    (hno : g.mustReset = false) : ∃ rs n f, g.lasting r = { g with
      flt := { g.flt with aes := 2 ^ r.unit }, flash := { g.flash with faultSlot := g.flash.faultSlot ++ [r] },
      fw := f, regs := rs, nm := n } ∧
    (g.lasting r).regN (Reg.lckLastCnt 2) = satAdd (g.regN (Reg.lckLastCnt 2)) 1 ∧
    bit ((g.lasting r).regN Reg.lckFlag) 24 = true ∧ (g.fw.state = .run → f.state = .degraded) := by
  have hcnt := lckLastCnt_lastingNoted g r
  have hflag := lckFlag_lastingNoted g r
  have hlast := lasting_eq g r
  rw [fenceUnit_aes (g.lastingNoted r) hkind hunit hall] at hlast
  obtain ⟨rs, n, f, heq, hreg, hrun⟩ := degrade_shape
    ({ g.lastingNoted r with flt := { (g.lastingNoted r).flt with aes := 2 ^ r.unit } } : Gw)
  have hkeep := mustReset_congr (g := g) (t := ({ g.lastingNoted r with
    flt := { (g.lastingNoted r).flt with aes := 2 ^ r.unit } } : Gw).degrade) (by rw [heq]; rfl) (by rw [heq]; exact id) hno
  rw [hkeep, if_neg (by decide)] at hlast
  rw [hkind] at hcnt
  rw [hlast]
  refine ⟨rs, n, f, heq.trans rfl, ?_, ?_, hrun⟩
  · exact (hreg _ (by decide)).trans hcnt
  · rw [hreg _ (by decide)]
    exact hflag

/-- The servo of pair 0 without its pair: neither the islands nor the pairs change, and of the registers only TB_FLAG. -/
theorem losePair0_keeps (g : Gw) : g.losePair0.isl = g.isl ∧ g.losePair0.pairs = g.pairs ∧
    ∀ o, o ≠ Reg.tbFlag → g.losePair0.regN o = g.regN o := by
  have hservo : ∀ k : Gw, (k.setServo .holdover).isl = k.isl ∧ (k.setServo .holdover).pairs = k.pairs ∧
      ∀ o, o ≠ Reg.tbFlag → (k.setServo .holdover).regN o = k.regN o := by
    intro k
    unfold Gw.setServo
    split
    · exact ⟨rfl, rfl, fun _ _ => rfl⟩
    · exact ⟨rfl, rfl, fun o ho => regN_flag_ne _ ho⟩
  unfold Gw.losePair0
  split
  · exact hservo _
  · exact ⟨rfl, rfl, fun _ _ => rfl⟩

/-- The fence of a pair: its state, the islands as they were, and of the registers at most TB_FLAG. -/
theorem fencePair_acts (g : Gw) (k : Nat) : (g.fencePair k).isl = g.isl ∧ (g.fencePair k).pairs = (g.setPair k 4).pairs ∧
    ∀ o, o ≠ Reg.tbFlag → (g.fencePair k).regN o = g.regN o := by
  unfold Gw.fencePair
  dsimp only
  split
  · exact losePair0_keeps (g.setPair k 4)
  · exact ⟨rfl, rfl, fun _ _ => rfl⟩

theorem lckFlag_lastingNoted_of_set (g : Gw) (r : ErrReport) {b : Nat} (hb : b < 32) (h : bit (g.regN Reg.lckFlag) b = true) :
    bit ((g.lastingNoted r).regN Reg.lckFlag) b = true := by
  refine bit_regN_flag_of_set (g := g.bump (Reg.lckLastCnt (r.kind - 1))) _ hb ?_
  rw [regN_bump_ne _ (by simp only [Reg.lckLastCnt, Reg.lckFlag]; omega)]
  exact h

/-- A lasting fault of one pair while the other may run: the pair is fenced, and what was flagged stays flagged. -/
theorem lasting_pair {g : Gw} {r : ErrReport} (hkind : r.kind = 1) (hunit : r.unit < 2)
    (hother : g.pairState (1 - r.unit) ≠ 4) (hno : g.mustReset = false) : (g.lasting r).pairState r.unit = 4 ∧
    bit ((g.lasting r).regN Reg.lckFlag) 24 = true ∧
    ∀ b, b < 32 → bit (g.regN Reg.lckFlag) b = true → bit ((g.lasting r).regN Reg.lckFlag) b = true := by
  have hflag := lckFlag_lastingNoted g r
  have hset := fun b hb => lckFlag_lastingNoted_of_set g r (b := b) hb
  have hunits : (g.lastingNoted r).fenceUnit r = (g.lastingNoted r).fencePair r.unit := if_pos hkind
  obtain ⟨hisl, hpairs, hreg⟩ := fencePair_acts (g.lastingNoted r) r.unit
  obtain ⟨rs, n, f, heq, hreg', -⟩ := degrade_shape ((g.lastingNoted r).fencePair r.unit)
  have hstate : ∀ j, (((g.lastingNoted r).fencePair r.unit).degrade).pairState j =
      ((g.lastingNoted r).setPair r.unit 4).pairState j := by
    intro j
    rw [← pairState_of_pairs hpairs, heq]
    rfl
  have hkeep : (((g.lastingNoted r).fencePair r.unit).degrade).mustReset = false := by
    refine mustReset_congr (g := g) (by rw [heq]; exact hisl) (fun hboth => ?_) hno
    have hone : (((g.lastingNoted r).fencePair r.unit).degrade).pairState (1 - r.unit) = 4 := by
      rcases (by omega : r.unit = 0 ∨ r.unit = 1) with h | h
      · rw [(by omega : 1 - r.unit = 1)]
        exact hboth.2
      · rw [(by omega : 1 - r.unit = 0)]
        exact hboth.1
    rw [hstate, pairState_setPair_ne _ _ (other_pair_ne hunit)] at hone
    exact absurd hone hother
  have hlast := lasting_eq g r
  rw [hunits, hkeep, if_neg (by decide)] at hlast
  have hflags : (g.lasting r).regN Reg.lckFlag = (g.lastingNoted r).regN Reg.lckFlag := by
    rw [hlast, hreg' _ (by decide), hreg _ (by decide)]
  refine ⟨?_, by rw [hflags, hflag], fun b hb h => by rw [hflags, hset b hb h]⟩
  rw [hlast, hstate]
  exact pairState_setPair_same ..

/-! ### A pair that starts again -/

theorem pairRestart_reruns {s : State} {k : Nat} (lanes : Nat) (hk : k < 2) (hst : s.gw.pairState k = 3)
    (hon : s.gw.islOn 10 = true) (hho : s.gw.handing = false) : pairRestart k lanes s =
    if lanes % 256 = 255 then
      let g : Gw := { s.gw with flt := { s.gw.flt with inj := mset s.gw.flt.inj k (2 ^ 31 + 2 ^ 30 + lanes % 256) } }
      let t := (g.openCommands k).foldl loseCommand (s.withGw g)
      t.withGw ((t.gw.setPair k 1).flag Reg.mbxFlag 0x20000000)
    else
      let g : Gw := { s.gw with flt := { s.gw.flt with inj := mset s.gw.flt.inj k (2 ^ 31 + 0 + lanes % 256) } }
      let r : ErrReport := { kind := 1, detail := 16 * k, island := 10, unit := k }
      s.withGw (((g.flag Reg.lckFlag 0x00800000).logError r 2).lasting r) := by
  unfold pairRestart
  dsimp only
  rw [if_neg (by simp [hst, hon, hho]; omega)]
  by_cases h : lanes % 256 = 255
  · rw [if_pos h, if_pos h, h]
    rfl
  · rw [if_neg h, if_neg h, decide_eq_false h]
    rfl

/-- With no change that waits for its stamp, a lost command only leaves its mailbox. -/
theorem loseCommand_of_no_change {s : State} (m : Nat) (h : s.gw.str.changes = []) :
    loseCommand s m = s.withGw (s.gw.forgetMbx m) := by
  unfold loseCommand Gw.changeOf
  rw [h]
  rfl

/-- What loses several commands: their mailboxes are IDLE, the pairs, fault records and waiting changes as they were. -/
theorem loseCommands_act (l : List Nat) (s : State) (h : s.gw.str.changes = []) :
    (l.foldl loseCommand s).gw.pairs = s.gw.pairs ∧ (l.foldl loseCommand s).gw.flt = s.gw.flt ∧
    ∀ m, (m ∈ l ∨ (s.gw.mbxAt m).st = .idle) → ((l.foldl loseCommand s).gw.mbxAt m).st = .idle := by
  induction l generalizing s with
  | nil => exact ⟨rfl, rfl, fun m hm => hm.resolve_left (List.not_mem_nil)⟩
  | cons a l ih =>
    rw [List.foldl_cons, loseCommand_of_no_change a h]
    obtain ⟨hpairs, hflt, hidle⟩ := ih (s.withGw (s.gw.forgetMbx a)) h
    refine ⟨hpairs, hflt, fun m hm => hidle m ?_⟩
    have hat : ((s.withGw (s.gw.forgetMbx a)).gw.mbxAt m) =
        (s.gw.setMbx a { s.gw.mbxAt a with st := .idle, taken := false }).mbxAt m := rfl
    rw [hat, mbxAt_setMbx]
    by_cases hma : m = a
    · exact .inr (by rw [if_pos hma])
    · rw [if_neg hma]
      refine hm.imp (fun hmem => (List.mem_cons.mp hmem).resolve_left hma) id

/-! ### Per-island resets -/

theorem bitList_pow {n i : Nat} (h : i < n) : bitList n (2 ^ i) = [i] := by
  have hbit : (List.range n).filter (fun j => (2 ^ i).testBit j) = (List.range n).filter (· == i) := by
    refine List.filter_congr fun j _ => ?_
    rw [Nat.testBit_two_pow, beq_eq_decide, decide_eq_decide]
    exact eq_comm
  unfold bitList
  rw [hbit, List.filter_beq, List.count_eq_one_of_mem List.nodup_range (List.mem_range.mpr h)]
  rfl

theorem islandResets_one {g : Gw} {v i : Nat} (hv : v = 2 ^ i) (h16 : i < 16) (h10 : i ≠ 10) (h14 : i ≠ 14) (h15 : i ≠ 15)
    (hon : g.islOn i = true) : g.islandResets v = g.resetIsland i := by
  unfold Gw.islandResets
  rw [hv, bitList_pow h16, List.filter_cons_of_pos (by simp [h10, h14, h15, hon])]
  rfl

/-- CUR, HOST and AON do not react to LCK_ISL_RST. -/
theorem islandResets_barred {g : Gw} {v i : Nat} (hv : v = 2 ^ i) (hi : i = 10 ∨ i = 14 ∨ i = 15) :
    g.islandResets v = g := by
  unfold Gw.islandResets
  rw [hv, bitList_pow (by omega), List.filter_cons_of_neg (by simp; omega)]
  rfl

theorem resetIsland_acts (g : Gw) (i : Nat) : (g.resetIsland i).isl = mput g.isl i 0 0 ∧
    (g.resetIsland i).str.run = false ∧ (g.resetIsland i).tb.tick = g.tb.tick ∧
    mget? (g.resetIsland i).islRst i = some (g.tb.tick + 5000) := by
  obtain ⟨hcalm, hrun⟩ := clearIsland_acts g.endRun i
  have hg := hcalm.trans (calm_endRun g)
  unfold Gw.resetIsland
  generalize g.endRun.clearIsland i = k at hrun hg ⊢
  have htick : k.tb.tick = g.tb.tick := tick_of_calm hg
  refine ⟨?_, hrun, htick, ?_⟩
  · have hisl : mput k.isl i 0 0 = mput g.isl i 0 0 := by rw [isl_of_calm hg]
    exact hisl
  · rw [← htick]
    exact mget?_mset_same ..

/-- An island whose reset is over, not fenced and with TEST_MODE low starts. -/
theorem islandStart_due {g : Gw} {i k : Nat} (h : mget? g.islRst i = some k) (hk : k ≤ g.tb.tick)
    (hf : g.islFenced i = false) (htest : g.aon.testMode = false) : g.islandStart i = g.startIsland i := by
  unfold Gw.islandStart
  rw [h]
  exact if_pos (by simp [hk, hf, htest])

end Sys2Proof.Machine
end

section
/-! The statement on the handling of detected errors, pair restarts and per-island resets (R744, R752–R764, R810, R811). -/

namespace Sys2Proof.Machine

/-- Settles O47: by the event or register write of each clause, each with what it leaves alone. -/
theorem faultHandling : Obligations.FaultHandling := by
  unfold Obligations.FaultHandling
  refine ⟨fun s k lane hk hst hon hother => ?_, fun s k lane hk hst hon hother hho hrel htest => ?_,
    fun s k hk hst hon => ⟨?_, fun lane => ?_⟩, fun s r rest code a b c hdet hho hrun htests => ?_,
    fun s x hone hrun hmust hkind hfew => ?_, fun s x hone hrun hkind hunit _ hall hno => ?_,
    fun s k hk hst hon hho hch => ?_, fun s k hk hst hon hho hother hno => ?_,
    fun s v i hon hv h16 h10 h14 h15 hion => ?_, fun s v hon hv => ?_, fun s i k hrst hk hf htest => ?_⟩
  case refine_1 =>
    rw [exec_lockstepMismatch, answer_onGw, mismatch_detects lane hk hst hon hother]
    have hmis : Reg.lckMisCnt k ≠ Reg.lckFlag := by simp only [Reg.lckMisCnt, Reg.lckFlag]; omega
    refine ⟨_, rfl, ?_, ?_, ?_, ?_, ?_⟩
    · rw [pairState_after]
      exact pairState_setPair_same ..
    · rw [pairState_after]
      exact (pairState_setPair_ne s.gw 2 (other_pair_ne hk)).trans hother
    · rw [regN_after _ _ (by simp only [Reg.lckMisCnt]; omega)]
      exact (regN_flag_ne _ hmis).trans (regN_bump_same (s.gw.setPair k 2) (Reg.lckMisCnt k))
    · rw [after_gw, interrupts_detected]
      rfl
    · rw [regN_after _ _ (by decide)]
      exact bit_regN_flag_of_mask _ _ (by omega) (by decide)
  case refine_2 =>
    obtain ⟨t, hreset, haon⟩ := mismatch_resets lane hk hst hon hother hho
    obtain ⟨hstage, hstop⟩ := warmReset_starts (g := t) (by rw [haon, hrel]) (by rw [haon, htest])
    rw [exec_lockstepMismatch, answer_onGw, hreset]
    refine ⟨_, rfl, ?_, ?_⟩
    · rw [after_gw, interrupts_boot, hstage]
    · rw [after_gw, interrupts_fw, hstop]
  case refine_3 => rw [exec_inputSkew, answer_onGw, inputSkew_resolved hk hst hon]
  case refine_4 =>
    rw [exec_inputSkew, answer_onGw, exec_lockstepMismatch, answer_onGw, inputSkew_persists lane hk hst hon]
  case refine_5 =>
    obtain ⟨e, x, h1, h2, hrest⟩ := handleError_acts (g := ({ s.gw with detected := rest } : Gw)) r htests
    rw [exec_detectedErrorHandling, answer_onGw, errorEvent_oldest hdet hho hrun]
    refine ⟨_, e, x, rfl, ?_⟩
    rw [after_gw, interrupts_detected, interrupts_flt]
    exact ⟨h1, h2, hrest⟩
  case refine_6 =>
    obtain ⟨t, ws, hexec, hgw⟩ := targetedTest_acts x.rep.island true s
    rw [testComplete_transient hone hrun hmust hfew, putBack_engine _ hkind, hkind] at hgw
    have hcnt : ((s.gw.testsDone.setErrClass x.seq 1).bump (Reg.lckTransCnt (3 - 1))).regN (Reg.lckTransCnt 2) =
        satAdd (s.gw.regN (Reg.lckTransCnt 2)) 1 := regN_bump_same _ _
    have hcls : ∀ e ∈ ((s.gw.testsDone.setErrClass x.seq 1).bump (Reg.lckTransCnt (3 - 1))).flt.log, e.seq = x.seq → e.cls = 1 :=
      cls_setErrClass
    have hkeep : ((s.gw.testsDone.setErrClass x.seq 1).bump (Reg.lckTransCnt (3 - 1))).flt.tests = [] ∧
        ((s.gw.testsDone.setErrClass x.seq 1).bump (Reg.lckTransCnt (3 - 1))).flash = s.gw.flash := ⟨rfl, rfl⟩
    generalize (s.gw.testsDone.setErrClass x.seq 1).bump (Reg.lckTransCnt (3 - 1)) = k at hgw hcnt hcls hkeep
    obtain ⟨htests, hflash⟩ := hkeep
    refine ⟨t, hexec, ?_, ?_, ?_, ?_, ?_⟩
    · rw [hgw, interrupts_flt]
      exact htests
    · rw [hgw, interrupts_cryUp]
      exact bit_setBits_set _ _
    · rw [hgw, interrupts_flash]
      exact congrArg Flash.faultSlot hflash
    · rw [hgw, regN_interrupts_above _ _ (by decide)]
      exact hcnt
    · intro e he hseq
      rw [hgw, interrupts_flt] at he
      exact hcls e he hseq
  case refine_7 =>
    obtain ⟨t, ws, hexec, hgw⟩ := targetedTest_acts x.rep.island false s
    obtain ⟨rs, n, f, heq, hcnt, hflag, hst⟩ := lasting_aes (g := s.gw.testsDone.setErrClass x.seq 2) hkind hunit hall hno
    rw [testComplete_lasting hone hrun] at hgw
    generalize (s.gw.testsDone.setErrClass x.seq 2).lasting x.rep = k at hgw heq hcnt hflag
    have hregs : ∀ o, 0x3008 ≤ o → t.gw.regN o = k.regN o := by
      intro o ho
      rw [hgw, regN_interrupts_above _ _ ho]
      rfl
    refine ⟨t, hexec, ?_, ?_, ?_, ?_, ?_, fun hfw => ?_⟩
    · rw [hgw, interrupts_flt, heq]
      rfl
    · rw [hgw, interrupts_flt, heq]
      exact Nat.testBit_two_pow_self
    · rw [hgw, interrupts_flash, heq]
      rfl
    · rw [hregs _ (by decide), hcnt]
      rfl
    · rw [hregs _ (by decide), hflag]
    · rw [hgw, interrupts_fw, heq]
      exact hst hfw
  case refine_8 =>
    rw [exec_pairRestart]
    have hrow := pairRestart_reruns 255 hk hst hon hho
    rw [if_pos (by decide)] at hrow
    obtain ⟨hpairs, hflt, hidle⟩ := loseCommands_act (s.gw.openCommands k) (s.withGw { s.gw with
      flt := { s.gw.flt with inj := mset s.gw.flt.inj k (2 ^ 31 + 2 ^ 30 + 255 % 256) } }) hch
    refine ⟨_, answer_of_eq hrow, ?_, ?_, ?_, ?_, fun m hm => ?_⟩
    · rw [pairState_of_pairs (interrupts_pairs ..)]
      exact pairState_setPair_same ..
    · rw [pairState_of_pairs (interrupts_pairs ..)]
      exact (pairState_setPair_ne _ 1 (other_pair_ne hk)).trans (pairState_of_pairs hpairs _)
    · rw [regN_interrupts_above _ _ (by decide)]
      exact bit_regN_flag_of_mask _ _ (by omega) (by decide)
    · rw [interrupts_flt]
      exact (congrArg (fun x : Faults => mgetD x.inj k 0) hflt).trans (mgetD_mset_same ..)
    · unfold Gw.mbxAt
      rw [interrupts_mbx]
      exact hidle m (.inl hm)
  case refine_9 =>
    have hrow := pairRestart_reruns 254 hk hst hon hho
    rw [if_neg (by decide)] at hrow
    rw [exec_pairRestart]
    obtain ⟨hpair, hlasting, hkept⟩ := lasting_pair
      (g := (({ s.gw with flt := { s.gw.flt with inj := mset s.gw.flt.inj k (2 ^ 31 + 0 + 254 % 256) } } : Gw).flag
        Reg.lckFlag 0x00800000).logError { kind := 1, detail := 16 * k, island := 10, unit := k } 2)
      (r := { kind := 1, detail := 16 * k, island := 10, unit := k }) rfl hk hother hno
    refine ⟨_, answer_of_withGw hrow, ?_, ?_, ?_⟩
    · rw [pairState_after]
      exact hpair
    · rw [regN_after _ _ (by decide)]
      refine hkept 23 (by omega) ?_
      exact bit_regN_flag_of_mask _ _ (by omega) (by decide)
    · rw [regN_after _ _ (by decide)]
      exact hlasting
  case refine_10 =>
    obtain ⟨hisl, hrun, htick, hrst⟩ := resetIsland_acts s.gw i
    rw [exec_lckIslRst, answer_onGw, if_pos hon, islandResets_one hv h16 h10 h14 h15 hion]
    refine ⟨_, rfl, ?_, ?_, ⟨_, ?_, rfl⟩, fun j hj => ?_⟩
    · rw [islOn_after]
      unfold Gw.islOn
      rw [hisl, mgetD_mput_same]
      rfl
    · rw [after_gw, interrupts_str, hrun]
    · rw [after_gw, interrupts_islRst, hrst, interrupts_tb, htick]
    · rw [after_gw, interrupts_isl, hisl, mgetD_mput_ne _ _ _ _ hj]
  case refine_11 =>
    have hbar : s.gw.islandResets v.toNat = s.gw := by
      rcases hv with hv | hv | hv
      · exact islandResets_barred hv (by omega)
      · exact islandResets_barred hv (by omega)
      · exact islandResets_barred hv (by omega)
    rw [exec_lckIslRst, answer_onGw, if_pos hon, hbar, after_self]
  case refine_12 =>
    obtain ⟨hisl, hout⟩ := startIsland_acts s.gw i
    rw [exec_islandStart, answer_onGw, islandStart_due hrst hk hf htest]
    refine ⟨_, rfl, ?_, ?_⟩
    · rw [islOn_after]
      exact islOn_setIsl_one hisl
    · rw [after_gw, interrupts_islRst, hout]
      exact mget?_merase_same ..

end Sys2Proof.Machine
end

section
/-! SUPPORT. The start of a run and the rows of areas 0x01 and 0x02 (R562, R569–R571, R584–R591). -/

namespace Sys2Proof.Machine

theorem exec_sysInfo (m : Nat) (s : State) : exec (.sysInfo m) s = answer (directRow 0x0101 (effGw sysInfo) m) s := rfl
theorem exec_cfgImageInfo (m : Nat) (s : State) :
    exec (.cfgImageInfo m) s = answer (directRow 0x0203 (effGw cfgImageInfo) m) s := rfl
theorem exec_sysResetFirmware {m : Nat} {s : State} (h : bits (s.gw.arg m 0) 1 0 ≠ 1) :
    exec (.sysResetFirmware m) s = answer (directRow 0x0103 (effGw sysResetFirmware) m) s :=
  answer_pickRow (decide_eq_true h)
theorem exec_sysResetFactory {m : Nat} {s : State} (h : bits (s.gw.arg m 0) 1 0 ≠ 0) :
    exec (.sysResetFactory m) s = answer (directRow 0x0103 (effGw sysResetFactory) m) s :=
  answer_pickRow (decide_eq_true h)
theorem exec_sysRun (m : Nat) (s : State) : exec (.sysRun m) s = answer (directRow 0x0102 (effGw sysRun) m) s := rfl
theorem exec_cfgParamRead (m : Nat) (s : State) :
    exec (.cfgParamRead m) s = answer (directRow 0x0201 (effGw cfgParamRead) m) s := rfl
theorem exec_cfgParamWrite (m : Nat) (s : State) : exec (.cfgParamWrite m) s = answer (cfgParamWriteRow m) s := rfl

/-! ### Resets asked for by a command -/

theorem sysResetFirmware_acts {m : Nat} {g : Gw} (h : bits (g.arg m 0) 1 0 < 2) : sysResetFirmware m g = (g.askReset, {}) :=
  if_neg (by unfold resetKind; omega)

theorem sysResetFirmware_reserved {m : Nat} {g : Gw} (h : 2 ≤ bits (g.arg m 0) 1 0) :
    sysResetFirmware m g = (g, failWith stBadArg) := if_pos h

theorem sysResetFactory_reserved {m : Nat} {g : Gw} (h : 2 ≤ bits (g.arg m 0) 1 0) :
    sysResetFactory m g = (g, failWith stBadArg) := if_pos h

theorem sysResetFactory_absent {m : Nat} {g : Gw} (h : bits (g.arg m 0) 1 0 < 2) (hp : g.fw.presence = false) :
    sysResetFactory m g = (g, failWith stPresence) := by
  unfold sysResetFactory
  rw [if_neg (by unfold resetKind; omega), if_pos (by rw [hp]; rfl)]

theorem sysResetFactory_acts {m : Nat} {g : Gw} (h : bits (g.arg m 0) 1 0 < 2) (hp : g.fw.presence = true) :
    sysResetFactory m g = ({ g with
      flash := { g.flash with cfg := [], gasp := [] },
      keys := if bit (g.arg m 0) 8 then { g.keys with journal := [], pending := [] } else g.keys,
      fw := { g.fw with resetAt := some (g.tb.tick + 500000) } }, {}) := by
  unfold sysResetFactory
  rw [if_neg (by unfold resetKind; omega), if_neg (by rw [hp]; decide)]
  have harg : ({ g with flash := { g.flash with cfg := [], gasp := [] } } : Gw).arg m 0 = g.arg m 0 := rfl
  dsimp only
  rw [harg]
  split <;> rfl

/-! ### The start of a run -/

/-- START is a multiple of 2²⁰, above the stamp and no more than 2²⁰ above it. -/
theorem startAfter_spec (t : Stamp) : startAfter t % 2 ^ 20 = 0 ∧ t < startAfter t ∧ startAfter t ≤ t + 2 ^ 20 := by
  have hdiv := Int.mul_ediv_add_emod t 1048576
  have hlo := Int.emod_nonneg t (by decide : (1048576 : Int) ≠ 0)
  have hhi := Int.emod_lt_of_pos t (by decide : (0 : Int) < 1048576)
  have hval : startAfter t = (t / 1048576 + 1) * 1048576 := rfl
  refine ⟨?_, ?_, ?_⟩
  · rw [hval]
    exact Int.mul_emod_left ..
  · rw [hval]
    linarith
  · rw [hval]
    linarith

/-- RUN or DEGRADED entered: the new order, the reply still to come, the mailboxes as they were. -/
theorem enterRun_acts (g : Gw) (mbx : Option Nat) : (g.enterRun mbx).str = g.runFrom (startAfter g.now) ∧
    (g.enterRun mbx).fw.runMbx = mbx ∧ (g.enterRun mbx).mbx = g.mbx ∧
    ((g.enterRun mbx).fw.state = .run ∨ (g.enterRun mbx).fw.state = .degraded) := by
  have hstart := control_startRun g (startAfter g.now)
  have hstr := str_of_control hstart
  have hmbx := mbx_of_control hstart
  unfold Gw.enterRun
  dsimp only
  generalize g.startRun (startAfter g.now) = k at hstr hmbx ⊢
  obtain ⟨rs, n, heq, -⟩ := setFw_shape ({ k with fw := { k.fw with runMbx := mbx } } : Gw) (if k.anyFenced then .degraded else .run)
  have hready := control_flxReady (({ k with fw := { k.fw with runMbx := mbx } } : Gw).setFw (if k.anyFenced then .degraded else .run))
  rw [heq] at hready ⊢
  rw [str_of_control hready, fw_of_control hready, mbx_of_control hready]
  refine ⟨hstr, rfl, hmbx, ?_⟩
  dsimp only
  split
  · exact .inr rfl
  · exact .inl rfl

/-! ### Parameters as last accepted -/

/-- The value that a change leaves of a parameter: that of a waiting write which names it. -/
theorem acceptedParam_last {g : Gw} {id k : Nat} {c : Change} {cs : List Change} {p : ParamSet}
    (hcs : g.str.changes = cs ++ [c]) (hact : c.act = .mailbox k) (hcode : g.reqCode k = 0x0202)
    (hlast : ((g.paramSets k).filter (fun q => q.id = id)).getLast? = some p) : g.acceptedParam id = p.value := by
  unfold Gw.acceptedParam
  rw [hcs, List.foldl_append, List.foldl_cons, List.foldl_nil, hact]
  dsimp only
  rw [if_pos hcode, hlast]
  rfl

theorem acceptedParam_in_force {g : Gw} (id : Nat)
    (h : ∀ c ∈ g.str.changes, ∀ k, c.act = .mailbox k → g.reqCode k ≠ 0x0202) : g.acceptedParam id = g.param id := by
  unfold Gw.acceptedParam
  generalize g.param id = v
  generalize g.str.changes = l at h
  induction l with
  | nil => rfl
  | cons c l ih =>
    rw [List.foldl_cons]
    have hstep : (match c.act with
        | .mailbox m => if g.reqCode m = 0x0202 then
            (((g.paramSets m).filter (fun p => p.id = id)).getLast?.map (·.value)).getD v else v
        | .firmware _ => v) = v := by
      split
      · rename_i m hm
        exact if_neg (h c (List.mem_cons_self ..) m hm)
      · rfl
    refine Eq.trans ?_ (ih fun x hx => h x (List.mem_cons_of_mem _ hx))
    exact congrArg (fun w => l.foldl _ w) hstep

/-! ### Reads and writes of parameters -/

theorem cfgParamRead_known {m : Nat} {g : Gw} (h1 : 1 ≤ bits (g.arg m 0) 5 0) (h32 : bits (g.arg m 0) 5 0 ≤ 32)
    (hall : ∀ i ∈ g.readIds m, (findParam i).isSome = true) (hlen : ((g.readIds m).flatMap g.paramGroup).length ≤ 252) :
    cfgParamRead m g = (g, { words := (g.readIds m).flatMap g.paramGroup }) := by
  have hknown : ¬ ((g.readIds m).any (fun i => (findParam i).isNone) = true) := by
    rw [List.any_eq_true]
    rintro ⟨i, hi, hnone⟩
    have hsome := hall i hi
    rw [Option.isNone_iff_eq_none] at hnone
    rw [hnone] at hsome
    cases hsome
  unfold cfgParamRead
  rw [if_neg (by simp; omega), if_neg hknown]
  exact if_neg (by omega)

theorem cfgParamRead_unknown {m : Nat} {g : Gw} (h1 : 1 ≤ bits (g.arg m 0) 5 0) (h32 : bits (g.arg m 0) 5 0 ≤ 32)
    (hex : ∃ i ∈ g.readIds m, findParam i = none) : cfgParamRead m g = (g, failWith stNotFound) := by
  have hunknown : (g.readIds m).any (fun i => (findParam i).isNone) = true := by
    obtain ⟨i, hi, hnone⟩ := hex
    exact List.any_eq_true.mpr ⟨i, hi, by rw [hnone]; rfl⟩
  unfold cfgParamRead
  rw [if_neg (by simp; omega), if_pos hunknown]

/-- The status of a write is that of its first group that fails. -/
theorem writeStatus_fails {g : Gw} {ps : List ParamSet} {i : Nat} {p : ParamSet} (hi : ps[i]? = some p)
    (hst : g.groupStatus ps p ≠ 0) (hbefore : ∀ j q, j < i → ps[j]? = some q → g.groupStatus ps q = 0) :
    g.writeStatus ps = (g.groupStatus ps p, i) := by
  have hfirst : ps.findIdx? (fun p => g.groupStatus ps p ≠ stOk) = some i := by
    obtain ⟨hlt, hget⟩ := List.getElem?_eq_some_iff.mp hi
    rw [List.findIdx?_eq_some_iff_getElem]
    refine ⟨hlt, by rw [hget]; exact decide_eq_true hst, fun j hj => ?_⟩
    have hjl : j < ps.length := by omega
    have := hbefore j ps[j] hj (List.getElem?_eq_getElem hjl)
    simp [this, stOk]
  unfold Gw.writeStatus
  rw [hfirst]
  dsimp only
  rw [hi]
  rfl

/-- In CONFIG a write whose groups all pass is accepted. -/
theorem writeStatus_config {g : Gw} {ps : List ParamSet} (hcfg : g.fw.state = .config)
    (hall : ∀ q ∈ ps, g.groupStatus ps q = 0) : g.writeStatus ps = (stOk, ps.length) := by
  have hnone : ps.findIdx? (fun p => g.groupStatus ps p ≠ stOk) = none := by
    rw [List.findIdx?_eq_none_iff]
    intro q hq
    simp [hall q hq, stOk]
  unfold Gw.writeStatus
  rw [hnone]
  exact if_pos hcfg

theorem failWord_at {ps : List ParamSet} {i : Nat} {p : ParamSet} (h : ps[i]? = some p) : failWord ps i = p.id * 65536 + i := by
  unfold failWord
  rw [h]

theorem cfgParamWriteRow_direct {m : Nat} {s : State} (h : s.gw.holds m 0x0202 = true) (hch : s.gw.writeIsChange m = false) :
    cfgParamWriteRow m s = s.withGw ((cfgParamWrite m s.gw.now s.gw).1.finish m 0 (cfgParamWrite m s.gw.now s.gw).2) := by
  unfold cfgParamWriteRow
  rw [if_pos h, if_neg (by rw [hch]; decide)]

theorem cfgParamWrite_open {m : Nat} {g : Gw} (t : Stamp) (h1 : 1 ≤ bits (g.arg m 0) 5 0) (h32 : bits (g.arg m 0) 5 0 ≤ 32) :
    cfgParamWrite m t g = if (g.writeStatus (g.paramSets m)).1 = stOk then
      (g.setParams ((g.paramSets m).map (fun p => (p.id, p.value))) t, { words := [0xFFFF] })
    else (g, { status := (g.writeStatus (g.paramSets m)).1, words := [failWord (g.paramSets m) (g.writeStatus (g.paramSets m)).2] }) := by
  unfold cfgParamWrite
  exact if_neg (by simp; omega)

end Sys2Proof.Machine
end

section
/-! The statement on information, resets, the start of a run and parameters (R28, R562, R569–R571, R584–R591). -/

namespace Sys2Proof.Machine

/-- Settles O29: by the row of each command; the start of a run by what it leaves of the order. -/
theorem systemRows : Obligations.SystemRows := by
  unfold Obligations.SystemRows
  refine ⟨fun s m h => ?_, fun s m h => ?_, fun s m h hk => ?_, fun s m h hk => ⟨fun hp => ?_, fun hp => ?_⟩,
    fun s m h hk => ⟨?_, ?_⟩, fun s m h => ?_, fun g id h => acceptedParam_in_force id h,
    fun g id k c cs p hcs hact hcode hlast => acceptedParam_last hcs hact hcode hlast,
    fun s m h h1 h32 => ⟨fun hall hlen => ?_, fun hex => ?_⟩, fun s m i st p h h1 h32 hi hst hne hbefore => ?_,
    fun s m h hcfg h1 h32 hall => ?_⟩
  · rw [exec_sysInfo]
    exact answer_of_withGw (directRow_words h rfl)
  · rw [exec_cfgImageInfo]
    refine answer_of_withGw ((directRow_words h rfl).trans ?_)
    simp only [atBit, decide_eq_true_eq]
    rfl
  · rw [exec_sysResetFirmware (by omega)]
    exact answer_of_withGw (directRow_words h (sysResetFirmware_acts (by omega)))
  · rw [exec_sysResetFactory (by omega)]
    exact answer_of_withGw (directRow_failWith h (sysResetFactory_absent (by omega) hp))
  · rw [exec_sysResetFactory (by omega)]
    exact answer_of_withGw (directRow_words h (sysResetFactory_acts (by omega) hp))
  · rw [exec_sysResetFirmware (by omega)]
    exact answer_of_withGw (directRow_failWith h (sysResetFirmware_reserved hk))
  · rw [exec_sysResetFactory (by omega)]
    exact answer_of_withGw (directRow_failWith h (sysResetFactory_reserved hk))
  · rw [exec_sysRun]
    obtain ⟨hstr, hrun, hmbx, hstate⟩ := enterRun_acts s.gw (some m)
    obtain ⟨hmul, hlow, hhigh⟩ := startAfter_spec s.gw.now
    have hrow := directRow_later (f := sysRun) (g := s.gw.enterRun (some m)) h rfl
    generalize s.gw.enterRun (some m) = k at hstr hrun hmbx hstate hrow
    have hat : ((k.setMbx m { k.mbxAt m with taken := false }).mbxAt m).st = (s.gw.mbxAt m).st := by
      rw [mbxAt_setMbx, if_pos rfl]
      unfold Gw.mbxAt
      rw [hmbx]
    have hset : (k.setMbx m { k.mbxAt m with taken := false }).str = s.gw.runFrom (startAfter s.gw.now) := hstr
    refine ⟨_, answer_of_withGw hrow, ?_⟩
    rw [after_gw, interrupts_str, interrupts_fw, hset]
    refine ⟨rfl, hmul, hlow, hhigh, rfl, rfl, rfl, hrun, ?_, hstate⟩
    rw [← hat]
    unfold Gw.mbxAt
    rw [interrupts_mbx]
  · rw [exec_cfgParamRead]
    exact answer_of_withGw (directRow_words h (cfgParamRead_known h1 h32 hall hlen))
  · rw [exec_cfgParamRead]
    exact answer_of_withGw (directRow_failWith h (cfgParamRead_unknown h1 h32 hex))
  · have hstatus := writeStatus_fails hi (by rw [hst]; exact hne) hbefore
    rw [hst] at hstatus
    have hch : s.gw.writeIsChange m = false := by
      unfold Gw.writeIsChange
      dsimp only
      rw [hstatus]
      simp [stOk, hne]
    have hwrite := cfgParamWrite_open s.gw.now h1 h32
    rw [hstatus] at hwrite
    dsimp only at hwrite
    rw [if_neg (by unfold stOk; exact hne), failWord_at hi] at hwrite
    rw [exec_cfgParamWrite]
    refine answer_of_withGw ((cfgParamWriteRow_direct h hch).trans ?_)
    rw [hwrite]
    rfl
  · have hch : s.gw.writeIsChange m = false := by
      unfold Gw.writeIsChange Gw.serving
      rw [hcfg]
      rfl
    have hwrite := cfgParamWrite_open s.gw.now h1 h32
    rw [writeStatus_config hcfg hall, if_pos rfl] at hwrite
    rw [exec_cfgParamWrite]
    refine answer_of_withGw ((cfgParamWriteRow_direct h hch).trans ?_)
    rw [hwrite]
    rfl

end Sys2Proof.Machine
end

section
/-! SUPPORT. The boot ROM, the firmware's boot, the handover and recovery (R591, R764, R767, R788–R798, R803). -/

namespace Sys2Proof.Machine

theorem exec_bootRomStart (fails : List (Nat × Nat × Nat)) (good : Bool) (s : State) :
    exec (.bootRomStart fails good) s = answer (onGw (fun g => g.bootRom fails good)) s := rfl
theorem exec_firmwareBoot (passes : List Bool) (s : State) :
    exec (.firmwareBoot passes) s = answer (onGw (fun g => g.firmwareBoot passes)) s := rfl
theorem exec_handoverEpoch (s : State) : exec .handoverEpoch s = answer (onGw Gw.handoverEpoch) s := rfl
theorem exec_pairNewImageRun (k : Nat) (good : Bool) (s : State) :
    exec (.pairNewImageRun k good) s = answer (onGw (fun g => g.newImage k good)) s := rfl
theorem exec_healthyReport (s : State) : exec .healthyReport s = answer (onGw Gw.healthyReport) s := rfl
theorem exec_healthTimeout (s : State) : exec .healthTimeout s = answer (onGw Gw.rollBack) s := rfl
theorem exec_updRomCtlGo (v : W32) (s : State) : exec (.updRomCtlGo v) s = answer (romGo v.toNat) s := rfl

/-! ### The boot ROM -/

/-- The module once the boot ROM has looked at the root bank, started the security of the die and released the flash. -/
def Gw.romReady (g : Gw) : Gw := ((g.bootRoot true).setIsl 13 1).ospiRelease

theorem romReady_shape (g : Gw) : ∃ ks bt tr on os, g.romReady = { g with
    keys := ks, boot := bt, trngOk := tr, isl := mput g.isl 13 1 0, ospiRun := on, out := os } := by
  unfold Gw.romReady Gw.ospiRelease
  split
  · exact ⟨_, _, _, _, _, rfl⟩
  · exact ⟨_, _, _, _, _, rfl⟩

section
variable {g : Gw} (hstage : g.boot.stage = 1) (hrel : g.aon.released = true) (htest : g.aon.testMode = false)
  (hno : g.mustReset = false)

theorem bootChoice_romReady (g : Gw) :
    g.romReady.bootChoice = g.bootChoice ∧ g.romReady.aon = g.aon ∧ g.romReady.fw = g.fw := by
  obtain ⟨ks, bt, tr, on, os, heq⟩ := romReady_shape g
  rw [heq]
  exact ⟨rfl, rfl, rfl⟩

include hstage hrel htest hno

/-- With every start-up test passed and nothing fenced that the module needs, the chosen slot's firmware starts. -/
theorem bootRom_starts {slot : Nat} {fb : Bool} (hsel : g.aon.bootSel ≠ 3) (hc : g.bootChoice = some (slot, fb)) :
    g.bootRom [] true = g.romReady.startFirmware slot fb := by
  obtain ⟨hchoice, haon, hfw⟩ := bootChoice_romReady g
  rw [← hchoice] at hc
  rw [← haon] at hsel
  unfold Gw.bootRom
  rw [if_neg (by simp [hstage, hrel, htest]), List.foldl_nil]
  dsimp only
  rw [if_neg (by rw [hno]; decide)]
  have hready : ((g.bootRoot true).setIsl 13 1).ospiRelease = g.romReady := rfl
  rw [hready, if_neg (by simp [hsel]), hc]

/-- Without a valid image the boot ROM goes into recovery when presence is held. -/
theorem bootRom_recovers (hc : g.bootChoice = none) (hp : g.fw.presence = true) :
    g.bootRom [] true = { g.romReady with boot := { g.romReady.boot with stage := 4 } } := by
  obtain ⟨hchoice, haon, hfw⟩ := bootChoice_romReady g
  rw [← hchoice] at hc
  rw [← hfw] at hp
  unfold Gw.bootRom
  rw [if_neg (by simp [hstage, hrel, htest]), List.foldl_nil]
  dsimp only
  rw [if_neg (by rw [hno]; decide)]
  have hready : ((g.bootRoot true).setIsl 13 1).ospiRelease = g.romReady := rfl
  rw [hready, hc, hp]
  dsimp only
  rw [if_pos rfl]
  split <;> rfl

end

/-- Islands that are not fenced run once the firmware starts. -/
theorem startIslands_on {g : Gw} {i : Nat} (hi : i < 16) (hf : g.islFenced i = false) :
    ((List.range 16).foldl (fun (g : Gw) i => if g.islFenced i then g else g.setIsl i 1) g).islOn i = true := by
  obtain ⟨u, -, hu, hval⟩ := foldl_at_key (fun (g : Gw) k => mgetD g.isl k 0) (fun _ => True)
    (fun (g : Gw) i => if g.islFenced i then g else g.setIsl i 1)
    (by
      intro s n k hk
      split
      · rfl
      · exact mgetD_mput_ne s.isl 1 0 0 hk)
    (fun _ _ _ => trivial) List.nodup_range (List.mem_range.mpr hi) (s := g) trivial
  have hfree : u.islFenced i = false := by
    unfold Gw.islFenced at hf ⊢
    rw [hu]
    exact hf
  unfold Gw.islOn
  rw [hval, if_neg (by rw [hfree]; decide)]
  unfold Gw.setIsl
  dsimp only
  rw [mgetD_mput_same]
  rfl

theorem startFirmware_acts (g : Gw) (slot : Nat) (fb : Bool) : (g.startFirmware slot fb).boot.stage = 2 ∧
    (g.startFirmware slot fb).boot.slot = slot ∧ (g.startFirmware slot fb).boot.fallback = fb ∧
    (g.startFirmware slot fb).fw.state = .boot ∧ (g.startFirmware slot fb).fw.running = true ∧
    (g.startFirmware slot fb).mbx = [] ∧ (∀ i, i < 16 → g.islFenced i = false → (g.startFirmware slot fb).islOn i = true) ∧
    bit ((g.startFirmware slot fb).regN Reg.mbxFlag) 29 = true := by
  have hon : ∀ i, i < 16 → g.islFenced i = false →
      ((List.range 16).foldl (fun (g : Gw) i => if g.islFenced i then g else g.setIsl i 1) g.freshMailboxes).islOn i = true :=
    fun i hi hf => startIslands_on (g := g.freshMailboxes) hi hf
  have hmbx : ((List.range 16).foldl (fun (g : Gw) i => if g.islFenced i then g else g.setIsl i 1) g.freshMailboxes).mbx = [] := by
    refine foldl_same Gw.mbx ?_ _ g.freshMailboxes
    intro g i
    split <;> rfl
  unfold Gw.startFirmware
  dsimp only
  generalize (List.range 16).foldl (fun (g : Gw) i => if g.islFenced i then g else g.setIsl i 1) g.freshMailboxes = k at hon hmbx ⊢
  obtain ⟨hisl, hmbx'⟩ : ([0, 1].foldl (fun (g : Gw) k => if g.pairState k = 4 then g else g.setPair k 1) k).isl = k.isl ∧
      ([0, 1].foldl (fun (g : Gw) k => if g.pairState k = 4 then g else g.setPair k 1) k).mbx = k.mbx := by
    constructor
    · refine foldl_same Gw.isl ?_ _ k
      intro g i
      split <;> rfl
    · refine foldl_same Gw.mbx ?_ _ k
      intro g i
      split <;> rfl
  generalize [0, 1].foldl (fun (g : Gw) k => if g.pairState k = 4 then g else g.setPair k 1) k = j at hisl hmbx' ⊢
  refine ⟨rfl, rfl, rfl, rfl, rfl, hmbx'.trans hmbx, fun i hi hf => ?_, bit_regN_flag_of_mask _ _ (by omega) (by decide)⟩
  exact (islOn_congr hisl i).trans (hon i hi hf)

theorem islFenced_romReady {g : Gw} {i : Nat} (h13 : i ≠ 13) : g.romReady.islFenced i = g.islFenced i := by
  obtain ⟨ks, bt, tr, on, os, heq⟩ := romReady_shape g
  rw [heq]
  unfold Gw.islFenced
  dsimp only
  rw [mgetD_mput_ne _ _ _ _ h13]

/-! ### The firmware's boot -/

theorem control_setEgrs {α : Type} (l : List α) (port : α → Nat) (x : Gw → α → EgrPort) (g : Gw) :
    (l.foldl (fun (g : Gw) q => g.setEgr (port q) (x g q)) g).control = g.control := by
  refine foldl_same Gw.control ?_ l g
  intro g q
  rfl

theorem control_loadSettings (g : Gw) (x : CfgContent) : (g.loadSettings x).control = g.control := by
  unfold Gw.loadSettings
  dsimp only
  refine (control_setEgrs _ _ _ _).trans ((control_setEgrs _ _ _ _).trans ((control_setEgrs _ _ _ _).trans
    ((control_setEgrs x.gates (fun q => q.1 / 2) (fun g q => { g.egrAt (q.1 / 2) with
      banks := mset (g.egrAt (q.1 / 2)).banks (q.1 % 2) q.2 }) _).trans rfl)))

theorem control_loadTables (g : Gw) (x : CfgContent) : (g.loadTables x).1.control = g.control := by
  unfold Gw.loadTables
  dsimp only
  rw [control_loadBuses, control_loadSettings, control_loadEntries, control_loadPdus]

theorem control_verifyStarts (g : Gw) (l : List Nat) : (l.foldl Gw.verifyStart g).control = g.control := by
  refine foldl_same Gw.control ?_ l g
  intro g p
  unfold Gw.verifyStart
  dsimp only
  split <;> rfl

theorem control_ppsArm (g : Gw) : g.ppsArm.control = g.control := rfl
theorem control_emitAll (g : Gw) (os : List Out) : (g.emitAll os).control = g.control := rfl

theorem boot_of_control {g t : Gw} (h : t.control = g.control) : t.boot = g.boot := by
  have := congrArg Gw.boot h
  exact this

theorem withParams_keeps (g : Gw) (x : CfgContent) : (g.withParams x).boot = g.boot ∧ (g.withParams x).fw = g.fw := by
  unfold Gw.withParams
  constructor
  · refine foldl_same Gw.boot ?_ x.values { g with params := [] }
    intro g p
    rfl
  · refine foldl_same Gw.fw ?_ x.values { g with params := [] }
    intro g p
    rfl

theorem loadConfiguration_keeps (g : Gw) :
    g.loadConfiguration.boot = g.boot ∧ g.loadConfiguration.fw = { g.fw with applied := true } := by
  obtain ⟨hboot, hfw⟩ := withParams_keeps { g with fw := { g.fw with applied := true } } g.content
  have hload : g.loadConfiguration.control =
      (({ g with fw := { g.fw with applied := true } } : Gw).withParams g.content).control := by
    unfold Gw.loadConfiguration
    dsimp only
    rw [control_ringBlock, control_ppsArm, control_verifyStarts, control_tisRoles, control_emitAll, control_loadTables]
  exact ⟨(boot_of_control hload).trans hboot, (fw_of_control hload).trans hfw⟩

/-- The firmware's records of its boot and of its state. -/
def Gw.bootState (g : Gw) : Boot × Firmware := (g.boot, g.fw)

theorem bootState_toDie (g : Gw) (x : DieMsg) : (g.toDie x).bootState = g.bootState := by
  unfold Gw.toDie
  split <;> rfl

theorem bootState_toDies {α : Type} (msg : Gw → α → DieMsg) (l : List α) (g : Gw) :
    (l.foldl (fun (g : Gw) x => g.toDie (msg g x)) g).bootState = g.bootState := by
  refine foldl_same Gw.bootState ?_ l g
  intro g x
  exact bootState_toDie g (msg g x)

theorem bootState_passSettings (l : List Nat) (g : Gw) : (l.foldl (fun (g : Gw) i => g.passSetting i) g).bootState = g.bootState :=
  bootState_toDies (fun g i => .setting i (g.param i)) l g

theorem bootState_startDieLink (g : Gw) : g.startDieLink.bootState = g.bootState := by
  have hset := bootState_passSettings [0x0B00, 0x0B01, 0x0B02, 0x0B03] (g.toDie (.keep g.aon.pdieKeep))
  rw [bootState_toDie] at hset
  unfold Gw.startDieLink
  dsimp only
  generalize List.foldl (fun (g : Gw) i => g.passSetting i) (g.toDie (.keep g.aon.pdieKeep)) [0x0B00, 0x0B01, 0x0B02, 0x0B03] = k
    at hset ⊢
  have hprof := bootState_toDies (fun _ (q : Nat × PdProfile) => .profile q.1 q.2) k.content.profiles k
  generalize List.foldl (fun (g : Gw) (q : Nat × PdProfile) => g.toDie (.profile q.1 q.2)) k k.content.profiles = j at hprof ⊢
  have hadopt : (if j.partN then j else { j with pdie := { j.pdie with adopt := true } }).bootState = j.bootState := by
    split <;> rfl
  generalize (if j.partN then j else { j with pdie := { j.pdie with adopt := true } }) = i at hadopt ⊢
  have hall := hadopt.trans (hprof.trans hset)
  split
  · rw [bootState_toDie, hall]
  · exact hall

/-- What a state entered and FlexRay made ready leave of the boot's records. -/
theorem enterState_keeps (g : Gw) (mbx : Option Nat) (st : FwState) :
    (({ g with fw := { g.fw with runMbx := mbx } } : Gw).setFw st).flxReady.boot = g.boot ∧
    (({ g with fw := { g.fw with runMbx := mbx } } : Gw).setFw st).flxReady.fw.cfgDefaults = g.fw.cfgDefaults := by
  have hset : ∀ k : Gw, (k.setFw st).boot = k.boot ∧ (k.setFw st).fw.cfgDefaults = k.fw.cfgDefaults := by
    intro k
    obtain ⟨rs, n, heq, -⟩ := setFw_shape k st
    rw [heq]
    exact ⟨rfl, rfl⟩
  obtain ⟨hboot, hdef⟩ := hset { g with fw := { g.fw with runMbx := mbx } }
  have hready := control_flxReady (({ g with fw := { g.fw with runMbx := mbx } } : Gw).setFw st)
  refine ⟨(boot_of_control hready).trans hboot, ?_⟩
  rw [fw_of_control hready]
  exact hdef

theorem enterRun_keeps (g : Gw) (mbx : Option Nat) : (g.enterRun mbx).boot = g.boot ∧
    (g.enterRun mbx).fw.cfgDefaults = g.fw.cfgDefaults := by
  have hstart := control_startRun g (startAfter g.now)
  have hboot := boot_of_control hstart
  have hfw := fw_of_control hstart
  have hdef : (g.startRun (startAfter g.now)).fw.cfgDefaults = g.fw.cfgDefaults := by rw [hfw]
  unfold Gw.enterRun
  dsimp only
  generalize g.startRun (startAfter g.now) = k at hboot hdef ⊢
  obtain ⟨hb, hd⟩ := enterState_keeps k mbx (if k.anyFenced then .degraded else .run)
  exact ⟨hb.trans hboot, hd.trans hdef⟩

/-- Under factory defaults BOOT is left for RUN or DEGRADED. -/
theorem leaveBoot_defaults {g : Gw} (h : g.fw.cfgDefaults = true) :
    g.leaveBoot.boot = { g.boot with stage := 3, wake := false } ∧ g.leaveBoot.fw.cfgDefaults = true ∧
    (g.leaveBoot.fw.state = .run ∨ g.leaveBoot.fw.state = .degraded) ∧ g.leaveBoot.str.run = true := by
  have hleave : g.leaveBoot = ({ g with boot := { g.boot with stage := 3, wake := false } } : Gw).enterRun none := if_pos h
  obtain ⟨hstr, -, -, hstate⟩ := enterRun_acts ({ g with boot := { g.boot with stage := 3, wake := false } } : Gw) none
  obtain ⟨hboot, hdef⟩ := enterRun_keeps ({ g with boot := { g.boot with stage := 3, wake := false } } : Gw) none
  rw [hleave]
  exact ⟨hboot, hdef.trans h, hstate, by rw [hstr]; rfl⟩

/-- With both copies blank the firmware takes the factory defaults. -/
theorem selectCopy_blank {g : Gw} (h : g.flash.cfg = []) :
    g.selectCopy.boot.causes = [2, 2] ∧ g.selectCopy.fw.cfgDefaults = true := by
  have hcause : ∀ i, g.copyCause i = (2, none) := by
    intro i
    unfold Gw.copyCause Gw.copyAt
    rw [h]
    rfl
  unfold Gw.selectCopy
  rw [hcause, hcause]
  exact ⟨rfl, rfl⟩

theorem bootFaults_none {g : Gw} (passes : List Bool) (h : g.flash.faultSlot = []) :
    g.bootFaults passes = { g with flash := { g.flash with faultSlot := [] } } := by
  unfold Gw.bootFaults
  rw [h]
  rfl

theorem bootState_nm (g : Gw) (n : Nm) : ({ g with nm := n } : Gw).bootState = g.bootState := rfl

theorem bootState_wokeUp (g : Gw) : g.wokeUp.bootState = g.bootState := by
  unfold Gw.wokeUp
  dsimp only
  split <;> rfl

theorem bootState_eraseOldGasp (g : Gw) : g.eraseOldGasp.bootState = g.bootState := by
  unfold Gw.eraseOldGasp
  split <;> rfl

/-- A selected copy that is loaded, the die link started and the rest of BOOT leave the choice of the copy as it was. -/
theorem bootState_configured (g : Gw) (n : Nm) :
    ({ g.loadConfiguration.startDieLink with nm := n } : Gw).wokeUp.eraseOldGasp.bootState =
      (g.boot, { g.fw with applied := true }) := by
  obtain ⟨hboot, hfw⟩ := loadConfiguration_keeps g
  rw [bootState_eraseOldGasp, bootState_wokeUp, bootState_nm, bootState_startDieLink]
  unfold Gw.bootState
  rw [hboot, hfw]

/-- The firmware's boot with nothing in the fault slot and no configuration. -/
theorem firmwareBoot_blank {g : Gw} (hstage : g.boot.stage = 2) (hrun : g.fw.running = true) (hslot : g.flash.faultSlot = [])
    (hno : g.mustReset = false) (hcfg : g.flash.cfg = []) :
    ∃ k : Gw, g.firmwareBoot [] = k.leaveBoot ∧ k.boot.causes = [2, 2] ∧ k.fw.cfgDefaults = true := by
  have hfree : ({ g with keys := g.keys.replay, flash := { g.flash with faultSlot := [] } } : Gw).mustReset = false := hno
  unfold Gw.firmwareBoot
  rw [if_neg (by simp [hstage, hrun]), bootFaults_none (g := { g with keys := g.keys.replay }) [] hslot]
  dsimp only
  rw [if_neg (by rw [hfree]; decide)]
  refine ⟨_, rfl, ?_⟩
  obtain ⟨k, hk⟩ : ∃ k : Gw, k = { g with
    keys := g.keys.replay, flash := { g.flash with faultSlot := [] },
    cryUp := ({ g with keys := g.keys.replay, flash := { g.flash with faultSlot := [] } } : Gw).enginesFit,
    trngOk := g.trngOk && !g.flt.trng } := ⟨_, rfl⟩
  have hblank : k.flash.cfg = [] := by
    rw [hk]
    exact hcfg
  rw [← hk]
  obtain ⟨hcauses, hdef⟩ := selectCopy_blank hblank
  generalize k.selectCopy = j at hcauses hdef ⊢
  have hboot := bootState_configured j
  generalize j.loadConfiguration.startDieLink = i at hboot ⊢
  obtain ⟨hb, hf⟩ := Prod.mk.inj (hboot { i.nm with awake := i.param Par.nmSelfNeed = 1 })
  exact ⟨(congrArg Boot.causes hb).trans hcauses, (congrArg Firmware.cfgDefaults hf).trans hdef⟩

/-! ### The handover -/

theorem control_advanceFresh (g : Gw) : g.advanceFresh.control = g.control := by
  unfold Gw.advanceFresh
  refine foldl_same Gw.control ?_ _ g
  intro g ie
  rfl

theorem handoverEpoch_starts {g : Gw} {h : Handover} (hho : g.ho = some h) (hst : h.started = false) (hepoch : h.epoch ≤ g.now)
    (hfw : g.fw.state = .handover) (hpair : g.pairState 0 = 1) : ∃ ports : List Nat,
    g.handoverEpoch = ({ g.advanceFresh with ho := some { h with
      started := true, tick := g.tb.tick, ports := ports, errors := g.detected.length } } : Gw).setPair 0 3 := by
  have hpairs : ∀ x, ({ g.advanceFresh with ho := x } : Gw).pairState 0 = 1 := by
    intro x
    rw [← hpair]
    exact pairState_of_pairs (pairs_of_control (control_advanceFresh g)) 0
  unfold Gw.handoverEpoch
  rw [hho]
  dsimp only
  rw [if_neg (by simp [hst, hfw, hepoch])]
  exact ⟨_, if_pos (hpairs _)⟩

section
variable {g : Gw} {h : Handover} (hho : g.ho = some h) (hst : h.started = true) (h0 : g.pairState 0 = 3)
include hho hst h0

theorem newImage_runs (h1 : g.pairState 1 = 1) : g.newImage 0 true = ({ g with
    pairs := mset g.pairs 0 { state := 1, newImage := true },
    flt := { g.flt with inj := mset g.flt.inj 0 0xC00000FF },
    ho := some { h with pairsNew := h.pairsNew ||| 2 ^ 0 } } : Gw).setPair 1 3 := by
  have hone : ({ g with
    pairs := mset g.pairs 0 { state := 1, newImage := true },
    flt := { g.flt with inj := mset g.flt.inj 0 0xC00000FF },
    ho := some { h with pairsNew := h.pairsNew ||| 2 ^ 0 } } : Gw).pairState 1 = 1 := by
    refine Eq.trans ?_ h1
    unfold Gw.pairState
    dsimp only
    rw [mgetD_mset_ne _ _ _ (by decide)]
  unfold Gw.newImage
  rw [hho]
  dsimp only
  rw [if_neg (by simp [hst, h0]), if_pos rfl]
  exact if_pos (by rw [hone]; decide)

theorem newImage_fails : ∃ k : Gw, k.ho = some { h with failed := true } ∧ g.newImage 0 false = k.flag Reg.lckFlag 0x00800000 := by
  unfold Gw.newImage
  rw [hho]
  dsimp only
  rw [if_neg (by simp [hst, h0])]
  exact ⟨_, rfl, rfl⟩

end

/-- A module that needs the network makes no decision to sleep. -/
theorem sleepDecide_awake {g : Gw} (h : g.nm.awake = true) : g.sleepDecide = g := by
  unfold Gw.sleepDecide Gw.ownNeed
  exact if_neg (by simp [h])

theorem setFw_awake (g : Gw) (st : FwState) : (g.setFw st).nm.awake = g.nm.awake := by
  unfold Gw.setFw
  split
  · rfl
  · dsimp only
    split <;> rfl

/-- The end of a handover that a mailbox asked for, with nothing deferred and no decision that follows: the state it came
from, and the reply. -/
theorem endHandover_replies {g : Gw} {h : Handover} {m : Nat} (a : Answer) (hm : h.mbx = some m) (hdef : g.deferred = [])
    (hfault : g.chn.faultBy = none) (hback : g.fw.back = .run) (hawake : g.nm.awake = true) (hloop : g.keys.loopOpen = false) :
    ∃ k : Gw, g.endHandover h a = { k.reply m a.status 0 a.words with deferred := [] } ∧ k.fw.state = .run ∧ k.ho = none ∧
      k.boot = g.boot ∧ k.upd = g.upd ∧ k.flash = g.flash ∧ ∀ o, o ≠ Reg.mbxFlag → k.regN o = g.regN o := by
  obtain ⟨rs, n, heq, hreg⟩ := setFw_shape ({ g with ho := none, pairs := g.pairs.map (fun (q : Nat × Pair) =>
    (q.1, { q.2 with newImage := false })) } : Gw) .run
  have hnm := setFw_awake ({ g with ho := none, pairs := g.pairs.map (fun (q : Nat × Pair) =>
    (q.1, { q.2 with newImage := false })) } : Gw) .run
  unfold Gw.endHandover
  rw [hm, hback]
  dsimp only
  generalize ({ g with ho := none, pairs := g.pairs.map (fun (q : Nat × Pair) =>
    (q.1, { q.2 with newImage := false })) } : Gw).setFw .run = k at heq hreg hnm ⊢
  obtain ⟨ws, ms, hrep, -⟩ := reply_shape k m a.status 0 a.words
  refine ⟨k, ?_, by rw [heq], by rw [heq], by rw [heq], by rw [heq], by rw [heq], hreg⟩
  generalize k.reply m a.status 0 a.words = j at hrep ⊢
  have hj : j.deferred = [] ∧ j.chn.faultBy = none ∧ j.keys.loopOpen = false ∧ j.nm.awake = true := by
    rw [hrep]
    exact ⟨by rw [heq]; exact hdef, by rw [heq]; exact hfault, by rw [heq]; exact hloop, hnm.trans hawake⟩
  obtain ⟨hjd, hjf, hjl, hjn⟩ := hj
  rw [hjd, List.foldl_nil]
  dsimp only
  rw [hjf, if_neg (show ¬ (none : Option Nat).isSome = true from Bool.false_ne_true), hjl, if_neg Bool.false_ne_true]
  exact sleepDecide_awake hjn


theorem healthy_loop {g : Gw} {h : Handover} (hh : g.healthy h = true) : g.keys.loopOpen = false := by
  unfold Gw.healthy at hh
  rw [Bool.and_eq_true, Bool.not_eq_true'] at hh
  have hfail := hh.2
  unfold Gw.healthFailed at hfail
  rw [Bool.or_eq_false_iff] at hfail
  exact hfail.2

/-- The commit of a handover: the selector names the new slot, the session is closed, and HANDOVER ends with the reply. -/
def Gw.committed (g : Gw) (slot : Nat) : Gw :=
  let k := (g.writeSelector slot).bump Reg.updHoCnt
  ({ k with boot := { k.boot with slot := slot, fallback := false } } : Gw).setSession none

theorem healthyReport_commits {g : Gw} {h : Handover} (hho : g.ho = some h) (hh : g.healthy h = true) :
    g.healthyReport = (g.committed h.slot).endHandover h { words := (g.committed h.slot).activeWords } := by
  unfold Gw.healthyReport
  rw [hho]
  exact if_neg (by rw [hh]; decide)

theorem writeSelector_names (g : Gw) (slot : Nat) :
    ∃ i n, mget? (g.writeSelector slot).flash.selector i = some (slot, n) := by
  unfold Gw.writeSelector
  exact ⟨_, _, mget?_mset_same ..⟩

theorem committed_acts (g : Gw) (slot : Nat) : (g.committed slot).boot.slot = slot ∧ (g.committed slot).upd.session = none ∧
    (g.committed slot).regN Reg.updHoCnt = satAdd (g.regN Reg.updHoCnt) 1 ∧
    (g.committed slot).flash = (g.writeSelector slot).flash :=
  ⟨rfl, rfl, regN_bump_same (g.writeSelector slot) Reg.updHoCnt, rfl⟩

/-- The module with both pairs on the old image again and its session verified. -/
def Gw.rolledBack (g : Gw) : Gw :=
  let k := ({ g with pairs := g.pairs.map (fun (q : Nat × Pair) =>
    (q.1, if q.2.state = 4 then q.2 else { q.2 with state := 1 })) } : Gw).bump Reg.updRbCnt
  k.setSession (k.upd.session.map (fun u => { u with phase := 1 }))

theorem rollBack_ends {g : Gw} {h : Handover} (hho : g.ho = some h) (hst : h.started = true)
    (hlate : h.tick + g.param Par.updHealthMs * 500000 ≤ g.tb.tick ∨ g.healthFailed h = true) :
    g.rollBack = g.rolledBack.endHandover h (failWith stTimeout) := by
  have hticks : ticksPerMs = 500000 := rfl
  unfold Gw.rollBack
  rw [hho, hticks]
  refine if_neg ?_
  rw [hst]
  rcases hlate with hl | hl
  · simp [hl]
  · simp [hl]

theorem rolledBack_acts (g : Gw) : g.rolledBack.boot = g.boot ∧ (∀ u, g.rolledBack.upd.session = some u → u.phase = 1) ∧
    g.rolledBack.regN Reg.updRbCnt = satAdd (g.regN Reg.updRbCnt) 1 := by
  refine ⟨rfl, fun u hu => ?_, regN_bump_same ({ g with pairs := g.pairs.map (fun (q : Nat × Pair) =>
    (q.1, if q.2.state = 4 then q.2 else { q.2 with state := 1 })) } : Gw) Reg.updRbCnt⟩
  obtain ⟨x, -, rfl⟩ := Option.map_eq_some_iff.mp (show g.upd.session.map (fun u => { u with phase := 1 }) = some u from hu)
  rfl

theorem mbxWord_flag {g : Gw} {m i k n : Nat} (hm : m < 64) (hi : i < 256) (hk : k < 2) :
    (g.flag (Reg.mbxDone k) n).mbxWord m i = g.mbxWord m i := regN_flag_ne g (mbxWord_ne_mbxDone hm hi hk)

theorem mbxWord_setMbx (g : Gw) (m k i : Nat) (x : Mbx) : (g.setMbx k x).mbxWord m i = g.mbxWord m i := rfl

/-- The status word of a reply without payload, whatever the code. -/
theorem mbxWord_status (g : Gw) {m : Nat} (st : Nat) (a : Stamp) (hm : m < 64) :
    (g.reply m st a []).mbxWord m 1 = st * 256 % 2 ^ 32 := by
  have hhead := mbxWord_replyHead g m st a 0 1
  rw [if_neg (by decide), if_neg (by decide), if_pos rfl, Nat.zero_div, Nat.add_zero] at hhead
  have hcleared : ∀ c : Prop, ∀ _ : Decidable c,
      (if c then (g.replyHead m st a 0).putWords m 5 (List.replicate 8 0) else g.replyHead m st a 0).mbxWord m 1 =
        st * 256 % 2 ^ 32 := by
    intro c _
    split
    · rw [mbxWord_putWords, if_neg (by omega)]
      exact hhead
    · exact hhead
  unfold Gw.reply Gw.replyRaw
  dsimp only
  rw [mbxWord_setMbx, mbxWord_flag hm (by omega) (by omega), mbxWord_setMbx]
  exact hcleared _ _

/-! ### Recovery -/

theorem romGo_none {s : State} {v : Nat} (hstage : s.gw.boot.stage = 4) (hgo : bit v 31 = true) (hn : bits v 15 0 = 0) :
    romGo v s = s.withGw { s.gw with boot := { s.gw.boot with romStat := 2 ^ 31 + 3 } } := by
  unfold romGo
  dsimp only
  rw [if_neg (by simp [hstage, hgo]), hn, if_pos (c := (decide (0 = 0) || decide (4096 < 0)) = true) (by decide)]
  rfl

theorem romGo_passes {s : State} {v : Nat} {bs : List Byte} (hstage : s.gw.boot.stage = 4) (hgo : bit v 31 = true)
    (h1 : 1 ≤ bits v 15 0) (hmax : bits v 15 0 ≤ 4096)
    (hbs : bs = (dramRead s.dram (512 * mib) (bits v 15 0 * 4096)).take
      (2624 + pkgBodyLen (dramRead s.dram (512 * mib) (bits v 15 0 * 4096)) + 4627)) (hok : imageCause bs = 0) :
    romGo v s = s.withGw (({ s.gw with flash := { s.gw.flash with
      slots := mset s.gw.flash.slots 0 (.image bs) } } : Gw).writeSelector 0).warmReset := by
  have hbase : recoveryBase = 512 * mib := rfl
  unfold romGo
  dsimp only
  rw [hbase, ← hbs, if_neg (by simp [hstage, hgo]), if_neg (c := (decide (bits v 15 0 = 0) || decide (4096 < bits v 15 0)) = true)
    (by simp; omega), if_pos hok]

end Sys2Proof.Machine
end

section
/-! The statement on the boot ROM, the firmware's boot, the handover and recovery (R591, R764, R767, R788–R798, R803). -/

namespace Sys2Proof.Machine

/-- Settles O46: by the event of each clause; a handover that ends leaves its reply and what its commit or its return to the
old image set. -/
theorem bootAndHandover : Obligations.BootAndHandover := by
  unfold Obligations.BootAndHandover
  refine ⟨fun s slot fb hstage hrel htest hno hsel hc => ?_, fun s hstage hrel htest hno hc hp => ?_,
    fun s hstage hrun hslot hno hcfg => ?_, fun s h hho hst hepoch hfw hpair => ?_,
    fun s h hho hst h0 h1 => ⟨?_, ?_⟩, fun s h m hho hm hm64 hh hdef hfault hback hawake => ?_,
    fun s h m hho hm hm64 hst hlate hdef hfault hback hawake hloop => ?_, fun s v hstage hgo hn => ?_,
    fun s v bs hstage hgo h1 hmax hbs hok hrel htest => ?_⟩
  case refine_1 =>
    rw [exec_bootRomStart, answer_onGw, bootRom_starts hstage hrel htest hno hsel hc]
    obtain ⟨h1, h2, h3, h4, h5, h6, hon, hflag⟩ := startFirmware_acts s.gw.romReady slot fb
    refine ⟨_, rfl, ?_⟩
    rw [after_gw, interrupts_boot, interrupts_fw, interrupts_mbx]
    refine ⟨h1, h2, h3, h4, h5, h6, fun i hi hf h13 => ?_, ?_⟩
    · rw [islOn_interrupts]
      exact hon i hi ((islFenced_romReady h13).trans hf)
    · rw [regN_interrupts_above _ _ (by decide)]
      exact hflag
  case refine_2 =>
    rw [exec_bootRomStart, answer_onGw, bootRom_recovers hstage hrel htest hno hc hp]
    refine ⟨_, rfl, ?_⟩
    rw [after_gw, interrupts_boot]
  case refine_3 =>
    obtain ⟨k, hboot, hcauses, hdef⟩ := firmwareBoot_blank hstage hrun hslot hno hcfg
    obtain ⟨hstages, hdefs, hstate, hrun'⟩ := leaveBoot_defaults hdef
    rw [exec_firmwareBoot, answer_onGw, hboot]
    refine ⟨_, rfl, ?_⟩
    rw [after_gw, interrupts_boot, interrupts_fw, interrupts_str, hstages]
    exact ⟨rfl, hdefs, hcauses, hstate, hrun'⟩
  case refine_4 =>
    obtain ⟨ports, heq⟩ := handoverEpoch_starts hho hst hepoch hfw hpair
    rw [exec_handoverEpoch, answer_onGw, heq]
    refine ⟨_, { h with started := true, tick := s.gw.tb.tick, ports := ports, errors := s.gw.detected.length }, rfl, ?_, rfl,
      rfl, ?_, ?_⟩
    · rw [after_gw, interrupts_ho]
      rfl
    · rw [pairState_after]
      exact pairState_setPair_same ..
    · rw [pairState_after, pairState_setPair_ne _ _ (by decide)]
      exact pairState_of_pairs (pairs_of_control (control_advanceFresh s.gw)) 1
  case refine_5 =>
    rw [exec_pairNewImageRun, answer_onGw, newImage_runs hho hst h0 h1]
    refine ⟨_, rfl, ?_, ?_, ?_⟩
    · rw [pairState_after, pairState_setPair_ne _ _ (by decide)]
      unfold Gw.pairState
      dsimp only
      rw [mgetD_mset_same]
    · rw [pairState_after]
      exact pairState_setPair_same ..
    · rw [after_gw, interrupts_ho]
      rfl
  case refine_6 =>
    obtain ⟨k, hk, heq⟩ := newImage_fails hho hst h0
    rw [exec_pairNewImageRun, answer_onGw, heq]
    refine ⟨_, { h with failed := true }, rfl, ?_, rfl, ?_⟩
    · rw [after_gw, interrupts_ho]
      exact hk
    · rw [regN_after _ _ (by decide)]
      exact bit_regN_flag_of_mask _ _ (by omega) (by decide)
  case refine_7 =>
    obtain ⟨hslot, hsess, hcnt, hflash⟩ := committed_acts s.gw h.slot
    obtain ⟨i, n, hsel⟩ := writeSelector_names s.gw h.slot
    obtain ⟨k, hend, hrun, hno, hboot, hupd, hfl, hreg⟩ := endHandover_replies (g := s.gw.committed h.slot)
      { words := (s.gw.committed h.slot).activeWords } hm hdef hfault hback hawake (healthy_loop hh)
    obtain ⟨rs, ms, hrep, hdone, -⟩ := reply_shape k m 0 0 (s.gw.committed h.slot).activeWords
    have hcount := regN_reply_above k (o := Reg.updHoCnt) 0 0 (s.gw.committed h.slot).activeWords hm64
      (show 2 ≤ 252 by decide) (by decide)
    rw [exec_healthyReport, answer_onGw, healthyReport_commits hho hh, hend]
    generalize k.reply m 0 0 (s.gw.committed h.slot).activeWords = j at hrep hdone hcount
    have hk : j.ho = none ∧ j.boot.slot = h.slot ∧ j.upd.session = none ∧ j.fw.state = .run ∧
        mget? j.flash.selector i = some (h.slot, n) := by
      rw [hrep]
      exact ⟨hno, by rw [hboot, hslot], by rw [hupd, hsess], hrun, by rw [hfl, hflash, hsel]⟩
    obtain ⟨h1, h2, h3, h4, h5⟩ := hk
    refine ⟨_, rfl, ?_⟩
    rw [after_gw, interrupts_ho, interrupts_boot, interrupts_upd, interrupts_fw, interrupts_flash, regN_interrupts_above _ _ (by decide)]
    refine ⟨h1, h2, h3, h4, ?_, ?_, i, n, h5⟩
    · unfold Gw.mbxAt
      rw [interrupts_mbx]
      exact hdone
    · rw [← hcnt, ← hreg _ (by decide)]
      exact hcount
  case refine_8 =>
    obtain ⟨hboot', hsess, hcnt⟩ := rolledBack_acts s.gw
    obtain ⟨k, hend, hrun, hno, hboot, hupd, -, hreg⟩ := endHandover_replies (g := s.gw.rolledBack)
      (failWith stTimeout) hm hdef hfault hback hawake hloop
    obtain ⟨rs, ms, hrep, hdone, -⟩ := reply_shape k m 0x0A 0 []
    have hcount := regN_reply_above k (o := Reg.updRbCnt) 0x0A 0 [] hm64 (by decide) (by decide)
    have hword := mbxWord_status k 0x0A 0 hm64
    rw [exec_healthTimeout, answer_onGw, rollBack_ends hho hst hlate, hend]
    change ∃ t, Host.Outcome.next (s.after { k.reply m 0x0A 0 [] with deferred := [] }) = .next t ∧ _
    generalize k.reply m 0x0A 0 [] = j at hrep hdone hcount hword ⊢
    have hk : j.ho = none ∧ j.boot.slot = s.gw.boot.slot ∧ j.fw.state = .run ∧
        ∀ u, j.upd.session = some u → u.phase = 1 := by
      rw [hrep]
      exact ⟨hno, by rw [hboot, hboot'], hrun, by rw [hupd]; exact hsess⟩
    obtain ⟨h1, h2, h3, h4⟩ := hk
    refine ⟨_, rfl, ?_⟩
    rw [after_gw, interrupts_ho, interrupts_boot, interrupts_upd, interrupts_fw, regN_interrupts_above _ _ (by decide)]
    refine ⟨h1, h2, h3, h4, ?_, ?_, ?_⟩
    · unfold Gw.mbxAt
      rw [interrupts_mbx]
      exact hdone
    · unfold Gw.mbxWord
      rw [regN_interrupts_above _ _ (by unfold mbxOff Reg.mbxWord; omega)]
      exact (congrArg (fun w => bits w 15 8) hword).trans (by decide)
    · rw [← hcnt, ← hreg _ (by decide)]
      exact hcount
  case refine_9 =>
    rw [exec_updRomCtlGo]
    exact answer_of_withGw (romGo_none hstage hgo hn)
  case refine_10 =>
    rw [exec_updRomCtlGo]
    obtain ⟨i, n, hsel⟩ := writeSelector_names ({ s.gw with flash := { s.gw.flash with
      slots := mset s.gw.flash.slots 0 (.image bs) } } : Gw) 0
    obtain ⟨hstage', -⟩ := warmReset_starts (g := ({ s.gw with flash := { s.gw.flash with
      slots := mset s.gw.flash.slots 0 (.image bs) } } : Gw).writeSelector 0) hrel htest
    obtain ⟨hflash, -⟩ := warmReset_keeps (({ s.gw with flash := { s.gw.flash with
      slots := mset s.gw.flash.slots 0 (.image bs) } } : Gw).writeSelector 0)
    refine ⟨_, answer_of_withGw (romGo_passes hstage hgo h1 hmax hbs hok), ?_⟩
    rw [after_gw, interrupts_flash, interrupts_boot, hflash]
    exact ⟨mget?_mset_same .., hstage', i, n, hsel⟩

end Sys2Proof.Machine
end

section
/-! SUPPORT. Update sessions: the rows of area 0x0E, the handover epoch, and UPD messages (R636–R641, R780–R788). -/

namespace Sys2Proof.Machine

theorem exec_updBegin (m : Nat) (s : State) : exec (.updBegin m) s = answer (directRow 0x0E01 (effGw updBegin) m) s := rfl
theorem exec_updBlock (m : Nat) (s : State) : exec (.updBlock m) s =
    answer (directRow 0x0E02 (effGw (updSession 2 (fun m g u => g.localBlock u m))) m) s := rfl
theorem exec_updVerify (m : Nat) (s : State) : exec (.updVerify m) s =
    answer (directRow 0x0E03 (effGw (updSession 3 (fun _ g u => g.verifySession u))) m) s := rfl
theorem exec_updActivate {m : Nat} {s : State} (h : s.gw.activatesConfig m = false) :
    exec (.updActivate m) s = answer (directRow 0x0E04 (effGw updActivate) m) s := answer_pickRow (by rw [h]; rfl)
theorem exec_updActivateConfig {m : Nat} {s : State} (h : s.gw.activatesConfig m = true) :
    exec (.updActivateConfig m) s = answer (directRow 0x0E04 (effGw updActivate) m) s := answer_pickRow h
theorem exec_updAbort (m : Nat) (s : State) : exec (.updAbort m) s =
    answer (directRow 0x0E05 (effGw (updSession 5 (fun _ g u => g.abortSession u))) m) s := rfl
theorem exec_updStatus (m : Nat) (s : State) : exec (.updStatus m) s =
    answer (directRow 0x0E06 (effGw (updSession 6 (fun _ g u => (g, { words := sessionStatus u })))) m) s := rfl
theorem exec_updMessageReceive (s : State) :
    exec .updMessageReceive s = answer (onGw (fun g => if g.pairRuns 1 then g.updMessage else g)) s := rfl
theorem exec_updRemoteTimeout (m : Nat) (s : State) :
    exec (.updRemoteTimeout m) s = answer (onGw (fun g => if g.pairRuns 1 then g.updTimeout m else g)) s := rfl

/-- A row that answers with a status and words at once. -/
theorem directRow_answers {code m : Nat} {s : State} {g : Gw} {st : Nat} {ws : List Nat} {f : Nat → Gw → Gw × Answer}
    (h : s.gw.holds m code = true) (hf : f m s.gw = (g, { status := st, words := ws })) :
    directRow code (effGw f) m s = s.withGw (g.reply m st 0 ws) := by
  rw [directRow_effGw f h, hf]
  rfl

/-! ### A session here -/

section
variable {m : Nat} {g : Gw} (ht : bits (g.arg m 0) 27 16 = 0)
include ht

/-- A request that names this module by target 0. -/
theorem updBegin_here : updBegin m g =
    g.beginSession (g.arg m 0) (g.arg m 1) (g.arg m 2) (bits (g.arg m 3) 15 0) (g.fw.presence && m < 4) := by
  unfold updBegin
  exact if_pos (by simp [ht])

end

theorem beginSession_badArg {g : Gw} {w0 base new blocks : Nat} {p : Bool} (h : blocks = 0 ∨ 32768 < blocks) :
    g.beginSession w0 base new blocks p = (g, failWith stBadArg) := by
  unfold Gw.beginSession
  exact if_pos (by simpa using h)

theorem beginSession_busy {g : Gw} {w0 base new blocks : Nat} {p : Bool} (h1 : 1 ≤ blocks) (hmax : blocks ≤ 32768)
    (hs : g.upd.session.isSome = true) : g.beginSession w0 base new blocks p = (g, failWith stBusy) := by
  unfold Gw.beginSession
  dsimp only
  rw [if_neg (by simp; omega), if_pos hs]

/-- A firmware session for a version that is no lower, with room in the staging region. -/
theorem beginSession_firmware {g : Gw} {w0 base new blocks : Nat} {p : Bool} (hkind : w0 % 2 = 0) (h1 : 1 ≤ blocks)
    (hmax : blocks ≤ 32768) (hs : g.upd.session = none) (hbase : base = g.fwVersion % 4294967296) (hnew : base ≤ new)
    (hroom : blocks * 4128 ≤ g.regionMib 4 * mib) : g.beginSession w0 base new blocks p =
    ({ g with upd := { g.upd with
      session := some { num := g.upd.lastNum % 255 + 1, kind := 0, base := base, new := new, blocks := blocks,
                        target := bits w0 27 16 },
      lastNum := g.upd.lastNum % 255 + 1 } }, { words := [g.upd.lastNum % 255 + 1] }) := by
  unfold Gw.beginSession
  simp only [hkind, hs]
  rw [if_neg (by simp; omega), if_neg (by decide), if_neg (by simp [hbase]), if_neg (by simp; omega), if_neg (by omega)]

section
variable {typ m : Nat} {g : Gw} {here : Nat → Gw → UpdSession → Gw × Answer}

theorem updSession_none (hs : g.sessionAt (bits (g.arg m 0) 7 0) = none) (hr : g.remoteAt (bits (g.arg m 0) 7 0) = none) :
    updSession typ here m g = (g, failWith stNotFound) := by
  unfold updSession
  dsimp only
  rw [hs, hr]

theorem updSession_here {u : UpdSession} (hs : g.sessionAt (bits (g.arg m 0) 7 0) = some u) :
    updSession typ here m g = here m g u := by
  unfold updSession
  dsimp only
  rw [hs]

end

theorem activatesConfig_none {g : Gw} {m : Nat} (hs : g.sessionAt (bits (g.arg m 0) 7 0) = none) :
    g.activatesConfig m = false := by
  unfold Gw.activatesConfig
  rw [hs]
  rfl

theorem activatesConfig_some {g : Gw} {m : Nat} {u : UpdSession} (hs : g.sessionAt (bits (g.arg m 0) 7 0) = some u) :
    g.activatesConfig m = decide (u.kind = 1) := by
  unfold Gw.activatesConfig
  rw [hs]
  rfl

/-- A chunk that fits the block under way at a session here. -/
theorem localBlock_fits {g : Gw} {u : UpdSession} {m i : Nat} {part : List Byte} (hi : i = bits (g.arg m 0) 22 8)
    (hlt : i < u.blocks) (hnew : mget? u.received i = none) (hpart : part = mgetD u.parts i [])
    (hok : g.chunkOk m part.length = true) : g.localBlock u m =
    if (part ++ g.chunk m).length = 4128 then g.storeBlock u i (part ++ g.chunk m)
    else (g.setSession (some { u with parts := mset u.parts i (part ++ g.chunk m) }), { words := [0] }) := by
  subst hi hpart
  unfold Gw.localBlock
  dsimp only
  rw [hnew]
  exact if_neg (by simp [hok]; omega)

theorem storeBlock_good {g : Gw} {u : UpdSession} {i : Nat} {bs : List Byte} (h : blockOk i bs = true) :
    g.storeBlock u i bs =
      (g.setSession (some { u with parts := merase u.parts i, received := mset u.received i bs }), { words := [1] }) :=
  if_pos h

theorem storeBlock_bad {g : Gw} {u : UpdSession} {i : Nat} {bs : List Byte} (h : blockOk i bs = false) :
    g.storeBlock u i bs =
      ((g.setSession (some { u with parts := merase u.parts i })).bump Reg.updBlkfailCnt, failWith stVerifyFail) :=
  if_neg (by rw [h]; decide)

theorem verifySession_missing {g : Gw} {u : UpdSession} {i : Nat} (hi : i < u.blocks) (hnone : mget? u.received i = none)
    (hbefore : ∀ j, j < i → mget? u.received j ≠ none) : g.verifySession u = (g, { status := stBadArg, words := [i] }) := by
  have hfind : (List.range u.blocks).find? (fun i => (mget? u.received i).isNone) = some i := by
    refine find?_range_lowest hi (by rw [hnone]; rfl) fun j hj => ?_
    rw [Option.isNone_eq_false_iff, Option.isSome_iff_ne_none]
    exact hbefore j hj
  unfold Gw.verifySession
  rw [hfind]

theorem verifySession_whole {g : Gw} {u : UpdSession} (hall : ∀ i, i < u.blocks → mget? u.received i ≠ none) :
    (∀ pkg, g.reconstruct u = some pkg →
      g.verifySession u = (g.setSession (some { u with phase := 1, image := pkg }), { words := [0xFFFF] })) ∧
    (g.reconstruct u = none → g.verifySession u = (g, failWith stVerifyFail)) := by
  have hfind : (List.range u.blocks).find? (fun i => (mget? u.received i).isNone) = none := by
    rw [List.find?_eq_none]
    intro i hi
    simpa using hall i (List.mem_range.mp hi)
  unfold Gw.verifySession
  rw [hfind]
  refine ⟨fun pkg h => ?_, fun h => ?_⟩
  · dsimp only
    rw [h]
  · dsimp only
    rw [h]

/-! ### Activation -/

theorem activate_config {g : Gw} {u : UpdSession} {mbx asker : Option Nat} (hkind : u.kind = 1) (hphase : u.phase = 1) :
    g.activate u mbx asker = (g.writeCopies u.image, { words := (g.writeCopies u.image).activeWords }) := by
  unfold Gw.activate
  rw [if_neg (by simp [hphase]), if_pos hkind]

theorem activate_early {g : Gw} {u : UpdSession} {mbx asker : Option Nat} (hphase : u.phase ≠ 1) :
    g.activate u mbx asker = (g, failWith stBadArg) := if_pos hphase

theorem activate_firmware {g : Gw} {u : UpdSession} {mbx asker : Option Nat} (hkind : u.kind = 0) (hphase : u.phase = 1)
    (hfar : g.farNeighbour (pkgChain u.image) = false) :
    g.activate u mbx asker = (g.enterHandover u mbx asker, { later := true }) := by
  unfold Gw.activate
  rw [if_neg (by simp [hphase]), if_neg (by omega), if_neg (by rw [hfar]; decide)]

theorem foldl_max_startAfter (l : List Stamp) (e t : Stamp) (hmul : e % 2 ^ 20 = 0) (hle : t ≤ e) :
    (l.foldl (fun (e : Stamp) t => max e (startAfter t)) e) % 2 ^ 20 = 0 ∧
      t ≤ l.foldl (fun (e : Stamp) t => max e (startAfter t)) e := by
  induction l generalizing e with
  | nil => exact ⟨hmul, hle⟩
  | cons x l ih =>
    rw [List.foldl_cons]
    refine ih _ ?_ (le_trans hle (le_max_left ..))
    rcases max_choice e (startAfter x) with h | h
    · rw [h, hmul]
    · rw [h]
      exact (startAfter_spec x).1

/-- The handover epoch is an epoch boundary at least 1 ms ahead. -/
theorem chooseEpoch_spec (g : Gw) : g.chooseEpoch % 2 ^ 20 = 0 ∧ g.now + 8000000 ≤ g.chooseEpoch := by
  obtain ⟨hmul, hlow, -⟩ := startAfter_spec (g.now + 8000000 - 1)
  exact foldl_max_startAfter _ _ _ hmul (Int.le_of_sub_one_lt hlow)

/-- The module as the handover of a session is prepared, before its state changes. -/
def Gw.handoverSet (g : Gw) (u : UpdSession) (mbx asker : Option Nat) : Gw := { g.setSession (some { u with phase := 2 }) with
  flash := { g.flash with slots := mset g.flash.slots g.spareSlot (.image u.image) },
  ho := some { epoch := g.chooseEpoch, mbx := mbx, asker := asker, slot := g.spareSlot },
  boot := { g.boot with hoEpoch := g.chooseEpoch }, fw := { g.fw with back := g.fw.state } }

theorem enterHandover_eq (g : Gw) (u : UpdSession) (mbx asker : Option Nat) :
    g.enterHandover u mbx asker = (g.handoverSet u mbx asker).setFw .handover := rfl

theorem enterHandover_acts (g : Gw) (u : UpdSession) (mbx asker : Option Nat) : (g.enterHandover u mbx asker).fw.state = .handover ∧
    (g.enterHandover u mbx asker).ho = some { epoch := g.chooseEpoch, mbx := mbx, asker := asker, slot := g.spareSlot } ∧
    mget? (g.enterHandover u mbx asker).flash.slots g.spareSlot = some (.image u.image) ∧
    (g.enterHandover u mbx asker).mbx = g.mbx := by
  obtain ⟨rs, n, heq, -⟩ := setFw_shape (g.handoverSet u mbx asker) .handover
  rw [enterHandover_eq, heq]
  exact ⟨rfl, rfl, mget?_mset_same .., rfl⟩

/-! ### Messages -/

theorem takeFirst_head {α : Type} {p : α → Bool} {x : α} {l : List α} (h : p x = true) : takeFirst p (x :: l) = some (x, l) :=
  if_pos h

section
variable {g : Gw} {x : Inbound} {rest : List Inbound} (hbox : g.chn.inbox = x :: rest) (hcls : x.msg.cls = 3)
include hbox hcls

/-- A reply from a target that refuses answers the oldest request passed to it. -/
theorem updMessage_answered {w : UpdWait} {ws : List UpdWait} {st : Int} (htyp : x.msg.typ = 8) (hdst : x.msg.dst = g.chnAddr)
    (hbody : x.msg.body = [st]) (hst : 0 < st) (hwaits : g.upd.waits = w :: ws) (hsrc : w.target = x.msg.src) :
    g.updMessage = ({ g with chn := { g.chn with inbox := rest }, upd := { g.upd with waits := ws } } : Gw).reply
      w.mbx st.toNat 0 [] := by
  have hne : st.toNat ≠ 0 := by omega
  have hanswered : ({ g with chn := { g.chn with inbox := rest } } : Gw).updAnswered x.msg.src x.msg.body =
      ({ g with chn := { g.chn with inbox := rest }, upd := { g.upd with waits := ws } } : Gw).reply w.mbx st.toNat 0 [] := by
    unfold Gw.updAnswered
    dsimp only
    rw [hwaits, takeFirst_head (by simp [hsrc]), hbody]
    have hkept : ∀ (k : Gw) (l : List Nat), k.noteRemote w st.toNat l = k := fun k l => if_pos hne
    exact congrArg (fun k : Gw => k.reply w.mbx st.toNat 0 []) (hkept _ _)
  unfold Gw.updMessage
  dsimp only
  rw [hbox, takeFirst_head (by simp [hcls, htyp])]
  dsimp only
  rw [if_neg (by simp only [hdst]; simp), if_pos htyp]
  exact hanswered

/-- A block for another module that passes its check is counted and passed on. -/
theorem updMessage_relays {bs : List Byte} {i out : Nat} (hdst : x.msg.dst ≠ g.chnAddr)
    (hbody : x.msg.body = [7, (i : Int)] ++ bs.map (fun b => Int.ofNat b.toNat)) (hok : blockOk i bs = true)
    (hroute : ({ g with chn := { g.chn with inbox := rest } } : Gw).routeTo x.msg.dst = some out) :
    g.updMessage = (({ g with chn := { g.chn with inbox := rest } } : Gw).bump Reg.updRelayCnt).passOn x.port out x.msg := by
  have hbytes : (x.msg.body.drop 2).map (fun b => BitVec.ofNat 8 b.toNat) = bs := by
    rw [hbody]
    refine (List.map_map ..).trans ((List.map_congr_left fun b _ => ?_).trans (List.map_id bs))
    exact BitVec.eq_of_toNat_eq (by simp)
  have hnum : (x.msg.body.getD 1 0).toNat = i := by
    rw [hbody]
    rfl
  unfold Gw.updMessage
  dsimp only
  rw [hbox, takeFirst_head (by simp [hcls, hdst])]
  dsimp only
  have hdst' : ¬ x.msg.dst = ({ g with chn := { g.chn with inbox := rest } } : Gw).chnAddr := hdst
  rw [if_pos (by simpa using hdst)]
  unfold Gw.relayBlock
  dsimp only
  rw [hbytes, hnum, if_pos hok, hroute]

end

theorem updTimeout_due {g : Gw} {m : Nat} {w : UpdWait} {ws : List UpdWait} (hwaits : g.upd.waits = w :: ws) (hm : w.mbx = m)
    (hdue : w.tick + g.updLimit w.typ ≤ g.tb.tick) :
    g.updTimeout m = ({ g with upd := { g.upd with waits := ws } } : Gw).reply m stTimeout 0 [] := by
  unfold Gw.updTimeout
  rw [hwaits, takeFirst_head (by simp [hm, hdue])]

end Sys2Proof.Machine
end

section
/-! The statement on update sessions and the requests that travel (R636–R641, R780–R788). -/

namespace Sys2Proof.Machine

/-- Settles O45: by the row, message or timer of each clause. -/
theorem updateSessions : Obligations.UpdateSessions := by
  unfold Obligations.UpdateSessions
  refine ⟨fun s m kind h ht hkind => ⟨fun hbad => ?_, fun h1 hmax hs => ?_, fun hk h1 hmax hs hbase hnew hroom => ?_⟩,
    fun s m code c h hs hr hc => ?_,
    fun s m i u part h hs hi hlt hnew hpart hok => ⟨fun hlen => ?_, fun hlen hgood => ?_, fun hlen hbad => ?_⟩,
    fun s m u h hs => ⟨fun i hi hnone hbefore => ?_, fun hall => ?_⟩, fun s m u h hs hkind hphase => ?_,
    fun s m u h hs hkind => ⟨fun hphase => ?_, fun hphase hfar => ?_⟩, fun s m u hs => ⟨fun h => ?_, fun h => ?_⟩,
    fun s x rest w ws st hrun hbox hcls htyp hdst hbody hst hwaits hsrc => ?_,
    fun s x rest bs i out hrun hbox hcls _ hdst hbody hok hroute => ?_, fun s m w ws hrun hwaits hm hdue => ?_⟩
  case refine_1 =>
    rw [exec_updBegin]
    exact answer_of_withGw (directRow_failWith h ((updBegin_here ht).trans (beginSession_badArg hbad)))
  case refine_2 =>
    rw [exec_updBegin]
    exact answer_of_withGw (directRow_failWith h ((updBegin_here ht).trans (beginSession_busy h1 hmax hs)))
  case refine_3 =>
    rw [exec_updBegin]
    refine answer_of_withGw (directRow_words h ((updBegin_here ht).trans ?_))
    rw [beginSession_firmware (by omega) h1 hmax hs hbase hnew hroom, ht]
  case refine_4 =>
    have hmain : ∀ typ here, directRow code (effGw (updSession typ here)) m s = s.withGw (s.gw.reply m 0x07 0 []) :=
      fun typ here => directRow_failWith h (updSession_none hs hr)
    simp only [List.mem_cons, Prod.mk.injEq, List.not_mem_nil, or_false] at hc
    rcases hc with ⟨rfl, rfl⟩ | ⟨rfl, rfl⟩ | ⟨rfl, rfl⟩ | ⟨rfl, rfl⟩ | ⟨rfl, rfl⟩
    · rw [exec_updBlock]
      exact answer_of_withGw (hmain _ _)
    · rw [exec_updVerify]
      exact answer_of_withGw (hmain _ _)
    · rw [exec_updActivate (activatesConfig_none hs)]
      exact answer_of_withGw (hmain _ _)
    · rw [exec_updAbort]
      exact answer_of_withGw (hmain _ _)
    · rw [exec_updStatus]
      exact answer_of_withGw (hmain _ _)
  case refine_5 =>
    rw [exec_updBlock]
    refine answer_of_withGw (directRow_words h ((updSession_here hs).trans ?_))
    rw [localBlock_fits hi hlt hnew hpart hok, if_neg hlen]
  case refine_6 =>
    rw [exec_updBlock]
    refine answer_of_withGw (directRow_words h ((updSession_here hs).trans ?_))
    rw [localBlock_fits hi hlt hnew hpart hok, if_pos hlen, storeBlock_good hgood]
  case refine_7 =>
    rw [exec_updBlock]
    refine answer_of_withGw (directRow_answers h ((updSession_here hs).trans ?_))
    rw [localBlock_fits hi hlt hnew hpart hok, if_pos hlen, storeBlock_bad hbad]
    rfl
  case refine_8 =>
    rw [exec_updVerify]
    exact answer_of_withGw (directRow_answers h ((updSession_here hs).trans (verifySession_missing hi hnone hbefore)))
  case refine_9 =>
    obtain ⟨hsome, hnone⟩ := verifySession_whole hall
    rw [exec_updVerify]
    cases hr : s.gw.reconstruct u with
    | some pkg => exact answer_of_withGw (directRow_words h ((updSession_here hs).trans (hsome pkg hr)))
    | none => exact answer_of_withGw (directRow_failWith h ((updSession_here hs).trans (hnone hr)))
  case refine_10 =>
    rw [exec_updActivateConfig (by rw [activatesConfig_some hs]; simp [hkind])]
    obtain ⟨rs, ms, hrep, hdone, -⟩ := reply_shape (s.gw.writeCopies u.image) m 0 0 (s.gw.writeCopies u.image).activeWords
    refine ⟨_, copyOf (pkgBody u.image) (u.image.take 2624) (pkgSig u.image),
      answer_of_withGw (directRow_words h ((updSession_here hs).trans (activate_config hkind hphase))), ?_⟩
    rw [after_gw, interrupts_upd, interrupts_flash]
    unfold Gw.mbxAt at hdone ⊢
    rw [interrupts_mbx]
    generalize (s.gw.writeCopies u.image).reply m 0 0 (s.gw.writeCopies u.image).activeWords = j at hrep hdone ⊢
    rw [hrep]
    rw [hrep] at hdone
    refine ⟨rfl, hdone, mget?_mset_same .., ?_, rfl, rfl⟩
    exact (mget?_mset_ne _ _ (by decide)).trans (mget?_mset_same ..)
  case refine_11 =>
    rw [exec_updActivate (by rw [activatesConfig_some hs]; simp [hkind])]
    exact answer_of_withGw (directRow_failWith h ((updSession_here hs).trans (activate_early hphase)))
  case refine_12 =>
    obtain ⟨hstate, hho, hslots, hmbx⟩ := enterHandover_acts s.gw u (some m) none
    obtain ⟨hmul, hlow⟩ := chooseEpoch_spec s.gw
    have hrow := directRow_later (f := updActivate) h ((updSession_here hs).trans (activate_firmware hkind hphase hfar))
    rw [exec_updActivate (by rw [activatesConfig_some hs]; simp [hkind])]
    generalize s.gw.enterHandover u (some m) none = k at hrow hstate hho hslots hmbx
    refine ⟨_, { epoch := s.gw.chooseEpoch, mbx := some m, asker := none, slot := s.gw.spareSlot }, answer_of_withGw hrow, ?_⟩
    rw [after_gw, interrupts_fw, interrupts_ho, interrupts_flash]
    refine ⟨hstate, hho, rfl, rfl, hmul, hlow, hslots, ?_⟩
    have hat : ((k.setMbx m { k.mbxAt m with taken := false }).mbxAt m).st = (s.gw.mbxAt m).st := by
      rw [mbxAt_setMbx, if_pos rfl]
      unfold Gw.mbxAt
      rw [hmbx]
    rw [← hat]
    unfold Gw.mbxAt
    rw [interrupts_mbx]
  case refine_13 =>
    rw [exec_updAbort]
    have hrow := updSession_here (typ := 5) (m := m) (here := fun _ g u => g.abortSession u) hs
    by_cases hp : u.phase = 2
    · rw [if_pos hp]
      exact answer_of_withGw (directRow_failWith h (hrow.trans (if_pos hp)))
    · rw [if_neg hp]
      exact answer_of_withGw (directRow_words h (hrow.trans (if_neg hp)))
  case refine_14 =>
    rw [exec_updStatus]
    exact answer_of_withGw (directRow_words h (updSession_here hs))
  case refine_15 =>
    rw [exec_updMessageReceive, answer_onGw, if_pos hrun,
      updMessage_answered hbox hcls htyp hdst hbody hst hwaits hsrc]
  case refine_16 =>
    rw [exec_updMessageReceive, answer_onGw, if_pos hrun, updMessage_relays hbox hcls hdst hbody hok hroute]
  case refine_17 =>
    rw [exec_updRemoteTimeout, answer_onGw, if_pos hrun, updTimeout_due hwaits hm hdue]
    rfl

end Sys2Proof.Machine
end

section
/-! SUPPORT. MKA: the keys of a port, an installed SAK, an MKPDU received and sent (R525, R760), and the receive freshness
values that are journaled (R532). -/

namespace Sys2Proof.Machine

theorem exec_mkaPduReceive (p sci prio : Nat) (pdu : Mkpdu) (s : State) :
    exec (.mkaPduReceive p sci prio pdu) s = answer (onGw (fun g => g.mkaReceive p sci prio pdu)) s := rfl
theorem exec_mkaTimer (p : Nat) (s : State) : exec (.mkaTimer p) s = answer (onGw (fun g => g.mkaTimer p)) s := rfl
theorem exec_fvRxJournalTimer (s : State) : exec .fvRxJournalTimer s = answer (onGw (fun g =>
    if g.fw.running && g.inService then
      g.every timerJournal (1000 * ticksPerMs * g.param Par.keyJrnlRxS) Gw.journalRx
    else g)) s := rfl

/-! ### The keys of a port -/

theorem mkaDerive_keys {g : Gw} {p : Nat} {cak : List Byte} (h : g.mkaCak p = some cak) :
    (g.mkaDerive p).mkaIck p = mkaKdf cak mkaIckLabel (padTo 16 (Config.mkaCkn p)) ∧
    (g.mkaDerive p).mkaKek p = mkaKdf cak mkaKekLabel (padTo 16 (Config.mkaCkn p)) := by
  unfold Gw.mkaDerive
  rw [h]
  unfold Gw.mkaIck Gw.mkaKek
  dsimp only
  exact ⟨(mgetD_mset_ne _ _ _ (by omega)).trans (mgetD_mset_same ..), mgetD_mset_same ..⟩

/-! ### A SAK put to use -/

/-- A value written through the KEY_PRIV_ registers, and the values of the other slots, which stay. -/
theorem privGo_value (g : Gw) (i j : Nat) (k : KeySlot) :
    ((g.privGo i k).keys.at' j).value = if j = i then k.value else (g.keys.at' j).value := by
  have hstore : (g.privGo i k).keys.at' j =
      ((((g.invalidate (g.keys.family i)).keys.set i { k with gen := ((g.invalidate (g.keys.family i)).keys.at' i).gen }).bumpGen
        i).at' j) := rfl
  rw [hstore, KeyStore.bumpGen_value, KeyStore.at'_set, invalidate_keys]
  split <;> rfl

theorem putSak_values (g : Gw) {a b : Nat} (sak : List Byte) (hab : a ≠ b) :
    ((g.putSak a b sak).keys.at' a).value = sak ∧ ((g.putSak a b sak).keys.at' b).value = sak := by
  unfold Gw.putSak
  rw [writeAll_keys]
  refine ⟨?_, ?_⟩
  · rw [privGo_value, if_neg hab, privGo_value, if_pos rfl]
  · rw [privGo_value, if_pos rfl]

/-- Decisions of the firmware that wait for a stamp change neither the keys nor the state of MKA. -/
theorem mkaInstalls_keep {α : Type} (c : α → FwChange) (l : List α) (g : Gw) :
    (l.foldl (fun (g : Gw) x => g.fwChange (c x)) g).keys = g.keys ∧ (l.foldl (fun (g : Gw) x => g.fwChange (c x)) g).mka = g.mka := by
  constructor
  · refine foldl_same Gw.keys ?_ l g
    intro g x
    rfl
  · refine foldl_same Gw.mka ?_ l g
    intro g x
    rfl

theorem useSak_acts {g : Gw} {p a b : Nat} (an kn : Nat) (sak : List Byte) (drawn : Bool) (h : g.sakSlots p = some (a, b)) :
    (g.useSak p an kn sak drawn).keys = (g.putSak a b sak).keys ∧
    (g.useSak p an kn sak drawn).mkaAt p = { (g.putSak a b sak).mkaAt p with
      an := an, encSlot := some a, decSlot := some b, keyNum := kn, want := false, sak := if drawn then sak else [] } := by
  unfold Gw.useSak
  rw [h]
  dsimp only
  generalize g.putSak a b sak = g'
  obtain ⟨k, hk⟩ : ∃ k : Gw, k = g'.setMka p { g'.mkaAt p with
    an := an, encSlot := some a, decSlot := some b, keyNum := kn, want := false, sak := if drawn then sak else [] } := ⟨_, rfl⟩
  have hkk : k.keys = g'.keys := by rw [hk]; rfl
  have hkm : k.mkaAt p = { g'.mkaAt p with
      an := an, encSlot := some a, decSlot := some b, keyNum := kn, want := false, sak := if drawn then sak else [] } := by
    rw [hk]
    exact mgetD_mset_same ..
  rw [← hk, ← hkk, ← hkm]
  obtain ⟨hkeys, hmka⟩ := mkaInstalls_keep (fun (q : Nat × MkaPeer) => .mkaInstall p true an q.1 b) (k.mkaLive p) k
  generalize (k.mkaLive p).foldl (fun (g : Gw) (q : Nat × MkaPeer) => g.fwChange (.mkaInstall p true an q.1 b)) k = j at hkeys hmka ⊢
  refine ⟨hkeys, ?_⟩
  unfold Gw.mkaAt
  rw [← hmka]
  rfl

/-! ### MKPDUs -/

section
variable {g : Gw} {p sci prio : Nat} {pdu : Mkpdu} (hon : g.mkaOn p = true)
include hon

theorem mkaReceive_forged (hicv : pdu.icv ≠ (g.mkaDerive p).mkpduIcv p sci prio pdu) :
    g.mkaReceive p sci prio pdu = g.mkaDerive p := by
  unfold Gw.mkaReceive
  rw [if_neg (by rw [hon]; decide)]
  exact if_pos (by simp [hicv])

/-- What a module does with an MKPDU that it accepts, once it has heard its sender. -/
theorem mkaReceive_heard (hicv : pdu.icv = (g.mkaDerive p).mkpduIcv p sci prio pdu)
    (hfresh : ((g.mkaDerive p).mkaAt p).stale sci pdu = false) {h : Gw} (hh : h = (g.mkaDerive p).setMka p
      (((g.mkaDerive p).mkaAt p).hear sci prio pdu (g.mkaDerive p).tb.tick)) :
    (pdu.dist = none → g.mkaReceive p sci prio pdu = h) ∧
    (∀ an kn wrapped sak, pdu.dist = some (an, kn, wrapped) → h.serverPeer p sci = true →
      keyUnwrap (h.mkaKek p) wrapped = some sak → g.mkaReceive p sci prio pdu = h.useSak p (an % 4) kn sak false) := by
  unfold Gw.mkaReceive
  rw [if_neg (by rw [hon]; decide)]
  dsimp only
  rw [if_neg (by simp [hfresh, ← hicv]), ← hh]
  refine ⟨fun hd => by rw [hd], fun an kn wrapped sak hd hpeer hsak => ?_⟩
  rw [hd]
  dsimp only
  rw [if_pos hpeer, hsak]

end

theorem mkaTimer_sends {g : Gw} {p : Nat} (hon : g.mkaOn p = true) {k h : Gw} {an : Nat} {sak : List Byte}
    {dist : Option (Nat × Nat × List Byte)} {pdu : Mkpdu} (hk : k = ((g.mkaDerive p).mkaStart p).setMka p
      { ((g.mkaDerive p).mkaStart p).mkaAt p with msg := (((g.mkaDerive p).mkaStart p).mkaAt p).msg + 1 })
    (hsak : sak = padTo 32 (Config.random k.free 32)) (han : an = (if (k.mkaAt p).keyNum = 0 then 0 else ((k.mkaAt p).an + 1) % 4))
    (hdue : (k.sakDue p = false ∧ h = k ∧ dist = none) ∨
      (k.sakDue p = true ∧ h = k.draw.useSak p an ((k.mkaAt p).keyNum + 1) sak true ∧
        dist = some (an, (k.mkaAt p).keyNum + 1, keyWrap (h.mkaKek p) sak))) (hpdu : pdu = h.mkpduNext p dist) :
    g.mkaTimer p = h.fwSend 0 (2 ^ macFabric p) 7
      (mkpduBytes p (h.ownSci p) Config.mkaPriority pdu ++ h.mkpduIcv p (h.ownSci p) Config.mkaPriority pdu) := by
  have hat : k.mkaAt p = { ((g.mkaDerive p).mkaStart p).mkaAt p with msg := (((g.mkaDerive p).mkaStart p).mkaAt p).msg + 1 } := by
    rw [hk]
    exact mgetD_mset_same ..
  have hnum : (((g.mkaDerive p).mkaStart p).mkaAt p).keyNum = (k.mkaAt p).keyNum := by rw [hat]
  have hnext : (((g.mkaDerive p).mkaStart p).mkaAt p).an = (k.mkaAt p).an := by rw [hat]
  unfold Gw.mkaTimer
  rw [if_neg (by rw [hon]; decide)]
  dsimp only
  rw [← hk, hnum, hnext, ← hsak, ← han]
  rcases hdue with ⟨hno, rfl, rfl⟩ | ⟨hyes, rfl, rfl⟩
  · rw [hno, hpdu]
    rfl
  · rw [hyes, hpdu]
    rfl

/-! ### Receive freshness values -/

theorem journalRx_one {g : Gw} {i : Nat} {e : Entry} (h : g.sealEntries 2 = [(i, e)]) :
    g.journalRx = if mgetD g.fvLast i e.w4.toNat = mgetD g.fvJrnl i e.w4.toNat then g
      else ({ g with fvJrnl := mset g.fvJrnl i (mgetD g.fvLast i e.w4.toNat) } : Gw).journal none
        (.freshRx (e.key 3) (mgetD g.fvLast i e.w4.toNat)) := by
  unfold Gw.journalRx
  rw [h]
  rfl

end Sys2Proof.Machine
end

section
/-! The statement on key agreement and receive freshness values (R525, R532, R760). -/

namespace Sys2Proof.Machine

/-- Settles O51: by the MKPDU, timer or SAK of each clause. -/
theorem keyAgreementAndFreshness : Obligations.KeyAgreementAndFreshness := by
  unfold Obligations.KeyAgreementAndFreshness
  refine ⟨fun s p sci prio pdu g h hon hg hh => ⟨fun hicv => ?_, fun hicv hfresh => ⟨fun hd => ?_,
      fun an kn wrapped sak hd hpeer hsak => ?_⟩⟩, fun s p cak h => mkaDerive_keys h,
    fun s p a b an kn sak drawn hslots hab => ?_, fun s p an g h sak dist pdu hon hg hsak han hdue hpdu => ?_,
    fun s p sci prio pdu hoff => ⟨?_, ?_⟩, fun s i e hrun hserv hone hdue => ⟨fun heq => ?_, fun hne => ?_⟩,
    fun s hrun => ?_, fun s k hk hearly => ?_⟩
  case refine_1 =>
    subst hg
    rw [exec_mkaPduReceive, answer_onGw, mkaReceive_forged hon hicv]
  case refine_2 =>
    subst hg
    rw [exec_mkaPduReceive, answer_onGw, (mkaReceive_heard hon hicv hfresh hh).1 hd]
  case refine_3 =>
    subst hg
    rw [exec_mkaPduReceive, answer_onGw, (mkaReceive_heard hon hicv hfresh hh).2 an kn wrapped sak hd hpeer hsak]
  case refine_4 =>
    obtain ⟨hkeys, hmka⟩ := useSak_acts an kn sak drawn hslots
    obtain ⟨ha, hb⟩ := putSak_values s.gw sak hab
    rw [hkeys, hmka]
    exact ⟨ha, hb, rfl, rfl, rfl⟩
  case refine_5 =>
    rw [exec_mkaTimer, answer_onGw, mkaTimer_sends hon hg hsak han hdue hpdu]
    rfl
  case refine_6 =>
    rw [exec_mkaPduReceive, answer_onGw]
    unfold Gw.mkaReceive
    rw [if_pos (by rw [hoff]; rfl), after_self]
  case refine_7 =>
    rw [exec_mkaTimer, answer_onGw]
    unfold Gw.mkaTimer
    rw [if_pos (by rw [hoff]; rfl), after_self]
  case refine_8 =>
    rw [exec_fvRxJournalTimer, answer_onGw, if_pos (by rw [hrun, hserv]; rfl), every_due _ hdue,
      journalRx_one (g := { s.gw with timers := mset s.gw.timers timerJournal s.gw.tb.tick }) hone, if_pos heq]
  case refine_9 =>
    rw [exec_fvRxJournalTimer, answer_onGw, if_pos (by rw [hrun, hserv]; rfl), every_due _ hdue,
      journalRx_one (g := { s.gw with timers := mset s.gw.timers timerJournal s.gw.tb.tick }) hone, if_neg hne]
    refine ⟨_, rfl, ?_⟩
    rw [after_gw, interrupts_keys, interrupts_fvJrnl, interrupts_fvLast]
    exact ⟨rfl, mgetD_mset_same .., rfl⟩
  case refine_10 => rw [exec_fvRxJournalTimer, answer_onGw, if_neg (by simp [hrun]), after_self]
  case refine_11 =>
    rw [exec_fvRxJournalTimer, answer_onGw, every_early _ hk hearly, ite_self, after_self]

end Sys2Proof.Machine
end

section
/-! SUPPORT. The remote access bridge as initiator: operations that start, are sent, answered, claimed and timed out, and the
far error log (R471–R484). -/

namespace Sys2Proof.Machine

theorem exec_rmtCmdBcast (i : Nat) (s : State) : exec (.rmtCmdBcast i) s = answer (onGw (fun g => g.rmtCmd i 5)) s := rfl
theorem exec_rmtDeferredSend (i : Nat) (s : State) : exec (.rmtDeferredSend i) s = answer (onGw (fun g => g.rmtDeferred i)) s := rfl
theorem exec_rmtRequestExecute (ns : List Nat) (s : State) : exec (.rmtRequestExecute ns) s = answer (farRequest ns) s := rfl
theorem exec_bcastReceive (s : State) : exec .bcastReceive s = answer bcastReceive s := rfl
theorem exec_rmtResponseArrival (s : State) :
    exec .rmtResponseArrival s = answer (onGw (fun g => if g.islOn 10 then g.rmtResponse else g)) s := rfl
theorem exec_farErrorReport (s : State) :
    exec .farErrorReport s = answer (onGw (fun g => if g.islOn 10 then g.farReport else g)) s := rfl
theorem exec_rmtRdata0Read (i : Nat) (s : State) : exec (.rmtRdata0Read i) s = answer (onGw (fun g =>
    if i < 16 && g.islOn 10 then (g.rmtClaim i).emit (.readData (Reg.rmtRdata0 i) (w32 ((g.rmtAt i).rdata.getD 0 0)))
    else g.emit (.readData (Reg.rmtRdata0 i) 0))) s := rfl
theorem exec_rmtHoldExpiry (i : Nat) (s : State) :
    exec (.rmtHoldExpiry i) s = answer (onGw (fun g => if i < 32 && g.islOn 10 then g.rmtHoldExpiry i else g)) s := rfl
theorem exec_rmtTimeout (i : Nat) (s : State) :
    exec (.rmtTimeout i) s = answer (onGw (fun g => if i < 32 && g.islOn 10 then g.rmtTimeout i else g)) s := rfl
theorem exec_rmtFerrEnt0Read (s : State) : exec .rmtFerrEnt0Read s =
    answer (onGw (fun g => if g.islOn 10 then g.ferrRead0 else g.emit (.readData Reg.rmtFerrEnt0 0))) s := rfl
theorem exec_rmtFerrEnt2Read (s : State) : exec .rmtFerrEnt2Read s =
    answer (onGw (fun g => if g.islOn 10 then g.ferrRead2 else g.emit (.readData Reg.rmtFerrEnt2 0))) s := rfl

/-- The four commands that put an operation into a slot other than a broadcast. -/
theorem exec_rmtCmd {i op : Nat} {c : Instr} (s : State)
    (h : (c, op) ∈ [(Instr.rmtCmdRead i, 1), (Instr.rmtCmdWrite i, 2), (Instr.rmtCmdReadLine i, 3), (Instr.rmtCmdSeq i, 4)]) :
    exec c s = answer (onGw (fun g => g.rmtCmd i op)) s ∧ 1 ≤ op ∧ op ≤ 4 := by
  simp only [List.mem_cons, Prod.mk.injEq, List.not_mem_nil, or_false] at h
  rcases h with ⟨rfl, rfl⟩ | ⟨rfl, rfl⟩ | ⟨rfl, rfl⟩ | ⟨rfl, rfl⟩ <;> exact ⟨rfl, by decide, by decide⟩

theorem rmtAt_of_rmt {g h : Gw} (e : h.rmt = g.rmt) (i : Nat) : h.rmtAt i = g.rmtAt i := by
  unfold Gw.rmtAt
  rw [e]

theorem rmtAt_after (s : State) (g : Gw) (i : Nat) : (s.after g).gw.rmtAt i = g.rmtAt i :=
  rmtAt_of_rmt (interrupts_rmt s.gw g) i

theorem Sends.rmt {g h : Gw} (a : Sends g h) : h.rmt = g.rmt := by
  obtain ⟨_, _, _, e⟩ := a.shape
  rw [e]

/-! ### Operations that start -/

/-- The operation that a write of OP puts into a slot. -/
def Gw.rmtOp (g : Gw) (i op : Nat) : RmtSlot :=
  { op := op, tgt := bits (g.regN (Reg.rmtTgt i)) 11 0, hops := bits (g.regN (Reg.rmtTgt i)) 27 16, addr := g.regN (Reg.rmtAddr i),
    wdata := g.regN (Reg.rmtWdata i), seq := if op = 4 then g.seqOps i else [] }

theorem rmtCmd_on {g : Gw} {i op : Nat} (hi : i < 16) (hon : g.islOn 10 = true) (h1 : 1 ≤ op) (h5 : op ≤ 5) :
    g.rmtCmd i op = g.rmtStart i (g.rmtOp i op) := by
  unfold Gw.rmtCmd
  exact if_neg (by simp [hon]; omega)

/-- The operation with the slot's next tag and the present tick. -/
def Gw.tagged (g : Gw) (i : Nat) (x : RmtSlot) : RmtSlot :=
  { x with state := 1, tag := g.rmt.nextTag, start := g.tb.tick, bseq := (g.rmtAt i).bseq }

/-- The module with an operation in its slot. -/
def Gw.slotted (g : Gw) (i : Nat) (x : RmtSlot) : Gw :=
  ({ g with rmt := { g.rmt with nextTag := (g.rmt.nextTag + 1) % 65536 } } : Gw).setRmt i (g.tagged i x)

section
variable {g : Gw} {i : Nat} {x : RmtSlot}

theorem rmtStart_busy (h : (g.rmtAt i).state = 1) : g.rmtStart i x = g := if_pos h

theorem rmtStart_free (hst : (g.rmtAt i).state ≠ 1) (hheld : (g.rmtAt i).held = none) : g.rmtStart i x =
    if x.op = 5 then (g.slotted i x).rmtBcast i
    else if (g.slotted i x).mustWait i (g.tagged i x) then g.slotted i x else (g.slotted i x).rmtSend i := by
  have hdata : g.discardData i = g := by
    unfold Gw.discardData
    dsimp only
    rw [hheld]
    exact if_pos rfl
  unfold Gw.rmtStart
  rw [if_neg hst, hdata]
  rfl

theorem rmtAt_slotted_same : (g.slotted i x).rmtAt i = g.tagged i x := rmtAt_setRmt_same _ _ _

theorem rmtAt_slotted_ne {j : Nat} (h : j ≠ i) : (g.slotted i x).rmtAt j = g.rmtAt j :=
  (rmtAt_setRmt ..).trans (if_neg h)

/-- Nothing holds a slot back while every other slot is idle. -/
theorem mustWait_alone {y : RmtSlot} (h : ∀ j, j < 32 → j ≠ i → (g.rmtAt j).state ≠ 1 ∧ (g.rmtAt j).held = none) :
    g.mustWait i y = false := by
  have hfree : ∀ j a, j < 32 → j ≠ i → (g.rmtAt j).holdsRead y.tgt a = false := by
    intro j a hj hne
    obtain ⟨hst, hheld⟩ := h j hj hne
    unfold RmtSlot.holdsRead
    simp [hst, hheld]
  unfold Gw.mustWait
  rw [List.any_eq_false]
  intro a _
  rw [Bool.not_eq_true, List.any_eq_false]
  intro j hj
  by_cases hne : j = i
  · simp [hne]
  · simp [hfree j a (List.mem_range.mp hj) hne]

/-- A command in a free slot, with no other slot busy, sends its operation. -/
theorem rmtCmd_sends {op : Nat} (hi : i < 16) (hon : g.islOn 10 = true) (h1 : 1 ≤ op) (h4 : op ≤ 4)
    (hst : (g.rmtAt i).state ≠ 1) (hheld : (g.rmtAt i).held = none)
    (halone : ∀ j, j < 32 → j ≠ i → (g.rmtAt j).state ≠ 1 ∧ (g.rmtAt j).held = none) :
    g.rmtCmd i op = (g.slotted i (g.rmtOp i op)).rmtSend i := by
  have hfree : (g.slotted i (g.rmtOp i op)).mustWait i (g.tagged i (g.rmtOp i op)) = false := by
    refine mustWait_alone fun j hj hne => ?_
    rw [rmtAt_slotted_ne hne]
    exact halone j hj hne
  have hop : ¬ (g.rmtOp i op).op = 5 := by
    intro (h5 : op = 5)
    omega
  rw [rmtCmd_on hi hon h1 (by omega), rmtStart_free hst hheld, if_neg hop, hfree, if_neg Bool.false_ne_true]

theorem rmtReply_none (h : (g.rmtAt i).mbx = none) : g.rmtReply i = g := by
  unfold Gw.rmtReply
  dsimp only
  rw [h]

theorem rmtError_slot (code doneOps : Nat) (h : (g.rmtAt i).mbx = none) : g.rmtError i code doneOps =
    g.setRmt i { g.rmtAt i with state := 3, err := code, doneOps := doneOps, held := none } := by
  unfold Gw.rmtError
  exact rmtReply_none (by rw [rmtAt_setRmt_same]; exact h)

/-- The request of a slot. -/
def Gw.rmtRequest (g : Gw) (x : RmtSlot) : SideMsg :=
  { cls := 2, typ := 0, dst := x.tgt, src := g.chnAddr, hops := 4094, body := x.body }

section
variable (htgt : (g.rmtAt i).tgt ≠ g.chnAddr)
include htgt

theorem rmtSend_routed {k : Nat} (hroute : g.routeTo (g.rmtAt i).tgt = some k) :
    g.rmtSend i = (g.setRmt i { g.rmtAt i with sent := true }).sideSend k (g.rmtRequest (g.rmtAt i)) := by
  have hown : ¬ (decide ((g.rmtAt i).tgt = g.chnAddr) && decide ((g.rmtAt i).tgt ≠ 0)) = true := by simp [htgt]
  have hr : (g.setRmt i { g.rmtAt i with sent := true }).routeTo (g.rmtAt i).tgt = some k := hroute
  unfold Gw.rmtSend
  dsimp only
  rw [hr]
  exact if_neg hown

theorem rmtSend_unrouted (hroute : g.routeTo (g.rmtAt i).tgt = none) :
    g.rmtSend i = (g.setRmt i { g.rmtAt i with sent := true }).rmtError i 6 0 := by
  have hown : ¬ (decide ((g.rmtAt i).tgt = g.chnAddr) && decide ((g.rmtAt i).tgt ≠ 0)) = true := by simp [htgt]
  have hr : (g.setRmt i { g.rmtAt i with sent := true }).routeTo (g.rmtAt i).tgt = none := hroute
  unfold Gw.rmtSend
  dsimp only
  rw [hr]
  exact if_neg hown

end

theorem rmtBcast_slot (h : (g.rmtAt i).mbx = none) : g.rmtBcast i =
    (({ g with rmt := { g.rmt with bseq := (g.rmt.bseq + 1) % 65536 } } : Gw).sendBoth
      { cls := 2, typ := 3, dst := 0xFFF, src := g.chnAddr, hops := (g.rmtAt i).hops,
        body := [g.rmt.bseq, (g.rmtAt i).addr, (g.rmtAt i).wdata].map Int.ofNat }).setRmt i
      { g.rmtAt i with state := 2, bseq := g.rmt.bseq } := by
  unfold Gw.rmtBcast
  exact rmtReply_none (by rw [rmtAt_setRmt_same]; exact h)

theorem rmtDeferred_waits (h : g.mustWait i (g.rmtAt i) = true) : g.rmtDeferred i = g := by
  unfold Gw.rmtDeferred
  exact if_neg (by simp [h])

theorem rmtDeferred_goes (hst : (g.rmtAt i).state = 1) (hsent : (g.rmtAt i).sent = false)
    (hgo : g.mustWait i (g.rmtAt i) = false) (hon : g.islOn 10 = true) : g.rmtDeferred i = g.rmtSend i := by
  unfold Gw.rmtDeferred
  exact if_pos (by simp [hst, hsent, hgo, hon])

/-! ### Responses, claims and expiries -/

theorem takeMsg_rmt {g' : Gw} {cls typ : Nat} {y : Inbound} (h : g.takeMsg cls typ = some (y, g')) : g'.rmt = g.rmt := by
  obtain ⟨l, rfl⟩ := takeMsg_shape h
  rfl

/-- The response of the open operation that it names ends its slot. -/
theorem rmtResponse_open {g' : Gw} {y : Inbound} (h : g.takeMsg 2 1 = some (y, g')) (hi : i < 32) (hst : (g.rmtAt i).state = 1)
    (hsent : (g.rmtAt i).sent = true) (htag : (g.rmtAt i).tag = (y.msg.body.getD 0 0).toNat)
    (hlow : ∀ j, j < i → ¬((g.rmtAt j).state = 1 ∧ (g.rmtAt j).sent = true ∧ (g.rmtAt j).tag = (y.msg.body.getD 0 0).toNat)) :
    g.rmtResponse = g'.rmtAnswered i (y.msg.body.getD 1 0).toNat (y.msg.body.getD 2 0).toNat ((y.msg.body.drop 3).map Int.toNat) := by
  have hfind : (List.range 32).find? (fun i => (g'.rmtAt i).state = 1 && (g'.rmtAt i).sent &&
      (g'.rmtAt i).tag = (y.msg.body.getD 0 0).toNat) = some i := by
    refine find?_range_lowest hi ?_ fun j hj => ?_
    · rw [rmtAt_of_rmt (takeMsg_rmt h)]
      simp [hst, hsent, htag]
    · rw [rmtAt_of_rmt (takeMsg_rmt h)]
      exact Bool.eq_false_iff.mpr fun hhit => hlow j hj (by simpa [and_assoc] using hhit)
  unfold Gw.rmtResponse
  rw [h]
  dsimp only
  rw [hfind]

/-- Data that an operation's answer leaves to be claimed. -/
def RmtSlot.reading (x : RmtSlot) : Bool := x.op = 1 || x.op = 3 || (x.op = 4 && x.seq.any (fun o => o.1 = 1))

/-- A slot after the answer to its operation. -/
def RmtSlot.answered (x : RmtSlot) (code doneOps tick : Nat) (data : List Nat) : RmtSlot :=
  { x with state := if code = 0 then 2 else 3, err := code, doneOps := doneOps, rdata := if x.op = 4 then spreadReads x.seq data else data,
           held := if code = 0 ∧ x.reading = true then some tick else none }

theorem rmtAnswered_slot (code doneOps : Nat) (data : List Nat) (h : (g.rmtAt i).mbx = none) :
    (g.rmtAnswered i code doneOps data).rmtAt i = (g.rmtAt i).answered code doneOps g.tb.tick data := by
  unfold Gw.rmtAnswered RmtSlot.answered
  dsimp only
  generalize (if (g.rmtAt i).op = 4 then spreadReads (g.rmtAt i).seq data else data) = d
  by_cases hc : code = 0
  · subst hc
    rw [if_neg (by decide), rmtReply_none (by rw [rmtAt_setRmt_same]; exact h), rmtAt_setRmt_same]
    unfold RmtSlot.reading
    by_cases hr : ((g.rmtAt i).op = 1 || (g.rmtAt i).op = 3 || ((g.rmtAt i).op = 4 && (g.rmtAt i).seq.any (fun o => o.1 = 1))) = true
    · rw [if_pos hr, if_pos rfl, if_pos ⟨rfl, hr⟩]
    · rw [if_neg hr, if_pos rfl, if_neg (fun hh => hr hh.2)]
  · rw [if_pos hc, rmtReply_none (by rw [rmtAt_setRmt_same]; exact h), rmtAt_setRmt_same, if_neg hc, if_neg (fun hh => hc hh.1)]

theorem lostReads_rmt (tgt : Nat) (l : List Nat) (g : Gw) : (l.foldl (fun (g : Gw) a => g.lostRead tgt a) g).rmt = g.rmt := by
  refine foldl_same Gw.rmt ?_ l g
  intro g a
  rfl

theorem discardData_held {t : Nat} (h : (g.rmtAt i).held = some t) : g.discardData i =
    ((g.rmtAt i).reads.filter farSensitive).foldl (fun (k : Gw) a => k.lostRead (g.rmtAt i).tgt a)
      ((g.setRmt i { g.rmtAt i with state := 0, held := none }).bump Reg.rmtDiscardCnt) := by
  unfold Gw.discardData
  dsimp only
  rw [h]
  rfl

/-- Discarded data leaves its slot idle. -/
theorem discardData_slot {t : Nat} (h : (g.rmtAt i).held = some t) :
    (g.discardData i).rmtAt i = { g.rmtAt i with state := 0, held := none } := by
  rw [discardData_held h, rmtAt_of_rmt (lostReads_rmt _ _ _)]
  exact rmtAt_setRmt_same _ _ _

/-- Discarded data of a read with a side effect is a lost read. -/
theorem discardData_flag {t : Nat} (h : (g.rmtAt i).held = some t) (hop : (g.rmtAt i).op = 1)
    (hsens : farSensitive (g.rmtAt i).addr = true) : bit ((g.discardData i).regN Reg.rmtFlag) 31 = true := by
  have hreads : (g.rmtAt i).reads.filter farSensitive = [(g.rmtAt i).addr] := by
    unfold RmtSlot.reads
    rw [if_pos hop, List.filter_cons_of_pos hsens]
    rfl
  rw [discardData_held h, hreads]
  exact bit_regN_flag_of_mask _ _ (by omega) (by decide)

theorem rmtHoldExpiry_eq {t : Nat} (h : (g.rmtAt i).held = some t) : g.rmtHoldExpiry i =
    if t + max 1 (g.param Par.rmtHoldMs) * ticksPerMs ≤ g.tb.tick then g.discardData i else g := by
  unfold Gw.rmtHoldExpiry
  rw [h]

/-- The record of an operation that was sent and not answered in time. -/
def Gw.lateNoted (g : Gw) (i : Nat) : Gw :=
  if (g.rmtAt i).sent then { g with rmt := { g.rmt with
    late := g.rmt.late ++ [((g.rmtAt i).tag, (g.rmtAt i).tgt, (g.rmtAt i).addr, (g.rmtAt i).reads)] } } else g

theorem rmtTimeout_due (hst : (g.rmtAt i).state = 1) (hdue : (g.rmtAt i).start + g.param Par.rmtTmoUs * ticksPerUs ≤ g.tb.tick) :
    g.rmtTimeout i = (g.lateNoted i).rmtError i 8 0 := by
  unfold Gw.rmtTimeout
  exact if_pos (by simp [hst, hdue])

theorem rmtTimeout_early (h : g.tb.tick < (g.rmtAt i).start + g.param Par.rmtTmoUs * ticksPerUs) : g.rmtTimeout i = g := by
  unfold Gw.rmtTimeout
  exact if_neg (by simp; omega)

theorem rmtAt_lateNoted : (g.lateNoted i).rmtAt i = g.rmtAt i := by
  unfold Gw.lateNoted
  split <;> rfl

end

/-! ### The far error log -/

theorem farError_acts (g : Gw) (addr code module bseq : Nat) (posted : Bool) :
    bit ((g.farError addr code module bseq posted).regN Reg.rmtFlag) 30 = true ∧
    (g.farLog.length < 32 → (g.farError addr code module bseq posted).farLog = g.farLog ++
      [⟨addr, code * 2 ^ 28 + module % 4096 * 65536 + bseq % 65536, 2 ^ 31 + atBit 30 posted⟩]) ∧
    (32 ≤ g.farLog.length → (g.farError addr code module bseq posted).farLog = g.farLog ∧
      bit ((g.farError addr code module bseq posted).regN Reg.rmtFlag) 29 = true) := by
  have hflag : bit ((g.flag Reg.rmtFlag 0x40000000).regN Reg.rmtFlag) 30 = true :=
    bit_regN_flag_of_mask _ _ (by omega) (by decide)
  unfold Gw.farError
  dsimp only
  by_cases hfull : 32 ≤ (g.flag Reg.rmtFlag 0x40000000).farLog.length
  · rw [if_pos hfull]
    refine ⟨?_, fun h => absurd hfull (by exact Nat.not_le.mpr h), fun _ => ⟨rfl, ?_⟩⟩
    · rw [regN_bump_ne _ (by decide)]
      exact bit_regN_flag_of_set _ (by omega) hflag
    · rw [regN_bump_ne _ (by decide)]
      exact bit_regN_flag_of_mask _ _ (by omega) (by decide)
  · rw [if_neg hfull]
    exact ⟨hflag, fun _ => rfl, fun h => absurd h hfull⟩

theorem farReport_taken {g g' : Gw} {x : Inbound} (h : g.takeMsg 2 2 = some (x, g')) : g.farReport =
    g'.farError (x.msg.body.getD 1 0).toNat (x.msg.body.getD 0 0).toNat x.msg.src (x.msg.body.getD 2 0).toNat
      ((x.msg.body.getD 3 0).toNat = 1) := by
  unfold Gw.farReport
  rw [h]

/-! ### Requests and broadcasts that wait -/

/-- The message that is taken has the type asked for, and its initiator has none of either kind before it. -/
theorem firstRmt_spec {typ : Nat} {seen : List Nat} {l rest : List Inbound} {y : Inbound} (h : firstRmt typ seen l = some (y, rest)) :
    y.msg.typ = typ ∧ y.msg.src ∉ seen := by
  induction l generalizing seen rest with
  | nil => cases h
  | cons x r ih =>
    unfold firstRmt at h
    dsimp only at h
    split at h
    next hit =>
      cases h
      simp only [Bool.and_eq_true, decide_eq_true_eq, Bool.not_eq_true'] at hit
      exact ⟨hit.1.2, by simpa using hit.2⟩
    next =>
      obtain ⟨q, hq, heq⟩ := Option.map_eq_some_iff.mp h
      obtain ⟨rfl, -⟩ := Prod.mk.inj heq
      obtain ⟨htyp, hseen⟩ := ih hq
      refine ⟨htyp, fun hmem => hseen ?_⟩
      split
      · exact List.mem_cons_of_mem _ hmem
      · exact hmem

/-- A request or broadcast that stands first is the one taken of its type, and one of the other type from its initiator waits. -/
theorem takeRmt_head {g : Gw} {x : Inbound} {r : List Inbound} {typ other : Nat} (hbox : g.chn.inbox = x :: r) (hcls : x.msg.cls = 2)
    (htyp : x.msg.typ = typ) (hours : typ = 0 ∨ typ = 3) (hne : typ ≠ other) : (g.takeRmt typ).map (·.1) = some x ∧
      ∀ y g', g.takeRmt other = some (y, g') → y.msg.typ = other ∧ y.msg.src ≠ x.msg.src := by
  have hkind : (x.msg.cls = 2 && (x.msg.typ = 0 || x.msg.typ = 3)) = true := by simp [hcls, htyp, hours]
  constructor
  · have hfirst : firstRmt typ [] (x :: r) = some (x, r) := by
      unfold firstRmt
      exact if_pos (by simp [hcls, htyp, hours])
    unfold Gw.takeRmt
    rw [hbox, hfirst]
    rfl
  · intro y g' h
    unfold Gw.takeRmt at h
    obtain ⟨q, hq, heq⟩ := Option.map_eq_some_iff.mp h
    obtain ⟨rfl, -⟩ := Prod.mk.inj heq
    rw [hbox] at hq
    refine ⟨(firstRmt_spec hq).1, ?_⟩
    unfold firstRmt at hq
    dsimp only at hq
    rw [if_neg (by simp [htyp, hne])] at hq
    obtain ⟨q', hq', heq'⟩ := Option.map_eq_some_iff.mp hq
    rw [hkind, if_pos rfl] at hq'
    have hseen := (firstRmt_spec hq').2
    rw [← heq']
    exact fun hsame => hseen (List.mem_singleton.mpr hsame)

theorem takeRmt_shape {g g' : Gw} {typ : Nat} {x : Inbound} (h : g.takeRmt typ = some (x, g')) : ∃ l, g' = g.withInbox l := by
  unfold Gw.takeRmt at h
  obtain ⟨q, -, heq⟩ := Option.map_eq_some_iff.mp h
  obtain ⟨-, rfl⟩ := Prod.mk.inj heq
  exact ⟨_, rfl⟩

/-! ### What a request does here -/

theorem farRequest_taken {ns : List Nat} {s : State} {x : Inbound} {g : Gw} {q : State × Nat × Nat × List Nat}
    (h : s.gw.takeRmt 0 = some (x, g)) (hon : s.gw.islOn 10 = true) (hq : q = farExecute ns x.msg.body (s.withGw g)) :
    farRequest ns s = q.1.withGw ((if q.2.1 ∈ [1, 2, 9] ∧ q.2.2.1 = 0 then q.1.gw else q.1.gw.bump Reg.rmtServedCnt).sendBack x 1
      ([x.msg.body.getD 0 0, (q.2.1 : Int), (q.2.2.1 : Int)] ++ q.2.2.2.map Int.ofNat)) := by
  obtain ⟨l, hl⟩ := takeRmt_shape h
  have hon' : (s.withGw g).gw.islOn 10 = true := by
    rw [hl]
    exact hon
  unfold farRequest
  rw [h]
  dsimp only
  rw [if_pos hon', ← hq]
  by_cases hex : q.2.1 ∈ [1, 2, 9] ∧ q.2.2.1 = 0
  · rw [if_pos hex, if_neg (by
      simp only [List.mem_cons, List.not_mem_nil, or_false] at hex
      obtain ⟨hc | hc | hc, h0⟩ := hex <;> simp [hc, h0])]
    rfl
  · rw [if_neg hex, if_pos (by
      simp only [List.mem_cons, List.not_mem_nil, or_false] at hex
      simp only [Bool.or_eq_true, Bool.and_eq_true, decide_eq_true_eq]
      tauto)]
    rfl

/-! ### Accesses of the far bridge -/

theorem farCheck_range {g : Gw} {a : Nat} (h : 0xFFFFFF < a ∨ a % 4 ≠ 0) : g.farCheck a = 1 :=
  if_pos (by simpa using h)

theorem farCheck_island {g : Gw} {a : Nat} (ha : a ≤ 0xFFFFFF) (h4 : a % 4 = 0) (hoff : g.islOn (regIsland a) = false) :
    g.farCheck a = 2 := by
  unfold Gw.farCheck
  rw [if_neg (by simp [h4]; omega), if_pos (by rw [hoff]; rfl)]

theorem farCheck_passes {g : Gw} {a : Nat} (ha : a ≤ 0xFFFFFF) (h4 : a % 4 = 0) (hon : g.islOn (regIsland a) = true) :
    g.farCheck a = 0 := by
  unfold Gw.farCheck
  rw [if_neg (by simp [h4]; omega), if_neg (by rw [hon]; decide)]

theorem farCheck_congr {g h : Gw} (e : h.isl = g.isl) (a : Nat) : h.farCheck a = g.farCheck a := by
  unfold Gw.farCheck
  rw [islOn_congr e]

theorem slowAccess_of_slow {ns : List Nat} (h : ∃ n ∈ ns, 1000 < n) : slowAccess ns = true := by
  obtain ⟨n, hn, hslow⟩ := h
  exact List.any_eq_true.mpr ⟨n, hn, decide_eq_true hslow⟩

theorem slowAccess_of_fast {ns : List Nat} (h : ∀ n ∈ ns, n ≤ 1000) : slowAccess ns = false := by
  refine List.any_eq_false.mpr fun n hn => ?_
  simp [h n hn]

section
variable {s : State} {ns : List Nat} {tag op a d : Nat}

/-- What a request of one access comes to, check by check. -/
theorem farExecute_single (hop : op = 1 ∨ op = 2 ∨ op = 3) :
    farExecute ns [(tag : Int), (op : Int), (a : Int), (d : Int)] s =
    if s.gw.param Par.rmtServe = 0 then (s, 9, 0, [])
    else if s.gw.farCheck a ≠ 0 then (s, s.gw.farCheck a, 0, [])
    else if op = 3 && farSensitive a then (s, 1, 0, [])
    else if slowAccess ns then (s, 3, 0, [])
    else if op = 2 then (busWrite a (w32 d) s, 0, 0, [])
    else if op = 1 then (s.withGw (s.gw.busRead a).1, 0, 0, [(s.gw.busRead a).2.toNat])
    else (s, 0, 0, (List.range 8).map (fun k => (s.gw.busRead (a / 32 * 32 + 4 * k)).2.toNat)) := by
  rcases hop with rfl | rfl | rfl <;> rfl

/-- An access that passes its checks: what its kind and its time make of it. -/
theorem farExecute_passed {q : State × Nat × Nat × List Nat}
    (hq : q = if op = 3 && farSensitive a then (s, 1, 0, [])
      else if slowAccess ns then (s, 3, 0, [])
      else if op = 2 then (busWrite a (w32 d) s, 0, 0, [])
      else if op = 1 then (s.withGw (s.gw.busRead a).1, 0, 0, [(s.gw.busRead a).2.toNat])
      else (s, 0, 0, (List.range 8).map (fun k => (s.gw.busRead (a / 32 * 32 + 4 * k)).2.toNat))) :
    (op = 3 → farSensitive a = true → q = (s, 1, 0, [])) ∧
    ((∃ n ∈ ns, 1000 < n) → op ≠ 3 ∨ farSensitive a = false → q = (s, 3, 0, [])) ∧
    ((∀ n ∈ ns, n ≤ 1000) → op = 1 → q = (s.withGw (s.gw.busRead a).1, 0, 0, [(s.gw.busRead a).2.toNat])) ∧
    ((∀ n ∈ ns, n ≤ 1000) → op = 2 → q = (busWrite a (w32 d) s, 0, 0, [])) ∧
    ((∀ n ∈ ns, n ≤ 1000) → op = 3 → farSensitive a = false → q.1 = s ∧ q.2.1 = 0 ∧ q.2.2.2.length = 8) := by
  refine ⟨fun h3 hsens => ?_, fun hslow hno => ?_, fun hfast h1 => ?_, fun hfast h2 => ?_, fun hfast h3 hno => ?_⟩
  · rw [hq, if_pos (by simp [h3, hsens])]
  · rw [hq, if_neg (by rcases hno with hno | hno <;> simp [hno]), if_pos (slowAccess_of_slow hslow)]
  · rw [hq, if_neg (by simp [h1]), slowAccess_of_fast hfast, if_neg Bool.false_ne_true, if_neg (by omega), if_pos h1]
  · rw [hq, if_neg (by simp [h2]), slowAccess_of_fast hfast, if_neg Bool.false_ne_true, if_pos h2]
  · rw [hq, if_neg (by simp [hno]), slowAccess_of_fast hfast, if_neg Bool.false_ne_true, if_neg (by omega), if_neg (by omega)]
    exact ⟨rfl, rfl, by simp⟩

end

section
variable {s : State} {d t0 : Nat} {ns : List Nat} {o : Nat × Nat × Nat × Nat}

/-- A sequence of one operation that fails. -/
theorem seqRun_fails {x y : SeqAt} {code v : Nat} (h : seqOp o x = (y, code, v)) (hc : code ≠ 0) :
    seqRun [o] x = (y.s, code, 0, []) := by
  unfold seqRun
  rw [h]
  exact if_pos hc

/-- A sequence of one operation that succeeds. -/
theorem seqRun_succeeds {x y : SeqAt} {v : Nat} (h : seqOp o x = (y, 0, v)) :
    seqRun [o] x = (y.s, 0, 1, if o.1 = 1 then [v] else []) := by
  unfold seqRun
  rw [h]
  rfl

theorem access_slow (f : State → State × Nat) (ht : t0 ≤ 1800) (hd : 200 < d) :
    (⟨s, t0, d :: ns⟩ : SeqAt).access f = (⟨s, t0 + d, ns⟩, 3, 0) := by
  unfold SeqAt.access
  dsimp only
  rw [if_neg (by omega)]
  exact if_pos hd

theorem access_done (f : State → State × Nat) (ht : t0 ≤ 1800) (hd : d ≤ 200) :
    (⟨s, t0, d :: ns⟩ : SeqAt).access f = (⟨(f s).1, t0 + d, ns⟩, 0, (f s).2) := by
  unfold SeqAt.access
  dsimp only
  rw [if_neg (by omega)]
  exact if_neg (Nat.not_lt.mpr hd)

theorem seqOp_late (ht : 1800 < t0) : seqOp o ⟨s, t0, d :: ns⟩ = (⟨s, t0, d :: ns⟩, 4, 0) := if_pos ht

theorem seqOp_refused (ht : t0 ≤ 1800) (hc : s.gw.farCheck o.2.1 ≠ 0) :
    seqOp o ⟨s, t0, d :: ns⟩ = (⟨s, t0, d :: ns⟩, s.gw.farCheck o.2.1, 0) := by
  unfold seqOp
  rw [if_neg (Nat.not_lt.mpr ht)]
  exact if_pos hc

theorem seqOp_write (ht : t0 ≤ 1800) (hc : s.gw.farCheck o.2.1 = 0) (ho : o.1 = 2) :
    seqOp o ⟨s, t0, d :: ns⟩ = (⟨s, t0, d :: ns⟩ : SeqAt).access (farWrite o.2.1 o.2.2.1) := by
  unfold seqOp
  rw [if_neg (Nat.not_lt.mpr ht)]
  dsimp only
  rw [if_neg (not_not.mpr hc), if_pos ho]

theorem seqOp_read (ht : t0 ≤ 1800) (hc : s.gw.farCheck o.2.1 = 0) (ho : o.1 = 1) :
    seqOp o ⟨s, t0, d :: ns⟩ = (⟨s, t0, d :: ns⟩ : SeqAt).access (farRead o.2.1) := by
  unfold seqOp
  rw [if_neg (Nat.not_lt.mpr ht)]
  dsimp only
  rw [if_neg (not_not.mpr hc), if_neg (by omega), if_neg (by omega : ¬ o.1 = 3), if_neg (by omega : ¬ o.1 = 4), ite_self]

end

/-! ### A broadcast received -/

section
variable {s : State} {x : Inbound} {g : Gw} (h : s.gw.takeRmt 3 = some (x, g))
include h

theorem bcastReceive_own (hsrc : x.msg.src = s.gw.chnAddr) (h0 : s.gw.chnAddr ≠ 0) : bcastReceive s = s.withGw g := by
  obtain ⟨l, hl⟩ := takeRmt_shape h
  have haddr : g.chnAddr = s.gw.chnAddr := by
    rw [hl]
    rfl
  unfold bcastReceive
  rw [h]
  exact if_pos (by simp [haddr, hsrc, h0])

/-- A broadcast of another module while the far bridge runs and serves: passed on, then executed or reported. -/
theorem bcastReceive_other (hsrc : x.msg.src ≠ s.gw.chnAddr) (hon : s.gw.islOn 10 = true) (hserve : s.gw.param Par.rmtServe ≠ 0)
    {g1 : Gw} (hg : g1 = g.draw.passOn x.port (1 - x.port) x.msg) {a v b ns c : Nat} (ha : a = (x.msg.body.getD 1 0).toNat)
    (hv : v = (x.msg.body.getD 2 0).toNat) (hb : b = (x.msg.body.getD 0 0).toNat) (hns : ns = Config.accessTime g.free)
    (hc : c = (if s.gw.farCheck a ≠ 0 then s.gw.farCheck a else if 1000 < ns then 3 else 0)) : bcastReceive s =
    if c ≠ 0 then s.withGw (g1.sendBack x 2 [(c : Int), (a : Int), (b : Int), 1])
    else (busWrite a (w32 v) (s.withGw g1)).withGw ((busWrite a (w32 v) (s.withGw g1)).gw.bump Reg.rmtServedCnt) := by
  obtain ⟨l, hl⟩ := takeRmt_shape h
  have haddr : g.chnAddr = s.gw.chnAddr := by
    rw [hl]
    rfl
  have hsends : Sends g.draw g1 := by
    rw [hg]
    exact sends_passOn _ _ _ _
  have hisl : g1.isl = s.gw.isl := by
    rw [hsends.isl, hl]
    rfl
  have hpar : g1.param Par.rmtServe = s.gw.param Par.rmtServe := by
    rw [hsends.param, hl]
    rfl
  have hcode : (if !g1.islOn 10 then 2 else if g1.param Par.rmtServe = 0 then 9
      else if g1.farCheck a ≠ 0 then g1.farCheck a else if 1000 < ns then 3 else 0) = c := by
    rw [islOn_congr hisl, hon, hpar, farCheck_congr hisl, if_neg (by decide : ¬ (!true) = true), if_neg hserve, hc]
  subst ha hv hb hns
  unfold bcastReceive
  rw [h]
  dsimp only
  rw [if_neg (by simp [haddr, hsrc]), ← hg]
  by_cases hzero : c = 0
  · rw [if_neg (not_not.mpr hzero)]
    exact if_neg (not_not.mpr (hcode.trans hzero))
  · rw [if_pos hzero, ← hcode]
    exact if_pos fun he => hzero (hcode.symm.trans he)

end

theorem ferrRead0_entry {g : Gw} {e : FarEntry} {r : List FarEntry} (h : g.farLog = e :: r) : g.ferrRead0 =
    ({ g with rmt := { g.rmt with ferrLatched := [e.w0, e.w1, e.w2], ferrArmed := true } } : Gw).emit
      (.readData Reg.rmtFerrEnt0 (w32 e.w0)) := by
  unfold Gw.ferrRead0
  rw [h]
  rfl

theorem ferrRead2_armed {g : Gw} {e : FarEntry} {r : List FarEntry} (h : g.farLog = e :: r) (harmed : g.rmt.ferrArmed = true) :
    g.ferrRead2 = ({ g with farLog := r, rmt := { g.rmt with ferrArmed := false } } : Gw).emit
      (.readData Reg.rmtFerrEnt2 (w32 (g.rmt.ferrLatched.getD 2 0))) := by
  unfold Gw.ferrRead2
  rw [h, harmed]
  rfl

end Sys2Proof.Machine
end

section
/-! The statement on the remote access bridge (R471–R484). -/

namespace Sys2Proof.Machine

/-- Settles O60: slot by slot through what each operation, response, expiry or far request leaves of its slot. -/
theorem remoteAccess : Obligations.RemoteAccess := by
  unfold Obligations.RemoteAccess
  refine ⟨fun s i op k c y hi hon hc => ⟨fun hbusy => ?busy, fun hst hheld halone hy htgt => ⟨fun hroute => ?sent, fun hroute => ?unrouted⟩⟩,
    fun s i hi hon hst hheld => ?bcast, fun s i k hon hst hsent => ⟨fun hw => ?waits, fun hgo htgt hroute => ?goes⟩,
    fun ns_s ns x g q h hon hq => ?request, fun s ns tag op a d hop q hq => ?single,
    fun s d t0 ns o ho => ⟨fun ht => ?late, fun ht hcheck => ?refused, fun ht hcheck hd => ?slow, fun ht hcheck hd => ⟨fun h1 => ?read, fun h2 => ?write⟩⟩,
    fun s x g i code hon h hi hst hsent htag hlow hmbx hcode => ?response,
    fun s i hi hon => ⟨fun hheld => ?claim, fun hheld => ?unheld⟩,
    fun s i k hi hon => ⟨fun hheld => ⟨fun hdue => ?hold, fun hearly => ?holdEarly⟩, fun hst hmbx => ⟨fun hdue => ?timeout, fun hearly => ?early⟩⟩,
    fun s x g g1 a v b ns h hon ha hv hb hns hg => ⟨fun hsrc h0 => ?own, fun hsrc hserve => ⟨fun hcheck hfast => ?executed, fun c hc hne => ?reported⟩⟩,
    fun s x g hon h => ?report, fun s e r hon hlog => ⟨?first, fun harmed => ?last⟩,
    fun s x r hbox hcls => ⟨fun htyp => ?requestFirst, fun htyp => ?bcastFirst⟩,
    fun s l => ⟨fun h => ?noRequest, fun h => ?noResponse, fun h => ?noReport, fun h => ?noBcast⟩⟩
  case busy =>
    obtain ⟨hexec, h1, h4⟩ := exec_rmtCmd s hc
    rw [hexec, answer_onGw, rmtCmd_on hi hon h1 (by omega), rmtStart_busy hbusy, after_self]
  case sent =>
    obtain ⟨hexec, h1, h4⟩ := exec_rmtCmd s hc
    have hslot : (s.gw.slotted i (s.gw.rmtOp i op)).rmtAt i = y := rmtAt_slotted_same.trans hy.symm
    have hsend := rmtCmd_sends hi hon h1 h4 hst hheld halone
    rw [hexec, answer_onGw, hsend, rmtSend_routed (by rw [hslot]; exact htgt) (by rw [hslot]; exact hroute), hslot]
    refine ⟨_, rfl, ?_, ?_, fun m hm hcarry => ?_⟩
    · rw [rmtAt_after, rmtAt_of_rmt (sends_sideSend _ _ _).rmt, rmtAt_setRmt_same]
    · rw [after_gw, interrupts_rmt, (sends_sideSend _ _ _).rmt]
      rfl
    · rw [hm] at hcarry ⊢
      exact out_contains_after s (sideSend_out hcarry)
  case unrouted =>
    obtain ⟨hexec, h1, h4⟩ := exec_rmtCmd s hc
    have hslot : (s.gw.slotted i (s.gw.rmtOp i op)).rmtAt i = y := rmtAt_slotted_same.trans hy.symm
    have hsend := rmtCmd_sends hi hon h1 h4 hst hheld halone
    rw [hexec, answer_onGw, hsend, rmtSend_unrouted (by rw [hslot]; exact htgt) (by rw [hslot]; exact hroute), hslot,
      rmtError_slot 6 0 (by rw [rmtAt_setRmt_same, hy])]
    refine ⟨_, rfl, ?_, ?_⟩ <;> rw [rmtAt_after, rmtAt_setRmt_same]
  case bcast =>
    rw [exec_rmtCmdBcast, answer_onGw, rmtCmd_on hi hon (by decide) (by decide), rmtStart_free hst hheld]
    have hslot : (s.gw.slotted i (s.gw.rmtOp i 5)).rmtAt i = s.gw.tagged i (s.gw.rmtOp i 5) := rmtAt_slotted_same
    have hop : (s.gw.rmtOp i 5).op = 5 := rfl
    rw [if_pos hop, rmtBcast_slot (by rw [hslot]; rfl), hslot]
    refine ⟨_, rfl, ?_, ?_, ?_, fun k m hk hm hcarry => ?_⟩
    · rw [rmtAt_after, rmtAt_setRmt_same]
    · rw [rmtAt_after, rmtAt_setRmt_same]
      rfl
    · rw [after_gw, interrupts_rmt]
      refine Eq.trans (b := (Gw.sendBoth _ _).rmt.bseq) rfl ?_
      rw [(sends_sendBoth _ _).rmt]
      rfl
    · rw [hm] at hcarry ⊢
      exact out_contains_after s (sendBoth_carried (g := { s.gw.slotted i (s.gw.rmtOp i 5) with
        rmt := { (s.gw.slotted i (s.gw.rmtOp i 5)).rmt with bseq := (s.gw.rmt.bseq + 1) % 65536 } }) hk hcarry).1
  case waits => rw [exec_rmtDeferredSend, answer_onGw, rmtDeferred_waits hw, after_self]
  case goes =>
    rw [exec_rmtDeferredSend, answer_onGw, rmtDeferred_goes hst hsent hgo hon, rmtSend_routed htgt hroute]
    refine ⟨_, rfl, ?_⟩
    rw [rmtAt_after, rmtAt_of_rmt (sends_sideSend _ _ _).rmt, rmtAt_setRmt_same]
  case request =>
    rw [exec_rmtRequestExecute]
    refine ⟨_, answer_of_eq (farRequest_taken h hon hq), rfl, rfl, rfl⟩
  case single =>
    rw [farExecute_single hop] at hq
    subst hq
    refine ⟨fun h0 => if_pos h0, fun hserve => ?_⟩
    rw [if_neg hserve]
    refine ⟨fun hbad => ?_, fun ha h4 hoff => ?_, fun ha h4 hio => ?_⟩
    · rw [farCheck_range hbad]
      rfl
    · rw [farCheck_island ha h4 hoff]
      rfl
    · rw [farCheck_passes ha h4 hio, if_neg (by decide)]
      exact farExecute_passed rfl
  case late => exact seqRun_fails (seqOp_late ht) (by decide)
  case refused => exact seqRun_fails (seqOp_refused ht hcheck) hcheck
  case slow =>
    rcases ho with h1 | h2
    · exact seqRun_fails ((seqOp_read ht hcheck h1).trans (access_slow _ ht hd)) (by decide)
    · exact seqRun_fails ((seqOp_write ht hcheck h2).trans (access_slow _ ht hd)) (by decide)
  case read =>
    rw [seqRun_succeeds ((seqOp_read ht hcheck h1).trans (access_done _ ht hd)), if_pos h1]
    rfl
  case write =>
    rw [seqRun_succeeds ((seqOp_write ht hcheck h2).trans (access_done _ ht hd)), if_neg (by omega)]
    rfl
  case response =>
    obtain ⟨l, hl⟩ := takeMsg_shape h
    have hslot : g.rmtAt i = s.gw.rmtAt i := rmtAt_of_rmt (takeMsg_rmt h) i
    have hans := rmtAnswered_slot code (x.msg.body.getD 2 0).toNat ((x.msg.body.drop 3).map Int.toNat) (hslot ▸ hmbx)
    rw [exec_rmtResponseArrival, answer_onGw, if_pos hon, rmtResponse_open h hi hst hsent htag hlow, ← hcode]
    refine ⟨_, rfl, ?_⟩
    rw [rmtAt_after, hans, hslot]
    refine ⟨rfl, rfl, rfl, rfl, ?_⟩
    refine Eq.trans (b := if code = 0 ∧ (s.gw.rmtAt i).reading = true then some g.tb.tick else none) rfl ?_
    simp only [RmtSlot.reading, Bool.or_eq_true, Bool.and_eq_true, decide_eq_true_eq, or_assoc]
    rw [hl]
    rfl
  case claim =>
    rw [exec_rmtRdata0Read, answer_onGw, if_pos (by simp [hi, hon])]
    unfold Gw.rmtClaim
    dsimp only
    rw [if_pos (Option.isSome_iff_ne_none.mpr hheld)]
  case unheld =>
    rw [exec_rmtRdata0Read, answer_onGw, if_pos (by simp [hi, hon])]
    unfold Gw.rmtClaim
    dsimp only
    rw [hheld]
    rfl
  case hold =>
    rw [exec_rmtHoldExpiry, answer_onGw, if_pos (by simp [hi, hon]), rmtHoldExpiry_eq hheld, if_pos hdue]
    refine ⟨_, rfl, ?_⟩
    rw [rmtAt_after, discardData_slot hheld]
    refine ⟨rfl, rfl, fun hop hsens => ?_⟩
    rw [regN_after _ _ (by decide)]
    exact discardData_flag hheld hop hsens
  case holdEarly =>
    rw [exec_rmtHoldExpiry, answer_onGw, if_pos (by simp [hi, hon]), rmtHoldExpiry_eq hheld, if_neg (by omega), after_self]
  case timeout =>
    rw [exec_rmtTimeout, answer_onGw, if_pos (by simp [hi, hon]), rmtTimeout_due hst hdue,
      rmtError_slot 8 0 (by rw [rmtAt_lateNoted]; exact hmbx)]
    refine ⟨_, rfl, ?_⟩
    rw [rmtAt_after, rmtAt_setRmt_same]
    refine ⟨rfl, rfl, fun hsent => ?_⟩
    rw [after_gw, interrupts_rmt]
    unfold Gw.lateNoted
    rw [if_pos hsent]
    rfl
  case early => rw [exec_rmtTimeout, answer_onGw, rmtTimeout_early hearly, ite_self, after_self]
  case own =>
    rw [exec_bcastReceive]
    exact answer_of_withGw (bcastReceive_own h hsrc h0)
  case executed =>
    rw [exec_bcastReceive]
    have hrow := bcastReceive_other h hsrc hon hserve hg ha hv hb hns rfl
    rw [if_neg (by rw [hcheck, if_neg (by decide), if_neg (by omega)]; decide)] at hrow
    exact ⟨_, answer_of_eq hrow, rfl, rfl⟩
  case reported =>
    rw [exec_bcastReceive]
    have hrow := bcastReceive_other h hsrc hon hserve hg ha hv hb hns hc
    rw [if_pos hne] at hrow
    exact answer_of_withGw hrow
  case report =>
    obtain ⟨l, hl⟩ := takeMsg_shape h
    have hlog : g.farLog = s.gw.farLog := by
      rw [hl]
      rfl
    obtain ⟨hflag, hroom, hfull⟩ := farError_acts g (x.msg.body.getD 1 0).toNat (x.msg.body.getD 0 0).toNat x.msg.src
      (x.msg.body.getD 2 0).toNat ((x.msg.body.getD 3 0).toNat = 1)
    rw [hlog] at hroom hfull
    rw [exec_farErrorReport, answer_onGw, if_pos hon, farReport_taken h]
    refine ⟨_, rfl, ?_, fun hlen => ?_, fun hlen => ?_⟩
    · rw [regN_after _ _ (by decide)]
      exact hflag
    · rw [after_gw, interrupts_farLog]
      exact hroom hlen
    · rw [regN_after _ _ (by decide), after_gw, interrupts_farLog]
      exact hfull hlen
  case first => rw [exec_rmtFerrEnt0Read, answer_onGw, if_pos hon, ferrRead0_entry hlog]
  case last => rw [exec_rmtFerrEnt2Read, answer_onGw, if_pos hon, ferrRead2_armed hlog harmed]
  case requestFirst => exact takeRmt_head hbox hcls htyp (.inl rfl) (by decide)
  case bcastFirst => exact takeRmt_head hbox hcls htyp (.inr rfl) (by decide)
  case noRequest =>
    rw [exec_rmtRequestExecute]
    refine answer_same ?_
    unfold farRequest
    rw [h]
  case noResponse =>
    rw [exec_rmtResponseArrival, answer_onGw]
    have hsame : s.gw.rmtResponse = s.gw := by
      unfold Gw.rmtResponse
      rw [h]
    rw [hsame, ite_self, after_self]
  case noReport =>
    rw [exec_farErrorReport, answer_onGw]
    have hsame : s.gw.farReport = s.gw := by
      unfold Gw.farReport
      rw [h]
    rw [hsame, ite_self, after_self]
  case noBcast =>
    rw [exec_bcastReceive]
    refine answer_same ?_
    unfold bcastReceive
    rw [h]

end Sys2Proof.Machine
end

section
/-! SUPPORT. Network sleep: the entry into SLEEP_PREP and its abort, wakes, keep-alives and the insomnia check (R680–R696). -/

namespace Sys2Proof.Machine

theorem exec_nmSleep (m : Nat) (s : State) : exec (.nmSleep m) s = answer (directRow 0x0C01 (effGw nmSleep) m) s := rfl
theorem exec_nmStay (m : Nat) (s : State) : exec (.nmStay m) s = answer (directRow 0x0C02 (effGw nmStay) m) s := rfl
theorem exec_nmInsomnia (m : Nat) (s : State) : exec (.nmInsomnia m) s = answer (directRow 0x0C03 (effGw nmInsomnia) m) s := rfl
theorem exec_nmWakeCause (m : Nat) (s : State) : exec (.nmWakeCause m) s = answer (directRow 0x0C04 (effGw nmWakeCause) m) s := rfl
theorem exec_keepaliveReceive (s : State) : exec .keepaliveReceive s =
    answer (onGw (fun g => if g.inService && g.pairRuns 1 then g.keepalive else g)) s := rfl
theorem exec_keepaliveTimer (s : State) : exec .keepaliveTimer s = answer (onGw Gw.keepaliveTimer) s := rfl
theorem exec_nmDeadlineExpiry (b : Nat) (s : State) : exec (.nmDeadlineExpiry b) s =
    answer (onGw (fun g => if g.nmBuses.contains b && g.quiet b then g.sleepDecide else g)) s := rfl
theorem exec_insomniaCheck (s : State) : exec .insomniaCheck s = answer (onGw Gw.insomniaCheck) s := rfl
theorem exec_wakeSample (pins phys : Nat) (s : State) :
    exec (.wakeSample pins phys) s = answer (onGw (fun g => g.wakeSample pins phys)) s := rfl
theorem exec_wakeDecoderMatch (d : Nat) (f : BusFrame) (crcOk : Bool) (s : State) : exec (.wakeDecoderMatch d f crcOk) s =
    answer (onGw (fun g => if d < 8 && wdecMatches (mgetD g.aon.decoders d 0) f crcOk then
      g.wakeEvent { src := 1, index := d, ident := f.ident } else g)) s := rfl
theorem exec_wakePin (n : Nat) (s : State) : exec (.wakePin n) s = answer (onGw (fun g =>
    if n < 8 && g.listening && bit (activePins g.aon.wakePins g.aon.pins &&& activePins g.aon.wakePins g.aon.pinsBefore) n then
      g.wake [{ src := 2, index := n }] else g)) s := rfl
theorem exec_t1sActivityWake (n us : Nat) (s : State) : exec (.t1sActivityWake n us) s = answer (onGw (fun g =>
    if n < 8 && bit g.aon.wakeOther n && 100 ≤ us then g.wakeEvent { src := 3, index := n } else g)) s := rfl
theorem exec_phyInterruptWake (n : Nat) (s : State) : exec (.phyInterruptWake n) s = answer (onGw (fun g =>
    if n < 12 && g.listening && bit g.aon.wakeOther (8 + n) && !bit g.aon.phys n && !bit g.aon.physBefore n then
      g.wake [{ src := 4, index := n }] else g)) s := rfl

/-! ### Into SLEEP_PREP and back -/

theorem setFw_inbox (g : Gw) (st : FwState) : (g.setFw st).nm.inbox = g.nm.inbox := by
  unfold Gw.setFw
  split
  · rfl
  · dsimp only
    split <;> rfl

/-- The AON island armed for a wake: the decoders that can follow their controllers, the pins and the other sources as
configured. -/
def Gw.armedAon (g : Gw) : Aon :=
  { g.aon with
    armed := true
    decoders := (List.range 8).foldl (fun (m : Map Nat) i => let v := g.param (Par.nmWdec i)
      if g.wdecRate (v % 32) then mput m i v 0 else m) []
    wakePins := g.param Par.nmWakePins
    wakeOther := g.param Par.nmWakeOther
    events := [] }

theorem enterPrep_acts (g : Gw) : g.enterPrep.fw.state = .sleepPrep ∧ g.enterPrep.fw.back = g.fw.state ∧
    g.enterPrep.aon = g.armedAon ∧ ∀ o, o ≠ Reg.mbxFlag → g.enterPrep.regN o = g.regN o := by
  obtain ⟨rs, n, heq, hreg⟩ := setFw_shape { g with
    aon := g.armedAon
    nm := { g.nm with prepTick := g.tb.tick }
    fw := { g.fw with back := g.fw.state } } .sleepPrep
  have hprep : g.enterPrep = _ := heq
  refine ⟨?_, ?_, ?_, hreg⟩ <;> rw [hprep]

/-- What the abort of a sleep in preparation leaves: the state it came from, the AON island disarmed, and its count. -/
theorem abortSleep_acts {g : Gw} (h : g.fw.state = .sleepPrep) : g.abortSleep.fw.state = g.fw.back ∧
    g.abortSleep.aon = { g.aon with armed := false, events := [] } ∧
    bit (g.abortSleep.regN Reg.nmFlag) 31 = true ∧ g.abortSleep.regN Reg.nmAbortCnt = satAdd (g.regN Reg.nmAbortCnt) 1 ∧
    g.abortSleep.regN Reg.nmKaRxCnt = g.regN Reg.nmKaRxCnt := by
  obtain ⟨rs, n, heq, hreg⟩ := setFw_shape ((g.bump Reg.nmAbortCnt).flag Reg.nmFlag 0x80000000) g.fw.back
  have habort : g.abortSleep = { ((g.bump Reg.nmAbortCnt).flag Reg.nmFlag 0x80000000).setFw g.fw.back with
      aon := { (((g.bump Reg.nmAbortCnt).flag Reg.nmFlag 0x80000000).setFw g.fw.back).aon with armed := false, events := [] } } :=
    if_pos h
  have hregs : ∀ o, o ≠ Reg.mbxFlag →
      g.abortSleep.regN o = ((g.bump Reg.nmAbortCnt).flag Reg.nmFlag 0x80000000).regN o := by
    intro o ho
    rw [habort]
    exact hreg o ho
  refine ⟨?_, ?_, ?_, ?_, ?_⟩
  · rw [habort, heq]
  · rw [habort, heq]
    rfl
  · rw [hregs _ (by decide)]
    exact bit_regN_flag_of_mask _ _ (by omega) (by decide)
  · rw [hregs _ (by decide), regN_flag_ne _ (by decide), regN_bump_same]
  · rw [hregs _ (by decide), regN_flag_ne _ (by decide), regN_bump_ne _ (by decide)]

theorem abortSleep_other {g : Gw} (h : g.fw.state ≠ .sleepPrep) : g.abortSleep = g := if_neg h

/-- The abort keeps AWAKE and the keep-alives that wait. -/
theorem abortSleep_nm (g : Gw) : g.abortSleep.nm.awake = g.nm.awake ∧ g.abortSleep.nm.inbox = g.nm.inbox := by
  by_cases h : g.fw.state = .sleepPrep
  · have habort : g.abortSleep.nm = (((g.bump Reg.nmAbortCnt).flag Reg.nmFlag 0x80000000).setFw g.fw.back).nm := by
      unfold Gw.abortSleep
      rw [if_pos h]
    rw [habort, setFw_awake, setFw_inbox]
    exact ⟨rfl, rfl⟩
  · rw [abortSleep_other h]
    exact ⟨rfl, rfl⟩

/-- The decision when its conditions hold. -/
theorem sleepDecide_due {g : Gw} (hserve : g.serving = true) (hrun : g.pairRuns 1 = true) (hbus : g.nmBuses ≠ [])
    (hquiet : ∀ k ∈ g.nmBuses, g.quiet k = true) (hneed : g.ownNeed = false) :
    g.sleepDecide = ((g.bump Reg.nmSleepCnt).note "sleep decision" [g.now / 8]).enterPrep := by
  have hall : g.allQuiet = true := List.all_eq_true.mpr hquiet
  unfold Gw.sleepDecide
  exact if_pos (by simp [hserve, hrun, hbus, hall, hneed])

/-- What each sample of the AON island records, apart from wakes. -/
def Aon.sampled (a : Aon) : Nat × Nat × Nat × Nat := (a.pins, a.pinsBefore, a.phys, a.tick)

/-- A decision keeps what was sampled and the waiting wake, and leaves no event. -/
theorem sleepDecide_aon (g : Gw) : g.sleepDecide.aon.sampled = g.aon.sampled ∧ g.sleepDecide.aon.waking = g.aon.waking ∧
    (g.aon.events = [] → g.sleepDecide.aon.events = []) := by
  unfold Gw.sleepDecide
  split
  · rw [(enterPrep_acts _).2.2.1]
    exact ⟨rfl, rfl, fun _ => rfl⟩
  · exact ⟨rfl, rfl, fun h => h⟩

/-! ### Wakes -/

theorem abortSleep_sampled (g : Gw) : g.abortSleep.aon.sampled = g.aon.sampled ∧
    (g.aon.events = [] → g.abortSleep.aon.events = []) := by
  by_cases h : g.fw.state = .sleepPrep
  · rw [(abortSleep_acts h).2.1]
    exact ⟨rfl, fun _ => rfl⟩
  · rw [abortSleep_other h]
    exact ⟨rfl, fun h => h⟩

theorem wake_sampled (g : Gw) (l : List WakeEvent) : (g.wake l).aon.sampled = g.aon.sampled ∧
    (g.aon.events = [] → (g.wake l).aon.events = []) := by
  unfold Gw.wake
  split
  · exact ⟨rfl, fun h => h⟩
  · split
    · dsimp only
      split <;> split <;> exact ⟨rfl, fun h => h⟩
    · split
      · exact abortSleep_sampled g
      · exact ⟨rfl, fun h => h⟩

/-- The first wake after the commit point waits. -/
theorem wake_first {g : Gw} (e : WakeEvent) (hasleep : g.aon.asleep = true) (hwaking : g.aon.waking = none) :
    g.wake [e] = { g with aon := { g.aon with waking := some ⟨e, true, g.aon.tick - g.aon.sleepTick⟩ } } := by
  unfold Gw.wake
  simp only [leastBy, hasleep, hwaking, if_true]

theorem wakeEvent_listening {g : Gw} (e : WakeEvent) (h : g.listening = true) :
    g.wakeEvent e = { g with aon := { g.aon with events := g.aon.events ++ [e] } } := if_pos h

/-- The AON island with a sample of the pins taken. -/
def Aon.sample (a : Aon) (pins phys : Nat) (retry : Bool) : Aon :=
  { a with tick := a.tick + 1, pinsBefore := a.pins, pins := pins, physBefore := a.phys, phys := phys, events := [],
           pwrEn := a.pwrEn || retry, retryAt := if retry then none else a.retryAt,
           pwrTick := if retry then a.tick + 1 else a.pwrTick }

theorem wakeSample_eq (g : Gw) (pins phys : Nat) : ∃ retry,
    g.wakeSample pins phys = (({ g with aon := g.aon.sample pins phys retry } : Gw).wake g.aon.events).sleepDecide := ⟨_, rfl⟩

/-! ### Keep-alives -/

theorem translate_unshifted {g : Gw} (h : g.str.shift = []) (t : Stamp) (a b : Nat) : g.translate t a b = t := by
  unfold Gw.translate
  rw [h]
  exact Int.add_zero t

/-- Whether a keep-alive moves its bus's deadline. -/
def Gw.movesDeadline (g : Gw) (k : NmHeard) : Bool :=
  match mget? g.nm.deadlines k.bus with
  | some (o, s) => decide (g.translate o s g.tb.seg < g.translate (k.stamp + g.nmTimeout) k.seg g.tb.seg)
  | none => true

theorem movesDeadline_some {g : Gw} {k : NmHeard} {d : Stamp × Nat} (h : mget? g.nm.deadlines k.bus = some d) :
    g.movesDeadline k = decide (g.translate d.1 d.2 g.tb.seg < g.translate (k.stamp + g.nmTimeout) k.seg g.tb.seg) := by
  unfold Gw.movesDeadline
  rw [h]

theorem movesDeadline_none {g : Gw} {k : NmHeard} (h : mget? g.nm.deadlines k.bus = none) : g.movesDeadline k = true := by
  unfold Gw.movesDeadline
  rw [h]

/-- The deadlines after a keep-alive with NEED 1. -/
def Gw.deadlinesAfter (g : Gw) (k : NmHeard) : Map (Stamp × Nat) :=
  if g.movesDeadline k then mset g.nm.deadlines k.bus (k.stamp + g.nmTimeout, k.seg) else g.nm.deadlines

/-- The module with a keep-alive with NEED 1 recorded. -/
def Gw.hearing (g : Gw) (k : NmHeard) (rest : List NmHeard) : Gw :=
  { g.bump Reg.nmKaRxCnt with nm := { g.nm with
      inbox := rest
      deadlines := g.deadlinesAfter k
      heard := (g.nm.heard.filter (fun x => !(x.bus = k.bus && x.node = fromBe (slice k.bytes 2 2)))) ++
        [{ bus := k.bus, node := fromBe (slice k.bytes 2 2), stamp := k.stamp, seg := k.seg }] } }

theorem keepalive_needing {g : Gw} {k : NmHeard} {rest : List NmHeard} (h : g.nm.inbox = k :: rest)
    (hkind : byteAt k.bytes 0 / 16 = 1) (hneed : byteAt k.bytes 1 % 2 = 1) :
    g.keepalive = (g.hearing k rest).abortSleep := by
  unfold Gw.keepalive
  rw [h]
  dsimp only
  rw [if_neg (not_not.mpr hkind), if_neg (by omega)]
  rfl

/-- After a keep-alive its bus's deadline lies at the timeout behind it at least. -/
theorem deadlinesAfter_late (g : Gw) (k : NmHeard) (hshift : g.str.shift = []) :
    ∃ d, mget? (g.deadlinesAfter k) k.bus = some d ∧ k.stamp + g.nmTimeout ≤ d.1 := by
  unfold Gw.deadlinesAfter
  cases hold : mget? g.nm.deadlines k.bus with
  | none =>
    rw [movesDeadline_none hold, if_pos rfl]
    exact ⟨_, mget?_mset_same _ _ _, Int.le_refl _⟩
  | some d =>
    rw [movesDeadline_some hold, translate_unshifted hshift, translate_unshifted hshift]
    by_cases hlater : d.1 < k.stamp + g.nmTimeout
    · rw [if_pos (decide_eq_true hlater)]
      exact ⟨_, mget?_mset_same _ _ _, Int.le_refl _⟩
    · rw [if_neg (by simp only [decide_eq_true_eq]; exact hlater)]
      exact ⟨d, hold, Int.not_lt.mp hlater⟩

/-- A frame of an engine changes the order, Caldera, and the registers of its own discard. -/
theorem deliverInternal_acts (g : Gw) (x : Frame) : (g.deliverInternal x).nm = g.nm ∧
    ∀ o, o ≠ Reg.fabCalNocellCnt → o ≠ Reg.fabCalFlag → (g.deliverInternal x).regN o = g.regN o := by
  unfold Gw.deliverInternal
  split
  · exact ⟨rfl, fun _ _ _ => rfl⟩
  · unfold Gw.toStrata
    split
    next hstore =>
      rw [storeFrame_cal_only hstore]
      exact ⟨rfl, fun _ _ _ => rfl⟩
    next =>
      refine ⟨rfl, fun o hcnt hflag => ?_⟩
      exact (regN_flag_ne _ hflag).trans (regN_bump_ne _ hcnt)

/-- A keep-alive sent on a CAN bus. -/
theorem sendKeepalive_bus {g : Gw} {b : Nat} (hb : b < 32) :
    (g.sendKeepalive b).nm = { g.nm with seqTx := mset g.nm.seqTx b ((mgetD g.nm.seqTx b 0 + 1) % 65536) } ∧
    (g.sendKeepalive b).regN Reg.nmKaTxCnt = satAdd (g.regN Reg.nmKaTxCnt) 1 := by
  unfold Gw.sendKeepalive
  dsimp only
  rw [if_pos hb]
  constructor
  · rw [(deliverInternal_acts _ _).1]
    rfl
  · rw [(deliverInternal_acts _ _).2 _ (by decide) (by decide), regN_bump_same]
    rfl

theorem keepaliveTimer_first {g : Gw} {b : Nat} (hserv : g.inService = true) (hrun : g.pairRuns 1 = true)
    (hfirst : g.nm.kaTick = none) (hneed : g.ownNeed = true) (hbus : g.nmBuses = [b]) :
    g.keepaliveTimer = ({ g with nm := { g.nm with kaTick := some g.tb.tick } } : Gw).sendKeepalive b := by
  unfold Gw.keepaliveTimer
  rw [hfirst, hbus]
  exact if_pos (by simp [hserv, hrun, hneed])

/-! ### The insomnia check -/

/-- The nodes heard within the timeout. -/
def Gw.heardLately (g : Gw) : List NmNode :=
  g.nm.heard.filter (fun n => g.now < g.translate n.stamp n.seg g.tb.seg + g.nmTimeout)

/-- The module after a check that finds a bus not quiet. -/
def Gw.sleepless (g : Gw) : Gw :=
  { g with
    nm := { g.nm with checkTick := g.tb.tick }
    aon := { g.aon with insomnia := g.heardLately.foldl (fun l n => logNode l n.bus n.node (n.stamp / 8)) g.aon.insomnia } }

theorem insomniaCheck_prevented {g : Gw} {b : Nat} (hbus : b ∈ g.nmBuses) (hquiet : g.quiet b = false) (hserve : g.serving = true)
    (hrun : g.pairRuns 1 = true) (hneed : g.ownNeed = false)
    (hdue : g.nm.checkTick + g.param Par.nmKaPeriodMs * ticksPerMs ≤ g.tb.tick) :
    g.insomniaCheck = if g.heardLately.isEmpty then g.sleepless else g.sleepless.flag Reg.nmFlag 0x40000000 := by
  have hall : ¬ (({ g with nm := { g.nm with checkTick := g.tb.tick } } : Gw).allQuiet = true) := by
    intro hall
    have hb : g.quiet b = true := List.all_eq_true.mp hall b hbus
    rw [hquiet] at hb
    cases hb
  unfold Gw.insomniaCheck
  rw [if_pos (by simp [hserve, hrun, hneed, hdue])]
  exact if_neg hall

/-! ### The insomnia log and replies -/

theorem length_insertBy {α : Type} (lt : α → α → Bool) (x : α) (l : List α) : (insertBy lt x l).length = l.length + 1 := by
  induction l with
  | nil => rfl
  | cons y r ih =>
    unfold insertBy
    split
    · rfl
    · exact congrArg (· + 1) ih

theorem length_foldr_insertBy {α : Type} (lt : α → α → Bool) (l : List α) : (l.foldr (insertBy lt) []).length = l.length := by
  induction l with
  | nil => rfl
  | cons x r ih => rw [List.foldr_cons, length_insertBy, ih, List.length_cons]

/-- The module with its insomnia log read, and cleared on request. -/
def Gw.insomniaRead (g : Gw) (clear : Bool) : Gw :=
  { g with aon := { g.aon with insomnia := if clear then [] else g.aon.insomnia } }

theorem nmInsomnia_row (m : Nat) (g : Gw) : ∃ ws, nmInsomnia m g =
    (g.insomniaRead (bit (g.arg m 0) 0), { words := g.aon.insomnia.length :: ws }) := by
  unfold nmInsomnia Gw.insomniaRead
  dsimp only
  rw [length_foldr_insertBy]
  cases bit (g.arg m 0) 0 <;> exact ⟨_, rfl⟩

/-- The first payload word of a reply. -/
theorem arg_reply_first {g : Gw} {m : Nat} (st : Nat) (a : Stamp) (w : Nat) (ws : List Nat) (hm : m < 64)
    (hcode : g.reqCode m ≠ 0x0A01) : (g.reply m st a (w :: ws)).arg m 0 = w % 2 ^ 32 := by
  unfold Gw.arg
  rw [mbxWord_reply st a (w :: ws) hcode hm (by decide), if_pos (by simp)]
  rfl

theorem mbxAt_after (s : State) (g : Gw) (m : Nat) : (s.after g).gw.mbxAt m = g.mbxAt m := by
  unfold Gw.mbxAt
  rw [after_gw, interrupts_mbx]

end Sys2Proof.Machine
end

section
/-! The statement on network sleep and wake (R631–R632, R680–R696). -/

namespace Sys2Proof.Machine

/-- Settles O43: command by command through the entry into SLEEP_PREP, its abort, the wakes and the checks. -/
theorem networkSleepAndWake : Obligations.NetworkSleepAndWake := by
  unfold Obligations.NetworkSleepAndWake
  refine ⟨fun s m h hserve => ?sleep, fun s m h hon => ?stay, fun s m h => ?insomnia, fun s m h => ?cause,
    fun s k rest hserv hrun hbox hkind hneed hseg hshift => ?heard, fun s b hserv hrun hfirst hneed hbus hb => ?timer,
    fun s b hbus hserve hrun hquiet hneed => ?decide, fun s b hbus hserve hrun hneed hquiet hdue => ?check,
    fun s pins phys => ?sample, fun s d f hd hlisten hmatch => ?decoder, fun s n us hn hlisten hon hus => ?activity,
    fun s n src c hasleep hwaking hc => ?latched, fun s => ⟨fun hdue => ?commit, fun hnot => ?uncommitted⟩,
    fun s => ⟨fun r hasleep hwaking => ?start, fun hawake => ?awake⟩, fun s => ?crystal⟩
  case sleep =>
    obtain ⟨hstate, hback, haon, -⟩ := enterPrep_acts s.gw
    obtain ⟨rs, ms, hshape, hdone, -⟩ := reply_shape s.gw.enterPrep m 0 0 []
    rw [exec_nmSleep, answer_of_withGw (directRow_words h rfl)]
    refine ⟨_, rfl, ?_, ?_, ?_, ?_, ?_, ?_⟩
    case refine_6 => rw [mbxAt_after, hdone]
    all_goals rw [after_gw, hshape]
    · rw [interrupts_fw, hstate]
    · rw [interrupts_fw, hback]
    all_goals
      rw [interrupts_aon]
      refine Eq.trans (congrArg _ haon) rfl
  case stay =>
    have hrow : nmStay m s.gw = (({ s.gw with nm := { s.gw.nm with awake := true } } : Gw).abortSleep, {}) := by
      unfold nmStay
      rw [hon]
      rfl
    generalize hg : ({ s.gw with nm := { s.gw.nm with awake := true } } : Gw) = g at hrow
    obtain ⟨rs, ms, hshape, hdone, -⟩ := reply_shape g.abortSleep m 0 0 []
    rw [exec_nmStay, answer_of_withGw (directRow_words h hrow)]
    refine ⟨_, rfl, ?_, by rw [mbxAt_after, hdone], fun hprep _ => ?_⟩
    · rw [after_gw, interrupts_nm, hshape]
      refine (abortSleep_nm g).1.trans ?_
      rw [← hg]
    · obtain ⟨hstate, haon, hflag, hcnt, -⟩ := abortSleep_acts (g := g) (by rw [← hg]; exact hprep)
      rw [regN_after _ _ (by decide), regN_after _ _ (by decide), regN_reply_above _ _ _ _ (lt_of_holds h) (by decide) (by decide),
        regN_reply_above _ _ _ _ (lt_of_holds h) (by decide) (by decide)]
      refine ⟨?_, ?_, hflag, ?_⟩
      · rw [after_gw, interrupts_fw, hshape]
        refine hstate.trans ?_
        rw [← hg]
      · rw [after_gw, interrupts_aon, hshape]
        exact congrArg Aon.armed haon
      · rw [hcnt, ← hg]
        rfl
  case insomnia =>
    obtain ⟨ws, hrow⟩ := nmInsomnia_row m s.gw
    rw [exec_nmInsomnia, answer_of_withGw (directRow_words h hrow)]
    have hcode : s.gw.reqCode m ≠ 0x0A01 := by
      rw [reqCode_of_holds h]
      decide
    generalize hg : s.gw.insomniaRead (bit (s.gw.arg m 0) 0) = g
    have hsame : g.reqCode m = s.gw.reqCode m := by rw [← hg]; rfl
    obtain ⟨rs, ms, hshape, hdone, -⟩ := reply_shape g m 0 0 (s.gw.aon.insomnia.length :: ws)
    refine ⟨_, rfl, ?_, ?_, by rw [mbxAt_after, hdone]⟩
    · have harg := arg_reply_first 0 0 s.gw.aon.insomnia.length ws (lt_of_holds h) (hsame ▸ hcode)
      refine Eq.trans (regN_after _ _ ?_) harg
      unfold mbxOff Reg.mbxWord
      omega
    · rw [after_gw, interrupts_aon, hshape, ← hg]
      rfl
  case cause =>
    rw [exec_nmWakeCause]
    exact answer_of_withGw (directRow_words h rfl)
  case heard =>
    rw [exec_keepaliveReceive, answer_onGw, if_pos (by simp [hserv, hrun]), keepalive_needing hbox hkind hneed]
    refine ⟨_, rfl, ?_, ?_, fun hstate => ?_, fun hprep _ => ?_⟩
    · rw [after_gw, interrupts_nm, (abortSleep_nm _).2]
      rfl
    · rw [regN_after _ _ (by decide)]
      have hcnt : (s.gw.hearing k rest).regN Reg.nmKaRxCnt = satAdd (s.gw.regN Reg.nmKaRxCnt) 1 := regN_bump_same s.gw _
      by_cases hprep : s.gw.fw.state = .sleepPrep
      · rw [(abortSleep_acts (g := s.gw.hearing k rest) hprep).2.2.2.2, hcnt]
      · rw [abortSleep_other (g := s.gw.hearing k rest) hprep, hcnt]
    · rw [after_gw, interrupts_nm, abortSleep_other (g := s.gw.hearing k rest) hstate]
      exact deadlinesAfter_late s.gw k hshift
    · rw [after_gw, interrupts_fw, (abortSleep_acts (g := s.gw.hearing k rest) hprep).1]
      rfl
  case timer =>
    obtain ⟨hnm, hcnt⟩ := sendKeepalive_bus (g := { s.gw with nm := { s.gw.nm with kaTick := some s.gw.tb.tick } }) hb
    rw [exec_keepaliveTimer, answer_onGw, keepaliveTimer_first hserv hrun hfirst hneed hbus]
    refine ⟨_, rfl, ?_, ?_, ?_⟩
    · rw [after_gw, interrupts_nm, hnm]
    · rw [regN_after _ _ (by decide), hcnt]
      rfl
    · rw [after_gw, interrupts_nm, hnm]
      exact mgetD_mset_same _ _ _ _
  case decide =>
    have hmem : b ∈ s.gw.nmBuses := List.contains_iff_mem.mp hbus
    rw [exec_nmDeadlineExpiry, answer_onGw, if_pos (by simp [hmem, hquiet b hmem]),
      sleepDecide_due hserve hrun (List.ne_nil_of_mem hmem) hquiet hneed]
    obtain ⟨hstate, -, haon, hreg⟩ := enterPrep_acts ((s.gw.bump Reg.nmSleepCnt).note "sleep decision" [s.gw.now / 8])
    refine ⟨_, rfl, ?_, ?_, ?_⟩
    · rw [after_gw, interrupts_fw, hstate]
    · rw [after_gw, interrupts_aon, haon]
      rfl
    · rw [regN_after _ _ (by decide), hreg _ (by decide)]
      exact regN_bump_same s.gw _
  case check =>
    rw [exec_insomniaCheck, answer_onGw, insomniaCheck_prevented (List.contains_iff_mem.mp hbus) hquiet hserve hrun hneed hdue]
    refine ⟨_, rfl, ?_, ?_, fun hlate => ?_, fun hnone => ?_⟩
    · rw [after_gw, interrupts_fw]
      split <;> rfl
    · rw [after_gw, interrupts_nm]
      split <;> rfl
    · obtain ⟨n, hn, hlately⟩ := hlate
      have hmem : n ∈ s.gw.heardLately := List.mem_filter.mpr ⟨hn, decide_eq_true hlately⟩
      rw [if_neg (by simp [List.ne_nil_of_mem hmem]), regN_after _ _ (by decide)]
      exact bit_regN_flag_of_mask _ _ (by omega) (by decide)
    · have hempty : s.gw.heardLately = [] :=
        List.filter_eq_nil_iff.mpr fun n hn => by simpa using hnone n hn
      rw [hempty, if_pos List.isEmpty_nil, regN_after _ _ (by decide), after_gw, interrupts_aon]
      refine ⟨?_, rfl⟩
      unfold Gw.sleepless
      rw [hempty]
      rfl
  case sample =>
    obtain ⟨retry, heq⟩ := wakeSample_eq s.gw pins phys
    rw [exec_wakeSample, answer_onGw, heq]
    generalize hg : ({ s.gw with aon := s.gw.aon.sample pins phys retry } : Gw) = g
    have hevents : g.aon.events = [] := by rw [← hg]; rfl
    obtain ⟨hsampled, hwaking, hnone⟩ := sleepDecide_aon (g.wake s.gw.aon.events)
    have hall : (g.wake s.gw.aon.events).sleepDecide.aon.sampled = (pins, s.gw.aon.pins, phys, s.gw.aon.tick + 1) := by
      rw [hsampled, (wake_sampled _ _).1, ← hg]
      rfl
    simp only [Aon.sampled, Prod.mk.injEq] at hall
    obtain ⟨hpins, hbefore, hphys, htick⟩ := hall
    refine ⟨_, rfl, ?_, ?_, ?_, ?_, ?_, fun e hasleep hidle hone => ?_⟩ <;> rw [after_gw, interrupts_aon]
    · exact hpins
    · exact hbefore
    · exact hphys
    · exact hnone ((wake_sampled _ _).2 hevents)
    · exact htick
    · rw [hwaking, hone, wake_first e (by rw [← hg]; exact hasleep) (by rw [← hg]; exact hidle)]
      exact ⟨_, rfl, rfl⟩
  case decoder =>
    rw [exec_wakeDecoderMatch, answer_onGw, if_pos (by simp [hd, hmatch]), wakeEvent_listening _ hlisten]
  case activity =>
    rw [exec_t1sActivityWake, answer_onGw, if_pos (by simp [hn, hon, hus]), wakeEvent_listening _ hlisten]
  case latched =>
    have hlisten : s.gw.listening = true := by
      unfold Gw.listening
      rw [hasleep, Bool.or_true]
    rcases hc with ⟨rfl, rfl, hn, hpin⟩ | ⟨rfl, rfl, hn, hon, hnow, hbefore⟩
    · rw [exec_wakePin, answer_onGw, if_pos (by simp [hn, hlisten, hpin]), wake_first _ hasleep hwaking]
    · rw [exec_phyInterruptWake, answer_onGw, if_pos (by simp [hn, hlisten, hon, hnow, hbefore]), wake_first _ hasleep hwaking]
  case commit =>
    obtain ⟨os, -, heq⟩ := commitSleep_eq s.gw
    rw [exec_commitTick_due hdue, heq]
    refine ⟨_, rfl, ?_, ?_, ?_, ?_, rfl⟩ <;> rw [interrupts_aon]
  case uncommitted =>
    rw [exec_commitTick]
    exact answer_same (if_neg (by simp [hnot]))
  case start =>
    rw [exec_aonWakeStart, answer_onGw, if_pos hasleep]
    unfold Gw.wakeStart
    rw [hwaking]
    refine ⟨_, rfl, ?_, ?_, ?_, ?_⟩ <;> rw [after_gw, interrupts_aon]
  case awake => rw [exec_aonWakeStart, answer_onGw, if_neg (by simp [hawake]), after_self]
  case crystal =>
    rw [exec_aonCrystalTakeover, answer_onGw]
    refine ⟨_, rfl, ?_, ?_⟩
    · rw [after_gw, interrupts_aon]
    · rw [after_gw, interrupts_isl]

end Sys2Proof.Machine
end
